-- ==== Sys2Proof/Word.lean ====
section
/-!
DEFINITION. The word types of Kloyn 3 (R2, R3) and their plainest arithmetic: bit fields of a number
and little-endian assembly of bytes.
-/

namespace Sys2Proof

/-- A byte, R3. -/
abbrev Byte := BitVec 8
/-- A word of 32 bits, R3. -/
abbrev Word := BitVec 32
/-- A double of 64 bits, R3. -/
abbrev Dword := BitVec 64
/-- A 6-bit operand code, R86. -/
abbrev Code := BitVec 6

/-- Bits `hi:lo` of a number, R2. -/
def fld (w hi lo : Nat) : Nat := (w >>> lo) % 2 ^ (hi + 1 - lo)

/-- Bit `i` of a number. -/
def bitAt (w i : Nat) : Bool := w.testBit i

/-- The number whose little-endian bytes are given (R2). -/
def leNat : List Byte → Nat
  | [] => 0
  | b :: bs => b.toNat + 256 * leNat bs

/-- The first `n` little-endian bytes of a number (R2). -/
def leBytes : Nat → Nat → List Byte
  | 0, _ => []
  | n + 1, w => BitVec.ofNat 8 w :: leBytes n (w / 256)

/-- `n` rounded up to a multiple of `m`. -/
def roundUp (n m : Nat) : Nat := (n + m - 1) / m * m

/-- The even-odd pair of two words: the first keeps bits 31:0 (R2). -/
def pairOf (lo hi : Word) : Dword := hi ++ lo

end Sys2Proof
end

