-- ==== Sys2Proof/Syntax.lean ====
section
/-!
DEFINITION. The syntax of Kloyn 3 on the Plorex P960: one constructor of `Instr` per row of the
opcode table.  The first 74 constructors are the device's steps that no word encodes ("What each step
holds"): their arguments say which unit takes the step and what the outside world supplies with it.
The other 290 are instruction words (R83-R90, R96): their arguments are the fields of the word.
-/

namespace Sys2Proof

/-- Who is parked on, or held by, a translation or write-protection fault (R205, R272, R294, R328, R383). -/
inductive FaultUnit where
  | threads | copy | copyStamp | matrix | matrixStamp | xpair | reproj | coll
  deriving DecidableEq, Repr

/-- The parts of a core that correct errors (R396). -/
inductive CorePart where
  | registers | scratchpad | l1 | icache | traversal
  deriving DecidableEq, Repr

/-- The parts of a cluster's engines whose fault withdraws the cluster (R396). -/
inductive ClusterPart where
  | accumulators | weights | copyEngine | reproj
  deriving DecidableEq, Repr

/-- A unit that counts its corrected soft errors (R395, R396). -/
inductive HwUnit where
  | core (c : Nat) (part : CorePart)
  | matrixCell (cluster : Nat)
  | cluster (k : Nat) (part : ClusterPart)
  | l2Slice (die slice : Nat)
  | memoryBlock (pa : Nat)
  | scribe (die : Nat)
  deriving DecidableEq, Repr

/-- What an uncorrectable error strikes (R397). -/
inductive ErrTarget where
  | crewState (crew : Nat)
  | memory (pa : Nat)
  | other
  deriving DecidableEq, Repr

/-- Where an uncorrectable error arises, and what it strikes (R397). -/
structure ErrPlace where
  unit : HwUnit
  target : ErrTarget
  deriving DecidableEq, Repr

/-- The payload of a peer's command; `whole` unless the transport gave it up (R377). -/
structure Payload where
  bytes : List (BitVec 8)
  whole : Bool
  deriving DecidableEq, Repr

/-- Whom a registration message names: the partition, by its job identifier, and the sender's fabric address (R375,
R378). -/
structure PeerJob where
  job : BitVec 32
  peer : BitVec 32
  deriving DecidableEq, Repr

/-- A communicator's command, by its number (R381). -/
structure CommandRef where
  comm : Nat
  seq : Nat
  deriving DecidableEq, Repr

/-- How long this rank has waited for a message of a rank, in units of 2^10 counter cycles (R384). -/
structure CollWait where
  rank : Nat
  waited : Nat
  deriving DecidableEq, Repr

/-- A firmware or system image: the digest of the key that signs it, its own digest, and its signature (R387). -/
structure Image where
  key : BitVec 512
  digest : BitVec 512
  sig : BitVec 4096
  deriving DecidableEq, Repr

/-- What Sprinow gives a partition at a start (R387-R389, R392). -/
structure PartSetup where
  ctx : BitVec 1024
  image : Image
  /-- the digest of the owner key that Sprinow holds for it -/
  owner : Option (BitVec 512)
  /-- whether its image boots -/
  boots : Bool
  /-- the job identifier of its packets (R375) -/
  job : BitVec 32
  /-- its virtual functions, each with the queues of its doorbell slots in order -/
  vfs : List (Nat × List Nat)
  deriving DecidableEq, Repr

/-- What a start finds: the firmware images (boot, Sprinow, six RV32E), the digest of the training record that step 3
writes, and the partitions (R392). -/
structure StartSetup where
  firmware : List Image
  trained : BitVec 512
  parts : List PartSetup
  deriving DecidableEq, Repr

/-- A message of a collective between ranks (R382, R384). -/
inductive CollMsg where
  | node (count op wire : Nat) (vals : List (BitVec 32)) (flags : BitVec 6)
  | root (vals : List (BitVec 32)) (flags : BitVec 6)
  | ack
  | mismatch
  | commit
  /-- a rank has failed -/
  | failed (rank : Nat)
  deriving DecidableEq, Repr

/-- The rows of the opcode table. -/
inductive Instr where
  /-- When an issue slot falls free the picker forms a group around the oldest ready thread. (R35) -/
  | pickGroup (core slot : Nat)
  /-- A long-latency load, atomic or ACQ result arrives and is written to its destination, releasing any stalled slot. (R208) -/
  | loadDataArrival (i : Nat)
  /-- System software resolves a fault; the fault-buffer entry is filled and parked accesses replay. (R205) -/
  | faultResolved (core i : Nat)
  /-- System software declares a fault unresolvable and each parked thread raises FAULT. (R206) -/
  | faultUnresolvable (unit : FaultUnit) (core i : Nat)
  /-- A held window access is applied once its register owner leaves its group or its line leaves flight. (R198) -/
  | windowAccessApply (crew lane : Nat)
  /-- A write to a watched block completes a parked MWAIT. (R249) -/
  | monitorWake (crew lane : Nat)
  /-- A slot's SEQ reaches the ticket and the parked put or take completes. (R259) -/
  | mailboxWaitMet (crew lane : Nat)
  /-- The last crew's arrival reaches the gang level and barrier n completes in every crew. (R255) -/
  | gangBarrierComplete (grid gang bar : Nat)
  /-- A Joiner batch closes on 256 threads, all gathered, 64 cycles or pre-emption, and its threads are sorted. (R176) -/
  | joinerBatchClose (crew : Nat)
  /-- The Joiner's register moves complete, masks are cleared and the batch becomes ready. (R178) -/
  | joinerMovesComplete (crew : Nat)
  /-- A pre-emption request takes a crew or gang and saves threads as they reach save points. (R41) -/
  | preemptRequest (crew : Nat)
  /-- After 4,096 cycles a thread still outside every region is fully saved. (R41) -/
  | preemptTimeout (crew : Nat)
  /-- A saved crew is restored from its save area, weight regions reloaded, before any thread becomes ready. (R356) -/
  | crewResume (crew : Nat)
  /-- A waiting pre-emption takes a save-area address once system software fills the SAVEB slot. (R390) -/
  | saveAreaSupply (part : Nat) (addr : BitVec 64)
  /-- A trapping thread becomes held after its outstanding writes arrive and a trap report is written. (R363) -/
  | trapHeld (crew lane : Nat)
  /-- System software resumes a held thread at its recorded address. (R364) -/
  | trapResume (crew lane : Nat)
  /-- System software sends a held thread into a trap routine. (R364) -/
  | trapEnter (crew lane : Nat) (h : BitVec 56)
  /-- System software ends a held thread as EXIT does. (R364) -/
  | trapEnd (crew lane : Nat)
  /-- System software removes the held thread's grid with ABORTED. (R364) -/
  | trapAbort (crew lane : Nat)
  /-- The copy engine takes a command from a queue round-robin, checks it and advances HEAD. (R269) -/
  | copyTake (cluster : Nat)
  /-- A copy finishes, returns its tiles, writes its stamp or loses it, and advances DONE. (R273) -/
  | copyComplete (i : Nat) (nack : Bool)
  /-- An eligible MMA entry runs its granted passes into the accumulator lines. (R292) -/
  | matrixMma (cluster : Nat)
  /-- An eligible WLOAD compresses a matrix into the weight buffer. (R293) -/
  | matrixWload (cluster : Nat)
  /-- A FIN operation closes, rounds and writes the accumulator block. (R292) -/
  | matrixFin (cluster : Nat)
  /-- A CLR operation clears accumulator lines. (R292) -/
  | matrixClr (cluster : Nat)
  /-- An ACCSV or ACCLD table entry is granted and moves the lines, releasing its thread. (R297) -/
  | accEntryExecute (cluster : Nat)
  /-- At a pass boundary the arbiter grants the next pass by effective priority. (R290) -/
  | matrixPassGrant (cluster : Nat)
  /-- A residue check mismatch retires a column onto a spare or withdraws the cluster. (R296) -/
  | multiplierMismatch (cluster : Nat)
  /-- A ray ends or suspends, its record is written, its slot freed and its thread made ready. (R314) -/
  | rayEndOrSuspend (i : Nat)
  /-- A translation fault on a node, record or log access stops the walk and frees its slot. (R320) -/
  | rayFaultStop (i : Nat)
  /-- After a fault resolves the ray re-enters a free slot and continues from its record. (R320) -/
  | rayReenter (i : Nat)
  /-- An XPAIR operation ends or stops, clears BUSY, writes its record and stamp. (R328) -/
  | xpairComplete (i : Nat)
  /-- The reprojection unit takes an operation, scatters pixels, writes the list and stamp. (R331) -/
  | reprojOperation (cluster : Nat)
  /-- A FETCHW parked on an empty open queue re-executes when TAIL or byte 0 changes. (R352) -/
  | fetchwWake (crew lane : Nat)
  /-- A host doorbell write advances a hardware queue's WPTR. (R373) -/
  | doorbell (vf j : Nat) (v : BitVec 64)
  /-- A host write registers a one-shot waiter on a device word. (R374) -/
  | regw (vf : Nat) (v : BitVec 64)
  /-- Reading REGST returns registration count and clears FULL. (R373) -/
  | regstRead (vf : Nat)
  /-- A write to a reserved BAR0 offset is ignored. (R373) -/
  | bar0ReservedWrite (vf off : Nat) (v : Option (BitVec 64))
  /-- System software rewrites a queue descriptor, restarting or reprioritising it. (R332) -/
  | queueDescriptorWrite (q : Nat) (d : BitVec 512)
  /-- The device takes a packet from a queue ring, checks it and advances RPTR. (R332) -/
  | packetTake (q : Nat)
  /-- The Caldera distributor assigns one whole gang to a die. (R333) -/
  | distributeGang (die : Nat)
  /-- A die's placement unit places the first fitting gang, all or nothing. (R339) -/
  | placeGang (die : Nat)
  /-- A grid's last crew releases and engine work completes; writes are published and the stamp written. (R345) -/
  | gridComplete (grid : Nat)
  /-- A graph-start packet reaches a Scribe walker, which checks the whole graph. (R346) -/
  | graphStart (w : Nat)
  /-- A node whose predecessors have completed is started by the walker. (R348) -/
  | graphNodeStart (w node : Nat)
  /-- A MATRIX node issues its parameter block for a resident crew. (R347) -/
  | graphMatrixNode (w node : Nat)
  /-- A node's stamp or result arrives; success enables successors, failure fails the graph. (R348) -/
  | graphNodeComplete (w node : Nat)
  /-- A peer performs an XQN payload, bumps REMC and acknowledges. (R377) -/
  | remotePayloadReceive (job : BitVec 32) (addr : BitVec 56) (data : Payload) (remc : BitVec 56)
  /-- Peer firmware checks a registration message and places it in the waiter order. (R378) -/
  | peerRegistration (sender : PeerJob) (msg : BitVec 256)
  /-- A wake message writes TARGET's value to MIRROR as a release. (R378) -/
  | peerWake (job : BitVec 32) (mirror : BitVec 56) (v : BitVec 64)
  /-- The transport gives up after retries and the command completes with NETFAIL. (R377) -/
  | transportFailure (i : Nat)
  /-- A TAIL write at .dev or wider lets the collective unit take commands. (R380) -/
  | collectiveDoorbell (part ring : Nat)
  /-- A sum collective converts and reduces by the canonical tree. (R382) -/
  | collectiveSum (i : Nat)
  /-- A minimum collective reduces by the canonical tree. (R382) -/
  | collectiveMin (i : Nat)
  /-- A maximum collective reduces by the canonical tree. (R382) -/
  | collectiveMax (i : Nat)
  /-- A tree node value or root acknowledgement arrives from another rank. (R382) -/
  | collectiveMessage (job : BitVec 32) (cmd : CommandRef) (rank : Nat) (msg : CollMsg)
  /-- A rank receives commit, writes DST, releases and writes its stamp. (R382) -/
  | collectiveCommit (i : Nat)
  /-- A rank waiting longer than TMO declares the sender failed and completes with FAILED. (R384) -/
  | collectiveTimeout (i : Nat) (wait : CollWait)
  /-- Pre-empts everything and writes the partition's memory to the safe tier. (R385) -/
  | checkpoint (part : Option Nat) (tier : BitVec 64)
  /-- Restores memory from the safe tier and resumes crews. (R385) -/
  | checkpointRestore (part : Option Nat) (tier : BitVec 64)
  /-- Runs the verified start sequence with training and self-test. (R392) -/
  | coldStart (failedStep : Option Nat) (setup : StartSetup)
  /-- Runs the start reusing the retained training record. (R393) -/
  | warmStart (failedStep : Option Nat) (intact : Bool) (setup : StartSetup)
  /-- A start not reaching step 6 within 120 s fails. (R392) -/
  | startTimeout
  /-- A reset returns the module to starting. (R391) -/
  | reset
  /-- The management command RECOVER leaves failed for a cold start. (R391) -/
  | recover
  /-- A corrected soft error is counted and may make a fault lasting and retire its unit. (R395) -/
  | softErrorCorrected (unit : HwUnit) (addrs : List Nat) (counter : Nat)
  /-- An uncorrectable error aborts a grid or poisons a memory block. (R397) -/
  | uncorrectableError (place : ErrPlace)
  /-- Returns a signed attestation report for a nonce. (R399) -/
  | attestationRequest (vf : Option Nat) (nonce : BitVec 512)
  /-- At a power or temperature limit the clock is lowered one step. (R400) -/
  | powerThermalThrottle
  /-- Once the condition clears the clock is raised one step. (R400) -/
  | clockRestore
  /-- At 105 °C the module stops at once without saving. (R400) -/
  | thermalTrip
  /-- A word with major opcode 0x00, a reserved major opcode or an unassigned func6 is issued and raises ILLEGAL-INSTRUCTION with no other effect. (R98) -/
  | unassignedWord (w : BitVec 32)
  /-- The host reads or writes device memory through CXL.mem as a .sys access, kept coherent by back-invalidation; it receives poison from a poisoned block, and a whole-block write clears the poison. (R372) -/
  | hostDeviceMemoryAccess (part : Nat) (addr : BitVec 56) (len : Nat) (data : Option (List (BitVec 8)))
  /-- System software removes a grid: its resident crews are pre-empted, their save areas are discarded and the grid's stamp receives ABORTED. (R337) -/
  | gridRemoval (grid : Nat)
  /-- Writes the 32-bit sum of two operands modulo 2^32 with zero tangents. (R111) -/
  | iadd (b : Bool) (n : Bool) (d : BitVec 6) (a : BitVec 6) (c : BitVec 6)
  /-- Writes the 32-bit difference modulo 2^32. (R111) -/
  | isub (b : Bool) (n : Bool) (d : BitVec 6) (a : BitVec 6) (c : BitVec 6)
  /-- Writes the low 32 bits of the product. (R111) -/
  | imul (b : Bool) (n : Bool) (d : BitVec 6) (a : BitVec 6) (c : BitVec 6)
  /-- Writes the high 32 bits of the signed product. (R111) -/
  | imulh (b : Bool) (n : Bool) (d : BitVec 6) (a : BitVec 6) (c : BitVec 6)
  /-- Writes the high 32 bits of the unsigned product. (R111) -/
  | imulhU (b : Bool) (n : Bool) (d : BitVec 6) (a : BitVec 6) (c : BitVec 6)
  /-- Writes the 32-bit negation. (R111) -/
  | ineg (b : Bool) (n : Bool) (d : BitVec 6) (a : BitVec 6)
  /-- Writes the 32-bit signed absolute value. (R111) -/
  | iabs (b : Bool) (n : Bool) (d : BitVec 6) (a : BitVec 6)
  /-- Writes the signed minimum. (R111) -/
  | imin (b : Bool) (n : Bool) (d : BitVec 6) (a : BitVec 6) (c : BitVec 6)
  /-- Writes the unsigned minimum. (R111) -/
  | iminU (b : Bool) (n : Bool) (d : BitVec 6) (a : BitVec 6) (c : BitVec 6)
  /-- Writes the signed maximum. (R111) -/
  | imax (b : Bool) (n : Bool) (d : BitVec 6) (a : BitVec 6) (c : BitVec 6)
  /-- Writes the unsigned maximum. (R111) -/
  | imaxU (b : Bool) (n : Bool) (d : BitVec 6) (a : BitVec 6) (c : BitVec 6)
  /-- Writes the bitwise AND. (R111) -/
  | land (b : Bool) (n : Bool) (d : BitVec 6) (a : BitVec 6) (c : BitVec 6)
  /-- Writes the bitwise OR. (R111) -/
  | lor (b : Bool) (n : Bool) (d : BitVec 6) (a : BitVec 6) (c : BitVec 6)
  /-- Writes the bitwise XOR. (R111) -/
  | lxor (b : Bool) (n : Bool) (d : BitVec 6) (a : BitVec 6) (c : BitVec 6)
  /-- Writes the bitwise complement. (R111) -/
  | lnot (b : Bool) (n : Bool) (d : BitVec 6) (a : BitVec 6)
  /-- Shifts left, giving 0 for counts of 32 or more. (R111) -/
  | shl (b : Bool) (n : Bool) (d : BitVec 6) (a : BitVec 6) (c : BitVec 6)
  /-- Shifts right with zero fill. (R111) -/
  | shr (b : Bool) (n : Bool) (d : BitVec 6) (a : BitVec 6) (c : BitVec 6)
  /-- Shifts right with sign fill. (R111) -/
  | sar (b : Bool) (n : Bool) (d : BitVec 6) (a : BitVec 6) (c : BitVec 6)
  /-- Rotates left by n mod 32. (R111) -/
  | rot (b : Bool) (n : Bool) (d : BitVec 6) (a : BitVec 6) (c : BitVec 6)
  /-- Writes the population count. (R111) -/
  | popc (b : Bool) (n : Bool) (d : BitVec 6) (a : BitVec 6)
  /-- Writes the leading-zero count. (R111) -/
  | clz (b : Bool) (n : Bool) (d : BitVec 6) (a : BitVec 6)
  /-- Writes the trailing-zero count. (R111) -/
  | ctz (b : Bool) (n : Bool) (d : BitVec 6) (a : BitVec 6)
  /-- Writes the bit-reversed word. (R111) -/
  | brev (b : Bool) (n : Bool) (d : BitVec 6) (a : BitVec 6)
  /-- Copies a 32-bit operand with all its tangents. (R113) -/
  | mov (b : Bool) (n : Bool) (d : BitVec 6) (a : BitVec 6)
  /-- Signed saturating add that raises saturation when it clamps. (R113) -/
  | iaddSat (b : Bool) (n : Bool) (d : BitVec 6) (a : BitVec 6) (c : BitVec 6)
  /-- Signed saturating subtract. (R113) -/
  | isubSat (b : Bool) (n : Bool) (d : BitVec 6) (a : BitVec 6) (c : BitVec 6)
  /-- Unsigned saturating add. (R113) -/
  | iaddUsat (b : Bool) (n : Bool) (d : BitVec 6) (a : BitVec 6) (c : BitVec 6)
  /-- Unsigned saturating subtract. (R113) -/
  | isubUsat (b : Bool) (n : Bool) (d : BitVec 6) (a : BitVec 6) (c : BitVec 6)
  /-- 64-bit add on register pairs. (R111) -/
  | iadd64 (b : Bool) (n : Bool) (d : BitVec 6) (a : BitVec 6) (c : BitVec 6)
  /-- 64-bit subtract on pairs. (R111) -/
  | isub64 (b : Bool) (n : Bool) (d : BitVec 6) (a : BitVec 6) (c : BitVec 6)
  /-- Low 64 bits of a 64-bit product. (R111) -/
  | imul64 (b : Bool) (n : Bool) (d : BitVec 6) (a : BitVec 6) (c : BitVec 6)
  /-- High 64 bits of a signed 64-bit product. (R111) -/
  | imulh64 (b : Bool) (n : Bool) (d : BitVec 6) (a : BitVec 6) (c : BitVec 6)
  /-- High 64 bits of an unsigned 64-bit product. (R111) -/
  | imulhU64 (b : Bool) (n : Bool) (d : BitVec 6) (a : BitVec 6) (c : BitVec 6)
  /-- 64-bit negation. (R111) -/
  | ineg64 (b : Bool) (n : Bool) (d : BitVec 6) (a : BitVec 6)
  /-- 64-bit absolute value. (R111) -/
  | iabs64 (b : Bool) (n : Bool) (d : BitVec 6) (a : BitVec 6)
  /-- 64-bit signed minimum. (R111) -/
  | imin64 (b : Bool) (n : Bool) (d : BitVec 6) (a : BitVec 6) (c : BitVec 6)
  /-- 64-bit unsigned minimum. (R111) -/
  | iminU64 (b : Bool) (n : Bool) (d : BitVec 6) (a : BitVec 6) (c : BitVec 6)
  /-- 64-bit signed maximum. (R111) -/
  | imax64 (b : Bool) (n : Bool) (d : BitVec 6) (a : BitVec 6) (c : BitVec 6)
  /-- 64-bit unsigned maximum. (R111) -/
  | imaxU64 (b : Bool) (n : Bool) (d : BitVec 6) (a : BitVec 6) (c : BitVec 6)
  /-- 64-bit AND. (R111) -/
  | land64 (b : Bool) (n : Bool) (d : BitVec 6) (a : BitVec 6) (c : BitVec 6)
  /-- 64-bit OR. (R111) -/
  | lor64 (b : Bool) (n : Bool) (d : BitVec 6) (a : BitVec 6) (c : BitVec 6)
  /-- 64-bit XOR. (R111) -/
  | lxor64 (b : Bool) (n : Bool) (d : BitVec 6) (a : BitVec 6) (c : BitVec 6)
  /-- 64-bit complement. (R111) -/
  | lnot64 (b : Bool) (n : Bool) (d : BitVec 6) (a : BitVec 6)
  /-- 64-bit shift left by a 32-bit count. (R112) -/
  | shl64 (b : Bool) (n : Bool) (d : BitVec 6) (a : BitVec 6) (c : BitVec 6)
  /-- 64-bit logical shift right. (R112) -/
  | shr64 (b : Bool) (n : Bool) (d : BitVec 6) (a : BitVec 6) (c : BitVec 6)
  /-- 64-bit arithmetic shift right. (R112) -/
  | sar64 (b : Bool) (n : Bool) (d : BitVec 6) (a : BitVec 6) (c : BitVec 6)
  /-- 64-bit rotate left. (R112) -/
  | rot64 (b : Bool) (n : Bool) (d : BitVec 6) (a : BitVec 6) (c : BitVec 6)
  /-- Population count of a pair into 32 bits. (R112) -/
  | popc64 (b : Bool) (n : Bool) (d : BitVec 6) (a : BitVec 6)
  /-- Leading zeros of a pair. (R112) -/
  | clz64 (b : Bool) (n : Bool) (d : BitVec 6) (a : BitVec 6)
  /-- Trailing zeros of a pair. (R112) -/
  | ctz64 (b : Bool) (n : Bool) (d : BitVec 6) (a : BitVec 6)
  /-- 64-bit bit reversal. (R111) -/
  | brev64 (b : Bool) (n : Bool) (d : BitVec 6) (a : BitVec 6)
  /-- Copies a pair with its tangents. (R113) -/
  | mov64 (b : Bool) (n : Bool) (d : BitVec 6) (a : BitVec 6)
  /-- 64-bit signed saturating add. (R113) -/
  | iaddSat64 (b : Bool) (n : Bool) (d : BitVec 6) (a : BitVec 6) (c : BitVec 6)
  /-- 64-bit signed saturating subtract. (R113) -/
  | isubSat64 (b : Bool) (n : Bool) (d : BitVec 6) (a : BitVec 6) (c : BitVec 6)
  /-- 64-bit unsigned saturating add. (R113) -/
  | iaddUsat64 (b : Bool) (n : Bool) (d : BitVec 6) (a : BitVec 6) (c : BitVec 6)
  /-- 64-bit unsigned saturating subtract. (R113) -/
  | isubUsat64 (b : Bool) (n : Bool) (d : BitVec 6) (a : BitVec 6) (c : BitVec 6)
  /-- Writes (a·b + c) mod 2^32. (R114) -/
  | imad (b : Bool) (n : Bool) (d : BitVec 6) (a : BitVec 6) (c : BitVec 6) (e : BitVec 6)
  /-- Writes (a·b + c) mod 2^64 on pairs. (R114) -/
  | imad64 (b : Bool) (n : Bool) (d : BitVec 6) (a : BitVec 6) (c : BitVec 6) (e : BitVec 6)
  /-- Writes a sign-extended 12-bit immediate. (R115) -/
  | movi (b : Bool) (n : Bool) (d : BitVec 6) (i : BitVec 12)
  /-- Adds a sign-extended imm12 to a 64-bit pair. (R116) -/
  | lea (b : Bool) (n : Bool) (d : BitVec 6) (a : BitVec 6) (i : BitVec 12)
  /-- Writes a hard predicate from an integer comparison. (R117) -/
  | icmp (b : Bool) (d : BitVec 6) (a : BitVec 6) (c : BitVec 6) (w : BitVec 1) (k : BitVec 4)
  /-- Inserts S1 bits into S2 under mask S3. (R118) -/
  | bfi (b : Bool) (n : Bool) (d : BitVec 6) (a : BitVec 6) (c : BitVec 6) (e : BitVec 6)
  /-- Extracts a zero-extended bit field. (R119) -/
  | bfxU (b : Bool) (n : Bool) (d : BitVec 6) (a : BitVec 6) (c : BitVec 6)
  /-- Extracts a sign-extended bit field. (R119) -/
  | bfxS (b : Bool) (n : Bool) (d : BitVec 6) (a : BitVec 6) (c : BitVec 6)
  /-- Sets the lowest clear bit of a 64-bit map. (R119) -/
  | bffs (b : Bool) (n : Bool) (d : BitVec 6) (a : BitVec 6)
  /-- Writes the index of the lowest clear bit. (R119) -/
  | bffsIdx (b : Bool) (n : Bool) (d : BitVec 6) (a : BitVec 6)
  /-- Fills lowest clear bits up to a population limit. (R119) -/
  | bfpl (b : Bool) (n : Bool) (d : BitVec 6) (a : BitVec 6) (c : BitVec 6)
  /-- Reads the horizontal quad partner's value with tangents. (R121) -/
  | qxchX (b : Bool) (n : Bool) (d : BitVec 6) (a : BitVec 6)
  /-- Reads the vertical quad partner's value. (R121) -/
  | qxchY (b : Bool) (n : Bool) (d : BitVec 6) (a : BitVec 6)
  /-- Reads the diagonal quad partner's value. (R121) -/
  | qxchXy (b : Bool) (n : Bool) (d : BitVec 6) (a : BitVec 6)
  /-- Broadcasts lane n of the quad. (R121) -/
  | qxchBc (b : Bool) (n : Bool) (d : BitVec 6) (a : BitVec 6) (c : BitVec 6)
  /-- Reads any lane of the group chosen by S2. (R121) -/
  | gshuf (b : Bool) (n : Bool) (d : BitVec 6) (a : BitVec 6) (c : BitVec 6)
  /-- Reads lane t XOR S2 of the group. (R121) -/
  | gshufXor (b : Bool) (n : Bool) (d : BitVec 6) (a : BitVec 6) (c : BitVec 6)
  /-- Horizontal quad exchange of pairs. (R121) -/
  | qxchX64 (b : Bool) (n : Bool) (d : BitVec 6) (a : BitVec 6)
  /-- Vertical quad exchange of pairs. (R121) -/
  | qxchY64 (b : Bool) (n : Bool) (d : BitVec 6) (a : BitVec 6)
  /-- Diagonal quad exchange of pairs. (R121) -/
  | qxchXy64 (b : Bool) (n : Bool) (d : BitVec 6) (a : BitVec 6)
  /-- Quad broadcast of pairs. (R121) -/
  | qxchBc64 (b : Bool) (n : Bool) (d : BitVec 6) (a : BitVec 6) (c : BitVec 6)
  /-- Group shuffle of pairs. (R121) -/
  | gshuf64 (b : Bool) (n : Bool) (d : BitVec 6) (a : BitVec 6) (c : BitVec 6)
  /-- XOR group shuffle of pairs. (R121) -/
  | gshufXor64 (b : Bool) (n : Bool) (d : BitVec 6) (a : BitVec 6) (c : BitVec 6)
  /-- Copies a uniform source into a uniform register. (R125) -/
  | umov (b : Bool) (d : BitVec 6) (a : BitVec 6)
  /-- Uniform 64-bit add. (R125) -/
  | uadd (b : Bool) (d : BitVec 6) (a : BitVec 6) (c : BitVec 6)
  /-- Uniform subtract. (R125) -/
  | usub (b : Bool) (d : BitVec 6) (a : BitVec 6) (c : BitVec 6)
  /-- Uniform multiply, low 64 bits. (R125) -/
  | umul (b : Bool) (d : BitVec 6) (a : BitVec 6) (c : BitVec 6)
  /-- Uniform AND. (R125) -/
  | uand (b : Bool) (d : BitVec 6) (a : BitVec 6) (c : BitVec 6)
  /-- Uniform OR. (R125) -/
  | uor (b : Bool) (d : BitVec 6) (a : BitVec 6) (c : BitVec 6)
  /-- Uniform XOR. (R125) -/
  | uxor (b : Bool) (d : BitVec 6) (a : BitVec 6) (c : BitVec 6)
  /-- Uniform shift left. (R125) -/
  | ushl (b : Bool) (d : BitVec 6) (a : BitVec 6) (c : BitVec 6)
  /-- Uniform logical shift right. (R125) -/
  | ushr (b : Bool) (d : BitVec 6) (a : BitVec 6) (c : BitVec 6)
  /-- Uniform arithmetic shift right. (R125) -/
  | usar (b : Bool) (d : BitVec 6) (a : BitVec 6) (c : BitVec 6)
  /-- Uniform signed minimum. (R125) -/
  | umin (b : Bool) (d : BitVec 6) (a : BitVec 6) (c : BitVec 6)
  /-- Uniform signed maximum. (R125) -/
  | umax (b : Bool) (d : BitVec 6) (a : BitVec 6) (c : BitVec 6)
  /-- Copies the lowest active lane's 32-bit vector operand into a uniform register. (R125) -/
  | umovv (b : Bool) (d : BitVec 6) (a : BitVec 6)
  /-- Copies the lowest active lane's 64-bit vector operand into a uniform register. (R125) -/
  | umovv64 (b : Bool) (d : BitVec 6) (a : BitVec 6)
  /-- Fused multiply-add in FP32 with one rounding and tangents. (R134) -/
  | ffmaF32 (b : Bool) (n : Bool) (d : BitVec 6) (a : BitVec 6) (c : BitVec 6) (e : BitVec 6)
  /-- Fused multiply-add in FP64 on pairs. (R134) -/
  | ffmaF64 (b : Bool) (n : Bool) (d : BitVec 6) (a : BitVec 6) (c : BitVec 6) (e : BitVec 6)
  /-- Fused multiply-add in FP16. (R134) -/
  | ffmaF16 (b : Bool) (n : Bool) (d : BitVec 6) (a : BitVec 6) (c : BitVec 6) (e : BitVec 6)
  /-- Fused multiply-add in BF16. (R134) -/
  | ffmaBf16 (b : Bool) (n : Bool) (d : BitVec 6) (a : BitVec 6) (c : BitVec 6) (e : BitVec 6)
  /-- Packed FP16 fused multiply-add with zero tangents. (R134) -/
  | ffmaF16x2 (b : Bool) (n : Bool) (d : BitVec 6) (a : BitVec 6) (c : BitVec 6) (e : BitVec 6)
  /-- FP32 add. (R135) -/
  | faddF32 (b : Bool) (n : Bool) (d : BitVec 6) (a : BitVec 6) (c : BitVec 6)
  /-- FP32 subtract. (R135) -/
  | fsubF32 (b : Bool) (n : Bool) (d : BitVec 6) (a : BitVec 6) (c : BitVec 6)
  /-- FP32 multiply. (R135) -/
  | fmulF32 (b : Bool) (n : Bool) (d : BitVec 6) (a : BitVec 6) (c : BitVec 6)
  /-- FP32 minimum. (R136) -/
  | fminF32 (b : Bool) (n : Bool) (d : BitVec 6) (a : BitVec 6) (c : BitVec 6)
  /-- FP32 maximum. (R136) -/
  | fmaxF32 (b : Bool) (n : Bool) (d : BitVec 6) (a : BitVec 6) (c : BitVec 6)
  /-- FP32 absolute value. (R136) -/
  | fabsF32 (b : Bool) (n : Bool) (d : BitVec 6) (a : BitVec 6)
  /-- FP32 negation. (R136) -/
  | fnegF32 (b : Bool) (n : Bool) (d : BitVec 6) (a : BitVec 6)
  /-- FP32 division. (R135) -/
  | fdivF32 (b : Bool) (n : Bool) (d : BitVec 6) (a : BitVec 6) (c : BitVec 6)
  /-- FP32 reciprocal. (R135) -/
  | frcpF32 (b : Bool) (n : Bool) (d : BitVec 6) (a : BitVec 6)
  /-- FP32 reciprocal square root. (R135) -/
  | frsqF32 (b : Bool) (n : Bool) (d : BitVec 6) (a : BitVec 6)
  /-- FP32 square root. (R135) -/
  | fsqrtF32 (b : Bool) (n : Bool) (d : BitVec 6) (a : BitVec 6)
  /-- FP32 base-2 exponential. (R135) -/
  | fexp2F32 (b : Bool) (n : Bool) (d : BitVec 6) (a : BitVec 6)
  /-- FP32 base-2 logarithm. (R135) -/
  | flog2F32 (b : Bool) (n : Bool) (d : BitVec 6) (a : BitVec 6)
  /-- FP32 sine. (R135) -/
  | fsinF32 (b : Bool) (n : Bool) (d : BitVec 6) (a : BitVec 6)
  /-- FP32 cosine. (R135) -/
  | fcosF32 (b : Bool) (n : Bool) (d : BitVec 6) (a : BitVec 6)
  /-- FP32 floor. (R136) -/
  | ffloorF32 (b : Bool) (n : Bool) (d : BitVec 6) (a : BitVec 6)
  /-- FP32 ceiling. (R136) -/
  | fceilF32 (b : Bool) (n : Bool) (d : BitVec 6) (a : BitVec 6)
  /-- FP32 round to integer in the mode. (R136) -/
  | frndF32 (b : Bool) (n : Bool) (d : BitVec 6) (a : BitVec 6)
  /-- FP32 fractional part. (R136) -/
  | ffracF32 (b : Bool) (n : Bool) (d : BitVec 6) (a : BitVec 6)
  /-- FP64 add. (R135) -/
  | faddF64 (b : Bool) (n : Bool) (d : BitVec 6) (a : BitVec 6) (c : BitVec 6)
  /-- FP64 subtract. (R135) -/
  | fsubF64 (b : Bool) (n : Bool) (d : BitVec 6) (a : BitVec 6) (c : BitVec 6)
  /-- FP64 multiply. (R135) -/
  | fmulF64 (b : Bool) (n : Bool) (d : BitVec 6) (a : BitVec 6) (c : BitVec 6)
  /-- FP64 minimum. (R136) -/
  | fminF64 (b : Bool) (n : Bool) (d : BitVec 6) (a : BitVec 6) (c : BitVec 6)
  /-- FP64 maximum. (R136) -/
  | fmaxF64 (b : Bool) (n : Bool) (d : BitVec 6) (a : BitVec 6) (c : BitVec 6)
  /-- FP64 absolute value. (R136) -/
  | fabsF64 (b : Bool) (n : Bool) (d : BitVec 6) (a : BitVec 6)
  /-- FP64 negation. (R136) -/
  | fnegF64 (b : Bool) (n : Bool) (d : BitVec 6) (a : BitVec 6)
  /-- FP64 division. (R135) -/
  | fdivF64 (b : Bool) (n : Bool) (d : BitVec 6) (a : BitVec 6) (c : BitVec 6)
  /-- FP64 reciprocal. (R135) -/
  | frcpF64 (b : Bool) (n : Bool) (d : BitVec 6) (a : BitVec 6)
  /-- FP64 reciprocal square root. (R135) -/
  | frsqF64 (b : Bool) (n : Bool) (d : BitVec 6) (a : BitVec 6)
  /-- FP64 square root. (R135) -/
  | fsqrtF64 (b : Bool) (n : Bool) (d : BitVec 6) (a : BitVec 6)
  /-- FP64 base-2 exponential. (R135) -/
  | fexp2F64 (b : Bool) (n : Bool) (d : BitVec 6) (a : BitVec 6)
  /-- FP64 base-2 logarithm. (R135) -/
  | flog2F64 (b : Bool) (n : Bool) (d : BitVec 6) (a : BitVec 6)
  /-- FP64 sine. (R135) -/
  | fsinF64 (b : Bool) (n : Bool) (d : BitVec 6) (a : BitVec 6)
  /-- FP64 cosine. (R135) -/
  | fcosF64 (b : Bool) (n : Bool) (d : BitVec 6) (a : BitVec 6)
  /-- FP64 floor. (R136) -/
  | ffloorF64 (b : Bool) (n : Bool) (d : BitVec 6) (a : BitVec 6)
  /-- FP64 ceiling. (R136) -/
  | fceilF64 (b : Bool) (n : Bool) (d : BitVec 6) (a : BitVec 6)
  /-- FP64 round to integer. (R136) -/
  | frndF64 (b : Bool) (n : Bool) (d : BitVec 6) (a : BitVec 6)
  /-- FP64 fractional part. (R136) -/
  | ffracF64 (b : Bool) (n : Bool) (d : BitVec 6) (a : BitVec 6)
  /-- FP16 add. (R135) -/
  | faddF16 (b : Bool) (n : Bool) (d : BitVec 6) (a : BitVec 6) (c : BitVec 6)
  /-- FP16 subtract. (R135) -/
  | fsubF16 (b : Bool) (n : Bool) (d : BitVec 6) (a : BitVec 6) (c : BitVec 6)
  /-- FP16 multiply. (R135) -/
  | fmulF16 (b : Bool) (n : Bool) (d : BitVec 6) (a : BitVec 6) (c : BitVec 6)
  /-- FP16 minimum. (R136) -/
  | fminF16 (b : Bool) (n : Bool) (d : BitVec 6) (a : BitVec 6) (c : BitVec 6)
  /-- FP16 maximum. (R136) -/
  | fmaxF16 (b : Bool) (n : Bool) (d : BitVec 6) (a : BitVec 6) (c : BitVec 6)
  /-- FP16 absolute value. (R136) -/
  | fabsF16 (b : Bool) (n : Bool) (d : BitVec 6) (a : BitVec 6)
  /-- FP16 negation. (R136) -/
  | fnegF16 (b : Bool) (n : Bool) (d : BitVec 6) (a : BitVec 6)
  /-- FP16 division. (R135) -/
  | fdivF16 (b : Bool) (n : Bool) (d : BitVec 6) (a : BitVec 6) (c : BitVec 6)
  /-- FP16 reciprocal. (R135) -/
  | frcpF16 (b : Bool) (n : Bool) (d : BitVec 6) (a : BitVec 6)
  /-- FP16 reciprocal square root. (R135) -/
  | frsqF16 (b : Bool) (n : Bool) (d : BitVec 6) (a : BitVec 6)
  /-- FP16 square root. (R135) -/
  | fsqrtF16 (b : Bool) (n : Bool) (d : BitVec 6) (a : BitVec 6)
  /-- FP16 base-2 exponential. (R135) -/
  | fexp2F16 (b : Bool) (n : Bool) (d : BitVec 6) (a : BitVec 6)
  /-- FP16 base-2 logarithm. (R135) -/
  | flog2F16 (b : Bool) (n : Bool) (d : BitVec 6) (a : BitVec 6)
  /-- FP16 sine. (R135) -/
  | fsinF16 (b : Bool) (n : Bool) (d : BitVec 6) (a : BitVec 6)
  /-- FP16 cosine. (R135) -/
  | fcosF16 (b : Bool) (n : Bool) (d : BitVec 6) (a : BitVec 6)
  /-- FP16 floor. (R136) -/
  | ffloorF16 (b : Bool) (n : Bool) (d : BitVec 6) (a : BitVec 6)
  /-- FP16 ceiling. (R136) -/
  | fceilF16 (b : Bool) (n : Bool) (d : BitVec 6) (a : BitVec 6)
  /-- FP16 round to integer. (R136) -/
  | frndF16 (b : Bool) (n : Bool) (d : BitVec 6) (a : BitVec 6)
  /-- FP16 fractional part. (R136) -/
  | ffracF16 (b : Bool) (n : Bool) (d : BitVec 6) (a : BitVec 6)
  /-- BF16 add. (R135) -/
  | faddBf16 (b : Bool) (n : Bool) (d : BitVec 6) (a : BitVec 6) (c : BitVec 6)
  /-- BF16 subtract. (R135) -/
  | fsubBf16 (b : Bool) (n : Bool) (d : BitVec 6) (a : BitVec 6) (c : BitVec 6)
  /-- BF16 multiply. (R135) -/
  | fmulBf16 (b : Bool) (n : Bool) (d : BitVec 6) (a : BitVec 6) (c : BitVec 6)
  /-- BF16 minimum. (R136) -/
  | fminBf16 (b : Bool) (n : Bool) (d : BitVec 6) (a : BitVec 6) (c : BitVec 6)
  /-- BF16 maximum. (R136) -/
  | fmaxBf16 (b : Bool) (n : Bool) (d : BitVec 6) (a : BitVec 6) (c : BitVec 6)
  /-- BF16 absolute value. (R136) -/
  | fabsBf16 (b : Bool) (n : Bool) (d : BitVec 6) (a : BitVec 6)
  /-- BF16 negation. (R136) -/
  | fnegBf16 (b : Bool) (n : Bool) (d : BitVec 6) (a : BitVec 6)
  /-- BF16 division. (R135) -/
  | fdivBf16 (b : Bool) (n : Bool) (d : BitVec 6) (a : BitVec 6) (c : BitVec 6)
  /-- BF16 reciprocal. (R135) -/
  | frcpBf16 (b : Bool) (n : Bool) (d : BitVec 6) (a : BitVec 6)
  /-- BF16 reciprocal square root. (R135) -/
  | frsqBf16 (b : Bool) (n : Bool) (d : BitVec 6) (a : BitVec 6)
  /-- BF16 square root. (R135) -/
  | fsqrtBf16 (b : Bool) (n : Bool) (d : BitVec 6) (a : BitVec 6)
  /-- BF16 base-2 exponential. (R135) -/
  | fexp2Bf16 (b : Bool) (n : Bool) (d : BitVec 6) (a : BitVec 6)
  /-- BF16 base-2 logarithm. (R135) -/
  | flog2Bf16 (b : Bool) (n : Bool) (d : BitVec 6) (a : BitVec 6)
  /-- BF16 sine. (R135) -/
  | fsinBf16 (b : Bool) (n : Bool) (d : BitVec 6) (a : BitVec 6)
  /-- BF16 cosine. (R135) -/
  | fcosBf16 (b : Bool) (n : Bool) (d : BitVec 6) (a : BitVec 6)
  /-- BF16 floor. (R136) -/
  | ffloorBf16 (b : Bool) (n : Bool) (d : BitVec 6) (a : BitVec 6)
  /-- BF16 ceiling. (R136) -/
  | fceilBf16 (b : Bool) (n : Bool) (d : BitVec 6) (a : BitVec 6)
  /-- BF16 round to integer. (R136) -/
  | frndBf16 (b : Bool) (n : Bool) (d : BitVec 6) (a : BitVec 6)
  /-- BF16 fractional part. (R136) -/
  | ffracBf16 (b : Bool) (n : Bool) (d : BitVec 6) (a : BitVec 6)
  /-- Packed FP16 add with zero tangents. (R135) -/
  | faddF16x2 (b : Bool) (n : Bool) (d : BitVec 6) (a : BitVec 6) (c : BitVec 6)
  /-- Packed FP16 subtract. (R135) -/
  | fsubF16x2 (b : Bool) (n : Bool) (d : BitVec 6) (a : BitVec 6) (c : BitVec 6)
  /-- Packed FP16 multiply. (R135) -/
  | fmulF16x2 (b : Bool) (n : Bool) (d : BitVec 6) (a : BitVec 6) (c : BitVec 6)
  /-- Packed FP16 minimum. (R136) -/
  | fminF16x2 (b : Bool) (n : Bool) (d : BitVec 6) (a : BitVec 6) (c : BitVec 6)
  /-- Packed FP16 maximum. (R136) -/
  | fmaxF16x2 (b : Bool) (n : Bool) (d : BitVec 6) (a : BitVec 6) (c : BitVec 6)
  /-- Packed FP16 absolute value. (R136) -/
  | fabsF16x2 (b : Bool) (n : Bool) (d : BitVec 6) (a : BitVec 6)
  /-- Packed FP16 negation. (R136) -/
  | fnegF16x2 (b : Bool) (n : Bool) (d : BitVec 6) (a : BitVec 6)
  /-- Packed FP16 division. (R135) -/
  | fdivF16x2 (b : Bool) (n : Bool) (d : BitVec 6) (a : BitVec 6) (c : BitVec 6)
  /-- Packed FP16 reciprocal. (R135) -/
  | frcpF16x2 (b : Bool) (n : Bool) (d : BitVec 6) (a : BitVec 6)
  /-- Packed FP16 reciprocal square root. (R135) -/
  | frsqF16x2 (b : Bool) (n : Bool) (d : BitVec 6) (a : BitVec 6)
  /-- Packed FP16 square root. (R135) -/
  | fsqrtF16x2 (b : Bool) (n : Bool) (d : BitVec 6) (a : BitVec 6)
  /-- Packed FP16 base-2 exponential. (R135) -/
  | fexp2F16x2 (b : Bool) (n : Bool) (d : BitVec 6) (a : BitVec 6)
  /-- Packed FP16 base-2 logarithm. (R135) -/
  | flog2F16x2 (b : Bool) (n : Bool) (d : BitVec 6) (a : BitVec 6)
  /-- Packed FP16 sine. (R135) -/
  | fsinF16x2 (b : Bool) (n : Bool) (d : BitVec 6) (a : BitVec 6)
  /-- Packed FP16 cosine. (R135) -/
  | fcosF16x2 (b : Bool) (n : Bool) (d : BitVec 6) (a : BitVec 6)
  /-- Packed FP16 floor. (R136) -/
  | ffloorF16x2 (b : Bool) (n : Bool) (d : BitVec 6) (a : BitVec 6)
  /-- Packed FP16 ceiling. (R136) -/
  | fceilF16x2 (b : Bool) (n : Bool) (d : BitVec 6) (a : BitVec 6)
  /-- Packed FP16 round to integer. (R136) -/
  | frndF16x2 (b : Bool) (n : Bool) (d : BitVec 6) (a : BitVec 6)
  /-- Packed FP16 fractional part. (R136) -/
  | ffracF16x2 (b : Bool) (n : Bool) (d : BitVec 6) (a : BitVec 6)
  /-- Writes a hard predicate from a floating-point comparison. (R139) -/
  | fcmp (b : Bool) (d : BitVec 6) (a : BitVec 6) (c : BitVec 6) (t : BitVec 2) (k : BitVec 3)
  /-- Converts between float and integer types by R59, tangents converted or zeroed. (R140) -/
  | cvt (b : Bool) (n : Bool) (d : BitVec 6) (a : BitVec 6) (x : BitVec 3) (y : BitVec 3)
  /-- Copies a 32-bit primal and seeds tangent k to 1.0. (R141) -/
  | dseedF32 (b : Bool) (n : Bool) (d : BitVec 6) (a : BitVec 6) (k : BitVec 6)
  /-- Copies a pair and seeds FP64 tangent k to 1.0. (R141) -/
  | dseedF64 (b : Bool) (n : Bool) (d : BitVec 6) (a : BitVec 6) (k : BitVec 6)
  /-- Copies a 32-bit primal with all tangents zero. (R141) -/
  | dzero (b : Bool) (n : Bool) (d : BitVec 6) (a : BitVec 6)
  /-- Copies a pair with all tangents zero. (R141) -/
  | dzero64 (b : Bool) (n : Bool) (d : BitVec 6) (a : BitVec 6)
  /-- Moves tangent k of S1 into a primal. (R141) -/
  | dgetF32 (b : Bool) (n : Bool) (d : BitVec 6) (a : BitVec 6) (k : BitVec 6)
  /-- Moves FP64 tangent k of a pair into a primal pair. (R141) -/
  | dgetF64 (b : Bool) (n : Bool) (d : BitVec 6) (a : BitVec 6) (k : BitVec 6)
  /-- Writes the primal of S1 into tangent k of D. (R142) -/
  | dputF32 (b : Bool) (d : BitVec 6) (a : BitVec 6) (k : BitVec 6)
  /-- Writes a pair's primal into FP64 tangent k of D. (R142) -/
  | dputF64 (b : Bool) (d : BitVec 6) (a : BitVec 6) (k : BitVec 6)
  /-- Re-evaluates a value to first order under pose deltas held in uniform registers. (R144) -/
  | deval (b : Bool) (n : Bool) (d : BitVec 6) (a : BitVec 6) (u : BitVec 6) (t : BitVec 2)
  /-- Soft comparison writing a logistic probability predicate under %temp. (R151) -/
  | pcmp (b : Bool) (d : BitVec 6) (a : BitVec 6) (c : BitVec 6) (g : BitVec 1) (s : BitVec 3) (t : BitVec 2)
  /-- Converts an FP32 value to a predicate fraction with optional tag. (R156) -/
  | pset (b : Bool) (d : BitVec 6) (a : BitVec 6) (c : BitVec 6)
  /-- Product-rule AND of two predicates with tag and dependence tracking. (R154) -/
  | pand (b : Bool) (d : BitVec 6) (a : BitVec 6) (c : BitVec 6)
  /-- Product-rule OR of two predicates. (R154) -/
  | por (b : Bool) (d : BitVec 6) (a : BitVec 6) (c : BitVec 6)
  /-- Complements a predicate exactly. (R154) -/
  | pnot (b : Bool) (d : BitVec 6) (a : BitVec 6)
  /-- Writes the predicate fraction as FP32 with its tangents. (R156) -/
  | pget (b : Bool) (n : Bool) (d : BitVec 6) (a : BitVec 6)
  /-- Writes the raw predicate word. (R156) -/
  | pgetW (b : Bool) (n : Bool) (d : BitVec 6) (a : BitVec 6)
  /-- Restores a predicate word and tangents from two V operands. (R156) -/
  | pput (b : Bool) (d : BitVec 6) (a : BitVec 6) (c : BitVec 6)
  /-- Collapses a predicate to hard by one stream draw. (R162) -/
  | pcoll (b : Bool) (d : BitVec 6) (a : BitVec 6)
  /-- Blends two values by a predicate with product-rule tangents. (R157) -/
  | pblend (b : Bool) (n : Bool) (d : BitVec 6) (t : BitVec 2) (q : BitVec 3) (c : BitVec 6) (e : BitVec 6)
  /-- Selects S1 or S2 with tangents by predicate threshold 0x4000. (R158) -/
  | psel (b : Bool) (n : Bool) (d : BitVec 6) (a : BitVec 6) (c : BitVec 6) (w : BitVec 1) (q : BitVec 3)
  /-- Rekeys the thread's random stream and clears its counter. (R161) -/
  | rkey (b : Bool) (a : BitVec 6) (c : BitVec 6)
  /-- Draws 32 random bits. (R161) -/
  | rnextU32 (b : Bool) (n : Bool) (d : BitVec 6)
  /-- Draws 64 random bits into a pair. (R161) -/
  | rnextU64 (b : Bool) (n : Bool) (d : BitVec 6)
  /-- Draws a uniform FP32 in [0,1). (R161) -/
  | rnextF32 (b : Bool) (n : Bool) (d : BitVec 6)
  /-- Issues a global or window load of the given width. (R208) -/
  | ld (b : Bool) (d : BitVec 6) (a : BitVec 6) (c : BitVec 6) (w : BitVec 3)
  /-- Stores to a global or window address. (R208) -/
  | st (b : Bool) (d : BitVec 6) (a : BitVec 6) (c : BitVec 6) (w : BitVec 3)
  /-- Loads and converts one element of a typed block, optionally with dual tangents. (R212) -/
  | ldt (b : Bool) (d : BitVec 6) (a : BitVec 6) (c : BitVec 6) (u : BitVec 1) (t : BitVec 2)
  /-- Stores a whole typed block with chosen scale from scratchpad values. (R213) -/
  | stt (b : Bool) (d : BitVec 6) (a : BitVec 6) (c : BitVec 6) (u : BitVec 1) (t : BitVec 1)
  /-- Loads a primal with its dual-page tangents. (R210) -/
  | ldd (b : Bool) (d : BitVec 6) (a : BitVec 6) (c : BitVec 6) (f : BitVec 1)
  /-- Stores a primal with its tangents to a dual page. (R210) -/
  | std (b : Bool) (d : BitVec 6) (a : BitVec 6) (c : BitVec 6) (f : BitVec 1)
  /-- Loads from the crew's scratchpad. (R209) -/
  | lds (b : Bool) (d : BitVec 6) (a : BitVec 6) (c : BitVec 6) (w : BitVec 3)
  /-- Stores to the crew's scratchpad. (R209) -/
  | sts (b : Bool) (d : BitVec 6) (a : BitVec 6) (c : BitVec 6) (w : BitVec 3)
  /-- Reads a block descriptor. (R214) -/
  | bhdrRd (b : Bool) (d : BitVec 6) (a : BitVec 6)
  /-- Writes a block descriptor. (R214) -/
  | bhdrWr (b : Bool) (d : BitVec 6) (a : BitVec 6)
  /-- Prefetches a block toward L1, never trapping past R99. (R214) -/
  | pref (b : Bool) (a : BitVec 6) (c : BitVec 6)
  /-- Sets a tile-table entry ready. (R217) -/
  | tset (b : Bool) (a : BitVec 6) (c : BitVec 6)
  /-- Sets a tile-table entry empty. (R217) -/
  | tsetClr (b : Bool) (a : BitVec 6)
  /-- Reads a tile-table entry as of the previous cycle. (R217) -/
  | tstat (b : Bool) (n : Bool) (d : BitVec 6) (a : BitVec 6)
  /-- Performs an integer atomic at the word's point of execution. (R243) -/
  | atom (b : Bool) (d : BitVec 6) (a : BitVec 6) (c : BitVec 6) (o : BitVec 2) (p : BitVec 3) (w : BitVec 1)
  /-- Performs a floating-point atomic add. (R243) -/
  | atomFadd (b : Bool) (d : BitVec 6) (a : BitVec 6) (c : BitVec 6) (o : BitVec 2) (w : BitVec 1)
  /-- Performs an integer atomic on the crew's scratchpad. (R243) -/
  | atoms (b : Bool) (d : BitVec 6) (a : BitVec 6) (c : BitVec 6) (o : BitVec 2) (p : BitVec 3) (w : BitVec 1)
  /-- Floating-point atomic add on scratchpad. (R243) -/
  | atomsFadd (b : Bool) (d : BitVec 6) (a : BitVec 6) (c : BitVec 6) (o : BitVec 2) (w : BitVec 1)
  /-- Reads a 64-bit word as an acquire. (R245) -/
  | acq (b : Bool) (d : BitVec 6) (a : BitVec 6)
  /-- Releases and then writes a 64-bit word. (R245) -/
  | rel (b : Bool) (a : BitVec 6) (c : BitVec 6)
  /-- Orders all earlier accesses before later ones at the scope. (R226) -/
  | fence (b : Bool)
  /-- Binds a byte range to a synchronisation object. (R246) -/
  | bind (b : Bool) (d : BitVec 6) (a : BitVec 6) (c : BitVec 6)
  /-- Removes an object's binding of a range. (R246) -/
  | bindClr (b : Bool) (d : BitVec 6) (a : BitVec 6)
  /-- Arms a monitor on a word and parks until it completes. (R249) -/
  | mwait (d : BitVec 6) (a : BitVec 6) (c : BitVec 6) (q : BitVec 1) (y : BitVec 1) (w : BitVec 1)
  /-- Arrives at a numbered barrier and returns the phase token. (R254) -/
  | barArv (b : Bool) (n : Bool) (d : BitVec 6) (a : BitVec 6) (c : BitVec 6)
  /-- Waits until the barrier phase differs from a token. (R254) -/
  | barWt (a : BitVec 6) (c : BitVec 6)
  /-- Arrives and waits on its own token. (R254) -/
  | barSyn (a : BitVec 6) (c : BitVec 6)
  /-- Gang-wide barrier arrival with LIVE count and wait. (R255) -/
  | gbar (c : BitVec 6)
  /-- Draws a put ticket and deposits a message in a mailbox slot. (R259) -/
  | mbput (d : BitVec 6) (a : BitVec 6)
  /-- Draws a take ticket and receives a mailbox message. (R259) -/
  | mbtake (d : BitVec 6) (a : BitVec 6)
  /-- Unconditional PC-relative branch. (R170) -/
  | bra (o : BitVec 25)
  /-- Pushes the return address and branches. (R173) -/
  | call (o : BitVec 25)
  /-- Branches per lane on a predicate threshold. (R170) -/
  | brq (g : BitVec 1) (q : BitVec 3) (o : BitVec 18)
  /-- Does nothing. (R97) -/
  | nop (b : Bool)
  /-- Branches to a 64-bit register target. (R171) -/
  | brx (a : BitVec 6)
  /-- Calls a 64-bit register target. (R171) -/
  | callx (a : BitVec 6)
  /-- Pops the call stack and returns. (R173) -/
  | ret
  /-- Calls through the Joiner, gathering the thread with target and key. (R175) -/
  | callj (l : BitVec 6) (a : BitVec 6) (c : BitVec 6)
  /-- Gathers the thread in the Joiner at the next word by key. (R175) -/
  | regroup (l : BitVec 6) (a : BitVec 6)
  /-- Sets the thread's bit in a rejoin mask. (R181) -/
  | join (b : Bool) (k : BitVec 6)
  /-- Clears the thread's bit in a rejoin mask. (R181) -/
  | leave (b : Bool) (k : BitVec 6)
  /-- Parks as a waiter on a rejoin mask. (R182) -/
  | waitm (k : BitVec 6)
  /-- Opens a region, recording marker, depth and stream state. (R186) -/
  | region (b : Bool) (v : BitVec 14) (q : BitVec 4)
  /-- Ends the thread, clearing its mask bits and call stack. (R187) -/
  | exit
  /-- Enqueues a copy command from a register octet. (R267) -/
  | xq (a : BitVec 6)
  /-- Enqueues a network send command. (R267) -/
  | xqn (a : BitVec 6)
  /-- Elects the lowest active lane with a hard predicate. (R284) -/
  | elect (b : Bool) (d : BitVec 6)
  /-- Checks and commits a matrix parameter block into the reservation table. (R288) -/
  | mmissue (a : BitVec 6)
  /-- Spills accumulator line pairs in save form to memory. (R297) -/
  | accsv (d : BitVec 6) (a : BitVec 6) (c : BitVec 6)
  /-- Refills accumulator line pairs from memory. (R297) -/
  | accld (d : BitVec 6) (a : BitVec 6) (c : BitVec 6)
  /-- Elects one lane crew-wide by testing and setting a uniform register. (R284) -/
  | electU (b : Bool) (d : BitVec 6) (u : BitVec 6)
  /-- Takes a ray into the traversal unit and parks the thread. (R314) -/
  | trace (d : BitVec 6) (a : BitVec 6) (c : BitVec 6)
  /-- Takes a packet of rays into the traversal unit. (R316) -/
  | tracep (d : BitVec 6) (a : BitVec 6) (c : BitVec 6)
  /-- Commits a dual traversal operation over two hierarchies. (R326) -/
  | xpair (a : BitVec 6)
  /-- Continues a suspended ray, rejecting any candidate. (R314) -/
  | tres (d : BitVec 6) (a : BitVec 6) (c : BitVec 6)
  /-- Continues a ray, committing an acceptable candidate. (R314) -/
  | tresAcc (d : BitVec 6) (a : BitVec 6) (c : BitVec 6)
  /-- Commits an acceptable candidate and ends the ray. (R314) -/
  | tresTerm (d : BitVec 6) (a : BitVec 6) (c : BitVec 6)
  /-- Queues a reprojection operation. (R331) -/
  | reproj (a : BitVec 6)
  /-- Takes one work item from a Geyser dispenser. (R352) -/
  | fetchw (d : BitVec 6) (a : BitVec 6) (c : BitVec 6)
  /-- Writes a launch packet into a hardware queue. (R353) -/
  | launch (d : BitVec 6) (a : BitVec 6) (c : BitVec 6)
  /-- Raises BREAK with an operand. (R366) -/
  | trap (i : BitVec 12)
  /-- Returns from a trap routine and clears the trap record. (R367) -/
  | eret
  /-- Reads a system value. (R368) -/
  | gets (b : Bool) (d : BitVec 6) (a : BitVec 6)
  /-- Writes a writable system value. (R368) -/
  | sets (b : Bool) (d : BitVec 6) (a : BitVec 6)
  /-- Supplies immediate bits to the target's IMM operands. (R91) -/
  | himm (i : BitVec 24)
  /-- Selects a uniform register for UREG operands. (R92) -/
  | hsel (h : BitVec 1) (u : BitVec 5)
  /-- Guards the target per lane by a predicate. (R93) -/
  | hgrd (g : BitVec 1) (q : BitVec 3)
  /-- Sets the target's rounding mode. (R56) -/
  | hrnd (m : BitVec 2)
  /-- Sets the target's scope. (R220) -/
  | hscp (s : BitVec 2)
  /-- Sets the target's cache policy. (R90) -/
  | hcch (p : BitVec 2)
  /-- Gives a stall estimate with no architectural effect. (R90) -/
  | hsch (s : BitVec 8)
  deriving DecidableEq, Repr

end Sys2Proof
end

