-- ==== Sys2Proof/Machine/Uses.lean ====
section
/-!
DEFINITION. What each word's fields name (R86-R93), the encoding rules that R98 leaves to its
description, and whether it ends its run (R29, R30).
-/

namespace Sys2Proof

/-- Operand types, as R91 and R131 distinguish them; FP16 and BF16 share one. -/
inductive OpTy where
  | i32 | i64 | f32 | f64 | f16 | f16x2
  deriving DecidableEq, Repr

def OpTy.wide : OpTy → Bool
  | .i64 => true
  | .f64 => true
  | _ => false

/-- What a field of a word names. -/
inductive Use where
  /-- a vector source (R86) -/
  | src (ty : OpTy) (code : Code)
  /-- a destination of a form that pushes its result (R87); `n` is its N bit -/
  | dst (wide n : Bool) (code : Code)
  /-- registers of a load, a store or an atomic: `regs` of them, from a multiple of `align` on -/
  | block (regs align : Nat) (code : Code)
  /-- an index below a limit (R89) -/
  | idx (limit : Nat) (code : Code)
  /-- a uniform register (R89) -/
  | uni (code : Code)
  /-- a uniform source (R123) -/
  | usrc (code : Code)
  /-- a barrier (R89) -/
  | bar (code : Code)
  /-- a tangent index (R141) -/
  | tan (code : Code)
  /-- DEVAL's uniform registers (R143) -/
  | deltas (code : Code)
  /-- the live register count of a Joiner point, in quartets (R168) -/
  | live (code : Code)
  /-- a REGION's live-in quartets (R186) -/
  | quartets (v : BitVec 14)
  /-- the word must be the first of its run (R185) -/
  | first
  /-- a field whose value the instruction's description excludes (R99, condition 2) -/
  | bad (excluded : Bool)
  deriving DecidableEq, Repr

/-- The float type of a TY code: .f32, .f64, .f16, .bf16 (R139, R143, R150, R157). -/
def floatTy (t : BitVec 2) : OpTy :=
  match t.toNat with
  | 0 => .f32
  | 1 => .f64
  | _ => .f16

/-- The operand type of a conversion code (R140). -/
def cvtTy (x : BitVec 3) : OpTy :=
  match x.toNat with
  | 0 => .f32
  | 1 => .f64
  | 2 => .f16
  | 3 => .f16
  | 4 => .i32
  | 5 => .i32
  | _ => .i64


/-- Registers of a load or store of width code W (R207). -/
def ldRegs (w : BitVec 3) : Nat :=
  match w.toNat with
  | 5 => 2
  | 6 => 4
  | _ => 1

/-- The data source of a store of width code W: a quartet must be registers (R207). -/
def stSource (w : BitVec 3) (d : Code) : Use :=
  match w.toNat with
  | 5 => .src .i64 d
  | 6 => .block 4 4 d
  | _ => .src .i32 d

/-- The width of a system value that GETS reads; none for a number that names nothing (R368). -/
def sysWide (k : Nat) : Option Bool :=
  if k = 0x0F ∨ 0x13 ≤ k then none else some (k == 0x0D || k == 0x0E || k == 0x11 || k == 0x12)

/-- What GETS names: the registers of its value, or a value that is not there (R368). -/
def sysRead (d a : Code) : Use :=
  match sysWide a.toNat with
  | some true => .block 2 2 d
  | some false => .block 1 1 d
  | none => .bad true

/-- The type of a system value that SETS writes; none where it is not writable (R368). -/
def setsTy (d : Code) : Option OpTy := if d = 8 then some .i32 else if d = 9 then some .f32 else none

/-- What SETS names (R368). -/
def sysWrite (d a : Code) : Use :=
  match setsTy d with
  | some ty => .src ty a
  | none => .bad true

/-- The operands of a word. -/
def Instr.uses (i : Instr) : List Use :=
  match i with
  | .iadd _ n d a c => [.dst false n d, .src .i32 a, .src .i32 c]
  | .isub _ n d a c => [.dst false n d, .src .i32 a, .src .i32 c]
  | .imul _ n d a c => [.dst false n d, .src .i32 a, .src .i32 c]
  | .imulh _ n d a c => [.dst false n d, .src .i32 a, .src .i32 c]
  | .imulhU _ n d a c => [.dst false n d, .src .i32 a, .src .i32 c]
  | .ineg _ n d a => [.dst false n d, .src .i32 a]
  | .iabs _ n d a => [.dst false n d, .src .i32 a]
  | .imin _ n d a c => [.dst false n d, .src .i32 a, .src .i32 c]
  | .iminU _ n d a c => [.dst false n d, .src .i32 a, .src .i32 c]
  | .imax _ n d a c => [.dst false n d, .src .i32 a, .src .i32 c]
  | .imaxU _ n d a c => [.dst false n d, .src .i32 a, .src .i32 c]
  | .land _ n d a c => [.dst false n d, .src .i32 a, .src .i32 c]
  | .lor _ n d a c => [.dst false n d, .src .i32 a, .src .i32 c]
  | .lxor _ n d a c => [.dst false n d, .src .i32 a, .src .i32 c]
  | .lnot _ n d a => [.dst false n d, .src .i32 a]
  | .shl _ n d a c => [.dst false n d, .src .i32 a, .src .i32 c]
  | .shr _ n d a c => [.dst false n d, .src .i32 a, .src .i32 c]
  | .sar _ n d a c => [.dst false n d, .src .i32 a, .src .i32 c]
  | .rot _ n d a c => [.dst false n d, .src .i32 a, .src .i32 c]
  | .popc _ n d a => [.dst false n d, .src .i32 a]
  | .clz _ n d a => [.dst false n d, .src .i32 a]
  | .ctz _ n d a => [.dst false n d, .src .i32 a]
  | .brev _ n d a => [.dst false n d, .src .i32 a]
  | .mov _ n d a => [.dst false n d, .src .i32 a]
  | .iaddSat _ n d a c => [.dst false n d, .src .i32 a, .src .i32 c]
  | .isubSat _ n d a c => [.dst false n d, .src .i32 a, .src .i32 c]
  | .iaddUsat _ n d a c => [.dst false n d, .src .i32 a, .src .i32 c]
  | .isubUsat _ n d a c => [.dst false n d, .src .i32 a, .src .i32 c]
  | .iadd64 _ n d a c => [.dst true n d, .src .i64 a, .src .i64 c]
  | .isub64 _ n d a c => [.dst true n d, .src .i64 a, .src .i64 c]
  | .imul64 _ n d a c => [.dst true n d, .src .i64 a, .src .i64 c]
  | .imulh64 _ n d a c => [.dst true n d, .src .i64 a, .src .i64 c]
  | .imulhU64 _ n d a c => [.dst true n d, .src .i64 a, .src .i64 c]
  | .ineg64 _ n d a => [.dst true n d, .src .i64 a]
  | .iabs64 _ n d a => [.dst true n d, .src .i64 a]
  | .imin64 _ n d a c => [.dst true n d, .src .i64 a, .src .i64 c]
  | .iminU64 _ n d a c => [.dst true n d, .src .i64 a, .src .i64 c]
  | .imax64 _ n d a c => [.dst true n d, .src .i64 a, .src .i64 c]
  | .imaxU64 _ n d a c => [.dst true n d, .src .i64 a, .src .i64 c]
  | .land64 _ n d a c => [.dst true n d, .src .i64 a, .src .i64 c]
  | .lor64 _ n d a c => [.dst true n d, .src .i64 a, .src .i64 c]
  | .lxor64 _ n d a c => [.dst true n d, .src .i64 a, .src .i64 c]
  | .lnot64 _ n d a => [.dst true n d, .src .i64 a]
  | .shl64 _ n d a c => [.dst true n d, .src .i64 a, .src .i32 c]
  | .shr64 _ n d a c => [.dst true n d, .src .i64 a, .src .i32 c]
  | .sar64 _ n d a c => [.dst true n d, .src .i64 a, .src .i32 c]
  | .rot64 _ n d a c => [.dst true n d, .src .i64 a, .src .i32 c]
  | .popc64 _ n d a => [.dst false n d, .src .i64 a]
  | .clz64 _ n d a => [.dst false n d, .src .i64 a]
  | .ctz64 _ n d a => [.dst false n d, .src .i64 a]
  | .brev64 _ n d a => [.dst true n d, .src .i64 a]
  | .mov64 _ n d a => [.dst true n d, .src .i64 a]
  | .iaddSat64 _ n d a c => [.dst true n d, .src .i64 a, .src .i64 c]
  | .isubSat64 _ n d a c => [.dst true n d, .src .i64 a, .src .i64 c]
  | .iaddUsat64 _ n d a c => [.dst true n d, .src .i64 a, .src .i64 c]
  | .isubUsat64 _ n d a c => [.dst true n d, .src .i64 a, .src .i64 c]
  | .imad _ n d a c e => [.dst false n d, .src .i32 a, .src .i32 c, .src .i32 e]
  | .imad64 _ n d a c e => [.dst true n d, .src .i64 a, .src .i64 c, .src .i64 e]
  | .movi _ n d _ => [.dst false n d]
  | .lea _ n d a _ => [.dst true n d, .src .i64 a]
  | .icmp _ d a c w _ => [.idx 8 d, .src (if w == 1#1 then .i64 else .i32) a, .src (if w == 1#1 then .i64 else .i32) c]
  | .bfi _ n d a c e => [.dst false n d, .src .i32 a, .src .i32 c, .src .i32 e]
  | .bfxU _ n d a c => [.dst false n d, .src .i32 a, .src .i32 c]
  | .bfxS _ n d a c => [.dst false n d, .src .i32 a, .src .i32 c]
  | .bffs _ n d a => [.dst true n d, .src .i64 a]
  | .bffsIdx _ n d a => [.dst false n d, .src .i64 a]
  | .bfpl _ n d a c => [.dst true n d, .src .i64 a, .src .i32 c]
  | .qxchX _ n d a => [.dst false n d, .src .i32 a]
  | .qxchY _ n d a => [.dst false n d, .src .i32 a]
  | .qxchXy _ n d a => [.dst false n d, .src .i32 a]
  | .qxchBc _ n d a c => [.dst false n d, .src .i32 a, .idx 4 c]
  | .gshuf _ n d a c => [.dst false n d, .src .i32 a, .src .i32 c]
  | .gshufXor _ n d a c => [.dst false n d, .src .i32 a, .src .i32 c]
  | .qxchX64 _ n d a => [.dst true n d, .src .i64 a]
  | .qxchY64 _ n d a => [.dst true n d, .src .i64 a]
  | .qxchXy64 _ n d a => [.dst true n d, .src .i64 a]
  | .qxchBc64 _ n d a c => [.dst true n d, .src .i64 a, .idx 4 c]
  | .gshuf64 _ n d a c => [.dst true n d, .src .i64 a, .src .i32 c]
  | .gshufXor64 _ n d a c => [.dst true n d, .src .i64 a, .src .i32 c]
  | .umov _ d a => [.uni d, .usrc a]
  | .uadd _ d a c => [.uni d, .usrc a, .usrc c]
  | .usub _ d a c => [.uni d, .usrc a, .usrc c]
  | .umul _ d a c => [.uni d, .usrc a, .usrc c]
  | .uand _ d a c => [.uni d, .usrc a, .usrc c]
  | .uor _ d a c => [.uni d, .usrc a, .usrc c]
  | .uxor _ d a c => [.uni d, .usrc a, .usrc c]
  | .ushl _ d a c => [.uni d, .usrc a, .usrc c]
  | .ushr _ d a c => [.uni d, .usrc a, .usrc c]
  | .usar _ d a c => [.uni d, .usrc a, .usrc c]
  | .umin _ d a c => [.uni d, .usrc a, .usrc c]
  | .umax _ d a c => [.uni d, .usrc a, .usrc c]
  | .umovv _ d a => [.uni d, .src .i32 a]
  | .umovv64 _ d a => [.uni d, .src .i64 a]
  | .ffmaF32 _ n d a c e => [.dst false n d, .src .f32 a, .src .f32 c, .src .f32 e]
  | .ffmaF64 _ n d a c e => [.dst true n d, .src .f64 a, .src .f64 c, .src .f64 e]
  | .ffmaF16 _ n d a c e => [.dst false n d, .src .f16 a, .src .f16 c, .src .f16 e]
  | .ffmaBf16 _ n d a c e => [.dst false n d, .src .f16 a, .src .f16 c, .src .f16 e]
  | .ffmaF16x2 _ n d a c e => [.dst false n d, .src .f16x2 a, .src .f16x2 c, .src .f16x2 e]
  | .faddF32 _ n d a c => [.dst false n d, .src .f32 a, .src .f32 c]
  | .fsubF32 _ n d a c => [.dst false n d, .src .f32 a, .src .f32 c]
  | .fmulF32 _ n d a c => [.dst false n d, .src .f32 a, .src .f32 c]
  | .fminF32 _ n d a c => [.dst false n d, .src .f32 a, .src .f32 c]
  | .fmaxF32 _ n d a c => [.dst false n d, .src .f32 a, .src .f32 c]
  | .fabsF32 _ n d a => [.dst false n d, .src .f32 a]
  | .fnegF32 _ n d a => [.dst false n d, .src .f32 a]
  | .fdivF32 _ n d a c => [.dst false n d, .src .f32 a, .src .f32 c]
  | .frcpF32 _ n d a => [.dst false n d, .src .f32 a]
  | .frsqF32 _ n d a => [.dst false n d, .src .f32 a]
  | .fsqrtF32 _ n d a => [.dst false n d, .src .f32 a]
  | .fexp2F32 _ n d a => [.dst false n d, .src .f32 a]
  | .flog2F32 _ n d a => [.dst false n d, .src .f32 a]
  | .fsinF32 _ n d a => [.dst false n d, .src .f32 a]
  | .fcosF32 _ n d a => [.dst false n d, .src .f32 a]
  | .ffloorF32 _ n d a => [.dst false n d, .src .f32 a]
  | .fceilF32 _ n d a => [.dst false n d, .src .f32 a]
  | .frndF32 _ n d a => [.dst false n d, .src .f32 a]
  | .ffracF32 _ n d a => [.dst false n d, .src .f32 a]
  | .faddF64 _ n d a c => [.dst true n d, .src .f64 a, .src .f64 c]
  | .fsubF64 _ n d a c => [.dst true n d, .src .f64 a, .src .f64 c]
  | .fmulF64 _ n d a c => [.dst true n d, .src .f64 a, .src .f64 c]
  | .fminF64 _ n d a c => [.dst true n d, .src .f64 a, .src .f64 c]
  | .fmaxF64 _ n d a c => [.dst true n d, .src .f64 a, .src .f64 c]
  | .fabsF64 _ n d a => [.dst true n d, .src .f64 a]
  | .fnegF64 _ n d a => [.dst true n d, .src .f64 a]
  | .fdivF64 _ n d a c => [.dst true n d, .src .f64 a, .src .f64 c]
  | .frcpF64 _ n d a => [.dst true n d, .src .f64 a]
  | .frsqF64 _ n d a => [.dst true n d, .src .f64 a]
  | .fsqrtF64 _ n d a => [.dst true n d, .src .f64 a]
  | .fexp2F64 _ n d a => [.dst true n d, .src .f64 a]
  | .flog2F64 _ n d a => [.dst true n d, .src .f64 a]
  | .fsinF64 _ n d a => [.dst true n d, .src .f64 a]
  | .fcosF64 _ n d a => [.dst true n d, .src .f64 a]
  | .ffloorF64 _ n d a => [.dst true n d, .src .f64 a]
  | .fceilF64 _ n d a => [.dst true n d, .src .f64 a]
  | .frndF64 _ n d a => [.dst true n d, .src .f64 a]
  | .ffracF64 _ n d a => [.dst true n d, .src .f64 a]
  | .faddF16 _ n d a c => [.dst false n d, .src .f16 a, .src .f16 c]
  | .fsubF16 _ n d a c => [.dst false n d, .src .f16 a, .src .f16 c]
  | .fmulF16 _ n d a c => [.dst false n d, .src .f16 a, .src .f16 c]
  | .fminF16 _ n d a c => [.dst false n d, .src .f16 a, .src .f16 c]
  | .fmaxF16 _ n d a c => [.dst false n d, .src .f16 a, .src .f16 c]
  | .fabsF16 _ n d a => [.dst false n d, .src .f16 a]
  | .fnegF16 _ n d a => [.dst false n d, .src .f16 a]
  | .fdivF16 _ n d a c => [.dst false n d, .src .f16 a, .src .f16 c]
  | .frcpF16 _ n d a => [.dst false n d, .src .f16 a]
  | .frsqF16 _ n d a => [.dst false n d, .src .f16 a]
  | .fsqrtF16 _ n d a => [.dst false n d, .src .f16 a]
  | .fexp2F16 _ n d a => [.dst false n d, .src .f16 a]
  | .flog2F16 _ n d a => [.dst false n d, .src .f16 a]
  | .fsinF16 _ n d a => [.dst false n d, .src .f16 a]
  | .fcosF16 _ n d a => [.dst false n d, .src .f16 a]
  | .ffloorF16 _ n d a => [.dst false n d, .src .f16 a]
  | .fceilF16 _ n d a => [.dst false n d, .src .f16 a]
  | .frndF16 _ n d a => [.dst false n d, .src .f16 a]
  | .ffracF16 _ n d a => [.dst false n d, .src .f16 a]
  | .faddBf16 _ n d a c => [.dst false n d, .src .f16 a, .src .f16 c]
  | .fsubBf16 _ n d a c => [.dst false n d, .src .f16 a, .src .f16 c]
  | .fmulBf16 _ n d a c => [.dst false n d, .src .f16 a, .src .f16 c]
  | .fminBf16 _ n d a c => [.dst false n d, .src .f16 a, .src .f16 c]
  | .fmaxBf16 _ n d a c => [.dst false n d, .src .f16 a, .src .f16 c]
  | .fabsBf16 _ n d a => [.dst false n d, .src .f16 a]
  | .fnegBf16 _ n d a => [.dst false n d, .src .f16 a]
  | .fdivBf16 _ n d a c => [.dst false n d, .src .f16 a, .src .f16 c]
  | .frcpBf16 _ n d a => [.dst false n d, .src .f16 a]
  | .frsqBf16 _ n d a => [.dst false n d, .src .f16 a]
  | .fsqrtBf16 _ n d a => [.dst false n d, .src .f16 a]
  | .fexp2Bf16 _ n d a => [.dst false n d, .src .f16 a]
  | .flog2Bf16 _ n d a => [.dst false n d, .src .f16 a]
  | .fsinBf16 _ n d a => [.dst false n d, .src .f16 a]
  | .fcosBf16 _ n d a => [.dst false n d, .src .f16 a]
  | .ffloorBf16 _ n d a => [.dst false n d, .src .f16 a]
  | .fceilBf16 _ n d a => [.dst false n d, .src .f16 a]
  | .frndBf16 _ n d a => [.dst false n d, .src .f16 a]
  | .ffracBf16 _ n d a => [.dst false n d, .src .f16 a]
  | .faddF16x2 _ n d a c => [.dst false n d, .src .f16x2 a, .src .f16x2 c]
  | .fsubF16x2 _ n d a c => [.dst false n d, .src .f16x2 a, .src .f16x2 c]
  | .fmulF16x2 _ n d a c => [.dst false n d, .src .f16x2 a, .src .f16x2 c]
  | .fminF16x2 _ n d a c => [.dst false n d, .src .f16x2 a, .src .f16x2 c]
  | .fmaxF16x2 _ n d a c => [.dst false n d, .src .f16x2 a, .src .f16x2 c]
  | .fabsF16x2 _ n d a => [.dst false n d, .src .f16x2 a]
  | .fnegF16x2 _ n d a => [.dst false n d, .src .f16x2 a]
  | .fdivF16x2 _ n d a c => [.dst false n d, .src .f16x2 a, .src .f16x2 c]
  | .frcpF16x2 _ n d a => [.dst false n d, .src .f16x2 a]
  | .frsqF16x2 _ n d a => [.dst false n d, .src .f16x2 a]
  | .fsqrtF16x2 _ n d a => [.dst false n d, .src .f16x2 a]
  | .fexp2F16x2 _ n d a => [.dst false n d, .src .f16x2 a]
  | .flog2F16x2 _ n d a => [.dst false n d, .src .f16x2 a]
  | .fsinF16x2 _ n d a => [.dst false n d, .src .f16x2 a]
  | .fcosF16x2 _ n d a => [.dst false n d, .src .f16x2 a]
  | .ffloorF16x2 _ n d a => [.dst false n d, .src .f16x2 a]
  | .fceilF16x2 _ n d a => [.dst false n d, .src .f16x2 a]
  | .frndF16x2 _ n d a => [.dst false n d, .src .f16x2 a]
  | .ffracF16x2 _ n d a => [.dst false n d, .src .f16x2 a]
  | .fcmp _ d a c t _ => [.idx 8 d, .src (floatTy t) a, .src (floatTy t) c]
  | .cvt _ n d a x y => [.dst (cvtTy x).wide n d, .src (cvtTy y) a]
  | .dseedF32 _ n d a k => [.dst false n d, .src .f32 a, .tan k]
  | .dseedF64 _ n d a k => [.dst true n d, .src .f64 a, .tan k]
  | .dzero _ n d a => [.dst false n d, .src .i32 a]
  | .dzero64 _ n d a => [.dst true n d, .src .i64 a]
  | .dgetF32 _ n d a k => [.dst false n d, .src .f32 a, .tan k]
  | .dgetF64 _ n d a k => [.dst true n d, .src .f64 a, .tan k]
  | .dputF32 _ d a k => [.dst false false d, .src .f32 a, .tan k]
  | .dputF64 _ d a k => [.dst true false d, .src .f64 a, .tan k]
  | .deval _ n d a u t => [.dst (floatTy t).wide n d, .src (floatTy t) a, .deltas u]
  | .pcmp _ d a c _ _ t => [.idx 8 d, .src (floatTy t) a, .src (floatTy t) c]
  | .pset _ d a _ => [.idx 8 d, .src .f32 a]
  | .pand _ d a c => [.idx 8 d, .idx 8 a, .idx 8 c]
  | .por _ d a c => [.idx 8 d, .idx 8 a, .idx 8 c]
  | .pnot _ d a => [.idx 8 d, .idx 8 a]
  | .pget _ n d a => [.dst false n d, .idx 8 a]
  | .pgetW _ n d a => [.dst false n d, .idx 8 a]
  | .pput _ d a c => [.idx 8 d, .src .i32 a, .src .f32 c]
  | .pcoll _ d a => [.idx 8 d, .idx 8 a]
  | .pblend _ n d t _ c e => [.dst (floatTy t).wide n d, .src (floatTy t) c, .src (floatTy t) e]
  | .psel _ n d a c w _ => [.dst (w == 1#1) n d, .src (if w == 1#1 then .i64 else .i32) a, .src (if w == 1#1 then .i64 else .i32) c]
  | .rkey _ a c => [.src .i64 a, .src .i32 c]
  | .rnextU32 _ n d => [.dst false n d]
  | .rnextU64 _ n d => [.dst true n d]
  | .rnextF32 _ n d => [.dst false n d]
  | .ld _ d a c w => [.block (ldRegs w) (ldRegs w) d, .src .i64 a, .src .i32 c]
  | .st _ d a c w => [stSource w d, .src .i64 a, .src .i32 c]
  | .ldt _ d a c _ t => [.block (if t == 1#2 then 2 else 1) (if t == 1#2 then 2 else 1) d, .src .i64 a, .src .i32 c]
  | .stt _ d a c _ _ => [.src .i32 d, .src .i64 a, .src .i32 c]
  | .ldd _ d a c f => [.block (if f == 1#1 then 2 else 1) (if f == 1#1 then 2 else 1) d, .src .i64 a, .src .i32 c]
  | .std _ d a c f => [.src (if f == 1#1 then .f64 else .f32) d, .src .i64 a, .src .i32 c]
  | .lds _ d a c w => [.block (ldRegs w) (ldRegs w) d, .src .i32 a, .src .i32 c]
  | .sts _ d a c w => [stSource w d, .src .i32 a, .src .i32 c]
  | .bhdrRd _ d a => [.block 1 1 d, .src .i64 a]
  | .bhdrWr _ d a => [.src .i32 d, .src .i64 a]
  | .pref _ a c => [.src .i64 a, .src .i32 c]
  | .tset _ a c => [.src .i32 a, .src .i64 c]
  | .tsetClr _ a => [.src .i32 a]
  | .tstat _ n d a => [.dst true n d, .src .i32 a]
  | .atom _ d a c _ _ w => [.block (if w == 1#1 then 2 else 1) (if w == 1#1 then 2 else 1) d, .src .i64 a, .src (if w == 1#1 then .i64 else .i32) c]
  | .atomFadd _ d a c _ w => [.block (if w == 1#1 then 2 else 1) (if w == 1#1 then 2 else 1) d, .src .i64 a, .src (if w == 1#1 then .f64 else .f32) c]
  | .atoms _ d a c _ _ w => [.block (if w == 1#1 then 2 else 1) (if w == 1#1 then 2 else 1) d, .src .i32 a, .src (if w == 1#1 then .i64 else .i32) c]
  | .atomsFadd _ d a c _ w => [.block (if w == 1#1 then 2 else 1) (if w == 1#1 then 2 else 1) d, .src .i32 a, .src (if w == 1#1 then .f64 else .f32) c]
  | .acq _ d a => [.block 2 2 d, .src .i64 a]
  | .rel _ a c => [.src .i64 a, .src .i64 c]
  | .fence _ => []
  | .bind _ d a c => [.src .i64 d, .src .i64 a, .src .i32 c]
  | .bindClr _ d a => [.src .i64 d, .src .i64 a]
  | .mwait d a c _ _ w => [.block (if w == 1#1 then 2 else 1) (if w == 1#1 then 2 else 1) d, .src .i64 a, .src (if w == 1#1 then .i64 else .i32) c]
  | .barArv _ n d a c => [.dst false n d, .src .i32 a, .idx 64 c, .bar c]
  | .barWt a c => [.src .i32 a, .idx 64 c, .bar c]
  | .barSyn a c => [.src .i32 a, .idx 64 c, .bar c]
  | .gbar c => [.idx 64 c, .bar c]
  | .mbput d a => [.src .i64 d, .src .i64 a]
  | .mbtake d a => [.block 2 2 d, .src .i64 a]
  | .bra _ => []
  | .call _ => []
  | .brq _ _ _ => []
  | .nop _ => []
  | .brx a => [.src .i64 a]
  | .callx a => [.src .i64 a]
  | .ret => []
  | .callj l a c => [.live l, .src .i64 a, .src .i32 c]
  | .regroup l a => [.live l, .src .i32 a]
  | .join _ k => [.idx 12 k]
  | .leave _ k => [.idx 12 k]
  | .waitm k => [.idx 12 k]
  | .region _ v _ => [.first, .quartets v]
  | .exit => []
  | .xq a => [.block 8 8 a]
  | .xqn a => [.block 8 8 a]
  | .elect _ d => [.idx 8 d]
  | .mmissue a => [.src .i32 a]
  | .accsv d a c => [.src .i64 d, .src .i32 a, .src .i32 c]
  | .accld d a c => [.src .i64 d, .src .i32 a, .src .i32 c]
  | .electU _ d u => [.idx 8 d, .uni u]
  | .trace d a c => [.block 1 1 d, .src .i32 a, .src .i64 c]
  | .tracep d a c => [.block 1 1 d, .src .i32 a, .src .i32 c]
  | .xpair a => [.src .i32 a]
  | .tres d a c => [.block 1 1 d, .src .i32 a, .src .i64 c]
  | .tresAcc d a c => [.block 1 1 d, .src .i32 a, .src .i64 c]
  | .tresTerm d a c => [.block 1 1 d, .src .i32 a, .src .i64 c]
  | .reproj a => [.src .i32 a]
  | .fetchw d a c => [.block 4 4 d, .src .i64 a, .idx 8 c]
  | .launch d a c => [.block 1 1 d, .src .i32 a, .src .i32 c]
  | .trap _ => []
  | .eret => []
  | .gets _ d a => [sysRead d a]
  | .sets _ d a => [sysWrite d a]
  | .himm _ => []
  | .hsel _ _ => []
  | .hgrd _ _ => []
  | .hrnd _ => []
  | .hscp _ => []
  | .hcch _ => []
  | .hsch _ => []
  | .pickGroup _ _ => []
  | .loadDataArrival _ => []
  | .faultResolved _ _ => []
  | .faultUnresolvable _ _ _ => []
  | .windowAccessApply _ _ => []
  | .monitorWake _ _ => []
  | .mailboxWaitMet _ _ => []
  | .gangBarrierComplete _ _ _ => []
  | .joinerBatchClose _ => []
  | .joinerMovesComplete _ => []
  | .preemptRequest _ => []
  | .preemptTimeout _ => []
  | .crewResume _ => []
  | .saveAreaSupply _ _ => []
  | .trapHeld _ _ => []
  | .trapResume _ _ => []
  | .trapEnter _ _ _ => []
  | .trapEnd _ _ => []
  | .trapAbort _ _ => []
  | .copyTake _ => []
  | .copyComplete _ _ => []
  | .matrixMma _ => []
  | .matrixWload _ => []
  | .matrixFin _ => []
  | .matrixClr _ => []
  | .accEntryExecute _ => []
  | .matrixPassGrant _ => []
  | .multiplierMismatch _ => []
  | .rayEndOrSuspend _ => []
  | .rayFaultStop _ => []
  | .rayReenter _ => []
  | .xpairComplete _ => []
  | .reprojOperation _ => []
  | .fetchwWake _ _ => []
  | .doorbell _ _ _ => []
  | .regw _ _ => []
  | .regstRead _ => []
  | .bar0ReservedWrite _ _ _ => []
  | .queueDescriptorWrite _ _ => []
  | .packetTake _ => []
  | .distributeGang _ => []
  | .placeGang _ => []
  | .gridComplete _ => []
  | .graphStart _ => []
  | .graphNodeStart _ _ => []
  | .graphMatrixNode _ _ => []
  | .graphNodeComplete _ _ => []
  | .remotePayloadReceive _ _ _ _ => []
  | .peerRegistration _ _ => []
  | .peerWake _ _ _ => []
  | .transportFailure _ => []
  | .collectiveDoorbell _ _ => []
  | .collectiveSum _ => []
  | .collectiveMin _ => []
  | .collectiveMax _ => []
  | .collectiveMessage _ _ _ _ => []
  | .collectiveCommit _ => []
  | .collectiveTimeout _ _ => []
  | .checkpoint _ _ => []
  | .checkpointRestore _ _ => []
  | .coldStart _ _ => []
  | .warmStart _ _ _ => []
  | .startTimeout => []
  | .reset => []
  | .recover => []
  | .softErrorCorrected _ _ _ => []
  | .uncorrectableError _ => []
  | .attestationRequest _ _ => []
  | .powerThermalThrottle => []
  | .clockRestore => []
  | .thermalTrip => []
  | .unassignedWord _ => []
  | .hostDeviceMemoryAccess _ _ _ _ => []
  | .gridRemoval _ => []

/-- Whether a decoded word keeps the rules of its description whose breach raises
ILLEGAL-INSTRUCTION. -/
def Instr.legal (i : Instr) : Bool :=
  match i with
  | .iadd _ _ _ _ _ => true
  | .isub _ _ _ _ _ => true
  | .imul _ _ _ _ _ => true
  | .imulh _ _ _ _ _ => true
  | .imulhU _ _ _ _ _ => true
  | .ineg _ _ _ _ => true
  | .iabs _ _ _ _ => true
  | .imin _ _ _ _ _ => true
  | .iminU _ _ _ _ _ => true
  | .imax _ _ _ _ _ => true
  | .imaxU _ _ _ _ _ => true
  | .land _ _ _ _ _ => true
  | .lor _ _ _ _ _ => true
  | .lxor _ _ _ _ _ => true
  | .lnot _ _ _ _ => true
  | .shl _ _ _ _ _ => true
  | .shr _ _ _ _ _ => true
  | .sar _ _ _ _ _ => true
  | .rot _ _ _ _ _ => true
  | .popc _ _ _ _ => true
  | .clz _ _ _ _ => true
  | .ctz _ _ _ _ => true
  | .brev _ _ _ _ => true
  | .mov _ _ _ _ => true
  | .iaddSat _ _ _ _ _ => true
  | .isubSat _ _ _ _ _ => true
  | .iaddUsat _ _ _ _ _ => true
  | .isubUsat _ _ _ _ _ => true
  | .iadd64 _ _ _ _ _ => true
  | .isub64 _ _ _ _ _ => true
  | .imul64 _ _ _ _ _ => true
  | .imulh64 _ _ _ _ _ => true
  | .imulhU64 _ _ _ _ _ => true
  | .ineg64 _ _ _ _ => true
  | .iabs64 _ _ _ _ => true
  | .imin64 _ _ _ _ _ => true
  | .iminU64 _ _ _ _ _ => true
  | .imax64 _ _ _ _ _ => true
  | .imaxU64 _ _ _ _ _ => true
  | .land64 _ _ _ _ _ => true
  | .lor64 _ _ _ _ _ => true
  | .lxor64 _ _ _ _ _ => true
  | .lnot64 _ _ _ _ => true
  | .shl64 _ _ _ _ _ => true
  | .shr64 _ _ _ _ _ => true
  | .sar64 _ _ _ _ _ => true
  | .rot64 _ _ _ _ _ => true
  | .popc64 _ _ _ _ => true
  | .clz64 _ _ _ _ => true
  | .ctz64 _ _ _ _ => true
  | .brev64 _ _ _ _ => true
  | .mov64 _ _ _ _ => true
  | .iaddSat64 _ _ _ _ _ => true
  | .isubSat64 _ _ _ _ _ => true
  | .iaddUsat64 _ _ _ _ _ => true
  | .isubUsat64 _ _ _ _ _ => true
  | .imad _ _ _ _ _ _ => true
  | .imad64 _ _ _ _ _ _ => true
  | .movi _ _ _ _ => true
  | .lea _ _ _ _ _ => true
  | .icmp _ _ _ _ _ k => decide (k.toNat < 10)
  | .bfi _ _ _ _ _ _ => true
  | .bfxU _ _ _ _ _ => true
  | .bfxS _ _ _ _ _ => true
  | .bffs _ _ _ _ => true
  | .bffsIdx _ _ _ _ => true
  | .bfpl _ _ _ _ _ => true
  | .qxchX _ _ _ _ => true
  | .qxchY _ _ _ _ => true
  | .qxchXy _ _ _ _ => true
  | .qxchBc _ _ _ _ _ => true
  | .gshuf _ _ _ _ _ => true
  | .gshufXor _ _ _ _ _ => true
  | .qxchX64 _ _ _ _ => true
  | .qxchY64 _ _ _ _ => true
  | .qxchXy64 _ _ _ _ => true
  | .qxchBc64 _ _ _ _ _ => true
  | .gshuf64 _ _ _ _ _ => true
  | .gshufXor64 _ _ _ _ _ => true
  | .umov _ _ _ => true
  | .uadd _ _ _ _ => true
  | .usub _ _ _ _ => true
  | .umul _ _ _ _ => true
  | .uand _ _ _ _ => true
  | .uor _ _ _ _ => true
  | .uxor _ _ _ _ => true
  | .ushl _ _ _ _ => true
  | .ushr _ _ _ _ => true
  | .usar _ _ _ _ => true
  | .umin _ _ _ _ => true
  | .umax _ _ _ _ => true
  | .umovv _ _ _ => true
  | .umovv64 _ _ _ => true
  | .ffmaF32 _ _ _ _ _ _ => true
  | .ffmaF64 _ _ _ _ _ _ => true
  | .ffmaF16 _ _ _ _ _ _ => true
  | .ffmaBf16 _ _ _ _ _ _ => true
  | .ffmaF16x2 _ _ _ _ _ _ => true
  | .faddF32 _ _ _ _ _ => true
  | .fsubF32 _ _ _ _ _ => true
  | .fmulF32 _ _ _ _ _ => true
  | .fminF32 _ _ _ _ _ => true
  | .fmaxF32 _ _ _ _ _ => true
  | .fabsF32 _ _ _ _ => true
  | .fnegF32 _ _ _ _ => true
  | .fdivF32 _ _ _ _ _ => true
  | .frcpF32 _ _ _ _ => true
  | .frsqF32 _ _ _ _ => true
  | .fsqrtF32 _ _ _ _ => true
  | .fexp2F32 _ _ _ _ => true
  | .flog2F32 _ _ _ _ => true
  | .fsinF32 _ _ _ _ => true
  | .fcosF32 _ _ _ _ => true
  | .ffloorF32 _ _ _ _ => true
  | .fceilF32 _ _ _ _ => true
  | .frndF32 _ _ _ _ => true
  | .ffracF32 _ _ _ _ => true
  | .faddF64 _ _ _ _ _ => true
  | .fsubF64 _ _ _ _ _ => true
  | .fmulF64 _ _ _ _ _ => true
  | .fminF64 _ _ _ _ _ => true
  | .fmaxF64 _ _ _ _ _ => true
  | .fabsF64 _ _ _ _ => true
  | .fnegF64 _ _ _ _ => true
  | .fdivF64 _ _ _ _ _ => true
  | .frcpF64 _ _ _ _ => true
  | .frsqF64 _ _ _ _ => true
  | .fsqrtF64 _ _ _ _ => true
  | .fexp2F64 _ _ _ _ => true
  | .flog2F64 _ _ _ _ => true
  | .fsinF64 _ _ _ _ => true
  | .fcosF64 _ _ _ _ => true
  | .ffloorF64 _ _ _ _ => true
  | .fceilF64 _ _ _ _ => true
  | .frndF64 _ _ _ _ => true
  | .ffracF64 _ _ _ _ => true
  | .faddF16 _ _ _ _ _ => true
  | .fsubF16 _ _ _ _ _ => true
  | .fmulF16 _ _ _ _ _ => true
  | .fminF16 _ _ _ _ _ => true
  | .fmaxF16 _ _ _ _ _ => true
  | .fabsF16 _ _ _ _ => true
  | .fnegF16 _ _ _ _ => true
  | .fdivF16 _ _ _ _ _ => true
  | .frcpF16 _ _ _ _ => true
  | .frsqF16 _ _ _ _ => true
  | .fsqrtF16 _ _ _ _ => true
  | .fexp2F16 _ _ _ _ => true
  | .flog2F16 _ _ _ _ => true
  | .fsinF16 _ _ _ _ => true
  | .fcosF16 _ _ _ _ => true
  | .ffloorF16 _ _ _ _ => true
  | .fceilF16 _ _ _ _ => true
  | .frndF16 _ _ _ _ => true
  | .ffracF16 _ _ _ _ => true
  | .faddBf16 _ _ _ _ _ => true
  | .fsubBf16 _ _ _ _ _ => true
  | .fmulBf16 _ _ _ _ _ => true
  | .fminBf16 _ _ _ _ _ => true
  | .fmaxBf16 _ _ _ _ _ => true
  | .fabsBf16 _ _ _ _ => true
  | .fnegBf16 _ _ _ _ => true
  | .fdivBf16 _ _ _ _ _ => true
  | .frcpBf16 _ _ _ _ => true
  | .frsqBf16 _ _ _ _ => true
  | .fsqrtBf16 _ _ _ _ => true
  | .fexp2Bf16 _ _ _ _ => true
  | .flog2Bf16 _ _ _ _ => true
  | .fsinBf16 _ _ _ _ => true
  | .fcosBf16 _ _ _ _ => true
  | .ffloorBf16 _ _ _ _ => true
  | .fceilBf16 _ _ _ _ => true
  | .frndBf16 _ _ _ _ => true
  | .ffracBf16 _ _ _ _ => true
  | .faddF16x2 _ _ _ _ _ => true
  | .fsubF16x2 _ _ _ _ _ => true
  | .fmulF16x2 _ _ _ _ _ => true
  | .fminF16x2 _ _ _ _ _ => true
  | .fmaxF16x2 _ _ _ _ _ => true
  | .fabsF16x2 _ _ _ _ => true
  | .fnegF16x2 _ _ _ _ => true
  | .fdivF16x2 _ _ _ _ _ => true
  | .frcpF16x2 _ _ _ _ => true
  | .frsqF16x2 _ _ _ _ => true
  | .fsqrtF16x2 _ _ _ _ => true
  | .fexp2F16x2 _ _ _ _ => true
  | .flog2F16x2 _ _ _ _ => true
  | .fsinF16x2 _ _ _ _ => true
  | .fcosF16x2 _ _ _ _ => true
  | .ffloorF16x2 _ _ _ _ => true
  | .fceilF16x2 _ _ _ _ => true
  | .frndF16x2 _ _ _ _ => true
  | .ffracF16x2 _ _ _ _ => true
  | .fcmp _ _ _ _ _ _ => true
  | .cvt _ _ _ _ x y => decide (x ≠ y) && !(decide (4 ≤ x.toNat) && decide (4 ≤ y.toNat))
  | .dseedF32 _ _ _ _ _ => true
  | .dseedF64 _ _ _ _ _ => true
  | .dzero _ _ _ _ => true
  | .dzero64 _ _ _ _ => true
  | .dgetF32 _ _ _ _ _ => true
  | .dgetF64 _ _ _ _ _ => true
  | .dputF32 _ _ _ _ => true
  | .dputF64 _ _ _ _ => true
  | .deval _ _ _ _ _ _ => true
  | .pcmp _ _ _ _ g s _ => g == 1#1 || s == 0#3
  | .pset _ _ _ c => decide (c.toNat < 16) && (decide (8 ≤ c.toNat) || c == 0#6)
  | .pand _ _ _ _ => true
  | .por _ _ _ _ => true
  | .pnot _ _ _ => true
  | .pget _ _ _ _ => true
  | .pgetW _ _ _ _ => true
  | .pput _ _ _ _ => true
  | .pcoll _ _ _ => true
  | .pblend _ _ _ _ _ _ _ => true
  | .psel _ _ _ _ _ _ _ => true
  | .rkey _ _ _ => true
  | .rnextU32 _ _ _ => true
  | .rnextU64 _ _ _ => true
  | .rnextF32 _ _ _ => true
  | .ld _ _ _ _ w => decide (w.toNat < 7)
  | .st _ _ _ _ w => decide (w.toNat < 7) && decide (w ≠ 1#3) && decide (w ≠ 3#3)
  | .ldt _ _ _ _ u t => decide (t ≠ 3#2) && !(u == 1#1 && t == 2#2)
  | .stt _ _ _ _ _ _ => true
  | .ldd _ _ _ _ _ => true
  | .std _ _ _ _ _ => true
  | .lds _ _ _ _ w => decide (w.toNat < 7)
  | .sts _ _ _ _ w => decide (w.toNat < 7) && decide (w ≠ 1#3) && decide (w ≠ 3#3)
  | .bhdrRd _ _ _ => true
  | .bhdrWr _ _ _ => true
  | .pref _ _ _ => true
  | .tset _ _ _ => true
  | .tsetClr _ _ => true
  | .tstat _ _ _ _ => true
  | .atom _ _ _ _ o _ _ => decide (o ≠ 3#2)
  | .atomFadd _ _ _ _ o _ => decide (o ≠ 3#2)
  | .atoms _ _ _ _ o _ _ => decide (o ≠ 3#2)
  | .atomsFadd _ _ _ _ o _ => decide (o ≠ 3#2)
  | .acq _ _ _ => true
  | .rel _ _ _ => true
  | .fence _ => true
  | .bind _ _ _ _ => true
  | .bindClr _ _ _ => true
  | .mwait _ _ _ _ _ _ => true
  | .barArv _ _ _ _ _ => true
  | .barWt _ _ => true
  | .barSyn _ _ => true
  | .gbar _ => true
  | .mbput _ _ => true
  | .mbtake _ _ => true
  | .bra _ => true
  | .call _ => true
  | .brq _ _ _ => true
  | .nop _ => true
  | .brx _ => true
  | .callx _ => true
  | .ret => true
  | .callj _ _ _ => true
  | .regroup _ _ => true
  | .join _ _ => true
  | .leave _ _ => true
  | .waitm _ => true
  | .region _ _ _ => true
  | .exit => true
  | .xq _ => true
  | .xqn _ => true
  | .elect _ _ => true
  | .mmissue _ => true
  | .accsv _ _ _ => true
  | .accld _ _ _ => true
  | .electU _ _ _ => true
  | .trace _ _ _ => true
  | .tracep _ _ _ => true
  | .xpair _ => true
  | .tres _ _ _ => true
  | .tresAcc _ _ _ => true
  | .tresTerm _ _ _ => true
  | .reproj _ => true
  | .fetchw _ _ _ => true
  | .launch _ _ _ => true
  | .trap _ => true
  | .eret => true
  | .gets _ _ _ => true
  | .sets _ _ _ => true
  | .himm _ => true
  | .hsel _ _ => true
  | .hgrd _ _ => true
  | .hrnd _ => true
  | .hscp _ => true
  | .hcch _ => true
  | .hsch _ => true
  | .pickGroup _ _ => true
  | .loadDataArrival _ => true
  | .faultResolved _ _ => true
  | .faultUnresolvable _ _ _ => true
  | .windowAccessApply _ _ => true
  | .monitorWake _ _ => true
  | .mailboxWaitMet _ _ => true
  | .gangBarrierComplete _ _ _ => true
  | .joinerBatchClose _ => true
  | .joinerMovesComplete _ => true
  | .preemptRequest _ => true
  | .preemptTimeout _ => true
  | .crewResume _ => true
  | .saveAreaSupply _ _ => true
  | .trapHeld _ _ => true
  | .trapResume _ _ => true
  | .trapEnter _ _ _ => true
  | .trapEnd _ _ => true
  | .trapAbort _ _ => true
  | .copyTake _ => true
  | .copyComplete _ _ => true
  | .matrixMma _ => true
  | .matrixWload _ => true
  | .matrixFin _ => true
  | .matrixClr _ => true
  | .accEntryExecute _ => true
  | .matrixPassGrant _ => true
  | .multiplierMismatch _ => true
  | .rayEndOrSuspend _ => true
  | .rayFaultStop _ => true
  | .rayReenter _ => true
  | .xpairComplete _ => true
  | .reprojOperation _ => true
  | .fetchwWake _ _ => true
  | .doorbell _ _ _ => true
  | .regw _ _ => true
  | .regstRead _ => true
  | .bar0ReservedWrite _ _ _ => true
  | .queueDescriptorWrite _ _ => true
  | .packetTake _ => true
  | .distributeGang _ => true
  | .placeGang _ => true
  | .gridComplete _ => true
  | .graphStart _ => true
  | .graphNodeStart _ _ => true
  | .graphMatrixNode _ _ => true
  | .graphNodeComplete _ _ => true
  | .remotePayloadReceive _ _ _ _ => true
  | .peerRegistration _ _ => true
  | .peerWake _ _ _ => true
  | .transportFailure _ => true
  | .collectiveDoorbell _ _ => true
  | .collectiveSum _ => true
  | .collectiveMin _ => true
  | .collectiveMax _ => true
  | .collectiveMessage _ _ _ _ => true
  | .collectiveCommit _ => true
  | .collectiveTimeout _ _ => true
  | .checkpoint _ _ => true
  | .checkpointRestore _ _ => true
  | .coldStart _ _ => true
  | .warmStart _ _ _ => true
  | .startTimeout => true
  | .reset => true
  | .recover => true
  | .softErrorCorrected _ _ _ => true
  | .uncorrectableError _ => true
  | .attestationRequest _ _ => true
  | .powerThermalThrottle => true
  | .clockRestore => true
  | .thermalTrip => true
  | .unassignedWord _ => true
  | .hostDeviceMemoryAccess _ _ _ _ => true
  | .gridRemoval _ => true

/-- Bit 31: whether the word ends its run (R29, R30). -/
def Instr.last (i : Instr) : Bool :=
  match i with
  | .iadd b _ _ _ _ => b
  | .isub b _ _ _ _ => b
  | .imul b _ _ _ _ => b
  | .imulh b _ _ _ _ => b
  | .imulhU b _ _ _ _ => b
  | .ineg b _ _ _ => b
  | .iabs b _ _ _ => b
  | .imin b _ _ _ _ => b
  | .iminU b _ _ _ _ => b
  | .imax b _ _ _ _ => b
  | .imaxU b _ _ _ _ => b
  | .land b _ _ _ _ => b
  | .lor b _ _ _ _ => b
  | .lxor b _ _ _ _ => b
  | .lnot b _ _ _ => b
  | .shl b _ _ _ _ => b
  | .shr b _ _ _ _ => b
  | .sar b _ _ _ _ => b
  | .rot b _ _ _ _ => b
  | .popc b _ _ _ => b
  | .clz b _ _ _ => b
  | .ctz b _ _ _ => b
  | .brev b _ _ _ => b
  | .mov b _ _ _ => b
  | .iaddSat b _ _ _ _ => b
  | .isubSat b _ _ _ _ => b
  | .iaddUsat b _ _ _ _ => b
  | .isubUsat b _ _ _ _ => b
  | .iadd64 b _ _ _ _ => b
  | .isub64 b _ _ _ _ => b
  | .imul64 b _ _ _ _ => b
  | .imulh64 b _ _ _ _ => b
  | .imulhU64 b _ _ _ _ => b
  | .ineg64 b _ _ _ => b
  | .iabs64 b _ _ _ => b
  | .imin64 b _ _ _ _ => b
  | .iminU64 b _ _ _ _ => b
  | .imax64 b _ _ _ _ => b
  | .imaxU64 b _ _ _ _ => b
  | .land64 b _ _ _ _ => b
  | .lor64 b _ _ _ _ => b
  | .lxor64 b _ _ _ _ => b
  | .lnot64 b _ _ _ => b
  | .shl64 b _ _ _ _ => b
  | .shr64 b _ _ _ _ => b
  | .sar64 b _ _ _ _ => b
  | .rot64 b _ _ _ _ => b
  | .popc64 b _ _ _ => b
  | .clz64 b _ _ _ => b
  | .ctz64 b _ _ _ => b
  | .brev64 b _ _ _ => b
  | .mov64 b _ _ _ => b
  | .iaddSat64 b _ _ _ _ => b
  | .isubSat64 b _ _ _ _ => b
  | .iaddUsat64 b _ _ _ _ => b
  | .isubUsat64 b _ _ _ _ => b
  | .imad b _ _ _ _ _ => b
  | .imad64 b _ _ _ _ _ => b
  | .movi b _ _ _ => b
  | .lea b _ _ _ _ => b
  | .icmp b _ _ _ _ _ => b
  | .bfi b _ _ _ _ _ => b
  | .bfxU b _ _ _ _ => b
  | .bfxS b _ _ _ _ => b
  | .bffs b _ _ _ => b
  | .bffsIdx b _ _ _ => b
  | .bfpl b _ _ _ _ => b
  | .qxchX b _ _ _ => b
  | .qxchY b _ _ _ => b
  | .qxchXy b _ _ _ => b
  | .qxchBc b _ _ _ _ => b
  | .gshuf b _ _ _ _ => b
  | .gshufXor b _ _ _ _ => b
  | .qxchX64 b _ _ _ => b
  | .qxchY64 b _ _ _ => b
  | .qxchXy64 b _ _ _ => b
  | .qxchBc64 b _ _ _ _ => b
  | .gshuf64 b _ _ _ _ => b
  | .gshufXor64 b _ _ _ _ => b
  | .umov b _ _ => b
  | .uadd b _ _ _ => b
  | .usub b _ _ _ => b
  | .umul b _ _ _ => b
  | .uand b _ _ _ => b
  | .uor b _ _ _ => b
  | .uxor b _ _ _ => b
  | .ushl b _ _ _ => b
  | .ushr b _ _ _ => b
  | .usar b _ _ _ => b
  | .umin b _ _ _ => b
  | .umax b _ _ _ => b
  | .umovv b _ _ => b
  | .umovv64 b _ _ => b
  | .ffmaF32 b _ _ _ _ _ => b
  | .ffmaF64 b _ _ _ _ _ => b
  | .ffmaF16 b _ _ _ _ _ => b
  | .ffmaBf16 b _ _ _ _ _ => b
  | .ffmaF16x2 b _ _ _ _ _ => b
  | .faddF32 b _ _ _ _ => b
  | .fsubF32 b _ _ _ _ => b
  | .fmulF32 b _ _ _ _ => b
  | .fminF32 b _ _ _ _ => b
  | .fmaxF32 b _ _ _ _ => b
  | .fabsF32 b _ _ _ => b
  | .fnegF32 b _ _ _ => b
  | .fdivF32 b _ _ _ _ => b
  | .frcpF32 b _ _ _ => b
  | .frsqF32 b _ _ _ => b
  | .fsqrtF32 b _ _ _ => b
  | .fexp2F32 b _ _ _ => b
  | .flog2F32 b _ _ _ => b
  | .fsinF32 b _ _ _ => b
  | .fcosF32 b _ _ _ => b
  | .ffloorF32 b _ _ _ => b
  | .fceilF32 b _ _ _ => b
  | .frndF32 b _ _ _ => b
  | .ffracF32 b _ _ _ => b
  | .faddF64 b _ _ _ _ => b
  | .fsubF64 b _ _ _ _ => b
  | .fmulF64 b _ _ _ _ => b
  | .fminF64 b _ _ _ _ => b
  | .fmaxF64 b _ _ _ _ => b
  | .fabsF64 b _ _ _ => b
  | .fnegF64 b _ _ _ => b
  | .fdivF64 b _ _ _ _ => b
  | .frcpF64 b _ _ _ => b
  | .frsqF64 b _ _ _ => b
  | .fsqrtF64 b _ _ _ => b
  | .fexp2F64 b _ _ _ => b
  | .flog2F64 b _ _ _ => b
  | .fsinF64 b _ _ _ => b
  | .fcosF64 b _ _ _ => b
  | .ffloorF64 b _ _ _ => b
  | .fceilF64 b _ _ _ => b
  | .frndF64 b _ _ _ => b
  | .ffracF64 b _ _ _ => b
  | .faddF16 b _ _ _ _ => b
  | .fsubF16 b _ _ _ _ => b
  | .fmulF16 b _ _ _ _ => b
  | .fminF16 b _ _ _ _ => b
  | .fmaxF16 b _ _ _ _ => b
  | .fabsF16 b _ _ _ => b
  | .fnegF16 b _ _ _ => b
  | .fdivF16 b _ _ _ _ => b
  | .frcpF16 b _ _ _ => b
  | .frsqF16 b _ _ _ => b
  | .fsqrtF16 b _ _ _ => b
  | .fexp2F16 b _ _ _ => b
  | .flog2F16 b _ _ _ => b
  | .fsinF16 b _ _ _ => b
  | .fcosF16 b _ _ _ => b
  | .ffloorF16 b _ _ _ => b
  | .fceilF16 b _ _ _ => b
  | .frndF16 b _ _ _ => b
  | .ffracF16 b _ _ _ => b
  | .faddBf16 b _ _ _ _ => b
  | .fsubBf16 b _ _ _ _ => b
  | .fmulBf16 b _ _ _ _ => b
  | .fminBf16 b _ _ _ _ => b
  | .fmaxBf16 b _ _ _ _ => b
  | .fabsBf16 b _ _ _ => b
  | .fnegBf16 b _ _ _ => b
  | .fdivBf16 b _ _ _ _ => b
  | .frcpBf16 b _ _ _ => b
  | .frsqBf16 b _ _ _ => b
  | .fsqrtBf16 b _ _ _ => b
  | .fexp2Bf16 b _ _ _ => b
  | .flog2Bf16 b _ _ _ => b
  | .fsinBf16 b _ _ _ => b
  | .fcosBf16 b _ _ _ => b
  | .ffloorBf16 b _ _ _ => b
  | .fceilBf16 b _ _ _ => b
  | .frndBf16 b _ _ _ => b
  | .ffracBf16 b _ _ _ => b
  | .faddF16x2 b _ _ _ _ => b
  | .fsubF16x2 b _ _ _ _ => b
  | .fmulF16x2 b _ _ _ _ => b
  | .fminF16x2 b _ _ _ _ => b
  | .fmaxF16x2 b _ _ _ _ => b
  | .fabsF16x2 b _ _ _ => b
  | .fnegF16x2 b _ _ _ => b
  | .fdivF16x2 b _ _ _ _ => b
  | .frcpF16x2 b _ _ _ => b
  | .frsqF16x2 b _ _ _ => b
  | .fsqrtF16x2 b _ _ _ => b
  | .fexp2F16x2 b _ _ _ => b
  | .flog2F16x2 b _ _ _ => b
  | .fsinF16x2 b _ _ _ => b
  | .fcosF16x2 b _ _ _ => b
  | .ffloorF16x2 b _ _ _ => b
  | .fceilF16x2 b _ _ _ => b
  | .frndF16x2 b _ _ _ => b
  | .ffracF16x2 b _ _ _ => b
  | .fcmp b _ _ _ _ _ => b
  | .cvt b _ _ _ _ _ => b
  | .dseedF32 b _ _ _ _ => b
  | .dseedF64 b _ _ _ _ => b
  | .dzero b _ _ _ => b
  | .dzero64 b _ _ _ => b
  | .dgetF32 b _ _ _ _ => b
  | .dgetF64 b _ _ _ _ => b
  | .dputF32 b _ _ _ => b
  | .dputF64 b _ _ _ => b
  | .deval b _ _ _ _ _ => b
  | .pcmp b _ _ _ _ _ _ => b
  | .pset b _ _ _ => b
  | .pand b _ _ _ => b
  | .por b _ _ _ => b
  | .pnot b _ _ => b
  | .pget b _ _ _ => b
  | .pgetW b _ _ _ => b
  | .pput b _ _ _ => b
  | .pcoll b _ _ => b
  | .pblend b _ _ _ _ _ _ => b
  | .psel b _ _ _ _ _ _ => b
  | .rkey b _ _ => b
  | .rnextU32 b _ _ => b
  | .rnextU64 b _ _ => b
  | .rnextF32 b _ _ => b
  | .ld b _ _ _ _ => b
  | .st b _ _ _ _ => b
  | .ldt b _ _ _ _ _ => b
  | .stt b _ _ _ _ _ => b
  | .ldd b _ _ _ _ => b
  | .std b _ _ _ _ => b
  | .lds b _ _ _ _ => b
  | .sts b _ _ _ _ => b
  | .bhdrRd b _ _ => b
  | .bhdrWr b _ _ => b
  | .pref b _ _ => b
  | .tset b _ _ => b
  | .tsetClr b _ => b
  | .tstat b _ _ _ => b
  | .atom b _ _ _ _ _ _ => b
  | .atomFadd b _ _ _ _ _ => b
  | .atoms b _ _ _ _ _ _ => b
  | .atomsFadd b _ _ _ _ _ => b
  | .acq b _ _ => b
  | .rel b _ _ => b
  | .fence b => b
  | .bind b _ _ _ => b
  | .bindClr b _ _ => b
  | .mwait _ _ _ _ _ _ => true
  | .barArv b _ _ _ _ => b
  | .barWt _ _ => true
  | .barSyn _ _ => true
  | .gbar _ => true
  | .mbput _ _ => true
  | .mbtake _ _ => true
  | .bra _ => true
  | .call _ => true
  | .brq _ _ _ => true
  | .nop b => b
  | .brx _ => true
  | .callx _ => true
  | .ret => true
  | .callj _ _ _ => true
  | .regroup _ _ => true
  | .join b _ => b
  | .leave b _ => b
  | .waitm _ => true
  | .region b _ _ => b
  | .exit => true
  | .xq _ => true
  | .xqn _ => true
  | .elect b _ => b
  | .mmissue _ => true
  | .accsv _ _ _ => true
  | .accld _ _ _ => true
  | .electU b _ _ => b
  | .trace _ _ _ => true
  | .tracep _ _ _ => true
  | .xpair _ => true
  | .tres _ _ _ => true
  | .tresAcc _ _ _ => true
  | .tresTerm _ _ _ => true
  | .reproj _ => true
  | .fetchw _ _ _ => true
  | .launch _ _ _ => true
  | .trap _ => true
  | .eret => true
  | .gets b _ _ => b
  | .sets b _ _ => b
  | .himm _ => false
  | .hsel _ _ => false
  | .hgrd _ _ => false
  | .hrnd _ => false
  | .hscp _ => false
  | .hcch _ => false
  | .hsch _ => false
  | .pickGroup _ _ => false
  | .loadDataArrival _ => false
  | .faultResolved _ _ => false
  | .faultUnresolvable _ _ _ => false
  | .windowAccessApply _ _ => false
  | .monitorWake _ _ => false
  | .mailboxWaitMet _ _ => false
  | .gangBarrierComplete _ _ _ => false
  | .joinerBatchClose _ => false
  | .joinerMovesComplete _ => false
  | .preemptRequest _ => false
  | .preemptTimeout _ => false
  | .crewResume _ => false
  | .saveAreaSupply _ _ => false
  | .trapHeld _ _ => false
  | .trapResume _ _ => false
  | .trapEnter _ _ _ => false
  | .trapEnd _ _ => false
  | .trapAbort _ _ => false
  | .copyTake _ => false
  | .copyComplete _ _ => false
  | .matrixMma _ => false
  | .matrixWload _ => false
  | .matrixFin _ => false
  | .matrixClr _ => false
  | .accEntryExecute _ => false
  | .matrixPassGrant _ => false
  | .multiplierMismatch _ => false
  | .rayEndOrSuspend _ => false
  | .rayFaultStop _ => false
  | .rayReenter _ => false
  | .xpairComplete _ => false
  | .reprojOperation _ => false
  | .fetchwWake _ _ => false
  | .doorbell _ _ _ => false
  | .regw _ _ => false
  | .regstRead _ => false
  | .bar0ReservedWrite _ _ _ => false
  | .queueDescriptorWrite _ _ => false
  | .packetTake _ => false
  | .distributeGang _ => false
  | .placeGang _ => false
  | .gridComplete _ => false
  | .graphStart _ => false
  | .graphNodeStart _ _ => false
  | .graphMatrixNode _ _ => false
  | .graphNodeComplete _ _ => false
  | .remotePayloadReceive _ _ _ _ => false
  | .peerRegistration _ _ => false
  | .peerWake _ _ _ => false
  | .transportFailure _ => false
  | .collectiveDoorbell _ _ => false
  | .collectiveSum _ => false
  | .collectiveMin _ => false
  | .collectiveMax _ => false
  | .collectiveMessage _ _ _ _ => false
  | .collectiveCommit _ => false
  | .collectiveTimeout _ _ => false
  | .checkpoint _ _ => false
  | .checkpointRestore _ _ => false
  | .coldStart _ _ => false
  | .warmStart _ _ _ => false
  | .startTimeout => false
  | .reset => false
  | .recover => false
  | .softErrorCorrected _ _ _ => false
  | .uncorrectableError _ => false
  | .attestationRequest _ _ => false
  | .powerThermalThrottle => false
  | .clockRestore => false
  | .thermalTrip => false
  | .unassignedWord _ => false
  | .hostDeviceMemoryAccess _ _ _ _ => false
  | .gridRemoval _ => false

/-- Whether a row is an instruction word, not another step of the device. -/
def Instr.isWord (i : Instr) : Bool :=
  match i with
  | .iadd _ _ _ _ _ => true
  | .isub _ _ _ _ _ => true
  | .imul _ _ _ _ _ => true
  | .imulh _ _ _ _ _ => true
  | .imulhU _ _ _ _ _ => true
  | .ineg _ _ _ _ => true
  | .iabs _ _ _ _ => true
  | .imin _ _ _ _ _ => true
  | .iminU _ _ _ _ _ => true
  | .imax _ _ _ _ _ => true
  | .imaxU _ _ _ _ _ => true
  | .land _ _ _ _ _ => true
  | .lor _ _ _ _ _ => true
  | .lxor _ _ _ _ _ => true
  | .lnot _ _ _ _ => true
  | .shl _ _ _ _ _ => true
  | .shr _ _ _ _ _ => true
  | .sar _ _ _ _ _ => true
  | .rot _ _ _ _ _ => true
  | .popc _ _ _ _ => true
  | .clz _ _ _ _ => true
  | .ctz _ _ _ _ => true
  | .brev _ _ _ _ => true
  | .mov _ _ _ _ => true
  | .iaddSat _ _ _ _ _ => true
  | .isubSat _ _ _ _ _ => true
  | .iaddUsat _ _ _ _ _ => true
  | .isubUsat _ _ _ _ _ => true
  | .iadd64 _ _ _ _ _ => true
  | .isub64 _ _ _ _ _ => true
  | .imul64 _ _ _ _ _ => true
  | .imulh64 _ _ _ _ _ => true
  | .imulhU64 _ _ _ _ _ => true
  | .ineg64 _ _ _ _ => true
  | .iabs64 _ _ _ _ => true
  | .imin64 _ _ _ _ _ => true
  | .iminU64 _ _ _ _ _ => true
  | .imax64 _ _ _ _ _ => true
  | .imaxU64 _ _ _ _ _ => true
  | .land64 _ _ _ _ _ => true
  | .lor64 _ _ _ _ _ => true
  | .lxor64 _ _ _ _ _ => true
  | .lnot64 _ _ _ _ => true
  | .shl64 _ _ _ _ _ => true
  | .shr64 _ _ _ _ _ => true
  | .sar64 _ _ _ _ _ => true
  | .rot64 _ _ _ _ _ => true
  | .popc64 _ _ _ _ => true
  | .clz64 _ _ _ _ => true
  | .ctz64 _ _ _ _ => true
  | .brev64 _ _ _ _ => true
  | .mov64 _ _ _ _ => true
  | .iaddSat64 _ _ _ _ _ => true
  | .isubSat64 _ _ _ _ _ => true
  | .iaddUsat64 _ _ _ _ _ => true
  | .isubUsat64 _ _ _ _ _ => true
  | .imad _ _ _ _ _ _ => true
  | .imad64 _ _ _ _ _ _ => true
  | .movi _ _ _ _ => true
  | .lea _ _ _ _ _ => true
  | .icmp _ _ _ _ _ _ => true
  | .bfi _ _ _ _ _ _ => true
  | .bfxU _ _ _ _ _ => true
  | .bfxS _ _ _ _ _ => true
  | .bffs _ _ _ _ => true
  | .bffsIdx _ _ _ _ => true
  | .bfpl _ _ _ _ _ => true
  | .qxchX _ _ _ _ => true
  | .qxchY _ _ _ _ => true
  | .qxchXy _ _ _ _ => true
  | .qxchBc _ _ _ _ _ => true
  | .gshuf _ _ _ _ _ => true
  | .gshufXor _ _ _ _ _ => true
  | .qxchX64 _ _ _ _ => true
  | .qxchY64 _ _ _ _ => true
  | .qxchXy64 _ _ _ _ => true
  | .qxchBc64 _ _ _ _ _ => true
  | .gshuf64 _ _ _ _ _ => true
  | .gshufXor64 _ _ _ _ _ => true
  | .umov _ _ _ => true
  | .uadd _ _ _ _ => true
  | .usub _ _ _ _ => true
  | .umul _ _ _ _ => true
  | .uand _ _ _ _ => true
  | .uor _ _ _ _ => true
  | .uxor _ _ _ _ => true
  | .ushl _ _ _ _ => true
  | .ushr _ _ _ _ => true
  | .usar _ _ _ _ => true
  | .umin _ _ _ _ => true
  | .umax _ _ _ _ => true
  | .umovv _ _ _ => true
  | .umovv64 _ _ _ => true
  | .ffmaF32 _ _ _ _ _ _ => true
  | .ffmaF64 _ _ _ _ _ _ => true
  | .ffmaF16 _ _ _ _ _ _ => true
  | .ffmaBf16 _ _ _ _ _ _ => true
  | .ffmaF16x2 _ _ _ _ _ _ => true
  | .faddF32 _ _ _ _ _ => true
  | .fsubF32 _ _ _ _ _ => true
  | .fmulF32 _ _ _ _ _ => true
  | .fminF32 _ _ _ _ _ => true
  | .fmaxF32 _ _ _ _ _ => true
  | .fabsF32 _ _ _ _ => true
  | .fnegF32 _ _ _ _ => true
  | .fdivF32 _ _ _ _ _ => true
  | .frcpF32 _ _ _ _ => true
  | .frsqF32 _ _ _ _ => true
  | .fsqrtF32 _ _ _ _ => true
  | .fexp2F32 _ _ _ _ => true
  | .flog2F32 _ _ _ _ => true
  | .fsinF32 _ _ _ _ => true
  | .fcosF32 _ _ _ _ => true
  | .ffloorF32 _ _ _ _ => true
  | .fceilF32 _ _ _ _ => true
  | .frndF32 _ _ _ _ => true
  | .ffracF32 _ _ _ _ => true
  | .faddF64 _ _ _ _ _ => true
  | .fsubF64 _ _ _ _ _ => true
  | .fmulF64 _ _ _ _ _ => true
  | .fminF64 _ _ _ _ _ => true
  | .fmaxF64 _ _ _ _ _ => true
  | .fabsF64 _ _ _ _ => true
  | .fnegF64 _ _ _ _ => true
  | .fdivF64 _ _ _ _ _ => true
  | .frcpF64 _ _ _ _ => true
  | .frsqF64 _ _ _ _ => true
  | .fsqrtF64 _ _ _ _ => true
  | .fexp2F64 _ _ _ _ => true
  | .flog2F64 _ _ _ _ => true
  | .fsinF64 _ _ _ _ => true
  | .fcosF64 _ _ _ _ => true
  | .ffloorF64 _ _ _ _ => true
  | .fceilF64 _ _ _ _ => true
  | .frndF64 _ _ _ _ => true
  | .ffracF64 _ _ _ _ => true
  | .faddF16 _ _ _ _ _ => true
  | .fsubF16 _ _ _ _ _ => true
  | .fmulF16 _ _ _ _ _ => true
  | .fminF16 _ _ _ _ _ => true
  | .fmaxF16 _ _ _ _ _ => true
  | .fabsF16 _ _ _ _ => true
  | .fnegF16 _ _ _ _ => true
  | .fdivF16 _ _ _ _ _ => true
  | .frcpF16 _ _ _ _ => true
  | .frsqF16 _ _ _ _ => true
  | .fsqrtF16 _ _ _ _ => true
  | .fexp2F16 _ _ _ _ => true
  | .flog2F16 _ _ _ _ => true
  | .fsinF16 _ _ _ _ => true
  | .fcosF16 _ _ _ _ => true
  | .ffloorF16 _ _ _ _ => true
  | .fceilF16 _ _ _ _ => true
  | .frndF16 _ _ _ _ => true
  | .ffracF16 _ _ _ _ => true
  | .faddBf16 _ _ _ _ _ => true
  | .fsubBf16 _ _ _ _ _ => true
  | .fmulBf16 _ _ _ _ _ => true
  | .fminBf16 _ _ _ _ _ => true
  | .fmaxBf16 _ _ _ _ _ => true
  | .fabsBf16 _ _ _ _ => true
  | .fnegBf16 _ _ _ _ => true
  | .fdivBf16 _ _ _ _ _ => true
  | .frcpBf16 _ _ _ _ => true
  | .frsqBf16 _ _ _ _ => true
  | .fsqrtBf16 _ _ _ _ => true
  | .fexp2Bf16 _ _ _ _ => true
  | .flog2Bf16 _ _ _ _ => true
  | .fsinBf16 _ _ _ _ => true
  | .fcosBf16 _ _ _ _ => true
  | .ffloorBf16 _ _ _ _ => true
  | .fceilBf16 _ _ _ _ => true
  | .frndBf16 _ _ _ _ => true
  | .ffracBf16 _ _ _ _ => true
  | .faddF16x2 _ _ _ _ _ => true
  | .fsubF16x2 _ _ _ _ _ => true
  | .fmulF16x2 _ _ _ _ _ => true
  | .fminF16x2 _ _ _ _ _ => true
  | .fmaxF16x2 _ _ _ _ _ => true
  | .fabsF16x2 _ _ _ _ => true
  | .fnegF16x2 _ _ _ _ => true
  | .fdivF16x2 _ _ _ _ _ => true
  | .frcpF16x2 _ _ _ _ => true
  | .frsqF16x2 _ _ _ _ => true
  | .fsqrtF16x2 _ _ _ _ => true
  | .fexp2F16x2 _ _ _ _ => true
  | .flog2F16x2 _ _ _ _ => true
  | .fsinF16x2 _ _ _ _ => true
  | .fcosF16x2 _ _ _ _ => true
  | .ffloorF16x2 _ _ _ _ => true
  | .fceilF16x2 _ _ _ _ => true
  | .frndF16x2 _ _ _ _ => true
  | .ffracF16x2 _ _ _ _ => true
  | .fcmp _ _ _ _ _ _ => true
  | .cvt _ _ _ _ _ _ => true
  | .dseedF32 _ _ _ _ _ => true
  | .dseedF64 _ _ _ _ _ => true
  | .dzero _ _ _ _ => true
  | .dzero64 _ _ _ _ => true
  | .dgetF32 _ _ _ _ _ => true
  | .dgetF64 _ _ _ _ _ => true
  | .dputF32 _ _ _ _ => true
  | .dputF64 _ _ _ _ => true
  | .deval _ _ _ _ _ _ => true
  | .pcmp _ _ _ _ _ _ _ => true
  | .pset _ _ _ _ => true
  | .pand _ _ _ _ => true
  | .por _ _ _ _ => true
  | .pnot _ _ _ => true
  | .pget _ _ _ _ => true
  | .pgetW _ _ _ _ => true
  | .pput _ _ _ _ => true
  | .pcoll _ _ _ => true
  | .pblend _ _ _ _ _ _ _ => true
  | .psel _ _ _ _ _ _ _ => true
  | .rkey _ _ _ => true
  | .rnextU32 _ _ _ => true
  | .rnextU64 _ _ _ => true
  | .rnextF32 _ _ _ => true
  | .ld _ _ _ _ _ => true
  | .st _ _ _ _ _ => true
  | .ldt _ _ _ _ _ _ => true
  | .stt _ _ _ _ _ _ => true
  | .ldd _ _ _ _ _ => true
  | .std _ _ _ _ _ => true
  | .lds _ _ _ _ _ => true
  | .sts _ _ _ _ _ => true
  | .bhdrRd _ _ _ => true
  | .bhdrWr _ _ _ => true
  | .pref _ _ _ => true
  | .tset _ _ _ => true
  | .tsetClr _ _ => true
  | .tstat _ _ _ _ => true
  | .atom _ _ _ _ _ _ _ => true
  | .atomFadd _ _ _ _ _ _ => true
  | .atoms _ _ _ _ _ _ _ => true
  | .atomsFadd _ _ _ _ _ _ => true
  | .acq _ _ _ => true
  | .rel _ _ _ => true
  | .fence _ => true
  | .bind _ _ _ _ => true
  | .bindClr _ _ _ => true
  | .mwait _ _ _ _ _ _ => true
  | .barArv _ _ _ _ _ => true
  | .barWt _ _ => true
  | .barSyn _ _ => true
  | .gbar _ => true
  | .mbput _ _ => true
  | .mbtake _ _ => true
  | .bra _ => true
  | .call _ => true
  | .brq _ _ _ => true
  | .nop _ => true
  | .brx _ => true
  | .callx _ => true
  | .ret => true
  | .callj _ _ _ => true
  | .regroup _ _ => true
  | .join _ _ => true
  | .leave _ _ => true
  | .waitm _ => true
  | .region _ _ _ => true
  | .exit => true
  | .xq _ => true
  | .xqn _ => true
  | .elect _ _ => true
  | .mmissue _ => true
  | .accsv _ _ _ => true
  | .accld _ _ _ => true
  | .electU _ _ _ => true
  | .trace _ _ _ => true
  | .tracep _ _ _ => true
  | .xpair _ => true
  | .tres _ _ _ => true
  | .tresAcc _ _ _ => true
  | .tresTerm _ _ _ => true
  | .reproj _ => true
  | .fetchw _ _ _ => true
  | .launch _ _ _ => true
  | .trap _ => true
  | .eret => true
  | .gets _ _ _ => true
  | .sets _ _ _ => true
  | .himm _ => true
  | .hsel _ _ => true
  | .hgrd _ _ => true
  | .hrnd _ => true
  | .hscp _ => true
  | .hcch _ => true
  | .hsch _ => true
  | .pickGroup _ _ => false
  | .loadDataArrival _ => false
  | .faultResolved _ _ => false
  | .faultUnresolvable _ _ _ => false
  | .windowAccessApply _ _ => false
  | .monitorWake _ _ => false
  | .mailboxWaitMet _ _ => false
  | .gangBarrierComplete _ _ _ => false
  | .joinerBatchClose _ => false
  | .joinerMovesComplete _ => false
  | .preemptRequest _ => false
  | .preemptTimeout _ => false
  | .crewResume _ => false
  | .saveAreaSupply _ _ => false
  | .trapHeld _ _ => false
  | .trapResume _ _ => false
  | .trapEnter _ _ _ => false
  | .trapEnd _ _ => false
  | .trapAbort _ _ => false
  | .copyTake _ => false
  | .copyComplete _ _ => false
  | .matrixMma _ => false
  | .matrixWload _ => false
  | .matrixFin _ => false
  | .matrixClr _ => false
  | .accEntryExecute _ => false
  | .matrixPassGrant _ => false
  | .multiplierMismatch _ => false
  | .rayEndOrSuspend _ => false
  | .rayFaultStop _ => false
  | .rayReenter _ => false
  | .xpairComplete _ => false
  | .reprojOperation _ => false
  | .fetchwWake _ _ => false
  | .doorbell _ _ _ => false
  | .regw _ _ => false
  | .regstRead _ => false
  | .bar0ReservedWrite _ _ _ => false
  | .queueDescriptorWrite _ _ => false
  | .packetTake _ => false
  | .distributeGang _ => false
  | .placeGang _ => false
  | .gridComplete _ => false
  | .graphStart _ => false
  | .graphNodeStart _ _ => false
  | .graphMatrixNode _ _ => false
  | .graphNodeComplete _ _ => false
  | .remotePayloadReceive _ _ _ _ => false
  | .peerRegistration _ _ => false
  | .peerWake _ _ _ => false
  | .transportFailure _ => false
  | .collectiveDoorbell _ _ => false
  | .collectiveSum _ => false
  | .collectiveMin _ => false
  | .collectiveMax _ => false
  | .collectiveMessage _ _ _ _ => false
  | .collectiveCommit _ => false
  | .collectiveTimeout _ _ => false
  | .checkpoint _ _ => false
  | .checkpointRestore _ _ => false
  | .coldStart _ _ => false
  | .warmStart _ _ _ => false
  | .startTimeout => false
  | .reset => false
  | .recover => false
  | .softErrorCorrected _ _ _ => false
  | .uncorrectableError _ => false
  | .attestationRequest _ _ => false
  | .powerThermalThrottle => false
  | .clockRestore => false
  | .thermalTrip => false
  | .unassignedWord _ => false
  | .hostDeviceMemoryAccess _ _ _ _ => false
  | .gridRemoval _ => false

end Sys2Proof
end

