-- ==== Sys2Proof/WellFormed.lean ====
section
/-!
DEFINITION. Well-formed instructions: words whose fields keep the rules that hold whatever the crew declares
(R86-R89, R98).  An ill-formed word still decodes; executing it raises the trap that R99 names.
-/

namespace Sys2Proof

/-- Whether a field names something that exists: a source code (R86), a destination (R87), registers of a load or
store, or an index (R89, R123). -/
def Use.wf : Use → Bool
  | .src ty code => decide (code.toNat < 63) && (decide (56 ≤ code.toNat) || !ty.wide || code.toNat % 2 == 0)
  | .dst wide n d => if n then d == 0 else decide (d.toNat < 56) && (!wide || d.toNat % 2 == 0)
  | .block _ align d => decide (d.toNat < 56) && d.toNat % align == 0
  | .idx limit code => decide (code.toNat < limit)
  | .uni code => decide (code.toNat < 32)
  | .usrc code => decide (code.toNat < 32) || code == 60 || code == 61
  | .bar code => decide (code.toNat < 64)
  | .tan code => decide (code.toNat < 8)
  | .deltas code => decide (code.toNat < 32)
  | .live code => decide (code.toNat < 15)
  | .quartets _ => true
  | .first => true
  | .bad x => !x

/-- An instruction that may stand in a program. -/
def Instr.wf (i : Instr) : Bool := i.isWord && i.legal && i.uses.all Use.wf

end Sys2Proof
end

