-- ==== Sys2Proof/Decode.lean ====
section
/-!
DEFINITION. Decoding (R82-R98): a word of memory to the instruction that the opcode map assigns it, or
none; and after it the encoder.  Both pass through the fields of format F3, which every format shares
(R83-R85).
-/

namespace Sys2Proof

/-- The fields of a word in the layout of format F3 (R83). -/
structure Fields where
  b : Bool
  op : BitVec 6
  n : Bool
  d : BitVec 6
  s1 : BitVec 6
  s2 : BitVec 6
  s3 : BitVec 6
  deriving DecidableEq, Repr

/-- A word's fields (R83). -/
def Fields.unpack (w : Word) : Fields where
  b := w.getLsbD 31
  op := w.extractLsb' 25 6
  n := w.getLsbD 24
  d := w.extractLsb' 18 6
  s1 := w.extractLsb' 12 6
  s2 := w.extractLsb' 6 6
  s3 := w.extractLsb' 0 6

/-- The word of given fields (R83). -/
def Fields.pack (f : Fields) : Word :=
  BitVec.ofBool f.b ++ f.op ++ BitVec.ofBool f.n ++ f.d ++ f.s1 ++ f.s2 ++ f.s3

/-- An instruction whose reserved fields must hold their values (R98). -/
def need (ok : Bool) (i : Instr) : Option Instr := if ok then some i else none

/-- Major opcode 0x01. -/
noncomputable def decode01 (f : Fields) : Option Instr :=
  match f.s3.toNat with
  | 0x00 => some (.iadd f.b f.n f.d f.s1 f.s2)
  | 0x01 => some (.isub f.b f.n f.d f.s1 f.s2)
  | 0x02 => some (.imul f.b f.n f.d f.s1 f.s2)
  | 0x03 => some (.imulh f.b f.n f.d f.s1 f.s2)
  | 0x04 => some (.imulhU f.b f.n f.d f.s1 f.s2)
  | 0x05 => need (f.s2 == 0#6) (.ineg f.b f.n f.d f.s1)
  | 0x06 => need (f.s2 == 0#6) (.iabs f.b f.n f.d f.s1)
  | 0x07 => some (.imin f.b f.n f.d f.s1 f.s2)
  | 0x08 => some (.iminU f.b f.n f.d f.s1 f.s2)
  | 0x09 => some (.imax f.b f.n f.d f.s1 f.s2)
  | 0x0A => some (.imaxU f.b f.n f.d f.s1 f.s2)
  | 0x0B => some (.land f.b f.n f.d f.s1 f.s2)
  | 0x0C => some (.lor f.b f.n f.d f.s1 f.s2)
  | 0x0D => some (.lxor f.b f.n f.d f.s1 f.s2)
  | 0x0E => need (f.s2 == 0#6) (.lnot f.b f.n f.d f.s1)
  | 0x0F => some (.shl f.b f.n f.d f.s1 f.s2)
  | 0x10 => some (.shr f.b f.n f.d f.s1 f.s2)
  | 0x11 => some (.sar f.b f.n f.d f.s1 f.s2)
  | 0x12 => some (.rot f.b f.n f.d f.s1 f.s2)
  | 0x13 => need (f.s2 == 0#6) (.popc f.b f.n f.d f.s1)
  | 0x14 => need (f.s2 == 0#6) (.clz f.b f.n f.d f.s1)
  | 0x15 => need (f.s2 == 0#6) (.ctz f.b f.n f.d f.s1)
  | 0x16 => need (f.s2 == 0#6) (.brev f.b f.n f.d f.s1)
  | 0x17 => need (f.s2 == 0#6) (.mov f.b f.n f.d f.s1)
  | 0x18 => some (.iaddSat f.b f.n f.d f.s1 f.s2)
  | 0x19 => some (.isubSat f.b f.n f.d f.s1 f.s2)
  | 0x1A => some (.iaddUsat f.b f.n f.d f.s1 f.s2)
  | 0x1B => some (.isubUsat f.b f.n f.d f.s1 f.s2)
  | _ => none

/-- Major opcode 0x02. -/
noncomputable def decode02 (f : Fields) : Option Instr :=
  match f.s3.toNat with
  | 0x00 => some (.iadd64 f.b f.n f.d f.s1 f.s2)
  | 0x01 => some (.isub64 f.b f.n f.d f.s1 f.s2)
  | 0x02 => some (.imul64 f.b f.n f.d f.s1 f.s2)
  | 0x03 => some (.imulh64 f.b f.n f.d f.s1 f.s2)
  | 0x04 => some (.imulhU64 f.b f.n f.d f.s1 f.s2)
  | 0x05 => need (f.s2 == 0#6) (.ineg64 f.b f.n f.d f.s1)
  | 0x06 => need (f.s2 == 0#6) (.iabs64 f.b f.n f.d f.s1)
  | 0x07 => some (.imin64 f.b f.n f.d f.s1 f.s2)
  | 0x08 => some (.iminU64 f.b f.n f.d f.s1 f.s2)
  | 0x09 => some (.imax64 f.b f.n f.d f.s1 f.s2)
  | 0x0A => some (.imaxU64 f.b f.n f.d f.s1 f.s2)
  | 0x0B => some (.land64 f.b f.n f.d f.s1 f.s2)
  | 0x0C => some (.lor64 f.b f.n f.d f.s1 f.s2)
  | 0x0D => some (.lxor64 f.b f.n f.d f.s1 f.s2)
  | 0x0E => need (f.s2 == 0#6) (.lnot64 f.b f.n f.d f.s1)
  | 0x0F => some (.shl64 f.b f.n f.d f.s1 f.s2)
  | 0x10 => some (.shr64 f.b f.n f.d f.s1 f.s2)
  | 0x11 => some (.sar64 f.b f.n f.d f.s1 f.s2)
  | 0x12 => some (.rot64 f.b f.n f.d f.s1 f.s2)
  | 0x13 => need (f.s2 == 0#6) (.popc64 f.b f.n f.d f.s1)
  | 0x14 => need (f.s2 == 0#6) (.clz64 f.b f.n f.d f.s1)
  | 0x15 => need (f.s2 == 0#6) (.ctz64 f.b f.n f.d f.s1)
  | 0x16 => need (f.s2 == 0#6) (.brev64 f.b f.n f.d f.s1)
  | 0x17 => need (f.s2 == 0#6) (.mov64 f.b f.n f.d f.s1)
  | 0x18 => some (.iaddSat64 f.b f.n f.d f.s1 f.s2)
  | 0x19 => some (.isubSat64 f.b f.n f.d f.s1 f.s2)
  | 0x1A => some (.iaddUsat64 f.b f.n f.d f.s1 f.s2)
  | 0x1B => some (.isubUsat64 f.b f.n f.d f.s1 f.s2)
  | _ => none

/-- Major opcode 0x09. -/
noncomputable def decode09 (f : Fields) : Option Instr :=
  match f.s3.toNat with
  | 0x00 => some (.bfxU f.b f.n f.d f.s1 f.s2)
  | 0x01 => some (.bfxS f.b f.n f.d f.s1 f.s2)
  | 0x02 => need (f.s2 == 0#6) (.bffs f.b f.n f.d f.s1)
  | 0x03 => need (f.s2 == 0#6) (.bffsIdx f.b f.n f.d f.s1)
  | 0x04 => some (.bfpl f.b f.n f.d f.s1 f.s2)
  | _ => none

/-- Major opcode 0x0A. -/
noncomputable def decode0A (f : Fields) : Option Instr :=
  match f.s3.toNat with
  | 0x00 => need (f.s2 == 0#6) (.qxchX f.b f.n f.d f.s1)
  | 0x01 => need (f.s2 == 0#6) (.qxchY f.b f.n f.d f.s1)
  | 0x02 => need (f.s2 == 0#6) (.qxchXy f.b f.n f.d f.s1)
  | 0x03 => some (.qxchBc f.b f.n f.d f.s1 f.s2)
  | 0x08 => some (.gshuf f.b f.n f.d f.s1 f.s2)
  | 0x09 => some (.gshufXor f.b f.n f.d f.s1 f.s2)
  | 0x10 => need (f.s2 == 0#6) (.qxchX64 f.b f.n f.d f.s1)
  | 0x11 => need (f.s2 == 0#6) (.qxchY64 f.b f.n f.d f.s1)
  | 0x12 => need (f.s2 == 0#6) (.qxchXy64 f.b f.n f.d f.s1)
  | 0x13 => some (.qxchBc64 f.b f.n f.d f.s1 f.s2)
  | 0x18 => some (.gshuf64 f.b f.n f.d f.s1 f.s2)
  | 0x19 => some (.gshufXor64 f.b f.n f.d f.s1 f.s2)
  | _ => none

/-- Major opcode 0x15. -/
noncomputable def decode15 (f : Fields) : Option Instr :=
  match f.s3.toNat with
  | 0x00 => some (.faddF32 f.b f.n f.d f.s1 f.s2)
  | 0x01 => some (.fsubF32 f.b f.n f.d f.s1 f.s2)
  | 0x02 => some (.fmulF32 f.b f.n f.d f.s1 f.s2)
  | 0x03 => some (.fminF32 f.b f.n f.d f.s1 f.s2)
  | 0x04 => some (.fmaxF32 f.b f.n f.d f.s1 f.s2)
  | 0x05 => need (f.s2 == 0#6) (.fabsF32 f.b f.n f.d f.s1)
  | 0x06 => need (f.s2 == 0#6) (.fnegF32 f.b f.n f.d f.s1)
  | 0x07 => some (.fdivF32 f.b f.n f.d f.s1 f.s2)
  | 0x08 => need (f.s2 == 0#6) (.frcpF32 f.b f.n f.d f.s1)
  | 0x09 => need (f.s2 == 0#6) (.frsqF32 f.b f.n f.d f.s1)
  | 0x0A => need (f.s2 == 0#6) (.fsqrtF32 f.b f.n f.d f.s1)
  | 0x0B => need (f.s2 == 0#6) (.fexp2F32 f.b f.n f.d f.s1)
  | 0x0C => need (f.s2 == 0#6) (.flog2F32 f.b f.n f.d f.s1)
  | 0x0D => need (f.s2 == 0#6) (.fsinF32 f.b f.n f.d f.s1)
  | 0x0E => need (f.s2 == 0#6) (.fcosF32 f.b f.n f.d f.s1)
  | 0x0F => need (f.s2 == 0#6) (.ffloorF32 f.b f.n f.d f.s1)
  | 0x10 => need (f.s2 == 0#6) (.fceilF32 f.b f.n f.d f.s1)
  | 0x11 => need (f.s2 == 0#6) (.frndF32 f.b f.n f.d f.s1)
  | 0x12 => need (f.s2 == 0#6) (.ffracF32 f.b f.n f.d f.s1)
  | _ => none

/-- Major opcode 0x16. -/
noncomputable def decode16 (f : Fields) : Option Instr :=
  match f.s3.toNat with
  | 0x00 => some (.faddF64 f.b f.n f.d f.s1 f.s2)
  | 0x01 => some (.fsubF64 f.b f.n f.d f.s1 f.s2)
  | 0x02 => some (.fmulF64 f.b f.n f.d f.s1 f.s2)
  | 0x03 => some (.fminF64 f.b f.n f.d f.s1 f.s2)
  | 0x04 => some (.fmaxF64 f.b f.n f.d f.s1 f.s2)
  | 0x05 => need (f.s2 == 0#6) (.fabsF64 f.b f.n f.d f.s1)
  | 0x06 => need (f.s2 == 0#6) (.fnegF64 f.b f.n f.d f.s1)
  | 0x07 => some (.fdivF64 f.b f.n f.d f.s1 f.s2)
  | 0x08 => need (f.s2 == 0#6) (.frcpF64 f.b f.n f.d f.s1)
  | 0x09 => need (f.s2 == 0#6) (.frsqF64 f.b f.n f.d f.s1)
  | 0x0A => need (f.s2 == 0#6) (.fsqrtF64 f.b f.n f.d f.s1)
  | 0x0B => need (f.s2 == 0#6) (.fexp2F64 f.b f.n f.d f.s1)
  | 0x0C => need (f.s2 == 0#6) (.flog2F64 f.b f.n f.d f.s1)
  | 0x0D => need (f.s2 == 0#6) (.fsinF64 f.b f.n f.d f.s1)
  | 0x0E => need (f.s2 == 0#6) (.fcosF64 f.b f.n f.d f.s1)
  | 0x0F => need (f.s2 == 0#6) (.ffloorF64 f.b f.n f.d f.s1)
  | 0x10 => need (f.s2 == 0#6) (.fceilF64 f.b f.n f.d f.s1)
  | 0x11 => need (f.s2 == 0#6) (.frndF64 f.b f.n f.d f.s1)
  | 0x12 => need (f.s2 == 0#6) (.ffracF64 f.b f.n f.d f.s1)
  | _ => none

/-- Major opcode 0x17. -/
noncomputable def decode17 (f : Fields) : Option Instr :=
  match f.s3.toNat with
  | 0x00 => some (.faddF16 f.b f.n f.d f.s1 f.s2)
  | 0x01 => some (.fsubF16 f.b f.n f.d f.s1 f.s2)
  | 0x02 => some (.fmulF16 f.b f.n f.d f.s1 f.s2)
  | 0x03 => some (.fminF16 f.b f.n f.d f.s1 f.s2)
  | 0x04 => some (.fmaxF16 f.b f.n f.d f.s1 f.s2)
  | 0x05 => need (f.s2 == 0#6) (.fabsF16 f.b f.n f.d f.s1)
  | 0x06 => need (f.s2 == 0#6) (.fnegF16 f.b f.n f.d f.s1)
  | 0x07 => some (.fdivF16 f.b f.n f.d f.s1 f.s2)
  | 0x08 => need (f.s2 == 0#6) (.frcpF16 f.b f.n f.d f.s1)
  | 0x09 => need (f.s2 == 0#6) (.frsqF16 f.b f.n f.d f.s1)
  | 0x0A => need (f.s2 == 0#6) (.fsqrtF16 f.b f.n f.d f.s1)
  | 0x0B => need (f.s2 == 0#6) (.fexp2F16 f.b f.n f.d f.s1)
  | 0x0C => need (f.s2 == 0#6) (.flog2F16 f.b f.n f.d f.s1)
  | 0x0D => need (f.s2 == 0#6) (.fsinF16 f.b f.n f.d f.s1)
  | 0x0E => need (f.s2 == 0#6) (.fcosF16 f.b f.n f.d f.s1)
  | 0x0F => need (f.s2 == 0#6) (.ffloorF16 f.b f.n f.d f.s1)
  | 0x10 => need (f.s2 == 0#6) (.fceilF16 f.b f.n f.d f.s1)
  | 0x11 => need (f.s2 == 0#6) (.frndF16 f.b f.n f.d f.s1)
  | 0x12 => need (f.s2 == 0#6) (.ffracF16 f.b f.n f.d f.s1)
  | _ => none

/-- Major opcode 0x18. -/
noncomputable def decode18 (f : Fields) : Option Instr :=
  match f.s3.toNat with
  | 0x00 => some (.faddBf16 f.b f.n f.d f.s1 f.s2)
  | 0x01 => some (.fsubBf16 f.b f.n f.d f.s1 f.s2)
  | 0x02 => some (.fmulBf16 f.b f.n f.d f.s1 f.s2)
  | 0x03 => some (.fminBf16 f.b f.n f.d f.s1 f.s2)
  | 0x04 => some (.fmaxBf16 f.b f.n f.d f.s1 f.s2)
  | 0x05 => need (f.s2 == 0#6) (.fabsBf16 f.b f.n f.d f.s1)
  | 0x06 => need (f.s2 == 0#6) (.fnegBf16 f.b f.n f.d f.s1)
  | 0x07 => some (.fdivBf16 f.b f.n f.d f.s1 f.s2)
  | 0x08 => need (f.s2 == 0#6) (.frcpBf16 f.b f.n f.d f.s1)
  | 0x09 => need (f.s2 == 0#6) (.frsqBf16 f.b f.n f.d f.s1)
  | 0x0A => need (f.s2 == 0#6) (.fsqrtBf16 f.b f.n f.d f.s1)
  | 0x0B => need (f.s2 == 0#6) (.fexp2Bf16 f.b f.n f.d f.s1)
  | 0x0C => need (f.s2 == 0#6) (.flog2Bf16 f.b f.n f.d f.s1)
  | 0x0D => need (f.s2 == 0#6) (.fsinBf16 f.b f.n f.d f.s1)
  | 0x0E => need (f.s2 == 0#6) (.fcosBf16 f.b f.n f.d f.s1)
  | 0x0F => need (f.s2 == 0#6) (.ffloorBf16 f.b f.n f.d f.s1)
  | 0x10 => need (f.s2 == 0#6) (.fceilBf16 f.b f.n f.d f.s1)
  | 0x11 => need (f.s2 == 0#6) (.frndBf16 f.b f.n f.d f.s1)
  | 0x12 => need (f.s2 == 0#6) (.ffracBf16 f.b f.n f.d f.s1)
  | _ => none

/-- Major opcode 0x19. -/
noncomputable def decode19 (f : Fields) : Option Instr :=
  match f.s3.toNat with
  | 0x00 => some (.faddF16x2 f.b f.n f.d f.s1 f.s2)
  | 0x01 => some (.fsubF16x2 f.b f.n f.d f.s1 f.s2)
  | 0x02 => some (.fmulF16x2 f.b f.n f.d f.s1 f.s2)
  | 0x03 => some (.fminF16x2 f.b f.n f.d f.s1 f.s2)
  | 0x04 => some (.fmaxF16x2 f.b f.n f.d f.s1 f.s2)
  | 0x05 => need (f.s2 == 0#6) (.fabsF16x2 f.b f.n f.d f.s1)
  | 0x06 => need (f.s2 == 0#6) (.fnegF16x2 f.b f.n f.d f.s1)
  | 0x07 => some (.fdivF16x2 f.b f.n f.d f.s1 f.s2)
  | 0x08 => need (f.s2 == 0#6) (.frcpF16x2 f.b f.n f.d f.s1)
  | 0x09 => need (f.s2 == 0#6) (.frsqF16x2 f.b f.n f.d f.s1)
  | 0x0A => need (f.s2 == 0#6) (.fsqrtF16x2 f.b f.n f.d f.s1)
  | 0x0B => need (f.s2 == 0#6) (.fexp2F16x2 f.b f.n f.d f.s1)
  | 0x0C => need (f.s2 == 0#6) (.flog2F16x2 f.b f.n f.d f.s1)
  | 0x0D => need (f.s2 == 0#6) (.fsinF16x2 f.b f.n f.d f.s1)
  | 0x0E => need (f.s2 == 0#6) (.fcosF16x2 f.b f.n f.d f.s1)
  | 0x0F => need (f.s2 == 0#6) (.ffloorF16x2 f.b f.n f.d f.s1)
  | 0x10 => need (f.s2 == 0#6) (.fceilF16x2 f.b f.n f.d f.s1)
  | 0x11 => need (f.s2 == 0#6) (.frndF16x2 f.b f.n f.d f.s1)
  | 0x12 => need (f.s2 == 0#6) (.ffracF16x2 f.b f.n f.d f.s1)
  | _ => none

/-- Major opcode 0x20. -/
noncomputable def decode20 (f : Fields) : Option Instr :=
  match f.s3.toNat with
  | 0x00 => some (.dseedF32 f.b f.n f.d f.s1 f.s2)
  | 0x01 => some (.dseedF64 f.b f.n f.d f.s1 f.s2)
  | 0x02 => need (f.s2 == 0#6) (.dzero f.b f.n f.d f.s1)
  | 0x03 => need (f.s2 == 0#6) (.dzero64 f.b f.n f.d f.s1)
  | 0x04 => some (.dgetF32 f.b f.n f.d f.s1 f.s2)
  | 0x05 => some (.dgetF64 f.b f.n f.d f.s1 f.s2)
  | 0x06 => need (!f.n) (.dputF32 f.b f.d f.s1 f.s2)
  | 0x07 => need (!f.n) (.dputF64 f.b f.d f.s1 f.s2)
  | _ => none

/-- Major opcode 0x25. -/
noncomputable def decode25 (f : Fields) : Option Instr :=
  match f.s3.toNat with
  | 0x00 => need (!f.n) (.pset f.b f.d f.s1 f.s2)
  | 0x01 => need (!f.n) (.pand f.b f.d f.s1 f.s2)
  | 0x02 => need (!f.n) (.por f.b f.d f.s1 f.s2)
  | 0x03 => need (!f.n && f.s2 == 0#6) (.pnot f.b f.d f.s1)
  | 0x04 => need (f.s2 == 0#6) (.pget f.b f.n f.d f.s1)
  | 0x05 => need (f.s2 == 0#6) (.pgetW f.b f.n f.d f.s1)
  | 0x06 => need (!f.n) (.pput f.b f.d f.s1 f.s2)
  | 0x07 => need (!f.n && f.s2 == 0#6) (.pcoll f.b f.d f.s1)
  | _ => none

/-- Major opcode 0x27. -/
noncomputable def decode27 (f : Fields) : Option Instr :=
  need (f.s1 == 0#6 && f.s2 == 0#6 && f.s3 == 33#6) (.rnextU32 f.b f.n f.d)
  <|> need (f.s1 == 0#6 && f.s2 == 0#6 && f.s3 == 34#6) (.rnextU64 f.b f.n f.d)
  <|> need (f.s1 == 0#6 && f.s2 == 0#6 && f.s3 == 35#6) (.rnextF32 f.b f.n f.d)
  <|> need (!f.n && f.d == 0#6 && f.s3 == 32#6) (.rkey f.b f.s1 f.s2)
  <|> need (f.s3.extractLsb' 5 1 == 0#1 && f.s3.extractLsb' 3 1 == 0#1)
      (.psel f.b f.n f.d f.s1 f.s2 (f.s3.extractLsb' 4 1) (f.s3.extractLsb' 0 3))

/-- Major opcode 0x2A. -/
noncomputable def decode2A (f : Fields) : Option Instr :=
  need (!f.n && f.s3.extractLsb' 5 1 == 1#1 && f.s3.extractLsb' 3 1 == 0#1 && f.s3.extractLsb' 0 2 == 0#2)
      (.stt f.b f.d f.s1 f.s2 (f.s3.extractLsb' 4 1) (f.s3.extractLsb' 2 1))
  <|> need (!f.n && f.s3.extractLsb' 5 1 == 0#1 && f.s3.extractLsb' 0 2 == 0#2)
      (.ldt f.b f.d f.s1 f.s2 (f.s3.extractLsb' 4 1) (f.s3.extractLsb' 2 2))

/-- Major opcode 0x2B. -/
noncomputable def decode2B (f : Fields) : Option Instr :=
  need (!f.n && f.s3.extractLsb' 1 5 == 0#5) (.ldd f.b f.d f.s1 f.s2 (f.s3.extractLsb' 0 1))
  <|> need (!f.n && f.s3.extractLsb' 1 5 == 16#5) (.std f.b f.d f.s1 f.s2 (f.s3.extractLsb' 0 1))

/-- Major opcode 0x2E. -/
noncomputable def decode2E (f : Fields) : Option Instr :=
  match f.s3.toNat with
  | 0x00 => need (!f.n && f.s2 == 0#6) (.bhdrRd f.b f.d f.s1)
  | 0x01 => need (!f.n && f.s2 == 0#6) (.bhdrWr f.b f.d f.s1)
  | 0x02 => need (!f.n && f.d == 0#6) (.pref f.b f.s1 f.s2)
  | _ => none

/-- Major opcode 0x2F. -/
noncomputable def decode2F (f : Fields) : Option Instr :=
  match f.s3.toNat with
  | 0x00 => need (!f.n && f.d == 0#6) (.tset f.b f.s1 f.s2)
  | 0x01 => need (!f.n && f.d == 0#6 && f.s2 == 0#6) (.tsetClr f.b f.s1)
  | 0x02 => need (f.s2 == 0#6) (.tstat f.b f.n f.d f.s1)
  | _ => none

/-- Major opcode 0x30. -/
noncomputable def decode30 (f : Fields) : Option Instr :=
  if f.s3.extractLsb' 4 2 == 3#2 then
    need (!f.n && f.s3.extractLsb' 3 3 == 6#3)
      (.atomFadd f.b f.d f.s1 f.s2 (f.s3.extractLsb' 1 2) (f.s3.extractLsb' 0 1))
  else need (!f.n) (.atom f.b f.d f.s1 f.s2 (f.s3.extractLsb' 4 2) (f.s3.extractLsb' 1 3) (f.s3.extractLsb' 0 1))

/-- Major opcode 0x31. -/
noncomputable def decode31 (f : Fields) : Option Instr :=
  if f.s3.extractLsb' 4 2 == 3#2 then
    need (!f.n && f.s3.extractLsb' 3 3 == 6#3)
      (.atomsFadd f.b f.d f.s1 f.s2 (f.s3.extractLsb' 1 2) (f.s3.extractLsb' 0 1))
  else need (!f.n) (.atoms f.b f.d f.s1 f.s2 (f.s3.extractLsb' 4 2) (f.s3.extractLsb' 1 3) (f.s3.extractLsb' 0 1))

/-- Major opcode 0x32. -/
noncomputable def decode32 (f : Fields) : Option Instr :=
  match f.s3.toNat with
  | 0x00 => need (!f.n && f.s2 == 0#6) (.acq f.b f.d f.s1)
  | 0x01 => need (!f.n && f.d == 0#6) (.rel f.b f.s1 f.s2)
  | 0x02 => need (!f.n && f.d == 0#6 && f.s1 == 0#6 && f.s2 == 0#6) (.fence f.b)
  | 0x03 => need (!f.n) (.bind f.b f.d f.s1 f.s2)
  | 0x04 => need (!f.n && f.s2 == 0#6) (.bindClr f.b f.d f.s1)
  | _ => none

/-- Major opcode 0x34. -/
noncomputable def decode34 (f : Fields) : Option Instr :=
  match f.s3.toNat with
  | 0x00 => some (.barArv f.b f.n f.d f.s1 f.s2)
  | 0x01 => need (f.b && !f.n && f.d == 0#6) (.barWt f.s1 f.s2)
  | 0x02 => need (f.b && !f.n && f.d == 0#6) (.barSyn f.s1 f.s2)
  | 0x03 => need (f.b && !f.n && f.d == 0#6 && f.s1 == 0#6) (.gbar f.s2)
  | _ => none

/-- Major opcode 0x35. -/
noncomputable def decode35 (f : Fields) : Option Instr :=
  match f.s3.toNat with
  | 0x00 => need (f.b && !f.n && f.s2 == 0#6) (.mbput f.d f.s1)
  | 0x01 => need (f.b && !f.n && f.s2 == 0#6) (.mbtake f.d f.s1)
  | _ => none

/-- Major opcode 0x39. -/
noncomputable def decode39 (f : Fields) : Option Instr :=
  match f.s3.toNat with
  | 0x00 => need (!f.n && f.d == 0#6 && f.s1 == 0#6 && f.s2 == 0#6) (.nop f.b)
  | 0x01 => need (f.b && !f.n && f.d == 0#6 && f.s2 == 0#6) (.brx f.s1)
  | 0x02 => need (f.b && !f.n && f.d == 0#6 && f.s2 == 0#6) (.callx f.s1)
  | 0x03 => need (f.b && !f.n && f.d == 0#6 && f.s1 == 0#6 && f.s2 == 0#6) (.ret)
  | 0x04 => need (f.b && !f.n) (.callj f.d f.s1 f.s2)
  | 0x05 => need (f.b && !f.n && f.s2 == 0#6) (.regroup f.d f.s1)
  | 0x06 => need (!f.n && f.s1 == 0#6 && f.s2 == 0#6) (.join f.b f.d)
  | 0x07 => need (!f.n && f.s1 == 0#6 && f.s2 == 0#6) (.leave f.b f.d)
  | 0x08 => need (f.b && !f.n && f.s1 == 0#6 && f.s2 == 0#6) (.waitm f.d)
  | 0x09 => need (!f.n) (.region f.b (f.d ++ f.s1 ++ f.s2.extractLsb' 4 2) (f.s2.extractLsb' 0 4))
  | 0x0A => need (f.b && !f.n && f.d == 0#6 && f.s1 == 0#6 && f.s2 == 0#6) (.exit)
  | _ => none

/-- Major opcode 0x3A. -/
noncomputable def decode3A (f : Fields) : Option Instr :=
  match f.s3.toNat with
  | 0x00 => need (f.b && !f.n && f.d == 0#6 && f.s2 == 0#6) (.xq f.s1)
  | 0x01 => need (f.b && !f.n && f.d == 0#6 && f.s2 == 0#6) (.xqn f.s1)
  | _ => none

/-- Major opcode 0x3B. -/
noncomputable def decode3B (f : Fields) : Option Instr :=
  match f.s3.toNat with
  | 0x00 => need (!f.n && f.s1 == 0#6 && f.s2 == 0#6) (.elect f.b f.d)
  | 0x01 => need (f.b && !f.n && f.d == 0#6 && f.s2 == 0#6) (.mmissue f.s1)
  | 0x02 => need (f.b && !f.n) (.accsv f.d f.s1 f.s2)
  | 0x03 => need (f.b && !f.n) (.accld f.d f.s1 f.s2)
  | 0x04 => need (!f.n && f.s1 == 0#6) (.electU f.b f.d f.s2)
  | _ => none

/-- Major opcode 0x3C. -/
noncomputable def decode3C (f : Fields) : Option Instr :=
  match f.s3.toNat with
  | 0x00 => need (f.b && !f.n) (.trace f.d f.s1 f.s2)
  | 0x01 => need (f.b && !f.n) (.tracep f.d f.s1 f.s2)
  | 0x02 => need (f.b && !f.n && f.d == 0#6 && f.s2 == 0#6) (.xpair f.s1)
  | 0x03 => need (f.b && !f.n) (.tres f.d f.s1 f.s2)
  | 0x04 => need (f.b && !f.n) (.tresAcc f.d f.s1 f.s2)
  | 0x05 => need (f.b && !f.n) (.tresTerm f.d f.s1 f.s2)
  | 0x06 => need (f.b && !f.n && f.d == 0#6 && f.s2 == 0#6) (.reproj f.s1)
  | _ => none

/-- Major opcode 0x3D. -/
noncomputable def decode3D (f : Fields) : Option Instr :=
  match f.s3.toNat with
  | 0x00 => need (!f.n && f.s2 == 0#6) (.umov f.b f.d f.s1)
  | 0x01 => need (!f.n) (.uadd f.b f.d f.s1 f.s2)
  | 0x02 => need (!f.n) (.usub f.b f.d f.s1 f.s2)
  | 0x03 => need (!f.n) (.umul f.b f.d f.s1 f.s2)
  | 0x04 => need (!f.n) (.uand f.b f.d f.s1 f.s2)
  | 0x05 => need (!f.n) (.uor f.b f.d f.s1 f.s2)
  | 0x06 => need (!f.n) (.uxor f.b f.d f.s1 f.s2)
  | 0x07 => need (!f.n) (.ushl f.b f.d f.s1 f.s2)
  | 0x08 => need (!f.n) (.ushr f.b f.d f.s1 f.s2)
  | 0x09 => need (!f.n) (.usar f.b f.d f.s1 f.s2)
  | 0x0A => need (!f.n) (.umin f.b f.d f.s1 f.s2)
  | 0x0B => need (!f.n) (.umax f.b f.d f.s1 f.s2)
  | 0x10 => need (!f.n && f.s2 == 0#6) (.umovv f.b f.d f.s1)
  | 0x11 => need (!f.n && f.s2 == 0#6) (.umovv64 f.b f.d f.s1)
  | _ => none

/-- Major opcode 0x3E. -/
noncomputable def decode3E (f : Fields) : Option Instr :=
  match f.s3.toNat with
  | 0x10 => need (f.b && !f.n) (.fetchw f.d f.s1 f.s2)
  | 0x11 => need (f.b && !f.n) (.launch f.d f.s1 f.s2)
  | 0x00 => need (f.b && !f.n && f.d == 0#6) (.trap (f.s1 ++ f.s2))
  | 0x01 => need (f.b && !f.n && f.d == 0#6 && f.s1 == 0#6 && f.s2 == 0#6) (.eret)
  | 0x02 => need (!f.n && f.s2 == 0#6) (.gets f.b f.d f.s1)
  | 0x03 => need (!f.n && f.s2 == 0#6) (.sets f.b f.d f.s1)
  | _ => none

/-- Major opcode 0x3F. -/
noncomputable def decode3F (f : Fields) : Option Instr :=
  need (!f.b && f.n && f.d == 8#6 && f.s1 == 0#6 && f.s2 == 0#6 && f.s3.extractLsb' 2 4 == 0#4)
      (.hrnd (f.s3.extractLsb' 0 2))
  <|> need (!f.b && f.n && f.d == 12#6 && f.s1 == 0#6 && f.s2 == 0#6 && f.s3.extractLsb' 2 4 == 0#4)
      (.hscp (f.s3.extractLsb' 0 2))
  <|> need (!f.b && f.n && f.d == 16#6 && f.s1 == 0#6 && f.s2 == 0#6 && f.s3.extractLsb' 2 4 == 0#4)
      (.hcch (f.s3.extractLsb' 0 2))
  <|> need (!f.b && f.n && f.d == 4#6 && f.s1 == 0#6 && f.s2 == 0#6 && f.s3.extractLsb' 4 2 == 0#2)
      (.hgrd (f.s3.extractLsb' 3 1) (f.s3.extractLsb' 0 3))
  <|> need (!f.b && f.n && f.d == 0#6 && f.s1 == 0#6 && f.s2 == 0#6)
      (.hsel (f.s3.extractLsb' 5 1) (f.s3.extractLsb' 0 5))
  <|> need (!f.b && f.n && f.d == 20#6 && f.s1 == 0#6 && f.s2.extractLsb' 2 4 == 0#4)
      (.hsch (f.s2.extractLsb' 0 2 ++ f.s3))
  <|> need (!f.b && !f.n) (.himm (f.d ++ f.s1 ++ f.s2 ++ f.s3))

/-- The instruction of a word, from its fields; none where R98 says that the word is not an
instruction. -/
noncomputable def decodeFields (f : Fields) : Option Instr :=
  match f.op.toNat with
  | 0x01 => decode01 f
  | 0x02 => decode02 f
  | 0x03 => some (.imad f.b f.n f.d f.s1 f.s2 f.s3)
  | 0x04 => some (.imad64 f.b f.n f.d f.s1 f.s2 f.s3)
  | 0x05 => need (f.s1 == 0#6) (.movi f.b f.n f.d (f.s2 ++ f.s3))
  | 0x06 => some (.lea f.b f.n f.d f.s1 (f.s2 ++ f.s3))
  | 0x07 => need (!f.n && f.s3.extractLsb' 5 1 == 0#1)
      (.icmp f.b f.d f.s1 f.s2 (f.s3.extractLsb' 4 1) (f.s3.extractLsb' 0 4))
  | 0x08 => some (.bfi f.b f.n f.d f.s1 f.s2 f.s3)
  | 0x09 => decode09 f
  | 0x0A => decode0A f
  | 0x10 => some (.ffmaF32 f.b f.n f.d f.s1 f.s2 f.s3)
  | 0x11 => some (.ffmaF64 f.b f.n f.d f.s1 f.s2 f.s3)
  | 0x12 => some (.ffmaF16 f.b f.n f.d f.s1 f.s2 f.s3)
  | 0x13 => some (.ffmaBf16 f.b f.n f.d f.s1 f.s2 f.s3)
  | 0x14 => some (.ffmaF16x2 f.b f.n f.d f.s1 f.s2 f.s3)
  | 0x15 => decode15 f
  | 0x16 => decode16 f
  | 0x17 => decode17 f
  | 0x18 => decode18 f
  | 0x19 => decode19 f
  | 0x1A => need (!f.n && f.s3.extractLsb' 5 1 == 0#1)
      (.fcmp f.b f.d f.s1 f.s2 (f.s3.extractLsb' 3 2) (f.s3.extractLsb' 0 3))
  | 0x1B => need (f.s2 == 0#6) (.cvt f.b f.n f.d f.s1 (f.s3.extractLsb' 3 3) (f.s3.extractLsb' 0 3))
  | 0x20 => decode20 f
  | 0x21 => need (f.s3.extractLsb' 2 4 == 0#4) (.deval f.b f.n f.d f.s1 f.s2 (f.s3.extractLsb' 0 2))
  | 0x24 => need (!f.n) (.pcmp f.b f.d f.s1 f.s2 (f.s3.extractLsb' 5 1) (f.s3.extractLsb' 2 3) (f.s3.extractLsb' 0 2))
  | 0x25 => decode25 f
  | 0x26 => need (f.s1.extractLsb' 3 1 == 0#1)
      (.pblend f.b f.n f.d (f.s1.extractLsb' 4 2) (f.s1.extractLsb' 0 3) f.s2 f.s3)
  | 0x27 => decode27 f
  | 0x28 => need (!f.n && f.s3.extractLsb' 0 3 == 0#3) (.ld f.b f.d f.s1 f.s2 (f.s3.extractLsb' 3 3))
  | 0x29 => need (!f.n && f.s3.extractLsb' 0 3 == 0#3) (.st f.b f.d f.s1 f.s2 (f.s3.extractLsb' 3 3))
  | 0x2A => decode2A f
  | 0x2B => decode2B f
  | 0x2C => need (!f.n && f.s3.extractLsb' 0 3 == 0#3) (.lds f.b f.d f.s1 f.s2 (f.s3.extractLsb' 3 3))
  | 0x2D => need (!f.n && f.s3.extractLsb' 0 3 == 0#3) (.sts f.b f.d f.s1 f.s2 (f.s3.extractLsb' 3 3))
  | 0x2E => decode2E f
  | 0x2F => decode2F f
  | 0x30 => decode30 f
  | 0x31 => decode31 f
  | 0x32 => decode32 f
  | 0x33 => need (f.b && !f.n && f.s3.extractLsb' 3 3 == 0#3)
      (.mwait f.d f.s1 f.s2 (f.s3.extractLsb' 2 1) (f.s3.extractLsb' 1 1) (f.s3.extractLsb' 0 1))
  | 0x34 => decode34 f
  | 0x35 => decode35 f
  | 0x36 => need (f.b) (.bra (BitVec.ofBool f.n ++ f.d ++ f.s1 ++ f.s2 ++ f.s3))
  | 0x37 => need (f.b) (.call (BitVec.ofBool f.n ++ f.d ++ f.s1 ++ f.s2 ++ f.s3))
  | 0x38 => need (f.b && !f.n && f.d.extractLsb' 4 2 == 0#2)
      (.brq (f.d.extractLsb' 3 1) (f.d.extractLsb' 0 3) (f.s1 ++ f.s2 ++ f.s3))
  | 0x39 => decode39 f
  | 0x3A => decode3A f
  | 0x3B => decode3B f
  | 0x3C => decode3C f
  | 0x3D => decode3D f
  | 0x3E => decode3E f
  | 0x3F => decode3F f
  | _ => none

/-- The instruction of a word; none where the word is not an instruction (R98). -/
noncomputable def decode (w : Word) : Option Instr := decodeFields (Fields.unpack w)

/-- The instruction that starts a list of bytes, little-endian (R82), with the bytes after it. -/
noncomputable def decodeBytes : List Byte → Option (Instr × List Byte)
  | b0 :: b1 :: b2 :: b3 :: rest => (decode (b3 ++ b2 ++ b1 ++ b0)).map fun i => (i, rest)
  | _ => none

/-- The decoder on a word whose bits are numbered as the opcode table numbers them: its four bytes in
memory order are given to `decodeBytes`. -/
noncomputable def decodeTableWord (nbits w : Nat) : Option Instr :=
  if nbits ≤ 32 ∧ w < 2 ^ 32 then (decodeBytes (leBytes 4 w)).map Prod.fst else none

/-! ### The encoder -/

/-- The fields of an instruction's word, from the encoding tables of the spec; none for a step of the
device that no word encodes. -/
def encodeFields (i : Instr) : Option Fields :=
  match i with
  | .iadd b n d a c => some ⟨b, 1#6, n, d, a, c, 0#6⟩
  | .isub b n d a c => some ⟨b, 1#6, n, d, a, c, 1#6⟩
  | .imul b n d a c => some ⟨b, 1#6, n, d, a, c, 2#6⟩
  | .imulh b n d a c => some ⟨b, 1#6, n, d, a, c, 3#6⟩
  | .imulhU b n d a c => some ⟨b, 1#6, n, d, a, c, 4#6⟩
  | .ineg b n d a => some ⟨b, 1#6, n, d, a, 0#6, 5#6⟩
  | .iabs b n d a => some ⟨b, 1#6, n, d, a, 0#6, 6#6⟩
  | .imin b n d a c => some ⟨b, 1#6, n, d, a, c, 7#6⟩
  | .iminU b n d a c => some ⟨b, 1#6, n, d, a, c, 8#6⟩
  | .imax b n d a c => some ⟨b, 1#6, n, d, a, c, 9#6⟩
  | .imaxU b n d a c => some ⟨b, 1#6, n, d, a, c, 10#6⟩
  | .land b n d a c => some ⟨b, 1#6, n, d, a, c, 11#6⟩
  | .lor b n d a c => some ⟨b, 1#6, n, d, a, c, 12#6⟩
  | .lxor b n d a c => some ⟨b, 1#6, n, d, a, c, 13#6⟩
  | .lnot b n d a => some ⟨b, 1#6, n, d, a, 0#6, 14#6⟩
  | .shl b n d a c => some ⟨b, 1#6, n, d, a, c, 15#6⟩
  | .shr b n d a c => some ⟨b, 1#6, n, d, a, c, 16#6⟩
  | .sar b n d a c => some ⟨b, 1#6, n, d, a, c, 17#6⟩
  | .rot b n d a c => some ⟨b, 1#6, n, d, a, c, 18#6⟩
  | .popc b n d a => some ⟨b, 1#6, n, d, a, 0#6, 19#6⟩
  | .clz b n d a => some ⟨b, 1#6, n, d, a, 0#6, 20#6⟩
  | .ctz b n d a => some ⟨b, 1#6, n, d, a, 0#6, 21#6⟩
  | .brev b n d a => some ⟨b, 1#6, n, d, a, 0#6, 22#6⟩
  | .mov b n d a => some ⟨b, 1#6, n, d, a, 0#6, 23#6⟩
  | .iaddSat b n d a c => some ⟨b, 1#6, n, d, a, c, 24#6⟩
  | .isubSat b n d a c => some ⟨b, 1#6, n, d, a, c, 25#6⟩
  | .iaddUsat b n d a c => some ⟨b, 1#6, n, d, a, c, 26#6⟩
  | .isubUsat b n d a c => some ⟨b, 1#6, n, d, a, c, 27#6⟩
  | .iadd64 b n d a c => some ⟨b, 2#6, n, d, a, c, 0#6⟩
  | .isub64 b n d a c => some ⟨b, 2#6, n, d, a, c, 1#6⟩
  | .imul64 b n d a c => some ⟨b, 2#6, n, d, a, c, 2#6⟩
  | .imulh64 b n d a c => some ⟨b, 2#6, n, d, a, c, 3#6⟩
  | .imulhU64 b n d a c => some ⟨b, 2#6, n, d, a, c, 4#6⟩
  | .ineg64 b n d a => some ⟨b, 2#6, n, d, a, 0#6, 5#6⟩
  | .iabs64 b n d a => some ⟨b, 2#6, n, d, a, 0#6, 6#6⟩
  | .imin64 b n d a c => some ⟨b, 2#6, n, d, a, c, 7#6⟩
  | .iminU64 b n d a c => some ⟨b, 2#6, n, d, a, c, 8#6⟩
  | .imax64 b n d a c => some ⟨b, 2#6, n, d, a, c, 9#6⟩
  | .imaxU64 b n d a c => some ⟨b, 2#6, n, d, a, c, 10#6⟩
  | .land64 b n d a c => some ⟨b, 2#6, n, d, a, c, 11#6⟩
  | .lor64 b n d a c => some ⟨b, 2#6, n, d, a, c, 12#6⟩
  | .lxor64 b n d a c => some ⟨b, 2#6, n, d, a, c, 13#6⟩
  | .lnot64 b n d a => some ⟨b, 2#6, n, d, a, 0#6, 14#6⟩
  | .shl64 b n d a c => some ⟨b, 2#6, n, d, a, c, 15#6⟩
  | .shr64 b n d a c => some ⟨b, 2#6, n, d, a, c, 16#6⟩
  | .sar64 b n d a c => some ⟨b, 2#6, n, d, a, c, 17#6⟩
  | .rot64 b n d a c => some ⟨b, 2#6, n, d, a, c, 18#6⟩
  | .popc64 b n d a => some ⟨b, 2#6, n, d, a, 0#6, 19#6⟩
  | .clz64 b n d a => some ⟨b, 2#6, n, d, a, 0#6, 20#6⟩
  | .ctz64 b n d a => some ⟨b, 2#6, n, d, a, 0#6, 21#6⟩
  | .brev64 b n d a => some ⟨b, 2#6, n, d, a, 0#6, 22#6⟩
  | .mov64 b n d a => some ⟨b, 2#6, n, d, a, 0#6, 23#6⟩
  | .iaddSat64 b n d a c => some ⟨b, 2#6, n, d, a, c, 24#6⟩
  | .isubSat64 b n d a c => some ⟨b, 2#6, n, d, a, c, 25#6⟩
  | .iaddUsat64 b n d a c => some ⟨b, 2#6, n, d, a, c, 26#6⟩
  | .isubUsat64 b n d a c => some ⟨b, 2#6, n, d, a, c, 27#6⟩
  | .imad b n d a c e => some ⟨b, 3#6, n, d, a, c, e⟩
  | .imad64 b n d a c e => some ⟨b, 4#6, n, d, a, c, e⟩
  | .movi b n d i => some ⟨b, 5#6, n, d, 0#6, i.extractLsb' 6 6, i.extractLsb' 0 6⟩
  | .lea b n d a i => some ⟨b, 6#6, n, d, a, i.extractLsb' 6 6, i.extractLsb' 0 6⟩
  | .icmp b d a c w k => some ⟨b, 7#6, false, d, a, c, 0#1 ++ w ++ k⟩
  | .bfi b n d a c e => some ⟨b, 8#6, n, d, a, c, e⟩
  | .bfxU b n d a c => some ⟨b, 9#6, n, d, a, c, 0#6⟩
  | .bfxS b n d a c => some ⟨b, 9#6, n, d, a, c, 1#6⟩
  | .bffs b n d a => some ⟨b, 9#6, n, d, a, 0#6, 2#6⟩
  | .bffsIdx b n d a => some ⟨b, 9#6, n, d, a, 0#6, 3#6⟩
  | .bfpl b n d a c => some ⟨b, 9#6, n, d, a, c, 4#6⟩
  | .qxchX b n d a => some ⟨b, 10#6, n, d, a, 0#6, 0#6⟩
  | .qxchY b n d a => some ⟨b, 10#6, n, d, a, 0#6, 1#6⟩
  | .qxchXy b n d a => some ⟨b, 10#6, n, d, a, 0#6, 2#6⟩
  | .qxchBc b n d a c => some ⟨b, 10#6, n, d, a, c, 3#6⟩
  | .gshuf b n d a c => some ⟨b, 10#6, n, d, a, c, 8#6⟩
  | .gshufXor b n d a c => some ⟨b, 10#6, n, d, a, c, 9#6⟩
  | .qxchX64 b n d a => some ⟨b, 10#6, n, d, a, 0#6, 16#6⟩
  | .qxchY64 b n d a => some ⟨b, 10#6, n, d, a, 0#6, 17#6⟩
  | .qxchXy64 b n d a => some ⟨b, 10#6, n, d, a, 0#6, 18#6⟩
  | .qxchBc64 b n d a c => some ⟨b, 10#6, n, d, a, c, 19#6⟩
  | .gshuf64 b n d a c => some ⟨b, 10#6, n, d, a, c, 24#6⟩
  | .gshufXor64 b n d a c => some ⟨b, 10#6, n, d, a, c, 25#6⟩
  | .umov b d a => some ⟨b, 61#6, false, d, a, 0#6, 0#6⟩
  | .uadd b d a c => some ⟨b, 61#6, false, d, a, c, 1#6⟩
  | .usub b d a c => some ⟨b, 61#6, false, d, a, c, 2#6⟩
  | .umul b d a c => some ⟨b, 61#6, false, d, a, c, 3#6⟩
  | .uand b d a c => some ⟨b, 61#6, false, d, a, c, 4#6⟩
  | .uor b d a c => some ⟨b, 61#6, false, d, a, c, 5#6⟩
  | .uxor b d a c => some ⟨b, 61#6, false, d, a, c, 6#6⟩
  | .ushl b d a c => some ⟨b, 61#6, false, d, a, c, 7#6⟩
  | .ushr b d a c => some ⟨b, 61#6, false, d, a, c, 8#6⟩
  | .usar b d a c => some ⟨b, 61#6, false, d, a, c, 9#6⟩
  | .umin b d a c => some ⟨b, 61#6, false, d, a, c, 10#6⟩
  | .umax b d a c => some ⟨b, 61#6, false, d, a, c, 11#6⟩
  | .umovv b d a => some ⟨b, 61#6, false, d, a, 0#6, 16#6⟩
  | .umovv64 b d a => some ⟨b, 61#6, false, d, a, 0#6, 17#6⟩
  | .ffmaF32 b n d a c e => some ⟨b, 16#6, n, d, a, c, e⟩
  | .ffmaF64 b n d a c e => some ⟨b, 17#6, n, d, a, c, e⟩
  | .ffmaF16 b n d a c e => some ⟨b, 18#6, n, d, a, c, e⟩
  | .ffmaBf16 b n d a c e => some ⟨b, 19#6, n, d, a, c, e⟩
  | .ffmaF16x2 b n d a c e => some ⟨b, 20#6, n, d, a, c, e⟩
  | .faddF32 b n d a c => some ⟨b, 21#6, n, d, a, c, 0#6⟩
  | .fsubF32 b n d a c => some ⟨b, 21#6, n, d, a, c, 1#6⟩
  | .fmulF32 b n d a c => some ⟨b, 21#6, n, d, a, c, 2#6⟩
  | .fminF32 b n d a c => some ⟨b, 21#6, n, d, a, c, 3#6⟩
  | .fmaxF32 b n d a c => some ⟨b, 21#6, n, d, a, c, 4#6⟩
  | .fabsF32 b n d a => some ⟨b, 21#6, n, d, a, 0#6, 5#6⟩
  | .fnegF32 b n d a => some ⟨b, 21#6, n, d, a, 0#6, 6#6⟩
  | .fdivF32 b n d a c => some ⟨b, 21#6, n, d, a, c, 7#6⟩
  | .frcpF32 b n d a => some ⟨b, 21#6, n, d, a, 0#6, 8#6⟩
  | .frsqF32 b n d a => some ⟨b, 21#6, n, d, a, 0#6, 9#6⟩
  | .fsqrtF32 b n d a => some ⟨b, 21#6, n, d, a, 0#6, 10#6⟩
  | .fexp2F32 b n d a => some ⟨b, 21#6, n, d, a, 0#6, 11#6⟩
  | .flog2F32 b n d a => some ⟨b, 21#6, n, d, a, 0#6, 12#6⟩
  | .fsinF32 b n d a => some ⟨b, 21#6, n, d, a, 0#6, 13#6⟩
  | .fcosF32 b n d a => some ⟨b, 21#6, n, d, a, 0#6, 14#6⟩
  | .ffloorF32 b n d a => some ⟨b, 21#6, n, d, a, 0#6, 15#6⟩
  | .fceilF32 b n d a => some ⟨b, 21#6, n, d, a, 0#6, 16#6⟩
  | .frndF32 b n d a => some ⟨b, 21#6, n, d, a, 0#6, 17#6⟩
  | .ffracF32 b n d a => some ⟨b, 21#6, n, d, a, 0#6, 18#6⟩
  | .faddF64 b n d a c => some ⟨b, 22#6, n, d, a, c, 0#6⟩
  | .fsubF64 b n d a c => some ⟨b, 22#6, n, d, a, c, 1#6⟩
  | .fmulF64 b n d a c => some ⟨b, 22#6, n, d, a, c, 2#6⟩
  | .fminF64 b n d a c => some ⟨b, 22#6, n, d, a, c, 3#6⟩
  | .fmaxF64 b n d a c => some ⟨b, 22#6, n, d, a, c, 4#6⟩
  | .fabsF64 b n d a => some ⟨b, 22#6, n, d, a, 0#6, 5#6⟩
  | .fnegF64 b n d a => some ⟨b, 22#6, n, d, a, 0#6, 6#6⟩
  | .fdivF64 b n d a c => some ⟨b, 22#6, n, d, a, c, 7#6⟩
  | .frcpF64 b n d a => some ⟨b, 22#6, n, d, a, 0#6, 8#6⟩
  | .frsqF64 b n d a => some ⟨b, 22#6, n, d, a, 0#6, 9#6⟩
  | .fsqrtF64 b n d a => some ⟨b, 22#6, n, d, a, 0#6, 10#6⟩
  | .fexp2F64 b n d a => some ⟨b, 22#6, n, d, a, 0#6, 11#6⟩
  | .flog2F64 b n d a => some ⟨b, 22#6, n, d, a, 0#6, 12#6⟩
  | .fsinF64 b n d a => some ⟨b, 22#6, n, d, a, 0#6, 13#6⟩
  | .fcosF64 b n d a => some ⟨b, 22#6, n, d, a, 0#6, 14#6⟩
  | .ffloorF64 b n d a => some ⟨b, 22#6, n, d, a, 0#6, 15#6⟩
  | .fceilF64 b n d a => some ⟨b, 22#6, n, d, a, 0#6, 16#6⟩
  | .frndF64 b n d a => some ⟨b, 22#6, n, d, a, 0#6, 17#6⟩
  | .ffracF64 b n d a => some ⟨b, 22#6, n, d, a, 0#6, 18#6⟩
  | .faddF16 b n d a c => some ⟨b, 23#6, n, d, a, c, 0#6⟩
  | .fsubF16 b n d a c => some ⟨b, 23#6, n, d, a, c, 1#6⟩
  | .fmulF16 b n d a c => some ⟨b, 23#6, n, d, a, c, 2#6⟩
  | .fminF16 b n d a c => some ⟨b, 23#6, n, d, a, c, 3#6⟩
  | .fmaxF16 b n d a c => some ⟨b, 23#6, n, d, a, c, 4#6⟩
  | .fabsF16 b n d a => some ⟨b, 23#6, n, d, a, 0#6, 5#6⟩
  | .fnegF16 b n d a => some ⟨b, 23#6, n, d, a, 0#6, 6#6⟩
  | .fdivF16 b n d a c => some ⟨b, 23#6, n, d, a, c, 7#6⟩
  | .frcpF16 b n d a => some ⟨b, 23#6, n, d, a, 0#6, 8#6⟩
  | .frsqF16 b n d a => some ⟨b, 23#6, n, d, a, 0#6, 9#6⟩
  | .fsqrtF16 b n d a => some ⟨b, 23#6, n, d, a, 0#6, 10#6⟩
  | .fexp2F16 b n d a => some ⟨b, 23#6, n, d, a, 0#6, 11#6⟩
  | .flog2F16 b n d a => some ⟨b, 23#6, n, d, a, 0#6, 12#6⟩
  | .fsinF16 b n d a => some ⟨b, 23#6, n, d, a, 0#6, 13#6⟩
  | .fcosF16 b n d a => some ⟨b, 23#6, n, d, a, 0#6, 14#6⟩
  | .ffloorF16 b n d a => some ⟨b, 23#6, n, d, a, 0#6, 15#6⟩
  | .fceilF16 b n d a => some ⟨b, 23#6, n, d, a, 0#6, 16#6⟩
  | .frndF16 b n d a => some ⟨b, 23#6, n, d, a, 0#6, 17#6⟩
  | .ffracF16 b n d a => some ⟨b, 23#6, n, d, a, 0#6, 18#6⟩
  | .faddBf16 b n d a c => some ⟨b, 24#6, n, d, a, c, 0#6⟩
  | .fsubBf16 b n d a c => some ⟨b, 24#6, n, d, a, c, 1#6⟩
  | .fmulBf16 b n d a c => some ⟨b, 24#6, n, d, a, c, 2#6⟩
  | .fminBf16 b n d a c => some ⟨b, 24#6, n, d, a, c, 3#6⟩
  | .fmaxBf16 b n d a c => some ⟨b, 24#6, n, d, a, c, 4#6⟩
  | .fabsBf16 b n d a => some ⟨b, 24#6, n, d, a, 0#6, 5#6⟩
  | .fnegBf16 b n d a => some ⟨b, 24#6, n, d, a, 0#6, 6#6⟩
  | .fdivBf16 b n d a c => some ⟨b, 24#6, n, d, a, c, 7#6⟩
  | .frcpBf16 b n d a => some ⟨b, 24#6, n, d, a, 0#6, 8#6⟩
  | .frsqBf16 b n d a => some ⟨b, 24#6, n, d, a, 0#6, 9#6⟩
  | .fsqrtBf16 b n d a => some ⟨b, 24#6, n, d, a, 0#6, 10#6⟩
  | .fexp2Bf16 b n d a => some ⟨b, 24#6, n, d, a, 0#6, 11#6⟩
  | .flog2Bf16 b n d a => some ⟨b, 24#6, n, d, a, 0#6, 12#6⟩
  | .fsinBf16 b n d a => some ⟨b, 24#6, n, d, a, 0#6, 13#6⟩
  | .fcosBf16 b n d a => some ⟨b, 24#6, n, d, a, 0#6, 14#6⟩
  | .ffloorBf16 b n d a => some ⟨b, 24#6, n, d, a, 0#6, 15#6⟩
  | .fceilBf16 b n d a => some ⟨b, 24#6, n, d, a, 0#6, 16#6⟩
  | .frndBf16 b n d a => some ⟨b, 24#6, n, d, a, 0#6, 17#6⟩
  | .ffracBf16 b n d a => some ⟨b, 24#6, n, d, a, 0#6, 18#6⟩
  | .faddF16x2 b n d a c => some ⟨b, 25#6, n, d, a, c, 0#6⟩
  | .fsubF16x2 b n d a c => some ⟨b, 25#6, n, d, a, c, 1#6⟩
  | .fmulF16x2 b n d a c => some ⟨b, 25#6, n, d, a, c, 2#6⟩
  | .fminF16x2 b n d a c => some ⟨b, 25#6, n, d, a, c, 3#6⟩
  | .fmaxF16x2 b n d a c => some ⟨b, 25#6, n, d, a, c, 4#6⟩
  | .fabsF16x2 b n d a => some ⟨b, 25#6, n, d, a, 0#6, 5#6⟩
  | .fnegF16x2 b n d a => some ⟨b, 25#6, n, d, a, 0#6, 6#6⟩
  | .fdivF16x2 b n d a c => some ⟨b, 25#6, n, d, a, c, 7#6⟩
  | .frcpF16x2 b n d a => some ⟨b, 25#6, n, d, a, 0#6, 8#6⟩
  | .frsqF16x2 b n d a => some ⟨b, 25#6, n, d, a, 0#6, 9#6⟩
  | .fsqrtF16x2 b n d a => some ⟨b, 25#6, n, d, a, 0#6, 10#6⟩
  | .fexp2F16x2 b n d a => some ⟨b, 25#6, n, d, a, 0#6, 11#6⟩
  | .flog2F16x2 b n d a => some ⟨b, 25#6, n, d, a, 0#6, 12#6⟩
  | .fsinF16x2 b n d a => some ⟨b, 25#6, n, d, a, 0#6, 13#6⟩
  | .fcosF16x2 b n d a => some ⟨b, 25#6, n, d, a, 0#6, 14#6⟩
  | .ffloorF16x2 b n d a => some ⟨b, 25#6, n, d, a, 0#6, 15#6⟩
  | .fceilF16x2 b n d a => some ⟨b, 25#6, n, d, a, 0#6, 16#6⟩
  | .frndF16x2 b n d a => some ⟨b, 25#6, n, d, a, 0#6, 17#6⟩
  | .ffracF16x2 b n d a => some ⟨b, 25#6, n, d, a, 0#6, 18#6⟩
  | .fcmp b d a c t k => some ⟨b, 26#6, false, d, a, c, 0#1 ++ t ++ k⟩
  | .cvt b n d a x y => some ⟨b, 27#6, n, d, a, 0#6, x ++ y⟩
  | .dseedF32 b n d a k => some ⟨b, 32#6, n, d, a, k, 0#6⟩
  | .dseedF64 b n d a k => some ⟨b, 32#6, n, d, a, k, 1#6⟩
  | .dzero b n d a => some ⟨b, 32#6, n, d, a, 0#6, 2#6⟩
  | .dzero64 b n d a => some ⟨b, 32#6, n, d, a, 0#6, 3#6⟩
  | .dgetF32 b n d a k => some ⟨b, 32#6, n, d, a, k, 4#6⟩
  | .dgetF64 b n d a k => some ⟨b, 32#6, n, d, a, k, 5#6⟩
  | .dputF32 b d a k => some ⟨b, 32#6, false, d, a, k, 6#6⟩
  | .dputF64 b d a k => some ⟨b, 32#6, false, d, a, k, 7#6⟩
  | .deval b n d a u t => some ⟨b, 33#6, n, d, a, u, 0#4 ++ t⟩
  | .pcmp b d a c g s t => some ⟨b, 36#6, false, d, a, c, g ++ s ++ t⟩
  | .pset b d a c => some ⟨b, 37#6, false, d, a, c, 0#6⟩
  | .pand b d a c => some ⟨b, 37#6, false, d, a, c, 1#6⟩
  | .por b d a c => some ⟨b, 37#6, false, d, a, c, 2#6⟩
  | .pnot b d a => some ⟨b, 37#6, false, d, a, 0#6, 3#6⟩
  | .pget b n d a => some ⟨b, 37#6, n, d, a, 0#6, 4#6⟩
  | .pgetW b n d a => some ⟨b, 37#6, n, d, a, 0#6, 5#6⟩
  | .pput b d a c => some ⟨b, 37#6, false, d, a, c, 6#6⟩
  | .pcoll b d a => some ⟨b, 37#6, false, d, a, 0#6, 7#6⟩
  | .pblend b n d t q c e => some ⟨b, 38#6, n, d, t ++ 0#1 ++ q, c, e⟩
  | .psel b n d a c w q => some ⟨b, 39#6, n, d, a, c, 0#1 ++ w ++ 0#1 ++ q⟩
  | .rkey b a c => some ⟨b, 39#6, false, 0#6, a, c, 32#6⟩
  | .rnextU32 b n d => some ⟨b, 39#6, n, d, 0#6, 0#6, 33#6⟩
  | .rnextU64 b n d => some ⟨b, 39#6, n, d, 0#6, 0#6, 34#6⟩
  | .rnextF32 b n d => some ⟨b, 39#6, n, d, 0#6, 0#6, 35#6⟩
  | .ld b d a c w => some ⟨b, 40#6, false, d, a, c, w ++ 0#3⟩
  | .st b d a c w => some ⟨b, 41#6, false, d, a, c, w ++ 0#3⟩
  | .ldt b d a c u t => some ⟨b, 42#6, false, d, a, c, 0#1 ++ u ++ t ++ 0#2⟩
  | .stt b d a c u t => some ⟨b, 42#6, false, d, a, c, 1#1 ++ u ++ 0#1 ++ t ++ 0#2⟩
  | .ldd b d a c f => some ⟨b, 43#6, false, d, a, c, 0#5 ++ f⟩
  | .std b d a c f => some ⟨b, 43#6, false, d, a, c, 16#5 ++ f⟩
  | .lds b d a c w => some ⟨b, 44#6, false, d, a, c, w ++ 0#3⟩
  | .sts b d a c w => some ⟨b, 45#6, false, d, a, c, w ++ 0#3⟩
  | .bhdrRd b d a => some ⟨b, 46#6, false, d, a, 0#6, 0#6⟩
  | .bhdrWr b d a => some ⟨b, 46#6, false, d, a, 0#6, 1#6⟩
  | .pref b a c => some ⟨b, 46#6, false, 0#6, a, c, 2#6⟩
  | .tset b a c => some ⟨b, 47#6, false, 0#6, a, c, 0#6⟩
  | .tsetClr b a => some ⟨b, 47#6, false, 0#6, a, 0#6, 1#6⟩
  | .tstat b n d a => some ⟨b, 47#6, n, d, a, 0#6, 2#6⟩
  | .atom b d a c o p w => some ⟨b, 48#6, false, d, a, c, o ++ p ++ w⟩
  | .atomFadd b d a c o w => some ⟨b, 48#6, false, d, a, c, 6#3 ++ o ++ w⟩
  | .atoms b d a c o p w => some ⟨b, 49#6, false, d, a, c, o ++ p ++ w⟩
  | .atomsFadd b d a c o w => some ⟨b, 49#6, false, d, a, c, 6#3 ++ o ++ w⟩
  | .acq b d a => some ⟨b, 50#6, false, d, a, 0#6, 0#6⟩
  | .rel b a c => some ⟨b, 50#6, false, 0#6, a, c, 1#6⟩
  | .fence b => some ⟨b, 50#6, false, 0#6, 0#6, 0#6, 2#6⟩
  | .bind b d a c => some ⟨b, 50#6, false, d, a, c, 3#6⟩
  | .bindClr b d a => some ⟨b, 50#6, false, d, a, 0#6, 4#6⟩
  | .mwait d a c q y w => some ⟨true, 51#6, false, d, a, c, 0#3 ++ q ++ y ++ w⟩
  | .barArv b n d a c => some ⟨b, 52#6, n, d, a, c, 0#6⟩
  | .barWt a c => some ⟨true, 52#6, false, 0#6, a, c, 1#6⟩
  | .barSyn a c => some ⟨true, 52#6, false, 0#6, a, c, 2#6⟩
  | .gbar c => some ⟨true, 52#6, false, 0#6, 0#6, c, 3#6⟩
  | .mbput d a => some ⟨true, 53#6, false, d, a, 0#6, 0#6⟩
  | .mbtake d a => some ⟨true, 53#6, false, d, a, 0#6, 1#6⟩
  | .bra o => some ⟨true, 54#6, (o.extractLsb' 24 1 == 1#1), o.extractLsb' 18 6, o.extractLsb' 12 6, o.extractLsb' 6 6, o.extractLsb' 0 6⟩
  | .call o => some ⟨true, 55#6, (o.extractLsb' 24 1 == 1#1), o.extractLsb' 18 6, o.extractLsb' 12 6, o.extractLsb' 6 6, o.extractLsb' 0 6⟩
  | .brq g q o => some ⟨true, 56#6, false, 0#2 ++ g ++ q, o.extractLsb' 12 6, o.extractLsb' 6 6, o.extractLsb' 0 6⟩
  | .nop b => some ⟨b, 57#6, false, 0#6, 0#6, 0#6, 0#6⟩
  | .brx a => some ⟨true, 57#6, false, 0#6, a, 0#6, 1#6⟩
  | .callx a => some ⟨true, 57#6, false, 0#6, a, 0#6, 2#6⟩
  | .ret => some ⟨true, 57#6, false, 0#6, 0#6, 0#6, 3#6⟩
  | .callj l a c => some ⟨true, 57#6, false, l, a, c, 4#6⟩
  | .regroup l a => some ⟨true, 57#6, false, l, a, 0#6, 5#6⟩
  | .join b k => some ⟨b, 57#6, false, k, 0#6, 0#6, 6#6⟩
  | .leave b k => some ⟨b, 57#6, false, k, 0#6, 0#6, 7#6⟩
  | .waitm k => some ⟨true, 57#6, false, k, 0#6, 0#6, 8#6⟩
  | .region b v q => some ⟨b, 57#6, false, v.extractLsb' 8 6, v.extractLsb' 2 6, v.extractLsb' 0 2 ++ q, 9#6⟩
  | .exit => some ⟨true, 57#6, false, 0#6, 0#6, 0#6, 10#6⟩
  | .xq a => some ⟨true, 58#6, false, 0#6, a, 0#6, 0#6⟩
  | .xqn a => some ⟨true, 58#6, false, 0#6, a, 0#6, 1#6⟩
  | .elect b d => some ⟨b, 59#6, false, d, 0#6, 0#6, 0#6⟩
  | .mmissue a => some ⟨true, 59#6, false, 0#6, a, 0#6, 1#6⟩
  | .accsv d a c => some ⟨true, 59#6, false, d, a, c, 2#6⟩
  | .accld d a c => some ⟨true, 59#6, false, d, a, c, 3#6⟩
  | .electU b d u => some ⟨b, 59#6, false, d, 0#6, u, 4#6⟩
  | .trace d a c => some ⟨true, 60#6, false, d, a, c, 0#6⟩
  | .tracep d a c => some ⟨true, 60#6, false, d, a, c, 1#6⟩
  | .xpair a => some ⟨true, 60#6, false, 0#6, a, 0#6, 2#6⟩
  | .tres d a c => some ⟨true, 60#6, false, d, a, c, 3#6⟩
  | .tresAcc d a c => some ⟨true, 60#6, false, d, a, c, 4#6⟩
  | .tresTerm d a c => some ⟨true, 60#6, false, d, a, c, 5#6⟩
  | .reproj a => some ⟨true, 60#6, false, 0#6, a, 0#6, 6#6⟩
  | .fetchw d a c => some ⟨true, 62#6, false, d, a, c, 16#6⟩
  | .launch d a c => some ⟨true, 62#6, false, d, a, c, 17#6⟩
  | .trap i => some ⟨true, 62#6, false, 0#6, i.extractLsb' 6 6, i.extractLsb' 0 6, 0#6⟩
  | .eret => some ⟨true, 62#6, false, 0#6, 0#6, 0#6, 1#6⟩
  | .gets b d a => some ⟨b, 62#6, false, d, a, 0#6, 2#6⟩
  | .sets b d a => some ⟨b, 62#6, false, d, a, 0#6, 3#6⟩
  | .himm i => some ⟨false, 63#6, false, i.extractLsb' 18 6, i.extractLsb' 12 6, i.extractLsb' 6 6, i.extractLsb' 0 6⟩
  | .hsel h u => some ⟨false, 63#6, true, 0#6, 0#6, 0#6, h ++ u⟩
  | .hgrd g q => some ⟨false, 63#6, true, 4#6, 0#6, 0#6, 0#2 ++ g ++ q⟩
  | .hrnd m => some ⟨false, 63#6, true, 8#6, 0#6, 0#6, 0#4 ++ m⟩
  | .hscp s => some ⟨false, 63#6, true, 12#6, 0#6, 0#6, 0#4 ++ s⟩
  | .hcch p => some ⟨false, 63#6, true, 16#6, 0#6, 0#6, 0#4 ++ p⟩
  | .hsch s => some ⟨false, 63#6, true, 20#6, 0#6, 0#4 ++ s.extractLsb' 6 2, s.extractLsb' 0 6⟩
  | .pickGroup _ _ => none
  | .loadDataArrival _ => none
  | .faultResolved _ _ => none
  | .faultUnresolvable _ _ _ => none
  | .windowAccessApply _ _ => none
  | .monitorWake _ _ => none
  | .mailboxWaitMet _ _ => none
  | .gangBarrierComplete _ _ _ => none
  | .joinerBatchClose _ => none
  | .joinerMovesComplete _ => none
  | .preemptRequest _ => none
  | .preemptTimeout _ => none
  | .crewResume _ => none
  | .saveAreaSupply _ _ => none
  | .trapHeld _ _ => none
  | .trapResume _ _ => none
  | .trapEnter _ _ _ => none
  | .trapEnd _ _ => none
  | .trapAbort _ _ => none
  | .copyTake _ => none
  | .copyComplete _ _ => none
  | .matrixMma _ => none
  | .matrixWload _ => none
  | .matrixFin _ => none
  | .matrixClr _ => none
  | .accEntryExecute _ => none
  | .matrixPassGrant _ => none
  | .multiplierMismatch _ => none
  | .rayEndOrSuspend _ => none
  | .rayFaultStop _ => none
  | .rayReenter _ => none
  | .xpairComplete _ => none
  | .reprojOperation _ => none
  | .fetchwWake _ _ => none
  | .doorbell _ _ _ => none
  | .regw _ _ => none
  | .regstRead _ => none
  | .bar0ReservedWrite _ _ _ => none
  | .queueDescriptorWrite _ _ => none
  | .packetTake _ => none
  | .distributeGang _ => none
  | .placeGang _ => none
  | .gridComplete _ => none
  | .graphStart _ => none
  | .graphNodeStart _ _ => none
  | .graphMatrixNode _ _ => none
  | .graphNodeComplete _ _ => none
  | .remotePayloadReceive _ _ _ _ => none
  | .peerRegistration _ _ => none
  | .peerWake _ _ _ => none
  | .transportFailure _ => none
  | .collectiveDoorbell _ _ => none
  | .collectiveSum _ => none
  | .collectiveMin _ => none
  | .collectiveMax _ => none
  | .collectiveMessage _ _ _ _ => none
  | .collectiveCommit _ => none
  | .collectiveTimeout _ _ => none
  | .checkpoint _ _ => none
  | .checkpointRestore _ _ => none
  | .coldStart _ _ => none
  | .warmStart _ _ _ => none
  | .startTimeout => none
  | .reset => none
  | .recover => none
  | .softErrorCorrected _ _ _ => none
  | .uncorrectableError _ => none
  | .attestationRequest _ _ => none
  | .powerThermalThrottle => none
  | .clockRestore => none
  | .thermalTrip => none
  | .unassignedWord _ => none
  | .hostDeviceMemoryAccess _ _ _ _ => none
  | .gridRemoval _ => none

/-- The word of an instruction; none for a step of the device that no word encodes. -/
def encode (i : Instr) : Option Word := (encodeFields i).map Fields.pack

end Sys2Proof
end

