-- ==== Sys2Proof/Config.lean ====
section
/-!
DEFINITION. What the P960 fixes, and the free values: what the spec leaves open, held by constants
without a body, so that no proof can see them.
-/

namespace Sys2Proof.Config

/-- K-dies of the package (R9). -/
def dies : Nat := 8
/-- Cores of the device, 32 on each die (R12). -/
def cores : Nat := 256
/-- Clusters of four cores (R12). -/
def clusters : Nat := 64
/-- Issue slots of a core (R13, R165). -/
def slots : Nat := 8
/-- Group slots of a core (R13). -/
def groupSlots : Nat := 256
/-- Register granules of a core (R106). -/
def granules : Nat := 2048
/-- Uniform registers of a core (R104). -/
def uniformFile : Nat := 2048
/-- Scratchpad granules of 4 KiB of a core (R199). -/
def scratchGranules : Nat := 128
/-- Numbered barriers of a core (R251). -/
def barriers : Nat := 64
/-- Tile-table entries of a core (R215). -/
def tileEntries : Nat := 256
/-- Monitor entries of a core (R247). -/
def monitorEntries : Nat := 256
/-- Accumulator lines of a matrix engine (R278). -/
def accLines : Nat := 4096
/-- Weight granules of a matrix engine (R278). -/
def weightGranules : Nat := 256
/-- Outstanding memory requests of a core (R202). -/
def requests : Nat := 3072
/-- Fault-buffer entries of a core (R205). -/
def faultEntries : Nat := 64
/-- Ray slots of a traversal unit (R300). -/
def raySlots : Nat := 256
/-- Reservation-table entries of a matrix engine (R278). -/
def matrixEntries : Nat := 64
/-- Queue entries of a reprojection unit (R331). -/
def reprojEntries : Nat := 16
/-- Commands a copy engine holds in flight, in all and from one crew (R269). -/
def copiesInFlight : Nat := 64
/-- Commands of one crew that a copy engine holds in flight (R269). -/
def copiesPerCrew : Nat := 8
/-- Entries of a thread's call stack (R172). -/
def callDepth : Nat := 16
/-- Words of a run (R29). -/
def runWords : Nat := 24
/-- Threads of a Joiner batch (R176). -/
def batchThreads : Nat := 256
/-- Cycles a Joiner batch stays open (R176). -/
def batchCycles : Nat := 64
/-- Cycles after which a thread outside every region is saved in full (R41). -/
def preemptCycles : Nat := 4096
/-- Hardware queues (R332). -/
def queues : Nat := 1024
/-- Entries of a partition's binding table (R246). -/
def bindings : Nat := 4096
/-- Waiter registrations of a virtual function (R374). -/
def registrations : Nat := 256
/-- Peer registrations of a partition (R378). -/
def peerRegistrations : Nat := 4096
/-- Pairs of a thread's acquired table (R237). -/
def acquiredPairs : Nat := 16
/-- Spare columns of a residue array (R14). -/
def spareColumns : Nat := 8
/-- Gangs that may pass a waiting one (R339). -/
def passedGangs : Nat := 64
/-- Nodes a Scribe walker runs at once (R348). -/
def walkerNodes : Nat := 256
/-- Bytes of one die's memory partition: two stacks of 36 GiB (R9, R10). -/
def dieBytes : Nat := 72 * 2 ^ 30
/-- The distance of two dies' copies of a replicated page (R192). -/
def dieStride : Nat := 2 ^ 37
/-- MiB of L2 on the device (R12). -/
def l2MiB : Nat := 512
/-- GiB of memory on the device (R10). -/
def memGiB : Nat := 576
/-- Steps of 940/16 MHz of the arithmetic clock at full rate (R400). -/
def clockSteps : Nat := 16

/-- Where partition `p`'s context stands in physical memory (R389): the model's choice (log 16). -/
def contextAt (p : Nat) : Nat := dieBytes - 65536 * (p + 1)

/-- FREE VALUE, log 6: which of two racing writes a 4-byte word keeps (R231, R271). -/
opaque raceBit : Nat → Bool

/-- FREE VALUE, log 51: what the 11 bits of PEND hold after an arrival beyond 2,047 pending ones (R251 gives the width
and no overflow rule); the argument is PEND before it. -/
opaque pendOver : Nat → BitVec 11

/-- FREE VALUE, log 17: the integer that a NaN element stands for in a residue product (R68 gives NaN none);
its element delivers NaN whatever it is. -/
opaque nanInteger : Nat → BitVec 16

/-- FREE VALUE, log 7: the encoding that a function of the real numbers delivers where the model's
enclosures of its value, which reach 16,384 bits, do not settle the rounding.  Arguments: function
number, operand encodings. -/
opaque unresolved : Nat → Nat → Nat → BitVec 64

/-- FREE VALUE, log 24: what a collective's staging area holds (R381 gives it no layout). -/
opaque stageByte : Nat → BitVec 8

/-- FREE VALUE, log 25: the flags and FRANK of a collective stamp whose STATUS R383 and R384 give none. -/
opaque collFlags : Nat → BitVec 6
/-- FREE VALUE, log 25. -/
opaque collRank : Nat → BitVec 16

/-- The partition that owns a 1 GiB unit of physical memory (R388): Sprinow's choice, log 28. -/
opaque unitOwner : Nat → Option Nat
/-- Whether a partition owns a unit: no unit has two owners (R388). -/
def owned (p u : Nat) : Bool := unitOwner u == some p

/-- FREE VALUE, log 15: an RSA-4096 signature of the module's identity key over a report (R387, R399). -/
opaque signature : Nat → List Nat → BitVec 4096
/-- FREE VALUE, log 15: the device's signature of a training record of this digest (R392). -/
opaque recordSig : BitVec 512 → BitVec 4096
/-- FREE VALUE, log 15: the 32-byte fuse identity (R399). -/
opaque fuseIdentity : BitVec 256
/-- FREE VALUE, log 15: the digest of the Agoico signing key that the fuses hold (R387). -/
opaque agoicoKey : BitVec 512
/-- FREE VALUE, log 15: a signature that the key of a digest makes of an image's digest (R387). -/
opaque imageSig : BitVec 512 → BitVec 512 → BitVec 4096
/-- FREE VALUE, log 15: whether another signature holds too (R387: the salt makes many of one image). -/
opaque alsoSigned : BitVec 512 → BitVec 512 → BitVec 4096 → Bool
/-- Whether an RSASSA-PSS signature of an image holds under the key of a digest (R387): the arithmetic of RFC 8017,
which the spec names and does not state, log 15.  Arguments: key digest, image digest, signature. -/
def verifies (key digest : BitVec 512) (sig : BitVec 4096) : Bool := sig == imageSig key digest || alsoSigned key digest sig

end Sys2Proof.Config
end

