-- ==== Sys2Proof/Machine/Num.lean ====
section
/-!
DEFINITION. Numbers: the floating-point formats, exact extended reals, rounding, and the numeric
flags (R48-R60).  Values are exact rationals; every rounding is one call of `roundRat`.
-/

namespace Sys2Proof.Num

/-- A floating-point format: exponent bits, fraction bits, and whether it has infinities (R48, R50). -/
structure Fmt where
  ew : Nat
  fw : Nat
  hasInf : Bool
  deriving DecidableEq, Repr

def fp64 : Fmt := ⟨11, 52, true⟩
def fp32 : Fmt := ⟨8, 23, true⟩
def fp16 : Fmt := ⟨5, 10, true⟩
def bf16 : Fmt := ⟨8, 7, true⟩
/-- FP8 E4M3 (R50). -/
def e4m3 : Fmt := ⟨4, 3, false⟩

def Fmt.bias (f : Fmt) : Nat := 2 ^ (f.ew - 1) - 1
def Fmt.width (f : Fmt) : Nat := 1 + f.ew + f.fw
/-- Exponent of the least subnormal, which is also that of the smallest normal's last bit. -/
def Fmt.minExp (f : Fmt) : Int := 1 - (f.bias : Int) - f.fw

/-- Rounding modes (R55). -/
inductive Mode where
  | rne | rz | ru | rd
  deriving DecidableEq, Repr

/-- The mode of a 2-bit code (R55). -/
def Mode.ofCode (c : Nat) : Mode :=
  match c % 4 with
  | 0 => .rne
  | 1 => .rz
  | 2 => .ru
  | _ => .rd

/-- The numeric flags (R58, R369). -/
structure Flags where
  inv : Bool := false
  dvz : Bool := false
  ovf : Bool := false
  unf : Bool := false
  inx : Bool := false
  sat : Bool := false
  deriving DecidableEq, Repr

def Flags.none : Flags := {}

/-- Flags accumulate by OR (R58). -/
def Flags.or (a b : Flags) : Flags :=
  ⟨a.inv || b.inv, a.dvz || b.dvz, a.ovf || b.ovf, a.unf || b.unf, a.inx || b.inx, a.sat || b.sat⟩

/-- The layout of %flags (R369): bit 0 INV up to bit 5 SAT. -/
def Flags.toBits (f : Flags) : BitVec 6 :=
  BitVec.ofNat 6 (f.inv.toNat + 2 * f.dvz.toNat + 4 * f.ovf.toNat + 8 * f.unf.toNat + 16 * f.inx.toNat
    + 32 * f.sat.toNat)

/-- 2 to an integer power. -/
def pow2 (e : Int) : Rat :=
  if 0 ≤ e then ((2 ^ e.toNat : Nat) : Rat) else mkRat 1 (2 ^ (-e).toNat)

/-- The greatest `e` with `2^e ≤ q`, for positive `q`. -/
def ilog2 (q : Rat) : Int :=
  let e : Int := (Nat.log2 q.num.toNat : Int) - (Nat.log2 q.den : Int)
  if q < pow2 e then e - 1 else e

/-- Whether a magnitude between `k` and `k+1`, at remainder `num/den` past `k`, rounds up to `k+1`
in the mode; `neg` is the sign of the value (R55). -/
def roundsUp (mode : Mode) (neg : Bool) (k num den : Nat) : Bool :=
  match mode with
  | .rne => decide (den < 2 * num) || (decide (2 * num = den) && k % 2 == 1)
  | .rz => false
  | .ru => decide (num ≠ 0) && !neg
  | .rd => decide (num ≠ 0) && neg

/-- A nonnegative rational rounded to an integer, with whether that was exact. -/
def roundMag (mode : Mode) (neg : Bool) (q : Rat) : Nat × Bool :=
  let n := q.num.toNat
  let k := n / q.den
  let r := n % q.den
  (if roundsUp mode neg k r q.den then k + 1 else k, r == 0)

/-- A rational rounded to an integer in the mode. -/
def roundInt (mode : Mode) (q : Rat) : Int :=
  if q < 0 then -((roundMag mode true (-q)).1 : Int) else (roundMag mode false q).1

/-- An extended real with signed zeros: what an encoding denotes and what a rule's expression has for
a value before its one rounding (R49, R57). -/
inductive XR where
  | nan
  | inf (neg : Bool)
  | fin (neg : Bool) (q : Rat)   -- `neg` is the sign of a zero; otherwise it agrees with `q`
  deriving DecidableEq, Repr

def XR.ofRat (q : Rat) : XR := .fin (decide (q < 0)) q
def XR.zero : XR := .fin false 0
def XR.one : XR := .fin false 1

def XR.isNaN : XR → Bool
  | .nan => true
  | _ => false
def XR.isFin : XR → Bool
  | .fin _ _ => true
  | _ => false
def XR.isZero : XR → Bool
  | .fin _ q => q == 0
  | _ => false
/-- The sign; false for a NaN. -/
def XR.sign : XR → Bool
  | .nan => false
  | .inf n => n
  | .fin n _ => n
def XR.rat : XR → Rat
  | .fin _ q => q
  | _ => 0

def XR.neg : XR → XR
  | .nan => .nan
  | .inf n => .inf (!n)
  | .fin n q => .fin (!n) (-q)

/-- The exact sum, its zero signed as R57 and R134 say. -/
def XR.add (mode : Mode) : XR → XR → XR
  | .nan, _ => .nan
  | _, .nan => .nan
  | .inf a, .inf b => if a == b then .inf a else .nan
  | .inf a, _ => .inf a
  | _, .inf b => .inf b
  | .fin a p, .fin b q =>
    if p = 0 ∧ q = 0 ∧ a = b then .fin a 0
    else if p + q = 0 then .fin (mode == .rd) 0
    else .ofRat (p + q)

def XR.sub (mode : Mode) (a b : XR) : XR := a.add mode b.neg

/-- The exact product: signs by exclusive-or, ∞·0 is NaN. -/
def XR.mul : XR → XR → XR
  | .nan, _ => .nan
  | _, .nan => .nan
  | .inf a, y => if y.isZero then .nan else .inf (a ^^ y.sign)
  | x, .inf b => if x.isZero then .nan else .inf (x.sign ^^ b)
  | .fin a p, .fin b q => .fin (a ^^ b) (p * q)

/-- The exact quotient; a nonzero value over zero is an infinity. -/
def XR.div : XR → XR → XR
  | .nan, _ => .nan
  | _, .nan => .nan
  | .inf _, .inf _ => .nan
  | .inf a, y => .inf (a ^^ y.sign)
  | x, .inf b => .fin (x.sign ^^ b) 0
  | .fin a p, .fin b q =>
    if q = 0 then (if p = 0 then .nan else .inf (a ^^ b)) else .fin (a ^^ b) (p / q)

/-- Numeric order, for values that are not NaN: −0 equals +0. -/
def XR.lt : XR → XR → Bool
  | .nan, _ => false
  | _, .nan => false
  | .inf a, .inf b => a && !b
  | .inf a, _ => a
  | _, .inf b => !b
  | .fin _ p, .fin _ q => decide (p < q)

def XR.eq : XR → XR → Bool
  | .nan, _ => false
  | _, .nan => false
  | .inf a, .inf b => a == b
  | .inf _, _ => false
  | _, .inf _ => false
  | .fin _ p, .fin _ q => decide (p = q)

/-- The value of an encoding (R49, R50). -/
def decodeF (f : Fmt) (w : Nat) : XR :=
  let s := w.testBit (f.ew + f.fw)
  let e := fld w (f.ew + f.fw - 1) f.fw
  let m := w % 2 ^ f.fw
  let top := 2 ^ f.ew - 1
  let sg (q : Rat) : XR := .fin s (if s then -q else q)
  if e = top && f.hasInf then (if m = 0 then .inf s else .nan)
  else if e = top && m = 2 ^ f.fw - 1 then .nan
  else if e = 0 then sg ((m : Rat) * pow2 f.minExp)
  else sg (((2 ^ f.fw + m : Nat) : Rat) * pow2 (f.minExp + (e : Int) - 1))

/-- Whether an encoding is a signalling NaN (R49; E4M3 has none, R50). -/
def isSNaN (f : Fmt) (w : Nat) : Bool :=
  (decodeF f w).isNaN && f.hasInf && !w.testBit (f.fw - 1)

/-- The canonical NaN (R52). -/
def canonNaN (f : Fmt) : Nat :=
  if f.hasInf then (2 ^ f.ew - 1) * 2 ^ f.fw + 2 ^ (f.fw - 1) else 2 ^ (f.ew + f.fw) - 1

def signBit (f : Fmt) (neg : Bool) : Nat := if neg then 2 ^ (f.ew + f.fw) else 0
def infEnc (f : Fmt) (neg : Bool) : Nat := signBit f neg + (2 ^ f.ew - 1) * 2 ^ f.fw
/-- The largest finite encoding (R48, R50). -/
def maxEnc (f : Fmt) (neg : Bool) : Nat :=
  signBit f neg + (if f.hasInf then (2 ^ f.ew - 1) * 2 ^ f.fw - 1 else 2 ^ (f.ew + f.fw) - 2)
def maxFinite (f : Fmt) : Rat := (decodeF f (maxEnc f false)).rat
def minNormal (f : Fmt) : Rat := pow2 (f.minExp + f.fw)

/-- The encoding of `m · 2^minExp`-multiples: a magnitude that is `k · 2^x` on the format's grid. -/
def encMag (f : Fmt) (k : Nat) (x : Int) : Nat :=
  -- `k < 2^(fw+1)` at exponent x ≥ minExp; `k = 2^(fw+1)` is a carry into the next binade
  let (k, x) := if k = 2 ^ (f.fw + 1) then (2 ^ f.fw, x + 1) else (k, x)
  if k < 2 ^ f.fw then k else (x - f.minExp + 1).toNat * 2 ^ f.fw + (k - 2 ^ f.fw)

/-- A finite nonzero rational rounded once to the format, with the flags of R58 and the overflow
results of R59. -/
def roundRat (f : Fmt) (mode : Mode) (q : Rat) : Nat × Flags :=
  if q = 0 then (0, {}) else
  let neg := decide (q < 0)
  let a := if neg then -q else q
  let e := ilog2 a
  let xu : Int := e - f.fw                                  -- last bit, exponent range unbounded
  let x : Int := if xu < f.minExp then f.minExp else xu     -- last bit on the format's grid
  let (ku, _) := roundMag mode neg (a * pow2 (-xu))
  let (k, exact) := roundMag mode neg (a * pow2 (-x))
  let unbounded : Rat := (ku : Rat) * pow2 xu
  if maxFinite f < unbounded then
    if f.hasInf then
      let toInf := match mode with
        | .rne => true
        | .rz => false
        | .ru => !neg
        | .rd => neg
      (if toInf then infEnc f neg else maxEnc f neg, { ovf := true, inx := true })
    else (maxEnc f neg, { ovf := true, inx := true, sat := true })
  else
    (signBit f neg + encMag f k x,
      { inx := !exact, unf := !exact && decide (unbounded < minNormal f) })

/-- An extended real rounded once to the format (R57-R59). -/
def roundX (f : Fmt) (mode : Mode) : XR → Nat × Flags
  | .nan => (canonNaN f, {})
  | .inf n => if f.hasInf then (infEnc f n, {}) else (maxEnc f n, { sat := true })
  | .fin n q => if q = 0 then (signBit f n, {}) else roundRat f mode q

/-- A real converted to a probability fraction (R54). -/
def q15 : XR → Nat
  | .nan => 0
  | .inf n => if n then 0 else 0x8000
  | .fin _ q =>
    let n := roundInt .rne (q * 32768)
    if n < 0 then 0 else if 0x8000 < n then 0x8000 else n.toNat

/-- An integer type of `w` bits. -/
structure ITy where
  w : Nat
  signed : Bool
  deriving DecidableEq, Repr

def ITy.lo (t : ITy) : Int := if t.signed then -(2 ^ (t.w - 1) : Nat) else 0
def ITy.hi (t : ITy) : Int := if t.signed then (2 ^ (t.w - 1) : Nat) - 1 else (2 ^ t.w : Nat) - 1
/-- The value of an encoding of the type (R53). -/
def ITy.val (t : ITy) (n : Nat) : Int :=
  let m := n % 2 ^ t.w
  if t.signed && m.testBit (t.w - 1) then (m : Int) - (2 ^ t.w : Nat) else m
/-- The encoding of an integer, modulo the width. -/
def ITy.enc (t : ITy) (i : Int) : Nat := (i % (2 ^ t.w : Nat)).toNat

/-- Float to integer (R59). -/
def toInteger (t : ITy) (mode : Mode) : XR → Nat × Flags
  | .nan => (0, { inv := true })
  | .inf n => (t.enc (if n then t.lo else t.hi), { sat := true, inv := true })
  | .fin _ q =>
    let i := roundInt mode q
    if i < t.lo then (t.enc t.lo, { sat := true, inv := true })
    else if t.hi < i then (t.enc t.hi, { sat := true, inv := true })
    else (t.enc i, { inx := decide ((i : Rat) ≠ q) })

/-- Conversion of one floating-point encoding to another format (R59): a signalling NaN raises
invalid (R52). -/
def convertF (src dst : Fmt) (mode : Mode) (w : Nat) : Nat × Flags :=
  let r := roundX dst mode (decodeF src w)
  (r.1, r.2.or { inv := isSNaN src w })

end Sys2Proof.Num
end

