-- ==== Sys2Proof/Machine/Blocks.lean ====
section
/-!
DEFINITION. Typed blocks: descriptors, element formats, and the scale rule (R61-R65).
-/

namespace Sys2Proof.Num

open Sys2Proof

/-- What an element of a format is. -/
inductive Elt where
  | raw
  | flt (f : Fmt)
  | int (t : ITy)
  deriving DecidableEq, Repr

/-- The element format of a code (R62); none for a reserved code. -/
def eltOf (fmt : Nat) : Option Elt :=
  match fmt with
  | 0x00 => some .raw
  | 0x01 => some (.flt e4m3)
  | 0x02 => some (.int ⟨8, true⟩)
  | 0x03 => some (.int ⟨8, false⟩)
  | 0x04 => some (.int ⟨4, true⟩)
  | 0x05 => some (.int ⟨4, false⟩)
  | 0x06 => some (.flt fp16)
  | 0x07 => some (.flt bf16)
  | 0x08 => some (.int ⟨16, true⟩)
  | 0x09 => some (.flt fp32)
  | 0x0A => some (.flt fp64)
  | _ => none

/-- Bits of an element; 0 for raw. -/
def Elt.width : Elt → Nat
  | .raw => 0
  | .flt f => f.width
  | .int t => t.w

/-- Elements in a block of 64 bytes (R62); 0 for raw. -/
def Elt.perBlock (e : Elt) : Nat := 512 / e.width

/-- The largest value that the scale rule admits (R62, R65). -/
def Elt.fmax : Elt → Rat
  | .raw => 0
  | .flt f => maxFinite f
  | .int t => t.hi

/-- Fields of a descriptor (R61). -/
def descFmt (d : Nat) : Nat := d % 256
def descScale (d : Nat) : Int := (⟨8, true⟩ : ITy).val (d / 256)
def descOf (fmt : Nat) (s : Int) : Nat := (⟨8, true⟩ : ITy).enc s * 256 + fmt

/-- Element i of a block's bytes, as an encoding of `w` bits: element 0 lowest (R53). -/
def eltEnc (w : Nat) (block : List Byte) (i : Nat) : Nat := leNat block / 2 ^ (w * i) % 2 ^ w

/-- The value of an element's encoding, and whether it is a signalling NaN. -/
def Elt.value (e : Elt) (enc : Nat) : XR × Bool :=
  match e with
  | .raw => (.zero, false)
  | .flt f => (decodeF f enc, isSNaN f enc)
  | .int t => (.ofRat (t.val enc), false)

/-- value·2^s (R64). -/
def XR.scale (s : Int) : XR → XR
  | .fin n q => .fin n (q * pow2 s)
  | x => x

/-- An exact value converted to an element (R59). -/
def Elt.convert (e : Elt) (mode : Mode) (x : XR) : Nat × Flags :=
  match e with
  | .raw => (0, {})
  | .flt f => roundX f mode x
  | .int t => toInteger t mode x

/-- The scale of a block (R65). -/
def blockScale (e : Elt) (fmt : Nat) (xs : List XR) : Int :=
  if fmt = 0x09 ∨ fmt = 0x0A then 0
  else
    let m := xs.foldl (fun m x => match x with
      | .fin _ q => let a := if q < 0 then -q else q; if m < a then a else m
      | _ => m) (0 : Rat)
    if m = 0 then 0
    else
      -- the least integer s with m ≤ Fmax·2^s
      let q := m / e.fmax
      let l := ilog2 q
      let s : Int := if pow2 l = q then l else l + 1
      if s < -128 then -128 else if 127 < s then 127 else s

/-- A block packed from values under the scale rule: its bytes, its descriptor and the flags of its
conversions (R65). -/
def packBlock (fmt : Nat) (mode : Mode) (xs : List XR) : List Byte × Nat × Flags :=
  match eltOf fmt with
  | none => ([], 0, {})
  | some e =>
    let s := blockScale e fmt xs
    let rs := xs.map fun x => e.convert mode (x.scale (-s))
    let n := rs.foldr (fun r acc => r.1 + 2 ^ e.width * acc) 0
    (leBytes 64 n, descOf fmt s, rs.foldl (fun f r => f.or r.2) {})

end Sys2Proof.Num
end

