-- ==== Sys2Proof/Machine/Real.lean ====
section
/-!
DEFINITION. Real functions: square root, 2^x, log2, sine, cosine and the logistic, as enclosures that
shrink with a precision, and the one rounding of their values (R57, R77, R151).  Sums of series are
formed in fixed point; each enclosure is widened by more than the truncations can amount to.
-/

namespace Sys2Proof.Num

/-- A real number: a rational known exactly, or enclosed ever more tightly as the precision grows. -/
inductive CReal where
  | exact (q : Rat)
  | approx (f : Nat → Rat × Rat)

/-- A rational multiple of a real. -/
def CReal.scale (c : Rat) : CReal → CReal
  | .exact q => .exact (c * q)
  | .approx f =>
    if c = 0 then .exact 0
    else .approx fun p =>
      let (lo, hi) := f p
      if c < 0 then (c * hi, c * lo) else (c * lo, c * hi)

/-- The precisions tried, in bits. -/
def precisions : List Nat := [64, 128, 256, 512, 1024, 2048, 4096, 8192, 16384]

/-- The first precision at which `g` gives both ends of the enclosure one image. -/
def settle {α : Type} [DecidableEq α] (f : Nat → Rat × Rat) (g : Rat → α) : List Nat → Option α
  | [] => none
  | p :: ps =>
    let (lo, hi) := f p
    if g lo = g hi then some (g lo) else settle f g ps

/-- A real mapped by a function that is constant on small enclosures of it. -/
def CReal.image {α : Type} [DecidableEq α] (x : CReal) (g : Rat → α) : Option α :=
  match x with
  | .exact q => some (g q)
  | .approx f => settle f g precisions

/-- `m / 2^p`, widened by `err` units on both sides. -/
def fixed (m : Int) (err p : Nat) : Rat × Rat :=
  (mkRat (m - err) (2 ^ p), mkRat (m + err) (2 ^ p))

/-- Σ u^(2k+1)/(2k+1) in fixed point, `u² = a2/b2`. -/
def atanhLoop : Nat → Nat → Nat → Nat → Nat → Nat → Nat
  | 0, _, _, _, _, acc => acc
  | fuel + 1, t, a2, b2, k, acc =>
    if t = 0 then acc else atanhLoop fuel (t * a2 / b2) a2 b2 (k + 1) (acc + t / (2 * k + 1))

/-- atanh(a/b)·2^p for 0 ≤ a/b ≤ 1/3, to within `4·p` units. -/
def atanhFix (p a b : Nat) : Nat := atanhLoop (p + 8) (a * 2 ^ p / b) (a * a) (b * b) 0 0

/-- Σ (−1)^k u^(2k+1)/(2k+1) in fixed point for u = 1/b. -/
def atanLoop : Nat → Nat → Nat → Nat → Int → Int
  | 0, _, _, _, acc => acc
  | fuel + 1, t, b2, k, acc =>
    if t = 0 then acc
    else atanLoop fuel (t / b2) b2 (k + 1)
      (if k % 2 = 0 then acc + (t / (2 * k + 1) : Nat) else acc - (t / (2 * k + 1) : Nat))

/-- π·2^p to within `64·p` units: Machin's formula. -/
def piFix (p : Nat) : Nat :=
  (16 * atanLoop (p + 8) (2 ^ p / 5) 25 0 0 - 4 * atanLoop (p + 8) (2 ^ p / 239) (239 * 239) 0 0).toNat

/-- ln 2 · 2^p to within `8·p` units. -/
def ln2Fix (p : Nat) : Nat := 2 * atanhFix p 1 3

/-- Σ y^n/n! in fixed point at precision p. -/
def expLoop : Nat → Nat → Nat → Nat → Nat → Nat → Nat
  | 0, _, _, _, _, acc => acc
  | fuel + 1, p, y, n, t, acc =>
    if t = 0 then acc else expLoop fuel p y (n + 1) (t * y / 2 ^ p / (n + 1)) (acc + t)

/-- exp(y/2^p)·2^p for 0 ≤ y < 2^p, to within `8·p` units of the given y. -/
def expFix (p y : Nat) : Nat := expLoop (p + 8) p y 0 (2 ^ p) 0

/-- Σ of the sine and cosine series in fixed point. -/
def sinCosLoop : Nat → Nat → Nat → Nat → Nat → Int → Int → Int × Int
  | 0, _, _, _, _, s, c => (s, c)
  | fuel + 1, p, r, n, t, s, c =>
    if t = 0 then (s, c)
    else
      let t' := t * r / 2 ^ p / (n + 1)
      match n % 4 with
      | 0 => sinCosLoop fuel p r (n + 1) t' s (c + t)
      | 1 => sinCosLoop fuel p r (n + 1) t' (s + t) c
      | 2 => sinCosLoop fuel p r (n + 1) t' s (c - t)
      | _ => sinCosLoop fuel p r (n + 1) t' (s - t) c

/-- Bits of the integer part of a nonnegative rational. -/
def intBits (q : Rat) : Nat := Nat.log2 (q.num.toNat / q.den) + 1

/-- Sine and cosine of a nonnegative rational. -/
def sinCos (q : Rat) (p0 : Nat) : (Rat × Rat) × (Rat × Rat) :=
  let b := intBits q
  let p := p0 + 64 + b
  let x := q.num.toNat * 2 ^ p / q.den
  let h := piFix p / 2
  let k := x / h
  let (s, c) := sinCosLoop (p + 8) p (x - k * h) 0 (2 ^ p) 0 0
  let err := 2 ^ b * (128 * p)
  let (sn, cs) := match k % 4 with
    | 0 => (s, c)
    | 1 => (c, -s)
    | 2 => (-s, -c)
    | _ => (-c, s)
  (fixed sn err p, fixed cs err p)

/-- sin x. -/
def sinR (q : Rat) : CReal :=
  if q = 0 then .exact 0
  else .approx fun p =>
    if q < 0 then
      let (lo, hi) := (sinCos (-q) p).1
      (-hi, -lo)
    else (sinCos q p).1

/-- cos x. -/
def cosR (q : Rat) : CReal :=
  if q = 0 then .exact 1 else .approx fun p => (sinCos (if q < 0 then -q else q) p).2

/-- ln 2 enclosed. -/
def ln2Enc (p : Nat) : Rat × Rat := fixed (ln2Fix (p + 32)) (8 * (p + 32)) (p + 32)

/-- The reciprocal of a positive enclosure. -/
def invEnc (e : Rat × Rat) : Rat × Rat := (e.2⁻¹, e.1⁻¹)
/-- The product of two nonnegative enclosures. -/
def mulEnc (a b : Rat × Rat) : Rat × Rat := (a.1 * b.1, a.2 * b.2)

/-- 2^x enclosed.  Beyond ±20,000 every format has long overflowed or vanished, and the power of two
next to it serves. -/
def exp2Enc (q : Rat) (p0 : Nat) : Rat × Rat :=
  if 20000 ≤ q then (pow2 20000, pow2 20001)
  else if q ≤ -20000 then (pow2 (-20001), pow2 (-20000))
  else
    let p := p0 + 64
    let n := q.floor
    let f := q - n
    let y := f.num.toNat * ln2Fix p / f.den
    let (lo, hi) := fixed (expFix p y) (64 * p) p
    (lo * pow2 n, hi * pow2 n)

/-- 2^x: exact for an integer x. -/
def exp2R (q : Rat) : CReal :=
  if q.den = 1 ∧ -20000 < q ∧ q < 20000 then .exact (pow2 q.num) else .approx (exp2Enc q)

/-- ln 2 · 2^x. -/
def ln2Exp2R (q : Rat) : CReal := .approx fun p => mulEnc (ln2Enc (p + 64)) (exp2Enc q p)

/-- 1/ln 2. -/
def invLn2R : CReal := .approx fun p => invEnc (ln2Enc p)

/-- log2 x for positive x: exact for a power of two. -/
def log2R (q : Rat) : CReal :=
  let e := ilog2 q
  let m := q * pow2 (-e)
  if m = 1 then .exact e
  else
    let u := (m - 1) / (m + 1)
    .approx fun p0 =>
      let p := p0 + 64
      let l := fixed (2 * atanhFix p u.num.toNat u.den) (16 * p) p
      let r := mulEnc l (invEnc (fixed (ln2Fix p) (8 * p) p))
      ((e : Rat) + r.1, (e : Rat) + r.2)

/-- The integer square root, bit by bit from bit `b`. -/
def sqrtLoop : Nat → Nat → Nat → Nat
  | 0, _, r => r
  | b + 1, n, r =>
    let r' := r + 2 ^ b
    sqrtLoop b n (if r' * r' ≤ n then r' else r)

/-- ⌊√n⌋. -/
def isqrt (n : Nat) : Nat := sqrtLoop (Nat.log2 n / 2 + 1) n 0

/-- √x for nonnegative x: exact when it is rational. -/
def sqrtR (q : Rat) : CReal :=
  let a := isqrt q.num.toNat
  let b := isqrt q.den
  if a * a = q.num.toNat ∧ b * b = q.den then .exact (mkRat a b)
  else .approx fun p0 =>
    let p := p0 + Nat.log2 q.den + 8
    let r := isqrt (q.num.toNat * 4 ^ p / q.den)
    (mkRat r (2 ^ p), mkRat (r + 1) (2 ^ p))

/-- The reciprocal of a positive real. -/
def CReal.inv : CReal → CReal
  | .exact q => .exact q⁻¹
  | .approx f => .approx fun p => invEnc (f p)

/-- e^(−y) enclosed, for nonnegative y. -/
def expNegEnc (y : Rat) (p0 : Nat) : Rat × Rat :=
  if 5000 < y then (0, pow2 (-5000))
  else
    let p := p0 + 64 + intBits y
    let l := ln2Fix p
    let x := y.num.toNat * 2 ^ p / y.den
    let n := x / l
    let (lo, hi) := fixed (expFix p (x - n * l)) (2 ^ intBits y * (64 * p)) p
    (pow2 (-n) * hi⁻¹, pow2 (-n) * lo⁻¹)

/-- The logistic σ(z) (R151). -/
def sigmaR (z : Rat) : CReal :=
  if z = 0 then .exact (1 / 2)
  else .approx fun p =>
    let (lo, hi) := expNegEnc (if z < 0 then -z else z) p
    if z < 0 then (lo / (1 + lo), hi / (1 + hi)) else (1 / (1 + hi), 1 / (1 + lo))

/-- σ(z)·(1 − σ(z)) (R151), which grows with e^(−|z|) up to 1, where it is 1/4. -/
def sigmaSlopeR (z : Rat) : CReal :=
  if z = 0 then .exact (1 / 4)
  else .approx fun p =>
    let (lo, hi) := expNegEnc (if z < 0 then -z else z) p
    (lo / ((1 + lo) * (1 + lo)), if 1 < hi then 1 / 4 else hi / ((1 + hi) * (1 + hi)))

/-- A real rounded once, with its flags (R57); the free value where the enclosures do not settle. -/
def roundC (fn : Nat) (key : Nat) (f : Fmt) (mode : Mode) (x : CReal) : Nat × Flags :=
  (x.image (roundRat f mode)).getD ((Config.unresolved fn key 0).toNat % 2 ^ f.width, { inx := true })

/-- A real rounded once where flags do not matter: a tangent (R58).  A zero takes the sign given. -/
def roundCT (fn : Nat) (key : Nat) (f : Fmt) (mode : Mode) (x : CReal) (zeroNeg : Bool) : Nat :=
  match x with
  | .exact q => if q = 0 then signBit f zeroNeg else (roundRat f mode q).1
  | .approx _ =>
    (x.image fun q => if q = 0 then signBit f zeroNeg else (roundRat f mode q).1).getD
      ((Config.unresolved fn key 1).toNat % 2 ^ f.width)

/-- Whether a real is negative. -/
def CReal.isNeg (x : CReal) : Bool := (x.image fun q => decide (q < 0)).getD false

end Sys2Proof.Num
end

