-- ==== Sys2Proof/Machine/FloatFun.lean ====
section
/-!
DEFINITION. The floating-point functions of R134-R138 on encodings: their primals under each
numeric-behaviour version (R76-R79, R429) and their tangents, which no version changes.
-/

namespace Sys2Proof.Num

/-- The functions of R134 and R135. -/
inductive FFun where
  | fma | add | sub | mul | min | max | abs | neg | div | rcp | rsq | sqrt | exp2 | log2 | sin | cos
  | floor | ceil | rnd | frac
  deriving DecidableEq, Repr

/-- The number by which a free value names a function (log 7). -/
def FFun.num : FFun → Nat
  | .rsq => 9
  | .sqrt => 10
  | .exp2 => 11
  | .log2 => 12
  | .sin => 13
  | .cos => 14
  | _ => 0

/-- An operand: its encoding, its value, whether it is a signalling NaN, and its tangents. -/
structure FOp where
  enc : Nat
  x : XR
  snan : Bool
  tan : List XR
  deriving Repr

def FOp.zero : FOp := ⟨0, .zero, false, []⟩
/-- Tangent k of an operand. -/
def FOp.t (o : FOp) (k : Nat) : XR := o.tan.getD k .zero

/-- Whether an encoding is a NaN. -/
def isNaNEnc (f : Fmt) (w : Nat) : Bool := (decodeF f w).isNaN

/-! ### The version-1 evaluations (R79) -/

/-- FP32 values, rounded by RNE. -/
def r32 (q : Rat) : Rat := (decodeF fp32 (roundRat fp32 .rne q).1).rat
def fma32 (a b c : Rat) : Rat := r32 (a * b + c)
def f32Of (e : Nat) : Rat := (decodeF fp32 e).rat

/-- round(c, FP32, RNE) of (ln 2)^k / k!, k = 1..6. -/
def expCoeffs : List Rat := [0x3F317218, 0x3E75FDF0, 0x3D635847, 0x3C1D955B, 0x3AAEC3FF, 0x39218489].map f32Of
/-- of 2/((2j+1)·ln 2), j = 0..4. -/
def logCoeffs : List Rat := [0x4038AA3B, 0x3F76384F, 0x3F13BB63, 0x3ED30BB1, 0x3EA4258A].map f32Of
/-- of (−1)^j/(2j+1)!, j = 1..5. -/
def sinCoeffs : List Rat := [0xBE2AAAAB, 0x3C088889, 0xB9500D01, 0x3638EF1D, 0xB2D7322B].map f32Of
/-- of (−1)^j/(2j)!, j = 1..6. -/
def cosCoeffs : List Rat := [0xBF000000, 0x3D2AAAAB, 0xBAB60B61, 0x37D00D01, 0xB493F27E, 0x310F76C7].map f32Of

/-- Horner's scheme with FP32 fused steps, from the last coefficient to the first. -/
def horner32 (z : Rat) (cs : List Rat) : Rat :=
  match cs.reverse with
  | [] => 0
  | h :: r => r.foldl (fun acc c => fma32 acc z c) h

/-- x·2/π rounded to an integer, ties to even. -/
def quadrant (q : Rat) : Option Int :=
  if q = 0 then some 0
  else
    (CReal.approx fun p0 =>
      let p := p0 + 64
      let (lo, hi) := fixed (piFix p) (64 * p) p
      if q < 0 then (2 * q / lo, 2 * q / hi) else (2 * q / hi, 2 * q / lo)).image (roundInt .rne)

/-- x − k·π/2. -/
def reduced (q : Rat) (k : Int) : CReal :=
  if k = 0 then .exact q
  else .approx fun p0 =>
    let p := p0 + 64
    let (lo, hi) := fixed (piFix p) (64 * p) p
    if 0 < k then (q - k * hi / 2, q - k * lo / 2) else (q - k * lo / 2, q - k * hi / 2)

/-- What the last step of a version-1 evaluation rounds; none where R79 gives none, so that the form
behaves as under version 3. -/
def last1 (f : FFun) (mode : Mode) (q : Rat) : Option Rat :=
  match f with
  | .rsq =>
    let r := decodeF fp32 (roundC f.num 0 fp32 .rne (sqrtR q)).1
    some (1 / r.rat)
  | .exp2 =>
    let n := roundInt .rne q
    let h := horner32 (q - n) expCoeffs
    let y := decodeF fp32 (roundRat fp32 mode (h * (q - n) + 1)).1
    some (y.rat * pow2 n)
  | .log2 =>
    let e0 := ilog2 q
    let m0 := q * pow2 (-e0)
    let (m, e) : Rat × Int := if 2 ≤ m0 * m0 then (m0 / 2, e0 + 1) else (m0, e0)
    let s := r32 ((m - 1) / (m + 1))
    let h := horner32 (r32 (s * s)) logCoeffs
    some ((e : Rat) + r32 (s * h))
  | .sin | .cos =>
    (quadrant q).bind fun k =>
    ((reduced q k).image (fun x => (roundRat fp32 .rne x).1)).map fun ae =>
      let a := f32Of ae
      let z := r32 (a * a)
      let h := horner32 z sinCoeffs
      let w := r32 (a * z)
      let v := horner32 z cosCoeffs
      let sv := h * w + a
      let cv := v * z + 1
      let j := (k % 4).toNat
      match f == .sin, j with
      | true, 0 => sv
      | true, 1 => cv
      | true, 2 => -sv
      | true, _ => -cv
      | false, 0 => cv
      | false, 1 => -sv
      | false, 2 => -cv
      | false, _ => sv
  | _ => none

/-- The range in which R79 evaluates under version 1; outside it every version takes the version-3
result (R137). -/
def inRange1 (f : FFun) (q : Rat) : Bool :=
  match f with
  | .exp2 => decide (-151 ≤ q ∧ q < 129)
  | _ => true

/-- A finite nonzero case of one of the eight functions that %nbv changes: `v` is the exact value at
the operand `q` (R77-R79, R429). -/
def approximated (f : FFun) (key : Nat) (fmt : Fmt) (mode : Mode) (nbv : Nat) (q : Rat) (v : CReal) : Nat × Flags :=
  if fmt = fp64 || nbv == 3 || !inRange1 f q then roundC f.num key fmt mode v
  else
    let first : Option Rat := if nbv = 1 then last1 f mode q else none
    if nbv = 1 && first.isNone && fmt = fp32 then roundC f.num key fmt mode v
    else
      -- the value that FP32's last step rounds, then FP32's result
      let x : XR :=
        if nbv = 1 then
          match first with
          | some r => .ofRat r
          | none => decodeF fp32 (roundC f.num key fp32 mode v).1
        else decodeF fp64 (roundC f.num key fp64 .rne v).1
      let lastV : XR := if fmt = fp32 || (nbv == 1 && first.isNone) then x else decodeF fp32 (roundX fp32 mode x).1
      let r := roundX fmt mode lastV
      let y := decodeF fmt r.1
      let inx : Bool := match v with
        | .exact e => !(y.isFin && y.rat == e)
        | .approx _ => true
      let tiny := y.isFin && !(y.rat == 0) && decide ((if y.rat < 0 then -y.rat else y.rat) < minNormal fmt)
      (r.1, { inx := inx, unf := inx && tiny, ovf := r.2.ovf || lastV.isFin == false })

/-! ### Primals -/

/-- Whether the first of two operands is below the second in the order of R136: −0 below +0. -/
def below (a b : XR) : Bool := a.lt b || (a.eq b && a.sign && !b.sign)

/-- The operand that FMIN or FMAX returns (R136); none when both are NaN. -/
def chosen (f : FFun) (a b : FOp) : Option FOp :=
  if a.x.isNaN && b.x.isNaN then none
  else if a.x.isNaN then some b
  else if b.x.isNaN then some a
  else if f == .min then some (if below b.x a.x then b else a)
  else some (if below a.x b.x then b else a)

/-- The greatest integer at or below a rational, the least at or above it. -/
def floorQ (q : Rat) : Int := roundInt .rd q
def ceilQ (q : Rat) : Int := roundInt .ru q

/-- An integer that a form cut from a value: it keeps the sign of the operand's zero (R136). -/
def cut (fmt : Fmt) (x : XR) (g : Rat → Int) : Nat :=
  match x with
  | .nan => canonNaN fmt
  | .inf n => infEnc fmt n
  | .fin n q =>
    let i := g q
    if i = 0 then signBit fmt n else (roundRat fmt .rne i).1

/-- One rounding of an exact value (R57), with the invalid flag of R58. -/
def arith (fmt : Fmt) (mode : Mode) (xs : List FOp) (r : XR) : Nat × Flags :=
  let e := roundX fmt mode r
  (e.1, e.2.or { inv := (r.isNaN && !xs.any fun o => o.x.isNaN) || xs.any fun o => o.snan })

/-- The primal of a function (R133-R138).  FFRAC of a nonzero integer gives +0 in every mode (log 47). -/
def fprim (f : FFun) (fmt : Fmt) (mode : Mode) (nbv : Nat) (xs : List FOp) : Nat × Flags :=
  let a := xs.getD 0 .zero
  let b := xs.getD 1 .zero
  let c := xs.getD 2 .zero
  let inv : Bool := xs.any fun o => o.snan
  let nan : Nat × Flags := (canonNaN fmt, { inv := inv })
  let invalid : Nat × Flags := (canonNaN fmt, { inv := true })
  let pole (n : Bool) : Nat × Flags := (infEnc fmt n, { dvz := true })
  let plain (x : XR) : Nat × Flags := ((roundX fmt mode x).1, {})
  let key := a.enc + 2 ^ 64 * b.enc
  match f with
  | .fma => arith fmt mode xs ((a.x.mul b.x).add mode c.x)
  | .add => arith fmt mode xs (a.x.add mode b.x)
  | .sub => arith fmt mode xs (a.x.sub mode b.x)
  | .mul => arith fmt mode xs (a.x.mul b.x)
  | .min | .max =>
    match chosen f a b with
    | some o => (o.enc, { inv := inv })
    | none => nan
  | .abs => (a.enc % 2 ^ (fmt.width - 1), {})
  | .neg => (a.enc ^^^ 2 ^ (fmt.width - 1), {})
  | .floor => (cut fmt a.x floorQ, { inv := inv })
  | .ceil => (cut fmt a.x ceilQ, { inv := inv })
  | .rnd => (cut fmt a.x (roundInt mode), { inv := inv })
  | .frac =>
    match a.x with
    | .nan => nan
    | .inf _ => invalid
    | .fin _ q => roundRat fmt mode (q - floorQ q)
  | .div =>
    match a.x, b.x with
    | .nan, _ => nan
    | _, .nan => nan
    | .inf _, .inf _ => invalid
    | .inf n, y => plain (.inf (n ^^ y.sign))
    | x, .inf n => plain (.fin (x.sign ^^ n) 0)
    | .fin n p, .fin m q =>
      if q = 0 then (if p = 0 then invalid else pole (n ^^ m))
      else if p = 0 then plain (.fin (n ^^ m) 0)
      else approximated f key fmt mode nbv p (.exact (p / q))
  | .rcp =>
    match a.x with
    | .nan => nan
    | .inf n => plain (.fin n 0)
    | .fin n q => if q = 0 then pole n else approximated f key fmt mode nbv q (.exact (1 / q))
  | .rsq =>
    match a.x with
    | .nan => nan
    | .inf n => if n then invalid else plain .zero
    | .fin n q =>
      if q = 0 then pole n else if q < 0 then invalid
      else approximated f key fmt mode nbv q (sqrtR q).inv
  | .sqrt =>
    match a.x with
    | .nan => nan
    | .inf n => if n then invalid else plain (.inf false)
    | .fin n q =>
      if q = 0 then plain (.fin n 0) else if q < 0 then invalid else approximated f key fmt mode nbv q (sqrtR q)
  | .exp2 =>
    match a.x with
    | .nan => nan
    | .inf n => if n then plain .zero else plain (.inf false)
    | .fin _ q => approximated f key fmt mode nbv q (exp2R q)
  | .log2 =>
    match a.x with
    | .nan => nan
    | .inf n => if n then invalid else plain (.inf false)
    | .fin _ q =>
      if q = 0 then pole true else if q < 0 then invalid else if q = 1 then plain .zero
      else approximated f key fmt mode nbv q (log2R q)
  | .sin =>
    match a.x with
    | .nan => nan
    | .inf _ => invalid
    | .fin n q => if q = 0 then plain (.fin n 0) else approximated f key fmt mode nbv q (sinR q)
  | .cos =>
    match a.x with
    | .nan => nan
    | .inf _ => invalid
    | .fin _ q => approximated f key fmt mode nbv q (cosR q)

/-! ### Tangents -/

/-- tx·c for a real factor c with sign `cneg`, rounded once; the IEEE value where tx is not finite (R133,
R57). -/
def linear (f : FFun) (key : Nat) (fmt : Fmt) (mode : Mode) (tx : XR) (c : CReal) (cneg : Bool) : Nat :=
  match tx with
  | .nan => canonNaN fmt
  | .inf n =>
    match c with
    | .exact q => if q = 0 then canonNaN fmt else infEnc fmt (n ^^ cneg)
    | .approx _ => infEnc fmt (n ^^ cneg)
  | .fin n q => roundCT f.num key fmt mode (c.scale q) (n ^^ cneg)

/-- A tangent at a pole: 0 when tx = 0, otherwise an infinity (R137). -/
def atPole (fmt : Fmt) (tx : XR) (negative : Bool) : Nat :=
  match tx with
  | .nan => canonNaN fmt
  | x => if x.isZero then 0 else infEnc fmt negative

/-- A tangent that is 0 when tx is finite and NaN otherwise (R137). -/
def zeroIfFin (fmt : Fmt) (tx : XR) : Nat := if tx.isFin then 0 else canonNaN fmt

/-- Tangent k of a function whose primal is not NaN (R135-R138). -/
def ftan (f : FFun) (fmt : Fmt) (mode : Mode) (xs : List FOp) (k : Nat) : Nat :=
  let a := xs.getD 0 .zero
  let b := xs.getD 1 .zero
  let c := xs.getD 2 .zero
  let ta := a.t k
  let tb := b.t k
  let tc := c.t k
  let rnd (x : XR) : Nat := (roundX fmt mode x).1
  let key := a.enc + 2 ^ 64 * (k + 1)
  let nanT := canonNaN fmt
  match f with
  | .fma => rnd (((a.x.mul tb).add mode (ta.mul b.x)).add mode tc)
  | .add => rnd (ta.add mode tb)
  | .sub => rnd (ta.sub mode tb)
  | .mul => rnd ((a.x.mul tb).add mode (ta.mul b.x))
  | .min | .max =>
    match chosen f a b with
    | some o => rnd (o.t k)
    | none => nanT
  | .abs => if a.x.isZero then 0 else rnd (if a.x.sign then ta.neg else ta)
  | .neg => rnd ta.neg
  | .floor | .ceil | .rnd => 0
  | .frac => rnd ta
  | .div =>
    match a.x, b.x with
    | .fin n p, .fin _ q =>
      if q = 0 ∧ p ≠ 0 then
        (if ta.isNaN then nanT else atPole fmt tb (!(n ^^ tb.sign)))
      else rnd (((ta.mul b.x).sub mode (a.x.mul tb)).div (b.x.mul b.x))
    | .fin _ _, .inf _ =>
      if ta.isFin && tb.isFin then 0
      else rnd (((ta.mul b.x).sub mode (a.x.mul tb)).div (b.x.mul b.x))
    | _, _ => rnd (((ta.mul b.x).sub mode (a.x.mul tb)).div (b.x.mul b.x))
  | .rcp =>
    match a.x with
    | .inf _ => zeroIfFin fmt ta
    | x => if x.isZero then atPole fmt ta (!ta.sign) else rnd (ta.neg.div (x.mul x))
  | .rsq =>
    match a.x with
    | .fin _ q =>
      if q = 0 then atPole fmt ta (!ta.sign)
      else linear f key fmt mode ta.neg ((sqrtR q).inv.scale (1 / (2 * q))) false
    | _ => zeroIfFin fmt ta
  | .sqrt =>
    match a.x with
    | .fin _ q =>
      if q = 0 then atPole fmt ta false else linear f key fmt mode ta ((sqrtR q).inv.scale (1 / 2)) false
    | _ => zeroIfFin fmt ta
  | .exp2 =>
    match a.x with
    | .fin _ q => linear f key fmt mode ta (ln2Exp2R q) false
    | .inf true => if ta.isFin then 0 else nanT
    | x => rnd (ta.mul x)
  | .log2 =>
    match a.x with
    | .fin n q =>
      if q = 0 then atPole fmt ta (ta.sign ^^ n)
      else linear f key fmt mode ta (invLn2R.scale (1 / q)) false
    | _ => zeroIfFin fmt ta
  | .sin =>
    let c := cosR a.x.rat
    linear f key fmt mode ta c c.isNeg
  | .cos =>
    let s := sinR a.x.rat
    linear f key fmt mode ta.neg s (if a.x.isZero then a.x.sign else s.isNeg)

end Sys2Proof.Num
end

