-- ==== Sys2Proof/Machine/State.lean ====
section
/-!
DEFINITION. The state of the device, as plain data: threads and their home lanes, groups in issue
slots, crews, grids, the engines, memory, the partitions, the host's side and the module; and the
state right after reset.
-/

namespace Sys2Proof.Machine

open Sys2Proof

/-- Words at numbered places in canonical form: places strictly rising, no entry zero; a place that
is not listed reads zero. -/
abbrev Sparse (w : Nat) := List (Nat × BitVec w)

/-- Bytes of memory at addresses, `Host.Cell`s in the canonical form of `Sparse`. -/
abbrev Memory := List Host.Cell

/-- A V or Q register: its primal word and its T tangent words (R103, R129). -/
structure Reg where
  prim : Word
  tan : List Word
  deriving DecidableEq, Repr

/-- An operand as read, or a latch entry: up to 64 bits with tangents (R88, R129).  In a narrow value
`bits` and each tangent lie below 2^32. -/
structure Val where
  wide : Bool
  bits : Dword
  tan : List Dword
  deriving DecidableEq, Repr

/-- An open region's record (R174, R186, R164). -/
structure Region where
  marker : BitVec 56
  vq : BitVec 14
  qp : BitVec 4
  depth : Nat
  key : Dword
  ctr : Dword
  deriving DecidableEq, Repr

/-- A thread's trap record (R361). -/
structure TrapRec where
  code : BitVec 4
  cause : BitVec 4
  nest : Bool
  held : Bool
  addr : BitVec 56
  deriving DecidableEq, Repr

/-- A pending-wait record (R256, R321, R355). -/
inductive PendWait where
  | barSyn (bar : Nat) (token : Word)
  | gbar (bar : Nat) (token : Word)
  | mbPut (addr : BitVec 56) (ticket : Word)
  | mbTake (addr : BitVec 56) (ticket : Word)
  | trace (rec : Nat)
  | tracep (count rec : Nat)
  deriving DecidableEq, Repr

/-- What a parked thread waits for (R34, R45). -/
inductive Park where
  /-- an entry of the fault buffer; the access's address (R204, R361) -/
  | fault (addr : Nat) (write : Bool)
  /-- a free entry of the fault buffer (R205) -/
  | faultFull (addr : Nat) (write : Bool)
  /-- a window access that cannot yet be applied (R198) -/
  | window
  | mask (m : Nat)
  /-- its entry stands among the monitors -/
  | monitor
  | barrier (bar : Nat) (token : Word)
  /-- a put or take of a ticket; the scope of its release or acquire (R259) -/
  | mailbox (addr : BitVec 56) (ticket : Word) (put : Bool) (msg : Dword) (d scope : Nat)
  | copyQueue
  | tile (i : Nat)
  | matrixTable
  | matrixEntry
  | rayUnit (slots : Nat)
  | trace (d : Nat)
  | joiner
  | geyser (addr : Nat)
  | launchQueue (q : Nat)
  | reprojQueue
  deriving DecidableEq, Repr

/-- Where a thread stands between launch and exit. -/
inductive RunState where
  /-- ready, with its ready number (R34) -/
  | ready (n : Nat)
  /-- becomes ready when the cycle ends; in a Joiner batch, its place in the batch (R34, R177) -/
  | waking (block : Option Nat)
  /-- between runs with long-latency results outstanding (R34) -/
  | waiting
  | running
  | parked (p : Park)
  /-- trapped, and not yet held: its outstanding writes have still to arrive (R359, R363) -/
  | trapping
  | held
  /-- saved by a pre-emption, with the trap record and the waits of its record (R41) -/
  | saved
  deriving DecidableEq, Repr

/-- A window access that is held for its thread (R198).  It stands for the window access of the resumed execution
that comes as many window accesses after the marker as it did, where that one forms the same address, and does so each
time the thread resumes at that marker; where the execution forms another address, and at a later marker, it is
dropped. -/
structure HeldAccess where
  addr : Nat
  write : Bool
  data : Dword
  result : Option Dword
  /-- the marker that its thread last resumed at has executed again -/
  resumed : Bool
  /-- window accesses of the thread before it, since its marker -/
  index : Nat
  deriving DecidableEq, Repr

/-- A thread (R22, R103, R172, R237). -/
structure Thread where
  tid : Nat
  /-- the program counter: while the thread is parked, the bundle it parked at -/
  pc : BitVec 56
  /-- the word a parked thread continues at once its wait is over -/
  cont : BitVec 56
  flags : BitVec 6
  stack : List Dword
  depth : Nat
  run : RunState
  region : Option Region
  pendWait : Option PendWait
  trap : Option TrapRec
  /-- window accesses held for it since its marker, the newest first (R198) -/
  held : List HeldAccess
  /-- window accesses since the last marker (R198; the model's own count) -/
  windows : Nat
  interval : Word
  acquired : List (BitVec 26 × Word)
  pendPair : Option (BitVec 26 × Word)
  deriving DecidableEq, Repr

/-- Who holds a home lane (R27). -/
inductive Occupant where
  | never
  | exited (tid : Nat)
  | thread (t : Thread)
  deriving DecidableEq, Repr

/-- One home lane of a home group: register-file columns, stream state and occupant (R24, R159). -/
structure Lane where
  v : List Reg
  q : List Reg
  key : Dword
  ctr : Dword
  occ : Occupant
  deriving DecidableEq, Repr

/-- A numbered barrier (R251); `cnt` none while unset, `some 0` for LIVE. -/
structure Barrier where
  phase : Word
  pend : Nat
  cnt : Option Nat
  gang : Bool
  deriving DecidableEq, Repr

/-- A thread in a Joiner batch (R175). -/
structure Gathered where
  lane : Nat
  target : BitVec 56
  key : BitVec 16
  live : Nat
  deriving DecidableEq, Repr

/-- A Joiner batch (R176). -/
structure Batch where
  opened : Nat
  threads : List Gathered
  deriving DecidableEq, Repr

/-- What the device keeps of a queued copy command beside its 32 bytes (R268, R269). -/
structure QMeta where
  xqn : Bool
  /-- marked for TILE-STATE -/
  refusedTile : Bool
  /-- the destination tile's state before the commit -/
  dstBefore : BitVec 2
  /-- the core's counter at the commit -/
  committed : Dword
  /-- issuing thread's identity, interval and bundle, for Plumb (R237, R239) -/
  wid : BitVec 26
  interval : Word
  pc : BitVec 56
  deriving DecidableEq, Repr

/-- A weight region (R293). -/
structure WRegion where
  granule : Nat
  fmt : Nat
  tr : Bool
  rows : Nat
  cols : Nat
  adr : BitVec 56
  dk : BitVec 3
  rowb : Nat
  valid : Bool
  /-- the compressed blocks, in row order -/
  data : List Byte
  deriving DecidableEq, Repr

/-- A pre-emption under way (R41, R390). -/
structure Preempt where
  /-- the core's counter at the request -/
  since : Nat
  area : Option (BitVec 56)
  forced : Bool
  /-- the 4,096 cycles have passed -/
  timedOut : Bool
  /-- the request waits for an address -/
  asked : Bool
  /-- the grid is being removed: its save area is discarded (R337) -/
  discard : Bool
  deriving DecidableEq, Repr

/-- Where a crew stands (R333, R342). -/
inductive CrewStatus where
  | distributed
  | resident
  /-- placed again, and not yet restored (R356) -/
  | resuming
  | released
  deriving DecidableEq, Repr

/-- A crew (R22, R25, R103). -/
structure Crew where
  grid : Nat
  num : Nat
  /-- its gang, an index into the gangs -/
  gang : Nat
  /-- the launch packet (R335) -/
  packet : BitVec 512
  part : Nat
  queue : Nat
  status : CrewStatus
  core : Nat
  cslot : Nat
  lanes : List Lane
  /-- the lanes at the end of the previous cycle (R198) -/
  lanesOld : List Lane
  /-- mask Mk of home group h at 12·h + k -/
  masks : List (BitVec 16)
  u : List Dword
  uOld : List Dword
  temp : Word
  tempOld : Word
  mode : BitVec 8
  scratch : Memory
  tiles : List Dword
  tilesOld : List Dword
  bars : List Barrier
  /-- metadata of line n (R279) -/
  accMeta : Sparse 64
  /-- slot i of line n at 256·n + i (R280) -/
  accSlots : Sparse 64
  regions : List WRegion
  queueMeta : List QMeta
  batch : Option Batch
  /-- closed batches whose moves are not complete -/
  moving : List Batch
  preempt : Option Preempt
  saveArea : Option (BitVec 56)
  deriving DecidableEq, Repr

/-- What a lane of a group holds (R35). -/
inductive LaneKind where
  | empty
  | inactive
  | helper
  | active
  /-- its thread trapped or parked in this run (R33) -/
  | gone
  deriving DecidableEq, Repr

structure LaneRef where
  kind : LaneKind
  place : Nat
  deriving DecidableEq, Repr

/-- The hints gathered for the next target (R90, R94). -/
structure Bundle where
  first : Option (BitVec 56)
  himm : List (BitVec 24)
  himmLast : Bool
  sel : Option (Bool × BitVec 5)
  grd : Option (Bool × BitVec 3)
  rnd : Option (BitVec 2)
  scp : Option (BitVec 2)
  cch : Option (BitVec 2)
  sch : Option (BitVec 8)
  deriving DecidableEq, Repr

def Bundle.empty : Bundle := ⟨none, [], false, none, none, none, none, none, none⟩

/-- A group in an issue slot (R22, R31, R32). -/
structure Group where
  crew : Nat
  /-- address of its next word -/
  addr : BitVec 56
  /-- words of the run executed so far (R29) -/
  count : Nat
  lanes : List LaneRef
  /-- latch entries of each lane, newest first -/
  latch : List (List Val)
  bundle : Bundle
  deriving DecidableEq, Repr

/-- What a leaf entry says of a page (R190, R193). -/
structure Page where
  /-- physical address of the byte asked for; of die 0's copy for a replicated page -/
  pa : Nat
  typed : Bool
  replicated : Bool
  /-- exponent e and tangent count DT of a dual page -/
  dual : Option (Nat × Nat)
  w : Bool
  x : Bool
  priv : Bool
  /-- a page of 2 MiB -/
  big : Bool
  deriving DecidableEq, Repr

/-- What a resolved fault delivers for one block of 64 bytes (R205). -/
structure Fill where
  /-- virtual address div 64 -/
  block : Nat
  /-- the translation of the block's first byte -/
  page : Page
  /-- for a read: the block, its descriptor, and the block as an instruction fetch sees it (R82) -/
  bytes : List Byte
  desc : BitVec 16
  code : List Byte
  deriving DecidableEq, Repr

/-- A parked thread or stopped ray on an entry of the fault buffer. -/
structure FaultWaiter where
  /-- its lane, or its ray key -/
  key : Nat
  addr : Nat
  /-- it met W = 0, and not V = 0 (R190, R206) -/
  prot : Bool
  deriving DecidableEq, Repr

/-- A translation or write-protection fault of a crew on a page (R205). -/
structure FaultEntry where
  crew : Nat
  /-- the page's virtual address div 65,536, and its units of 64 KiB -/
  page : Nat
  span : Nat
  write : Bool
  waiters : List FaultWaiter
  /-- what the resolution delivered: the blocks of the parked accesses -/
  fill : Option (List Fill)
  deriving DecidableEq, Repr

/-- A thread, a ray or a dual traversal that waits for ray slots (R300, R320, R328): once they are its own, the thread
executes its word at `pc` again, and the others enter the unit. -/
structure UnitWait where
  crew : Nat
  /-- its lane, its ray key, or its dual traversal's key -/
  lane : Nat
  slots : Nat
  pc : BitVec 56
  granted : Bool
  deriving DecidableEq, Repr

/-- A thread or ray that waits for a free entry of the fault buffer (R205). -/
structure FaultWait where
  crew : Nat
  /-- its lane, or its ray key -/
  key : Nat
  addr : Nat
  write : Bool
  /-- it met W = 0, and not V = 0 -/
  prot : Bool
  deriving DecidableEq, Repr

/-- A core (R13, R34, R202, R300). -/
structure Core where
  lclk : Dword
  /-- the last slot that executed a word in the current cycle -/
  lastSlot : Option Nat
  slots : List (Option Group)
  readyNext : Nat
  /-- no crew is placed on it any more (R396) -/
  withdrawn : Bool
  /-- withdrawn, and no crew is left on it (R390) -/
  retired : Bool
  faults : List FaultEntry
  /-- threads and rays that wait for a fault-buffer entry, in order -/
  faultQueue : List FaultWait
  /-- threads, rays and dual traversals that wait for ray slots, in order -/
  unitQueue : List UnitWait
  deriving DecidableEq, Repr

/-- A long-latency result on its way (R31, R202, R208). -/
structure Arrival where
  crew : Nat
  lane : Nat
  /-- registers to write -/
  writes : List (Nat × Reg)
  flags : BitVec 6
  /-- the word it belongs to, among those of its core in flight -/
  word : Nat
  /-- the 64-byte blocks whose requests return with it; lanes of one word share a block's request (R202) -/
  blocks : List Nat
  deriving DecidableEq, Repr

/-- A write through a KIND 1 window that its owner's core applies at the end of a cycle (R198). -/
structure RegWrite where
  crew : Nat
  lane : Nat
  /-- V register, or Q register r - C -/
  r : Nat
  /-- 0 for the primal, k + 1 for tangent k -/
  j : Nat
  word : Word
  deriving DecidableEq, Repr

/-- A 32-bit word that an engine reaches: physical memory (every copy of a replicated page), a scratchpad,
word j of a register, or half of a tile entry or of an accumulator slot. -/
inductive Place where
  | mem (pa : Nat) (rep : Bool)
  | pad (crew off : Nat)
  | reg (crew lane r j : Nat)
  | tile (crew i : Nat) (hi : Bool)
  | slot (crew i : Nat) (hi : Bool)
  deriving DecidableEq, Repr

/-- A copy in flight (R269, R272). -/
structure CopyOp where
  cluster : Nat
  part : Nat
  crew : Option Nat
  /-- the Scribe node it runs for: (graph, node) -/
  node : Option (Nat × Nat)
  cmd : BitVec 256
  info : QMeta
  /-- the fault it is held on was declared unresolvable -/
  refused : Bool
  stampRefused : Bool
  /-- an XQN's payload has left, with these flags of its conversion (R276) -/
  sent : Option (BitVec 6)
  /-- status and flags, once the data has moved and only the stamp is owed (R274) -/
  outcome : Option (Nat × BitVec 6)
  /-- words that operations in flight had written at its start (R231) -/
  since : Nat
  deriving DecidableEq, Repr

/-- The kinds of reservation-table entries (R285, R297). -/
inductive MKind where
  | mma | wload | fin | clr | accsv | accld
  deriving DecidableEq, Repr

/-- An entry of a matrix engine's reservation table (R288-R290). -/
structure MEntry where
  num : Nat
  crew : Nat
  /-- the parked thread's lane, for ACCSV and ACCLD -/
  lane : Option Nat
  node : Option (Nat × Nat)
  kind : MKind
  block : BitVec 512
  tileA : Dword
  tileB : Dword
  nbv : Nat
  /-- address, first line and line count, for ACCSV and ACCLD -/
  addr : BitVec 56
  first : Nat
  count : Nat
  /-- the scope of ACCSV and ACCLD (R297) -/
  scope : Nat
  /-- passes run -/
  passes : Nat
  /-- passes granted to others while it was eligible -/
  waited : Nat
  flags : BitVec 6
  /-- the operands' descriptors, read before the first pass (R294) -/
  descA : List (BitVec 16)
  descB : List (BitVec 16)
  /-- issuing thread's identity, interval and bundle, for Plumb (R237, R239) -/
  wid : BitVec 26
  interval : Word
  pc : BitVec 56
  refused : Bool
  stampRefused : Bool
  /-- its status, once only the stamp is owed (R294) -/
  outcome : Option Nat
  /-- words that operations in flight had written at its start (R231) -/
  since : Nat
  deriving DecidableEq, Repr

/-- A reprojection operation (R331). -/
structure ReprojOp where
  crew : Nat
  block : BitVec 512
  /-- the fault it is held on was declared unresolvable -/
  refused : Bool
  /-- status and flags, once only the stamp is owed -/
  outcome : Option (Nat × BitVec 6)
  wid : BitVec 26
  interval : Word
  pc : BitVec 56
  /-- words that operations in flight had written at its start (R231) -/
  since : Nat
  deriving DecidableEq, Repr

/-- A cluster's engines (R12, R269, R289, R331). -/
structure Cluster where
  /-- the crew that the copy engine looks at first -/
  copyNext : Nat
  entryNext : Nat
  entries : List MEntry
  /-- the entry that was granted the next pass -/
  granted : Option Nat
  matrixQueue : List (Nat × Nat)
  reproj : List ReprojOp
  /-- threads that wait for an entry of the reprojection unit's queue, in order (R331) -/
  reprojQueue : List UnitWait
  spares : Nat
  withdrawn : Bool
  /-- withdrawn, and no crew is left on its cores (R390) -/
  retired : Bool
  deriving DecidableEq, Repr

/-- Trap codes (R357). -/
inductive Trap where
  | illegalInstruction | illegalOperand | staleLatch | staleWindow | rejoinCycle
  | dependentPredicate | dataRace | fault (cause : Nat) | misaligned | resource | engineStatus | brk
  deriving DecidableEq, Repr

/-- What a ray does first in the unit (R314, R315, R322, R323). -/
inductive RayBegin where
  | start
  | walk
  /-- decide the candidate, and complete the leaf step: 0 TRES, 1 TRES.acc, 2 TRES.term -/
  | leaf (form : Nat)
  /-- write the log record whose write was pending -/
  | pending
  /-- begin a replay -/
  | replay
  /-- the next log record -/
  | replayNext
  deriving DecidableEq, Repr

/-- A ray that TRACE, TRACEP or TRES named (R300, R305, R320). -/
structure Ray where
  crew : Nat
  lane : Nat
  off : Nat
  /-- the unit's copy of the record -/
  record : BitVec 1024
  log : Nat
  inUnit : Bool
  /-- a translation fault that stopped its walk: the address, and that of the node, record or log record accessed -/
  faultAt : Option (Nat × Nat)
  /-- it ended so that its thread will trap, with this address -/
  failed : Option (Trap × Nat)
  packet : Bool
  begin : RayBegin
  /-- the issuing thread's interval when it took the ray, for Plumb (R237) -/
  interval : Word
  /-- words that operations in flight had written when the ray was taken (R231) -/
  since : Nat
  deriving DecidableEq, Repr

/-- A dual traversal (R324-R328). -/
structure XPairOp where
  crew : Nat
  off : Nat
  /-- the unit's copy of the pair record -/
  record : BitVec 1024
  inUnit : Bool
  /-- it set BUSY -/
  busy : Bool
  started : Bool
  /-- the fault it is held on was declared unresolvable -/
  refused : Bool
  /-- its status, once its walk is over -/
  outcome : Option Nat
  /-- its record stands in the scratchpad, and only the stamp is owed -/
  saved : Bool
  wid : BitVec 26
  interval : Word
  pc : BitVec 56
  /-- words that operations in flight had written when its walk began (R231) -/
  since : Nat
  deriving DecidableEq, Repr

/-- A parked MWAIT's watch on its block (R247, R249, R250). -/
structure Monitor where
  crew : Nat
  lane : Nat
  /-- the crew whose scratchpad holds the word; none for global memory -/
  pad : Option Nat
  /-- offset or physical address of the word -/
  place : Nat
  wide : Bool
  any : Bool
  acq : Bool
  expect : Dword
  d : Nat
  /-- the address the thread gave, and the scope of the acquire -/
  va : Nat
  scope : Nat
  /-- the word's value at the write that completed the wait -/
  got : Option Dword
  deriving DecidableEq, Repr

/-- A gang (R26, R333, R339). -/
structure Gang where
  grid : Nat
  index : Nat
  crews : List Nat
  die : Nat
  order : Nat
  passed : Nat
  placed : Bool
  started : Bool
  deriving DecidableEq, Repr

/-- Where a grid stands (R333, R337, R345). -/
inductive GridStatus where
  | waiting | live | done | refused | removed
  /-- it no longer fits a degraded device: its crews leave, and its stamp will report NOFIT (R21, R337) -/
  | nofit
  deriving DecidableEq, Repr

/-- A grid: a launch packet that the device has taken (R335). -/
structure Grid where
  packet : BitVec 512
  /-- its place among the packets taken -/
  order : Nat
  queue : Nat
  part : Nat
  /-- the Scribe node that launched it: (graph, node) -/
  node : Option (Nat × Nat)
  status : GridStatus
  /-- crews distributed so far -/
  nextCrew : Nat
  /-- memory as its instruction fetches see it: as it stood when the launch was placed (R82) -/
  code : Memory
  deriving DecidableEq, Repr

/-- Where a graph node stands (R348, R349). -/
inductive NodeState where
  | idle | running | waitCrew
  /-- its result has arrived: a STATUS of R273 or R337 -/
  | ended (status : Nat)
  | done | failed (status : Nat)
  deriving DecidableEq, Repr

/-- A Scribe task graph (R346-R349). -/
structure Graph where
  packet : BitVec 512
  /-- its place among the packets taken -/
  order : Nat
  queue : Nat
  part : Nat
  die : Nat
  started : Bool
  nodes : List NodeState
  failed : Option (Nat × Nat)
  done : Bool
  deriving DecidableEq, Repr

/-- An entry of a partition's binding table (R246). -/
structure Binding where
  object : Nat
  base : Nat
  len : Nat
  grid : Nat
  deriving DecidableEq, Repr

/-- A peer's registration on a device word (R378). -/
structure PeerReg where
  target : BitVec 56
  mirror : BitVec 56
  rsq : BitVec 16
  deriving DecidableEq, Repr

/-- A partition: its context of 128 bytes (R389) and what the device keeps for it. -/
structure Partition where
  ctx : BitVec 1024
  up : Bool
  bindings : List Binding
  peerRegs : List PeerReg
  /-- records in its Plumb log ring (R239, log 12) -/
  logged : Nat
  /-- the job identifier of packets for it (R375, R378) -/
  job : BitVec 32
  /-- the digest of its image, and that of the owner key that Sprinow holds for it (R387, R399) -/
  image : BitVec 512
  owner : Option (BitVec 512)
  deriving DecidableEq, Repr

/-- A virtual function of the host link (R19, R373, R374). -/
structure Vf where
  id : Nat
  /-- the partition it is assigned to (R388) -/
  part : Option Nat
  /-- waiters in effect: (word, vector) -/
  waiters : List (BitVec 56 × BitVec 6)
  full : Bool
  /-- the queues of its doorbell slots, in order (R373, R388) -/
  slots : List Nat
  deriving DecidableEq, Repr

/-- A message for a command of a communicator that this rank has not taken yet (R381). -/
structure CollEarly where
  part : Nat
  comm : Nat
  seq : Nat
  rank : Nat
  msg : CollMsg
  deriving DecidableEq, Repr

/-- A collective under way at this rank (R379-R384). -/
structure CollOp where
  part : Nat
  ring : Nat
  cmd : BitVec 512
  /-- which command of its communicator it is, from 0 (R381) -/
  seq : Nat
  rank : Nat
  ranks : Nat
  /-- messages received: (rank, message) -/
  inbox : List (Nat × CollMsg)
  /-- this rank's node value, once formed -/
  value : Option (List Word)
  flags : BitVec 6
  sent : Bool
  /-- the root value, once this rank holds it -/
  root : Option (List Word)
  /-- ranks that this rank declared failed, or was told of -/
  failed : List Nat
  /-- its status, once only the stamp is owed -/
  outcome : Option Nat
  /-- a fault that holds it was declared unresolvable -/
  refused : Bool
  /-- words that operations in flight had written when it was taken (R231) -/
  since : Nat
  deriving DecidableEq, Repr

/-- A counter of corrected soft errors (R395). -/
structure SoftCount where
  unit : HwUnit
  window : Nat
  count : Nat
  addrs : List Nat
  deriving DecidableEq, Repr

/-- The module's states (R391). -/
inductive ModState where
  | starting | operational | degraded | failed
  deriving DecidableEq, Repr

/-- The training record in module flash, by its digest, and its signature (R392, R393). -/
structure Training where
  digest : BitVec 512
  sig : BitVec 4096
  deriving DecidableEq, Repr

/-- The module (R391-R400). -/
structure Module where
  state : ModState
  sf : Nat
  cf : Nat
  /-- the next start must be cold (R394, R400) -/
  coldNext : Bool
  /-- tripped: stopped at once, until the next start (R400) -/
  tripped : Bool
  svc : Bool
  retired : Nat
  soft : Nat
  counts : List SoftCount
  l2MB : Nat
  memGB : Nat
  /-- the arithmetic clock in steps of 940/16 MHz -/
  clock : Nat
  /-- 64 KiB pages withdrawn at the next start, and those withdrawn (R396) -/
  pagesDue : List Nat
  pagesOut : List Nat
  scribesOut : List Nat
  /-- L2 slices that are retired: (die, slice) (R396) -/
  slicesOut : List (Nat × Nat)
  record : Option Training
  /-- the digests of the firmware images that run: boot, Sprinow and six RV32E (R392, R399) -/
  firmware : List (BitVec 512)
  /-- the partitions whose contexts the last start rejected (R389) -/
  rejected : List Nat
  /-- a start that has begun and not reached step 6: whether it is a cold one (R392, R394) -/
  underWay : Option Bool
  deriving DecidableEq, Repr

/-- How a packet leaves the device (R375-R378): the ports it may use, the peer, and the job that keeps partitions
apart. -/
structure Route where
  ports : BitVec 12
  peer : BitVec 32
  job : BitVec 32
  deriving DecidableEq, Repr

/-- What leaves the device (R363, R372, R374, R377, R378, R382, R398, R399). -/
inductive Output where
  | msix (vf vector : Nat)
  | hostData (bytes : List Byte)
  | hostPoison
  | regst (v : Dword)
  /-- a read of a reserved offset of BAR0 (R373) -/
  | bar0 (v : Dword)
  /-- bytes for an address of the peer's virtual space, and the completion word there, 0 for none (R377) -/
  | payload (via : Route) (addr remc : BitVec 56) (bytes : List Byte)
  /-- a control message, and the send queue it left by (R378) -/
  | control (via : Route) (sq : Nat) (bytes : List Byte)
  | ack (ok : Bool)
  /-- a wake over a send queue, where it still names a control queue (R378) -/
  | wake (via : Option Route) (rsq : BitVec 16) (mirror : BitVec 56) (v : Dword)
  /-- a message of a communicator's command `seq`, to a rank, over the send queue that PEERS names for it (R379,
  R382) -/
  | coll (via : Option Route) (comm seq rank : Nat) (msg : CollMsg)
  | service
  | report (nonce : BitVec 512) (digests : List (BitVec 512)) (identity : BitVec 256) (health : BitVec 32)
      (sig : BitVec 4096)
  deriving DecidableEq, Repr

/-- A checkpoint in a safe tier (R385). -/
structure Tier where
  tier : Dword
  part : Option Nat
  mem : Memory
  desc : Sparse 16
  /-- the device's crews, gangs, grids, graphs and rays as they stood; those it covers resume from it -/
  crews : List Crew
  gangs : List Gang
  grids : List Grid
  graphs : List Graph
  rays : List Ray
  /-- the binding tables of the partitions (R246) -/
  bindings : List (List Binding)
  deriving DecidableEq, Repr

/-- How system software resolves a held thread (R364). -/
inductive HeldAction where
  | resume
  | enter (h : BitVec 56)
  | finish
  | abort
  deriving DecidableEq, Repr

/-- An action on a held thread that waits until its crew's pre-emption or resumption completes (R364). -/
structure TrapAction where
  crew : Nat
  lane : Nat
  act : HeldAction
  deriving DecidableEq, Repr

/-- What moves next: a slot's group executes its next word, a core's cycle ends, or another step of
the device is taken (log 2). -/
inductive Turn where
  | word (core slot : Nat)
  | endCycle (core : Nat)
  | event (i : Instr)
  deriving DecidableEq, Repr

/-- The device. -/
structure State where
  /-- the turns to come; when empty, the model picks one (log 2) -/
  agenda : List Turn
  /-- the core and slot whose word executes -/
  cur : Nat × Nat
  cores : List Core
  clusters : List Cluster
  crews : List Crew
  gangs : List Gang
  grids : List Grid
  graphs : List Graph
  arrivals : List Arrival
  /-- register writes through windows that are still to be applied (R198) -/
  regWrites : List RegWrite
  copies : List CopyOp
  /-- the words that engine operations have written, in order, each with the mark of its operation: what R231 leaves
  open among operations in flight (log 6; the model's own) -/
  moves : List (Nat × Place)
  rays : List Ray
  xpairs : List XPairOp
  monitors : List Monitor
  colls : List CollOp
  /-- commands taken, by 64·partition + communicator, and messages for commands not yet taken (R381) -/
  collSeqs : Sparse 64
  collEarly : List CollEarly
  /-- collective rings, by partition and number, whose TAIL was written at .dev or wider and not looked at since; and
  the last TAIL that the unit saw, by 16·partition + ring (R380) -/
  rung : List (Nat × Nat)
  tails : Sparse 64
  /-- actions on held threads that wait (R364) -/
  trapActions : List TrapAction
  /-- physical memory (R189-R192) -/
  mem : Memory
  /-- memory as a launch placed now would fetch it: without the stores of running code that no release at .sys has
  followed (R82) -/
  codeMem : Memory
  /-- block descriptors of the sideband, by physical address div 64 (R61, R191) -/
  desc : Sparse 16
  /-- poisoned 64-byte blocks, by physical address div 64, rising (R397) -/
  poison : List Nat
  /-- generations of the crew slots, at 256·core + slot (R196) -/
  gens : Sparse 8
  /-- queue descriptors (R332) -/
  queues : Sparse 512
  /-- the queue that each priority level serves next (R333) -/
  robin : List Nat
  orderNext : Nat
  parts : List Partition
  vfs : List Vf
  module : Module
  tiers : List Tier
  /-- units that retire when their core's cycle ends (R395) -/
  retiring : List HwUnit
  out : List Output
  /-- the model's own counter of free values (log 6) -/
  free : Nat
  deriving DecidableEq, Repr

/-- The reasons a step may stop. -/
inductive Fault where
  /-- Raised by a word's meaning when no group holds the current issue slot or its crew is not
  resident: `step` never asks for that, since a word turn without a group idles.  SAFE: the model
  stops where the hardware has nothing to execute. -/
  | noGroup
  deriving DecidableEq, Repr

/-- The reasons an instruction may have no meaning. -/
inductive Refusal where
  /-- An instruction that the model gives no meaning yet; raised by its arm of `exec`.  SAFE. -/
  | notModelled (mnemonic : String)
  deriving DecidableEq, Repr

/-- A core after reset: nothing runs; its counter starts at an arbitrary value (R368), here 0 (log 3). -/
def Core.reset : Core :=
  ⟨0, none, List.replicate 8 none, 0, false, false, [], [], []⟩

/-- A cluster's engines after reset: idle, no spare column used (R14). -/
def Cluster.reset : Cluster := ⟨0, 0, [], none, [], [], [], 0, false, false⟩

/-- The module after reset: starting (R391), at its full clock and complete (R21). -/
def Module.reset : Module :=
  ⟨.starting, 0, 0, false, false, false, 0, 0, [], 512, 576, 16, [], [], [], [], none, [], [], none⟩

/-- The 256 virtual functions before a start assigns them (R19, R388). -/
def Vf.unassigned : List Vf := (List.range 256).map fun v => ⟨v, none, [], false, []⟩

/-- The device right after reset: the module is starting and accepts no work (R391); no partition is
up, no crew exists, memory lists nothing. -/
def State.reset : State where
  agenda := []
  cur := (0, 0)
  cores := List.replicate 256 Core.reset
  clusters := List.replicate 64 Cluster.reset
  crews := []
  gangs := []
  grids := []
  graphs := []
  arrivals := []
  regWrites := []
  copies := []
  moves := []
  rays := []
  xpairs := []
  monitors := []
  colls := []
  collSeqs := []
  collEarly := []
  rung := []
  tails := []
  trapActions := []
  mem := []
  codeMem := []
  desc := []
  poison := []
  gens := []
  queues := []
  robin := List.replicate 8 0
  orderNext := 0
  parts := []
  vfs := Vf.unassigned
  module := Module.reset
  tiers := []
  retiring := []
  out := []
  free := 0

end Sys2Proof.Machine
end

