-- ==== Sys2Proof/Machine/Sparse.lean ====
section
/-!
DEFINITION. Operations on sparse canonical memories, and the fields of a launch packet (R335) and of
a partition context (R389).
-/

namespace Sys2Proof.Machine

open Sys2Proof

/-- What an unlisted place reads as: zero (log 4). -/
def Sparse.unlisted (w : Nat) : BitVec w := 0

/-- The word at a place. -/
def Sparse.get {w : Nat} : Sparse w → Nat → BitVec w
  | [], _ => Sparse.unlisted w
  | (b, v) :: r, a => if a = b then v else if a < b then Sparse.unlisted w else Sparse.get r a

/-- The word at a place replaced, keeping the canonical form. -/
def Sparse.set {w : Nat} : Sparse w → Nat → BitVec w → Sparse w
  | [], a, v => if v = Sparse.unlisted w then [] else [(a, v)]
  | (b, x) :: r, a, v =>
    if a < b then (if v = Sparse.unlisted w then (b, x) :: r else (a, v) :: (b, x) :: r)
    else if a = b then (if v = Sparse.unlisted w then r else (a, v) :: r)
    else (b, x) :: Sparse.set r a v

/-- The canonical form: places strictly rising, no entry at what an unlisted place reads as. -/
def Sparse.wf {w : Nat} : Sparse w → Bool
  | [] => true
  | (a, v) :: r => decide (v ≠ Sparse.unlisted w) && r.all (fun x => decide (a < x.1)) && Sparse.wf r

/-- The canonical form of a byte memory. -/
def Memory.wf (m : Memory) : Bool := Sparse.wf m
/-- One byte of memory. -/
def Memory.byte (m : Memory) (a : Nat) : Byte := Sparse.get m a
def Memory.setByte (m : Memory) (a : Nat) (v : Byte) : Memory := Sparse.set m a v

/-- `n` bytes from address `a` on. -/
def Memory.read (m : Memory) : Nat → Nat → List Byte
  | _, 0 => []
  | a, n + 1 => m.byte a :: Memory.read m (a + 1) n

/-- Bytes stored from address `a` on. -/
def Memory.write (m : Memory) : Nat → List Byte → Memory
  | _, [] => m
  | a, b :: bs => Memory.write (m.setByte a b) (a + 1) bs

/-- The little-endian number of `n` bytes (R2). -/
def Memory.nat (m : Memory) (a n : Nat) : Nat := leNat (m.read a n)

/-- Bits `hi:lo` of a structure. -/
def bitsOf {n : Nat} (w : BitVec n) (hi lo : Nat) : Nat := fld w.toNat hi lo

/-- A structure with bits `hi:lo` replaced. -/
def setBits {n : Nat} (w : BitVec n) (hi lo : Nat) (x : Nat) : BitVec n :=
  let k := hi + 1 - lo
  BitVec.ofNat n (w.toNat - (fld w.toNat hi lo) * 2 ^ lo + (x % 2 ^ k) * 2 ^ lo)

/-- Fields of a launch packet (R335). -/
def pktC (p : BitVec 512) : Nat := 8 * (bitsOf p 75 73 + 1)
def pktT (p : BitVec 512) : Nat := [0, 1, 2, 4, 8].getD (bitsOf p 72 70) 0
def pktUC (p : BitVec 512) : Nat := bitsOf p 69 64
/-- Threads of each crew (R23). -/
def pktN (p : BitVec 512) : Nat := bitsOf p 103 94 + 1
/-- Home groups of each crew (R23). -/
def pktH (p : BitVec 512) : Nat := (pktN p + 15) / 16
def pktGang (p : BitVec 512) : Nat := bitsOf p 93 86 + 1
def pktNcrew (p : BitVec 512) : Nat := bitsOf p 127 104
def pktScr (p : BitVec 512) : Nat := bitsOf p 191 172
/-- Copy-queue slots: 0 or 2^LQN (R260). -/
def pktQN (p : BitVec 512) : Nat := if bitsOf p 171 168 = 0 then 0 else 2 ^ bitsOf p 171 168
/-- Offset of the copy-queue area (R260). -/
def pktQB (p : BitVec 512) : Nat := roundUp (pktScr p) 64
/-- The scratchpad allocation: declared bytes and queue area, in granules of 4 KiB (R260). -/
def pktAlloc (p : BitVec 512) : Nat :=
  roundUp (if pktQN p = 0 then pktScr p else pktQB p + 32 * (pktQN p + 1)) 4096
def pktTiles (p : BitVec 512) : Nat := bitsOf p 167 159
def pktBars (p : BitVec 512) : Nat := bitsOf p 158 152
def pktMon (p : BitVec 512) : Nat := bitsOf p 151 143
def pktAccum (p : BitVec 512) : Nat := bitsOf p 142 130
def pktWbuf (p : BitVec 512) : Nat := bitsOf p 255 247
def pktMode (p : BitVec 512) : BitVec 8 := BitVec.ofNat 8 (bitsOf p 246 239)
/-- The initial %temp; -0 counts as +0, since %temp never holds -0 (R148). -/
def pktTemp (p : BitVec 512) : Word :=
  if bitsOf p 223 192 = 0x80000000 then 0 else BitVec.ofNat 32 (bitsOf p 223 192)
def pktSalt (p : BitVec 512) : Dword := BitVec.ofNat 64 (bitsOf p 319 256)
def pktUinit (p : BitVec 512) : Nat := bitsOf p 375 320
def pktStamp (p : BitVec 512) : Nat := bitsOf p 439 384
def pktSeq (p : BitVec 512) : Nat := bitsOf p 511 480
def pktKind (p : BitVec 512) : Nat := bitsOf p 63 60
def pktRsc (p : BitVec 512) : Nat := bitsOf p 59 58
def pktPrs (p : BitVec 512) : Bool := bitAt p.toNat 57
def pktWaitp (p : BitVec 512) : Bool := bitAt p.toNat 56
def pktEntry (p : BitVec 512) : BitVec 56 := BitVec.ofNat 56 (bitsOf p 55 0)
def pktLat (p : BitVec 512) : Nat := bitsOf p 77 76
/-- The dies a grid may use; 0x00 means all (R335). -/
def pktDies (p : BitVec 512) : List Nat :=
  (List.range 8).filter fun d => bitsOf p 85 78 = 0 || (bitsOf p 85 78).testBit d
/-- Words of the register file that a thread occupies (R106). -/
def pktW (p : BitVec 512) : Nat := (pktC p + 8) * (1 + pktT p)
/-- Register granules of a crew (R106, R107). -/
def pktGranules (p : BitVec 512) : Nat := pktH p * (pktW p / 8)

def Crew.c (cr : Crew) : Nat := pktC cr.packet
def Crew.t (cr : Crew) : Nat := pktT cr.packet
def Crew.uc (cr : Crew) : Nat := pktUC cr.packet
def Crew.alloc (cr : Crew) : Nat := pktAlloc cr.packet
def Crew.resident (cr : Crew) : Bool := cr.status == .resident
/-- Whether a crew holds a core's resources. -/
def Crew.onCore (cr : Crew) : Bool := cr.status == .resident || cr.status == .resuming
/-- Whether `[a, a+n)` meets the crew's copy-queue area (R260). -/
def Crew.meetsQueue (cr : Crew) (a n : Nat) : Bool :=
  let qn := pktQN cr.packet
  let qb := pktQB cr.packet
  decide (qn ≠ 0 ∧ a < qb + 32 * (qn + 1) ∧ qb < a + n)

/-- Byte fields of a partition context (R389). -/
def Partition.at (p : Partition) (byte n : Nat) : Nat := bitsOf p.ctx (8 * (byte + n) - 1) (8 * byte)
def Partition.setAt (p : Partition) (byte n v : Nat) : Partition :=
  { p with ctx := setBits p.ctx (8 * (byte + n) - 1) (8 * byte) v }
def Partition.root (p : Partition) : Nat := p.at 0 7
def Partition.nbv (p : Partition) : Nat := if p.at 98 1 = 0 then 3 else p.at 98 1
/-- The clusters a partition owns (R389). -/
def Partition.owns (p : Partition) (cluster : Nat) : Bool := (p.at 8 8).testBit cluster

/-- Die of a core, and cluster of a core among the device's 64 (R12). -/
def dieOf (core : Nat) : Nat := core / 32
def clusterOf (core : Nat) : Nat := core / 4

end Sys2Proof.Machine
end

