-- ==== Sys2Proof/Machine/Ops.lean ====
section
/-!
DEFINITION. The named operations over the state: crews, lanes, threads and groups; becoming ready,
parking, waking; taking a trap and returning from one (R33-R40, R204, R359-R367).
-/

namespace Sys2Proof.Machine

open Sys2Proof

/-- The outcomes of a step. -/
abbrev Out := Host.Outcome State Fault Refusal

namespace State

def core (s : State) (c : Nat) : Core := s.cores.getD c Core.reset
def updCore (s : State) (c : Nat) (f : Core → Core) : State := { s with cores := s.cores.modify c f }
def cluster (s : State) (k : Nat) : Cluster := s.clusters.getD k Cluster.reset
def updCluster (s : State) (k : Nat) (f : Cluster → Cluster) : State :=
  { s with clusters := s.clusters.modify k f }
def updCrew (s : State) (i : Nat) (f : Crew → Crew) : State := { s with crews := s.crews.modify i f }
def updPart (s : State) (i : Nat) (f : Partition → Partition) : State :=
  { s with parts := s.parts.modify i f }
def updGrid (s : State) (i : Nat) (f : Grid → Grid) : State := { s with grids := s.grids.modify i f }
def updGang (s : State) (i : Nat) (f : Gang → Gang) : State := { s with gangs := s.gangs.modify i f }
def updGraph (s : State) (i : Nat) (f : Graph → Graph) : State := { s with graphs := s.graphs.modify i f }
def emit (s : State) (o : Output) : State := { s with out := o :: s.out }

/-- The core that a crew has. -/
def coreOf (s : State) (ci : Nat) : Nat := (s.crews[ci]?.map fun cr => cr.core).getD 0

def lane? (s : State) (ci li : Nat) : Option Lane := s.crews[ci]?.bind fun cr => cr.lanes[li]?
def updLane (s : State) (ci li : Nat) (f : Lane → Lane) : State :=
  s.updCrew ci fun cr => { cr with lanes := cr.lanes.modify li f }

/-- The group in an issue slot. -/
def group? (s : State) (c k : Nat) : Option Group := ((s.core c).slots[k]?).join
def updGroup (s : State) (c k : Nat) (f : Group → Group) : State :=
  s.updCore c fun co => { co with slots := co.slots.modify k (Option.map f) }
def clearSlot (s : State) (c k : Nat) : State :=
  s.updCore c fun co => { co with slots := co.slots.set k none }

/-- The group whose word executes. -/
def curGroup? (s : State) : Option Group := s.group? s.cur.1 s.cur.2

/-- A fresh free value's number (log 6). -/
def takeFree (s : State) : Nat × State := (s.free, { s with free := s.free + 1 })

end State

/-- The thread that holds a lane, if one does. -/
def Lane.thread? (l : Lane) : Option Thread :=
  match l.occ with
  | .thread t => some t
  | _ => none

def Lane.updThread (l : Lane) (f : Thread → Thread) : Lane :=
  match l.occ with
  | .thread t => { l with occ := .thread (f t) }
  | _ => l

def Reg.zero (t : Nat) : Reg := ⟨0, List.replicate t 0⟩
def Lane.getV (l : Lane) (r : Nat) : Reg := l.v.getD r ⟨0, []⟩
def Lane.getQ (l : Lane) (r : Nat) : Reg := l.q.getD r ⟨0, []⟩
def Lane.setV (l : Lane) (r : Nat) (x : Reg) : Lane := { l with v := l.v.set r x }
def Lane.setQ (l : Lane) (r : Nat) (x : Reg) : Lane := { l with q := l.q.set r x }

/-- The %tid a lane shows: its thread's, in a helper as R28 says. -/
def Lane.tid (l : Lane) (place : Nat) : Nat :=
  match l.occ with
  | .never => place
  | .exited t => t
  | .thread t => t.tid

/-- The live threads of a crew: launched and not exited (R184). -/
def Crew.live (cr : Crew) : Nat := (cr.lanes.filter fun l => l.thread?.isSome).length

namespace State

def thread? (s : State) (ci li : Nat) : Option Thread := (s.lane? ci li).bind Lane.thread?
def updThread (s : State) (ci li : Nat) (f : Thread → Thread) : State :=
  s.updLane ci li fun l => l.updThread f

/-- Long-latency results outstanding for a lane (R34, R359); a prefetch writes no register. -/
def outstanding (s : State) (ci li : Nat) : Bool :=
  s.arrivals.any fun a => a.crew == ci && a.lane == li && !a.writes.isEmpty

/-- A thread between runs: it becomes ready when the cycle ends, or once its outstanding results have
arrived (R34, R166). -/
def wake (s : State) (ci li : Nat) (pc : BitVec 56) : State :=
  s.updThread ci li fun t =>
    { t with pc := pc, run := if s.outstanding ci li then .waiting else .waking none }

/-- A parked thread continues at the word after its wait (R182, R249, R253). -/
def wakeCont (s : State) (ci li : Nat) : State :=
  s.updThread ci li fun t =>
    { t with pc := t.cont, pendWait := none,
             run := if s.outstanding ci li then .waiting else .waking none }

/-- A parked thread executes its word again from its bundle. -/
def wakeRetry (s : State) (ci li : Nat) : State :=
  s.updThread ci li fun t => { t with run := if s.outstanding ci li then .waiting else .waking none }

/-- The lane `t` of the current group no longer takes part in its run (R33). -/
def leave (s : State) (t : Nat) : State :=
  s.updGroup s.cur.1 s.cur.2 fun g =>
    { g with lanes := g.lanes.modify t fun r => { r with kind := .gone } }

end State

/-- The thread after its region was discarded: at the marker, with the recorded call depth (R40, R174); the
stream state is the lane's.  The region stays open: no event of R38 has ended it; what is held for the thread stands for
the accesses of its next execution (R198). -/
def Lane.discardRegion (l : Lane) : Lane :=
  match l.occ with
  | .thread t =>
    match t.region with
    | some r =>
      { l with key := r.key, ctr := r.ctr,
               occ := .thread { t with pc := r.marker, depth := r.depth
                                       held := t.held.map fun h => { h with resumed := false } } }
    | none => l
  | _ => l

/-- Closing a thread's region (R38). -/
def Thread.closeRegion (t : Thread) : Thread := { t with region := none, held := [] }

/-- Plumb's interval number grows by one, saturating, at each release the thread performs (R237). -/
def Thread.release (t : Thread) : Thread :=
  { t with interval := if t.interval = 0xFFFFFFFF then t.interval else t.interval + 1 }

/-- The trap code (R357). -/
def Trap.code : Trap → BitVec 4
  | .illegalInstruction => 1
  | .illegalOperand => 2
  | .staleLatch => 3
  | .staleWindow => 4
  | .rejoinCycle => 5
  | .dependentPredicate => 6
  | .dataRace => 7
  | .fault _ => 8
  | .misaligned => 9
  | .resource => 10
  | .engineStatus => 11
  | .brk => 12

/-- The cause of a FAULT; every other trap carries cause 0 (R358). -/
def Trap.cause : Trap → BitVec 4
  | .fault c => BitVec.ofNat 4 c
  | _ => 0

/-- FAULT causes (R358). -/
def causeAddress : Nat := 0
def causeProtection : Nat := 1
def causeTranslation : Nat := 2
def causeWriteProtection : Nat := 3
def causeAttribute : Nat := 4
def causeWindow : Nat := 5
def causeDescriptor : Nat := 6
def causeIndex : Nat := 7

/-- TAKING A TRAP (R359-R362): the thread's region closes, its trap record is written (NEST when one was
present), its program counter is the recorded address, and it stands trapped until it is held. -/
def Thread.takeTrap (t : Thread) (tr : Trap) (addr : BitVec 56) (pc : BitVec 56) : Thread :=
  { t with
    pc := pc
    region := none
    pendWait := none
    held := []
    trap := some ⟨tr.code, tr.cause, t.trap.isSome, true, addr⟩
    run := .trapping }

namespace State

/-- A thread that is not in the current word takes a trap at its recorded program counter. -/
def trapThread (s : State) (ci li : Nat) (tr : Trap) (addr : BitVec 56) : State :=
  s.updThread ci li fun t => t.takeTrap tr addr t.pc

/-- The thread in lane `t` of the current group takes a trap at address `pc` and leaves the run. -/
def trapLane (s : State) (t : Nat) (tr : Trap) (addr : BitVec 56) (pc : BitVec 56) : State :=
  match s.curGroup? with
  | none => s
  | some g =>
    match g.lanes[t]? with
    | none => s
    | some r => (s.updThread g.crew r.place fun th => th.takeTrap tr addr pc).leave t

/-- The thread in lane `t` of the current group parks at its bundle and leaves the run (R33, R95). -/
def parkLane (s : State) (t : Nat) (p : Park) (pc cont : BitVec 56) : State :=
  match s.curGroup? with
  | none => s
  | some g =>
    match g.lanes[t]? with
    | none => s
    | some r =>
      (s.updThread g.crew r.place fun th => { th with pc := pc, cont := cont, run := .parked p }).leave t

/-- End of a thread as EXIT does it (R183, R187): its mask bits are cleared, its stack discarded, its
registers and stream state stay in place. -/
def endThread (s : State) (ci li : Nat) : State :=
  s.updCrew ci fun cr =>
    { cr with
      lanes := cr.lanes.modify li fun l =>
        match l.occ with
        | .thread t => { l with occ := .exited t.tid }
        | _ => l
      masks := cr.masks.mapIdx fun i m =>
        if i / 12 = li / 16 then m &&& ~~~(BitVec.ofNat 16 (2 ^ (li % 16))) else m }

end State

/-- The return from a trap routine (R367, R173): the popped address, with the record cleared. -/
def Thread.eret (t : Thread) : Option Thread :=
  match t.trap with
  | some r =>
    if r.held then none
    else if t.depth = 0 then none
    else some { t with depth := t.depth - 1, trap := none,
                       pc := BitVec.ofNat 56 (t.stack.getD (t.depth - 1) 0).toNat }
  | none => none

/-- Pushing a return address (R173); none when the stack is full. -/
def Thread.push (t : Thread) (a : BitVec 56) : Option Thread :=
  if t.depth ≥ Config.callDepth then none
  else some { t with stack := t.stack.set t.depth (a.zeroExtend 64), depth := t.depth + 1 }

/-- Popping one (R173). -/
def Thread.pop (t : Thread) : Option (BitVec 56 × Thread) :=
  if t.depth = 0 then none
  else some (BitVec.ofNat 56 (t.stack.getD (t.depth - 1) 0).toNat, { t with depth := t.depth - 1 })

/-- A thread's identity as a writer (R236): core, crew slot, %tid. -/
def Crew.wid (cr : Crew) (tid : Nat) : BitVec 26 :=
  BitVec.ofNat 26 (cr.core * 2 ^ 18 + cr.cslot * 2 ^ 10 + tid)

end Sys2Proof.Machine
end

