-- ==== Sys2Proof/Machine/Mem.lean ====
section
/-!
DEFINITION. Memory as programs, engines and the device reach it: translation (R188-R193), windows
(R194-R198), the fault buffer (R204, R205), device accesses, and Plumb (R235-R239).
-/

namespace Sys2Proof.Machine

open Sys2Proof

/-- A window address is never translated (R188). -/
def isWindow (a : Nat) : Bool := decide (fld a 55 52 = 0xF)

/-- The end of a walk: a page, an entry with V = 0, or an inconsistent entry. -/
inductive Walk where
  | page (p : Page)
  | miss
  | bad
  deriving DecidableEq, Repr

/-- The levels of the page tables: virtual bits indexed (R189). -/
def levels : List (Nat × Nat) := [(55, 47), (46, 38), (37, 29), (28, 21), (20, 16)]

/-- Whether a leaf entry with V = 1 at a level that maps pages of `2^bits` bytes is consistent (R190, R192).  A
replicated entry whose PA lies outside die 0's partition is not: FAULT with the address cause; an ordinary or typed
page whose PA lies in no die's memory is read and written as memory (log 50). -/
def leafOk (e bits : Nat) : Bool :=
  let dual := bitAt e 61
  let kind := fld e 63 62
  decide (kind ≠ 3) && !bitAt e 2 && decide (fld e 15 11 = 0 ∧ fld e 7 6 = 0) &&
  (if dual then decide (fld e 60 56 ≤ 14 ∧ kind ≠ 2) else decide (fld e 60 56 = 0 ∧ fld e 10 8 = 0)) &&
  (decide (bits = 16) || decide (fld e 20 16 = 0)) &&
  (decide (kind ≠ 2) || decide (fld e 55 16 * 2 ^ 16 < Config.dieBytes))

/-- Whether a non-leaf entry with V = 1 is consistent (R190). -/
def nodeOk (e : Nat) : Bool :=
  decide (fld e 63 56 = 0 ∧ fld e 5 3 = 0 ∧ fld e 15 6 = 0) && !bitAt e 2

/-- The page that a leaf entry maps `va` to. -/
def leafPage (e bits va : Nat) : Page where
  pa := fld e 55 16 * 2 ^ 16 + va % 2 ^ bits
  typed := decide (fld e 63 62 = 1)
  replicated := decide (fld e 63 62 = 2)
  dual := if bitAt e 61 then some (fld e 60 56 + 16, fld e 10 8 + 1) else none
  w := bitAt e 3
  x := bitAt e 4
  priv := bitAt e 5
  big := decide (bits = 21)

/-- The page walk (R189, R190): it recurs on the levels that remain. -/
def walk (m : Memory) (va : Nat) : List (Nat × Nat) → Nat → Walk
  | [], _ => .bad
  | (hi, lo) :: rest, table =>
    let e := m.nat (table + 8 * fld va hi lo) 8
    if !bitAt e 0 then .miss
    else if bitAt e 1 then
      if 21 < lo then .bad                       -- a leaf above level 4
      else if leafOk e lo then .page (leafPage e lo va) else .bad
    else if rest.isEmpty || !nodeOk e then .bad
    else walk m va rest (fld e 55 16 * 2 ^ 16)

/-- The 64 KiB frames of physical memory that the tables below `table` map as typed (R189-R191). -/
def typedFrames (m : Memory) : List (Nat × Nat) → Nat → List Nat
  | [], _ => []
  | (hi, lo) :: rest, table =>
    (List.range (2 ^ (hi - lo + 1))).flatMap fun i =>
      let e := m.nat (table + 8 * i) 8
      if !bitAt e 0 then []
      else if bitAt e 1 then
        if lo ≤ 21 ∧ leafOk e lo = true ∧ fld e 63 62 = 1 then (List.range (2 ^ (lo - 16))).map fun k => fld e 55 16 + k
        else []
      else if rest.isEmpty || !nodeOk e then []
      else typedFrames m rest (fld e 55 16 * 2 ^ 16)

/-- How an access fares. -/
inductive Acc (α : Type) where
  | ok (x : α)
  | trap (t : Trap) (addr : Nat)
  /-- a translation or write-protection fault: the access is replayed (R204) -/
  | fault (addr : Nat) (write : Bool)
  /-- a window access that cannot be applied now (R198) -/
  | hold
  /-- a poisoned block (R397) -/
  | poison

/-- What follows an access that went well. -/
def Acc.bind {α β : Type} (x : Acc α) (f : α → Acc β) : Acc β :=
  match x with
  | .ok a => f a
  | .trap t a => .trap t a
  | .fault a w => .fault a w
  | .hold => .hold
  | .poison => .poison

/-- What an access is, for the checks of R190. -/
structure Ask where
  write : Bool := false
  fetch : Bool := false
  /-- the device's own access, which PRIV does not stop -/
  device : Bool := false
  /-- a page kind that the operation allows -/
  kindOk : Page → Bool := fun _ => true

/-- A monitor after a write of `n` bytes at `a`, applied at its monitor point (R249, R250): the first
write to the watched block after arming that completes the wait leaves the word's value. -/
def Monitor.notice (pad : Option Nat) (m : Memory) (a n : Nat) (w : Monitor) : Monitor :=
  if w.pad = pad ∧ w.got = none ∧ 0 < n ∧ a / 64 ≤ w.place / 64 ∧ w.place / 64 ≤ (a + n - 1) / 64 then
    let v : Dword := BitVec.ofNat 64 (m.nat w.place (if w.wide then 8 else 4))
    if w.any || v != w.expect then { w with got := some v } else w
  else w

/-- The physical address that die `d` reads at a page's address: its own copy of a replicated page (R192). -/
def Page.on (g : Page) (d : Nat) : Nat := if g.replicated then g.pa + d * Config.dieStride else g.pa

namespace State

def part (s : State) (p : Nat) : Partition := s.parts.getD p ⟨0, false, [], [], 0, 0, 0, none⟩

/-- The partition that a job identifier names (R375, R378, log 40). -/
def partOf (s : State) (job : BitVec 32) : Option Nat := s.parts.findIdx? fun P => P.up && P.job == job

/-- What a page lets an access do, in the order of R190. -/
def pageCheck (g : Page) (va : Nat) (q : Ask) : Acc Page :=
  if g.priv && !q.device then .trap (.fault causeProtection) va
  else if q.fetch && !g.x then .trap (.fault causeProtection) va
  else if !q.kindOk g then .trap (.fault causeAttribute) va
  else if q.write && !g.w then .fault va true
  else .ok g

/-- Whether a page lies in memory that has been withdrawn (R396). -/
def pageOut (s : State) (g : Page) : Bool :=
  s.module.pagesOut.any fun f => f == g.pa / 65536 ||
    (g.replicated && (List.range Config.dies).any fun d => f == (g.pa + d * Config.dieStride) / 65536)

/-- Translation of a virtual address for an access, in the order of R190; a page in withdrawn memory raises FAULT
with the address cause (R396, log 26). -/
def xlat (s : State) (p : Nat) (va : Nat) (q : Ask) : Acc Page :=
  match walk s.mem va levels (s.part p).root with
  | .miss => .fault va q.write
  | .bad => .trap (.fault causeAddress) va
  | .page g => if s.pageOut g then .trap (.fault causeAddress) va else pageCheck g va q

/-- The bytes at a page's physical address as die `d` sees them (R192). -/
def physRead (s : State) (d : Nat) (g : Page) (n : Nat) : List Byte := s.mem.read (g.on d) n

/-- Whether `n` bytes at a physical address meet a poisoned block (R397). -/
def poisoned (s : State) (pa n : Nat) : Bool :=
  s.poison.any fun b => decide (pa / 64 ≤ b ∧ b ≤ (pa + n - 1) / 64)

/-- Whether the bytes that die `d` reads at a page's address meet a poisoned block: its own copy of a replicated page
(R192, R397). -/
def poisonedOn (s : State) (d : Nat) (g : Page) (n : Nat) : Bool := s.poisoned (g.on d) n

/-- Bytes stored at a physical address; writing a whole block clears its poison (R397), and monitors
see the write. -/
def physStore (s : State) (pa : Nat) (bs : List Byte) : State :=
  { s with
    mem := s.mem.write pa bs
    poison := s.poison.filter fun b => !decide (pa ≤ 64 * b ∧ 64 * b + 64 ≤ pa + bs.length)
    monitors := s.monitors.map (Monitor.notice none (s.mem.write pa bs) pa bs.length) }

/-- Bytes that the host stores: instruction fetches of running crews see them too, since R82 hides only the stores of
running code. -/
def hostStore (s : State) (pa : Nat) (bs : List Byte) : State :=
  { s.physStore pa bs with
    codeMem := s.codeMem.write pa bs
    grids := s.grids.map fun g => { g with code := g.code.write pa bs } }

/-- A release at .sys: the stores before it are what a launch placed from now on fetches (R82, log 38). -/
def publish (s : State) : State := { s with codeMem := s.mem }

/-- Memory as the instruction fetches of a crew see it (R82). -/
def fetchMem (s : State) (ci : Nat) : Memory :=
  (((s.crews[ci]?).bind fun cr => s.grids[cr.grid]?).map fun g => g.code).getD s.mem

/-- The bytes at a page's physical address as an instruction fetch of a crew on die `d` sees them (R82, R192). -/
def codeRead (s : State) (ci d : Nat) (g : Page) (n : Nat) : List Byte :=
  (s.fetchMem ci).read (g.on d) n

/-- The frames that some partition's tables map as typed. -/
def typedNow (s : State) : List Nat := s.parts.flatMap fun P => typedFrames s.mem levels P.root

/-- Frames that are newly typed, compared with the state before, have every descriptor 0x0000, whoever wrote the tables
or the roots (R61, R191). -/
def freshTyped (before s : State) : State :=
  if s.desc.isEmpty then s
  else
    let old := before.typedNow
    let new := s.typedNow
    { s with desc := s.desc.filter fun x => old.contains (x.1 / 1024) || !new.contains (x.1 / 1024) }

/-- Bytes stored in a crew's scratchpad; monitors see the write. -/
def scratchStore (s : State) (ci off : Nat) (bs : List Byte) : State :=
  match s.crews[ci]? with
  | none => s
  | some cr =>
    let m := cr.scratch.write off bs
    { s.updCrew ci (fun cr => { cr with scratch := m }) with
      monitors := s.monitors.map (Monitor.notice (some ci) m off bs.length) }

/-- Bytes stored at a page's address: every copy of a replicated page (R192, R232). -/
def physWrite (s : State) (g : Page) (bs : List Byte) : State :=
  if g.replicated then
    (List.range Config.dies).foldl (fun s d => s.physStore (g.pa + d * Config.dieStride) bs) s
  else s.physStore g.pa bs

/-- The descriptor of a page's block (R191): raw where the page has none. -/
def descAt (s : State) (g : Page) : BitVec 16 := if g.typed then Sparse.get s.desc (g.pa / 64) else 0
def setDesc (s : State) (g : Page) (d : BitVec 16) : State :=
  { s with desc := Sparse.set s.desc (g.pa / 64) d }

/-- Bytes at a virtual address, page by page (fuel: pages). -/
def vRead (s : State) (p d : Nat) (q : Ask) : Nat → Nat → Nat → Acc (List Byte)
  | 0, _, _ => .ok []
  | fuel + 1, va, n =>
    if n = 0 then .ok [] else
    let k := min n (65536 - va % 65536)
    (s.xlat p va q).bind fun g =>
      if s.poisonedOn d g k then .poison else
      match vRead s p d q fuel (va + k) (n - k) with
      | .ok bs => .ok (s.physRead d g k ++ bs)
      | r => r

/-- Whether every page of a range admits a write. -/
def vWritable (s : State) (p : Nat) (q : Ask) : Nat → Nat → Nat → Acc Unit
  | 0, _, _ => .ok ()
  | fuel + 1, va, n =>
    if n = 0 then .ok () else
    let k := min n (65536 - va % 65536)
    (s.xlat p va q).bind fun _ => vWritable s p q fuel (va + k) (n - k)

/-- Bytes stored at a virtual address, page by page; pages that do not translate are passed over. -/
def vStore (s : State) (p : Nat) (q : Ask) : Nat → Nat → List Byte → State
  | 0, _, _ => s
  | fuel + 1, va, bs =>
    if bs.isEmpty then s else
    let k := min bs.length (65536 - va % 65536)
    let s := match s.xlat p va q with
      | .ok g => s.physWrite g (bs.take k)
      | _ => s
    vStore s p q fuel (va + k) (bs.drop k)

/-- Pages that `n` bytes may touch. -/
def pages (n : Nat) : Nat := n / 65536 + 2

/-- A read of global memory by the device or an engine positioned on die `d`. -/
def readG (s : State) (p d va n : Nat) (device : Bool := false) : Acc (List Byte) :=
  s.vRead p d { device := device } (pages n) va n

/-- A write of global memory by the device or an engine: checked whole, then performed whole. -/
def writeG (s : State) (p va : Nat) (bs : List Byte) (device : Bool := false) : Acc State :=
  let q : Ask := { write := true, device := device }
  (s.vWritable p q (pages bs.length) va bs.length).bind fun _ => .ok (s.vStore p q (pages bs.length) va bs)

/-- The device's own read of a structure in a partition's memory, as a number. -/
def devNat (s : State) (p va n : Nat) : Option Nat :=
  match s.readG p 0 va n true with
  | .ok bs => some (leNat bs)
  | _ => none

/-- The device's own write; nothing where it does not translate. -/
def devWrite (s : State) (p va : Nat) (bs : List Byte) : State :=
  match s.writeG p va bs true with
  | .ok s' => s'
  | _ => s

/-- A field of a partition context that the device writes (R389); the context also stands in memory
(log 16). -/
def ctxSet (s : State) (p byte n v : Nat) : State :=
  (s.updPart p fun P => P.setAt byte n v).physStore (Config.contextAt p + byte) (leBytes n v)

/-- The send-queue descriptor that an index names (R376); none where it is not valid. -/
def sendQueue (s : State) (p q : Nat) : Option Nat :=
  if 256 ≤ q then none
  else
    (s.devNat p ((s.part p).at 72 7 + 64 * q) 64).bind fun d =>
      let mode := fld d 7 0
      let ctl : Bool := decide (mode = 2)
      if 2 < mode ∨ fld d 15 8 ≠ 0 ∨ fld d 31 28 ≠ 0 ∨ fld d 27 16 = 0 ∨ fld d 127 96 ≠ 0 ∨ fld d 191 184 ≠ 0 ∨
          fld d 319 312 ≠ 0 ∨ fld d 258 256 ≠ 0 ∨ fld d 511 320 ≠ 0 ∨ (ctl ∧ fld d 319 128 ≠ 0) then none
      else some d

/-- The lowest port of a set. -/
def lowestPort (m : Nat) : Nat := ((List.range 12).find? fun i => m.testBit i).elim 0 fun i => 2 ^ i

/-- How a send queue's packets leave (R377, R378): a RUD queue spreads them over its ports, the others use the lowest. -/
def routeOf (d : Nat) : Route :=
  ⟨BitVec.ofNat 12 (if fld d 7 0 = 1 then fld d 27 16 else lowestPort (fld d 27 16)), BitVec.ofNat 32 (fld d 63 32),
    BitVec.ofNat 32 (fld d 95 64)⟩

/-- How a partition's send queue leaves the device, where it is a control queue (R378). -/
def controlRoute (s : State) (p q : Nat) : Option Route :=
  (s.sendQueue p q).bind fun d => if fld d 7 0 = 2 then some (routeOf d) else none

/-- The physical address of a virtual one, as the device finds it. -/
def devPa (s : State) (p va : Nat) : Option Nat :=
  match s.xlat p va { device := true } with
  | .ok g => some g.pa
  | _ => none

/-- A release to the 8-byte word of a physical address: each waiter registered on the word, under whatever virtual
address, fires once: the MSI-X message, or the wake that carries the word's value; such a release is performed at
.sys (R233, R374, R378). -/
def fireAt (s : State) (p pa : Nat) : State :=
  let on (w : BitVec 56) : Bool := (s.devPa p w.toNat).any fun x => x / 8 == pa / 8
  let hits (f : Vf) : List (BitVec 6) :=
    if f.part = some p then (f.waiters.filter fun w => on w.1).map Prod.snd else []
  let regs := (s.part p).peerRegs.filter fun r => on r.target
  let v : Dword := BitVec.ofNat 64 (s.mem.nat (pa / 8 * 8) 8)
  let msgs := (s.vfs.flatMap fun f => (hits f).map fun n => Output.msix f.id n.toNat) ++
    regs.map fun r => Output.wake (s.controlRoute p r.rsq.toNat) r.rsq r.mirror v
  if msgs.isEmpty then s
  else
    { (s.publish.updPart p fun P => { P with peerRegs := P.peerRegs.filter fun r => !on r.target }) with
      vfs := s.vfs.map fun f => if f.part = some p then { f with waiters := f.waiters.filter fun w => !on w.1 } else f
      out := msgs.reverse ++ s.out }

/-- The address of a collective ring's header (R380, R389). -/
def ringHeader (s : State) (p r : Nat) : Nat := ((s.devNat p ((s.part p).at 88 7 + 8 * r) 8).getD 0) % 2 ^ 56

/-- The doorbell rings for each collective ring of a partition, among those whose header's address `here` names, whose
TAIL is not the one that the unit saw last (R380). -/
def ringWhere (s : State) (p : Nat) (here : Nat → Bool) : State :=
  if (s.part p).at 97 1 = 0 then s
  else
    let hit (r : Nat) : Bool := !s.rung.contains (p, r) && here (s.ringHeader p r) &&
      (s.devNat p (s.ringHeader p r) 8).any fun t => BitVec.ofNat 64 t != Sparse.get s.tails (16 * p + r)
    { s with rung := s.rung ++ ((List.range (min 16 ((s.part p).at 97 1))).filter hit).map fun r => (p, r) }

/-- What the partition has written is performed at .dev: the doorbells of all its rings (R380). -/
def ringTails (s : State) (p : Nat) : State := s.ringWhere p fun _ => true

/-- A plain write of `n` bytes is performed at its scope: at .dev or wider it is the doorbell of the rings whose TAIL it
writes, and publishes nothing else (R220, R380). -/
def wrote (s : State) (p scope va n : Nat) : State :=
  if scope < 2 || isWindow va then s
  else
    match s.devPa p va with
    | none => s
    | some pa => s.ringWhere p fun h => (s.devPa p h).any fun t => decide (pa < t + 8 ∧ t < pa + n)

/-- A release at a scope performs the stores before it there (R226): at .dev or wider, the doorbells of collective
rings (R380); at .sys, what a launch placed from now on fetches (R82). -/
def performed (s : State) (p scope : Nat) : State :=
  if scope < 2 then s else if scope = 3 then s.publish.ringTails p else s.ringTails p

/-- A release to a word at a scope (R229, R233): at .dev or wider the waiters on the word fire. -/
def fireWaiters (s : State) (p va scope : Nat) : State :=
  let s1 := s.performed p scope
  if scope < 2 || isWindow va then s1
  else
    match s1.devPa p va with
    | some pa => s1.fireAt p pa
    | none => s1

end State

/-- A resolved window address (R194, R195). -/
structure Win where
  kind : Nat
  crew : Nat
  off : Nat
  deriving DecidableEq, Repr

namespace State

/-- The crew that holds a crew slot. -/
def crewAt (s : State) (core cslot : Nat) : Option Nat :=
  s.crews.findIdx? fun cr => cr.onCore && cr.core == core && cr.cslot == cslot

/-- Resolving a window address for a crew (R194-R196).  A reserved KIND is met before a stale raw address, and a
gang-relative address of a member that holds no core raises FAULT with the window cause (log 50). -/
def window (s : State) (ci a : Nat) : Acc Win :=
  let bad : Acc Win := .trap (.fault causeWindow) a
  match s.crews[ci]? with
  | none => bad
  | some me =>
    let kind := fld a 50 48
    let off := fld a 23 0
    if 4 ≤ kind then bad
    else if bitAt a 51 then
      if fld a 39 24 ≠ 0 then bad
      else
        match (s.gangs[me.gang]?).bind fun g => g.crews[fld a 47 40]? with
        | none => bad
        | some cj => if (s.crews[cj]?.map Crew.onCore).getD false then .ok ⟨kind, cj, off⟩ else bad
    else
      match s.crewAt (fld a 47 40) (fld a 39 32) with
      | none => .trap .staleWindow 0
      | some cj =>
        if (Sparse.get s.gens (256 * fld a 47 40 + fld a 39 32)).toNat ≠ fld a 31 24 then .trap .staleWindow 0
        else if (s.crews[cj]?.map fun c => c.gang) = some me.gang then .ok ⟨kind, cj, off⟩
        else bad

end State

/-- The lane, register and word that a KIND 1 offset names (R194). -/
def kind1Place (cr : Crew) (off : Nat) : Option (Nat × Nat × Nat) :=
  let w := off / 64
  let j := w % (1 + cr.t)
  let r := w / (1 + cr.t) % (cr.c + 8)
  let hg := w / (1 + cr.t) / (cr.c + 8)
  if off % 4 = 0 ∧ hg < pktH cr.packet then some (16 * hg + off % 64 / 4, r, j) else none

/-- Word j of a register: the primal, or tangent j − 1. -/
def Reg.word (x : Reg) (j : Nat) : Word := if j = 0 then x.prim else x.tan.getD (j - 1) 0
def Reg.setWord (x : Reg) (j : Nat) (w : Word) : Reg :=
  if j = 0 then { x with prim := w } else { x with tan := x.tan.set (j - 1) w }

/-- V register r, or Q register r − C. -/
def Lane.reg (l : Lane) (c r : Nat) : Reg := if r < c then l.getV r else l.getQ (r - c)
def Lane.setReg (l : Lane) (c r : Nat) (x : Reg) : Lane := if r < c then l.setV r x else l.setQ (r - c) x
/-- A word written to a register from outside; the reserved bits of a Q register stay zero (R5, R146). -/
def Lane.putWord (l : Lane) (c r j : Nat) (w : Word) : Lane :=
  l.setReg c r ((l.reg c r).setWord j (if c ≤ r ∧ j = 0 then w &&& 0x1FFFFFF#32 else w))

/-- Two-line layout of an operand format pairing (R287): residue and FP64 rows take two lines. -/
def mmaTwoLine (fmtA fmtB : Nat) : Bool :=
  let residue f := f == 0x01 || f == 0x02 || f == 0x04
  (residue fmtA && residue fmtB) || (fmtA == 0x0A && fmtB == 0x0A)

/-- The accumulator lines that an entry names for conflicts and for KIND 3 accesses (R288, R289). -/
def MEntry.lines (e : MEntry) : Nat × Nat :=
  let m := bitsOf e.block 39 32 + 1
  let c0 := bitsOf e.block 75 64
  match e.kind with
  | .mma => (c0, if mmaTwoLine (bitsOf e.block 311 304) (bitsOf e.block 375 368) then 2 * m else m)
  | .clr => (c0, m)
  | .fin => (c0, 2 * m)
  | .wload => (0, 0)
  | .accsv => (e.first, e.count)
  | .accld => (e.first, e.count)

namespace State

/-- Whether a matrix operation has a crew's line in flight (R198, R295). -/
def lineInFlight (s : State) (ci line : Nat) : Bool :=
  s.clusters.any fun k => k.entries.any fun e =>
    e.crew == ci && decide (e.lines.1 ≤ line ∧ line < e.lines.1 + e.lines.2)

end State

/-- Whether an address lies on the page of an entry of the fault buffer. -/
def FaultEntry.covers (e : FaultEntry) (a : Nat) : Bool := decide (e.page ≤ a / 65536 ∧ a / 65536 < e.page + e.span)

/-- Whether TSET accepts an entry of a crew, and its trap where it does not (R217). -/
def tsetCheck (cr : Crew) (i : Nat) (e : Nat) : Option Trap :=
  let fmt := fld e 59 52
  let nblk := fld e 51 39
  let base := fld e 34 16
  if pktTiles cr.packet ≤ i then some .resource
  else if fld e 63 62 ≠ 2 ∨ fld e 61 60 ≠ 0 ∨ fld e 38 35 ≠ 0 ∨ 0x0A < fmt ∨ nblk = 0 ∨ base % 64 ≠ 0 then
    some .illegalOperand
  else if cr.alloc < base + 64 * nblk + (if fmt = 0 then 0 else roundUp (2 * nblk) 64) then some .resource
  else if bitsOf (cr.tiles.getD i 0) 63 62 = 1 ∨ bitsOf (cr.tiles.getD i 0) 63 62 = 3 then some .engineStatus
  else none

namespace State

/-- Whether a running group holds a lane, as a thread or as a helper (R198). -/
def inGroup (s : State) (ci li : Nat) : Bool :=
  s.cores.any fun co => co.slots.any fun g => g.any fun g =>
    g.crew == ci && g.lanes.any fun r => r.place == li && (r.kind == .active || r.kind == .helper)

/-- The register writes through windows that can be applied at the end of a cycle of a core are; those of crews that
have left are dropped, and the others wait (R198). -/
def applyRegWrites (core : Nat) (s : State) : State :=
  let here (w : RegWrite) : Bool := ((s.crews[w.crew]?).map fun cr => cr.onCore && cr.core == core).getD true
  let now (w : RegWrite) : Bool := here w && !s.inGroup w.crew w.lane
  (s.regWrites.filter now).foldl (fun s w =>
    s.updCrew w.crew fun cr => { cr with lanes := cr.lanes.modify w.lane fun l => l.putWord cr.c w.r w.j w.word })
    { s with regWrites := s.regWrites.filter fun w => !now w }

/-- A window read of `n` bytes (R194, R198). -/
def windowRead (s : State) (ci a n : Nat) : Acc Nat :=
  (s.window ci a).bind fun w =>
    match s.crews[w.crew]? with
    | none => .trap (.fault causeWindow) a
    | some cr =>
      match w.kind with
      | 0 => if w.off + n ≤ cr.alloc then .ok (cr.scratch.nat w.off n) else .trap (.fault causeWindow) a
      | 1 =>
        match kind1Place cr w.off with
        | some (li, r, j) =>
          if n = 4 then .ok (((cr.lanesOld[li]?.map fun (l : Lane) => (l.reg cr.c r).word j).getD 0).toNat)
          else .trap (.fault causeWindow) a
        | none => .trap (.fault causeWindow) a
      | 2 =>
        if n = 8 ∧ w.off / 8 < pktTiles cr.packet then .ok (cr.tilesOld.getD (w.off / 8) 0).toNat
        else .trap (.fault causeWindow) a
      | _ =>
        if n = 8 ∧ w.off / 2048 < pktAccum cr.packet then
          if s.lineInFlight w.crew (w.off / 2048) then .hold
          else .ok (Sparse.get cr.accSlots (w.off / 8)).toNat
        else .trap (.fault causeWindow) a

/-- A window write of `n` bytes (R194, R198, R262).  A KIND 1 write is applied at the end of a cycle, a KIND 2 write is
seen from the next cycle on. -/
def windowWrite (s : State) (ci a n v : Nat) : Acc State :=
  (s.window ci a).bind fun w =>
    match s.crews[w.crew]? with
    | none => .trap (.fault causeWindow) a
    | some cr =>
      match w.kind with
      | 0 =>
        if w.off + n ≤ cr.alloc ∧ !cr.meetsQueue w.off n then
          .ok (s.scratchStore w.crew w.off (leBytes n v))
        else .trap (.fault causeWindow) a
      | 1 =>
        match kind1Place cr w.off with
        | some (li, r, j) =>
          if n ≠ 4 then .trap (.fault causeWindow) a
          else if s.inGroup w.crew li then .hold
          else .ok { s with regWrites := s.regWrites ++ [⟨w.crew, li, r, j, BitVec.ofNat 32 v⟩] }
        | none => .trap (.fault causeWindow) a
      | 2 =>
        if n ≠ 8 then .trap (.fault causeWindow) a
        else match tsetCheck cr (w.off / 8) v with
          | some _ => .trap (.fault causeWindow) a
          | none => .ok (s.updCrew w.crew fun cr => { cr with tiles := cr.tiles.set (w.off / 8) (BitVec.ofNat 64 v) })
      | _ =>
        if n = 8 ∧ w.off / 2048 < pktAccum cr.packet then
          if s.lineInFlight w.crew (w.off / 2048) then .hold
          else .ok (s.updCrew w.crew fun cr =>
            { cr with accSlots := Sparse.set cr.accSlots (w.off / 8) (BitVec.ofNat 64 v) })
        else .trap (.fault causeWindow) a

/-! ### The fault buffer (R204-R206) -/

/-- Whether an entry's waiter is a lane's access to the block of an address. -/
def waits (li a : Nat) (w : FaultWaiter) : Bool := w.key == li && w.addr / 64 == a / 64

/-- What the resolution of a lane's fault delivered for the block of an address: its translation, and for a read the
block itself (R205). -/
def fillFor (s : State) (ci li a : Nat) (write : Bool) : Option Fill :=
  match s.crews[ci]? with
  | none => none
  | some cr =>
    ((s.core cr.core).faults.find? fun e =>
      e.crew == ci && e.covers a && e.write == write && e.fill.isSome && e.waiters.any (waits li a)).bind fun e =>
        (e.fill.getD []).find? fun f => f.block == a / 64

/-- The page of a faulting address: the number of its first 64 KiB and how many it has, and whether the fault is one
of write protection (R190). -/
def faultPage (s : State) (ci a : Nat) : Nat × Nat × Bool :=
  match walk s.mem a levels (s.part ((s.crews[ci]?.map fun cr => cr.part).getD 0)).root with
  | .page g => if g.big then (a / 2 ^ 21 * 32, 32, true) else (a / 65536, 1, true)
  | _ => (a / 65536, 1, false)

/-- A fault of a lane on an address takes or shares an entry; false when none is free (R205). -/
def takeEntryAs (s : State) (ci li a : Nat) (write prot : Bool) : Bool × State :=
  match s.crews[ci]? with
  | none => (false, s)
  | some cr =>
    let co := s.core cr.core
    let mine (e : FaultEntry) : Bool := e.crew == ci && e.covers a && e.write == write && e.fill.isNone
    let w : FaultWaiter := ⟨li, a, prot⟩
    if co.faults.any mine then
      (true, s.updCore cr.core fun co =>
        { co with faults := co.faults.map fun e => if mine e then { e with waiters := e.waiters ++ [w] } else e })
    else if co.faults.length < Config.faultEntries then
      let g := s.faultPage ci a
      (true, s.updCore cr.core fun co => { co with faults := co.faults ++ [⟨ci, g.1, g.2.1, write, [w], none⟩] })
    else (false, s.updCore cr.core fun co => { co with faultQueue := co.faultQueue ++ [⟨ci, li, a, write, prot⟩] })

/-- A fault that has just been met. -/
def takeEntry (s : State) (ci li a : Nat) (write : Bool) : Bool × State := s.takeEntryAs ci li a write (s.faultPage ci a).2.2

/-- Freed entries of a core's fault buffer go to those that wait for one, in order (R205).  Fuel: the
queue's length. -/
def admitFaults (core : Nat) : Nat → State → State
  | 0, s => s
  | fuel + 1, s =>
    match (s.core core).faultQueue with
    | [] => s
    | w :: _ =>
      let (got, s1) := (s.updCore core fun co => { co with faultQueue := co.faultQueue.drop 1 }).takeEntryAs w.crew w.key
        w.addr w.write w.prot
      if got then
        admitFaults core fuel (s1.updThread w.crew w.key fun t =>
          if t.run = .parked (.faultFull w.addr w.write) then { t with run := .parked (.fault w.addr w.write) } else t)
      else s

/-- The threads and rays that wait for an entry of a core take those that are free. -/
def admitAll (s : State) (core : Nat) : State := admitFaults core (s.core core).faultQueue.length s

/-- Waiters of filled entries leave the buffer; an entry that all have left is freed, and goes to those that wait for
one (R205). -/
def leaveFilled (s : State) (ci : Nat) (p : FaultEntry → FaultWaiter → Bool) : State :=
  match s.crews[ci]? with
  | none => s
  | some cr =>
    if (s.core cr.core).faults.isEmpty then s
    else
      let left (e : FaultEntry) : FaultEntry :=
        if e.crew == ci && e.fill.isSome then { e with waiters := e.waiters.filter fun w => !p e w } else e
      (s.updCore cr.core fun co =>
        { co with faults := (co.faults.map left).filter fun e => e.fill.isNone || !e.waiters.isEmpty }).admitAll cr.core

/-- A lane has replayed its access to an address (R205). -/
def replayed (s : State) (ci li a : Nat) : State := s.leaveFilled ci fun e w => e.covers a && waits li a w

/-- A lane's replay has trapped: it waits for no fill any more (R205). -/
def abandoned (s : State) (ci li : Nat) : State := s.leaveFilled ci fun _ w => w.key == li

/-- The thread in lane `t` of the current group parks for a fault: inside a region it is discarded to
its marker (R40, R204). -/
def faultLane (s : State) (t : Nat) (a : Nat) (write : Bool) (pc : BitVec 56) : State :=
  match s.curGroup? with
  | none => s
  | some g =>
    match g.lanes[t]? with
    | none => s
    | some r =>
      let (got, s1) := s.takeEntry g.crew r.place a write
      let p : Park := if got then .fault a write else .faultFull a write
      (s1.parkLane t p pc pc).updLane g.crew r.place Lane.discardRegion

/-- The thread in lane `t` parks on a window access that is held for it (R198). -/
def holdLane (s : State) (t : Nat) (h : HeldAccess) (pc : BitVec 56) : State :=
  match s.curGroup? with
  | none => s
  | some g =>
    match g.lanes[t]? with
    | none => s
    | some r =>
      ((s.parkLane t .window pc pc).updThread g.crew r.place fun th =>
        { th with held := { h with index := th.windows } :: th.held.filter fun x => x.index != th.windows }).updLane
          g.crew r.place Lane.discardRegion

/-! ### Programs' accesses -/

/-- Translation of a lane's access: by what the resolution of its fault delivered, where it replays, else by the
tables (R190, R205). -/
def laneXlat (s : State) (ci li p a : Nat) (q : Ask) : Acc Page :=
  match s.fillFor ci li a q.write with
  | some f => pageCheck { f.page with pa := f.page.pa + a % 64 } a q
  | none => s.xlat p a q

/-- The result of the held access that a window access of a thread stands for: the same number of window accesses
after the marker, and the same address (R198). -/
def heldResult (s : State) (ci li a : Nat) (write : Bool) : Option Dword :=
  (s.thread? ci li).bind fun t =>
    (t.held.find? fun h => decide (h.addr = a ∧ h.write = write ∧ h.index = t.windows)).bind HeldAccess.result

/-- A load of `n` bytes, `n ≤ 16`, aligned, by a lane: its value, or how it fares (R203, R208). -/
def load (s : State) (ci li a n : Nat) (q : Ask := {}) : Acc Nat :=
  match s.crews[ci]? with
  | none => .hold
  | some cr =>
    if 2 ^ 56 ≤ a then .trap (.fault causeAddress) (a % 2 ^ 56)
    else if isWindow a then
      match s.heldResult ci li a false with
      | some v => .ok v.toNat
      | none => s.windowRead ci a n
    else
      (s.laneXlat ci li cr.part a q).bind fun g =>
        match s.fillFor ci li a false with
        | some f => .ok (leNat ((f.bytes.drop (a % 64)).take n))
        | none => if s.poisonedOn (dieOf cr.core) g n then .poison else .ok (leNat (s.physRead (dieOf cr.core) g n))

/-- A store of `n` bytes, aligned, by a lane (R203, R208). -/
def store (s : State) (ci li a n v : Nat) (q : Ask := {}) : Acc State :=
  match s.crews[ci]? with
  | none => .hold
  | some cr =>
    if 2 ^ 56 ≤ a then .trap (.fault causeAddress) (a % 2 ^ 56)
    else if isWindow a then
      match s.heldResult ci li a true with
      | some _ => .ok s
      | none => s.windowWrite ci a n v
    else
      (s.laneXlat ci li cr.part a { q with write := true }).bind fun g => .ok (s.physWrite g (leBytes n v))

/-- A window access of a lane is performed.  A held access that it replaces by forming another address is over; the one
that stands for it is over outside every region, and inside one stands for it again where the thread resumes at the
marker once more (R198).  An access to global memory is none. -/
def consumeHeld (s : State) (ci li a : Nat) : State :=
  if !isWindow a then s
  else s.updThread ci li fun t =>
    { t with windows := t.windows + 1
             held := t.held.filter fun h => h.index != t.windows || (t.region.isSome && h.addr == a) }

/-! ### Removing a grid (R337, R364, R397) -/

/-- The grid's crews are to be pre-empted and their saved state discarded; `why`: its status, which its stamp will
report. -/
def dropGrid (s : State) (gi : Nat) (why : GridStatus) : State :=
  let s := s.updGrid gi fun g => if g.status = .live ∨ g.status = .waiting then { g with status := why } else g
  { s with crews := s.crews.map fun cr =>
      if cr.grid ≠ gi then cr
      else if cr.status = .resident then
        { cr with preempt := some ⟨(s.core cr.core).lclk.toNat, none, true, true, false, true⟩ }
      else { cr with status := .released } }

/-- The removal of a grid: its stamp will report ABORTED (R337). -/
def removeGrid (s : State) (gi : Nat) : State := s.dropGrid gi .removed

/-- A thread's read of a poisoned block ends its grid (R397); the thread goes no further. -/
def poisonLane (s : State) (t : Nat) (pc : BitVec 56) : State :=
  match s.curGroup? with
  | none => s
  | some g =>
    match s.crews[g.crew]? with
    | none => s
    | some cr =>
      ((s.parkLane t .window pc pc).updThread g.crew ((g.lanes[t]?.map LaneRef.place).getD 0) fun th =>
        { th with held := [] }).removeGrid cr.grid

/-! ### Parts of an access in global memory -/

/-- Translation of an address of a lane's access that must lie in global memory (R188, R358 cause 0x5). -/
def globalPage (s : State) (ci li a : Nat) (q : Ask) : Acc Page :=
  match s.crews[ci]? with
  | none => .hold
  | some cr =>
    if 2 ^ 56 ≤ a then .trap (.fault causeAddress) (a % 2 ^ 56)
    else if isWindow a then .trap (.fault causeWindow) a
    else s.laneXlat ci li cr.part a q

/-- The parts of an access, each translated and then tested, in order: the first that fails decides (R210, R361). -/
def globalPages (s : State) (ci li : Nat) (q : Ask) (bad : Nat → Page → Option Trap) : List Nat → Acc (List Page)
  | [] => .ok []
  | a :: as =>
    (s.globalPage ci li a q).bind fun g =>
      match bad a g with
      | some t => .trap t a
      | none =>
        match globalPages s ci li q bad as with
        | .ok gs => .ok (g :: gs)
        | r => r

/-- Bytes of a translated part, from the fill where the lane replays (R205). -/
def partBytes (s : State) (ci li a n : Nat) (g : Page) : Acc (List Byte) :=
  match s.fillFor ci li a false with
  | some f => .ok ((f.bytes.drop (a % 64)).take n)
  | none =>
    match s.crews[ci]? with
    | none => .hold
    | some cr => if s.poisonedOn (dieOf cr.core) g n then .poison else .ok (s.physRead (dieOf cr.core) g n)

/-- The descriptor of a translated part, from the fill where the lane replays (R205). -/
def partDesc (s : State) (ci li a : Nat) (g : Page) : BitVec 16 :=
  match s.fillFor ci li a false with
  | some f => f.desc
  | none => s.descAt g

/-- The bytes of several parts. -/
def partsBytes (s : State) (ci li n : Nat) : List (Nat × Page) → Acc (List (List Byte))
  | [] => .ok []
  | (a, g) :: r =>
    (s.partBytes ci li a n g).bind fun bs =>
      match partsBytes s ci li n r with
      | .ok bss => .ok (bs :: bss)
      | e => e

/-! ### Plumb (R235-R239) -/

/-- The shadow address of a watched address's sector: the lowest-numbered range that contains it (R235). -/
def shadowOf (s : State) (p va : Nat) : Option Nat :=
  let P := s.part p
  (List.range (P.at 96 1)).findSome? fun i =>
    match s.devNat p (P.at 32 7 + 24 * i) 24 with
    | none => none
    | some w =>
      let base := fld w 63 0
      if base ≤ va ∧ va < base + fld w 127 64 then some (fld w 191 128 + (va - base) / 32 * 8) else none

/-- Insertion into an acquired table (R237). -/
def insertPair (tab : List (BitVec 26 × Word)) (x : BitVec 26 × Word) : List (BitVec 26 × Word) :=
  if tab.any fun y => y.1 == x.1 then
    tab.map fun y => if y.1 == x.1 then (y.1, if y.2.toNat < x.2.toNat then x.2 else y.2) else y
  else if tab.length < Config.acquiredPairs then tab ++ [x]
  else tab.drop 1 ++ [x]

/-- A log record (R239): dropped, and counted, when the ring holds as many as its size (log 12). -/
def plumbLog (s : State) (p : Nat) (record : Nat) : State :=
  let P := s.part p
  if P.logged < P.at 48 4 then
    (s.devWrite p (P.at 40 7 + 32 * P.logged) (leBytes 32 record)).updPart p fun P => { P with logged := P.logged + 1 }
  else s.ctxSet p 52 4 (P.at 52 4 + 1)

/-- The state that a shadow word records: 0 where it holds a reserved value (R236). -/
def shadowState (w : Nat) : Nat := if fld w 33 32 = 3 ∨ fld w 35 34 ≠ 0 then 0 else fld w 33 32

/-- The thread of a writer identity, where it still stands in its place (R236). -/
def threadOf (s : State) (ci : Nat) (wid : BitVec 26) : Option Thread :=
  (s.crews[ci]?).bind fun cr => (cr.lanes.filterMap Lane.thread?).find? fun t => cr.wid t.tid == wid

/-- One access under Plumb: the state after it, and whether it raises DATA-RACE.  `kind` as in R239: 0 read, 1 write,
2 atomic, 3 engine access, which its issuing thread answers for. -/
def plumbAccess (s : State) (ci : Nat) (wid : BitVec 26) (interval : Word) (li : Option Nat) (va : Nat)
    (scope kind : Nat) (sync write : Bool) (pc : Nat) : State × Bool :=
  match s.crews[ci]? with
  | none => (s, false)
  | some cr =>
    let mode := bitsOf cr.mode 4 3
    if mode = 0 then (s, false) else
    match s.shadowOf cr.part va with
    | none => (s, false)
    | some sh =>
      let w := (s.devNat cr.part sh 8).getD 0
      let st := shadowState w
      let owner : BitVec 26 := BitVec.ofNat 26 (fld w 63 38)
      let wint : Word := BitVec.ofNat 32 (fld w 31 0)
      let mine := wid.toNat * 2 ^ 38 + scope * 2 ^ 36 + (if kind = 3 then 2 else 1) * 2 ^ 32 + interval.toNat
      let th := match li with
        | some l => s.thread? ci l
        | none => s.threadOf ci wid
      let known := (th.map fun t => t.acquired.any fun y => y.1 == owner && decide (wint.toNat ≤ y.2.toNat)).getD false
      let recordIt (s : State) := if write then s.devWrite cr.part sh (leBytes 8 mine) else s
      if sync then
        let s := recordIt s
        match li with
        | some l =>
          if !write && decide (st ≠ 0) && decide (owner ≠ wid) then
            (s.updThread ci l fun t => { t with pendPair := some (owner, wint) }, false)
          else (s, false)
        | none => (s, false)
      else if decide (st ≠ 0) && decide (owner ≠ wid) && !known then
        if mode = 2 ∧ kind ≠ 3 then (s, true)
        else
          let record := interval.toNat * 2 ^ 224 + wint.toNat * 2 ^ 192 + owner.toNat * 2 ^ 166
            + wid.toNat * 2 ^ 140 + fld w 37 36 * 2 ^ 138 + scope * 2 ^ 136 + kind * 2 ^ 134 + pc * 2 ^ 64 + va
          (recordIt (s.plumbLog cr.part record), false)
      else (recordIt s, false)

/-- A lane's access under Plumb. -/
def plumbLane (s : State) (ci li va scope kind : Nat) (sync write : Bool) (pc : BitVec 56) : State × Bool :=
  match s.crews[ci]?, s.thread? ci li with
  | some cr, some t =>
    if isWindow va then (s, false)
    else s.plumbAccess ci (cr.wid t.tid) t.interval (some li) va scope kind sync write pc.toNat
  | _, _ => (s, false)

/-- A lane's accesses under Plumb, in order; the first that raises DATA-RACE stops them. -/
def plumbEach (ci li scope kind : Nat) (sync write : Bool) (pc : BitVec 56) : List Nat → State → State × Bool
  | [], s => (s, false)
  | a :: as, s =>
    let r := s.plumbLane ci li a scope kind sync write pc
    if r.2 then r else plumbEach ci li scope kind sync write pc as r.1

/-- An acquire of an object or stamp inserts its sector's pair (R237). -/
def plumbAcquire (s : State) (ci li va : Nat) : State :=
  match s.crews[ci]? with
  | none => s
  | some cr =>
    if bitsOf cr.mode 4 3 = 0 ∨ isWindow va then s else
    match s.shadowOf cr.part va with
    | none => s
    | some sh =>
      let w := (s.devNat cr.part sh 8).getD 0
      if shadowState w = 0 then s
      else s.updThread ci li fun t =>
        { t with acquired := insertPair t.acquired (BitVec.ofNat 26 (fld w 63 38), BitVec.ofNat 32 (fld w 31 0)) }

/-- A fence inserts the pending pair and clears it (R237). -/
def plumbFence (s : State) (ci li : Nat) : State :=
  s.updThread ci li fun t =>
    match t.pendPair with
    | some x => { t with acquired := insertPair t.acquired x, pendPair := none }
    | none => t

end State

end Sys2Proof.Machine
end

