-- ==== Sys2Proof/Machine/Flags.lean ====
section
/-!
DEFINITION. The numeric flags of a thread (R58, R369) and the rounding mode of a word (R55, R56).
-/

namespace Sys2Proof.Machine

open Sys2Proof

/-- `setflags` of R101: flags are ORed into the thread of a lane; a helper has none (R133). -/
def Lane.setFlags (l : Lane) (f : BitVec 6) : Lane := l.updThread fun t => { t with flags := t.flags ||| f }

/-- `setflags` for a lane of a crew. -/
def State.setFlags (s : State) (ci li : Nat) (f : BitVec 6) : State := s.updLane ci li fun l => l.setFlags f

/-- The six flags of a 6-bit mask (R369). -/
def flagInvalid : BitVec 6 := 0x01
def flagDivByZero : BitVec 6 := 0x02
def flagOverflow : BitVec 6 := 0x04
def flagUnderflow : BitVec 6 := 0x08
def flagInexact : BitVec 6 := 0x10
def flagSaturation : BitVec 6 := 0x20

/-- A flag raised where a condition holds. -/
def flagIf (p : Bool) (f : BitVec 6) : BitVec 6 := if p then f else 0

/-- The rounding mode of a word: its bundle's hint, else the crew mode word's rounding field, bits 1:0
(R56, R336). -/
def roundMode (mode : BitVec 8) (rnd : Option (BitVec 2)) : Num.Mode :=
  match rnd with
  | some m => .ofCode m.toNat
  | none => .ofCode (bitsOf mode 1 0)

end Sys2Proof.Machine
end

