-- ==== Sys2Proof/Machine/Operands.lean ====
section
/-!
DEFINITION. Operand forms (R83-R95), the conditions 1-4 of R99, the frame in which every word executes
(R102, R29-R33), and the commit of register results.
-/

namespace Sys2Proof.Machine

open Sys2Proof

/-- The value that a bundle's immediate hints supply to an operand (R91). -/
def immValue (ty : OpTy) : List (BitVec 24) → Dword
  | [] => 0
  | [m] =>
    match ty with
    | .i32 => (m.signExtend 32).zeroExtend 64
    | .i64 => m.signExtend 64
    | .f32 => m.zeroExtend 64 <<< 8
    | .f64 => m.zeroExtend 64 <<< 40
    | .f16 => (m.truncate 16).zeroExtend 64
    | .f16x2 => (m.truncate 16 ++ m.truncate 16).zeroExtend 64
  | m :: k :: _ =>
    let w : BitVec 48 := m ++ k
    match ty with
    | .i32 => (w.truncate 32).zeroExtend 64
    | .i64 => w.signExtend 64
    | .f32 => (w.truncate 32).zeroExtend 64
    | .f64 => w.zeroExtend 64 <<< 16
    | .f16 => (w.truncate 16).zeroExtend 64
    | .f16x2 => (w.truncate 32).zeroExtend 64

/-- What the executing word sees: its group in its slot, and the crew. -/
structure Ctx where
  core : Nat
  slot : Nat
  g : Group
  cr : Crew
  /-- the numeric-behaviour version of its context (R75) -/
  nbv : Nat
  deriving DecidableEq, Repr

namespace Ctx

/-- The crew's index. -/
def ci (c : Ctx) : Nat := c.g.crew
/-- The address of the word. -/
def addr (c : Ctx) : BitVec 56 := c.g.addr
/-- The first word of the bundle, where traps and parks are recorded (R95). -/
def start (c : Ctx) : BitVec 56 := c.g.bundle.first.getD c.g.addr
/-- The word after this one. -/
def next (c : Ctx) : BitVec 56 := c.g.addr + 4
/-- The rounding mode (R56). -/
def mode (c : Ctx) : Num.Mode := roundMode c.cr.mode c.g.bundle.rnd
/-- The tangent width T. -/
def t (c : Ctx) : Nat := c.cr.t

/-- The lane of the crew at place `p`. -/
def laneAt (c : Ctx) (p : Nat) : Lane := c.cr.lanes.getD p ⟨[], [], 0, 0, .never⟩
/-- The home lane of lane `t` of the group. -/
def place (c : Ctx) (t : Nat) : Nat := (c.g.lanes[t]?.map LaneRef.place).getD 0
def lane (c : Ctx) (t : Nat) : Lane := c.laneAt (c.place t)

/-- The lane kind of lane `t`. -/
def kind (c : Ctx) (t : Nat) : LaneKind := (c.g.lanes[t]?.map LaneRef.kind).getD .empty

/-- Whether the guard passes in a lane (R93). -/
def passes (c : Ctx) (l : Lane) : Bool :=
  match c.g.bundle.grd with
  | none => true
  | some (neg, q) =>
    let p := bitsOf (l.getQ q.toNat).prim 15 0
    if neg then decide (p < 0x4000) else decide (0x4000 ≤ p)

/-- `active(t)` of R101. -/
def active (c : Ctx) (t : Nat) : Bool := c.kind t == .active && c.passes (c.lane t)
/-- `exec(t)` of R101. -/
def exec (c : Ctx) (t : Nat) : Bool := (c.kind t == .active || c.kind t == .helper) && c.passes (c.lane t)
/-- A lane that the guard turns off. -/
def guardedOff (c : Ctx) (t : Nat) : Bool :=
  (c.kind t == .active || c.kind t == .helper) && !c.passes (c.lane t)
/-- A lane whose thread takes part, guarded off or not. -/
def takesPart (c : Ctx) (t : Nat) : Bool := c.kind t == .active

/-- The lowest lane that takes part. -/
def lead (c : Ctx) : Nat := ((List.range 16).find? fun t => c.takesPart t).getD 0

/-- The latch entries of lane `t`, newest first. -/
def latch (c : Ctx) (t : Nat) : List Val := c.g.latch.getD t []

/-- The lane of the group that stands at place `p`. -/
def laneOf (c : Ctx) (p : Nat) : Option Nat :=
  c.g.lanes.findIdx? fun r => r.place == p && (r.kind == .active || r.kind == .helper)

end Ctx

/-- Register `r`, or the pair `r`:`r+1`, as an operand (R86, R129). -/
def Lane.readV (l : Lane) (wide : Bool) (r : Nat) : Val :=
  let x := l.getV r
  if wide then
    let y := l.getV (r + 1)
    ⟨true, pairOf x.prim y.prim, List.zipWith pairOf x.tan y.tan⟩
  else ⟨false, x.prim.zeroExtend 64, x.tan.map fun w => w.zeroExtend 64⟩

/-- A result written to register `r`, or to the pair `r`:`r+1` (R87, R129). -/
def Lane.writeV (l : Lane) (r : Nat) (v : Val) : Lane :=
  let l1 := l.setV r ⟨v.bits.truncate 32, v.tan.map fun (w : Dword) => w.truncate 32⟩
  if v.wide then l1.setV (r + 1) ⟨(v.bits >>> 32).truncate 32, v.tan.map fun (w : Dword) => (w >>> 32).truncate 32⟩ else l1

/-- A value without derivatives. -/
def Val.plain (wide : Bool) (t : Nat) (x : Dword) : Val :=
  ⟨wide, if wide then x else x &&& 0xFFFFFFFF#64, List.replicate t 0⟩

/-- `opnd(f, type)` of R101, read in lane `t` (R86, R88, R91, R92). -/
def Ctx.opnd (c : Ctx) (t : Nat) (ty : OpTy) (code : Code) : Val :=
  let n := code.toNat
  if n < 56 then (c.lane t).readV ty.wide n
  else if n < 60 then
    let e := (c.latch t).getD (n - 56) (.plain ty.wide c.t 0)
    if !ty.wide && e.wide then .plain false c.t e.bits else e
  else if n = 61 then .plain ty.wide c.t (immValue ty c.g.bundle.himm)
  else if n = 62 then
    match c.g.bundle.sel with
    | some (h, i) =>
      let u := c.cr.uOld.getD i.toNat 0
      .plain ty.wide c.t (if !ty.wide && h then u >>> 32 else u)
    | none => .plain ty.wide c.t 0
  else .plain ty.wide c.t 0

/-- The primal of an operand as a number. -/
def Ctx.prim (c : Ctx) (t : Nat) (ty : OpTy) (code : Code) : Dword := (c.opnd t ty code).bits

/-- A uniform source (R123), read as it stood when the cycle began (R126). -/
def Ctx.usrc (c : Ctx) (code : Code) : Dword :=
  let n := code.toNat
  if n < 32 then c.cr.uOld.getD n 0
  else if n = 61 then immValue .i64 c.g.bundle.himm
  else 0

/-- Condition 1 of R99 that a use can meet: N = 1 with D nonzero (R87), or a REGION that is not the first
word of its run (R185). -/
def Use.illegal (c : Ctx) : Use → Bool
  | .dst _ n d => n && decide (d ≠ 0)
  | .first => decide (c.g.count ≠ 0)
  | _ => false

/-- Condition 2 of R99: ILLEGAL-OPERAND. -/
def Use.badOperand (c : Ctx) : Use → Bool
  | .src ty code =>
    let n := code.toNat
    if n < 56 then ty.wide && n % 2 == 1
    else if n < 60 then
      ty.wide && ((c.latch c.lead)[n - 56]?.map fun e => !e.wide).getD false
    else if n = 60 then false
    else if n = 61 then c.g.bundle.himm.isEmpty
    else if n = 62 then
      match c.g.bundle.sel with
      | none => true
      | some (h, _) => ty.wide && h
    else true
  | .dst wide n d => !n && (decide (56 ≤ d.toNat) || (wide && d.toNat % 2 == 1))
  | .block _ align d => decide (56 ≤ d.toNat) || decide (d.toNat % align ≠ 0)
  | .idx limit code => decide (limit ≤ code.toNat)
  | .uni code => decide (32 ≤ code.toNat)
  | .usrc code =>
    let n := code.toNat
    decide ((32 ≤ n ∧ n < 60) ∨ 62 ≤ n) || (n == 61 && c.g.bundle.himm.isEmpty)
  | .tan code => decide (8 ≤ code.toNat)
  | .deltas code => decide (32 ≤ code.toNat)
  | .live code => decide (15 ≤ code.toNat)
  | .bad x => x
  | _ => false

/-- Condition 3 of R99: RESOURCE.  A tangent index (R141) and DEVAL's registers (R143) are tested here and in
condition 2 (log 47). -/
def Use.badResource (c : Ctx) : Use → Bool
  | .src ty code =>
    let n := code.toNat
    if n < 56 then decide (c.cr.c ≤ (if ty.wide then n + 1 else n))
    else if n = 62 then (c.g.bundle.sel.map fun x => decide (c.cr.uc ≤ x.2.toNat)).getD false
    else false
  | .dst wide n d => !n && decide (c.cr.c ≤ (if wide then d.toNat + 1 else d.toNat))
  | .block regs _ d => decide (c.cr.c < d.toNat + regs)
  | .uni code => decide (c.cr.uc ≤ code.toNat)
  | .usrc code => decide (code.toNat < 32 ∧ c.cr.uc ≤ code.toNat)
  | .bar code => decide (pktBars c.cr.packet ≤ code.toNat)
  | .tan code => decide (c.t ≤ code.toNat)
  | .deltas code => decide (0 < c.t ∧ c.cr.uc ≤ code.toNat + c.t - 1)
  | .live code => decide (c.cr.c < 4 * code.toNat)
  | .quartets v => (List.range 14).any fun j => v.getLsbD j && decide (c.cr.c ≤ 4 * j)
  | _ => false

/-- Condition 4 of R99: STALE-LATCH (R32). -/
def Use.stale (c : Ctx) : Use → Bool
  | .src _ code => decide (56 ≤ code.toNat ∧ code.toNat < 60 ∧ (c.latch c.lead).length ≤ code.toNat - 56)
  | _ => false

/-- The V registers that a use names. -/
def Use.regs : Use → List Nat
  | .src ty code => if code.toNat < 56 then (if ty.wide then [code.toNat, code.toNat + 1] else [code.toNat]) else []
  | .dst wide n d => if n then [] else if wide then [d.toNat, d.toNat + 1] else [d.toNat]
  | .block regs _ d => (List.range regs).map fun i => d.toNat + i
  | _ => []

/-- What the frame checks of a word: bit 31 (R29, R30), what its fields name, and the encoding rules of its
description (R98). -/
structure WordInfo where
  last : Bool
  uses : List Use
  legal : Bool := true
  deriving Repr

/-- The first of the conditions 1-4 of R99 that a word meets; a 25th word of a run is illegal (R29). -/
def wordTrap (i : WordInfo) (c : Ctx) : Option Trap :=
  if c.g.count ≥ Config.runWords ∨ !i.legal ∨ i.uses.any (Use.illegal c) then some .illegalInstruction
  else if i.uses.any (Use.badOperand c) then some .illegalOperand
  else if i.uses.any (Use.badResource c) then some .resource
  else if i.uses.any (Use.stale c) then some .staleLatch
  else none

/-- Whether a V register awaits a long-latency result in some lane of the group (R31). -/
def awaited (s : State) (c : Ctx) (r : Nat) : Bool :=
  s.arrivals.any fun a => a.crew == c.ci && (c.laneOf a.lane).isSome && a.writes.any fun w => w.1 == r

/-- Whether the slot stalls on the word (R31). -/
def stalls (i : WordInfo) (s : State) (c : Ctx) : Bool := i.uses.any fun u => (Use.regs u).any fun r => awaited s c r

namespace State

/-- Every lane of a crew replaced. -/
def mapLanes (s : State) (ci : Nat) (f : Nat → Lane → Lane) : State :=
  s.updCrew ci fun cr => { cr with lanes := cr.lanes.mapIdx f }

/-- The context of the word that executes. -/
def ctx? (s : State) : Option Ctx :=
  match s.curGroup? with
  | none => none
  | some g =>
    match s.crews[g.crew]? with
    | none => none
    | some cr => some ⟨s.cur.1, s.cur.2, g, cr, (s.part cr.part).nbv⟩

end State

/-- The program counters of the lanes that take part move past the word. -/
def setPcs (c : Ctx) (s : State) : State :=
  s.mapLanes c.ci fun p l =>
    match c.laneOf p with
    | some t => if c.takesPart t then l.updThread fun th => { th with pc := c.next } else l
    | none => l

/-- Every active lane of the group raises one trap at the first word of the bundle, and the run is over
(R95, R99). -/
def trapAll (c : Ctx) (tr : Trap) (pc : BitVec 56) (s : State) : State :=
  (s.mapLanes c.ci fun p l =>
    match c.laneOf p with
    | some t => if c.takesPart t then l.updThread fun th => th.takeTrap tr 0 pc else l
    | none => l).clearSlot c.core c.slot

/-- The end of a run: each lane that still takes part is between runs at its program counter, and the
slot falls free (R31, R34). -/
def endRun (s : State) : State :=
  match s.ctx? with
  | none => s
  | some c =>
    (s.mapLanes c.ci fun p l =>
      match c.laneOf p with
      | some t =>
        if c.takesPart t then
          l.updThread fun th => { th with run := if s.outstanding c.ci p then .waiting else .waking none }
        else l
      | none => l).clearSlot c.core c.slot

/-- After a word: the group stands at the next one; after the last word of the run, or once no thread is
left in the group, the slot falls free. -/
def finish (b : Bool) (s : State) : State :=
  match s.curGroup? with
  | none => s
  | some g =>
    if b then endRun s
    else if g.lanes.any fun r => r.kind == .active then
      s.updGroup s.cur.1 s.cur.2 fun g =>
        { g with addr := g.addr + 4, count := g.count + 1, bundle := Bundle.empty }
    else s.clearSlot s.cur.1 s.cur.2

/-- THE FRAME of R102: conditions 1-4, the stall of R31 or of R202 (`short`), the effect, and what
follows the word. -/
def frameWith (i : WordInfo) (s : State) (short : Ctx → Bool) (eff : Ctx → State → State) : Out :=
  match s.ctx? with
  | none => .fault .noGroup
  | some c =>
    match wordTrap i c with
    | some tr => .next (trapAll c tr c.start s)
    | none =>
      if stalls i s c || short c then .next s
      else .next (finish i.last (eff c (if i.last then setPcs c s else s)))

/-- The frame of a word that takes no outstanding request. -/
def frame (i : WordInfo) (s : State) (eff : Ctx → State → State) : Out := frameWith i s (fun _ => false) eff

/-- What a word gives one lane: a result to write and push, a Q register, flags, a stream state, or a
trap. -/
structure LaneOut where
  val : Option Val := none
  q : Option (Nat × Reg) := none
  flags : BitVec 6 := 0
  stream : Option (Dword × Dword) := none
  trap : Option Trap := none

/-- One lane after the word. -/
def LaneOut.apply (o : LaneOut) (n : Bool) (d : Code) (pc : BitVec 56) (l : Lane) : Lane :=
  match o.trap with
  | some tr => l.updThread fun th => th.takeTrap tr 0 pc
  | none =>
    let l := match o.val with
      | some v => if n then l else l.writeV d.toNat v
      | none => l
    let l := match o.q with
      | some (i, x) => l.setQ i x
      | none => l
    let l := match o.stream with
      | some (k, x) => { l with key := k, ctr := x }
      | none => l
    l.setFlags o.flags

/-- A latch stack with one more entry (R32). -/
def pushLatch (v : Val) (vs : List Val) : List Val := (v :: vs).take 4

/-- What a guarded-off lane pushes: D's current value, or zero when N = 1 (R93). -/
def Ctx.stays (c : Ctx) (wide n : Bool) (d : Code) (t : Nat) : Val :=
  if n then .plain wide c.t 0 else (c.lane t).readV wide d.toNat

/-- A word's results committed: all lanes are read before any is written (R121). -/
def commit (n : Bool) (d : Code) (wide pushes : Bool) (f : Nat → LaneOut) (c : Ctx) (s : State) : State :=
  let s := s.mapLanes c.ci fun p l =>
    match c.laneOf p with
    | some t => if c.exec t then (f t).apply n d c.start l else l
    | none => l
  s.updGroup c.core c.slot fun g =>
    { g with
      latch := g.latch.mapIdx fun t vs =>
        if !pushes then vs
        else if c.exec t then
          match (f t).val with
          | some v => pushLatch v vs
          | none => vs
        else if c.guardedOff t then pushLatch (c.stays wide n d t) vs
        else vs
      lanes := g.lanes.mapIdx fun t r =>
        if c.active t && (f t).trap.isSome then { r with kind := .gone } else r }

/-- A word whose V result, pushed and written to `d` unless N, depends on what its lanes read. -/
def vecWord (i : WordInfo) (n : Bool) (d : Code) (wide : Bool) (f : Ctx → Nat → LaneOut) (s : State) : Out :=
  frame i s fun c => commit n d wide true (f c) c

/-- A word that writes a Q register, flags or lane state, and pushes nothing. -/
def quietWord (i : WordInfo) (f : Ctx → Nat → LaneOut) (s : State) : Out :=
  frame i s fun c => commit true 0 false false (f c) c

/-- The effect of a word taken lane by lane, in ascending lane number. -/
def eachLane (p : Nat → Bool) (f : State → Nat → State) (s : State) : State :=
  ((List.range 16).filter p).foldl f s

end Sys2Proof.Machine
end

