-- ==== Sys2Proof/Machine/Integer.lean ====
section
/-!
DEFINITION. The integer, logic, comparison and bit-field instructions (R111-R119).
-/

namespace Sys2Proof.Machine

open Sys2Proof

/-- A 32-bit source. -/
def Ctx.r32 (c : Ctx) (t : Nat) (code : Code) : Word := (c.prim t .i32 code).truncate 32
/-- A 32-bit integer result, with zero tangents (R113). -/
def Ctx.int32 (c : Ctx) (x : Word) : LaneOut := { val := some (.plain false c.t (x.zeroExtend 64)) }
/-- A 64-bit integer result, with zero tangents. -/
def Ctx.int64 (c : Ctx) (x : Dword) : LaneOut := { val := some (.plain true c.t x) }
/-- A hard predicate: p 1 or 0, tag 0, dependence 0, zero tangents (R117, R139). -/
def Ctx.hard (c : Ctx) (p : Bool) : Reg := ⟨if p then 0x8000 else 0, List.replicate c.t 0⟩

/-- Two 32-bit sources to a 32-bit result. -/
def bin32 (i : WordInfo) (n : Bool) (d a c : Code) (f : Word → Word → Word) : State → Out :=
  vecWord i n d false fun k t => k.int32 (f (k.r32 t a) (k.r32 t c))
/-- One 32-bit source to a 32-bit result. -/
def un32 (i : WordInfo) (n : Bool) (d a : Code) (f : Word → Word) : State → Out :=
  vecWord i n d false fun k t => k.int32 (f (k.r32 t a))
/-- Two pairs to a pair. -/
def bin64 (i : WordInfo) (n : Bool) (d a c : Code) (f : Dword → Dword → Dword) : State → Out :=
  vecWord i n d true fun k t => k.int64 (f (k.prim t .i64 a) (k.prim t .i64 c))
/-- One pair to a pair. -/
def un64 (i : WordInfo) (n : Bool) (d a : Code) (f : Dword → Dword) : State → Out :=
  vecWord i n d true fun k t => k.int64 (f (k.prim t .i64 a))
/-- A count of bits: a 32-bit result in both widths (R112). -/
def count32 (i : WordInfo) (n : Bool) (d a : Code) (f : Word → Nat) : State → Out :=
  vecWord i n d false fun k t => k.int32 (BitVec.ofNat 32 (f (k.r32 t a)))
def count64 (i : WordInfo) (n : Bool) (d a : Code) (f : Dword → Nat) : State → Out :=
  vecWord i n d false fun k t => k.int32 (BitVec.ofNat 32 (f (k.prim t .i64 a)))
/-- A second source that is an unsigned 32-bit count in both widths (R112). -/
def shift32 (i : WordInfo) (n : Bool) (d a c : Code) (f : Word → Nat → Word) : State → Out :=
  vecWord i n d false fun k t => k.int32 (f (k.r32 t a) (k.r32 t c).toNat)
def shift64 (i : WordInfo) (n : Bool) (d a c : Code) (f : Dword → Nat → Dword) : State → Out :=
  vecWord i n d true fun k t => k.int64 (f (k.prim t .i64 a) (k.r32 t c).toNat)

/-- Bits 2w−1:w of the signed product. -/
def mulhS {w : Nat} (x y : BitVec w) : BitVec w := BitVec.ofInt w (x.toInt * y.toInt / (2 ^ w : Nat))
/-- Bits 2w−1:w of the unsigned product. -/
def mulhU {w : Nat} (x y : BitVec w) : BitVec w := BitVec.ofNat w (x.toNat * y.toNat / 2 ^ w)
def minS {w : Nat} (x y : BitVec w) : BitVec w := if y.slt x then y else x
def maxS {w : Nat} (x y : BitVec w) : BitVec w := if x.slt y then y else x
def minU {w : Nat} (x y : BitVec w) : BitVec w := if y.ult x then y else x
def maxU {w : Nat} (x y : BitVec w) : BitVec w := if x.ult y then y else x
/-- |x|; the most negative value gives itself. -/
def absS {w : Nat} (x : BitVec w) : BitVec w := if x.msb then -x else x
/-- Right shift by min(n, w−1) with sign fill. -/
def sar {w : Nat} (x : BitVec w) (n : Nat) : BitVec w := x.sshiftRight (min n (w - 1))
/-- The number of set bits. -/
def popc {w : Nat} (x : BitVec w) : Nat := ((List.range w).filter fun i => x.getLsbD i).length
/-- The number of trailing zeros; w for zero. -/
def ctz {w : Nat} (x : BitVec w) : Nat := ((List.range w).find? fun i => x.getLsbD i).getD w
/-- The number of leading zeros; w for zero. -/
def clz {w : Nat} (x : BitVec w) : Nat := ((List.range w).find? fun i => x.getMsbD i).getD w
/-- Bit i moved to bit w−1−i. -/
def brev {w : Nat} (x : BitVec w) : BitVec w := x.reverse

/-- The signed clamp of a sum, and whether it changed the value (R111, R113). -/
def satS {w : Nat} (x : Int) : BitVec w × Bool :=
  let lo : Int := -(2 ^ (w - 1) : Nat)
  let hi : Int := (2 ^ (w - 1) : Nat) - 1
  if x < lo then (BitVec.ofInt w lo, true) else if hi < x then (BitVec.ofInt w hi, true) else (BitVec.ofInt w x, false)
/-- The unsigned clamp. -/
def satU {w : Nat} (x : Int) : BitVec w × Bool :=
  let hi : Int := (2 ^ w : Nat) - 1
  if x < 0 then (0, true) else if hi < x then (BitVec.ofInt w hi, true) else (BitVec.ofInt w x, false)

/-- A saturating form: it raises saturation where the clamp changed the value (R113). -/
def sat32 (i : WordInfo) (n : Bool) (d a c : Code) (f : Word → Word → Word × Bool) : State → Out :=
  vecWord i n d false fun k t =>
    let r := f (k.r32 t a) (k.r32 t c)
    { k.int32 r.1 with flags := flagIf r.2 flagSaturation }
def sat64 (i : WordInfo) (n : Bool) (d a c : Code) (f : Dword → Dword → Dword × Bool) : State → Out :=
  vecWord i n d true fun k t =>
    let r := f (k.prim t .i64 a) (k.prim t .i64 c)
    { k.int64 r.1 with flags := flagIf r.2 flagSaturation }

/-- The conditions of ICMP (R117). -/
def icmp {w : Nat} (cc : Nat) (x y : BitVec w) : Bool :=
  match cc with
  | 0 => x == y
  | 1 => x != y
  | 2 => x.slt y
  | 3 => x.sle y
  | 4 => y.slt x
  | 5 => y.sle x
  | 6 => x.ult y
  | 7 => x.ule y
  | 8 => y.ult x
  | _ => y.ule x

/-- The field of BFX (R119): position 4:0 and length 13:8 of the second source. -/
def bfx (signed : Bool) (x y : Word) : Word :=
  let pos := bitsOf y 4 0
  let len := min (bitsOf y 13 8) 32
  let f := fld x.toNat (pos + 31) pos % 2 ^ len
  if signed && len ≠ 0 && f.testBit (len - 1) then BitVec.ofInt 32 ((f : Int) - (2 ^ len : Nat)) else BitVec.ofNat 32 f

/-- The lowest clear bits set in turn, up to a population of `n` (BFPL, R119; at most 64 turns). -/
def fillTo (n : Nat) (x : Dword) : Dword :=
  (List.range 64).foldl (fun y _ => if popc y < n then y ||| (y + 1) else y) x

/-- IADD: R111. -/
def execIadd (b : Bool) (n : Bool) (d : BitVec 6) (a : BitVec 6) (c : BitVec 6) (s : State) : Out :=
  bin32 ⟨b, [.dst false n d, .src .i32 a, .src .i32 c], true⟩ n d a c (fun x y => x + y) s

/-- ISUB: R111. -/
def execIsub (b : Bool) (n : Bool) (d : BitVec 6) (a : BitVec 6) (c : BitVec 6) (s : State) : Out :=
  bin32 ⟨b, [.dst false n d, .src .i32 a, .src .i32 c], true⟩ n d a c (fun x y => x - y) s

/-- IMUL: R111. -/
def execImul (b : Bool) (n : Bool) (d : BitVec 6) (a : BitVec 6) (c : BitVec 6) (s : State) : Out :=
  bin32 ⟨b, [.dst false n d, .src .i32 a, .src .i32 c], true⟩ n d a c (fun x y => x * y) s

/-- IMULH: R111. -/
def execImulh (b : Bool) (n : Bool) (d : BitVec 6) (a : BitVec 6) (c : BitVec 6) (s : State) : Out :=
  bin32 ⟨b, [.dst false n d, .src .i32 a, .src .i32 c], true⟩ n d a c (fun x y => mulhS x y) s

/-- IMULH.U: R111. -/
def execImulhU (b : Bool) (n : Bool) (d : BitVec 6) (a : BitVec 6) (c : BitVec 6) (s : State) : Out :=
  bin32 ⟨b, [.dst false n d, .src .i32 a, .src .i32 c], true⟩ n d a c (fun x y => mulhU x y) s

/-- INEG: R111. -/
def execIneg (b : Bool) (n : Bool) (d : BitVec 6) (a : BitVec 6) (s : State) : Out :=
  un32 ⟨b, [.dst false n d, .src .i32 a], true⟩ n d a (fun x => -x) s

/-- IABS: R111. -/
def execIabs (b : Bool) (n : Bool) (d : BitVec 6) (a : BitVec 6) (s : State) : Out :=
  un32 ⟨b, [.dst false n d, .src .i32 a], true⟩ n d a (fun x => absS x) s

/-- IMIN: R111. -/
def execImin (b : Bool) (n : Bool) (d : BitVec 6) (a : BitVec 6) (c : BitVec 6) (s : State) : Out :=
  bin32 ⟨b, [.dst false n d, .src .i32 a, .src .i32 c], true⟩ n d a c (fun x y => minS x y) s

/-- IMIN.U: R111. -/
def execIminU (b : Bool) (n : Bool) (d : BitVec 6) (a : BitVec 6) (c : BitVec 6) (s : State) : Out :=
  bin32 ⟨b, [.dst false n d, .src .i32 a, .src .i32 c], true⟩ n d a c (fun x y => minU x y) s

/-- IMAX: R111. -/
def execImax (b : Bool) (n : Bool) (d : BitVec 6) (a : BitVec 6) (c : BitVec 6) (s : State) : Out :=
  bin32 ⟨b, [.dst false n d, .src .i32 a, .src .i32 c], true⟩ n d a c (fun x y => maxS x y) s

/-- IMAX.U: R111. -/
def execImaxU (b : Bool) (n : Bool) (d : BitVec 6) (a : BitVec 6) (c : BitVec 6) (s : State) : Out :=
  bin32 ⟨b, [.dst false n d, .src .i32 a, .src .i32 c], true⟩ n d a c (fun x y => maxU x y) s

/-- AND: R111. -/
def execLand (b : Bool) (n : Bool) (d : BitVec 6) (a : BitVec 6) (c : BitVec 6) (s : State) : Out :=
  bin32 ⟨b, [.dst false n d, .src .i32 a, .src .i32 c], true⟩ n d a c (fun x y => x &&& y) s

/-- OR: R111. -/
def execLor (b : Bool) (n : Bool) (d : BitVec 6) (a : BitVec 6) (c : BitVec 6) (s : State) : Out :=
  bin32 ⟨b, [.dst false n d, .src .i32 a, .src .i32 c], true⟩ n d a c (fun x y => x ||| y) s

/-- XOR: R111. -/
def execLxor (b : Bool) (n : Bool) (d : BitVec 6) (a : BitVec 6) (c : BitVec 6) (s : State) : Out :=
  bin32 ⟨b, [.dst false n d, .src .i32 a, .src .i32 c], true⟩ n d a c (fun x y => x ^^^ y) s

/-- NOT: R111. -/
def execLnot (b : Bool) (n : Bool) (d : BitVec 6) (a : BitVec 6) (s : State) : Out :=
  un32 ⟨b, [.dst false n d, .src .i32 a], true⟩ n d a (fun x => ~~~x) s

/-- SHL: R111. -/
def execShl (b : Bool) (n : Bool) (d : BitVec 6) (a : BitVec 6) (c : BitVec 6) (s : State) : Out :=
  shift32 ⟨b, [.dst false n d, .src .i32 a, .src .i32 c], true⟩ n d a c (fun x k => if 32 ≤ k then 0 else x <<< k) s

/-- SHR: R111. -/
def execShr (b : Bool) (n : Bool) (d : BitVec 6) (a : BitVec 6) (c : BitVec 6) (s : State) : Out :=
  shift32 ⟨b, [.dst false n d, .src .i32 a, .src .i32 c], true⟩ n d a c (fun x k => x >>> k) s

/-- SAR: R111. -/
def execSar (b : Bool) (n : Bool) (d : BitVec 6) (a : BitVec 6) (c : BitVec 6) (s : State) : Out :=
  shift32 ⟨b, [.dst false n d, .src .i32 a, .src .i32 c], true⟩ n d a c (fun x k => sar x k) s

/-- ROT: R111. -/
def execRot (b : Bool) (n : Bool) (d : BitVec 6) (a : BitVec 6) (c : BitVec 6) (s : State) : Out :=
  shift32 ⟨b, [.dst false n d, .src .i32 a, .src .i32 c], true⟩ n d a c (fun x k => x.rotateLeft (k % 32)) s

/-- POPC: R111. -/
def execPopc (b : Bool) (n : Bool) (d : BitVec 6) (a : BitVec 6) (s : State) : Out :=
  count32 ⟨b, [.dst false n d, .src .i32 a], true⟩ n d a (fun x => popc x) s

/-- CLZ: R111. -/
def execClz (b : Bool) (n : Bool) (d : BitVec 6) (a : BitVec 6) (s : State) : Out :=
  count32 ⟨b, [.dst false n d, .src .i32 a], true⟩ n d a (fun x => clz x) s

/-- CTZ: R111. -/
def execCtz (b : Bool) (n : Bool) (d : BitVec 6) (a : BitVec 6) (s : State) : Out :=
  count32 ⟨b, [.dst false n d, .src .i32 a], true⟩ n d a (fun x => ctz x) s

/-- BREV: R111. -/
def execBrev (b : Bool) (n : Bool) (d : BitVec 6) (a : BitVec 6) (s : State) : Out :=
  un32 ⟨b, [.dst false n d, .src .i32 a], true⟩ n d a (fun x => brev x) s

/-- MOV: R113. -/
def execMov (b : Bool) (n : Bool) (d : BitVec 6) (a : BitVec 6) (s : State) : Out :=
  vecWord ⟨b, [.dst false n d, .src .i32 a], true⟩ n d false (fun k t => { val := some (k.opnd t .i32 a) }) s

/-- IADD.SAT: R113. -/
def execIaddSat (b : Bool) (n : Bool) (d : BitVec 6) (a : BitVec 6) (c : BitVec 6) (s : State) : Out :=
  sat32 ⟨b, [.dst false n d, .src .i32 a, .src .i32 c], true⟩ n d a c (fun x y => satS (x.toInt + y.toInt)) s

/-- ISUB.SAT: R113. -/
def execIsubSat (b : Bool) (n : Bool) (d : BitVec 6) (a : BitVec 6) (c : BitVec 6) (s : State) : Out :=
  sat32 ⟨b, [.dst false n d, .src .i32 a, .src .i32 c], true⟩ n d a c (fun x y => satS (x.toInt - y.toInt)) s

/-- IADD.USAT: R113. -/
def execIaddUsat (b : Bool) (n : Bool) (d : BitVec 6) (a : BitVec 6) (c : BitVec 6) (s : State) : Out :=
  sat32 ⟨b, [.dst false n d, .src .i32 a, .src .i32 c], true⟩ n d a c (fun x y => satU (x.toNat + y.toNat : Int)) s

/-- ISUB.USAT: R113. -/
def execIsubUsat (b : Bool) (n : Bool) (d : BitVec 6) (a : BitVec 6) (c : BitVec 6) (s : State) : Out :=
  sat32 ⟨b, [.dst false n d, .src .i32 a, .src .i32 c], true⟩ n d a c (fun x y => satU ((x.toNat : Int) - y.toNat)) s

/-- IADD.64: R111. -/
def execIadd64 (b : Bool) (n : Bool) (d : BitVec 6) (a : BitVec 6) (c : BitVec 6) (s : State) : Out :=
  bin64 ⟨b, [.dst true n d, .src .i64 a, .src .i64 c], true⟩ n d a c (fun x y => x + y) s

/-- ISUB.64: R111. -/
def execIsub64 (b : Bool) (n : Bool) (d : BitVec 6) (a : BitVec 6) (c : BitVec 6) (s : State) : Out :=
  bin64 ⟨b, [.dst true n d, .src .i64 a, .src .i64 c], true⟩ n d a c (fun x y => x - y) s

/-- IMUL.64: R111. -/
def execImul64 (b : Bool) (n : Bool) (d : BitVec 6) (a : BitVec 6) (c : BitVec 6) (s : State) : Out :=
  bin64 ⟨b, [.dst true n d, .src .i64 a, .src .i64 c], true⟩ n d a c (fun x y => x * y) s

/-- IMULH.64: R111. -/
def execImulh64 (b : Bool) (n : Bool) (d : BitVec 6) (a : BitVec 6) (c : BitVec 6) (s : State) : Out :=
  bin64 ⟨b, [.dst true n d, .src .i64 a, .src .i64 c], true⟩ n d a c (fun x y => mulhS x y) s

/-- IMULH.U.64: R111. -/
def execImulhU64 (b : Bool) (n : Bool) (d : BitVec 6) (a : BitVec 6) (c : BitVec 6) (s : State) : Out :=
  bin64 ⟨b, [.dst true n d, .src .i64 a, .src .i64 c], true⟩ n d a c (fun x y => mulhU x y) s

/-- INEG.64: R111. -/
def execIneg64 (b : Bool) (n : Bool) (d : BitVec 6) (a : BitVec 6) (s : State) : Out :=
  un64 ⟨b, [.dst true n d, .src .i64 a], true⟩ n d a (fun x => -x) s

/-- IABS.64: R111. -/
def execIabs64 (b : Bool) (n : Bool) (d : BitVec 6) (a : BitVec 6) (s : State) : Out :=
  un64 ⟨b, [.dst true n d, .src .i64 a], true⟩ n d a (fun x => absS x) s

/-- IMIN.64: R111. -/
def execImin64 (b : Bool) (n : Bool) (d : BitVec 6) (a : BitVec 6) (c : BitVec 6) (s : State) : Out :=
  bin64 ⟨b, [.dst true n d, .src .i64 a, .src .i64 c], true⟩ n d a c (fun x y => minS x y) s

/-- IMIN.U.64: R111. -/
def execIminU64 (b : Bool) (n : Bool) (d : BitVec 6) (a : BitVec 6) (c : BitVec 6) (s : State) : Out :=
  bin64 ⟨b, [.dst true n d, .src .i64 a, .src .i64 c], true⟩ n d a c (fun x y => minU x y) s

/-- IMAX.64: R111. -/
def execImax64 (b : Bool) (n : Bool) (d : BitVec 6) (a : BitVec 6) (c : BitVec 6) (s : State) : Out :=
  bin64 ⟨b, [.dst true n d, .src .i64 a, .src .i64 c], true⟩ n d a c (fun x y => maxS x y) s

/-- IMAX.U.64: R111. -/
def execImaxU64 (b : Bool) (n : Bool) (d : BitVec 6) (a : BitVec 6) (c : BitVec 6) (s : State) : Out :=
  bin64 ⟨b, [.dst true n d, .src .i64 a, .src .i64 c], true⟩ n d a c (fun x y => maxU x y) s

/-- AND.64: R111. -/
def execLand64 (b : Bool) (n : Bool) (d : BitVec 6) (a : BitVec 6) (c : BitVec 6) (s : State) : Out :=
  bin64 ⟨b, [.dst true n d, .src .i64 a, .src .i64 c], true⟩ n d a c (fun x y => x &&& y) s

/-- OR.64: R111. -/
def execLor64 (b : Bool) (n : Bool) (d : BitVec 6) (a : BitVec 6) (c : BitVec 6) (s : State) : Out :=
  bin64 ⟨b, [.dst true n d, .src .i64 a, .src .i64 c], true⟩ n d a c (fun x y => x ||| y) s

/-- XOR.64: R111. -/
def execLxor64 (b : Bool) (n : Bool) (d : BitVec 6) (a : BitVec 6) (c : BitVec 6) (s : State) : Out :=
  bin64 ⟨b, [.dst true n d, .src .i64 a, .src .i64 c], true⟩ n d a c (fun x y => x ^^^ y) s

/-- NOT.64: R111. -/
def execLnot64 (b : Bool) (n : Bool) (d : BitVec 6) (a : BitVec 6) (s : State) : Out :=
  un64 ⟨b, [.dst true n d, .src .i64 a], true⟩ n d a (fun x => ~~~x) s

/-- SHL.64: R112. -/
def execShl64 (b : Bool) (n : Bool) (d : BitVec 6) (a : BitVec 6) (c : BitVec 6) (s : State) : Out :=
  shift64 ⟨b, [.dst true n d, .src .i64 a, .src .i32 c], true⟩ n d a c (fun x k => if 64 ≤ k then 0 else x <<< k) s

/-- SHR.64: R112. -/
def execShr64 (b : Bool) (n : Bool) (d : BitVec 6) (a : BitVec 6) (c : BitVec 6) (s : State) : Out :=
  shift64 ⟨b, [.dst true n d, .src .i64 a, .src .i32 c], true⟩ n d a c (fun x k => x >>> k) s

/-- SAR.64: R112. -/
def execSar64 (b : Bool) (n : Bool) (d : BitVec 6) (a : BitVec 6) (c : BitVec 6) (s : State) : Out :=
  shift64 ⟨b, [.dst true n d, .src .i64 a, .src .i32 c], true⟩ n d a c (fun x k => sar x k) s

/-- ROT.64: R112. -/
def execRot64 (b : Bool) (n : Bool) (d : BitVec 6) (a : BitVec 6) (c : BitVec 6) (s : State) : Out :=
  shift64 ⟨b, [.dst true n d, .src .i64 a, .src .i32 c], true⟩ n d a c (fun x k => x.rotateLeft (k % 64)) s

/-- POPC.64: R112. -/
def execPopc64 (b : Bool) (n : Bool) (d : BitVec 6) (a : BitVec 6) (s : State) : Out :=
  count64 ⟨b, [.dst false n d, .src .i64 a], true⟩ n d a (fun x => popc x) s

/-- CLZ.64: R112. -/
def execClz64 (b : Bool) (n : Bool) (d : BitVec 6) (a : BitVec 6) (s : State) : Out :=
  count64 ⟨b, [.dst false n d, .src .i64 a], true⟩ n d a (fun x => clz x) s

/-- CTZ.64: R112. -/
def execCtz64 (b : Bool) (n : Bool) (d : BitVec 6) (a : BitVec 6) (s : State) : Out :=
  count64 ⟨b, [.dst false n d, .src .i64 a], true⟩ n d a (fun x => ctz x) s

/-- BREV.64: R111. -/
def execBrev64 (b : Bool) (n : Bool) (d : BitVec 6) (a : BitVec 6) (s : State) : Out :=
  un64 ⟨b, [.dst true n d, .src .i64 a], true⟩ n d a (fun x => brev x) s

/-- MOV.64: R113. -/
def execMov64 (b : Bool) (n : Bool) (d : BitVec 6) (a : BitVec 6) (s : State) : Out :=
  vecWord ⟨b, [.dst true n d, .src .i64 a], true⟩ n d true (fun k t => { val := some (k.opnd t .i64 a) }) s

/-- IADD.SAT.64: R113. -/
def execIaddSat64 (b : Bool) (n : Bool) (d : BitVec 6) (a : BitVec 6) (c : BitVec 6) (s : State) : Out :=
  sat64 ⟨b, [.dst true n d, .src .i64 a, .src .i64 c], true⟩ n d a c (fun x y => satS (x.toInt + y.toInt)) s

/-- ISUB.SAT.64: R113. -/
def execIsubSat64 (b : Bool) (n : Bool) (d : BitVec 6) (a : BitVec 6) (c : BitVec 6) (s : State) : Out :=
  sat64 ⟨b, [.dst true n d, .src .i64 a, .src .i64 c], true⟩ n d a c (fun x y => satS (x.toInt - y.toInt)) s

/-- IADD.USAT.64: R113. -/
def execIaddUsat64 (b : Bool) (n : Bool) (d : BitVec 6) (a : BitVec 6) (c : BitVec 6) (s : State) : Out :=
  sat64 ⟨b, [.dst true n d, .src .i64 a, .src .i64 c], true⟩ n d a c (fun x y => satU (x.toNat + y.toNat : Int)) s

/-- ISUB.USAT.64: R113. -/
def execIsubUsat64 (b : Bool) (n : Bool) (d : BitVec 6) (a : BitVec 6) (c : BitVec 6) (s : State) : Out :=
  sat64 ⟨b, [.dst true n d, .src .i64 a, .src .i64 c], true⟩ n d a c (fun x y => satU ((x.toNat : Int) - y.toNat)) s

/-- IMAD: R114. -/
def execImad (b : Bool) (n : Bool) (d : BitVec 6) (a : BitVec 6) (c : BitVec 6) (e : BitVec 6) (s : State) : Out :=
  vecWord ⟨b, [.dst false n d, .src .i32 a, .src .i32 c, .src .i32 e], true⟩ n d false (fun k t => k.int32 (k.r32 t a * k.r32 t c + k.r32 t e)) s

/-- IMAD.64: R114. -/
def execImad64 (b : Bool) (n : Bool) (d : BitVec 6) (a : BitVec 6) (c : BitVec 6) (e : BitVec 6) (s : State) : Out :=
  vecWord ⟨b, [.dst true n d, .src .i64 a, .src .i64 c, .src .i64 e], true⟩ n d true (fun k t => k.int64 (k.prim t .i64 a * k.prim t .i64 c + k.prim t .i64 e)) s

/-- MOVI: R115. -/
def execMovi (b : Bool) (n : Bool) (d : BitVec 6) (i : BitVec 12) (s : State) : Out :=
  vecWord ⟨b, [.dst false n d], true⟩ n d false (fun k _ => k.int32 (i.signExtend 32)) s

/-- LEA: R116. -/
def execLea (b : Bool) (n : Bool) (d : BitVec 6) (a : BitVec 6) (i : BitVec 12) (s : State) : Out :=
  vecWord ⟨b, [.dst true n d, .src .i64 a], true⟩ n d true (fun k t => k.int64 (k.prim t .i64 a + i.signExtend 64)) s

/-- ICMP: R117. -/
def execIcmp (b : Bool) (d : BitVec 6) (a : BitVec 6) (c : BitVec 6) (w : BitVec 1) (k : BitVec 4) (s : State) : Out :=
  quietWord ⟨b, [.idx 8 d, .src (if w == 1#1 then .i64 else .i32) a, .src (if w == 1#1 then .i64 else .i32) c], decide (k.toNat < 10)⟩ (fun g t =>
    let p := if w == 1#1 then icmp k.toNat (g.prim t .i64 a) (g.prim t .i64 c)
      else icmp k.toNat (g.r32 t a) (g.r32 t c)
    { q := some (d.toNat, g.hard p) }) s

/-- BFI: R118. -/
def execBfi (b : Bool) (n : Bool) (d : BitVec 6) (a : BitVec 6) (c : BitVec 6) (e : BitVec 6) (s : State) : Out :=
  vecWord ⟨b, [.dst false n d, .src .i32 a, .src .i32 c, .src .i32 e], true⟩ n d false (fun k t =>
    k.int32 ((k.r32 t a &&& k.r32 t e) ||| (k.r32 t c &&& ~~~(k.r32 t e)))) s

/-- BFX.U: R119. -/
def execBfxU (b : Bool) (n : Bool) (d : BitVec 6) (a : BitVec 6) (c : BitVec 6) (s : State) : Out :=
  bin32 ⟨b, [.dst false n d, .src .i32 a, .src .i32 c], true⟩ n d a c (fun x y => bfx false x y) s

/-- BFX.S: R119. -/
def execBfxS (b : Bool) (n : Bool) (d : BitVec 6) (a : BitVec 6) (c : BitVec 6) (s : State) : Out :=
  bin32 ⟨b, [.dst false n d, .src .i32 a, .src .i32 c], true⟩ n d a c (fun x y => bfx true x y) s

/-- BFFS: R119. -/
def execBffs (b : Bool) (n : Bool) (d : BitVec 6) (a : BitVec 6) (s : State) : Out :=
  un64 ⟨b, [.dst true n d, .src .i64 a], true⟩ n d a (fun x => x ||| (x + 1)) s

/-- BFFS.IDX: R119. -/
def execBffsIdx (b : Bool) (n : Bool) (d : BitVec 6) (a : BitVec 6) (s : State) : Out :=
  count64 ⟨b, [.dst false n d, .src .i64 a], true⟩ n d a (fun x => ctz (~~~x)) s

/-- BFPL: R119. -/
def execBfpl (b : Bool) (n : Bool) (d : BitVec 6) (a : BitVec 6) (c : BitVec 6) (s : State) : Out :=
  shift64 ⟨b, [.dst true n d, .src .i64 a, .src .i32 c], true⟩ n d a c (fun x k => fillTo (min k 64) x) s

end Sys2Proof.Machine
end

