-- ==== Sys2Proof/Machine/FloatArith.lean ====
section
/-!
DEFINITION. The floating-point instructions, conversions and tangent moves (R128-R145).
-/

namespace Sys2Proof.Machine

open Sys2Proof
open Sys2Proof.Num (Fmt Flags FFun FOp XR fprim ftan fp64 fp32 fp16 bf16)

/-- A floating-point operand type: its format, its tangents' format, and how its operands read (R131). -/
structure FTy where
  fmt : Fmt
  tfmt : Fmt
  ty : OpTy
  deriving DecidableEq, Repr

def f32T : FTy := ⟨fp32, fp32, .f32⟩
def f64T : FTy := ⟨fp64, fp64, .f64⟩
def f16T : FTy := ⟨fp16, fp32, .f16⟩
def bf16T : FTy := ⟨bf16, fp32, .f16⟩

/-- The type of a TY code (R139, R143, R150, R157). -/
def FTy.ofCode (t : BitVec 2) : FTy :=
  match t.toNat with
  | 0 => f32T
  | 1 => f64T
  | 2 => f16T
  | _ => bf16T

/-- An encoding and tangent words as an operand. -/
def FTy.op (F : FTy) (v : Val) : FOp :=
  let e := v.bits.toNat % 2 ^ F.fmt.width
  ⟨e, Num.decodeF F.fmt e, Num.isSNaN F.fmt e, v.tan.map fun w => Num.decodeF F.tfmt (w.toNat % 2 ^ F.tfmt.width)⟩

/-- A floating-point source in lane `t`. -/
def Ctx.fop (c : Ctx) (t : Nat) (F : FTy) (code : Code) : FOp := F.op (c.opnd t F.ty code)

/-- The common effect of R133. -/
def floatWord (i : WordInfo) (n : Bool) (d : Code) (F : FTy) (f : FFun) (srcs : List Code) : State → Out :=
  vecWord i n d F.ty.wide fun c t =>
    let xs := srcs.map fun r => c.fop t F r
    let y := fprim f F.fmt c.mode c.nbv xs
    let tan (k : Nat) : Dword :=
      BitVec.ofNat 64 (if Num.isNaNEnc F.fmt y.1 then Num.canonNaN F.tfmt else ftan f F.tfmt c.mode xs k)
    { val := some ⟨F.ty.wide, BitVec.ofNat 64 y.1, (List.range c.t).map tan⟩, flags := y.2.toBits }

/-- Half `h` of a packed operand (R48). -/
def half (h : Nat) (v : Val) : FOp := f16T.op ⟨false, v.bits >>> (16 * h), []⟩

/-- A packed form: each half independently, zero tangents (R131). -/
def packedWord (i : WordInfo) (n : Bool) (d : Code) (f : FFun) (srcs : List Code) : State → Out :=
  vecWord i n d false fun c t =>
    let r (h : Nat) : Nat × Flags := fprim f fp16 c.mode c.nbv (srcs.map fun x => half h (c.opnd t .f16x2 x))
    { val := some (.plain false c.t (BitVec.ofNat 64 ((r 0).1 + 2 ^ 16 * (r 1).1))),
      flags := (r 0).2.toBits ||| (r 1).2.toBits }

/-- The conditions of FCMP (R139). -/
def fcmp (cc : Nat) (x y : XR) : Bool :=
  let un := x.isNaN || y.isNaN
  match cc with
  | 0 => x.eq y
  | 1 => un || !x.eq y
  | 2 => x.lt y
  | 3 => x.lt y || x.eq y
  | 4 => y.lt x
  | 5 => y.lt x || x.eq y
  | 6 => un
  | _ => !un

/-- The float type of a conversion code 0-3 (R140). -/
def cvtFloat (x : BitVec 3) : FTy := FTy.ofCode (x.truncate 2)
/-- The integer type of a conversion code 4-7 (R140). -/
def cvtInt (x : BitVec 3) : Num.ITy :=
  match x.toNat with
  | 4 => ⟨32, true⟩
  | 5 => ⟨32, false⟩
  | 6 => ⟨64, true⟩
  | _ => ⟨64, false⟩

/-- One lane of CVT (R140, R59). -/
def cvtLane (c : Ctx) (t : Nat) (x y : BitVec 3) (a : Code) : LaneOut :=
  let v := c.opnd t (cvtTy y) a
  let wide := (cvtTy x).wide
  if y.toNat < 4 then
    let F := cvtFloat y
    let o := F.op v
    let inv : Flags := { inv := o.snan }
    if x.toNat < 4 then
      let G := cvtFloat x
      let r := Num.roundX G.fmt c.mode o.x
      let tan (w : Dword) : Dword :=
        BitVec.ofNat 64 (if o.x.isNaN then Num.canonNaN G.tfmt
          else (Num.roundX G.tfmt c.mode (Num.decodeF F.tfmt (w.toNat % 2 ^ F.tfmt.width))).1)
      { val := some ⟨wide, BitVec.ofNat 64 r.1, v.tan.map tan⟩, flags := (r.2.or inv).toBits }
    else
      let r := Num.toInteger (cvtInt x) c.mode o.x
      { val := some (.plain wide c.t (BitVec.ofNat 64 r.1)), flags := (r.2.or inv).toBits }
  else
    let r := Num.roundX (cvtFloat x).fmt c.mode (.ofRat ((cvtInt y).val v.bits.toNat))
    { val := some (.plain wide c.t (BitVec.ofNat 64 r.1)), flags := r.2.toBits }

/-- One lane of DEVAL (R144): the primal plus each tangent times its delta, rounded once; the tangents
pass unchanged.  A signalling NaN among the tangents raises nothing, and infinite terms of opposite sign raise
invalid only where no term is a quiet NaN (log 47). -/
def devalLane (c : Ctx) (t : Nat) (F : FTy) (a u : Code) : LaneOut :=
  let v := c.opnd t F.ty a
  let o := F.op v
  let deltas : List Nat := (List.range c.t).map fun k => (c.cr.uOld.getD (u.toNat + k) 0).toNat
  let terms : List XR := (List.range c.t).map fun k => (o.t k).mul (Num.decodeF fp64 (deltas.getD k 0))
  let s := terms.foldl (fun acc x => acc.add c.mode x) o.x
  let y := Num.roundX F.fmt c.mode s
  let quietIn : Bool := o.x.isNaN || (List.range c.t).any fun k =>
    (o.t k).isNaN || (Num.decodeF fp64 (deltas.getD k 0)).isNaN
  let inv : Bool := o.snan || deltas.any (fun e => Num.isSNaN fp64 e) || (s.isNaN && !quietIn)
  { val := some ⟨F.ty.wide, BitVec.ofNat 64 y.1,
      if Num.isNaNEnc F.fmt y.1 then List.replicate c.t (BitVec.ofNat 64 (Num.canonNaN F.tfmt)) else v.tan⟩,
    flags := (y.2.or { inv := inv }).toBits }

/-- FFMA.F32: R134. -/
def execFfmaF32 (b : Bool) (n : Bool) (d : BitVec 6) (a : BitVec 6) (c : BitVec 6) (e : BitVec 6) (s : State) : Out :=
  floatWord ⟨b, [.dst false n d, .src .f32 a, .src .f32 c, .src .f32 e], true⟩ n d f32T .fma [a, c, e] s

/-- FFMA.F64: R134. -/
def execFfmaF64 (b : Bool) (n : Bool) (d : BitVec 6) (a : BitVec 6) (c : BitVec 6) (e : BitVec 6) (s : State) : Out :=
  floatWord ⟨b, [.dst true n d, .src .f64 a, .src .f64 c, .src .f64 e], true⟩ n d f64T .fma [a, c, e] s

/-- FFMA.F16: R134. -/
def execFfmaF16 (b : Bool) (n : Bool) (d : BitVec 6) (a : BitVec 6) (c : BitVec 6) (e : BitVec 6) (s : State) : Out :=
  floatWord ⟨b, [.dst false n d, .src .f16 a, .src .f16 c, .src .f16 e], true⟩ n d f16T .fma [a, c, e] s

/-- FFMA.BF16: R134. -/
def execFfmaBf16 (b : Bool) (n : Bool) (d : BitVec 6) (a : BitVec 6) (c : BitVec 6) (e : BitVec 6) (s : State) : Out :=
  floatWord ⟨b, [.dst false n d, .src .f16 a, .src .f16 c, .src .f16 e], true⟩ n d bf16T .fma [a, c, e] s

/-- FFMA.F16X2: R134. -/
def execFfmaF16x2 (b : Bool) (n : Bool) (d : BitVec 6) (a : BitVec 6) (c : BitVec 6) (e : BitVec 6) (s : State) : Out :=
  packedWord ⟨b, [.dst false n d, .src .f16x2 a, .src .f16x2 c, .src .f16x2 e], true⟩ n d .fma [a, c, e] s

/-- FADD.F32: R135. -/
def execFaddF32 (b : Bool) (n : Bool) (d : BitVec 6) (a : BitVec 6) (c : BitVec 6) (s : State) : Out :=
  floatWord ⟨b, [.dst false n d, .src .f32 a, .src .f32 c], true⟩ n d f32T .add [a, c] s

/-- FSUB.F32: R135. -/
def execFsubF32 (b : Bool) (n : Bool) (d : BitVec 6) (a : BitVec 6) (c : BitVec 6) (s : State) : Out :=
  floatWord ⟨b, [.dst false n d, .src .f32 a, .src .f32 c], true⟩ n d f32T .sub [a, c] s

/-- FMUL.F32: R135. -/
def execFmulF32 (b : Bool) (n : Bool) (d : BitVec 6) (a : BitVec 6) (c : BitVec 6) (s : State) : Out :=
  floatWord ⟨b, [.dst false n d, .src .f32 a, .src .f32 c], true⟩ n d f32T .mul [a, c] s

/-- FMIN.F32: R136. -/
def execFminF32 (b : Bool) (n : Bool) (d : BitVec 6) (a : BitVec 6) (c : BitVec 6) (s : State) : Out :=
  floatWord ⟨b, [.dst false n d, .src .f32 a, .src .f32 c], true⟩ n d f32T .min [a, c] s

/-- FMAX.F32: R136. -/
def execFmaxF32 (b : Bool) (n : Bool) (d : BitVec 6) (a : BitVec 6) (c : BitVec 6) (s : State) : Out :=
  floatWord ⟨b, [.dst false n d, .src .f32 a, .src .f32 c], true⟩ n d f32T .max [a, c] s

/-- FABS.F32: R136. -/
def execFabsF32 (b : Bool) (n : Bool) (d : BitVec 6) (a : BitVec 6) (s : State) : Out :=
  floatWord ⟨b, [.dst false n d, .src .f32 a], true⟩ n d f32T .abs [a] s

/-- FNEG.F32: R136. -/
def execFnegF32 (b : Bool) (n : Bool) (d : BitVec 6) (a : BitVec 6) (s : State) : Out :=
  floatWord ⟨b, [.dst false n d, .src .f32 a], true⟩ n d f32T .neg [a] s

/-- FDIV.F32: R135. -/
def execFdivF32 (b : Bool) (n : Bool) (d : BitVec 6) (a : BitVec 6) (c : BitVec 6) (s : State) : Out :=
  floatWord ⟨b, [.dst false n d, .src .f32 a, .src .f32 c], true⟩ n d f32T .div [a, c] s

/-- FRCP.F32: R135. -/
def execFrcpF32 (b : Bool) (n : Bool) (d : BitVec 6) (a : BitVec 6) (s : State) : Out :=
  floatWord ⟨b, [.dst false n d, .src .f32 a], true⟩ n d f32T .rcp [a] s

/-- FRSQ.F32: R135. -/
def execFrsqF32 (b : Bool) (n : Bool) (d : BitVec 6) (a : BitVec 6) (s : State) : Out :=
  floatWord ⟨b, [.dst false n d, .src .f32 a], true⟩ n d f32T .rsq [a] s

/-- FSQRT.F32: R135. -/
def execFsqrtF32 (b : Bool) (n : Bool) (d : BitVec 6) (a : BitVec 6) (s : State) : Out :=
  floatWord ⟨b, [.dst false n d, .src .f32 a], true⟩ n d f32T .sqrt [a] s

/-- FEXP2.F32: R135. -/
def execFexp2F32 (b : Bool) (n : Bool) (d : BitVec 6) (a : BitVec 6) (s : State) : Out :=
  floatWord ⟨b, [.dst false n d, .src .f32 a], true⟩ n d f32T .exp2 [a] s

/-- FLOG2.F32: R135. -/
def execFlog2F32 (b : Bool) (n : Bool) (d : BitVec 6) (a : BitVec 6) (s : State) : Out :=
  floatWord ⟨b, [.dst false n d, .src .f32 a], true⟩ n d f32T .log2 [a] s

/-- FSIN.F32: R135. -/
def execFsinF32 (b : Bool) (n : Bool) (d : BitVec 6) (a : BitVec 6) (s : State) : Out :=
  floatWord ⟨b, [.dst false n d, .src .f32 a], true⟩ n d f32T .sin [a] s

/-- FCOS.F32: R135. -/
def execFcosF32 (b : Bool) (n : Bool) (d : BitVec 6) (a : BitVec 6) (s : State) : Out :=
  floatWord ⟨b, [.dst false n d, .src .f32 a], true⟩ n d f32T .cos [a] s

/-- FFLOOR.F32: R136. -/
def execFfloorF32 (b : Bool) (n : Bool) (d : BitVec 6) (a : BitVec 6) (s : State) : Out :=
  floatWord ⟨b, [.dst false n d, .src .f32 a], true⟩ n d f32T .floor [a] s

/-- FCEIL.F32: R136. -/
def execFceilF32 (b : Bool) (n : Bool) (d : BitVec 6) (a : BitVec 6) (s : State) : Out :=
  floatWord ⟨b, [.dst false n d, .src .f32 a], true⟩ n d f32T .ceil [a] s

/-- FRND.F32: R136. -/
def execFrndF32 (b : Bool) (n : Bool) (d : BitVec 6) (a : BitVec 6) (s : State) : Out :=
  floatWord ⟨b, [.dst false n d, .src .f32 a], true⟩ n d f32T .rnd [a] s

/-- FFRAC.F32: R136. -/
def execFfracF32 (b : Bool) (n : Bool) (d : BitVec 6) (a : BitVec 6) (s : State) : Out :=
  floatWord ⟨b, [.dst false n d, .src .f32 a], true⟩ n d f32T .frac [a] s

/-- FADD.F64: R135. -/
def execFaddF64 (b : Bool) (n : Bool) (d : BitVec 6) (a : BitVec 6) (c : BitVec 6) (s : State) : Out :=
  floatWord ⟨b, [.dst true n d, .src .f64 a, .src .f64 c], true⟩ n d f64T .add [a, c] s

/-- FSUB.F64: R135. -/
def execFsubF64 (b : Bool) (n : Bool) (d : BitVec 6) (a : BitVec 6) (c : BitVec 6) (s : State) : Out :=
  floatWord ⟨b, [.dst true n d, .src .f64 a, .src .f64 c], true⟩ n d f64T .sub [a, c] s

/-- FMUL.F64: R135. -/
def execFmulF64 (b : Bool) (n : Bool) (d : BitVec 6) (a : BitVec 6) (c : BitVec 6) (s : State) : Out :=
  floatWord ⟨b, [.dst true n d, .src .f64 a, .src .f64 c], true⟩ n d f64T .mul [a, c] s

/-- FMIN.F64: R136. -/
def execFminF64 (b : Bool) (n : Bool) (d : BitVec 6) (a : BitVec 6) (c : BitVec 6) (s : State) : Out :=
  floatWord ⟨b, [.dst true n d, .src .f64 a, .src .f64 c], true⟩ n d f64T .min [a, c] s

/-- FMAX.F64: R136. -/
def execFmaxF64 (b : Bool) (n : Bool) (d : BitVec 6) (a : BitVec 6) (c : BitVec 6) (s : State) : Out :=
  floatWord ⟨b, [.dst true n d, .src .f64 a, .src .f64 c], true⟩ n d f64T .max [a, c] s

/-- FABS.F64: R136. -/
def execFabsF64 (b : Bool) (n : Bool) (d : BitVec 6) (a : BitVec 6) (s : State) : Out :=
  floatWord ⟨b, [.dst true n d, .src .f64 a], true⟩ n d f64T .abs [a] s

/-- FNEG.F64: R136. -/
def execFnegF64 (b : Bool) (n : Bool) (d : BitVec 6) (a : BitVec 6) (s : State) : Out :=
  floatWord ⟨b, [.dst true n d, .src .f64 a], true⟩ n d f64T .neg [a] s

/-- FDIV.F64: R135. -/
def execFdivF64 (b : Bool) (n : Bool) (d : BitVec 6) (a : BitVec 6) (c : BitVec 6) (s : State) : Out :=
  floatWord ⟨b, [.dst true n d, .src .f64 a, .src .f64 c], true⟩ n d f64T .div [a, c] s

/-- FRCP.F64: R135. -/
def execFrcpF64 (b : Bool) (n : Bool) (d : BitVec 6) (a : BitVec 6) (s : State) : Out :=
  floatWord ⟨b, [.dst true n d, .src .f64 a], true⟩ n d f64T .rcp [a] s

/-- FRSQ.F64: R135. -/
def execFrsqF64 (b : Bool) (n : Bool) (d : BitVec 6) (a : BitVec 6) (s : State) : Out :=
  floatWord ⟨b, [.dst true n d, .src .f64 a], true⟩ n d f64T .rsq [a] s

/-- FSQRT.F64: R135. -/
def execFsqrtF64 (b : Bool) (n : Bool) (d : BitVec 6) (a : BitVec 6) (s : State) : Out :=
  floatWord ⟨b, [.dst true n d, .src .f64 a], true⟩ n d f64T .sqrt [a] s

/-- FEXP2.F64: R135. -/
def execFexp2F64 (b : Bool) (n : Bool) (d : BitVec 6) (a : BitVec 6) (s : State) : Out :=
  floatWord ⟨b, [.dst true n d, .src .f64 a], true⟩ n d f64T .exp2 [a] s

/-- FLOG2.F64: R135. -/
def execFlog2F64 (b : Bool) (n : Bool) (d : BitVec 6) (a : BitVec 6) (s : State) : Out :=
  floatWord ⟨b, [.dst true n d, .src .f64 a], true⟩ n d f64T .log2 [a] s

/-- FSIN.F64: R135. -/
def execFsinF64 (b : Bool) (n : Bool) (d : BitVec 6) (a : BitVec 6) (s : State) : Out :=
  floatWord ⟨b, [.dst true n d, .src .f64 a], true⟩ n d f64T .sin [a] s

/-- FCOS.F64: R135. -/
def execFcosF64 (b : Bool) (n : Bool) (d : BitVec 6) (a : BitVec 6) (s : State) : Out :=
  floatWord ⟨b, [.dst true n d, .src .f64 a], true⟩ n d f64T .cos [a] s

/-- FFLOOR.F64: R136. -/
def execFfloorF64 (b : Bool) (n : Bool) (d : BitVec 6) (a : BitVec 6) (s : State) : Out :=
  floatWord ⟨b, [.dst true n d, .src .f64 a], true⟩ n d f64T .floor [a] s

/-- FCEIL.F64: R136. -/
def execFceilF64 (b : Bool) (n : Bool) (d : BitVec 6) (a : BitVec 6) (s : State) : Out :=
  floatWord ⟨b, [.dst true n d, .src .f64 a], true⟩ n d f64T .ceil [a] s

/-- FRND.F64: R136. -/
def execFrndF64 (b : Bool) (n : Bool) (d : BitVec 6) (a : BitVec 6) (s : State) : Out :=
  floatWord ⟨b, [.dst true n d, .src .f64 a], true⟩ n d f64T .rnd [a] s

/-- FFRAC.F64: R136. -/
def execFfracF64 (b : Bool) (n : Bool) (d : BitVec 6) (a : BitVec 6) (s : State) : Out :=
  floatWord ⟨b, [.dst true n d, .src .f64 a], true⟩ n d f64T .frac [a] s

/-- FADD.F16: R135. -/
def execFaddF16 (b : Bool) (n : Bool) (d : BitVec 6) (a : BitVec 6) (c : BitVec 6) (s : State) : Out :=
  floatWord ⟨b, [.dst false n d, .src .f16 a, .src .f16 c], true⟩ n d f16T .add [a, c] s

/-- FSUB.F16: R135. -/
def execFsubF16 (b : Bool) (n : Bool) (d : BitVec 6) (a : BitVec 6) (c : BitVec 6) (s : State) : Out :=
  floatWord ⟨b, [.dst false n d, .src .f16 a, .src .f16 c], true⟩ n d f16T .sub [a, c] s

/-- FMUL.F16: R135. -/
def execFmulF16 (b : Bool) (n : Bool) (d : BitVec 6) (a : BitVec 6) (c : BitVec 6) (s : State) : Out :=
  floatWord ⟨b, [.dst false n d, .src .f16 a, .src .f16 c], true⟩ n d f16T .mul [a, c] s

/-- FMIN.F16: R136. -/
def execFminF16 (b : Bool) (n : Bool) (d : BitVec 6) (a : BitVec 6) (c : BitVec 6) (s : State) : Out :=
  floatWord ⟨b, [.dst false n d, .src .f16 a, .src .f16 c], true⟩ n d f16T .min [a, c] s

/-- FMAX.F16: R136. -/
def execFmaxF16 (b : Bool) (n : Bool) (d : BitVec 6) (a : BitVec 6) (c : BitVec 6) (s : State) : Out :=
  floatWord ⟨b, [.dst false n d, .src .f16 a, .src .f16 c], true⟩ n d f16T .max [a, c] s

/-- FABS.F16: R136. -/
def execFabsF16 (b : Bool) (n : Bool) (d : BitVec 6) (a : BitVec 6) (s : State) : Out :=
  floatWord ⟨b, [.dst false n d, .src .f16 a], true⟩ n d f16T .abs [a] s

/-- FNEG.F16: R136. -/
def execFnegF16 (b : Bool) (n : Bool) (d : BitVec 6) (a : BitVec 6) (s : State) : Out :=
  floatWord ⟨b, [.dst false n d, .src .f16 a], true⟩ n d f16T .neg [a] s

/-- FDIV.F16: R135. -/
def execFdivF16 (b : Bool) (n : Bool) (d : BitVec 6) (a : BitVec 6) (c : BitVec 6) (s : State) : Out :=
  floatWord ⟨b, [.dst false n d, .src .f16 a, .src .f16 c], true⟩ n d f16T .div [a, c] s

/-- FRCP.F16: R135. -/
def execFrcpF16 (b : Bool) (n : Bool) (d : BitVec 6) (a : BitVec 6) (s : State) : Out :=
  floatWord ⟨b, [.dst false n d, .src .f16 a], true⟩ n d f16T .rcp [a] s

/-- FRSQ.F16: R135. -/
def execFrsqF16 (b : Bool) (n : Bool) (d : BitVec 6) (a : BitVec 6) (s : State) : Out :=
  floatWord ⟨b, [.dst false n d, .src .f16 a], true⟩ n d f16T .rsq [a] s

/-- FSQRT.F16: R135. -/
def execFsqrtF16 (b : Bool) (n : Bool) (d : BitVec 6) (a : BitVec 6) (s : State) : Out :=
  floatWord ⟨b, [.dst false n d, .src .f16 a], true⟩ n d f16T .sqrt [a] s

/-- FEXP2.F16: R135. -/
def execFexp2F16 (b : Bool) (n : Bool) (d : BitVec 6) (a : BitVec 6) (s : State) : Out :=
  floatWord ⟨b, [.dst false n d, .src .f16 a], true⟩ n d f16T .exp2 [a] s

/-- FLOG2.F16: R135. -/
def execFlog2F16 (b : Bool) (n : Bool) (d : BitVec 6) (a : BitVec 6) (s : State) : Out :=
  floatWord ⟨b, [.dst false n d, .src .f16 a], true⟩ n d f16T .log2 [a] s

/-- FSIN.F16: R135. -/
def execFsinF16 (b : Bool) (n : Bool) (d : BitVec 6) (a : BitVec 6) (s : State) : Out :=
  floatWord ⟨b, [.dst false n d, .src .f16 a], true⟩ n d f16T .sin [a] s

/-- FCOS.F16: R135. -/
def execFcosF16 (b : Bool) (n : Bool) (d : BitVec 6) (a : BitVec 6) (s : State) : Out :=
  floatWord ⟨b, [.dst false n d, .src .f16 a], true⟩ n d f16T .cos [a] s

/-- FFLOOR.F16: R136. -/
def execFfloorF16 (b : Bool) (n : Bool) (d : BitVec 6) (a : BitVec 6) (s : State) : Out :=
  floatWord ⟨b, [.dst false n d, .src .f16 a], true⟩ n d f16T .floor [a] s

/-- FCEIL.F16: R136. -/
def execFceilF16 (b : Bool) (n : Bool) (d : BitVec 6) (a : BitVec 6) (s : State) : Out :=
  floatWord ⟨b, [.dst false n d, .src .f16 a], true⟩ n d f16T .ceil [a] s

/-- FRND.F16: R136. -/
def execFrndF16 (b : Bool) (n : Bool) (d : BitVec 6) (a : BitVec 6) (s : State) : Out :=
  floatWord ⟨b, [.dst false n d, .src .f16 a], true⟩ n d f16T .rnd [a] s

/-- FFRAC.F16: R136. -/
def execFfracF16 (b : Bool) (n : Bool) (d : BitVec 6) (a : BitVec 6) (s : State) : Out :=
  floatWord ⟨b, [.dst false n d, .src .f16 a], true⟩ n d f16T .frac [a] s

/-- FADD.BF16: R135. -/
def execFaddBf16 (b : Bool) (n : Bool) (d : BitVec 6) (a : BitVec 6) (c : BitVec 6) (s : State) : Out :=
  floatWord ⟨b, [.dst false n d, .src .f16 a, .src .f16 c], true⟩ n d bf16T .add [a, c] s

/-- FSUB.BF16: R135. -/
def execFsubBf16 (b : Bool) (n : Bool) (d : BitVec 6) (a : BitVec 6) (c : BitVec 6) (s : State) : Out :=
  floatWord ⟨b, [.dst false n d, .src .f16 a, .src .f16 c], true⟩ n d bf16T .sub [a, c] s

/-- FMUL.BF16: R135. -/
def execFmulBf16 (b : Bool) (n : Bool) (d : BitVec 6) (a : BitVec 6) (c : BitVec 6) (s : State) : Out :=
  floatWord ⟨b, [.dst false n d, .src .f16 a, .src .f16 c], true⟩ n d bf16T .mul [a, c] s

/-- FMIN.BF16: R136. -/
def execFminBf16 (b : Bool) (n : Bool) (d : BitVec 6) (a : BitVec 6) (c : BitVec 6) (s : State) : Out :=
  floatWord ⟨b, [.dst false n d, .src .f16 a, .src .f16 c], true⟩ n d bf16T .min [a, c] s

/-- FMAX.BF16: R136. -/
def execFmaxBf16 (b : Bool) (n : Bool) (d : BitVec 6) (a : BitVec 6) (c : BitVec 6) (s : State) : Out :=
  floatWord ⟨b, [.dst false n d, .src .f16 a, .src .f16 c], true⟩ n d bf16T .max [a, c] s

/-- FABS.BF16: R136. -/
def execFabsBf16 (b : Bool) (n : Bool) (d : BitVec 6) (a : BitVec 6) (s : State) : Out :=
  floatWord ⟨b, [.dst false n d, .src .f16 a], true⟩ n d bf16T .abs [a] s

/-- FNEG.BF16: R136. -/
def execFnegBf16 (b : Bool) (n : Bool) (d : BitVec 6) (a : BitVec 6) (s : State) : Out :=
  floatWord ⟨b, [.dst false n d, .src .f16 a], true⟩ n d bf16T .neg [a] s

/-- FDIV.BF16: R135. -/
def execFdivBf16 (b : Bool) (n : Bool) (d : BitVec 6) (a : BitVec 6) (c : BitVec 6) (s : State) : Out :=
  floatWord ⟨b, [.dst false n d, .src .f16 a, .src .f16 c], true⟩ n d bf16T .div [a, c] s

/-- FRCP.BF16: R135. -/
def execFrcpBf16 (b : Bool) (n : Bool) (d : BitVec 6) (a : BitVec 6) (s : State) : Out :=
  floatWord ⟨b, [.dst false n d, .src .f16 a], true⟩ n d bf16T .rcp [a] s

/-- FRSQ.BF16: R135. -/
def execFrsqBf16 (b : Bool) (n : Bool) (d : BitVec 6) (a : BitVec 6) (s : State) : Out :=
  floatWord ⟨b, [.dst false n d, .src .f16 a], true⟩ n d bf16T .rsq [a] s

/-- FSQRT.BF16: R135. -/
def execFsqrtBf16 (b : Bool) (n : Bool) (d : BitVec 6) (a : BitVec 6) (s : State) : Out :=
  floatWord ⟨b, [.dst false n d, .src .f16 a], true⟩ n d bf16T .sqrt [a] s

/-- FEXP2.BF16: R135. -/
def execFexp2Bf16 (b : Bool) (n : Bool) (d : BitVec 6) (a : BitVec 6) (s : State) : Out :=
  floatWord ⟨b, [.dst false n d, .src .f16 a], true⟩ n d bf16T .exp2 [a] s

/-- FLOG2.BF16: R135. -/
def execFlog2Bf16 (b : Bool) (n : Bool) (d : BitVec 6) (a : BitVec 6) (s : State) : Out :=
  floatWord ⟨b, [.dst false n d, .src .f16 a], true⟩ n d bf16T .log2 [a] s

/-- FSIN.BF16: R135. -/
def execFsinBf16 (b : Bool) (n : Bool) (d : BitVec 6) (a : BitVec 6) (s : State) : Out :=
  floatWord ⟨b, [.dst false n d, .src .f16 a], true⟩ n d bf16T .sin [a] s

/-- FCOS.BF16: R135. -/
def execFcosBf16 (b : Bool) (n : Bool) (d : BitVec 6) (a : BitVec 6) (s : State) : Out :=
  floatWord ⟨b, [.dst false n d, .src .f16 a], true⟩ n d bf16T .cos [a] s

/-- FFLOOR.BF16: R136. -/
def execFfloorBf16 (b : Bool) (n : Bool) (d : BitVec 6) (a : BitVec 6) (s : State) : Out :=
  floatWord ⟨b, [.dst false n d, .src .f16 a], true⟩ n d bf16T .floor [a] s

/-- FCEIL.BF16: R136. -/
def execFceilBf16 (b : Bool) (n : Bool) (d : BitVec 6) (a : BitVec 6) (s : State) : Out :=
  floatWord ⟨b, [.dst false n d, .src .f16 a], true⟩ n d bf16T .ceil [a] s

/-- FRND.BF16: R136. -/
def execFrndBf16 (b : Bool) (n : Bool) (d : BitVec 6) (a : BitVec 6) (s : State) : Out :=
  floatWord ⟨b, [.dst false n d, .src .f16 a], true⟩ n d bf16T .rnd [a] s

/-- FFRAC.BF16: R136. -/
def execFfracBf16 (b : Bool) (n : Bool) (d : BitVec 6) (a : BitVec 6) (s : State) : Out :=
  floatWord ⟨b, [.dst false n d, .src .f16 a], true⟩ n d bf16T .frac [a] s

/-- FADD.F16X2: R135. -/
def execFaddF16x2 (b : Bool) (n : Bool) (d : BitVec 6) (a : BitVec 6) (c : BitVec 6) (s : State) : Out :=
  packedWord ⟨b, [.dst false n d, .src .f16x2 a, .src .f16x2 c], true⟩ n d .add [a, c] s

/-- FSUB.F16X2: R135. -/
def execFsubF16x2 (b : Bool) (n : Bool) (d : BitVec 6) (a : BitVec 6) (c : BitVec 6) (s : State) : Out :=
  packedWord ⟨b, [.dst false n d, .src .f16x2 a, .src .f16x2 c], true⟩ n d .sub [a, c] s

/-- FMUL.F16X2: R135. -/
def execFmulF16x2 (b : Bool) (n : Bool) (d : BitVec 6) (a : BitVec 6) (c : BitVec 6) (s : State) : Out :=
  packedWord ⟨b, [.dst false n d, .src .f16x2 a, .src .f16x2 c], true⟩ n d .mul [a, c] s

/-- FMIN.F16X2: R136. -/
def execFminF16x2 (b : Bool) (n : Bool) (d : BitVec 6) (a : BitVec 6) (c : BitVec 6) (s : State) : Out :=
  packedWord ⟨b, [.dst false n d, .src .f16x2 a, .src .f16x2 c], true⟩ n d .min [a, c] s

/-- FMAX.F16X2: R136. -/
def execFmaxF16x2 (b : Bool) (n : Bool) (d : BitVec 6) (a : BitVec 6) (c : BitVec 6) (s : State) : Out :=
  packedWord ⟨b, [.dst false n d, .src .f16x2 a, .src .f16x2 c], true⟩ n d .max [a, c] s

/-- FABS.F16X2: R136. -/
def execFabsF16x2 (b : Bool) (n : Bool) (d : BitVec 6) (a : BitVec 6) (s : State) : Out :=
  packedWord ⟨b, [.dst false n d, .src .f16x2 a], true⟩ n d .abs [a] s

/-- FNEG.F16X2: R136. -/
def execFnegF16x2 (b : Bool) (n : Bool) (d : BitVec 6) (a : BitVec 6) (s : State) : Out :=
  packedWord ⟨b, [.dst false n d, .src .f16x2 a], true⟩ n d .neg [a] s

/-- FDIV.F16X2: R135. -/
def execFdivF16x2 (b : Bool) (n : Bool) (d : BitVec 6) (a : BitVec 6) (c : BitVec 6) (s : State) : Out :=
  packedWord ⟨b, [.dst false n d, .src .f16x2 a, .src .f16x2 c], true⟩ n d .div [a, c] s

/-- FRCP.F16X2: R135. -/
def execFrcpF16x2 (b : Bool) (n : Bool) (d : BitVec 6) (a : BitVec 6) (s : State) : Out :=
  packedWord ⟨b, [.dst false n d, .src .f16x2 a], true⟩ n d .rcp [a] s

/-- FRSQ.F16X2: R135. -/
def execFrsqF16x2 (b : Bool) (n : Bool) (d : BitVec 6) (a : BitVec 6) (s : State) : Out :=
  packedWord ⟨b, [.dst false n d, .src .f16x2 a], true⟩ n d .rsq [a] s

/-- FSQRT.F16X2: R135. -/
def execFsqrtF16x2 (b : Bool) (n : Bool) (d : BitVec 6) (a : BitVec 6) (s : State) : Out :=
  packedWord ⟨b, [.dst false n d, .src .f16x2 a], true⟩ n d .sqrt [a] s

/-- FEXP2.F16X2: R135. -/
def execFexp2F16x2 (b : Bool) (n : Bool) (d : BitVec 6) (a : BitVec 6) (s : State) : Out :=
  packedWord ⟨b, [.dst false n d, .src .f16x2 a], true⟩ n d .exp2 [a] s

/-- FLOG2.F16X2: R135. -/
def execFlog2F16x2 (b : Bool) (n : Bool) (d : BitVec 6) (a : BitVec 6) (s : State) : Out :=
  packedWord ⟨b, [.dst false n d, .src .f16x2 a], true⟩ n d .log2 [a] s

/-- FSIN.F16X2: R135. -/
def execFsinF16x2 (b : Bool) (n : Bool) (d : BitVec 6) (a : BitVec 6) (s : State) : Out :=
  packedWord ⟨b, [.dst false n d, .src .f16x2 a], true⟩ n d .sin [a] s

/-- FCOS.F16X2: R135. -/
def execFcosF16x2 (b : Bool) (n : Bool) (d : BitVec 6) (a : BitVec 6) (s : State) : Out :=
  packedWord ⟨b, [.dst false n d, .src .f16x2 a], true⟩ n d .cos [a] s

/-- FFLOOR.F16X2: R136. -/
def execFfloorF16x2 (b : Bool) (n : Bool) (d : BitVec 6) (a : BitVec 6) (s : State) : Out :=
  packedWord ⟨b, [.dst false n d, .src .f16x2 a], true⟩ n d .floor [a] s

/-- FCEIL.F16X2: R136. -/
def execFceilF16x2 (b : Bool) (n : Bool) (d : BitVec 6) (a : BitVec 6) (s : State) : Out :=
  packedWord ⟨b, [.dst false n d, .src .f16x2 a], true⟩ n d .ceil [a] s

/-- FRND.F16X2: R136. -/
def execFrndF16x2 (b : Bool) (n : Bool) (d : BitVec 6) (a : BitVec 6) (s : State) : Out :=
  packedWord ⟨b, [.dst false n d, .src .f16x2 a], true⟩ n d .rnd [a] s

/-- FFRAC.F16X2: R136. -/
def execFfracF16x2 (b : Bool) (n : Bool) (d : BitVec 6) (a : BitVec 6) (s : State) : Out :=
  packedWord ⟨b, [.dst false n d, .src .f16x2 a], true⟩ n d .frac [a] s

/-- FCMP: R139. -/
def execFcmp (b : Bool) (d : BitVec 6) (a : BitVec 6) (c : BitVec 6) (t : BitVec 2) (k : BitVec 3) (s : State) : Out :=
  quietWord ⟨b, [.idx 8 d, .src (floatTy t) a, .src (floatTy t) c], true⟩ (fun g u =>
    let F := FTy.ofCode t
    let x := g.fop u F a
    let y := g.fop u F c
    { q := some (d.toNat, g.hard (fcmp k.toNat x.x y.x)), flags := flagIf (x.snan || y.snan) flagInvalid }) s

/-- CVT: R140. -/
def execCvt (b : Bool) (n : Bool) (d : BitVec 6) (a : BitVec 6) (x : BitVec 3) (y : BitVec 3) (s : State) : Out :=
  vecWord ⟨b, [.dst (cvtTy x).wide n d, .src (cvtTy y) a], decide (x ≠ y) && !(decide (4 ≤ x.toNat) && decide (4 ≤ y.toNat))⟩ n d (cvtTy x).wide (fun g t => cvtLane g t x y a) s

/-- DSEED.F32: R141. -/
def execDseedF32 (b : Bool) (n : Bool) (d : BitVec 6) (a : BitVec 6) (k : BitVec 6) (s : State) : Out :=
  vecWord ⟨b, [.dst false n d, .src .f32 a, .tan k], true⟩ n d false (fun g t =>
    let v := g.opnd t .f32 a
    { val := some { v with tan := (List.range g.t).map fun j => if j = k.toNat then 0x3F800000 else 0 } }) s

/-- DSEED.F64: R141. -/
def execDseedF64 (b : Bool) (n : Bool) (d : BitVec 6) (a : BitVec 6) (k : BitVec 6) (s : State) : Out :=
  vecWord ⟨b, [.dst true n d, .src .f64 a, .tan k], true⟩ n d true (fun g t =>
    let v := g.opnd t .f64 a
    { val := some { v with tan := (List.range g.t).map fun j => if j = k.toNat then 0x3FF0000000000000 else 0 } }) s

/-- DZERO: R141. -/
def execDzero (b : Bool) (n : Bool) (d : BitVec 6) (a : BitVec 6) (s : State) : Out :=
  vecWord ⟨b, [.dst false n d, .src .i32 a], true⟩ n d false (fun g t => { val := some (.plain false g.t (g.prim t .i32 a)) }) s

/-- DZERO.64: R141. -/
def execDzero64 (b : Bool) (n : Bool) (d : BitVec 6) (a : BitVec 6) (s : State) : Out :=
  vecWord ⟨b, [.dst true n d, .src .i64 a], true⟩ n d true (fun g t => { val := some (.plain true g.t (g.prim t .i64 a)) }) s

/-- DGET.F32: R141. -/
def execDgetF32 (b : Bool) (n : Bool) (d : BitVec 6) (a : BitVec 6) (k : BitVec 6) (s : State) : Out :=
  vecWord ⟨b, [.dst false n d, .src .f32 a, .tan k], true⟩ n d false (fun g t =>
    { val := some (.plain false g.t ((g.opnd t .f32 a).tan.getD k.toNat 0)) }) s

/-- DGET.F64: R141. -/
def execDgetF64 (b : Bool) (n : Bool) (d : BitVec 6) (a : BitVec 6) (k : BitVec 6) (s : State) : Out :=
  vecWord ⟨b, [.dst true n d, .src .f64 a, .tan k], true⟩ n d true (fun g t =>
    { val := some (.plain true g.t ((g.opnd t .f64 a).tan.getD k.toNat 0)) }) s

/-- DPUT.F32: R142. -/
def execDputF32 (b : Bool) (d : BitVec 6) (a : BitVec 6) (k : BitVec 6) (s : State) : Out :=
  vecWord ⟨b, [.dst false false d, .src .f32 a, .tan k], true⟩ false d false (fun g t =>
    let v := (g.lane t).readV false d.toNat
    { val := some { v with tan := v.tan.set k.toNat (g.prim t .f32 a) } }) s

/-- DPUT.F64: R142. -/
def execDputF64 (b : Bool) (d : BitVec 6) (a : BitVec 6) (k : BitVec 6) (s : State) : Out :=
  vecWord ⟨b, [.dst true false d, .src .f64 a, .tan k], true⟩ false d true (fun g t =>
    let v := (g.lane t).readV true d.toNat
    { val := some { v with tan := v.tan.set k.toNat (g.prim t .f64 a) } }) s

/-- DEVAL: R144. -/
def execDeval (b : Bool) (n : Bool) (d : BitVec 6) (a : BitVec 6) (u : BitVec 6) (t : BitVec 2) (s : State) : Out :=
  vecWord ⟨b, [.dst (floatTy t).wide n d, .src (floatTy t) a, .deltas u], true⟩ n d (floatTy t).wide (fun g l => devalLane g l (FTy.ofCode t) a u) s

end Sys2Proof.Machine
end

