-- ==== Sys2Proof/Machine/LoadStore.lean ====
section
/-!
DEFINITION. Loads and stores: LD, ST, LDS, STS, LDD, STD (R199-R210).
-/

namespace Sys2Proof.Machine

open Sys2Proof

namespace State

/-- Outstanding requests of a core: one for each block of each word in flight (R202). -/
def requests (s : State) (core : Nat) : Nat :=
  ((s.arrivals.filter fun (a : Arrival) => (s.crews[a.crew]?.map fun cr => cr.core) == some core).flatMap fun a =>
    a.blocks.map fun b => (a.word, b)).dedup.length

/-- A long-latency result on its way (R31). -/
def arrive (s : State) (a : Arrival) : State := { s with arrivals := s.arrivals ++ [a] }

end State

/-- The 64-byte blocks of a lane that no lower executing lane touches (R202). -/
def newBlocks (c : Ctx) (blocks : Nat → List Nat) (t : Nat) : List Nat :=
  (blocks t).dedup.filter fun b => !(List.range t).any fun u => c.exec u && (blocks u).contains b

/-- Whether the pool lacks the requests that a word needs (R202). -/
def poolShort (s : State) (c : Ctx) (blocks : Nat → List Nat) : Bool :=
  let need := ((List.range 16).filter c.exec).foldl (fun n t => n + (newBlocks c blocks t).length) 0
  decide (Config.requests < s.requests c.core + need)

/-- The number of the word that a group executes, among those of its core in flight: each slot executes one word in a
cycle. -/
def State.wordId (s : State) (c : Ctx) : Nat := (s.core c.core).lclk.toNat * Config.slots + c.slot

/-- The scope that an HSCP names, or else `d` (R220). -/
def Ctx.scopeOr (c : Ctx) (d : BitVec 2) : Nat := (c.g.bundle.scp.getD d).toNat

/-- The scope of an access (R220). -/
def Ctx.scope (c : Ctx) : Nat := c.scopeOr 0

/-- Whether an access is a synchronisation access (R238); each part of LDD and STD is an access of its own size (log 13). -/
def Ctx.syncs (c : Ctx) (size : Nat) : Bool := decide (0 < c.scope ∧ size ≤ 8)

/-- The effective address of LD, ST, LDD and STD (R208). -/
def Ctx.ea (c : Ctx) (t : Nat) (a b : Code) : Nat :=
  (c.prim t .i64 a + (c.r32 t b).signExtend 64).toNat
/-- The scratchpad offset of LDS, STS and ATOMS (R209). -/
def Ctx.soff (c : Ctx) (t : Nat) (a b : Code) : Nat := (c.r32 t a + c.r32 t b).toNat

/-- The thread in lane `t` traps at its bundle start; a fill that it replayed from is over for it (R205). -/
def failLane (c : Ctx) (t : Nat) (tr : Trap) (a : Nat) (s : State) : State :=
  (s.abandoned c.ci (c.place t)).trapLane t tr (BitVec.ofNat 56 a) c.start

/-- A window access as it is held (R198). -/
def heldAs (a : Nat) (write : Bool) (data : Dword) : HeldAccess := ⟨a, write, data, none, false, 0⟩

/-- What follows an access of a thread: its effect, or its trap, park or end (R203, R204, R198, R397). -/
def afterAcc {α : Type} (c : Ctx) (t : Nat) (held : HeldAccess) (s : State) (r : Acc α) (k : α → State) : State :=
  match r with
  | .ok x => k x
  | .trap tr a => failLane c t tr a s
  | .fault a w => s.faultLane t a w c.start
  | .hold => s.holdLane t held c.start
  | .poison => s.poisonLane t c.start

/-- `n` registers from `d` on with the words of a number and zero tangents. -/
def plainRegs (t d n x : Nat) : List (Nat × Reg) :=
  (List.range n).map fun i => (d + i, ⟨BitVec.ofNat 32 (x / 2 ^ (32 * i)), List.replicate t 0⟩)

/-- The registers of a value with tangents, as a destination writes them (R129). -/
def valRegs (d : Nat) (v : Val) : List (Nat × Reg) :=
  let lo (w : Dword) : Word := w.truncate 32
  let hi (w : Dword) : Word := (w >>> 32).truncate 32
  (d, ⟨lo v.bits, v.tan.map lo⟩) :: (if v.wide then [(d + 1, ⟨hi v.bits, v.tan.map hi⟩)] else [])

/-- Registers of a lane written at once. -/
def Lane.setRegs (l : Lane) (ws : List (Nat × Reg)) : Lane := ws.foldl (fun l w => l.setV w.1 w.2) l

/-- What a load reads reaches its registers: a window access leaves nothing outstanding (R198); any other is
long-latency (R31, R202). -/
def loaded (c : Ctx) (t a : Nat) (ws : List (Nat × Reg)) (blocks : List Nat) (s : State) : State :=
  if isWindow a then s.updLane c.ci (c.place t) fun l => l.setRegs ws
  else s.arrive ⟨c.ci, c.place t, ws, 0, s.wordId c, blocks⟩

/-- The result of a thread's load. -/
def deliver (c : Ctx) (t a : Nat) (ws : List (Nat × Reg)) (blocks : List Nat) (s : State) : State :=
  loaded c t a ws blocks ((s.replayed c.ci (c.place t) a).consumeHeld c.ci (c.place t) a)

/-- Bytes of a width code (R207). -/
def widthBytes (w : BitVec 3) : Nat :=
  match w.toNat with
  | 0 => 1
  | 1 => 1
  | 2 => 2
  | 3 => 2
  | 4 => 4
  | 5 => 8
  | _ => 16

/-- What a load writes of a value read with a width code (R207). -/
def extend (w : BitVec 3) (x : Nat) : Nat :=
  match w.toNat with
  | 1 => ((BitVec.ofNat 8 x).signExtend 32).toNat
  | 3 => ((BitVec.ofNat 16 x).signExtend 32).toNat
  | _ => x

/-- LD in one lane (R208); in a helper, any failure gives zero (R28). -/
def loadLane (c : Ctx) (d : Code) (w : BitVec 3) (addr : Nat → Nat) (blocks : Nat → List Nat) (s : State) (t : Nat) : State :=
  let p := c.place t
  let a := addr t
  let size := widthBytes w
  let regs (x : Nat) : List (Nat × Reg) := plainRegs c.t d.toNat (ldRegs w) (extend w x)
  match s.thread? c.ci p with
  | none =>
    let x := if a % size ≠ 0 then 0 else
      match s.load c.ci p a size with
      | .ok x => x
      | _ => 0
    loaded c t a (regs x) (blocks t) s
  | some _ =>
    if a % size ≠ 0 then failLane c t .misaligned 0 s
    else afterAcc c t (heldAs a false 0) s (s.load c.ci p a size) fun x =>
      let r := s.plumbLane c.ci p a c.scope 0 (c.syncs size) false c.start
      if r.2 then failLane c t .dataRace 0 s else deliver c t a (regs x) (blocks t) r.1

/-- The value that a store of a width code stores, from its source (R207). -/
def storeValue (c : Ctx) (t : Nat) (d : Code) (w : BitVec 3) : Nat :=
  match w.toNat with
  | 5 => (c.prim t .i64 d).toNat
  | 6 => (List.range 4).foldl (fun x i => x + ((c.lane t).getV (d.toNat + i)).prim.toNat * 2 ^ (32 * i)) 0
  | _ => (c.r32 t d).toNat % 2 ^ (8 * widthBytes w)

/-- ST in one lane (R208): a helper stores nothing (R28). -/
def storeLane (c : Ctx) (d : Code) (w : BitVec 3) (addr : Nat → Nat) (s : State) (t : Nat) : State :=
  let p := c.place t
  let a := addr t
  let size := widthBytes w
  let v := storeValue c t d w
  match s.thread? c.ci p with
  | none => s
  | some _ =>
    if a % size ≠ 0 then failLane c t .misaligned 0 s
    else afterAcc c t (heldAs a true (BitVec.ofNat 64 v)) s (s.store c.ci p a size v) fun s' =>
      let r := s.plumbLane c.ci p a c.scope 1 (c.syncs size) true c.start
      if r.2 then failLane c t .dataRace 0 s
      else
        let s2 := ((s'.wrote c.cr.part c.scope a size).plumbLane c.ci p a c.scope 1 (c.syncs size) true c.start).1
        (s2.replayed c.ci p a).consumeHeld c.ci p a

/-- LDS in one lane (R199, R209). -/
def ldsLane (c : Ctx) (d : Code) (w : BitVec 3) (addr : Nat → Nat) (s : State) (t : Nat) : State :=
  let p := c.place t
  let a := addr t
  let size := widthBytes w
  let regs (x : Nat) : List (Nat × Reg) := plainRegs c.t d.toNat (ldRegs w) (extend w x)
  match s.crews[c.ci]? with
  | none => s
  | some cr =>
    let ok : Bool := decide (a % size = 0) && decide (a + size ≤ cr.alloc)
    match s.thread? c.ci p with
    | none => s.arrive ⟨c.ci, p, regs (if ok then cr.scratch.nat a size else 0), 0, 0, []⟩
    | some _ =>
      if a % size ≠ 0 then failLane c t .misaligned 0 s
      else if cr.alloc < a + size then failLane c t .resource 0 s
      else s.arrive ⟨c.ci, p, regs (cr.scratch.nat a size), 0, 0, []⟩

/-- STS in one lane (R199, R209, R262). -/
def stsLane (c : Ctx) (d : Code) (w : BitVec 3) (addr : Nat → Nat) (s : State) (t : Nat) : State :=
  let p := c.place t
  let a := addr t
  let size := widthBytes w
  match s.thread? c.ci p with
  | none => s
  | some _ =>
    if a % size ≠ 0 then failLane c t .misaligned 0 s
    else if c.cr.alloc < a + size ∨ c.cr.meetsQueue a size then failLane c t .resource 0 s
    else s.scratchStore c.ci a (leBytes size (storeValue c t d w))

/-- The parts of LDD and STD: the primal, then `n` tangents of a dual page (R193, R210). -/
def dualParts (g : Page) (a n : Nat) : List Nat :=
  a :: (match g.dual with
    | some (e, dt) => (List.range (min n dt)).map fun k => a + (k + 1) * 2 ^ e
    | none => [])

/-- The parts that a lane of LDD touches, for its requests. -/
def lddParts (s : State) (c : Ctx) (p a n : Nat) : List Nat :=
  match s.globalPage c.ci p a {} with
  | .ok g => dualParts g a n
  | _ => [a]

/-- A part that does not lie in a raw block (R210). -/
def notRaw (s : State) (ci li a : Nat) (g : Page) : Option Trap :=
  if (s.partDesc ci li a g).toNat % 256 ≠ 0 then some (.fault causeDescriptor) else none

/-- The values that LDD reads: the primal and its tangents (R210). -/
def lddRead (s : State) (c : Ctx) (p a size : Nat) : Acc (List Nat) :=
  if 2 ^ 56 ≤ a then .trap (.fault causeAddress) (a % 2 ^ 56)
  else if isWindow a then
    (s.window c.ci a).bind fun w => if w.kind = 0 then
        (s.windowRead c.ci a size).bind fun x => .ok [x]
      else .trap (.fault causeWindow) a
  else
    (s.globalPage c.ci p a {}).bind fun g =>
      let parts := dualParts g a c.t
      (s.globalPages c.ci p {} (notRaw s c.ci p) parts).bind fun gs =>
        (s.partsBytes c.ci p size (parts.zip gs)).bind fun bss => .ok (bss.map leNat)

/-- Plumb's tests of several accesses; the first that raises stops them. -/
def plumbAll (c : Ctx) (p kind : Nat) (sync write : Bool) (as : List Nat) (s : State) : State × Bool :=
  State.plumbEach c.ci p c.scope kind sync write c.start as s

/-- The sectors of 32 bytes that `n` bytes touch (R235). -/
def sectors (a n : Nat) : List Nat := (List.range ((a % 32 + n + 31) / 32)).map fun i => if i = 0 then a else (a / 32 + i) * 32

/-- LDD in one lane (R210). -/
def lddLane (c : Ctx) (d : Code) (wide : Bool) (addr : Nat → Nat) (blocks : Nat → List Nat) (s : State) (t : Nat) : State :=
  let p := c.place t
  let a := addr t
  let size := if wide then 8 else 4
  let regs (xs : List Nat) : List (Nat × Reg) :=
    valRegs d.toNat ⟨wide, BitVec.ofNat 64 (xs.getD 0 0), (List.range c.t).map fun k => BitVec.ofNat 64 (xs.getD (k + 1) 0)⟩
  match s.thread? c.ci p with
  | none =>
    let xs := if a % size ≠ 0 then [] else
      match lddRead s c p a size with
      | .ok xs => xs
      | _ => []
    loaded c t a (regs xs) (blocks t) s
  | some _ =>
    if a % size ≠ 0 then failLane c t .misaligned 0 s
    else afterAcc c t (heldAs a false 0) s (lddRead s c p a size) fun xs =>
      let parts := lddParts s c p a c.t
      let r := plumbAll c p 0 (c.syncs size) false parts s
      if r.2 then failLane c t .dataRace 0 s
      else
        let s1 := parts.foldl (fun s b => s.replayed c.ci p b) r.1
        deliver c t a (regs xs) (blocks t) s1

/-- The parts of STD, all of them writable: the page must be dual (R210). -/
def stdPages (s : State) (c : Ctx) (p a : Nat) : Acc (List (Nat × Page)) :=
  if 2 ^ 56 ≤ a then .trap (.fault causeAddress) (a % 2 ^ 56)
  else if isWindow a then
    (s.window c.ci a).bind fun w => .trap (.fault (if w.kind = 0 ∧ w.off + 4 ≤ (s.crews[w.crew]?.map Crew.alloc).getD 0
        then causeAttribute else causeWindow)) a
  else
    (s.globalPage c.ci p a { write := true, kindOk := fun g => g.dual.isSome }).bind fun g =>
      let parts := dualParts g a 8
      (s.globalPages c.ci p { write := true } (notRaw s c.ci p) parts).bind fun gs => .ok (parts.zip gs)

/-- STD in one lane (R210): the primal, the tangents the register holds, and zero in the others. -/
def stdLane (c : Ctx) (d : Code) (ty : OpTy) (addr : Nat → Nat) (s : State) (t : Nat) : State :=
  let p := c.place t
  let a := addr t
  let size := if ty.wide then 8 else 4
  let v := c.opnd t ty d
  match s.thread? c.ci p with
  | none => s
  | some _ =>
    if a % size ≠ 0 then failLane c t .misaligned 0 s
    else afterAcc c t (heldAs a true 0) s (stdPages s c p a) fun parts =>
      let r := plumbAll c p 1 (c.syncs size) true (parts.map Prod.fst) s
      if r.2 then failLane c t .dataRace 0 s
      else
        let words : List Nat := v.bits.toNat :: (List.range 8).map fun k => (v.tan.getD k 0).toNat
        (parts.zip words).foldl (fun s x =>
          ((s.physWrite x.1.2 (leBytes size x.2)).wrote c.cr.part c.scope x.1.1 size).replayed c.ci p x.1.1) r.1

/-- The frame of an access to memory that takes a request for each block (R202). -/
def memWord (i : WordInfo) (blocks : Ctx → Nat → List Nat) (eff : Ctx → State → State) (s : State) : Out :=
  frameWith i s (fun c => poolShort s c (blocks c)) eff

/-- The block of one address; a window access takes its request and returns it at once. -/
def oneBlock (a : Nat) : List Nat := [a / 64]

/-- LD: R208. -/
def execLd (b : Bool) (d : BitVec 6) (a : BitVec 6) (c : BitVec 6) (w : BitVec 3) (s : State) : Out :=
  memWord ⟨b, [.block (ldRegs w) (ldRegs w) d, .src .i64 a, .src .i32 c], decide (w.toNat < 7)⟩ (fun k t => oneBlock (k.ea t a c)) (fun k s =>
    eachLane k.exec (loadLane k d w (fun t => k.ea t a c) fun t => oneBlock (k.ea t a c)) s) s

/-- ST: R208. -/
def execSt (b : Bool) (d : BitVec 6) (a : BitVec 6) (c : BitVec 6) (w : BitVec 3) (s : State) : Out :=
  memWord ⟨b, [stSource w d, .src .i64 a, .src .i32 c], decide (w.toNat < 7) && decide (w ≠ 1#3) && decide (w ≠ 3#3)⟩ (fun k t => oneBlock (k.ea t a c)) (fun k s =>
    eachLane k.exec (storeLane k d w fun t => k.ea t a c) s) s

/-- LDS: R209. -/
def execLds (b : Bool) (d : BitVec 6) (a : BitVec 6) (c : BitVec 6) (w : BitVec 3) (s : State) : Out :=
  frame ⟨b, [.block (ldRegs w) (ldRegs w) d, .src .i32 a, .src .i32 c], decide (w.toNat < 7)⟩ s fun k s =>
    eachLane k.exec (ldsLane k d w fun t => k.soff t a c) s

/-- STS: R209. -/
def execSts (b : Bool) (d : BitVec 6) (a : BitVec 6) (c : BitVec 6) (w : BitVec 3) (s : State) : Out :=
  frame ⟨b, [stSource w d, .src .i32 a, .src .i32 c], decide (w.toNat < 7) && decide (w ≠ 1#3) && decide (w ≠ 3#3)⟩ s fun k s =>
    eachLane k.exec (stsLane k d w fun t => k.soff t a c) s

/-- LDD: R210. -/
def execLdd (b : Bool) (d : BitVec 6) (a : BitVec 6) (c : BitVec 6) (f : BitVec 1) (s : State) : Out :=
  memWord ⟨b, [.block (if f == 1#1 then 2 else 1) (if f == 1#1 then 2 else 1) d, .src .i64 a, .src .i32 c], true⟩ (fun k t => (lddParts s k (k.place t) (k.ea t a c) k.t).map fun x => x / 64)
    (fun k s =>
      eachLane k.exec (lddLane k d (f == 1#1) (fun t => k.ea t a c) fun t =>
        (lddParts s k (k.place t) (k.ea t a c) k.t).map fun x => x / 64) s) s

/-- STD: R210. -/
def execStd (b : Bool) (d : BitVec 6) (a : BitVec 6) (c : BitVec 6) (f : BitVec 1) (s : State) : Out :=
  memWord ⟨b, [.src (if f == 1#1 then .f64 else .f32) d, .src .i64 a, .src .i32 c], true⟩ (fun k t => (lddParts s k (k.place t) (k.ea t a c) 8).map fun x => x / 64)
    (fun k s => eachLane k.exec (stdLane k d (if f == 1#1 then .f64 else .f32) fun t => k.ea t a c) s) s

end Sys2Proof.Machine
end

