-- ==== Sys2Proof/Machine/Typed.lean ====
section
/-!
DEFINITION. Typed loads and stores, descriptors, prefetch and the tile table (R211-R218).
-/

namespace Sys2Proof.Machine

open Sys2Proof
open Sys2Proof.Num (Elt XR Flags eltOf fp32 fp64)

/-- One element of a block read for LDT (R212): the block's descriptor, its 64 bytes, the index; its
value converted to the type, or the FAULT cause. -/
def eltRead (desc : Nat) (block : List Byte) (i : Nat) (ty : BitVec 2) (fmtF : Num.Fmt) (mode : Num.Mode) :
    Except Nat (Nat × Flags) :=
  match eltOf (Num.descFmt desc) with
  | none => .error causeDescriptor
  | some .raw =>
    let w := if ty == 1#2 then 64 else 32
    if 512 / w ≤ i then .error causeIndex else .ok (Num.eltEnc w block i, {})
  | some e =>
    if e.perBlock ≤ i then .error causeIndex
    else
      let v := e.value (Num.eltEnc e.width block i)
      let x := v.1.scale (Num.descScale desc)
      let r := if ty == 2#2 then Num.toInteger ⟨32, true⟩ mode x else Num.roundX fmtF mode x
      .ok (r.1, r.2.or { inv := v.2 })

/-- What LDT reads in a lane: the primal with its flags, and the tangents; the first part that fails decides (R212,
R361). -/
def ldtRead (s : State) (c : Ctx) (p a i : Nat) (dual : Bool) (ty : BitVec 2) : Acc (Nat × Flags × List Nat) :=
  let F := if ty == 1#2 then fp64 else fp32
  let elt (desc : Nat) (block : List Byte) (b : Nat) : Acc (Nat × Flags) :=
    match eltRead desc block i ty F c.mode with
    | .ok x => .ok x
    | .error cause => .trap (.fault cause) b
  if 2 ^ 56 ≤ a then .trap (.fault causeAddress) (a % 2 ^ 56)
  else if isWindow a then
    (s.window c.ci a).bind fun w =>
      match s.crews[w.crew]? with
      | none => .trap (.fault causeWindow) a
      | some cr =>
        if w.kind = 0 ∧ w.off + 64 ≤ cr.alloc then
          (elt 0 (cr.scratch.read w.off 64) a).bind fun y => .ok (y.1, y.2, [])
        else .trap (.fault causeWindow) a
  else
    (s.globalPage c.ci p a {}).bind fun g =>
      let rec go : List Nat → Acc (List (Nat × Flags))
        | [] => .ok []
        | b :: r =>
          (s.globalPage c.ci p b {}).bind fun pg => (s.partBytes c.ci p b 64 pg).bind fun bs =>
            (elt (s.partDesc c.ci p b pg).toNat bs b).bind fun y => (go r).bind fun ys => .ok (y :: ys)
      (go (dualParts g a (if dual then c.t else 0))).bind fun ys =>
        match ys with
        | [] => .hold
        | y :: r => .ok (y.1, y.2, r.map Prod.fst)

/-- The blocks that LDT or STT touches in a lane. -/
def typedParts (s : State) (c : Ctx) (p a n : Nat) (dual : Bool) : List Nat := lddParts s c p a (if dual then n else 0)

/-- LDT in one lane (R212). -/
def ldtLane (c : Ctx) (d : Code) (dual : Bool) (ty : BitVec 2) (addr idx : Nat → Nat) (blocks : Nat → List Nat) (s : State)
    (t : Nat) : State :=
  let p := c.place t
  let a := addr t
  let wide : Bool := ty == 1#2
  let regs (y : Nat) (tan : List Nat) : List (Nat × Reg) :=
    valRegs d.toNat ⟨wide, BitVec.ofNat 64 y, (List.range c.t).map fun k => BitVec.ofNat 64 (tan.getD k 0)⟩
  match s.thread? c.ci p with
  | none =>
    let r := if a % 64 ≠ 0 then (0, []) else
      match ldtRead s c p a (idx t) dual ty with
      | .ok y => (y.1, y.2.2)
      | _ => (0, [])
    loaded c t a (regs r.1 r.2) (blocks t) s
  | some _ =>
    if a % 64 ≠ 0 then failLane c t .misaligned 0 s
    else afterAcc c t (heldAs a false 0) s (ldtRead s c p a (idx t) dual ty) fun y =>
      let parts := typedParts s c p a c.t dual
      let r := plumbAll c p 0 false false (parts.flatMap fun b => sectors b 64) s
      if r.2 then failLane c t .dataRace 0 s
      else
        let s1 := parts.foldl (fun s b => s.replayed c.ci p b) r.1
        (deliver c t a (regs y.1 y.2.2) (blocks t) s1).setFlags c.ci p y.2.1.toBits

/-- The pages of a typed store: typed, or else the attribute cause; dual where the form asks it
(R191, R213). -/
def sttPages (s : State) (c : Ctx) (p a : Nat) (dual : Bool) : Acc (List (Nat × Page)) :=
  if 2 ^ 56 ≤ a then .trap (.fault causeAddress) (a % 2 ^ 56)
  else if isWindow a then
    (s.window c.ci a).bind fun w => .trap (.fault
      (if w.kind = 0 ∧ w.off + 64 ≤ (s.crews[w.crew]?.map Crew.alloc).getD 0 then causeAttribute else causeWindow)) a
  else
    (s.globalPage c.ci p a { write := true, kindOk := fun g => g.typed && (!dual || g.dual.isSome) }).bind fun g =>
      let parts := dualParts g a (if dual then 8 else 0)
      (s.globalPages c.ci p { write := true, kindOk := fun g => g.typed } (fun _ _ => none) parts).bind fun gs =>
        .ok (parts.zip gs)

/-- The values of an array in scratchpad that STT stores (R213). -/
def sttArray (cr : Crew) (wide : Bool) (src n j : Nat) : List XR :=
  let w := if wide then 8 else 4
  (List.range n).map fun i => Num.decodeF (if wide then fp64 else fp32) (cr.scratch.nat (src + (j * n + i) * w) w)

/-- Whether an array holds a signalling NaN (R52). -/
def sttSNaN (cr : Crew) (wide : Bool) (src n : Nat) : Bool :=
  let w := if wide then 8 else 4
  (List.range n).any fun i => Num.isSNaN (if wide then fp64 else fp32) (cr.scratch.nat (src + i * w) w)

/-- STT in one lane (R211, R213). -/
def sttLane (c : Ctx) (dual wide : Bool) (addr src fmt : Nat → Nat) (s : State) (t : Nat) : State :=
  let p := c.place t
  let a := addr t
  let f := fmt t % 256
  let w := if wide then 8 else 4
  match s.thread? c.ci p with
  | none => s
  | some _ =>
    if a % 64 ≠ 0 then failLane c t .misaligned 0 s
    else match eltOf f with
    | none => failLane c t .illegalOperand 0 s
    | some e =>
      let n := e.perBlock
      if e = .raw then failLane c t .illegalOperand 0 s
      else if src t % w ≠ 0 then failLane c t .misaligned 0 s
      else if c.cr.alloc < src t + (if dual then 1 + c.t else 1) * n * w then failLane c t .resource 0 s
      else afterAcc c t (heldAs a true 0) s (sttPages s c p a dual) fun parts =>
        let r := plumbAll c p 1 false true (parts.flatMap fun x => sectors x.1 64) s
        if r.2 then failLane c t .dataRace 0 s
        else
          let cr := (s.crews[c.ci]?).getD c.cr
          let block (j : Nat) : List Byte × Nat × Flags :=
            if j ≤ c.t then Num.packBlock f c.mode (sttArray cr wide (src t) n j) else (List.replicate 64 0, f, {})
          let put (s : State) (x : (Nat × Page) × Nat) : State :=
            let b := block x.2
            (((s.physWrite x.1.2 b.1).setDesc x.1.2 (BitVec.ofNat 16 b.2.1)).wrote c.cr.part c.scope x.1.1 64).replayed c.ci p x.1.1
          (parts.zipIdx.foldl put r.1).setFlags c.ci p
            ((block 0).2.2.or { inv := sttSNaN cr wide (src t) n }).toBits

/-- BHDR.rd in one lane (R214, R191). -/
def bhdrRead (s : State) (c : Ctx) (p a : Nat) : Acc Nat :=
  if 2 ^ 56 ≤ a then .trap (.fault causeAddress) (a % 2 ^ 56)
  else if isWindow a then
    (s.window c.ci a).bind fun w =>
      if w.kind = 0 ∧ w.off + 64 ≤ (s.crews[w.crew]?.map Crew.alloc).getD 0 then .ok 0 else .trap (.fault causeWindow) a
  else (s.globalPage c.ci p a {}).bind fun g => .ok (s.partDesc c.ci p a g).toNat

def bhdrRdLane (c : Ctx) (d : Code) (addr : Nat → Nat) (blocks : Nat → List Nat) (s : State) (t : Nat) : State :=
  let p := c.place t
  let a := addr t
  match s.thread? c.ci p with
  | none =>
    let x := if a % 64 ≠ 0 then 0 else
      match bhdrRead s c p a with
      | .ok x => x
      | _ => 0
    loaded c t a (plainRegs c.t d.toNat 1 x) (blocks t) s
  | some _ =>
    if a % 64 ≠ 0 then failLane c t .misaligned 0 s
    else afterAcc c t (heldAs a false 0) s (bhdrRead s c p a) fun x =>
      deliver c t a (plainRegs c.t d.toNat 1 x) (blocks t) s

/-- BHDR.wr in one lane (R214): the payload stays. -/
def bhdrWrLane (c : Ctx) (addr val : Nat → Nat) (s : State) (t : Nat) : State :=
  let p := c.place t
  let a := addr t
  let v := val t % 2 ^ 16
  match s.thread? c.ci p with
  | none => s
  | some _ =>
    if a % 64 ≠ 0 then failLane c t .misaligned 0 s
    else if (eltOf (Num.descFmt v)).isNone then failLane c t .illegalOperand 0 s
    else afterAcc c t (heldAs a true 0) s (sttPages s c p a false) fun parts =>
      let w := if Num.descFmt v = 0 then 0 else v
      parts.foldl (fun s x => (s.setDesc x.2 (BitVec.ofNat 16 w)).replayed c.ci p x.1) s

/-- TSET in one lane (R217). -/
def tsetLane (c : Ctx) (idx entry : Nat → Nat) (s : State) (t : Nat) : State :=
  match s.thread? c.ci (c.place t), s.crews[c.ci]? with
  | some _, some cr =>
    match tsetCheck cr (idx t) (entry t) with
    | some tr => failLane c t tr 0 s
    | none => s.updCrew c.ci fun cr => { cr with tiles := cr.tiles.set (idx t) (BitVec.ofNat 64 (entry t)) }
  | _, _ => s

/-- TSET.clr in one lane (R217). -/
def tsetClrLane (c : Ctx) (idx : Nat → Nat) (s : State) (t : Nat) : State :=
  match s.thread? c.ci (c.place t), s.crews[c.ci]? with
  | some _, some cr =>
    let e := cr.tiles.getD (idx t) 0
    if pktTiles cr.packet ≤ idx t then failLane c t .resource 0 s
    else if bitsOf e 63 62 = 1 ∨ bitsOf e 63 62 = 3 then failLane c t .engineStatus 0 s
    else s.updCrew c.ci fun cr => { cr with tiles := cr.tiles.set (idx t) (setBits e 63 62 0) }
  | _, _ => s

/-- TSTAT in one lane: the entry as it stood at the end of the previous cycle (R217). -/
def tstatLane (c : Ctx) (a : Code) (t : Nat) : LaneOut :=
  let i := (c.r32 t a).toNat
  if i < pktTiles c.cr.packet then c.int64 (c.cr.tilesOld.getD i 0)
  else if (c.lane t).thread?.isSome then { trap := some .resource }
  else c.int64 0

/-- LDT: R212. -/
def execLdt (b : Bool) (d : BitVec 6) (a : BitVec 6) (c : BitVec 6) (u : BitVec 1) (t : BitVec 2) (s : State) : Out :=
  memWord ⟨b, [.block (if t == 1#2 then 2 else 1) (if t == 1#2 then 2 else 1) d, .src .i64 a, .src .i32 c], decide (t ≠ 3#2) && !(u == 1#1 && t == 2#2)⟩
    (fun k l => (typedParts s k (k.place l) (k.prim l .i64 a).toNat k.t (u == 1#1)).map fun x => x / 64)
    (fun k s =>
      eachLane k.exec
        (ldtLane k d (u == 1#1) t (fun l => (k.prim l .i64 a).toNat) (fun l => (k.r32 l c).toNat) fun l =>
          (typedParts s k (k.place l) (k.prim l .i64 a).toNat k.t (u == 1#1)).map fun x => x / 64) s) s

/-- STT: R213. -/
def execStt (b : Bool) (d : BitVec 6) (a : BitVec 6) (c : BitVec 6) (u : BitVec 1) (t : BitVec 1) (s : State) : Out :=
  memWord ⟨b, [.src .i32 d, .src .i64 a, .src .i32 c], true⟩
    (fun k l => (typedParts s k (k.place l) (k.prim l .i64 a).toNat 8 (u == 1#1)).map fun x => x / 64)
    (fun k s => eachLane k.exec (sttLane k (u == 1#1) (t == 1#1) (fun l => (k.prim l .i64 a).toNat)
      (fun l => (k.r32 l d).toNat) fun l => (k.r32 l c).toNat) s) s

/-- BHDR.RD: R214. -/
def execBhdrRd (b : Bool) (d : BitVec 6) (a : BitVec 6) (s : State) : Out :=
  memWord ⟨b, [.block 1 1 d, .src .i64 a], true⟩ (fun k t => oneBlock (k.prim t .i64 a).toNat) (fun k s =>
    eachLane k.exec (bhdrRdLane k d (fun t => (k.prim t .i64 a).toNat) fun t => oneBlock (k.prim t .i64 a).toNat) s) s

/-- BHDR.WR: R214. -/
def execBhdrWr (b : Bool) (d : BitVec 6) (a : BitVec 6) (s : State) : Out :=
  memWord ⟨b, [.src .i32 d, .src .i64 a], true⟩ (fun k t => oneBlock (k.prim t .i64 a).toNat) (fun k s =>
    eachLane k.exec (bhdrWrLane k (fun t => (k.prim t .i64 a).toNat) fun t => (k.r32 t d).toNat) s) s

/-- PREF in one lane (R214): its request stays out until the block comes; it is dropped on any fault. -/
def prefLane (c : Ctx) (addr : Nat → Nat) (s : State) (t : Nat) : State :=
  match s.globalPage c.ci (c.place t) (addr t) {} with
  | .ok _ => s.arrive ⟨c.ci, c.place t, [], 0, s.wordId c, oneBlock (addr t)⟩
  | _ => s

/-- PREF: R214; it takes requests like a load, and is dropped where the pool lacks them (R202); it changes no
architectural state besides. -/
def execPref (b : Bool) (a : BitVec 6) (c : BitVec 6) (s : State) : Out :=
  frame ⟨b, [.src .i64 a, .src .i32 c], true⟩ s fun k s =>
    if poolShort s k (fun t => oneBlock (k.ea t a c)) then s else eachLane k.exec (prefLane k fun t => k.ea t a c) s

/-- TSET: R217. -/
def execTset (b : Bool) (a : BitVec 6) (c : BitVec 6) (s : State) : Out :=
  frame ⟨b, [.src .i32 a, .src .i64 c], true⟩ s fun k s =>
    eachLane k.exec (tsetLane k (fun t => (k.r32 t a).toNat) fun t => (k.prim t .i64 c).toNat) s

/-- TSET.CLR: R217. -/
def execTsetClr (b : Bool) (a : BitVec 6) (s : State) : Out :=
  frame ⟨b, [.src .i32 a], true⟩ s fun k s => eachLane k.exec (tsetClrLane k fun t => (k.r32 t a).toNat) s

/-- TSTAT: R217. -/
def execTstat (b : Bool) (n : Bool) (d : BitVec 6) (a : BitVec 6) (s : State) : Out :=
  vecWord ⟨b, [.dst true n d, .src .i32 a], true⟩ n d true (fun k t => tstatLane k a t) s

end Sys2Proof.Machine
end

