-- ==== Sys2Proof/Machine/Atomic.lean ====
section
/-!
DEFINITION. Atomics, acquires, releases, fences and bindings (R241-R246).
-/

namespace Sys2Proof.Machine

open Sys2Proof

/-- The new value of the word `m` under an integer operation (R242); `c` is the compare value. -/
def atomOp (op : BitVec 3) (size m a c : Nat) : Nat :=
  let w := 8 * size
  let sg (x : Nat) : Int := (BitVec.ofNat w x).toInt
  match op.toNat with
  | 0 => (m + a) % 2 ^ w
  | 1 => if sg a < sg m then a else m
  | 2 => if sg m < sg a then a else m
  | 3 => Nat.land m a
  | 4 => Nat.lor m a
  | 5 => Nat.xor m a
  | 6 => a
  | _ => if m = c then a else m

/-- The sum of an fadd, with its flags (R242). -/
def atomFadd (mode : Num.Mode) (nbv size m a : Nat) : Nat × BitVec 6 :=
  let F := if size = 8 then f64T else f32T
  let op (x : Nat) : Num.FOp := F.op ⟨false, BitVec.ofNat 64 x, []⟩
  let y := Num.fprim .add F.fmt mode nbv [op m, op a]
  (y.1, y.2.toBits)

/-- The read-modify-write of ATOM in one place (R241): the old value, the flags, and the state after it. -/
def rmw (s : State) (c : Ctx) (t a size : Nat) (f : Nat → Nat × BitVec 6) : Acc (Nat × BitVec 6 × State) :=
  if 2 ^ 56 ≤ a then .trap (.fault causeAddress) (a % 2 ^ 56)
  else if isWindow a then
    (s.window c.ci a).bind fun w =>
      if w.kind ≠ 0 then .trap (.fault causeWindow) a
      else (s.windowRead c.ci a size).bind fun m =>
        (s.windowWrite c.ci a size (f m).1).bind fun s' => .ok (m, (f m).2, s')
  else
    (s.globalPage c.ci (c.place t) a { write := true }).bind fun g =>
      if s.poisonedOn (dieOf c.core) g size then .poison
      else
        let m := leNat (s.physRead (dieOf c.core) g size)
        .ok (m, (f m).2, s.physWrite g (leBytes size (f m).1))

/-- The commit of a thread's non-repeatable word: its region closes (R38). -/
def State.closes (s : State) (c : Ctx) (t : Nat) : State := s.updThread c.ci (c.place t) Thread.closeRegion

/-- The interval of a thread that has performed a release (R237). -/
def State.released (s : State) (c : Ctx) (t : Nat) : State := s.updThread c.ci (c.place t) Thread.release

/-- A release at a scope that a thread's word performs: the stores before it are performed there, and the interval
number grows (R226, R237). -/
def State.releases (s : State) (c : Ctx) (scope t : Nat) : State := (s.performed c.cr.part scope).released c t

/-- ATOM in one lane (R243); one without a release is a plain write at its scope (R220, R380). -/
def atomLane (c : Ctx) (d : Code) (size : Nat) (ord : BitVec 2) (addr : Nat → Nat)
    (f : Nat → Nat → Nat × BitVec 6) (s : State) (t : Nat) : State :=
  let p := c.place t
  let a := addr t
  if a % size ≠ 0 then failLane c t .misaligned 0 s
  else afterAcc c t (heldAs a true 0) s (rmw s c t a size (f t)) fun r =>
    let s1 := if ord == 1#2 then r.2.2.plumbAcquire c.ci p a else r.2.2
    let s2 := (s1.plumbLane c.ci p a c.scope 2 true true c.start).1
    let s3 := if ord == 2#2 then (s2.fireWaiters c.cr.part a c.scope).released c t else s2.wrote c.cr.part c.scope a size
    let ws := plainRegs c.t d.toNat (size / 4) r.1
    let s4 := s3.closes c t
    if isWindow a then (s4.updLane c.ci p fun l => l.setRegs ws).setFlags c.ci p r.2.1
    else (s4.replayed c.ci p a).arrive ⟨c.ci, p, ws, r.2.1, 0, []⟩

/-- ATOMS in one lane (R243, R262). -/
def atomsLane (c : Ctx) (d : Code) (size : Nat) (ord : BitVec 2) (addr : Nat → Nat)
    (f : Nat → Nat → Nat × BitVec 6) (s : State) (t : Nat) : State :=
  let p := c.place t
  let a := addr t
  match s.crews[c.ci]? with
  | none => s
  | some cr =>
    if a % size ≠ 0 then failLane c t .misaligned 0 s
    else if cr.alloc < a + size ∨ cr.meetsQueue a size then failLane c t .resource 0 s
    else
      let m := cr.scratch.nat a size
      let s1 := s.scratchStore c.ci a (leBytes size (f t m).1)
      let s2 := if ord == 2#2 then s1.released c t else s1
      (s2.closes c t).arrive ⟨c.ci, p, plainRegs c.t d.toNat (size / 4) m, (f t m).2, 0, []⟩

/-- The operand width of an atomic in bytes (R242). -/
def atomSize (w : BitVec 1) : Nat := if w == 1#1 then 8 else 4

/-- The integer operation of a lane, its operands read (R242). -/
def atomInt (c : Ctx) (op : BitVec 3) (w : BitVec 1) (d b : Code) (t m : Nat) : Nat × BitVec 6 :=
  let ty : OpTy := if w == 1#1 then .i64 else .i32
  (atomOp op (atomSize w) m (c.prim t ty b).toNat ((c.lane t).readV ty.wide d.toNat).bits.toNat, 0)

/-- The fadd of a lane (R242). -/
def atomFlt (c : Ctx) (w : BitVec 1) (b : Code) (t m : Nat) : Nat × BitVec 6 :=
  atomFadd c.mode c.nbv (atomSize w) m (c.prim t (if w == 1#1 then .f64 else .f32) b).toNat

/-- The 64-bit address of a lane. -/
def Ctx.adr (c : Ctx) (a : Code) (t : Nat) : Nat := (c.prim t .i64 a).toNat

/-- ACQ in one lane (R245). -/
def acqLane (c : Ctx) (d a : Code) (s : State) (t : Nat) : State :=
  let p := c.place t
  let x := c.adr a t
  if x % 8 ≠ 0 then failLane c t .misaligned 0 s
  else afterAcc c t (heldAs x false 0) s (s.load c.ci p x 8) fun v =>
    deliver c t x (plainRegs c.t d.toNat 2 v) [] (s.plumbAcquire c.ci p x)

/-- REL in one lane (R245): the release is counted once its word is written. -/
def relLane (c : Ctx) (a b : Code) (s : State) (t : Nat) : State :=
  let p := c.place t
  let x := c.adr a t
  let v := (c.prim t .i64 b).toNat
  if x % 8 ≠ 0 then failLane c t .misaligned 0 s
  else afterAcc c t (heldAs x true (BitVec.ofNat 64 v)) s (s.store c.ci p x 8 v) fun s' =>
    let s1 := (s'.plumbLane c.ci p x c.scope 1 true true c.start).1
    (((s1.fireWaiters c.cr.part x c.scope).released c t).replayed c.ci p x).consumeHeld c.ci p x

/-- A partition's binding table replaced. -/
def State.setBindings (s : State) (p : Nat) (bs : List Binding) : State :=
  s.updPart p fun P => { P with bindings := bs }

/-- BIND in one lane (R246). -/
def bindLane (c : Ctx) (d a b : Code) (s : State) (t : Nat) : State :=
  let obj := c.adr d t
  let base := c.adr a t
  let len := (c.prim t .i32 b).toNat
  let bs := (s.part c.cr.part).bindings
  if obj % 64 ≠ 0 ∨ base % 64 ≠ 0 ∨ len % 64 ≠ 0 ∨ len = 0 then failLane c t .misaligned 0 s
  else if bs.any fun e => e.object == obj && e.base == base && e.len == len then s
  else if bs.any fun e => decide (base < e.base + e.len ∧ e.base < base + len) then failLane c t .illegalOperand 0 s
  else if Config.bindings ≤ bs.length then failLane c t .resource 0 s
  else s.setBindings c.cr.part (bs ++ [⟨obj, base, len, c.cr.grid⟩])

/-- BIND.clr in one lane (R245). -/
def unbindLane (c : Ctx) (d a : Code) (s : State) (t : Nat) : State :=
  let bs := (s.part c.cr.part).bindings
  s.setBindings c.cr.part (bs.filter fun e => !(e.object == c.adr d t && e.base == c.adr a t))

/-- ATOM: R243. -/
def execAtom (b : Bool) (d : BitVec 6) (a : BitVec 6) (c : BitVec 6) (o : BitVec 2) (p : BitVec 3) (w : BitVec 1) (s : State) : Out :=
  frame ⟨b, [.block (if w == 1#1 then 2 else 1) (if w == 1#1 then 2 else 1) d, .src .i64 a, .src (if w == 1#1 then .i64 else .i32) c], decide (o ≠ 3#2)⟩ s fun k s =>
    eachLane k.active (atomLane k d (atomSize w) o (fun t => k.adr a t) (atomInt k p w d c)) s

/-- ATOM.FADD: R243. -/
def execAtomFadd (b : Bool) (d : BitVec 6) (a : BitVec 6) (c : BitVec 6) (o : BitVec 2) (w : BitVec 1) (s : State) : Out :=
  frame ⟨b, [.block (if w == 1#1 then 2 else 1) (if w == 1#1 then 2 else 1) d, .src .i64 a, .src (if w == 1#1 then .f64 else .f32) c], decide (o ≠ 3#2)⟩ s fun k s =>
    eachLane k.active (atomLane k d (atomSize w) o (fun t => k.adr a t) (atomFlt k w c)) s

/-- ATOMS: R243. -/
def execAtoms (b : Bool) (d : BitVec 6) (a : BitVec 6) (c : BitVec 6) (o : BitVec 2) (p : BitVec 3) (w : BitVec 1) (s : State) : Out :=
  frame ⟨b, [.block (if w == 1#1 then 2 else 1) (if w == 1#1 then 2 else 1) d, .src .i32 a, .src (if w == 1#1 then .i64 else .i32) c], decide (o ≠ 3#2)⟩ s fun k s =>
    eachLane k.active (atomsLane k d (atomSize w) o (fun t => (k.prim t .i32 a).toNat) (atomInt k p w d c)) s

/-- ATOMS.FADD: R243. -/
def execAtomsFadd (b : Bool) (d : BitVec 6) (a : BitVec 6) (c : BitVec 6) (o : BitVec 2) (w : BitVec 1) (s : State) : Out :=
  frame ⟨b, [.block (if w == 1#1 then 2 else 1) (if w == 1#1 then 2 else 1) d, .src .i32 a, .src (if w == 1#1 then .f64 else .f32) c], decide (o ≠ 3#2)⟩ s fun k s =>
    eachLane k.active (atomsLane k d (atomSize w) o (fun t => (k.prim t .i32 a).toNat) (atomFlt k w c)) s

/-- ACQ: R245. -/
def execAcq (b : Bool) (d : BitVec 6) (a : BitVec 6) (s : State) : Out :=
  frame ⟨b, [.block 2 2 d, .src .i64 a], true⟩ s fun k s =>
    eachLane k.active (acqLane k d a) s

/-- REL: R245. -/
def execRel (b : Bool) (a : BitVec 6) (c : BitVec 6) (s : State) : Out :=
  frame ⟨b, [.src .i64 a, .src .i64 c], true⟩ s fun k s =>
    eachLane k.active (relLane k a c) s

/-- FENCE: R226; at .sys it releases the stores before it to later launches (R82). -/
def execFence (b : Bool) (s : State) : Out :=
  frame ⟨b, [], true⟩ s fun k s =>
    let s1 := eachLane k.active (fun s t => (s.plumbFence k.ci (k.place t)).released k t) s
    if (List.range 16).any k.active then s1.performed k.cr.part k.scope else s1

/-- BIND: R246. -/
def execBind (b : Bool) (d : BitVec 6) (a : BitVec 6) (c : BitVec 6) (s : State) : Out :=
  frame ⟨b, [.src .i64 d, .src .i64 a, .src .i32 c], true⟩ s fun k s =>
    eachLane k.active (bindLane k d a c) s

/-- BIND.CLR: R246. -/
def execBindClr (b : Bool) (d : BitVec 6) (a : BitVec 6) (s : State) : Out :=
  frame ⟨b, [.src .i64 d, .src .i64 a], true⟩ s fun k s =>
    eachLane k.active (unbindLane k d a) s

end Sys2Proof.Machine
end

