-- ==== Sys2Proof/Machine/Sync.lean ====
section
/-!
DEFINITION. Monitors, numbered barriers, gang barriers and mailboxes (R247-R259).
-/

namespace Sys2Proof.Machine

open Sys2Proof

/-- Registers of the lane `t` of the current group written at once. -/
def setLane (c : Ctx) (t : Nat) (ws : List (Nat × Reg)) (s : State) : State :=
  s.updLane c.ci (c.place t) fun l => l.setRegs ws

/-! ### Monitors -/

/-- A word that a monitor can watch: its owner's scratchpad or global memory, and its place there (R248, R250). -/
def monitorPlace (s : State) (c : Ctx) (p a size : Nat) : Acc (Option Nat × Nat) :=
  if 2 ^ 56 ≤ a then .trap (.fault causeAddress) (a % 2 ^ 56)
  else if isWindow a then
    (s.window c.ci a).bind fun w =>
      if w.kind ≠ 0 ∨ (s.crews[w.crew]?.map Crew.alloc).getD 0 < w.off + size then .trap (.fault causeWindow) a
      else .ok (some w.crew, w.off)
  else
    (s.globalPage c.ci p a {}).bind fun g =>
      .ok (none, g.on (dieOf c.core))

/-- The value of a watched word at its monitor point (R250). -/
def monitorWord (s : State) (m : Option Nat × Nat) (size : Nat) : Acc Nat :=
  match m.1 with
  | some cj => .ok ((s.crews[cj]?.map fun cr => cr.scratch.nat m.2 size).getD 0)
  | none => if s.poisoned m.2 size then .poison else .ok (s.mem.nat m.2 size)

/-- The blocks that a crew's monitor entries watch (R247). -/
def State.watched (s : State) (ci : Nat) : List (Option Nat × Nat) :=
  ((s.monitors.filter fun m => m.crew == ci && m.got.isNone).map fun m => (m.pad, m.place / 64)).dedup

/-- MWAIT in one lane (R249): it raises RESOURCE in a crew without monitor entries (R247); else it obtains its entry,
then reads the word and arms. -/
def mwaitLane (c : Ctx) (d a b : Code) (acq any wide : Bool) (s : State) (t : Nat) : State :=
  let p := c.place t
  let x := c.adr a t
  let size := if wide then 8 else 4
  let e := c.prim t (if wide then .i64 else .i32) b
  if pktMon c.cr.packet = 0 then failLane c t .resource 0 s
  else if x % size ≠ 0 then failLane c t .misaligned 0 s
  else afterAcc c t (heldAs x false 0) s (monitorPlace s c p x size) fun m =>
    let used := s.watched c.ci
    if !used.contains (m.1, m.2 / 64) && decide (pktMon c.cr.packet ≤ used.length) then failLane c t .resource 0 s
    else afterAcc c t (heldAs x false 0) s (monitorWord s m size) fun v =>
      let s1 := s.replayed c.ci p x
      if !any && BitVec.ofNat 64 v != e then
        setLane c t (plainRegs c.t d.toNat (size / 4) v) (if acq then s1.plumbAcquire c.ci p x else s1)
      else
        { s1.parkLane t .monitor c.start c.next with
          monitors := s1.monitors ++ [⟨c.ci, p, m.1, m.2, wide, any, acq, e, d.toNat, x, c.scope, none⟩] }

/-- A write to a watched block has completed the MWAIT of a parked thread: its word is delivered, and the thread goes
on at the next word (R249, R250). -/
def wakeMonitor (crew lane : Nat) (s : State) : State :=
  match s.monitors.findIdx? fun m => m.crew == crew && m.lane == lane && m.got.isSome, s.crews[crew]? with
  | some i, some cr =>
    match s.monitors[i]? with
    | none => s
    | some m =>
      if ((s.thread? crew lane).map Thread.run) ≠ some (.parked .monitor) then s
      else
        let s1 := s.updLane crew lane fun l => l.setRegs (plainRegs cr.t m.d (if m.wide then 2 else 1) (m.got.getD 0).toNat)
        let s2 := if m.acq then s1.plumbAcquire crew lane m.va else s1
        { s2 with monitors := s2.monitors.eraseIdx i }.wakeCont crew lane
  | _, _ => s

/-! ### Numbered barriers -/

/-- Barrier `n` of a crew. -/
def Crew.bar (cr : Crew) (n : Nat) : Barrier := cr.bars.getD n ⟨0, 0, none, false⟩

/-- PEND after one more arrival: it has 11 bits (R251), and what they hold after 2,047 is a free value (log 51). -/
def pendNext (n : Nat) : Nat := if n < 2047 then n + 1 else (Config.pendOver n).toNat

/-- An arrival (R253); none where the phase already has another count or kind.  See `pendNext`
for PEND. -/
def Barrier.arrive (b : Barrier) (gang : Bool) (cnt : Nat) : Option Barrier :=
  match b.cnt with
  | none => some { b with pend := pendNext b.pend, cnt := some cnt, gang := gang }
  | some x => if x = cnt ∧ b.gang = gang then some { b with pend := pendNext b.pend } else none

/-- A completed phase (R253). -/
def Barrier.complete (b : Barrier) (need : Nat) : Barrier :=
  { b with phase := b.phase + 1, pend := b.pend - need, cnt := if need < b.pend then b.cnt else none }

def State.setBar (s : State) (ci n : Nat) (b : Barrier) : State :=
  s.updCrew ci fun cr => { cr with bars := cr.bars.set n b }

/-- Every waiter of barrier `n` whose token differs from its phase continues (R253). -/
def wakeBarrier (ci n : Nat) (s : State) : State :=
  match s.crews[ci]? with
  | none => s
  | some cr =>
    (List.range cr.lanes.length).foldl (fun s p =>
      match s.thread? ci p with
      | some th =>
        match th.run with
        | .parked (.barrier m tok) => if m = n ∧ tok ≠ (cr.bar n).phase then s.wakeCont ci p else s
        | _ => s
      | none => s) s

/-- The scope of a barrier word: GBAR's is .dev, or .sys under HSCP.sys (R253, R255). -/
def Ctx.barScope (c : Ctx) (gang : Bool) : Nat := if gang then max 2 c.scope else c.scope

/-- An arrival of lane `t` that traps on a wrong count, or the state after it with its token; it is a release at the
word's scope (R253). -/
def arriveLane (c : Ctx) (n : Nat) (gang : Bool) (cnt : Nat) (s : State) (t : Nat) : Except State (State × Word) :=
  match s.crews[c.ci]? with
  | none => .error s
  | some cr =>
    if 1024 < cnt then .error (failLane c t .illegalOperand 0 s)
    else match (cr.bar n).arrive gang cnt with
      | none => .error (failLane c t .illegalOperand 0 s)
      | some b => .ok (((s.setBar c.ci n b).releases c (c.barScope gang) t).closes c t, (cr.bar n).phase)

/-- The wait on a token: a thread whose token differs from the phase goes on (R254). -/
def waitBar (c : Ctx) (n : Nat) (tok : Word) (w : Option PendWait) (s : State) (t : Nat) : State :=
  match s.crews[c.ci]? with
  | none => s
  | some cr =>
    if tok ≠ (cr.bar n).phase then s.updThread c.ci (c.place t) fun th => { th with pendWait := none }
    else (s.parkLane t (.barrier n tok) c.start c.next).updThread c.ci (c.place t) fun th => { th with pendWait := w }

/-- BAR.ARV in one lane (R254): the token is written and pushed. -/
def barArvLane (c : Ctx) (nowrite : Bool) (d : Code) (n : Nat) (cnt : Nat → Nat) (s : State) (t : Nat) : State :=
  match arriveLane c n false (cnt t) s t with
  | .error s' => s'
  | .ok (s1, tok) =>
    let v : Val := .plain false c.t (tok.zeroExtend 64)
    (s1.updLane c.ci (c.place t) fun l => if nowrite then l else l.writeV d.toNat v).updGroup c.core c.slot fun g =>
      { g with latch := g.latch.modify t (pushLatch v) }

/-- What the lanes that do not take part push, so that every lane keeps the same latch depth: those guarded off
(R93), and helpers, for which the word has no effect (R28). -/
def pushStays (c : Ctx) (nowrite : Bool) (d : Code) (s : State) : State :=
  s.updGroup c.core c.slot fun g =>
    { g with latch := g.latch.mapIdx fun t vs =>
        if c.guardedOff t || c.kind t == .helper then pushLatch (c.stays false nowrite d t) vs else vs }

/-- BAR.SYN and GBAR in one lane (R254-R256): a thread with a pending-wait record performs only its wait. -/
def barSynLane (c : Ctx) (n : Nat) (gang : Bool) (cnt : Nat → Nat) (s : State) (t : Nat) : State :=
  match (s.thread? c.ci (c.place t)).bind fun th => th.pendWait with
  | some (.barSyn m tok) => waitBar c m tok (some (.barSyn m tok)) s t
  | some (.gbar m tok) => waitBar c m tok (some (.gbar m tok)) s t
  | _ =>
    match arriveLane c n gang (cnt t) s t with
    | .error s' => s'
    | .ok (s1, tok) => waitBar c n tok (some (if gang then .gbar n tok else .barSyn n tok)) s1 t

/-! ### Mailboxes -/

/-- A mailbox: the crew whose scratchpad holds it, and its offset. -/
structure Mbox where
  crew : Nat
  off : Nat
  deriving DecidableEq, Repr

/-- CAP of a header (R257). -/
def mboxCap (hdr : Nat) : Nat := fld hdr 12 0

/-- Whether a mailbox's header is well-formed (R258, check 3). -/
def mboxOk (hdr : Nat) : Bool :=
  decide (fld hdr 127 96 = 0 ∧ fld hdr 31 13 = 0) && (List.range 13).any fun k => mboxCap hdr == 2 ^ k

/-- The checks of a mailbox address (R258). -/
def mboxAt (s : State) (ci a : Nat) : Acc Mbox :=
  if a % 16 ≠ 0 then .trap .misaligned 0
  else if 2 ^ 56 ≤ a then .trap (.fault causeWindow) (a % 2 ^ 56)
  else if !isWindow a then .trap (.fault causeWindow) a
  else
    (s.window ci a).bind fun w =>
      match s.crews[w.crew]? with
      | none => .trap (.fault causeWindow) a
      | some cr =>
        let hdr := cr.scratch.nat w.off 16
        let len := 16 + 16 * mboxCap hdr
        if w.kind ≠ 0 ∨ cr.alloc < w.off + len ∨ cr.meetsQueue w.off len then .trap (.fault causeWindow) a
        else if !mboxOk hdr then .trap .engineStatus 0
        else .ok ⟨w.crew, w.off⟩

/-- The next ticket, drawn at the owning bank unit (R259). -/
def drawTicket (put : Bool) (m : Mbox) (s : State) : Word × State :=
  match s.crews[m.crew]? with
  | none => (0, s)
  | some cr =>
    let at_ := m.off + (if put then 4 else 8)
    let k := cr.scratch.nat at_ 4
    (BitVec.ofNat 32 k, s.scratchStore m.crew at_ (leBytes 4 (k + 1)))

/-- The put or take of a ticket, where its slot is ready (R259): the state after it and the message.  A slot that a
program has moved into a copy queue is never reached (R262). -/
def mboxTry (ci a : Nat) (k : Word) (put : Bool) (msg : Dword) (s : State) : Option (State × Dword) :=
  match (if a < 2 ^ 56 ∧ isWindow a then s.window ci a else .hold) with
  | .ok w =>
    match s.crews[w.crew]? with
    | none => none
    | some cr =>
      let cap := mboxCap (cr.scratch.nat w.off 16)
      let slot := w.off + 16 + 16 * (k.toNat % cap)
      let seq : Word := BitVec.ofNat 32 (cr.scratch.nat (slot + 8) 4)
      if w.kind ≠ 0 ∨ cap = 0 ∨ cr.alloc < slot + 16 ∨ cr.meetsQueue slot 16 = true then none
      else if put then
        if seq = k then
          some ((s.scratchStore w.crew slot (leBytes 8 msg.toNat)).scratchStore w.crew (slot + 8)
            (leBytes 4 (k + 1).toNat), 0)
        else none
      else if seq = k + 1 then
        some (s.scratchStore w.crew (slot + 8) (leBytes 4 (k + BitVec.ofNat 32 cap).toNat),
          BitVec.ofNat 64 (cr.scratch.nat slot 8))
      else none
  | _ => none

/-- What a recorded wait meets at its mailbox's address: a raw window of an earlier placement is stale (R42, R196,
R256). -/
def mboxGone (s : State) (ci a : Nat) : Option (Trap × Nat) :=
  match (if a < 2 ^ 56 ∧ isWindow a = true then s.window ci a else .trap (.fault causeWindow) (a % 2 ^ 56)) with
  | .trap tr b => some (tr, b)
  | _ => none

/-- The wait of a put or take in lane `t`: met at once, and then a put is a release at the scope, or the thread parks on
the mailbox (R259, R256). -/
def mboxWait (c : Ctx) (d : Code) (a : Nat) (k : Word) (put : Bool) (msg : Dword) (s : State) (t : Nat) : State :=
  match mboxTry c.ci a k put msg s with
  | some (s1, v) =>
    let s2 := s1.updThread c.ci (c.place t) fun th => { th with pendWait := none }
    if put then s2.performed c.cr.part c.scope else setLane c t (plainRegs c.t d.toNat 2 v.toNat) s2
  | none =>
    match mboxGone s c.ci a with
    | some (tr, b) => failLane c t tr b (s.updThread c.ci (c.place t) fun th => { th with pendWait := none })
    | none =>
      let adr : BitVec 56 := BitVec.ofNat 56 a
      (s.parkLane t (.mailbox adr k put msg d.toNat c.scope) c.start c.next).updThread c.ci (c.place t) fun th =>
        { th with pendWait := some (if put then .mbPut adr k else .mbTake adr k) }

/-- MBPUT or MBTAKE in one lane (R258, R259, R256). -/
def mboxLane (c : Ctx) (d a : Code) (put : Bool) (s : State) (t : Nat) : State :=
  let msg : Dword := if put then c.prim t .i64 d else 0
  match (s.thread? c.ci (c.place t)).bind fun th => th.pendWait with
  | some (.mbPut x k) => mboxWait c d x.toNat k put msg s t
  | some (.mbTake x k) => mboxWait c d x.toNat k put msg s t
  | _ =>
    let x := c.adr a t
    afterAcc c t (heldAs x true 0) s (mboxAt s c.ci x) fun m =>
      let r := drawTicket put m s
      mboxWait c d x r.1 put msg (r.2.closes c t) t

/-- MWAIT: R249. -/
def execMwait (d : BitVec 6) (a : BitVec 6) (c : BitVec 6) (q : BitVec 1) (y : BitVec 1) (w : BitVec 1) (s : State) : Out :=
  frame ⟨true, [.block (if w == 1#1 then 2 else 1) (if w == 1#1 then 2 else 1) d, .src .i64 a, .src (if w == 1#1 then .i64 else .i32) c], true⟩ s fun k s =>
    eachLane k.active (mwaitLane k d a c (q == 1#1) (y == 1#1) (w == 1#1)) s

/-- BAR.ARV: R254. -/
def execBarArv (b : Bool) (n : Bool) (d : BitVec 6) (a : BitVec 6) (c : BitVec 6) (s : State) : Out :=
  frame ⟨b, [.dst false n d, .src .i32 a, .idx 64 c, .bar c], true⟩ s fun k s =>
    pushStays k n d (eachLane k.active (barArvLane k n d c.toNat fun t => (k.prim t .i32 a).toNat) s)

/-- BAR.WT: R254. -/
def execBarWt (a : BitVec 6) (c : BitVec 6) (s : State) : Out :=
  frame ⟨true, [.src .i32 a, .idx 64 c, .bar c], true⟩ s fun k s =>
    eachLane k.active (fun s t => waitBar k c.toNat ((k.prim t .i32 a).truncate 32) none s t) s

/-- BAR.SYN: R254. -/
def execBarSyn (a : BitVec 6) (c : BitVec 6) (s : State) : Out :=
  frame ⟨true, [.src .i32 a, .idx 64 c, .bar c], true⟩ s fun k s =>
    eachLane k.active (barSynLane k c.toNat false fun t => (k.prim t .i32 a).toNat) s

/-- GBAR: R255. -/
def execGbar (c : BitVec 6) (s : State) : Out :=
  frame ⟨true, [.idx 64 c, .bar c], true⟩ s fun k s =>
    eachLane k.active (barSynLane k c.toNat true fun _ => 0) s

/-- MBPUT: R259. -/
def execMbput (d : BitVec 6) (a : BitVec 6) (s : State) : Out :=
  frame ⟨true, [.src .i64 d, .src .i64 a], true⟩ s fun k s =>
    eachLane k.active (mboxLane k d a true) s

/-- MBTAKE: R259. -/
def execMbtake (d : BitVec 6) (a : BitVec 6) (s : State) : Out :=
  frame ⟨true, [.block 2 2 d, .src .i64 a], true⟩ s fun k s =>
    eachLane k.active (mboxLane k d a false) s

end Sys2Proof.Machine
end

