-- ==== Sys2Proof/Machine/Engine.lean ====
section
/-!
DEFINITION. What every engine uses: the words it reaches, tile entries, completion stamps, and the
threads that wait on it (R198, R216, R218, R229, R273, R274).
-/

namespace Sys2Proof.Machine

open Sys2Proof

/-- A list of accesses that all went well, or the first that did not. -/
def Acc.all {α : Type} : List (Acc α) → Acc (List α)
  | [] => .ok []
  | x :: xs => x.bind fun a => (Acc.all xs).bind fun as => .ok (a :: as)

/-- The access's value, where it went well. -/
def Acc.value? {α : Type} : Acc α → Option α
  | .ok a => some a
  | _ => none

/-- Whether a word belongs to one of some tile entries. -/
def Place.inTiles (bad : List (Nat × Nat)) : Place → Bool
  | .tile k i _ => bad.contains (k, i)
  | _ => false

/-- A word that an operation writes: its virtual address, where Plumb may watch it, its place and its value. -/
structure WordOut where
  va : Option Nat
  place : Place
  word : Word

namespace State

/-! ### The words an engine reaches -/

/-- A word as an engine on die `d` reads it; a tile entry as it stood at the end of the previous cycle (R217). -/
def placeWord (s : State) (d : Nat) : Place → Word
  | .mem pa rep => BitVec.ofNat 32 (s.mem.nat (if rep then pa + d * Config.dieStride else pa) 4)
  | .pad c off => BitVec.ofNat 32 ((s.crews[c]?.map fun cr => cr.scratch.nat off 4).getD 0)
  | .reg c l r j =>
    ((s.crews[c]?.bind fun cr => cr.lanesOld[l]?.map fun (x : Lane) => (x.reg cr.c r).word j).getD 0)
  | .tile c i hi =>
    let e := (s.crews[c]?.map fun cr => cr.tilesOld.getD i 0).getD 0
    if hi then (e >>> 32).truncate 32 else e.truncate 32
  | .slot c i hi =>
    let e := (s.crews[c]?.map fun cr => Sparse.get cr.accSlots i).getD 0
    if hi then (e >>> 32).truncate 32 else e.truncate 32

/-- Half of a 64-bit value replaced. -/
def half64 (e : Dword) (hi : Bool) (w : Word) : Dword :=
  if hi then pairOf (e.truncate 32) w else pairOf w ((e >>> 32).truncate 32)

/-- A word written; a register's when a cycle of its core ends (R198). -/
def putPlace (s : State) (w : Word) : Place → State
  | .mem pa rep => s.physWrite ⟨pa, false, rep, none, true, false, false, false⟩ (leBytes 4 w.toNat)
  | .pad c off => s.scratchStore c off (leBytes 4 w.toNat)
  | .reg c l r j =>
    { s with regWrites := s.regWrites ++ [⟨c, l, r, j, w⟩] }
  | .tile c i hi => s.updCrew c fun cr => { cr with tiles := cr.tiles.set i (half64 (cr.tiles.getD i 0) hi w) }
  | .slot c i hi =>
    s.updCrew c fun cr => { cr with accSlots := Sparse.set cr.accSlots i (half64 (Sparse.get cr.accSlots i) hi w) }

/-- Words written in order; neighbouring words of memory go out together, so that whole blocks are
written whole (R397).  `run` is the run gathered so far: its address, its kind and its bytes. -/
def putWords (s : State) : Option (Nat × Bool × List Byte) → List (Place × Word) → State
  | none, [] => s
  | some (pa, rep, bs), [] => s.physWrite ⟨pa, false, rep, none, true, false, false, false⟩ bs
  | run, (.mem pa rep, w) :: r =>
    let bytes := leBytes 4 w.toNat
    match run with
    | none => putWords s (some (pa, rep, bytes)) r
    | some (pa0, rep0, bs) =>
      if rep0 = rep ∧ pa0 + bs.length = pa then putWords s (some (pa0, rep0, bs ++ bytes)) r
      else putWords (s.physWrite ⟨pa0, false, rep0, none, true, false, false, false⟩ bs) (some (pa, rep, bytes)) r
  | none, (p, w) :: r => putWords (s.putPlace w p) none r
  | some (pa0, rep0, bs), (p, w) :: r =>
    putWords ((s.physWrite ⟨pa0, false, rep0, none, true, false, false, false⟩ bs).putPlace w p) none r

/-- The word of global memory at a virtual address, for an engine on die `d`. -/
def memPlace (s : State) (p d va : Nat) (write : Bool) : Acc Place :=
  (s.xlat p va { write := write }).bind fun g =>
    if !write && s.poisonedOn d g 4 then .poison else .ok (.mem g.pa g.replicated)

/-- The words of a window that an engine operation of crew `ci` names (R194, R198, R262).  Tile entries and
accumulator slots are reached whole, 8 bytes at a time (log 20). -/
def windowPlaces (s : State) (ci a n : Nat) (write : Bool) : List (Acc Place) :=
  let bad : Acc Place := .trap (.fault causeWindow) a
  match s.window ci a with
  | .ok w =>
    match s.crews[w.crew]? with
    | none => List.replicate n bad
    | some cr =>
      (List.range n).map fun j =>
        let off := w.off + 4 * j
        match w.kind with
        | 0 =>
          if off + 4 ≤ cr.alloc ∧ !(write && cr.meetsQueue off 4) then .ok (.pad w.crew off) else bad
        | 1 =>
          match kind1Place cr off with
          | none => bad
          | some (li, r, k) =>
            if write && s.inGroup w.crew li then .hold else .ok (.reg w.crew li r k)
        | 2 =>
          if w.off % 8 = 0 ∧ n % 2 = 0 ∧ off / 8 < pktTiles cr.packet then .ok (.tile w.crew (off / 8) (off % 8 == 4))
          else bad
        | _ =>
          if w.off % 8 = 0 ∧ n % 2 = 0 ∧ off / 2048 < pktAccum cr.packet then
            if s.lineInFlight w.crew (off / 2048) then .hold else .ok (.slot w.crew (off / 8) (off % 8 == 4))
          else bad
  | .trap t b => List.replicate n (.trap t b)
  | _ => List.replicate n bad

/-! ### Tiles -/

/-- The state of a tile entry (R215): 0 empty, 1 filling, 2 ready, 3 draining. -/
def tileState (e : Dword) : Nat := bitsOf e 63 62

def setTile (s : State) (ci i : Nat) (e : Dword) : State :=
  s.updCrew ci fun cr => { cr with tiles := cr.tiles.set i e }

/-- The threads parked on a tile after it changed (R218, R275): ready releases them to their word, empty
raises ENGINE-STATUS in each. -/
def settleTile (s : State) (ci i : Nat) : State :=
  match s.crews[ci]? with
  | none => s
  | some cr =>
    (List.range cr.lanes.length).foldl (fun s p =>
      if ((s.thread? ci p).map fun t => t.run) = some (.parked (.tile i)) then
        match tileState (cr.tiles.getD i 0) with
        | 2 => s.wakeRetry ci p
        | 0 => s.trapThread ci p .engineStatus 0
        | _ => s
      else s) s

/-- Every thread of a crew that is parked for one reason executes its word again. -/
def wakeParked (s : State) (ci : Nat) (why : Park) : State :=
  match s.crews[ci]? with
  | none => s
  | some cr =>
    (List.range cr.lanes.length).foldl (fun s p =>
      if ((s.thread? ci p).map fun t => t.run) = some (.parked why) then s.wakeRetry ci p else s) s

/-! ### Engine accesses of global memory or of a scratchpad window -/

/-- Bytes that an engine operation of crew `ci` reads at an address: global memory, or a window of
KIND 0. -/
def engineRead (s : State) (ci : Option Nat) (p d a n : Nat) : Acc (List Byte) :=
  if isWindow a then
    match ci with
    | none => .trap (.fault causeWindow) a
    | some c =>
      (s.window c a).bind fun w =>
        match s.crews[w.crew]? with
        | none => .trap (.fault causeWindow) a
        | some cr =>
          if w.kind = 0 ∧ w.off + n ≤ cr.alloc then .ok (cr.scratch.read w.off n) else .trap (.fault causeWindow) a
  else s.readG p d a n

/-- Bytes that an engine operation of crew `ci` writes. -/
def engineWrite (s : State) (ci : Option Nat) (p a : Nat) (bs : List Byte) : Acc State :=
  if isWindow a then
    match ci with
    | none => .trap (.fault causeWindow) a
    | some c =>
      (s.window c a).bind fun w =>
        match s.crews[w.crew]? with
        | none => .trap (.fault causeWindow) a
        | some cr =>
          if w.kind = 0 ∧ w.off + bs.length ≤ cr.alloc ∧ !cr.meetsQueue w.off bs.length then
            .ok (s.scratchStore w.crew w.off bs)
          else .trap (.fault causeWindow) a
  else s.writeG p a bs

/-! ### What an operation in flight writes at its end (R231, R272, R294) -/

/-- The aligned words from `a` on that an operation writes in elements of `size` bytes: global memory, or a window
whose access width is the element's (R194). -/
def outPlaces (s : State) (ci : Option Nat) (p d a size n : Nat) : List (Acc Place) :=
  if 2 ^ 56 ≤ a then List.replicate n (.trap (.fault causeAddress) (a % 2 ^ 56))
  else if isWindow a then
    match ci with
    | none => List.replicate n (.trap (.fault causeWindow) a)
    | some c =>
      let kind := fld a 50 48
      if kind = 0 ∨ (kind = 1 ∧ size = 4) ∨ (2 ≤ kind ∧ size = 8) then s.windowPlaces c a n true
      else
        match s.window c a with
        | .trap t b => List.replicate n (.trap t b)
        | _ => List.replicate n (.trap (.fault causeWindow) a)
  else (List.range n).map fun j => s.memPlace p d (a + 4 * j) true

/-- The aligned words that bytes at an address touch. -/
def wordCount (a n : Nat) : Nat := (a % 4 + n + 3) / 4

/-- Word `j` of those that bytes at `a` touch, the bytes around them as `old` has them. -/
def mergedWord (old : Word) (a : Nat) (bs : List Byte) (j : Nat) : Word :=
  let o := a % 4
  BitVec.ofNat 32 (leNat ((List.range 4).map fun b =>
    if o ≤ 4 * j + b ∧ 4 * j + b < o + bs.length then bs.getD (4 * j + b - o) 0 else old.extractLsb' (8 * b) 8))

/-- The accesses that bytes written at an address make, word by word; `d` is the operation's die. -/
def outWords (s : State) (ci : Option Nat) (p d a size : Nat) (bs : List Byte) : List (Acc WordOut) :=
  let a0 := a - a % 4
  (s.outPlaces ci p d a0 size (wordCount a bs.length)).zipIdx.map fun x =>
    x.1.bind fun q => .ok ⟨if isWindow a then none else some (a0 + 4 * x.2), q, mergedWord (s.placeWord d q) a bs x.2⟩

/-- The words of a crew's own scratchpad that bytes at an offset touch. -/
def padWords (s : State) (ci off : Nat) (bs : List Byte) : List (Acc WordOut) :=
  (List.range (wordCount off bs.length)).map fun j =>
    let q : Place := .pad ci (off - off % 4 + 4 * j)
    .ok ⟨none, q, mergedWord (s.placeWord 0 q) off bs j⟩

/-- The tile entries among some words, where TSET would trap on what they are to receive (R198). -/
def tsetRefused (s : State) (ws : List WordOut) : List (Nat × Nat) :=
  ws.filterMap fun x =>
    match x.place with
    | .tile k i true =>
      let lo := ((ws.find? fun y => y.place == .tile k i false).map WordOut.word).getD 0
      if ((s.crews[k]?).map fun cr => (tsetCheck cr i (pairOf lo x.word).toNat).isSome).getD true then some (k, i) else none
    | _ => none

/-- What an operation's writes come to: the words of those that go well, without the tile entries that TSET would
trap on, and how the first that does not fares. -/
def outcomeOf (s : State) (ws : List (Acc WordOut)) : List WordOut × Acc Unit :=
  let ok := ws.filterMap Acc.value?
  let bad := s.tsetRefused ok
  (ok.filter fun x => !x.place.inTiles bad,
    (Acc.all ws).bind fun _ => if bad.isEmpty then .ok () else .trap (.fault causeWindow) 0)

/-- The words that an operation writes: on status OK all of them, but a word that another operation wrote while this
one was in flight keeps either value (R231); otherwise each is old or new (R272, R275, R294).  A tile entry or an
accumulator slot is written whole.  Log 6. -/
def chosen (whole : Bool) (raced : List Place) (free : Nat) (ws : List WordOut) : List WordOut :=
  (ws.zipIdx.filter fun x =>
    let i :=
      match x.1.place with
      | .tile c n _ => ws.findIdx fun y => y.place == .tile c n false || y.place == .tile c n true
      | .slot c n _ => ws.findIdx fun y => y.place == .slot c n false || y.place == .slot c n true
      | _ => x.2
    (whole && !raced.contains x.1.place) || Config.raceBit (free + i)).map Prod.fst

/-- Words that others wrote since an operation's start; `tag` names an operation that writes in steps, 0 any other. -/
def racedSince (s : State) (since tag : Nat) : List Place :=
  ((s.moves.drop since).filter fun x => x.1 != tag || tag == 0).map Prod.snd

/-- An operation that started when `since` words had been written settles its words; `say`: what Plumb makes of a
word's access, of every word written, whichever value it keeps (R238). -/
def settleWords (s : State) (since tag : Nat) (whole : Bool) (say : State → Nat → State) (ws : List WordOut) : State :=
  let put := chosen whole (s.racedSince since tag) s.free ws
  let s1 := s.putWords none (put.map fun x => (x.place, x.word))
  ((if whole then ws else put).filterMap WordOut.va).foldl say
    { s1 with free := s1.free + ws.length, moves := s1.moves ++ ws.map fun x => (tag, x.place) }

/-! ### Completion stamps -/

/-- How a stamp write fares (R273, R274). -/
inductive Stamped where
  | written (s : State)
  /-- a translation or write-protection fault holds the operation -/
  | held
  /-- the stamp is lost -/
  | lost

/-- The 8 bytes of a stamp (R273). -/
def stampWord (seq status : Nat) (flags : BitVec 6) : Nat :=
  seq * 2 ^ 32 + status * 2 ^ 24 + flags.toNat * 2 ^ 16

/-- `stamp_write` of R101: the stamp as the release at a scope (R229, R233, R274). -/
def stamp (s : State) (ci : Option Nat) (p a seq status : Nat) (flags : BitVec 6) (scope : Nat) (refused : Bool) :
    Stamped :=
  match s.engineWrite ci p a (leBytes 8 (stampWord seq status flags)) with
  | .ok s' => .written (s'.fireWaiters p a scope)
  | .fault _ _ => if refused then .lost else .held
  | _ => .lost

/-- Plumb's record of an engine's accesses to `n` bytes of watched memory (R237-R239). -/
def plumbEngine (s : State) (ci : Option Nat) (wid : BitVec 26) (interval : Word) (pc a n scope : Nat) (write : Bool) :
    State :=
  match ci with
  | none => s
  | some c =>
    if isWindow a || bitsOf ((s.crews[c]?.map fun cr => cr.mode).getD 0) 4 3 == 0 then s
    else (sectors a n).foldl (fun s x => (s.plumbAccess c wid interval none x scope 3 false write pc).1) s

/-- Whether a stamp's address is a raw window address that is stale (R265, R294, R328). -/
def staleStamp (s : State) (ci a : Nat) : Bool :=
  isWindow a &&
    match s.window ci a with
    | .trap .staleWindow _ => true
    | _ => false

/-- The result of a graph node arrives (R347, R348). -/
def nodeEnds (s : State) (node : Option (Nat × Nat)) (status : Nat) : State :=
  match node with
  | none => s
  | some (g, n) => s.updGraph g fun G => { G with nodes := G.nodes.set n (.ended status) }

end State

end Sys2Proof.Machine
end

