-- ==== Sys2Proof/Machine/Copy.lean ====
section
/-!
DEFINITION. The copy queue and the copy engine: XQ, XQN, COPY_TAKE, COPY_COMPLETE, TRANSPORT_FAILURE
(R260-R277, R376-R378).
-/

namespace Sys2Proof.Machine

open Sys2Proof
open Sys2Proof.Num (Elt Flags eltOf fp32)

/-! ### The queue (R261) -/

/-- Byte places of the header's words: TAIL, HEAD, DONE, LOST, LSEQ. -/
def qTail : Nat := 4
def qHead : Nat := 8
def qDone : Nat := 12
def qLost : Nat := 24
def qLseq : Nat := 28

/-- A word of a crew's copy-queue header. -/
def Crew.qword (cr : Crew) (at_ : Nat) : Nat := cr.scratch.nat (pktQB cr.packet + at_) 4

namespace State

def setQword (s : State) (ci at_ v : Nat) : State :=
  match s.crews[ci]? with
  | none => s
  | some cr => s.scratchStore ci (pktQB cr.packet + at_) (leBytes 4 v)

end State

/-- Commands in a queue that the engine has not taken. -/
def Crew.queued (cr : Crew) : Nat := (cr.qword qTail + 2 ^ 32 - cr.qword qHead) % 2 ^ 32

/-! ### Fields of a command (R263) -/

def cmdSeq (c : BitVec 256) : Nat := bitsOf c 255 224
def cmdNw (c : BitVec 256) : Nat := bitsOf c 223 200
def cmdAsc (c : BitVec 256) : Nat := bitsOf c 199 198
def cmdRsc (c : BitVec 256) : Nat := bitsOf c 197 196
def cmdMode (c : BitVec 256) : Num.Mode := .ofCode (bitsOf c 195 194)
def cmdXf (c : BitVec 256) : Nat := bitsOf c 193 192
def cmdFmt (c : BitVec 256) : Nat := bitsOf c 191 184
def cmdStamp (c : BitVec 256) : Nat := bitsOf c 183 128
def cmdTr (c : BitVec 256) : Bool := bitAt c.toNat 127
def cmdDk (c : BitVec 256) : Nat := bitsOf c 122 120
def cmdDst (c : BitVec 256) : Nat := bitsOf c 119 64
def cmdSk (c : BitVec 256) : Nat := bitsOf c 58 56
def cmdSrc (c : BitVec 256) : Nat := bitsOf c 55 0

/-! ### XQ and XQN -/

/-- The tile index that an address field of kind 1 names, within the crew's entries (R264). -/
def Crew.tileNamed (cr : Crew) (kind v : Nat) : Option Nat :=
  if kind = 1 ∧ v < pktTiles cr.packet then some v else none

/-- The tile transitions of a commit (R268): the crew after them, the mark for TILE-STATE, and the
destination's state before. -/
def commitTiles (cr : Crew) (c : BitVec 256) : Crew × Bool × BitVec 2 :=
  let st (i : Nat) : Nat := State.tileState (cr.tiles.getD i 0)
  let src := cr.tileNamed (cmdSk c) (cmdSrc c)
  let dst := cr.tileNamed (cmdDk c) (cmdDst c)
  let srcOk := (src.map fun i => st i == 2).getD true
  let dstOk := (dst.map fun i => st i == 0 || st i == 2).getD true
  let twice := cmdTr c && src.isSome && decide (src = dst)
  let before : BitVec 2 := BitVec.ofNat 2 ((dst.map st).getD 0)
  if !srcOk || !dstOk || twice then (cr, true, before)
  else
    let put (ts : List Dword) (i : Option Nat) (x : Nat) : List Dword :=
      match i with
      | some i => ts.modify i fun e => setBits e 63 62 x
      | none => ts
    let ts1 := if cmdTr c then put cr.tiles src 3 else cr.tiles
    ({ cr with tiles := put ts1 dst 1 }, false, before)

/-- XQ or XQN in one lane (R267). -/
def xqLane (c : Ctx) (a : Code) (xqn : Bool) (s : State) (t : Nat) : State :=
  let p := c.place t
  match s.crews[c.ci]?, s.thread? c.ci p with
  | some cr, some th =>
    let cmd : BitVec 256 :=
      BitVec.ofNat 256 ((List.range 8).foldl (fun x i => x + ((c.lane t).getV (a.toNat + i)).prim.toNat * 2 ^ (32 * i)) 0)
    let stamp := cmdStamp cmd
    let qn := pktQN cr.packet
    if qn = 0 then failLane c t .resource 0 s
    else if stamp % 8 ≠ 0 then failLane c t .misaligned 0 s
    else if isWindow stamp ∧ fld stamp 50 48 ≠ 0 then failLane c t .illegalOperand 0 s
    else if cr.queued = qn then s.parkLane t .copyQueue c.start c.start
    else
      let r := commitTiles cr cmd
      let tail := cr.qword qTail
      let info : QMeta := ⟨xqn, r.2.1, r.2.2, (s.core c.core).lclk, cr.wid th.tid, th.interval, c.start⟩
      let s1 := s.updCrew c.ci fun _ => { r.1 with queueMeta := r.1.queueMeta ++ [info] }
      let s2 := s1.scratchStore c.ci (pktQB cr.packet + 32 + 32 * (tail % qn)) (leBytes 32 cmd.toNat)
      ((s2.setQword c.ci qTail (tail + 1)).released c t).closes c t
  | _, _ => s

/-! ### Taking a command (R269) -/

/-- Copies in flight on a cluster, and those of one crew. -/
def State.copiesOf (s : State) (k : Nat) (crew : Option Nat) : Nat :=
  (s.copies.filter fun o => o.cluster == k && (crew.isNone || o.crew == crew)).length

/-- Whether the engine of cluster `k` may take a command of crew `ci`. -/
def State.mayTake (s : State) (k ci : Nat) : Bool :=
  match s.crews[ci]? with
  | none => false
  | some cr =>
    cr.resident && clusterOf cr.core == k && decide (0 < cr.queued) && decide (pktQN cr.packet ≠ 0) &&
      decide (s.copiesOf k (some ci) < Config.copiesPerCrew)

/-- The crew whose turn it is, round-robin (R269). -/
def State.copyTurn (s : State) (k : Nat) : Option Nat :=
  if Config.copiesInFlight ≤ s.copiesOf k none then none
  else
    let n := s.crews.length
    let from_ := (s.cluster k).copyNext
    ((List.range n).map fun i => (from_ + i) % n).find? fun ci => s.mayTake k ci

/-- The engine of cluster `k` takes a command; HEAD advances, and the threads parked on the queue
execute their word again (R267). -/
def execCopyTake (cluster : Nat) (s : State) : Out :=
  match s.copyTurn cluster with
  | none => .next s
  | some ci =>
    match s.crews[ci]? with
    | none => .next s
    | some cr =>
      let head := cr.qword qHead
      let at_ := pktQB cr.packet + 32 + 32 * (head % pktQN cr.packet)
      let cmd : BitVec 256 := BitVec.ofNat 256 (cr.scratch.nat at_ 32)
      let info := cr.queueMeta.headD ⟨false, false, 0, 0, 0, 0, 0⟩
      let op : CopyOp := ⟨cluster, cr.part, some ci, none, cmd, info, false, false, none, none, s.moves.length⟩
      let s1 := s.updCrew ci fun cr => { cr with queueMeta := cr.queueMeta.drop 1 }
      let s2 := (s1.setQword ci qHead (head + 1)).updCluster cluster fun K => { K with copyNext := ci + 1 }
      .next ({ s2 with copies := s2.copies ++ [op] }.wakeParked ci .copyQueue)

/-! ### The checks of R265 -/

/-- The die a copy engine stands on. -/
def CopyOp.die (op : CopyOp) : Nat := op.cluster / 8

/-- The tile entry that an end names, as it stands, and the crew. -/
def State.endTileNow (s : State) (op : CopyOp) (kind v : Nat) : Option (Nat × Dword) :=
  match op.crew with
  | none => none
  | some ci => (s.crews[ci]?).bind fun cr => (cr.tileNamed kind v).map fun i => (ci, cr.tiles.getD i 0)

/-- The tile entry that an end names, as the engine sees it: one that fills or drains is the command's own, and any
other is seen as it stood at the end of the previous cycle (R217); in the cycle of the command's own commit, as it
stands (log 33). -/
def State.endTile (s : State) (op : CopyOp) (kind v : Nat) : Option (Nat × Dword) :=
  (s.endTileNow op kind v).map fun x =>
    if State.tileState x.2 = 1 ∨ State.tileState x.2 = 3 ∨ op.info.committed = (s.core (s.coreOf x.1)).lclk then x
    else (x.1, ((s.crews[x.1]?).map fun cr => cr.tilesOld.getD v 0).getD 0)

/-- Where a block's descriptor stands (R215, R191). -/
inductive DescHome where
  | page (g : Page)
  | pad (crew off : Nat)

/-- The descriptor's place of block `i` of an end, where it can hold one (R270). -/
def State.descHome (s : State) (op : CopyOp) (kind v i : Nat) : Option DescHome :=
  if kind = 1 then
    (s.endTile op kind v).bind fun x =>
      if bitsOf x.2 59 52 = 0 then none
      else some (.pad x.1 (bitsOf x.2 34 16 + 64 * bitsOf x.2 51 39 + 2 * i))
  else if kind = 0 ∧ !isWindow v then
    match s.xlat op.part (v + 64 * i) {} with
    | .ok g => if g.typed then some (.page g) else none
    | _ => none
  else none

/-- Whether a block of a source of memory cannot be reached yet, or at all (R272). -/
def State.outOfReach (s : State) (op : CopyOp) (kind v i : Nat) : Bool :=
  decide (kind = 0) && !isWindow v &&
    match s.xlat op.part (v + 64 * i) {} with
    | .ok _ => false
    | _ => true

def State.descOf (s : State) : DescHome → Nat
  | .page g => (s.descAt g).toNat
  | .pad c off => (s.crews[c]?.map fun cr => cr.scratch.nat off 2).getD 0

/-- A descriptor written: a raw one has SCALE 0 (R62). -/
def State.putDesc (s : State) (d : Nat) (h : DescHome) : State :=
  let d := if d % 256 = 0 then 0 else d
  match h with
  | .page g => s.setDesc g (BitVec.ofNat 16 d)
  | .pad c off => s.scratchStore c off (leBytes 2 d)

/-- Blocks of a copy that carry their descriptors (R270). -/
def State.carries (s : State) (op : CopyOp) (i : Nat) : Bool :=
  (s.descHome op (cmdSk op.cmd) (cmdSrc op.cmd) i).isSome && (s.descHome op (cmdDk op.cmd) (cmdDst op.cmd) i).isSome

/-- An end's words as 64-byte blocks, the last one partial. -/
def blocksOf (nw : Nat) : Nat := (nw + 15) / 16

/-- Whether `n` bytes at an end pass the tile, the allocation, or meet the queue area (R265). -/
def State.rangeBad (s : State) (op : CopyOp) (kind v n : Nat) : Bool :=
  match op.crew.bind fun ci => s.crews[ci]? with
  | none => decide (kind ≠ 0)
  | some cr =>
    match kind with
    | 1 =>
      match s.endTile op kind v with
      | none => true
      | some (_, e) => decide (64 * bitsOf e 51 39 < n ∨ cr.alloc < bitsOf e 34 16 + 64 * bitsOf e 51 39)
    | 2 => decide (cr.alloc < v + n) || cr.meetsQueue v n
    | _ => false

/-- Bytes that an expanded block comes to: none for a reserved format. -/
def expandedBytes (desc : Nat) : Nat :=
  match eltOf (Num.descFmt desc) with
  | none => 0
  | some .raw => 64
  | some e => 4 * e.perBlock

/-- Bytes that the destination of a command receives; those of an expand follow from the source's descriptors, up to
the first reserved format (R270) or the first block that is out of reach (R272). -/
def State.outBytes (s : State) (op : CopyOp) : Nat :=
  let c := op.cmd
  if cmdXf c = 1 then
    let desc (i : Nat) : Nat := ((s.descHome op (cmdSk c) (cmdSrc c) i).map s.descOf).getD 0
    (((List.range (cmdNw c / 16)).map fun i =>
      if s.outOfReach op (cmdSk c) (cmdSrc c) i then 0 else expandedBytes (desc i)).takeWhile fun n => n != 0).sum
  else if cmdXf c = 2 then
    match eltOf (cmdFmt c) with
    | some e => 64 * (cmdNw c / e.perBlock)
    | none => 0
  else 4 * cmdNw c

/-- Whether an XQN does not fit its send queue: by its NW, whatever its payload comes to (R377, R378). -/
def State.sendBad (s : State) (op : CopyOp) : Bool :=
  let nw := cmdNw op.cmd
  let x := fld (cmdDst op.cmd) 47 0
  match s.sendQueue op.part (fld (cmdDst op.cmd) 55 48) with
  | none => true
  | some d => if fld d 7 0 = 2 then decide (nw ≠ 8 ∨ x ≠ 0) else decide (fld d 255 192 < x + 4 * nw)

/-- A raw window address that is stale for the operation (R265). -/
def State.staleEnd (s : State) (op : CopyOp) (kind v : Nat) : Bool :=
  decide (kind = 0) && isWindow v &&
    match op.crew with
    | none => false
    | some ci =>
      match s.window ci v with
      | .trap .staleWindow _ => true
      | _ => false

/-- The status of the first failing check of R265; a compress destination that R270 rejects counts among the rejections
(log 33). -/
def State.copyCheck (s : State) (op : CopyOp) : Option Nat :=
  let c := op.cmd
  let sk := cmdSk c
  let dk := cmdDk c
  let nw := cmdNw c
  let xf := cmdXf c
  let conv := decide (xf ≠ 0)
  let n := s.outBytes op
  let wide (k v : Nat) : Bool := decide (k ≠ 1 ∧ v % 64 ≠ 0)
  let carrying := (List.range (blocksOf nw)).any fun i => s.carries op i
  let row1 := decide (bitsOf c 126 123 ≠ 0 ∨ bitsOf c 63 59 ≠ 0 ∨ nw = 0 ∨ xf = 3 ∨ 3 ≤ sk) ||
    (decide (cmdFmt c ≠ 0) && decide (xf ≠ 2)) ||
    (if op.info.xqn then decide (dk ≠ 3) else decide (3 ≤ dk)) ||
    (decide (sk = 1) && decide (256 ≤ cmdSrc c)) || (decide (dk = 1) && decide (256 ≤ cmdDst c))
  let row2 := (decide (sk ≠ 1) && decide (cmdSrc c % 4 ≠ 0)) || (decide (dk ≠ 1) && decide (cmdDst c % 4 ≠ 0)) ||
    ((conv || carrying) && (wide sk (cmdSrc c) || wide dk (cmdDst c)))
  let row3 := (decide (xf = 1) && decide (nw % 16 ≠ 0)) ||
    (decide (xf = 2) && (cmdFmt c == 0 || cmdFmt c == 9 || decide (10 ≤ cmdFmt c) ||
      decide (nw % ((eltOf (cmdFmt c)).map Elt.perBlock |>.getD 1) ≠ 0)))
  let row4 := s.rangeBad op sk (cmdSrc c) (4 * nw) || (decide (dk ≠ 3) && s.rangeBad op dk (cmdDst c) n) ||
    (decide (dk = 3) && s.sendBad op)
  -- compress needs a destination that holds descriptors, of the command's format in a tile
  let row4c := decide (xf = 2) &&
    (decide (2 ≤ dk) || (decide (dk = 0) && isWindow (cmdDst c)) ||
      (decide (dk = 0) && (List.range (n / 64)).any fun i =>
        match s.xlat op.part (cmdDst c + 64 * i) {} with
        | .ok g => !g.typed
        | _ => false) ||
      (decide (dk = 1) && decide ((s.endTile op dk (cmdDst c)).map (fun x => bitsOf x.2 59 52) ≠ some (cmdFmt c))))
  if row1 || row2 || row3 || row4 || row4c then some 2
  else if op.info.refusedTile then some 5
  else if s.staleEnd op sk (cmdSrc c) || s.staleEnd op dk (cmdDst c) || s.staleEnd op 0 (cmdStamp c) then some 4
  else none

/-! ### The transfer (R270-R272) -/

/-- The words of an end: memory, a window, a tile's payload or the crew's scratchpad (R264). -/
def State.endPlaces (s : State) (op : CopyOp) (kind v n : Nat) (write : Bool) : List (Acc Place) :=
  let bad : List (Acc Place) := List.replicate n (.trap (.fault causeWindow) v)
  match kind with
  | 0 =>
    if isWindow v then
      match op.crew with
      | some ci => s.windowPlaces ci v n write
      | none => bad
    else (List.range n).map fun j => s.memPlace op.part op.die (v + 4 * j) write
  | 1 =>
    match s.endTile op kind v with
    | some (ci, e) => (List.range n).map fun j => .ok (.pad ci (bitsOf e 34 16 + 4 * j))
    | none => bad
  | _ =>
    match op.crew with
    | some ci => (List.range n).map fun j => .ok (.pad ci (v + 4 * j))
    | none => bad

/-- What a transfer delivers: the words that the destination receives, in order, none where a source
word is out of reach; the descriptor that goes with each block; the flags; whether a reserved format
code ended it. -/
structure Moved where
  words : List (Option Word)
  descs : List (Option Nat)
  flags : Flags
  cut : Bool

/-- One block expanded to FP32 words (R270). -/
def expandBlock (mode : Num.Mode) (desc : Nat) (ws : List Word) : Option (List Word × Flags) :=
  let bytes := ws.flatMap fun w => leBytes 4 w.toNat
  match eltOf (Num.descFmt desc) with
  | none => none
  | some .raw => some (ws, {})
  | some e =>
    let one (i : Nat) : Nat × Flags :=
      let v := e.value (Num.eltEnc e.width bytes i)
      let r := Num.roundX fp32 mode (v.1.scale (Num.descScale desc))
      (r.1, r.2.or { inv := v.2 })
    let rs := (List.range e.perBlock).map one
    some (rs.map fun r => BitVec.ofNat 32 r.1, rs.foldl (fun f r => f.or r.2) {})

/-- Lists of `k` entries each, fuel `n`. -/
def chunks {α : Type} (k : Nat) : Nat → List α → List (List α)
  | 0, _ => []
  | n + 1, l => if l.isEmpty then [] else l.take k :: chunks k n (l.drop k)

/-- Every entry present. -/
def allSome {α : Type} (l : List (Option α)) : Option (List α) :=
  l.foldr (fun x acc => x.bind fun a => acc.map fun as => a :: as) (some [])

/-- Expanding block by block: up to the first block that is out of reach or has a reserved format. -/
def expandAll (mode : Num.Mode) (desc : Nat → Nat) : Nat → List (List (Option Word)) → Moved
  | _, [] => ⟨[], [], {}, false⟩
  | i, b :: bs =>
    match allSome b with
    | none => ⟨[none], [], {}, false⟩
    | some ws =>
      match expandBlock mode (desc i) ws with
      | none => ⟨[], [], {}, true⟩
      | some (out, f) =>
        let r := expandAll mode desc (i + 1) bs
        ⟨out.map some ++ r.words, [], f.or r.flags, r.cut⟩

/-- Compressing group by group (R270). -/
def compressAll (mode : Num.Mode) (fmt : Nat) : List (List (Option Word)) → Moved
  | [] => ⟨[], [], {}, false⟩
  | g :: gs =>
    let r := compressAll mode fmt gs
    match allSome g with
    | none => ⟨List.replicate 16 none ++ r.words, none :: r.descs, r.flags, false⟩
    | some ws =>
      let b := Num.packBlock fmt mode (ws.map fun w => Num.decodeF fp32 w.toNat)
      let snan := ws.any fun w => Num.isSNaN fp32 w.toNat
      let out := (List.range 16).map fun i => some (BitVec.ofNat 32 (leNat ((b.1.drop (4 * i)).take 4)))
      ⟨out ++ r.words, some b.2.1 :: r.descs, (b.2.2.or { inv := snan }).or r.flags, false⟩

/-- What a copy delivers of its source words. -/
def State.moved (s : State) (op : CopyOp) (src : List (Option Word)) : Moved :=
  let c := op.cmd
  match cmdXf c with
  | 1 =>
    let desc (i : Nat) : Nat := ((s.descHome op (cmdSk c) (cmdSrc c) i).map s.descOf).getD 0
    expandAll (cmdMode c) desc 0 (chunks 16 src.length src)
  | 2 => compressAll (cmdMode c) (cmdFmt c) (chunks ((eltOf (cmdFmt c)).map Elt.perBlock |>.getD 1) src.length src)
  | _ =>
    let carried (i : Nat) : Option Nat :=
      if s.carries op i then (s.descHome op (cmdSk c) (cmdSrc c) i).map s.descOf else none
    let descs := (List.range (blocksOf src.length)).map carried
    -- a carried descriptor of a reserved format ends the copy there (R63)
    let n := (descs.takeWhile fun d => d.all fun d => (eltOf (Num.descFmt d)).isSome).length
    if n < descs.length then ⟨src.take (16 * n), descs.take n, {}, true⟩ else ⟨src, descs, {}, false⟩

/-- R271, log 6: where source and destination overlap, destination word `j` takes what its source word
held at the start, or what this copy wrote there.  Fuel: the length of a chain of such words. -/
def overlapWord (src : List (Option Place)) (dst : List (Option Place)) (words : List (Option Word)) (free : Nat) :
    Nat → Nat → Option Word
  | 0, j => (words[j]?).join
  | fuel + 1, j =>
    match (src[j]?).join.bind fun p => dst.findIdx? fun q => q == some p with
    | none => (words[j]?).join
    | some i => if Config.raceBit (free + j) then overlapWord src dst words free fuel i else (words[j]?).join

/-- The tiles of a copy return (R275). -/
def State.returnTiles (s : State) (op : CopyOp) (status : Nat) : State :=
  match op.crew with
  | none => s
  | some ci =>
    if op.info.refusedTile then s
    else
      let s1 := match s.endTileNow op (cmdDk op.cmd) (cmdDst op.cmd) with
        | none => s
        | some (_, e) =>
          let i := cmdDst op.cmd
          let e1 :=
            if status = 1 ∨ status = 3 ∨ status = 6 then setBits (setBits e 63 62 2) 15 0 (bitsOf e 15 0 + 1)
            else setBits e 63 62 op.info.dstBefore.toNat
          (s.setTile ci i e1).settleTile ci i
      match s1.endTileNow op (cmdSk op.cmd) (cmdSrc op.cmd) with
      | none => s1
      | some (_, e) =>
        if cmdTr op.cmd then
          let i := cmdSrc op.cmd
          (s1.setTile ci i (setBits e 63 62 (if status = 1 then 0 else 2))).settleTile ci i
        else s1

def State.updCopy (s : State) (i : Nat) (f : CopyOp → CopyOp) : State := { s with copies := s.copies.modify i f }

/-- The data of copy `i` is settled with a status: its tiles return, and only the stamp is owed. -/
def State.settleCopy (s : State) (i : Nat) (op : CopyOp) (status : Nat) (flags : BitVec 6) : State :=
  (s.returnTiles op status).updCopy i fun o => { o with outcome := some (status, flags) }

/-- The stamp of copy `i` (R273, R274): written or lost, then DONE advances; a fault of the stamp's own write
holds the command.  A graph node whose stamp is lost reports no OK (R348, log 22). -/
def State.stampCopy (s : State) (i : Nat) : State :=
  match s.copies[i]? with
  | none => s
  | some op =>
    match op.outcome with
    | none => s
    | some (status, flags) =>
      let c := op.cmd
      let after (s : State) (status : Nat) : State :=
        let s1 := match op.crew with
          | none => s
          | some ci =>
            match s.crews[ci]? with
            | none => s
            | some cr => s.setQword ci qDone (cr.qword qDone + 1)
        ({ s1 with copies := s1.copies.eraseIdx i }).nodeEnds op.node status
      match s.stamp op.crew op.part (cmdStamp c) (cmdSeq c) status flags (cmdRsc c) op.stampRefused with
      | .written s1 =>
        after (s1.plumbEngine op.crew op.info.wid op.info.interval op.info.pc.toNat (cmdStamp c) 8 (cmdRsc c) true) status
      | .held => s
      | .lost =>
        match op.crew.bind fun ci => (s.crews[ci]?).map fun cr => (ci, cr) with
        | none => after s (if status = 1 then 3 else status)
        | some (ci, cr) =>
          let n := cr.qword qLost
          after ((s.setQword ci qLost (if n = 2 ^ 32 - 1 then n else n + 1)).setQword ci qLseq (cmdSeq c)) status

/-- Plumb's view of a copy's accesses (R235-R239). -/
def State.plumbCopy (s : State) (op : CopyOp) (kind v n scope : Nat) (write : Bool) : State :=
  if kind = 0 then s.plumbEngine op.crew op.info.wid op.info.interval op.info.pc.toNat v n scope write else s

/-- Plumb's view of a copy's reads: the sectors of the source words that were read, whatever the end (R235). -/
def State.plumbSources (s : State) (op : CopyOp) (srcs : List (Acc Place)) : State :=
  let v := cmdSrc op.cmd
  let hit (x : Nat) : Bool := srcs.zipIdx.any fun y => y.1.value?.isSome && (v + 4 * y.2) / 32 == x / 32
  if isWindow v then s
  else ((sectors v (4 * srcs.length)).filter hit).foldl (fun s x => s.plumbCopy op (cmdSk op.cmd) x 1 (cmdAsc op.cmd) false) s

/-- An access that only waits: a fault that system software may still resolve, or a window word that cannot
be reached yet (R272, R198). -/
def Acc.waits {α : Type} (refused : Bool) : Acc α → Bool
  | .hold => true
  | .fault _ _ => !refused
  | _ => false

/-- Whether copy `i` must wait with its payload: on a ROD or control queue payloads leave in the order in which the
commands were taken (R377). -/
def State.sendWaits (s : State) (i : Nat) (op : CopyOp) : Bool :=
  let q := fld (cmdDst op.cmd) 55 48
  ((s.sendQueue op.part q).any fun d => fld d 7 0 != 1) &&
    (s.copies.take i).any fun o =>
      o.info.xqn && o.part == op.part && fld (cmdDst o.cmd) 55 48 == q && o.sent.isNone && o.outcome.isNone

/-- What leaves the device for an XQN (R377, R378). -/
def State.sent (s : State) (op : CopyOp) (bytes : List Byte) : Output :=
  let q := fld (cmdDst op.cmd) 55 48
  let d := (s.sendQueue op.part q).getD 0
  if fld d 7 0 = 2 then .control (routeOf d) q bytes
  else .payload (routeOf d) (BitVec.ofNat 56 (fld d 183 128 + fld (cmdDst op.cmd) 47 0)) (BitVec.ofNat 56 (fld d 311 256)) bytes

/-- The transfer of copy `i`, its checks passed: none while an access waits (R272). -/
def State.transfer (s : State) (i : Nat) (op : CopyOp) : Option State :=
  let c := op.cmd
  let srcs := s.endPlaces op (cmdSk c) (cmdSrc c) (cmdNw c) false
  let data := srcs.map fun a => a.value?.map (s.placeWord op.die)
  let mv := s.moved op data
  let seen (s : State) : State := s.plumbSources op srcs
  if op.info.xqn then
    if srcs.any (Acc.waits op.refused) then none
    else
      match allSome mv.words with
      | some ws =>
        let bytes := ws.flatMap fun w => leBytes 4 w.toNat
        if mv.cut then some ((seen s).settleCopy i op 6 mv.flags.toBits)
        else if s.sendBad op then some (s.settleCopy i op 2 0)
        else if s.sendWaits i op then none
        else
          some (((seen s).emit (s.sent op bytes)).updCopy i fun o => { o with sent := some mv.flags.toBits })
      | none => some ((seen s).settleCopy i op 3 0)
  else
    let n := mv.words.length
    if cmdXf c = 1 ∧ s.rangeBad op (cmdDk c) (cmdDst c) (4 * (mv.words.filter Option.isSome).length) then some (s.settleCopy i op 2 0)
    else
      let dsts := s.endPlaces op (cmdDk c) (cmdDst c) n true
      if srcs.any (Acc.waits op.refused) || (dsts.zip mv.words).any (fun x => x.2.isSome && x.1.waits op.refused) then none
      else
        let dp := dsts.map Acc.value?
        let sp := srcs.map Acc.value?
        let words := if cmdXf c = 0 then (List.range n).map (overlapWord sp dp mv.words (s.free + n) n) else mv.words
        -- a destination of KIND 2 takes the effect of TSET on each entry (R198)
        let ends := s.outcomeOf (((dsts.zip words).map fun x => x.1.bind fun q => (x.2.elim .hold fun w => .ok (q, w))).zipIdx.map fun x => x.1.bind fun y =>
          .ok ⟨if cmdDk c = 0 ∧ !isWindow (cmdDst c) then some (cmdDst c + 4 * x.2) else none, y.1, y.2⟩)
        let status := if ends.2.value?.isNone then 3 else if mv.cut then 6 else 1
        let s1 := seen s
        let say (s : State) (va : Nat) : State := s.plumbCopy op 0 va 4 (cmdRsc c) true
        let s2 := s1.settleWords op.since 0 (status == 1) say ends.1
        let s3 := (mv.descs.zipIdx).foldl (fun s0 x =>
          match x.1, s0.descHome op (cmdDk c) (cmdDst c) x.2 with
          | some d, some h => if status = 1 || Config.raceBit (s.free + 2 * n + x.2) then s0.putDesc d h else s0
          | _, _ => s0) s2
        some ({ s3 with free := s.free + 2 * n + mv.descs.length }.settleCopy i op status mv.flags.toBits)

/-- COPY_COMPLETE: the data moves (R270-R272), or an XQN's payload leaves and, at the next such event, its
acknowledgement arrives (R276; `nack`: the peer refused a registration, R378); then the stamp (R273). -/
def execCopyComplete (i : Nat) (nack : Bool) (s : State) : Out :=
  match s.copies[i]? with
  | none => .next s
  | some op =>
    if op.outcome.isSome then .next (s.stampCopy i)
    else if let some flags := op.sent then
      let ctl := ((s.sendQueue op.part (fld (cmdDst op.cmd) 55 48)).map fun d => decide (fld d 7 0 = 2)).getD false
      .next ((s.settleCopy i op (if nack && ctl then 2 else 1) flags).stampCopy i)
    else
      match s.copyCheck op with
      | some status => .next ((s.settleCopy i op status 0).stampCopy i)
      | none =>
        match s.transfer i op with
        | none => .next s
        | some s1 => .next (s1.stampCopy i)

/-- TRANSPORT_FAILURE: the transport gives up on an XQN whose payload left; the flags that its conversions raised stand
in the stamp (R270, R377). -/
def execTransportFailure (i : Nat) (s : State) : Out :=
  match s.copies[i]? with
  | none => .next s
  | some op =>
    match op.sent with
    | some flags => if op.outcome.isNone then .next ((s.settleCopy i op 7 flags).stampCopy i) else .next s
    | none => .next s

/-- XQ: R267. -/
def execXq (a : BitVec 6) (s : State) : Out :=
  frame ⟨true, [.block 8 8 a], true⟩ s fun k s => eachLane k.active (xqLane k a false) s

/-- XQN: R267. -/
def execXqn (a : BitVec 6) (s : State) : Out :=
  frame ⟨true, [.block 8 8 a], true⟩ s fun k s => eachLane k.active (xqLane k a true) s

end Sys2Proof.Machine
end

