-- ==== Sys2Proof/Machine/Residue.lean ====
section
/-!
DEFINITION. Accumulator arithmetic: residue words and folds (R66-R71, R282), float-mode sums (R72, R73,
R280), and the save form of line pairs (R281).
-/

namespace Sys2Proof.Machine

open Sys2Proof
open Sys2Proof.Num (Fmt Flags XR Elt fp32 fp64 bf16 eltOf)

/-! ### Residue words (R66-R70) -/

/-- M of R66. -/
def resM : Int := 281474976645120

/-- A word from its parts (R67). -/
def resWord (nan opened : Bool) (exp : Int) (m1 m2 m3 : Nat) : Nat :=
  nan.toNat * 2 ^ 60 + opened.toNat * 2 ^ 59 + (exp % 1024).toNat * 2 ^ 49 + m3 * 2 ^ 32 + m2 * 2 ^ 16 + m1

def resNan (w : Nat) : Bool := bitAt w 60
def resOpen (w : Nat) : Bool := bitAt w 59
def resExp (w : Nat) : Int := (BitVec.ofNat 10 (fld w 58 49)).toInt

/-- Canonical words (R67). -/
def resOk (w : Nat) : Bool :=
  decide (fld w 15 0 ≤ 65534 ∧ fld w 48 32 ≤ 65536 ∧ fld w 63 61 = 0) && (resOpen w || fld w 58 0 == 0)

/-- The integer of the three residues, by the Chinese remainder theorem (R66, R69): the multipliers are the
products of two moduli times their inverse modulo the third. -/
def resInt (m1 m2 m3 : Nat) : Int :=
  let i : Int := ((m1 : Int) * (65536 * 65537 * 32768) + m2 * (65535 * 65537 * 65535) + m3 * (65535 * 65536 * 32769)) % resM
  if 2 * i < resM then i else i - resM

/-- A fold that takes in an integer at an exponent (R69). -/
def foldAdd (fold : Nat) (i e : Int) : Nat :=
  (Num.roundX fp64 .rne (XR.add .rne (Num.decodeF fp64 fold) (XR.ofRat ((i : Rat) * Num.pow2 e)))).1

/-- Closing an element (R69): its word and fold. -/
def resClose (x : Nat × Nat) : Nat × Nat :=
  let w := x.1
  if resOpen w then
    (resWord (resNan w) false 0 0 0 0, foldAdd x.2 (resInt (fld w 15 0) (fld w 31 16) (fld w 48 32)) (resExp w))
  else x

/-- A product of integer `v` at exponent `e` enters an element (R69); the segment limit is the row's
(R282). -/
def resAdd (x : Nat × Nat) (v e : Int) (nan : Bool) : Nat × Nat :=
  let y := if resOpen x.1 && resExp x.1 != e then resClose x else x
  let w := y.1
  let m (old n : Nat) : Nat := (((old : Int) + v) % n).toNat
  (resWord (resNan w || nan) true e (m (fld w 15 0) 65535) (m (fld w 31 16) 65536) (m (fld w 48 32) 65537), y.2)

/-- The class of a residue format (R279): 1 int4, 2 int8, 3 FP8, more restrictive upwards. -/
def resClass (fmt : Nat) : Nat := if fmt = 0x04 then 1 else if fmt = 0x02 then 2 else 3

/-- The segment limit of a class (R70). -/
def resLimit (cls : Nat) : Nat := if cls = 1 then 2 ^ 40 else if cls = 2 then 2 ^ 33 - 256 else 1024

/-- A residue operand element: its integer and exponent, and whether it is NaN (R68). -/
structure ResElt where
  v : Int
  x : Int
  nan : Bool

def resElt (fmt enc : Nat) (scale : Int) : ResElt :=
  match eltOf fmt with
  | some (.flt f) =>
    match Num.decodeF f enc with
    | .fin _ q => ⟨(q * 512).num, scale - 9, false⟩
    | _ => ⟨(Config.nanInteger enc).toInt, scale - 9, true⟩
  | some (.int t) => ⟨t.val enc, scale, false⟩
  | _ => ⟨0, scale, false⟩

/-- A residue row: SEGN, LCLS, and each element's word and fold. -/
structure ResRow where
  segn : Nat
  lcls : Nat
  els : List (Nat × Nat)

/-- One k step of a row (R282): a(i,k), and b(k,j) for each column j. -/
def ResRow.step (r : ResRow) (cls : Nat) (a : ResElt) (bs : List ResElt) : ResRow :=
  let full := decide (resLimit (max r.lcls cls) ≤ r.segn)
  let els := if full then r.els.map resClose else r.els
  let segn := if full then 0 else r.segn
  let lcls := if full then 0 else r.lcls
  let add (j : Nat) (x : Nat × Nat) : Nat × Nat :=
    match bs[j]? with
    | some b => resAdd x (a.v * b.v) (a.x + b.x) (a.nan || b.nan)
    | none => x
  ⟨segn + 1, max lcls cls, els.mapIdx add⟩

/-! ### Float accumulators (R72, R73, R280) -/

/-- The slot formats: significands of 32 and of 61 bits (R280). -/
def acc32 : Fmt := ⟨8, 31, true⟩
def acc64 : Fmt := ⟨11, 60, true⟩

/-- round_odd on the grid of an accumulator format, and whether A overflows (R73). -/
def roundOdd (f : Fmt) : XR → Nat × Bool
  | .nan => (Num.canonNaN f, false)
  | .inf n => (Num.infEnc f n, false)
  | .fin n q =>
    if q = 0 then (Num.signBit f n, false)
    else
      let neg := decide (q < 0)
      let a := if neg then -q else q
      let e := Num.ilog2 a
      let x : Int := if e - f.fw < f.minExp then f.minExp else e - f.fw
      let m := Num.roundMag .rz neg (a * Num.pow2 (-x))
      let k := if m.2 then m.1 else m.1 / 2 * 2 + 1
      if (2 ^ f.ew - 1 : Nat) ≤ (x - f.minExp + 1).toNat ∧ 2 ^ f.fw ≤ k then (Num.infEnc f neg, true)
      else (Num.signBit f neg + Num.encMag f k x, false)

/-- A partial sum rounded to the accumulation format (R72). -/
def rn (acc : Fmt) (x : XR) : XR := Num.decodeF acc (Num.roundX acc .rne x).1

/-- Neighbours added and rounded, one level of the tree (R72). -/
def pairUp (acc : Fmt) : List XR → List XR
  | a :: b :: r => rn acc (XR.add .rne a b) :: pairUp acc r
  | r => r

/-- The sum of a group of 16 products (R72). -/
def groupSum (acc : Fmt) (nbv : Nat) (ps : List XR) : XR :=
  if nbv = 1 then
    match ps with
    | [] => .zero
    | p :: r => r.foldl (fun g x => rn acc (XR.add .rne g (rn acc x))) (rn acc p)
  else
    let xs := if nbv = 2 then ps.map (rn acc) else ps
    (pairUp acc (pairUp acc (pairUp acc (pairUp acc xs)))).headD .zero

/-- One group enters an accumulator (R72, R73, R292): its new encoding and the flags. -/
def accGroup (f acc : Fmt) (nbv : Nat) (enc : Nat) (ps : List XR) : Nat × Flags :=
  let a := Num.decodeF f enc
  let s := XR.add .rne a (groupSum acc nbv ps)
  let r := roundOdd f s
  (r.1, { inv := s.isNaN && !a.isNaN, ovf := r.2 })

/-! ### Lines of a crew (R279-R281) -/

namespace Crew

def lineMeta (cr : Crew) (n : Nat) : Dword := Sparse.get cr.accMeta n
/-- MODE of a line: 0 clear, 1 FP32, 2 residue, 3 FP64. -/
def lineMode (cr : Crew) (n : Nat) : Nat := bitsOf (cr.lineMeta n) 63 62
def setMeta (cr : Crew) (n : Nat) (w : Dword) : Crew := { cr with accMeta := Sparse.set cr.accMeta n w }
def slot (cr : Crew) (n i : Nat) : Dword := Sparse.get cr.accSlots (256 * n + i)
def slots (cr : Crew) (n : Nat) : List Dword := (List.range 256).map (cr.slot n)
/-- The slots of a line replaced. -/
def setSlots (cr : Crew) (n : Nat) (xs : List Dword) : Crew :=
  { cr with accSlots := (xs.zipIdx).foldl (fun m x => Sparse.set m (256 * n + x.2) x.1) cr.accSlots }
/-- A line set clear (R279). -/
def clearLine (cr : Crew) (n : Nat) : Crew := (cr.setMeta n 0).setSlots n (List.replicate 256 0)
def clearLines (cr : Crew) (n k : Nat) : Crew := (List.range k).foldl (fun cr i => cr.clearLine (n + i)) cr
/-- MODE given to a clear line. -/
def modeLine (cr : Crew) (n mode : Nat) : Crew := cr.setMeta n (BitVec.ofNat 64 (mode * 2 ^ 62))

/-- A residue row in the pair at even line `n`. -/
def resRow (cr : Crew) (n : Nat) : ResRow :=
  ⟨bitsOf (cr.lineMeta n) 40 0, bitsOf (cr.lineMeta n) 42 41,
    (List.range 256).map fun i => ((cr.slot n i).toNat, (cr.slot (n + 1) i).toNat)⟩
def setResRow (cr : Crew) (n : Nat) (r : ResRow) : Crew :=
  ((cr.setMeta n (BitVec.ofNat 64 (2 * 2 ^ 62 + r.lcls * 2 ^ 41 + r.segn))).setSlots n
    (r.els.map fun x => BitVec.ofNat 64 x.1)).setSlots (n + 1) (r.els.map fun x => BitVec.ofNat 64 x.2)

/-- A float row's accumulators: encodings of `acc32` in one line, of `acc64` in a pair (R280). -/
def fltRow (cr : Crew) (n mode : Nat) : List Nat :=
  (List.range 256).map fun i =>
    if mode = 1 then bitsOf (cr.slot n i) 63 24 else (cr.slot n i).toNat * 256 + bitsOf (cr.slot (n + 1) i) 63 56
def setFltRow (cr : Crew) (n mode : Nat) (xs : List Nat) : Crew :=
  if mode = 1 then cr.setSlots n (xs.map fun x => BitVec.ofNat 64 (x * 2 ^ 24))
  else (cr.setSlots n (xs.map fun x => BitVec.ofNat 64 (x / 256))).setSlots (n + 1)
    (xs.map fun x => BitVec.ofNat 64 (x % 256 * 2 ^ 56))

/-- The save form of the pair 2j, 2j+1 (R281). -/
def saveForm (cr : Crew) (j : Nat) : List Byte :=
  leBytes 8 (cr.lineMeta (2 * j)).toNat ++ leBytes 8 (cr.lineMeta (2 * j + 1)).toNat ++ List.replicate 48 0 ++
    (List.range 256).flatMap fun i => leBytes 8 (cr.slot (2 * j) i).toNat ++ leBytes 8 (cr.slot (2 * j + 1) i).toNat

/-- A pair written from a save form. -/
def loadForm (cr : Crew) (j : Nat) (bs : List Byte) : Crew :=
  let q (i : Nat) : Dword := BitVec.ofNat 64 (leNat ((bs.drop (8 * i)).take 8))
  let col (o : Nat) : List Dword := (List.range 256).map fun i => q (8 + 2 * i + o)
  (((cr.setMeta (2 * j) (q 0)).setMeta (2 * j + 1) (q 1)).setSlots (2 * j) (col 0)).setSlots (2 * j + 1) (col 1)

end Crew

/-- The canonical form of a save form: its metadata, the clear lines and the residue words (R279, R67), which
ACCLD demands (R297). -/
def formOk (bs : List Byte) : Bool :=
  let q (i : Nat) : Nat := leNat ((bs.drop (8 * i)).take 8)
  let a := q 0
  let b := q 1
  let ma := fld a 63 62
  let mb := fld b 63 62
  let lcls := fld a 42 41
  let segn := fld a 40 0
  let all (p : Nat → Nat → Bool) : Bool := (List.range 256).all fun i => p (q (8 + 2 * i)) (q (9 + 2 * i))
  decide (fld a 61 43 = 0 ∧ fld b 61 0 = 0) &&
    (if ma = 2 then (lcls == 0) == (segn == 0) && (lcls == 0 || decide (segn ≤ resLimit lcls))
      else lcls == 0 && segn == 0) &&
    (decide (ma < 2 ∧ mb < 2) || ma == mb) &&
    (decide (ma ≠ 0) || all fun x _ => x == 0) && (decide (mb ≠ 0) || all fun _ y => y == 0) &&
    (decide (ma ≠ 2) || all fun x _ => resOk x)

end Sys2Proof.Machine
end

