-- ==== Sys2Proof/Machine/Matrix.lean ====
section
/-!
DEFINITION. The matrix engine: ELECT, MMISSUE, ACCSV, ACCLD, the reservation table and its arbiter, and the
operations (R278-R299).
-/

namespace Sys2Proof.Machine

open Sys2Proof
open Sys2Proof.Num (Fmt Flags XR Elt fp32 fp64 bf16 eltOf)

/-! ### The parameter block (R285-R287) -/

def mbRowb (p : BitVec 512) : Nat := bitsOf p 415 384
def mbOpb (p : BitVec 512) : Nat := bitsOf p 383 320
def mbOpa (p : BitVec 512) : Nat := bitsOf p 319 256
def mbDk (p : BitVec 512) : Nat := bitsOf p 250 248
def mbAdr (p : BitVec 512) : Nat := bitsOf p 247 192
def mbStamp (p : BitVec 512) : Nat := bitsOf p 183 128
def mbSeq (p : BitVec 512) : Nat := bitsOf p 127 96
def mbC0 (p : BitVec 512) : Nat := bitsOf p 75 64
def mbOpk (p : BitVec 512) : Nat := bitsOf p 63 60
def mbAsc (p : BitVec 512) : Nat := bitsOf p 59 58
def mbRsc (p : BitVec 512) : Nat := bitsOf p 57 56
def mbMode (p : BitVec 512) : Num.Mode := .ofCode (bitsOf p 55 54)
def mbOfmt (p : BitVec 512) : Nat := bitsOf p 53 52
def mbClr (p : BitVec 512) : Bool := bitAt p.toNat 51
def mbFin (p : BitVec 512) : Bool := bitAt p.toNat 50
def mbKeep (p : BitVec 512) : Bool := bitAt p.toNat 49
def mbPri (p : BitVec 512) : Nat := bitsOf p 48 46
def mbM (p : BitVec 512) : Nat := bitsOf p 39 32 + 1
def mbN (p : BitVec 512) : Nat := bitsOf p 31 24 + 1
def mbK (p : BitVec 512) : Nat := 16 * (bitsOf p 11 0 + 1)

/-- Fields of an operand header (R286). -/
def hdrSrc (h : Nat) : Nat := fld h 63 62
def hdrTr (h : Nat) : Bool := bitAt h 61
def hdrFmt (h : Nat) : Nat := fld h 55 48
def hdrPitch (h : Nat) : Nat := fld h 31 16
def hdrIdx (h : Nat) : Nat := fld h 7 0

/-- The bits that a kind of operation uses (R285). -/
def mbUsed (p : BitVec 512) : List (Nat × Nat) :=
  let out := [(415, 384), (250, 248), (247, 192)]
  match mbOpk p with
  | 0 => [(383, 320), (319, 256), (183, 128), (127, 96), (75, 64), (63, 60), (59, 58), (57, 56), (55, 54), (53, 52),
      (51, 51), (50, 50), (49, 49), (48, 46), (39, 32), (31, 24), (11, 0)] ++ (if mbFin p then out else [])
  | 1 => [(383, 320), (183, 128), (127, 96), (63, 60), (59, 58), (57, 56), (48, 46), (31, 24), (11, 0)] ++ out
  | 2 => [(183, 128), (127, 96), (75, 64), (63, 60), (59, 58), (57, 56), (55, 54), (53, 52), (49, 49), (48, 46),
      (39, 32), (31, 24)] ++ out
  | _ => [(183, 128), (127, 96), (75, 64), (63, 60), (59, 58), (57, 56), (48, 46), (39, 32)]

/-- Whether some bit outside the used fields is set. -/
def mbStray (p : BitVec 512) : Bool :=
  (List.range 512).any fun i => p.toNat.testBit i && !(mbUsed p).any fun f => decide (f.2 ≤ i ∧ i ≤ f.1)

/-- The line MODE of an operand pairing (R287); none where it is illegal. -/
def pairing (a b : Nat) : Option Nat :=
  let res (f : Nat) : Bool := f == 1 || f == 2 || f == 4
  if res a && res b then some 2
  else if a = b ∧ (a = 6 ∨ a = 7 ∨ a = 9) then some 1
  else if a = b ∧ a = 10 then some 3
  else none

/-- Whether an operation writes output (R288). -/
def mbOutput (p : BitVec 512) : Bool := mbOpk p == 2 || (mbOpk p == 0 && mbFin p)
/-- Bytes of an output element (R285). -/
def mbSize (p : BitVec 512) : Nat := if mbOfmt p = 0 then 4 else if mbOfmt p = 1 then 2 else 8
/-- Lines of a row of an MMA. -/
def mbLpr (p : BitVec 512) : Nat := if pairing (hdrFmt (mbOpa p)) (hdrFmt (mbOpb p)) = some 1 then 1 else 2

/-- Elements per block of a format; 1 where it has none. -/
def perBlockOf (fmt : Nat) : Nat := match eltOf fmt with
  | some e => if e.perBlock = 0 then 1 else e.perBlock
  | none => 1

/-- Rows and columns of a stored operand (R286, R293). -/
def shapeA (p : BitVec 512) : Nat × Nat := if hdrTr (mbOpa p) then (mbK p, mbM p) else (mbM p, mbK p)
def shapeB (p : BitVec 512) : Nat × Nat := if hdrTr (mbOpb p) then (mbN p, mbK p) else (mbK p, mbN p)

/-- Blocks of a stored row, and blocks that a stored tile operand extends over. -/
def rowBlocks (fmt cols : Nat) : Nat := (cols + perBlockOf fmt - 1) / perBlockOf fmt
def extent (h : Nat) (shape : Nat × Nat) : Nat := (shape.1 - 1) * hdrPitch h + rowBlocks (hdrFmt h) shape.2

/-- The tile operands of a block: index, format and extent. -/
def mbTiles (p : BitVec 512) : List (Nat × Nat × Nat) :=
  if mbOpk p ≠ 0 then []
  else
    (hdrIdx (mbOpa p), hdrFmt (mbOpa p), extent (mbOpa p) (shapeA p)) ::
      (if hdrSrc (mbOpb p) = 0 then [(hdrIdx (mbOpb p), hdrFmt (mbOpb p), extent (mbOpb p) (shapeB p))] else [])

/-- Header checks common to operands (R286). -/
def hdrBad (h : Nat) (b : Bool) : Bool :=
  decide (fld h 60 56 ≠ 0 ∨ fld h 47 32 ≠ 0 ∨ fld h 15 8 ≠ 0) ||
    (if hdrSrc h = 0 then decide (hdrPitch h = 0 ∨ 8191 < hdrPitch h)
      else decide (hdrSrc h ≠ 1) || !b || decide (hdrPitch h ≠ 0))

/-- Bytes from ADR that the output or the source spans. -/
def mbSpan (p : BitVec 512) : Nat :=
  if mbOpk p = 1 then
    ((shapeB p).1 - 1) * mbRowb p + 64 * rowBlocks (hdrFmt (mbOpb p)) (shapeB p).2
  else (mbM p - 1) * mbRowb p + mbN p * mbSize p

/-- The checks of R288 that come before the tiles: the trap of the first that fails. -/
def mmCheck (cr : Crew) (p : BitVec 512) : Option Trap :=
  let k := mbOpk p
  let adr : Bool := mbOutput p || k == 1
  let ia := mbOpa p
  let ib := mbOpb p
  let mode := pairing (hdrFmt ia) (hdrFmt ib)
  let mma : Bool := k == 0
  let bad := decide (3 < k) || mbStray p ||
    (mma && (hdrBad ia false || hdrBad ib true || mode.isNone || mbOfmt p == 3 ||
      (mbOfmt p == 2 && mode != some 3) || (mode != some 1 && mbC0 p % 2 == 1))) ||
    (decide (k = 2) && decide (mbOfmt p = 3)) ||
    (adr && decide (mbDk p ≠ 0 ∧ mbDk p ≠ 2)) ||
    (decide (k = 1) && (hdrBad ib true || hdrSrc ib != 1 || (eltOf (hdrFmt ib)).isNone || hdrFmt ib == 0 ||
      decide ((shapeB p).2 % perBlockOf (hdrFmt ib) ≠ 0)))
  let lines : Nat := if k = 0 then mbC0 p + mbLpr p * mbM p else if k = 1 then 0 else mbC0 p + mbM p
  let short := (mbTiles p).any (fun t => decide (pktTiles cr.packet ≤ t.1)) ||
    decide (pktAccum cr.packet < lines) ||
    ((decide (k = 1) || (mma && decide (hdrSrc ib = 1))) && decide (pktWbuf cr.packet ≤ hdrIdx ib)) ||
    (adr && decide (mbDk p = 2) &&
      (decide (cr.alloc < mbAdr p + mbSpan p) || cr.meetsQueue (mbAdr p) (mbSpan p)))
  let skew := decide (mbStamp p % 8 ≠ 0) ||
    (mbOutput p && decide (mbAdr p % mbSize p ≠ 0 ∨ mbRowb p % mbSize p ≠ 0)) ||
    (decide (k = 1) && decide (mbAdr p % 64 ≠ 0 ∨ mbRowb p % 64 ≠ 0))
  if bad then some .illegalOperand
  else if short then some .resource
  else if skew then some .misaligned
  else none

/-- How the tiles of a block stand (R218), as they were at the end of the previous cycle. -/
inductive TileTest where
  | ready
  | trap (t : Trap)
  | wait (i : Nat)

def tileTest (cr : Crew) (p : BitVec 512) : TileTest :=
  let e (i : Nat) : Dword := cr.tilesOld.getD i 0
  let rec go : List (Nat × Nat × Nat) → TileTest
    | [] =>
      if (mbTiles p).any fun t =>
          decide ((bitsOf (e t.1) 59 52 ≠ 0 ∧ bitsOf (e t.1) 59 52 ≠ t.2.1) ∨ bitsOf (e t.1) 51 39 < t.2.2) then
        .trap .illegalOperand
      else .ready
    | t :: r =>
      match State.tileState (e t.1) with
      | 0 => .trap .engineStatus
      | 2 => go r
      | _ => .wait t.1
  go (mbTiles p)

/-- The kind of a table entry for an OPK. -/
def mKind (k : Nat) : MKind :=
  match k with
  | 0 => .mma
  | 1 => .wload
  | 2 => .fin
  | _ => .clr

namespace State

def updEntry (s : State) (k num : Nat) (f : MEntry → MEntry) : State :=
  s.updCluster k fun K => { K with entries := K.entries.map fun e => if e.num = num then f e else e }

/-- A new entry of a cluster's reservation table, with the next entry number (R289). -/
def addEntry (s : State) (k : Nat) (e : MEntry) : State :=
  s.updCluster k fun K => { K with entries := K.entries ++ [{ e with num := K.entryNext }], entryNext := K.entryNext + 1 }

/-- Whether a cluster's table is full (R278). -/
def tableFull (s : State) (k : Nat) : Bool := decide (Config.matrixEntries ≤ (s.cluster k).entries.length)

end State

/-- A table entry for a parameter block (R288). -/
def blockEntry (s : State) (ci : Nat) (cr : Crew) (p : BitVec 512) (node : Option (Nat × Nat)) (wid : BitVec 26)
    (interval : Word) (pc : BitVec 56) : MEntry :=
  { num := 0, crew := ci, lane := none, node := node, kind := mKind (mbOpk p), block := p,
    tileA := cr.tilesOld.getD (hdrIdx (mbOpa p)) 0, tileB := cr.tilesOld.getD (hdrIdx (mbOpb p)) 0,
    nbv := (s.part cr.part).nbv, addr := 0, first := 0, count := 0, scope := 0, passes := 0, waited := 0, flags := 0,
    descA := [], descB := [], wid := wid, interval := interval, pc := pc, refused := false, stampRefused := false,
    outcome := none, since := s.moves.length }

/-- A lane parks until an entry of its cluster's table is free (R288). -/
def waitTable (c : Ctx) (s : State) (t : Nat) : State :=
  (s.parkLane t .matrixTable c.start c.start).updCluster (clusterOf c.core) fun K =>
    { K with matrixQueue := K.matrixQueue ++ [(c.ci, c.place t)] }

/-- MMISSUE in one lane (R288). -/
def mmissueLane (c : Ctx) (off : Nat → Nat) (s : State) (t : Nat) : State :=
  match s.crews[c.ci]?, s.thread? c.ci (c.place t) with
  | some cr, some th =>
    let o := off t
    let k := clusterOf c.core
    if o % 64 ≠ 0 then failLane c t .misaligned 0 s
    else if cr.alloc < o + 64 then failLane c t .resource 0 s
    else
      let p : BitVec 512 := BitVec.ofNat 512 (cr.scratch.nat o 64)
      match mmCheck cr p with
      | some tr => failLane c t tr 0 s
      | none =>
        match tileTest cr p with
        | .trap tr => failLane c t tr 0 s
        | .wait i => s.parkLane t (.tile i) c.start c.start
        | .ready =>
          if s.tableFull k then waitTable c s t
          else
            let e := blockEntry s c.ci cr p none (cr.wid th.tid) th.interval c.start
            ((s.addEntry k e).released c t).closes c t
  | _, _ => s

/-- ACCSV or ACCLD in one lane (R297); a window of KIND 1, 2 or 3 raises FAULT with the window cause (log 20). -/
def accLane (c : Ctx) (kind : MKind) (d a b : Code) (s : State) (t : Nat) : State :=
  match s.crews[c.ci]?, s.thread? c.ci (c.place t) with
  | some cr, some th =>
    let x := c.adr d t
    let f := (c.prim t .i32 a).toNat
    let n := (c.prim t .i32 b).toNat
    let k := clusterOf c.core
    if f % 2 ≠ 0 ∨ n % 2 ≠ 0 ∨ n = 0 then failLane c t .illegalOperand 0 s
    else if pktAccum cr.packet < f + n then failLane c t .resource 0 s
    else if x % 64 ≠ 0 then failLane c t .misaligned 0 s
    else if 2 ^ 56 ≤ x then failLane c t (.fault causeAddress) (x % 2 ^ 56) s
    else
      let go (s : State) : State :=
        if s.tableFull k then waitTable c s t
        else
          let e := blockEntry s c.ci cr 0 none (cr.wid th.tid) th.interval c.start
          let e1 : MEntry :=
            { e with kind := kind, lane := some (c.place t), addr := BitVec.ofNat 56 x, first := f, count := n,
                     scope := c.scope }
          ((s.addEntry k e1).released c t).parkLane t .matrixEntry c.start c.next
      if isWindow x then
        match s.window c.ci x with
        | .ok w => if w.kind = 0 then go s else failLane c t (.fault causeWindow) x s
        | .trap tr b => failLane c t tr b s
        | _ => s
      else go s
  | _, _ => s

/-! ### Eligibility and the arbiter (R289, R290) -/

/-- Granules that an entry names for conflicts: from IDX, as many as its matrix can take (R289, R293). -/
def MEntry.granules (e : MEntry) : Nat × Nat :=
  let h := mbOpb e.block
  if e.kind = .wload ∨ (e.kind = .mma ∧ hdrSrc h = 1) then
    let blocks := (shapeB e.block).1 * rowBlocks (hdrFmt h) (shapeB e.block).2
    (hdrIdx h, (64 + 68 * blocks + 65535) / 65536)
  else (0, 0)

/-- Whether two ranges, each a first element and a count, meet. -/
def meets (a b : Nat × Nat) : Bool := decide (a.1 < b.1 + b.2 ∧ b.1 < a.1 + a.2)

/-- Conflict of two entries (R289). -/
def MEntry.conflicts (a b : MEntry) : Bool :=
  a.crew == b.crew && (meets a.lines b.lines || meets a.granules b.granules)

namespace State

/-- Whether an entry is eligible (R289): every conflicting entry with a lower number has completed, and its
own work is not done. -/
def eligible (s : State) (k : Nat) (e : MEntry) : Bool :=
  e.outcome.isNone && !(s.cluster k).entries.any fun x => decide (x.num < e.num) && x.conflicts e

end State

/-- The effective priority (R290). -/
def MEntry.priority (e : MEntry) : Nat := min 7 (mbPri e.block + e.waited / 64)

/-- The passes of an MMA (R290). -/
def MEntry.passCount (e : MEntry) : Nat := if e.kind = .mma then (mbK e.block + 255) / 256 else 0

/-! ### Operands (R286, R293) -/

/-- A matrix operand as the engine reads it: its format, and the stored element (r, c) with its scale. -/
structure Operand where
  fmt : Nat
  tr : Bool
  elt : Nat → Nat → Nat × Int

/-- Element (row, col) of an operand, transposed as its header says. -/
def Operand.at (o : Operand) (a b : Nat) : Nat × Int := if o.tr then o.elt b a else o.elt a b

/-- A stored element's encoding within its block (R53). -/
def eltIn (fmt : Nat) (block : List Byte) (i : Nat) : Nat :=
  match eltOf fmt with
  | some e => Num.eltEnc e.width block i
  | none => 0

/-- The descriptors of a tile operand's blocks, in block order (R215). -/
def tileDescs (cr : Crew) (entry : Dword) (blocks : Nat) : List (BitVec 16) :=
  let base := bitsOf entry 34 16
  let nblk := bitsOf entry 51 39
  (List.range blocks).map fun i => BitVec.ofNat 16 (cr.scratch.nat (base + 64 * nblk + 2 * i) 2)

/-- Whether a block of the stored matrix carries a descriptor other than the header's format (R286, R294). -/
def descsBad (h : Nat) (shape : Nat × Nat) (entry : Dword) (ds : List (BitVec 16)) : Bool :=
  decide (bitsOf entry 59 52 ≠ 0) &&
    (List.range shape.1).any fun r => (List.range (rowBlocks (hdrFmt h) shape.2)).any fun b =>
      decide (Num.descFmt ((ds.getD (r * hdrPitch h + b) 0).toNat) ≠ hdrFmt h)

/-- A tile operand (R286). -/
def tileOperand (cr : Crew) (h : Nat) (entry : Dword) (ds : List (BitVec 16)) : Operand where
  fmt := hdrFmt h
  tr := hdrTr h
  elt := fun r c =>
    let e := perBlockOf (hdrFmt h)
    let i := r * hdrPitch h + c / e
    let block := cr.scratch.read (bitsOf entry 34 16 + 64 * i) 64
    let scale := if bitsOf entry 59 52 = 0 then 0 else Num.descScale (ds.getD i 0).toNat
    (eltIn (hdrFmt h) block (c % e), scale)

/-- The blocks of a weight region, expanded: descriptor and 64 bytes of each (R293).  Fuel: blocks. -/
def expandRegion : Nat → List Byte → List (Nat × List Byte)
  | 0, _ => []
  | n + 1, bs =>
    if bs.isEmpty then []
    else
      let head := leNat (bs.take 4)
      let quarter (acc : List Byte × List Byte) (i : Nat) : List Byte × List Byte :=
        if bitAt head (16 + i) then (acc.1 ++ acc.2.take 16, acc.2.drop 16) else (acc.1 ++ List.replicate 16 0, acc.2)
      let r := (List.range 4).foldl quarter ([], bs.drop 4)
      (fld head 15 0, r.1) :: expandRegion n r.2

/-- One block compressed (R293). -/
def compressBlock (desc : Nat) (bs : List Byte) : List Byte :=
  let q (i : Nat) : List Byte := (bs.drop (16 * i)).take 16
  let live (i : Nat) : Bool := (q i).any fun b => b != 0
  let mask := (List.range 4).foldl (fun m i => m + (live i).toNat * 2 ^ i) 0
  leBytes 4 (desc + mask * 2 ^ 16) ++ (List.range 4).flatMap fun i => if live i then q i else []

/-- A weight region as an operand (R293). -/
def regionOperand (w : WRegion) : Operand where
  fmt := w.fmt
  tr := w.tr
  elt := fun r c =>
    let e := perBlockOf w.fmt
    let per := rowBlocks w.fmt w.cols
    let blocks := expandRegion (w.rows * per) w.data
    let b := blocks.getD (r * per + c / e) (0, [])
    (eltIn w.fmt b.2 (c % e), Num.descScale b.1)

/-- The valid region that an MMA's OPB names (R293). -/
def regionFor (cr : Crew) (p : BitVec 512) : Option WRegion :=
  (cr.regions.find? fun w => w.granule == hdrIdx (mbOpb p)).bind fun w =>
    if w.valid ∧ w.fmt = hdrFmt (mbOpb p) ∧ w.tr = hdrTr (mbOpb p) ∧ (w.rows, w.cols) = shapeB p then some w else none

/-! ### One pass of an MMA (R292) -/

/-- A float element's value under its scale (R64, R72). -/
def fltElt (fmt : Nat) (x : Nat × Int) : XR :=
  match eltOf fmt with
  | some e => (e.value x.1).1.scale x.2
  | none => .zero

/-- Residue pass over k in `[k0, k1)` of row `i`. -/
def resPassRow (p : BitVec 512) (a b : Operand) (k0 k1 i : Nat) (r : ResRow) : ResRow :=
  let cls := max (resClass a.fmt) (resClass b.fmt)
  (List.range (k1 - k0)).foldl (fun r j =>
    let k := k0 + j
    let x := a.at i k
    r.step cls (resElt a.fmt x.1 x.2) ((List.range (mbN p)).map fun c =>
      let y := b.at k c
      resElt b.fmt y.1 y.2)) r

/-- Float pass over k in `[k0, k1)` of one element. -/
def fltPassElt (f acc : Fmt) (nbv : Nat) (a b : Operand) (k0 k1 i j : Nat) (x : Nat × Flags) : Nat × Flags :=
  (List.range ((k1 - k0) / 16)).foldl (fun x g =>
    let prods := (List.range 16).map fun t =>
      let k := k0 + 16 * g + t
      XR.mul (fltElt a.fmt (a.at i k)) (fltElt b.fmt (b.at k j))
    let y := accGroup f acc nbv x.1 prods
    (y.1, x.2.or y.2)) x

/-- One pass of an MMA over a crew's lines: the crew and the flags. -/
def mmaPass (cr : Crew) (e : MEntry) (a b : Operand) : Crew × Flags :=
  let p := e.block
  let k0 := 256 * e.passes
  let k1 := min (mbK p) (k0 + 256)
  let lpr := mbLpr p
  match pairing a.fmt b.fmt with
  | some 2 =>
    ((List.range (mbM p)).foldl (fun cr i =>
      let n := mbC0 p + 2 * i
      cr.setResRow n (resPassRow p a b k0 k1 i (cr.resRow n))) cr, {})
  | some mode =>
    let f := if mode = 1 then acc32 else acc64
    let acc := if mode = 1 then fp32 else fp64
    (List.range (mbM p)).foldl (fun (x : Crew × Flags) i =>
      let n := mbC0 p + lpr * i
      let row := (x.1.fltRow n mode).mapIdx fun j v =>
        if j < mbN p then fltPassElt f acc e.nbv a b k0 k1 i j (v, {}) else (v, {})
      (x.1.setFltRow n mode (row.map Prod.fst), row.foldl (fun f y => f.or y.2) x.2)) (cr, {})
  | none => (cr, {})

/-- The line modes of an MMA's rows before its first pass (R292): the crew with its clear rows given the mode,
or none for status MODE. -/
def mmaBegin (cr : Crew) (p : BitVec 512) (mode : Nat) : Option Crew :=
  let lpr := mbLpr p
  let cr := if mbClr p then cr.clearLines (mbC0 p) (lpr * mbM p) else cr
  let lines (i : Nat) : List Nat := (List.range lpr).map fun j => mbC0 p + lpr * i + j
  let bad (i : Nat) : Bool :=
    (lines i).any (fun n => cr.lineMode n != 0 && cr.lineMode n != mode) ||
      (lpr == 2 && cr.lineMode (mbC0 p + 2 * i) != cr.lineMode (mbC0 p + 2 * i + 1))
  if (List.range (mbM p)).any bad then none
  else
    some (((List.range (mbM p)).flatMap lines).foldl (fun cr n => if cr.lineMode n = 0 then cr.modeLine n mode else cr) cr)

/-! ### FIN (R292) -/

/-- The layout of a FIN: lines per row, and the rows' MODE; none for status MODE. -/
def finLayout (cr : Crew) (e : MEntry) : Option (Nat × Nat) :=
  let p := e.block
  let m0 := cr.lineMode (mbC0 p)
  let two := if e.kind = .mma then mbLpr p == 2 else decide (m0 = 2 ∨ m0 = 3)
  let lpr := if two then 2 else 1
  let mode := if e.kind = .mma then (pairing (hdrFmt (mbOpa p)) (hdrFmt (mbOpb p))).getD 0 else if two then m0 else 1
  let row (i : Nat) : Nat := mbC0 p + lpr * i
  if (two && decide (mbC0 p % 2 = 1)) || decide (pktAccum cr.packet < mbC0 p + lpr * mbM p) ||
      ((List.range (mbM p)).any fun i =>
        (List.range lpr).any (fun j => cr.lineMode (row i + j) != 0 && cr.lineMode (row i + j) != mode) ||
          (two && cr.lineMode (row i) != cr.lineMode (row i + 1))) ||
      (decide (mbOfmt p = 2) && decide (mode ≠ 3)) then none
  else some (lpr, mode)

/-- The output format (R285). -/
def mbOut (p : BitVec 512) : Fmt := if mbOfmt p = 0 then fp32 else if mbOfmt p = 1 then bf16 else fp64

/-- The outputs of one row, with their flags, and the crew with the row's elements closed (R292, R71). -/
def finRow (cr : Crew) (p : BitVec 512) (lpr : Nat) (i : Nat) : List Nat × Flags × Crew :=
  let n := mbC0 p + lpr * i
  let F := mbOut p
  let one (x : XR) (nan : Bool) : Nat × Flags :=
    if nan then (Num.canonNaN F, { inv := true })
    else
      let r := Num.roundX F (mbMode p) x
      (r.1, r.2.or { inv := x.isNaN })
  let gather (rs : List (Nat × Flags)) : List Nat × Flags := (rs.map Prod.fst, rs.foldl (fun f r => f.or r.2) {})
  let cols := List.range (mbN p)
  match cr.lineMode n with
  | 0 => ((gather (cols.map fun _ => one .zero false)).1, {}, cr)
  | 2 =>
    let r := cr.resRow n
    let els := r.els.mapIdx fun j x => if j < mbN p then resClose x else x
    let out := gather ((els.take (mbN p)).map fun x => one (Num.decodeF fp64 x.2) (resNan x.1))
    (out.1, out.2, cr.setResRow n { r with els := els })
  | mode =>
    let f := if mode = 1 then acc32 else acc64
    let out := gather (((cr.fltRow n mode).take (mbN p)).map fun v => one (Num.decodeF f v) false)
    (out.1, out.2, cr)

/-- The aligned 4-byte words that bytes at an address touch, each with the bytes that it receives (R3). -/
def wordsOf (a : Nat) (bs : List Byte) : List (Nat × List (Option Byte)) :=
  (List.range (State.wordCount a bs.length)).map fun j =>
    (a - a % 4 + 4 * j, (List.range 4).map fun b => if a % 4 ≤ 4 * j + b then bs[4 * j + b - a % 4]? else none)

/-- One write of a word over another: its bytes, and the other's where it has none. -/
def overWord (x y : List (Option Byte)) : List (Option Byte) := x.zipWith (fun u v => if u.isSome then u else v) y

/-- The bytes that a FIN writes, by row; where rows overlap, each word keeps one of the values written to it (R292,
log 6). -/
def finWrites (p : BitVec 512) (free : Nat) (rows : List (List Nat)) : List (Nat × List Byte) :=
  let runs := rows.zipIdx.map fun r => (mbAdr p + r.2 * mbRowb p, r.1.flatMap fun v => leBytes (mbSize p) v)
  if mbM p = 1 ∨ mbN p * mbSize p ≤ mbRowb p then runs
  else
    let all := (runs.flatMap fun x => wordsOf x.1 x.2).zipIdx
    let keep (acc : List (Nat × List (Option Byte))) (x : (Nat × List (Option Byte)) × Nat) : List (Nat × List (Option Byte)) :=
      if acc.any fun y => y.1 == x.1.1 then
        acc.map fun y =>
          if y.1 = x.1.1 then (y.1, if Config.raceBit (free + x.2) then overWord x.1.2 y.2 else overWord y.2 x.1.2) else y
      else acc ++ [x.1]
    ((all.foldl keep []).insertionSort fun x y => x.1 ≤ y.1).flatMap fun y =>
      y.2.zipIdx.filterMap fun b => b.1.map fun v => (y.1 + b.2, [v])

namespace State

/-- Runs of bytes: those that follow one another in memory make one run. -/
def runsOf : List (Nat × List Byte) → List (Nat × List Byte)
  | [] => []
  | (a, bs) :: xs =>
    match runsOf xs with
    | [] => [(a, bs)]
    | (b, cs) :: r => if a + bs.length = b then (a, bs ++ cs) :: r else (a, bs) :: (b, cs) :: r

/-- The words that a FIN writes at ADR: the crew's scratchpad, memory or a window (R285, R264). -/
def finWords (s : State) (ci : Nat) (cr : Crew) (p : BitVec 512) (xs : List (Nat × List Byte)) : List (Acc WordOut) :=
  (runsOf xs).flatMap fun x =>
    if mbDk p = 2 then s.padWords ci x.1 x.2 else s.outWords (some ci) cr.part (dieOf cr.core) x.1 (mbSize p) x.2

/-! ### Completion (R294, R297) -/

/-- A completed entry leaves the table; one thread parked on a full table is ready again (R288). -/
def freeEntry (s : State) (k : Nat) (e : MEntry) : State :=
  let q := (s.cluster k).matrixQueue
  let s := s.updCluster k fun K =>
    { K with entries := K.entries.filter fun x => x.num != e.num, matrixQueue := K.matrixQueue.drop 1,
             granted := if K.granted = some e.num then none else K.granted }
  match q with
  | [] => s
  | (ci, li) :: _ => s.wakeRetry ci li

/-- The stamp of an entry whose work is done (R294): written, lost, or held by a fault of its own.  A graph node whose
stamp is lost reports no OK (R348, log 22). -/
def stampEntry (s : State) (k : Nat) (e : MEntry) (status : Nat) : State :=
  match s.crews[e.crew]? with
  | none => s.freeEntry k e
  | some cr =>
    let p := e.block
    match s.stamp (some e.crew) cr.part (mbStamp p) (mbSeq p) status e.flags (mbRsc p) e.stampRefused with
    | .written s1 =>
      ((s1.plumbEngine (some e.crew) e.wid e.interval e.pc.toNat (mbStamp p) 8 (mbRsc p) true).freeEntry k e).nodeEnds
        e.node status
    | .lost => (s.freeEntry k e).nodeEnds e.node (if status = 1 then 3 else status)
    | .held =>
      (s.updEntry k e.num fun x => { x with outcome := some status }).updCluster k fun K => { K with granted := none }

/-- Plumb's view of an entry's accesses (R237-R239). -/
def plumbEntry (s : State) (e : MEntry) (a n scope : Nat) (write : Bool) : State :=
  s.plumbEngine (some e.crew) e.wid e.interval e.pc.toNat a n scope write

/-- The thread of an ACCSV or ACCLD continues, or traps at its bundle (R297); one that a pre-emption has saved executes
its word again when it resumes (R41). -/
def endAcc (s : State) (k : Nat) (e : MEntry) (tr : Option (Trap × Nat)) : State :=
  let s := s.freeEntry k e
  match e.lane with
  | none => s
  | some li =>
    if (s.thread? e.crew li).map Thread.run ≠ some (.parked .matrixEntry) then s
    else
      match tr with
      | none => s.wakeCont e.crew li
      | some (t, a) => s.trapThread e.crew li t (BitVec.ofNat 56 a)

/-- The next pass of an entry is granted no longer: the entry waits for another grant. -/
def endPass (s : State) (k num : Nat) (fl : Flags) : State :=
  (s.updEntry k num fun x => { x with passes := x.passes + 1, flags := x.flags ||| fl.toBits }).updCluster k
    fun K => { K with granted := none }

/-- The status of an engine access that ended the operation (R294). -/
def faultStatus {α : Type} (a : Acc α) : Nat :=
  match a with
  | .trap .staleWindow _ => 4
  | _ => 3

/-- A FIN, or the FIN part of an MMA: none while a fault or a window holds it. -/
def runFin (s : State) (k : Nat) (e : MEntry) : Option State :=
  match s.crews[e.crew]? with
  | none => none
  | some cr =>
    let p := e.block
    match finLayout cr e with
    | none => some (s.stampEntry k e 8)
    | some (lpr, _) =>
      let r := (List.range (mbM p)).foldl (fun (x : List (List Nat) × Flags × Crew) i =>
        let y := finRow x.2.2 p lpr i
        (x.1 ++ [y.1], x.2.1.or y.2.1, y.2.2)) ([], {}, cr)
      let cr1 := if mbKeep p then r.2.2 else r.2.2.clearLines (mbC0 p) (lpr * mbM p)
      let ends := s.outcomeOf (s.finWords e.crew cr p (finWrites p s.free r.1))
      let put (whole : Bool) : State :=
        { s with free := s.free + 2 * (mbM p * mbN p) }.settleWords e.since 0 whole (fun s va => s.plumbEntry e va 4 (mbRsc p) true)
          ends.1
      match ends.2 with
      | .ok _ =>
        let s1 := (put true).updCrew e.crew fun c => { c with accMeta := cr1.accMeta, accSlots := cr1.accSlots }
        let e1 := { e with flags := e.flags ||| r.2.1.toBits }
        some ((s1.updEntry k e.num fun _ => e1).stampEntry k e1 1)
      | .hold => none
      | .fault _ _ => if e.refused then some ((put false).stampEntry k e 3) else none
      | .trap .staleWindow _ => some (s.stampEntry k e 4)
      | _ => some ((put false).stampEntry k e 3)

/-- One pass of an MMA; its first reads every descriptor, then the header of the region, and tests the line modes (R292-R294). -/
def runMma (s : State) (k : Nat) (e : MEntry) : Option State :=
  match s.crews[e.crew]? with
  | none => none
  | some cr =>
    let p := e.block
    let begun := decide (0 < e.passes)
    let fromRegion := decide (hdrSrc (mbOpb p) = 1)
    let da := if begun then e.descA else tileDescs cr e.tileA (extent (mbOpa p) (shapeA p))
    let db := if begun then e.descB else if fromRegion then [] else tileDescs cr e.tileB (extent (mbOpb p) (shapeB p))
    let region := regionFor cr p
    let mode := (pairing (hdrFmt (mbOpa p)) (hdrFmt (mbOpb p))).getD 1
    if !begun && (descsBad (mbOpa p) (shapeA p) e.tileA da ||
        (!fromRegion && descsBad (mbOpb p) (shapeB p) e.tileB db)) then some (s.stampEntry k e 6)
    else if !begun && fromRegion && region.isNone then some (s.stampEntry k e 9)
    else
      match (if begun then some cr else mmaBegin cr p mode) with
      | none => some (s.stampEntry k e 8)
      | some cr0 =>
        let a := tileOperand cr (mbOpa p) e.tileA da
        let b := match fromRegion, region with
          | true, some w => regionOperand w
          | _, _ => tileOperand cr (mbOpb p) e.tileB db
        let r := mmaPass cr0 e a b
        let s1 := s.updCrew e.crew fun c => { c with accMeta := r.1.accMeta, accSlots := r.1.accSlots }
        let e1 := { e with passes := e.passes + 1, flags := e.flags ||| r.2.toBits, descA := da, descB := db }
        let s2 := (s1.updEntry k e.num fun _ => e1).updCluster k fun K => { K with granted := none }
        some (if e1.passes = e.passCount ∧ !mbFin p then s2.stampEntry k e1 1 else s2)

/-- The addresses of the blocks of a WLOAD's source, row by row (R293). -/
def wloadPlaces (adr rowb rows per : Nat) : List Nat :=
  (List.range rows).flatMap fun r => (List.range per).map fun b => adr + r * rowb + 64 * b

/-- One block of a WLOAD's source, with its descriptor (R293). -/
def wloadBlock (s : State) (ci : Nat) (cr : Crew) (fmt dk a : Nat) (device : Bool) : Acc (Nat × List Byte) :=
  if dk = 2 then .ok (fmt, cr.scratch.read a 64)
  else if 2 ^ 56 ≤ a then .trap (.fault causeAddress) a
  else if isWindow a then (s.engineRead (some ci) cr.part (dieOf cr.core) a 64).bind fun bs => .ok (fmt, bs)
  else
    (s.xlat cr.part a { device := device }).bind fun g =>
      if s.poisonedOn (dieOf cr.core) g 64 then .poison
      else .ok (if g.typed then (s.descAt g).toNat else fmt, s.physRead (dieOf cr.core) g 64)

/-- The blocks of a WLOAD's source, row by row, with their descriptors (R293). -/
def wloadBlocks (s : State) (ci : Nat) (cr : Crew) (fmt dk adr rowb rows per : Nat) (device : Bool) :
    Acc (List (Nat × List Byte)) :=
  Acc.all ((wloadPlaces adr rowb rows per).map fun a => s.wloadBlock ci cr fmt dk a device)

/-- A region loaded into a crew's weight granules; those that it overlaps are lost (log 18). -/
def putRegion (cr : Crew) (w : WRegion) : Crew :=
  let n := (64 + w.data.length + 65535) / 65536
  let hit (x : WRegion) : Bool := meets (w.granule, n) (x.granule, (64 + x.data.length + 65535) / 65536)
  { cr with regions := w :: cr.regions.filter fun x => !hit x }

/-- WLOAD (R293). -/
def runWload (s : State) (k : Nat) (e : MEntry) : Option State :=
  match s.crews[e.crew]? with
  | none => none
  | some cr =>
    let p := e.block
    let h := mbOpb p
    let fmt := hdrFmt h
    let shape := shapeB p
    let per := rowBlocks fmt shape.2
    -- the reads that were performed, whatever the end (R235)
    let seen (s : State) : State :=
      if mbDk p = 2 then s else
      (wloadPlaces (mbAdr p) (mbRowb p) shape.1 per).foldl (fun s0 a =>
        if (s.wloadBlock e.crew cr fmt (mbDk p) a false).value?.isSome then s0.plumbEntry e a 64 (mbAsc p) false else s0) s
    match s.wloadBlocks e.crew cr fmt (mbDk p) (mbAdr p) (mbRowb p) shape.1 per false with
    | .ok bs =>
      if bs.any fun b => Num.descFmt b.1 != fmt then some ((seen s).stampEntry k e 6)
      else
        let data := bs.flatMap fun b => compressBlock b.1 b.2
        let fits := decide (64 + data.length ≤ (pktWbuf cr.packet - hdrIdx h) * 65536)
        let w : WRegion := ⟨hdrIdx h, fmt, hdrTr h, shape.1, shape.2, BitVec.ofNat 56 (mbAdr p),
          BitVec.ofNat 3 (mbDk p), mbRowb p, fits, if fits then data else []⟩
        some ((seen (s.updCrew e.crew fun c => putRegion c w)).stampEntry k e (if fits then 1 else 0x0A))
    | .hold => none
    | .fault _ _ => if e.refused then some ((seen s).stampEntry k e 3) else none
    | .trap .staleWindow _ => some (s.stampEntry k e 4)
    | _ => some ((seen s).stampEntry k e 3)

/-- CLR (R292). -/
def runClr (s : State) (k : Nat) (e : MEntry) : Option State :=
  let p := e.block
  some ((s.updCrew e.crew fun c => c.clearLines (mbC0 p) (mbM p)).stampEntry k e 1)

/-- How an ACCSV or ACCLD whose accesses do not all go well ends: none while a fault holds it.  An unresolvable fault
carries the cause of R190: the access met W = 0, or V = 0. -/
def failAcc {α : Type} (s : State) (k : Nat) (e : MEntry) (cr : Crew) (r : Acc α) : Option State :=
  match r with
  | .fault b _ =>
    let cause := if (s.faultPage e.crew b).2.2 then causeWriteProtection else causeTranslation
    if e.refused then some (s.endAcc k e (some (.fault cause, b))) else none
  | .trap t b => some (s.endAcc k e (some (t, b)))
  | .poison => some ((s.endAcc k e none).removeGrid cr.grid)
  | _ => none

/-- Plumb's view of the accesses of an ACCSV or ACCLD to `n` bytes: its thread's own, at the scope of its HSCP; those
sectors that `p` admits, in order (R235, R238, R297). -/
def plumbOwn (s : State) (e : MEntry) (n : Nat) (write : Bool) (p : Nat → Bool) : State × Bool :=
  plumbEach e.crew (e.lane.getD 0) e.scope (if write then 1 else 0) false write e.pc ((sectors e.addr.toNat n).takeWhile p) s

/-- What follows Plumb's view of an ACCSV or ACCLD: DATA-RACE at its bundle, with nothing performed (R238), or `go`. -/
def unlessRace (k : Nat) (e : MEntry) (r : State × Bool) (go : State → Option State) : Option State :=
  if r.2 then some (r.1.endAcc k e (some (.dataRace, 0))) else go r.1

/-- ACCSV or ACCLD (R297): none while a fault holds it. -/
def runAcc (s : State) (k : Nat) (e : MEntry) : Option State :=
  match s.crews[e.crew]? with
  | none => none
  | some cr =>
    let a := e.addr.toNat
    let pairs := List.range (e.count / 2)
    let j (i : Nat) : Nat := e.first / 2 + i
    let len := 4160 * (e.count / 2)
    if e.kind = .accsv then
      let ends := s.outcomeOf (s.outWords (some e.crew) cr.part (dieOf cr.core) a 4
        (pairs.flatMap fun i => cr.saveForm (j i)))
      match ends.2 with
      | .ok _ =>
        unlessRace k e (s.plumbOwn e len true fun _ => true) fun s0 =>
          some ((s0.settleWords e.since 0 true (fun s _ => s) ends.1).endAcc k e none)
      | r => s.failAcc k e cr r
    else
      match s.engineRead (some e.crew) cr.part (dieOf cr.core) a len with
      | .ok bs =>
        let form (i : Nat) : List Byte := (bs.drop (4160 * i)).take 4160
        unlessRace k e (s.plumbOwn e len false fun _ => true) fun s0 =>
          if pairs.all fun i => formOk (form i) then
            some ((s0.updCrew e.crew fun c => pairs.foldl (fun c i => c.loadForm (j i) (form i)) c).endAcc k e none)
          else some (s0.endAcc k e (some (.engineStatus, 0)))
      | r =>
        -- the reads before the one that fails are performed (R235)
        (s.failAcc k e cr r).bind fun _ =>
          unlessRace k e (s.plumbOwn e len false fun x => (s.readG cr.part (dieOf cr.core) x 1).value?.isSome) fun s0 =>
            s0.failAcc k e cr r

/-- What a granted entry does: one pass, or its whole work; none while it must wait.  An operation whose STAMP is a raw
window address that is stale when it starts is rejected, with nothing changed (R196, R294, log 34). -/
def runEntry (s : State) (k : Nat) (e : MEntry) : Option State :=
  if e.passes = 0 ∧ s.staleStamp e.crew (mbStamp e.block) = true then some (s.stampEntry k e 4)
  else match e.kind with
  | .mma => if e.passes < e.passCount then s.runMma k e else s.runFin k e
  | .wload => s.runWload k e
  | .fin => s.runFin k e
  | .clr => s.runClr k e
  | .accsv => s.runAcc k e
  | .accld => s.runAcc k e

/-- The entry that was granted the next pass. -/
def grantedEntry (s : State) (k : Nat) : Option MEntry :=
  (s.cluster k).granted.bind fun n => (s.cluster k).entries.find? fun e => e.num == n

/-- The entries of a cluster that may be granted a pass (R289, R290, R294). -/
def grantable (s : State) (k : Nat) : List MEntry :=
  (s.cluster k).entries.filter fun e => s.eligible k e && (s.runEntry k e).isSome

/-- A pass that a grant named, where its entry is of the kinds given; else a stamp still owed by such an
entry (R294). -/
def runGranted (s : State) (k : Nat) (kinds : MEntry → Bool) : State :=
  match s.grantedEntry k with
  | some e =>
    -- an entry that must wait after all gives the pass back (R294)
    if kinds e then (s.runEntry k e).getD (s.updCluster k fun K => { K with granted := none }) else s
  | none =>
    match (s.cluster k).entries.find? fun e => kinds e && e.outcome.isSome with
    | some e =>
      match e.outcome with
      | some status => s.stampEntry k e status
      | none => s
    | none => s

end State

/-- Higher effective priority, then lower entry number (R290). -/
def MEntry.before (a b : MEntry) : Bool :=
  decide (b.priority < a.priority) || (decide (a.priority = b.priority) && decide (a.num < b.num))

/-- MATRIX_PASS_GRANT: the arbiter grants the next pass (R290). -/
def execMatrixPassGrant (cluster : Nat) (s : State) : Out :=
  let K := s.cluster cluster
  if K.granted.isSome then .next s
  else
    match s.grantable cluster with
    | [] => .next s
    | e :: r =>
      let best := r.foldl (fun b x => if x.before b then x else b) e
      .next (s.updCluster cluster fun K =>
        { K with granted := some best.num,
                 entries := K.entries.map fun x =>
                   if x.num ≠ best.num ∧ s.eligible cluster x then { x with waited := x.waited + 1 } else x })

/-- MATRIX_MMA: a granted pass of an MMA entry (R292). -/
def execMatrixMma (cluster : Nat) (s : State) : Out :=
  .next (s.runGranted cluster fun e => decide (e.kind = .mma ∧ (e.passes < e.passCount ∨ !mbFin e.block)))

/-- MATRIX_WLOAD (R293). -/
def execMatrixWload (cluster : Nat) (s : State) : Out := .next (s.runGranted cluster fun e => decide (e.kind = .wload))

/-- MATRIX_FIN: a FIN operation, or the FIN part of an MMA whose passes are done (R292). -/
def execMatrixFin (cluster : Nat) (s : State) : Out :=
  .next (s.runGranted cluster fun e =>
    decide (e.kind = .fin ∨ (e.kind = .mma ∧ mbFin e.block ∧ e.passCount ≤ e.passes)))

/-- MATRIX_CLR (R292). -/
def execMatrixClr (cluster : Nat) (s : State) : Out := .next (s.runGranted cluster fun e => decide (e.kind = .clr))

/-- ACC_ENTRY_EXECUTE: a granted ACCSV or ACCLD moves its lines (R297). -/
def execAccEntryExecute (cluster : Nat) (s : State) : Out :=
  .next (s.runGranted cluster fun e => decide (e.kind = .accsv ∨ e.kind = .accld))

/-! ### A multiplier fails (R296) -/

/-- The row that line `n` belongs to, with its first `cols` elements NaN: the NAN bit in a residue row, the canonical
NaN in a float row (R296). -/
def nanRow (cols : Nat) (cr : Crew) (n : Nat) : Crew :=
  let mode := cr.lineMode n
  let n0 := if mode = 1 then n else n / 2 * 2
  if mode = 0 then cr
  else if mode = 2 then
    let r := cr.resRow n0
    cr.setResRow n0 { r with els := r.els.mapIdx fun j x => if j < cols then (x.1 % 2 ^ 60 + 2 ^ 60, x.2) else x }
  else
    cr.setFltRow n0 mode ((cr.fltRow n0 mode).mapIdx fun j v =>
      if j < cols then Num.canonNaN (if mode = 1 then acc32 else acc64) else v)

/-- The elements of an unfinished entry's block set to NaN, each row in the form of its own MODE; a clear row of an MMA
takes the MMA's, one of a FIN the FIN's, and one of a CLR, which has no form, stays clear (R296, log 19). -/
def nanBlock (cr : Crew) (e : MEntry) : Crew :=
  let p := e.block
  let m0 := cr.lineMode (mbC0 p)
  let own :=
    if e.kind = .mma then (pairing (hdrFmt (mbOpa p)) (hdrFmt (mbOpb p))).getD 1
    else if e.kind = .fin then (if m0 = 2 ∨ m0 = 3 then m0 else 1)
    else 0
  let lines := (List.range (mbM p * if own ≤ 1 then 1 else 2)).map fun i => mbC0 p + i
  if e.kind = .wload ∨ e.kind = .accsv ∨ e.kind = .accld then cr
  else
    let cr1 := lines.foldl (fun cr n => if own ≠ 0 ∧ cr.lineMode n = 0 then cr.modeLine n own else cr) cr
    lines.foldl (nanRow (if e.kind = .clr then 256 else mbN p)) cr1

/-- ELECT: the lowest active lane (R284). -/
def elected (c : Ctx) : Option Nat := (List.range 16).find? fun t => c.active t

/-- The Q register that an election writes in a lane (R284). -/
def electOut (c : Ctx) (d : Code) (w : Option Nat) (t : Nat) : LaneOut :=
  { q := some (d.toNat, ⟨if w = some t then 0x8000 else 0, List.replicate c.t 0⟩) }

/-- ELECT: R284. -/
def execElect (b : Bool) (d : BitVec 6) (s : State) : Out :=
  quietWord ⟨b, [.idx 8 d], true⟩ (fun k t => electOut k d (elected k) t) s

/-- ELECT.u: R284; it tests and sets the register as it stands now. -/
def execElectU (b : Bool) (d : BitVec 6) (u : BitVec 6) (s : State) : Out :=
  frame ⟨b, [.idx 8 d, .uni u], true⟩ s fun k s =>
    let free := decide (((s.crews[k.ci]?.map fun cr => cr.u.getD u.toNat 0).getD 1) = 0)
    let w := if free then elected k else none
    let s1 := if w.isSome then s.updCrew k.ci fun cr => { cr with u := cr.u.set u.toNat 1 } else s
    commit true 0 false false (electOut k d w) k s1

/-- MMISSUE: R288. -/
def execMmissue (a : BitVec 6) (s : State) : Out :=
  frame ⟨true, [.src .i32 a], true⟩ s fun k s => eachLane k.active (mmissueLane k fun t => (k.prim t .i32 a).toNat) s

/-- ACCSV: R297. -/
def execAccsv (d : BitVec 6) (a : BitVec 6) (c : BitVec 6) (s : State) : Out :=
  frame ⟨true, [.src .i64 d, .src .i32 a, .src .i32 c], true⟩ s fun k s => eachLane k.active (accLane k .accsv d a c) s

/-- ACCLD: R297. -/
def execAccld (d : BitVec 6) (a : BitVec 6) (c : BitVec 6) (s : State) : Out :=
  frame ⟨true, [.src .i64 d, .src .i32 a, .src .i32 c], true⟩ s fun k s => eachLane k.active (accLane k .accld d a c) s

end Sys2Proof.Machine
end

