-- ==== Sys2Proof/Machine/Traversal.lean ====
section
/-!
DEFINITION. The traversal unit: the hierarchy, the walk, the triangle test, log and replay; TRACE, TRACEP, TRES,
and the unit's steps (R300-R323).
-/

namespace Sys2Proof.Machine

open Sys2Proof
open Sys2Proof.Num (Fmt Mode XR fp32 fp64)

/-! ### Fields of a ray record (R305) -/

/-- `n` bytes of a record. -/
def recGet (r : BitVec 1024) (byte n : Nat) : Nat := bitsOf r (8 * (byte + n) - 1) (8 * byte)
def recSet (r : BitVec 1024) (byte n v : Nat) : BitVec 1024 := setBits r (8 * (byte + n) - 1) (8 * byte) v
/-- A field of CTL. -/
def rayCtl (r : BitVec 1024) (hi lo : Nat) : Nat := bitsOf r (704 + hi) (704 + lo)
def rayCtlSet (r : BitVec 1024) (hi lo v : Nat) : BitVec 1024 := setBits r (704 + hi) (704 + lo) v

def rayPrec (r : BitVec 1024) : Bool := decide (rayCtl r 34 34 = 1)
def rayFmt (r : BitVec 1024) : Fmt := if rayPrec r then fp64 else fp32
/-- The node unit u (R302). -/
def nodeUnit (prec : Bool) : Nat := if prec then 128 else 64
/-- The floating-point value of a slot. -/
def rayF (r : BitVec 1024) (byte : Nat) : XR := Num.decodeF (rayFmt r) (recGet r byte (if rayPrec r then 8 else 4))
def rayRoot (r : BitVec 1024) : Nat := recGet r 64 7
def rayCur (r : BitVec 1024) : Nat := recGet r 72 7
def rayDepth (r : BitVec 1024) : Nat := rayCtl r 24 20
def rayEnt (r : BitVec 1024) : Bool := decide (rayCtl r 26 26 = 1)
def rayLeafi (r : BitVec 1024) : Nat := rayCtl r 19 16
def rayHv (r : BitVec 1024) : Bool := decide (rayCtl r 27 27 = 1)
def rayTerm (r : BitVec 1024) : Bool := decide (rayCtl r 30 30 = 1)
def rayLogs (r : BitVec 1024) : Bool := decide (rayCtl r 32 32 = 1)
def rayReplays (r : BitVec 1024) : Bool := decide (rayCtl r 33 33 = 1)
def rayStatus (r : BitVec 1024) : Nat := rayCtl r 7 0
/-- TRAIL at a depth. -/
def rayTrail (r : BitVec 1024) (d : Nat) : Nat := bitsOf r (640 + 2 * d + 1) (640 + 2 * d)
def rayTrailSet (r : BitVec 1024) (d j : Nat) : BitVec 1024 := setBits r (640 + 2 * d + 1) (640 + 2 * d) j
/-- ENT, LEAFI and CUR. -/
def rayLeaf (r : BitVec 1024) (ent : Bool) (leafi cur : Nat) : BitVec 1024 :=
  recSet (rayCtlSet (rayCtlSet r 26 26 ent.toNat) 19 16 leafi) 72 8 cur

/-- Statuses that are suspensions (R306). -/
def isSuspension (st : Nat) : Bool := decide (0x10 ≤ st ∧ st ≤ 0x13)

/-- The checks of R307. -/
def rayBad (r : BitVec 1024) : Bool :=
  let slots := [0, 8, 16, 24, 32, 40, 48, 56, 120]
  decide (rayCtl r 39 35 ≠ 0 ∨ rayCtl r 25 25 ≠ 0 ∨ rayCtl r 15 8 ≠ 0 ∨ recGet r 71 1 ≠ 0 ∨ recGet r 79 1 ≠ 0) ||
    (!rayPrec r && slots.any fun o => decide (recGet r (o + 4) 4 ≠ 0)) ||
    ([0, 8, 16, 24, 32, 40, 48].any fun o => !(rayF r o).isFin) || (rayF r 56).isNaN ||
    ([24, 32, 40].all fun o => (rayF r o).isZero) || (rayLogs r && rayReplays r) ||
    decide (rayRoot r % nodeUnit (rayPrec r) ≠ 0)

/-! ### How the unit's accesses fare -/

/-- What a step of the unit needs: done, a broken structure (BADNODE), a translation fault, a fault that acts
as unresolvable (R320), or a poisoned block (R397). -/
inductive Walked (α : Type) where
  | ok (x : α)
  | bad
  /-- the faulting address, and that of the node, record or log record accessed -/
  | held (addr : Nat) (write : Bool) (item : Nat)
  | fail (t : Trap) (addr : Nat)
  | poison

def Walked.bind {α β : Type} (x : Walked α) (f : α → Walked β) : Walked β :=
  match x with
  | .ok a => f a
  | .bad => .bad
  | .held a w i => .held a w i
  | .fail t a => .fail t a
  | .poison => .poison

/-- How an access of the node, record or log record at `item` fares (R361). -/
def Acc.walked {α : Type} (item : Nat) : Acc α → Walked α
  | .ok a => .ok a
  | .trap t _ => .fail t (item % 2 ^ 56)
  | .fault a w => .held a w item
  | .hold => .bad
  | .poison => .poison

/-- The same, of the node, record or log record at `item` (R361). -/
def Walked.named {α : Type} (item : Nat) : Walked α → Walked α
  | .held a w _ => .held a w item
  | .fail t _ => .fail t (item % 2 ^ 56)
  | x => x

/-- A condition of R303 or R304. -/
def Walked.check (p : Bool) : Walked Unit := if p then .ok () else .bad

namespace State

/-- An address that the unit may not access at all (R188, R320). -/
def unitAddr (a : Nat) : Acc Unit :=
  if 2 ^ 56 ≤ a then .trap (.fault causeAddress) (a % 2 ^ 56)
  else if isWindow a then .trap (.fault causeWindow) a
  else .ok ()

/-- The unit's read, block by block; a waiter of the fault buffer takes its block from the fill (R205). -/
def unitBlocks (s : State) (ci p d : Nat) (key : Option Nat) : Nat → Nat → Nat → Acc (List Byte)
  | 0, _, _ => .ok []
  | fuel + 1, a, n =>
    if n = 0 then .ok []
    else
      let k := min n (64 - a % 64)
      let part : Acc (List Byte) :=
        match key.bind fun y => s.fillFor ci y a false with
        | some f => (pageCheck f.page a {}).bind fun _ => .ok ((f.bytes.drop (a % 64)).take k)
        | none => s.readG p d a k
      part.bind fun bs => (unitBlocks s ci p d key fuel (a + k) (n - k)).bind fun r => .ok (bs ++ r)

/-- A read of the unit for a crew. -/
def unitRead (s : State) (ci : Nat) (key : Option Nat) (a n : Nat) : Walked (List Byte) :=
  match s.crews[ci]? with
  | none => .bad
  | some cr => ((unitAddr a).bind fun _ => s.unitBlocks ci cr.part (dieOf cr.core) key (n / 64 + 2) a n).walked a

/-- The page of a write of the unit for a crew, within one block of memory; a waiter of the fault buffer takes its
translation from the fill (R205). -/
def unitPage (s : State) (ci : Nat) (key : Option Nat) (a : Nat) : Walked Page :=
  match s.crews[ci]? with
  | none => .bad
  | some cr =>
    let page : Acc Page :=
      match key.bind fun y => s.fillFor ci y a true with
      | some f => pageCheck { f.page with pa := f.page.pa + a % 64 } a { write := true }
      | none => s.xlat cr.part a { write := true }
    ((unitAddr a).bind fun _ => page).walked a

end State

/-! ### The hierarchy in memory (R302-R304) -/

/-- A child of an inner node: slot, KIND, address, box, CMASK byte. -/
structure Child where
  slot : Nat
  kind : Nat
  addr : Nat
  lo : List XR
  hi : List XR
  mask : Nat

/-- The children of a node's bytes that are not empty; none where the node breaks R303. -/
def readNode (prec : Bool) (bs : List Byte) : Option (List Child) :=
  let F := if prec then fp64 else fp32
  let fw := if prec then 8 else 4
  let eb := if prec then 2 else 1
  let co := if prec then 32 else 16
  let num (i n : Nat) : Nat := leNat ((bs.drop i).take n)
  let org (i : Nat) : XR := Num.decodeF F (num (fw * i) fw)
  let ex (i : Nat) : Nat := num (3 * fw + eb * i) eb
  let base := num (co + 8) 8
  let qlo (c i : Nat) : Nat := num (co + 16 + 6 * eb * c + eb * i) eb
  let qhi (c i : Nat) : Nat := num (co + 16 + 6 * eb * c + eb * (3 + i)) eb
  let kind (c : Nat) : Nat := fld (num (co + c) 1) 7 6
  let kids := (List.range 4).filter fun c => kind c ≠ 0
  let axes := [0, 1, 2]
  if num (3 * (fw + eb)) (co - 3 * (fw + eb)) ≠ 0 ∨ num (co + 16 + 24 * eb) (nodeUnit prec - (co + 16 + 24 * eb)) ≠ 0 then
    none
  else if axes.any (fun i => !(org i).isFin || ex i == 0 || ex i == 2 ^ (8 * eb) - 1) then none
  else if 2 ^ 56 ≤ base ∨ base % nodeUnit prec ≠ 0 then none
  else if kids.any fun c => axes.any fun i => decide (qhi c i < qlo c i) then none
  else
    let edge (mode : Mode) (q : Nat) (i : Nat) : XR :=
      Num.decodeF F (Num.roundX F mode (.ofRat ((org i).rat + (q : Rat) * Num.pow2 ((ex i : Int) - F.bias)))).1
    some (kids.map fun c =>
      ⟨c, kind c, base + nodeUnit prec * fld (num (co + c) 1) 5 0, axes.map fun i => edge .rd (qlo c i) i,
        axes.map fun i => edge .ru (qhi c i) i, num (co + 4 + c) 1⟩)

/-- A node read at an address. -/
def nodeAt (s : State) (ci : Nat) (key : Option Nat) (prec : Bool) (a : Nat) : Walked (List Child) :=
  if a % nodeUnit prec ≠ 0 then .bad
  else (s.unitRead ci key a (nodeUnit prec)).bind fun bs =>
    match readNode prec bs with
    | some cs => .ok cs
    | none => .bad

/-- An entry of a ray's child list (R308). -/
structure Entry where
  tnear : XR
  kind : Nat
  addr : Nat

/-- Numeric order of values that are not NaN. -/
def xle (x y : XR) : Bool := !(y.lt x)

/-- Where the line of one axis meets a bound of a box, exactly (R308). -/
def slabEnd (b : XR) (o d : Rat) : XR :=
  match b with
  | .fin _ q => .ofRat ((q - o) / d)
  | .inf n => .inf (n ^^ decide (d < 0))
  | .nan => .nan

/-- Insertion behind the entries that do not lie farther, so that equal ones keep their order. -/
def insertEntry (e : Entry) : List Entry → List Entry
  | [] => [e]
  | x :: xs => if e.tnear.lt x.tnear then e :: x :: xs else x :: insertEntry e xs

/-- The child list of a node for a ray (R308). -/
def childList (r : BitVec 1024) (cs : List Child) : List Entry :=
  let F := rayFmt r
  let o (i : Nat) : Rat := (rayF r (8 * i)).rat
  let d (i : Nat) : Rat := (rayF r (24 + 8 * i)).rat
  let one (c : Child) : Option Entry :=
    let lo (i : Nat) : XR := c.lo.getD i .nan
    let hi (i : Nat) : XR := c.hi.getD i .nan
    let flat := [0, 1, 2].filter fun i => d i = 0
    let steep := [0, 1, 2].filter fun i => d i ≠ 0
    let a (i : Nat) : XR := slabEnd (if d i < 0 then hi i else lo i) (o i) (d i)
    let b (i : Nat) : XR := slabEnd (if d i < 0 then lo i else hi i) (o i) (d i)
    let big := (steep.map a).foldl (fun x y => if x.lt y then y else x) (.inf true)
    let small := (steep.map b).foldl (fun x y => if y.lt x then y else x) (.inf false)
    let tnear := Num.decodeF F (Num.roundX F .rd big).1
    let tfar := Num.decodeF F (Num.roundX F .ru small).1
    if c.mask &&& rayCtl r 47 40 = 0 then none
    else if flat.any fun i => !(xle (lo i) (.ofRat (o i)) && xle (.ofRat (o i)) (hi i)) then none
    else if xle tnear tfar && xle (rayF r 48) tfar then some ⟨tnear, c.kind, c.addr⟩
    else none
  (cs.filterMap one).foldl (fun l e => insertEntry e l) []

/-- The lists along the path that TRAIL names, from depth `d` on, `n` levels further down (R309). -/
def pathLists (fetch : Nat → Walked (List Child)) (r : BitVec 1024) : Nat → Nat → Nat → Walked (List (List Entry))
  | 0, _, a => (fetch a).bind fun cs => .ok [childList r cs]
  | n + 1, d, a =>
    (fetch a).bind fun cs =>
      match (childList r cs)[rayTrail r d]? with
      | some e =>
        if e.kind = 1 then (pathLists fetch r n (d + 1) e.addr).bind fun ls => .ok (childList r cs :: ls)
        else .bad
      | none => .bad

/-- A primitive record (R304): PRIM, TF and, of a triangle, its nine values. -/
structure Prim where
  prim : Nat
  tf : Nat
  vs : List XR

def Prim.last (p : Prim) : Bool := bitAt p.tf 1
def Prim.opaq (p : Prim) : Bool := bitAt p.tf 0

/-- Record `i` of the leaf at `a`: no earlier record has LAST, and the record obeys R304. -/
def leafRecord (s : State) (ci : Nat) (key : Option Nat) (prec : Bool) (tri : Bool) (a i : Nat) : Walked Prim :=
  let n := if tri then (if prec then 80 else 48) else 16
  let po := if tri then (if prec then 72 else 36) else 0
  let earlier := (List.range i).foldl (fun (x : Walked Unit) k =>
    x.bind fun _ => ((s.unitRead ci key (a + n * k + po + 4) 4).named (a + n * k)).bind fun bs => Walked.check (!bitAt (leNat bs) 1)) (.ok ())
  earlier.bind fun _ => (s.unitRead ci key (a + n * i) n).bind fun bs =>
    let num (j k : Nat) : Nat := leNat ((bs.drop j).take k)
    let tf := num (po + 4) 4
    let rest := if tri then (if prec then 0 else num 44 4) else num 8 8
    let F := if prec then fp64 else fp32
    let fw := if prec then 8 else 4
    if fld tf 15 2 ≠ 0 ∨ rest ≠ 0 ∨ (i = 15 ∧ !bitAt tf 1) then .bad
    else .ok ⟨num po 4, tf, if tri then (List.range 9).map fun j => Num.decodeF F (num (fw * j) fw) else []⟩

/-! ### The watertight triangle test (R310, R311) -/

/-- A rational rounded to nearest in a format, where that is finite. -/
def roundFin (F : Fmt) (q : Rat) : Option Rat :=
  match Num.decodeF F (Num.roundX F .rne (.ofRat q)).1 with
  | .fin _ x => some x
  | _ => none

/-- The shear of R310: the axes k, kx, ky, then Sx, Sy, Sz; none where a value is not finite. -/
def shear (F : Fmt) (d : List Rat) : Option ((Nat × Nat × Nat) × Rat × Rat × Rat) :=
  let g (i : Nat) : Rat := d.getD i 0
  let mag (i : Nat) : Rat := if g i < 0 then -(g i) else g i
  let k := [1, 2].foldl (fun k i => if mag k < mag i then i else k) 0
  let x := (k + 1) % 3
  let y := (k + 2) % 3
  let (kx, ky) := if g k < 0 then (y, x) else (x, y)
  match roundFin F (g kx / g k), roundFin F (g ky / g k), roundFin F (1 / g k) with
  | some sx, some sy, some sz => some ((k, kx, ky), sx, sy, sz)
  | _, _, _ => none

/-- A vertex in the sheared coordinates. -/
def shearVertex (F : Fmt) (o : List Rat) (sh : (Nat × Nat × Nat) × Rat × Rat × Rat) (v : List XR) :
    Option (Rat × Rat × Rat) :=
  let a := v.zipWith (fun x p => match x with
    | .fin _ q => roundFin F (q - p)
    | _ => none) o
  let c (i : Nat) : Option Rat := (a[i]?).join
  match sh with
  | ((k, kx, ky), sx, sy, sz) =>
    match c k, c kx, c ky with
    | some ak, some ax, some ay =>
      match roundFin F (ax - sx * ak), roundFin F (ay - sy * ak), roundFin F (sz * ak) with
      | some x, some y, some z => some (x, y, z)
      | _, _, _ => none
    | _, _, _ => none

/-- A candidate: its distance, and the encodings of t, u and v. -/
structure Hit where
  t : Rat
  enc : Nat
  u : Nat
  v : Nat

/-- The triangle test. -/
def triTest (r : BitVec 1024) (p : Prim) : Option Hit :=
  let F := rayFmt r
  let o := [0, 8, 16].map fun b => (rayF r b).rat
  match shear F ([24, 32, 40].map fun b => (rayF r b).rat) with
  | none => none
  | some sh =>
    match shearVertex F o sh (p.vs.take 3), shearVertex F o sh ((p.vs.drop 3).take 3),
        shearVertex F o sh (p.vs.drop 6) with
    | some (ax, ay, az), some (bx, by_, bz), some (cx, cy, cz) =>
      let U := cx * by_ - cy * bx
      let V := ax * cy - ay * cx
      let W := bx * ay - by_ * ax
      let det := U + V + W
      let sg : Rat := if det < 0 then -1 else 1
      let inside (e px py qx qy : Rat) : Bool :=
        let ex := sg * (qx - px)
        let ey := sg * (qy - py)
        decide (0 < sg * e) || (decide (e = 0) && (decide (0 < ey) || (decide (ey = 0) && decide (ex < 0))))
      if det = 0 ∨ (rayCtl r 29 29 = 1 ∧ 0 < det) ∨ (rayCtl r 28 28 = 1 ∧ det < 0) then none
      else if inside U bx by_ cx cy && inside V cx cy ax ay && inside W ax ay bx by_ then
        let q := (U * az + V * bz + W * cz) / det
        match roundFin F q with
        | none => none
        | some t =>
          some ⟨t, (Num.roundX F .rne (.ofRat q)).1, (Num.roundX fp32 .rne (.ofRat (V / det))).1,
            (Num.roundX fp32 .rne (.ofRat (W / det))).1⟩
      else none
    | _, _, _ => none

/-- Whether a distance lies in the ray's interval (R311); a NaN never does (R314). -/
def acceptable (r : BitVec 1024) (t : XR) : Bool :=
  !t.isNaN && xle (rayF r 48) t && (if rayHv r then t.lt (rayF r 56) else xle t (rayF r 56))

/-- A hit committed (R311). -/
def rayCommit (r : BitVec 1024) (t prim uv : Nat) : BitVec 1024 :=
  rayCtlSet (recSet (recSet (recSet r 56 8 t) 96 4 prim) 104 8 uv) 27 27 1

/-! ### Log and replay (R322, R323) -/

/-- CNT, CAP and RIX of a log header; none where it is broken. -/
def logHeader (s : State) (y : Ray) (key : Option Nat) : Walked (Option (Nat × Nat × Nat)) :=
  (s.unitRead y.crew key y.log 16).bind fun bs =>
    let h := leNat bs
    .ok (if fld h 127 96 ≠ 0 ∨ fld h 63 32 < fld h 31 0 then none else some (fld h 31 0, fld h 63 32, fld h 95 64))

/-- Plumb's view of the unit's accesses for a ray (R238). -/
def plumbRay (s : State) (y : Ray) (a n : Nat) (write : Bool) : State :=
  match s.crews[y.crew]?, s.thread? y.crew y.lane with
  | some cr, some th => s.plumbEngine (some y.crew) (cr.wid th.tid) y.interval th.pc.toNat a n 0 write
  | _, _ => s

/-- The mark of a ray among the operations that R231 lets race: it writes in steps. -/
def Ray.tag (y : Ray) : Nat := 1 + y.crew * 2 ^ 32 + 2 ^ 24 + y.off

/-- Whole words that the unit writes to a log, one operation's among those in flight (R231); the header or record at
`item`. -/
def logPut (s : State) (y : Ray) (key : Option Nat) (item a : Nat) (ws : List Word) : Walked State :=
  ((s.unitPage y.crew key a).named item).bind fun g =>
    .ok (s.settleWords y.since y.tag true (fun s va => plumbRay s y va 4 true)
      (ws.mapIdx fun j w => ⟨some (a + 4 * j), .mem (g.pa + 4 * j) g.replicated, w⟩))

/-- How the log takes a record: written, full (nothing of the step happens), or with a broken header (R322). -/
inductive Logged where
  | done (s : State)
  | full (s : State)
  | broken (s : State)

/-- One log record written; its header is read in any case. -/
def logWrite (s : State) (y : Ray) (key : Option Nat) (kind leafi a t : Nat) : Walked Logged :=
  if !rayLogs y.record then .ok (.done s)
  else
    (logHeader s y key).bind fun h =>
      let s0 := plumbRay s y y.log 16 false
      match h with
      | none => .ok (.broken s0)
      | some h =>
        if h.1 = h.2.1 then .ok (.full s0)
        else
          let at_ := y.log + 16 + 16 * h.1
          let w (x : Nat) : Word := BitVec.ofNat 32 x
          (logPut s0 y key at_ at_ [w t, w (t / 2 ^ 32), w a, w (kind * 2 ^ 28 + leafi * 2 ^ 24 + a / 2 ^ 32)]).bind fun s1 =>
            (logPut s1 y key y.log y.log [w (h.1 + 1)]).bind fun s2 => .ok (.done s2)

/-! ### One step (R309, R314, R315) -/

/-- A step's result: the state, the record, and where the ray leaves the unit its STATUS and the KIND of a log
record. -/
structure Stepped where
  s : State
  r : BitVec 1024
  begin : RayBegin
  stop : Option (Nat × Nat)

def Stepped.go (s : State) (r : BitVec 1024) : Stepped := ⟨s, r, .walk, none⟩
def Stepped.ends (s : State) (r : BitVec 1024) (status : Nat) : Stepped := ⟨s, r, .walk, some (status, 0)⟩

/-- What follows a log record: the step goes on; LOGFULL leaves the record `r`; a broken header ends the ray with
BADNODE and its record as it was (R322). -/
def Logged.andThen (x : Logged) (y : Ray) (r : BitVec 1024) (next : State → Walked Stepped) : Walked Stepped :=
  match x with
  | .done s => next s
  | .full s => .ok (.ends s r 0x12)
  | .broken s => .ok (.ends s y.record 0x20)

/-- HIT or MISS. -/
def hitOrMiss (r : BitVec 1024) : Nat := if rayHv r then 2 else 1

/-- `advance` and `pop`, from depth `d` up: the record, and whether the walk is over (R309). -/
def rayAdvance (ls : List (List Entry)) : Nat → BitVec 1024 → BitVec 1024 × Bool
  | d, r =>
    let r1 := rayLeaf r false 0 0
    let len := (ls.getD d []).length
    if rayTrail r1 d + 1 < len then (rayTrailSet r1 d (rayTrail r1 d + 1), false)
    else
      match d with
      | 0 => (r1, true)
      | d' + 1 => rayAdvance ls d' (rayCtlSet (rayTrailSet r1 (d' + 1) 0) 24 20 d')

/-- `pop` at depth `d`. -/
def rayPop (ls : List (List Entry)) (d : Nat) (r : BitVec 1024) : BitVec 1024 × Bool :=
  match d with
  | 0 => (r, true)
  | d' + 1 => rayAdvance ls d' (rayCtlSet (rayTrailSet r (d' + 1) 0) 24 20 d')

/-- The walk goes on, or is over. -/
def goOn (s : State) (x : BitVec 1024 × Bool) : Stepped := if x.2 then .ends s x.1 (hitOrMiss x.1) else .go s x.1

/-- What follows the test of a record: the leaf step's end. -/
def afterRecord (s : State) (r : BitVec 1024) (ls : List (List Entry)) (last : Bool) : Stepped :=
  let x := if last then rayAdvance ls (rayDepth r) r else (rayCtlSet r 19 16 (rayLeafi r + 1), false)
  if x.2 then goOn s x else if rayTerm r && rayHv r then .ends s x.1 2 else .go s x.1

/-- Suspension with a candidate. -/
def candidate (s : State) (r : BitVec 1024) (status prim key cand cuv : Nat) : Stepped :=
  .ends s (rayCtlSet (recSet (recSet (recSet r 100 4 prim) 112 8 cuv) 120 8 cand) 63 48 key) status

/-- The lists along the ray's path. -/
def rayLists (s : State) (y : Ray) (key : Option Nat) : Walked (List (List Entry)) :=
  pathLists (nodeAt s y.crew key (rayPrec y.record)) y.record (rayDepth y.record) 0 (rayRoot y.record)

/-- The step of R309; `logged`: the log record of the step stands already. -/
def walkStep (s : State) (y : Ray) (key : Option Nat) (logged : Bool) : Walked Stepped :=
  let r := y.record
  let dep := rayDepth r
  let log (s : State) (kind leafi a t : Nat) (next : State → Walked Stepped) : Walked Stepped :=
    if logged then next s else (logWrite s y key kind leafi a t).bind fun x => x.andThen y r next
  (rayLists s y key).bind fun ls =>
    match (ls.getD dep [])[rayTrail r dep]? with
    | none => .ok (goOn s (rayPop ls dep r))
    | some e =>
      if rayEnt r && e.kind == 1 then .bad
      else if !rayEnt r && (rayF r 56).lt e.tnear then .ok (goOn s (rayPop ls dep r))
      else if e.kind = 1 then
        if dep = 31 then .ok (.ends s r 0x21)
        else
          log s 1 0 e.addr 0 fun s1 =>
            .ok (.go (plumbRay s1 y e.addr (nodeUnit (rayPrec r)) false)
              (rayTrailSet (rayCtlSet r 24 20 (dep + 1)) (dep + 1) 0))
      else if !rayEnt r then
        log s 2 0 e.addr 0 fun s1 => .ok (.go s1 (rayLeaf r true 0 e.addr))
      else
        let tri : Bool := e.kind == 2
        (leafRecord s y.crew key (rayPrec r) tri e.addr (rayLeafi r)).bind fun p =>
          let size := if tri then (if rayPrec r then 80 else 48) else 16
          let s0 := plumbRay s y (e.addr + size * rayLeafi r) size false
          if !tri then .ok (candidate s0 r 0x11 p.prim (fld p.tf 31 16) (Num.infEnc (rayFmt r) false) 0)
          else
            match triTest r p with
            | none => .ok (afterRecord s0 r ls p.last)
            | some h =>
              if !acceptable r (.ofRat h.t) then .ok (afterRecord s0 r ls p.last)
              else if p.opaq || rayCtl r 31 31 == 1 then
                log s0 3 (rayLeafi r) e.addr h.enc fun s1 =>
                  .ok (afterRecord s1 (rayCommit r h.enc p.prim (h.u + h.v * 2 ^ 32)) ls p.last)
              else .ok (candidate s0 r 0x10 p.prim (fld p.tf 31 16) h.enc (h.u + h.v * 2 ^ 32))

/-- The completion of a suspended leaf step (R314, R315): the candidate is decided by the form. -/
def leafStep (s : State) (y : Ray) (key : Option Nat) (form : Nat) (logged : Bool) : Walked Stepped :=
  let r := y.record
  (rayLists s y key).bind fun ls =>
    match (ls.getD (rayDepth r) [])[rayTrail r (rayDepth r)]? with
    | none => .bad
    | some e =>
      if !rayEnt r || e.kind == 1 then .bad
      else
        (leafRecord s y.crew key (rayPrec r) (e.kind == 2) (rayCur r) (rayLeafi r)).bind fun p =>
          let cand := recGet r 120 8
          let done (s : State) (r : BitVec 1024) : Stepped :=
            if form = 2 then .ends s r (hitOrMiss r) else afterRecord s r ls p.last
          if form ≠ 0 ∧ acceptable r (rayF r 120) then
            let commit (s : State) : Walked Stepped := .ok (done s (rayCommit r cand (recGet r 100 4) (recGet r 112 8)))
            if logged then commit s
            else (logWrite s y key 3 (rayLeafi r) (rayCur r) cand).bind fun x => x.andThen y r commit
          else .ok (done s r)

/-- `start` of R309.  Where the log is full, LEAFI = 1 with ENT = 0 marks that the root's record is still to be
written (log 21). -/
def startStep (s : State) (y : Ray) (key : Option Nat) : Walked Stepped :=
  let r := rayLeaf (rayCtlSet (recSet (rayCtlSet y.record 24 20 0) 80 8 0) 27 27 0) false 0 0
  (logWrite s { y with record := r } key 1 0 (rayRoot r) 0).bind fun x =>
    x.andThen y (rayCtlSet r 19 16 1) fun s1 => .ok (.go (plumbRay s1 y (rayRoot r) (nodeUnit (rayPrec r)) false) r)

/-- TRES after LOGFULL (R315): the pending record is written, then the stopped step performed, whose log record
stands. -/
def pendingStep (s : State) (y : Ray) (key : Option Nat) : Walked Stepped :=
  let r := y.record
  if !rayEnt r && rayLeafi r == 1 then startStep s y key
  else
    let put (kind leafi a t : Nat) (next : State → Walked Stepped) : Walked Stepped :=
      (logWrite s y key kind leafi a t).bind fun x => x.andThen y r next
    (rayLists s y key).bind fun ls =>
      match (ls.getD (rayDepth r) [])[rayTrail r (rayDepth r)]? with
      | none => walkStep s y key false
      | some e =>
        if !rayEnt r then
          if e.kind = 1 ∧ rayDepth r = 31 then walkStep s y key false
          else put (if e.kind = 1 then 1 else 2) 0 e.addr 0 fun s1 => walkStep s1 y key true
        else if e.kind = 1 then .bad
        else
          (leafRecord s y.crew key (rayPrec r) (e.kind == 2) (rayCur r) (rayLeafi r)).bind fun p =>
            if e.kind = 2 ∧ (p.opaq ∨ rayCtl r 31 31 = 1) then
              match triTest r p with
              | none => walkStep s y key false
              | some h => put 3 (rayLeafi r) (rayCur r) h.enc fun s1 => walkStep s1 y key true
            else put 3 (rayLeafi r) (rayCur r) (recGet r 120 8) fun s1 => leafStep s1 y key 1 true

/-- Replay (R323): TRACE sets RIX to 0; each step presents one log record. -/
def replayStep (s : State) (y : Ray) (key : Option Nat) (first : Bool) : Walked Stepped :=
  (logHeader s y key).bind fun h =>
    let s0 := plumbRay s y y.log 16 false
    let rix (s : State) (i : Nat) : Walked State := logPut s y key y.log (y.log + 8) [BitVec.ofNat 32 i]
    match h with
    | none => .ok (.ends s0 y.record 0x20)
    | some h =>
      let i := if first then 0 else h.2.2
      if h.1 ≤ i then (if first then rix s0 0 else .ok s0).bind fun s1 => .ok (.ends s1 y.record 3)
      else
        let at_ := y.log + 16 + 16 * i
        (s.unitRead y.crew key at_ 16).bind fun bs =>
          let x := leNat bs
          (rix (plumbRay s0 y at_ 16 false) (i + 1)).bind fun s1 =>
            let r := recSet (rayCtlSet (recSet y.record 72 8 (fld x 119 64)) 19 16 (fld x 123 120)) 120 8 (fld x 63 0)
            .ok ⟨s1, r, .walk, some (0x13, fld x 127 124)⟩

/-- The next step of a ray in the unit. -/
def rayStep (s : State) (y : Ray) (key : Option Nat) : Walked Stepped :=
  match y.begin with
  | .start => startStep s y key
  | .walk => walkStep s y key false
  | .leaf form => leafStep s y key form false
  | .pending => pendingStep s y key
  | .replay => replayStep s y key true
  | .replayNext => replayStep s y key false

/-- How far a ray came. -/
inductive WalkEnd where
  | stopped (s : State) (y : Ray) (status kind : Nat)
  | held (s : State) (y : Ray) (addr : Nat) (write : Bool) (item : Nat)
  | failed (s : State) (y : Ray) (t : Trap) (addr : Nat)
  | more (s : State) (y : Ray)

/-- The walk, fuel: steps. -/
def rayWalk : Nat → State → Ray → Option Nat → WalkEnd
  | 0, s, y, _ => .more s y
  | fuel + 1, s, y, key =>
    match rayStep s y key with
    | .ok x =>
      -- the walk goes on, or the replay (R314)
      let y1 := { y with record := x.r, begin := if rayReplays x.r then .replayNext else x.begin }
      match x.stop with
      | some (st, k) => .stopped x.s y1 st k
      | none => rayWalk fuel x.s y1 key
    | .bad => .stopped s y 0x20 0
    | .held a w i => .held s y a w i
    | .fail t a => .failed s y t a
    | .poison => .stopped s y 0x23 0

/-- Steps that one event takes at most; a longer walk goes on at the next. -/
def raySteps : Nat := 65536

/-! ### Slots (R300) -/

/-- The key of a ray's waits, for the fault buffer (R205) and for slots: beyond every lane. -/
def Ray.key (y : Ray) : Nat := 1024 + y.off / 128
/-- The key of a dual traversal's wait for a slot. -/
def XPairOp.key (x : XPairOp) : Nat := 2 ^ 20 + x.off / 128

namespace State

/-- Whether a wait for slots stands: a parked thread, a ray or a dual traversal outside the unit; or a woken thread
that has not executed its word yet. -/
def stillWaits (s : State) (w : UnitWait) : Bool :=
  if w.lane < 1024 then
    !w.granted || ((s.thread? w.crew w.lane).any fun t =>
      match t.run with
      | .running => true
      | .ready _ => t.pc == w.pc
      | .waking _ => t.pc == w.pc
      | .waiting => t.pc == w.pc
      | _ => false)
  else if w.lane < 2 ^ 20 then
    s.rays.any fun y => y.crew == w.crew && y.key == w.lane && !y.inUnit && y.failed.isNone
  else s.xpairs.any fun x => x.crew == w.crew && x.key == w.lane && !x.inUnit

/-- Whether slots are promised to a wait. -/
def stillGranted (s : State) (w : UnitWait) : Bool := w.granted && s.stillWaits w

/-- Slots of a core's unit that are neither taken nor promised. -/
def freeSlots (s : State) (core : Nat) : Nat :=
  let here (ci : Nat) : Bool := decide ((s.crews[ci]?.map fun cr => cr.core) = some core)
  let promised := ((s.core core).unitQueue.filter s.stillGranted).foldl (fun n w => n + w.slots) 0
  Config.raySlots - ((s.rays.filter fun y => y.inUnit && here y.crew).length +
    (s.xpairs.filter fun x => x.inUnit && here x.crew).length + promised)

/-- Those that wait for the unit take slots in the order in which they began to wait.  Fuel: the queue's length. -/
def grantSlots (core : Nat) : Nat → State → State
  | 0, s => s
  | fuel + 1, s =>
    match (s.core core).unitQueue.find? fun w => !w.granted with
    | none => s
    | some w =>
      if s.freeSlots core < w.slots then s
      else
        let s1 := s.updCore core fun co =>
          { co with unitQueue := co.unitQueue.map fun (x : UnitWait) => if x = w then { x with granted := true } else x }
        grantSlots core fuel (s1.wakeRetry w.crew w.lane)

/-- Slots of a core may have been released: those that wait take them. -/
def slotsFreed (s : State) (core : Nat) : State :=
  if (s.core core).unitQueue.isEmpty then s
  else
    let s := s.updCore core fun co => { co with unitQueue := co.unitQueue.filter s.stillWaits }
    grantSlots core (s.core core).unitQueue.length s

end State

/-! ### Entering and leaving the unit -/

namespace State

/-- A ray or a dual traversal waits for a slot, behind those that wait already (R300). -/
def queueUnit (s : State) (ci key : Nat) : State :=
  let core := s.coreOf ci
  if (s.core core).unitQueue.any fun w => w.crew == ci && w.lane == key then s
  else (s.updCore core fun co => { co with unitQueue := co.unitQueue ++ [⟨ci, key, 1, 0, false⟩] }).slotsFreed core

/-- Whether a slot is promised to a ray or a dual traversal. -/
def promised (s : State) (ci key : Nat) : Bool :=
  (s.core (s.coreOf ci)).unitQueue.any fun w => w.crew == ci && w.lane == key && w.granted

/-- Its wait is over. -/
def unqueue (s : State) (ci key : Nat) : State :=
  s.updCore (s.coreOf ci) fun co => { co with unitQueue := co.unitQueue.filter fun w => !(w.crew == ci && w.lane == key) }

def setRay (s : State) (i : Nat) (y : Ray) : State := { s with rays := s.rays.set i y }

/-- The bytes of a record in a crew's scratchpad. -/
def recordAt (s : State) (ci off : Nat) : BitVec 1024 :=
  BitVec.ofNat 1024 ((s.crews[ci]?.map fun cr => cr.scratch.nat off 128).getD 0)

/-- The unit writes a ray's record back with a STATUS. -/
def putRecord (s : State) (y : Ray) (status : Nat) : State :=
  s.scratchStore y.crew y.off (leBytes 128 (rayCtlSet y.record 7 0 status).toNat)

/-- The unit writes a STATUS into a record in the scratchpad, and nothing else of it. -/
def putStatus (s : State) (y : Ray) (status : Nat) : State := s.scratchStore y.crew (y.off + 88) (leBytes 1 status)

/-- The status word of R314. -/
def rayResult (r : BitVec 1024) (kind : Nat) : Nat :=
  let st := rayStatus r
  st + (if st = 0x13 then kind * 2 ^ 8 else 0) + (if st = 0x10 ∨ st = 0x11 then rayCtl r 63 48 * 2 ^ 16 else 0)

/-- The completion of a TRACE, TRES or TRACEP once no ray of its lane is left to end (R314, R316, R318, R320): a
failed ray's trap at the bundle, or the result in D. -/
def finishTrace (s : State) (y : Ray) (kind : Nat) : State :=
  let mine (x : Ray) : Bool := x.crew == y.crew && x.lane == y.lane
  if s.rays.any fun x => mine x && x.failed.isNone then s
  else
    let s1 := { s with rays := s.rays.filter fun x => !mine x }
    match (s.rays.find? mine).bind fun x => x.failed with
    | some (t, a) => s1.trapThread y.crew y.lane t (BitVec.ofNat 56 a)
    | none =>
      match s.thread? y.crew y.lane, s.crews[y.crew]? with
      | some th, some cr =>
        let v :=
          match th.pendWait with
          | some (.tracep n first) =>
            ((List.range n).filter fun i => isSuspension (rayStatus (s.recordAt y.crew (first + 128 * i)))).length
          | _ => rayResult (s.recordAt y.crew y.off) kind
        match th.run with
        | .parked (.trace d) =>
          (s1.updLane y.crew y.lane fun l => l.setV d ⟨BitVec.ofNat 32 v, List.replicate cr.t 0⟩).wakeCont y.crew y.lane
        | _ => s1
      | _, _ => s1

/-- A ray has taken its step past the access that it was stopped on: its fill is consumed (R205). -/
def rayReplayed (s : State) (y : Ray) : State :=
  match y.faultAt with
  | some (a, _) => s.replayed y.crew y.key a
  | none => s

/-- Ray `i` ends or suspends with a STATUS: its record is written and its slot released. -/
def endRay (s : State) (i : Nat) (y : Ray) (status kind : Nat) : State :=
  let s1 := (s.putRecord y status).rayReplayed y
  ({ s1 with rays := s1.rays.eraseIdx i }.finishTrace y kind).slotsFreed (s.coreOf y.crew)

/-- Ray `i` ends so that its thread will trap (R318, R320). -/
def failRay (s : State) (i : Nat) (y : Ray) (t : Trap) (a : Nat) : State :=
  ((s.setRay i { y with inUnit := false, failed := some (t, a) }).finishTrace y 0).slotsFreed (s.coreOf y.crew)

end State

/-- RAY_END_OR_SUSPEND: ray `i` walks to its end or to a suspension (R309, R314, R320). -/
def execRayEndOrSuspend (i : Nat) (s : State) : Out :=
  match s.rays[i]? with
  | none => .next s
  | some y =>
    if !y.inUnit then .next s
    else
      match rayWalk raySteps s y (some y.key) with
      | .stopped s1 y1 st k => .next (s1.endRay i y1 st k)
      | .failed s1 y1 t a => .next (((s1.putRecord y1 0x23).rayReplayed y1).failRay i y1 t a)
      | .more s1 y1 => .next ((s1.rayReplayed y1).setRay i { y1 with faultAt := none })
      | .held _ _ _ _ _ => .next s

/-- RAY_FAULT_STOP: a translation fault stops ray `i` before the step that needed the access (R320). -/
def execRayFaultStop (i : Nat) (s : State) : Out :=
  match s.rays[i]? with
  | none => .next s
  | some y =>
    if !y.inUnit then .next s
    else
      match rayWalk raySteps s y (some y.key) with
      | .held s1 y1 a w item =>
        let s2 := (s1.putRecord y1 0).rayReplayed y1
        .next (((s2.setRay i { y1 with inUnit := false, faultAt := some (a, item) }).takeEntry y1.crew y1.key a w).2.slotsFreed
          (s.coreOf y.crew))
      | _ => .next s

/-- Whether a ray still waits for the fault that stopped it, or for an entry of the fault buffer. -/
def rayWaits (s : State) (y : Ray) : Bool :=
  let co := s.core (s.coreOf y.crew)
  co.faultQueue.any (fun w => w.crew == y.crew && w.key == y.key) ||
    co.faults.any fun e => e.crew == y.crew && e.fill.isNone && e.waiters.any fun w => w.key == y.key

/-- RAY_REENTER: a ray outside the unit takes a slot again, in the order of R300, and continues from its record (R318,
R320, R321). -/
def execRayReenter (i : Nat) (s : State) : Out :=
  match s.rays[i]? with
  | none => .next s
  | some y =>
    let parked := (s.thread? y.crew y.lane).any fun t =>
      match t.run with
      | .parked (.trace d) => d < 64
      | _ => false
    if y.inUnit || y.failed.isSome || !parked || rayWaits s y then .next s
    else
      let s1 := s.queueUnit y.crew y.key
      if !s1.promised y.crew y.key then .next s1
      else
        let s2 := s1.unqueue y.crew y.key
        let r := s2.recordAt y.crew y.off
        if rayBad r then .next (s2.failRay i y .illegalOperand 0)
        else .next (s2.setRay i { y with record := rayCtlSet r 7 0 0, inUnit := true })

/-! ### TRACE, TRACEP and TRES (R313-R316) -/

/-- Whether a parked thread's traversal names a record. -/
def Thread.traces (t : Thread) (off : Nat) : Bool :=
  match t.run, t.pendWait with
  | .parked (.trace _), some (.trace o) => off == o
  | .parked (.trace _), some (.tracep n o) => (List.range n).any fun i => off == o + 128 * i
  | _, _ => false

/-- Whether a record's ray is in flight: in the unit, or named by a thread that is parked in its traversal (R318). -/
def State.rayFlying (s : State) (ci off : Nat) : Bool :=
  (s.rays.any fun y => y.crew == ci && y.off == off) ||
    (s.crews[ci]?).any fun cr => cr.lanes.any fun l => l.thread?.any fun t => t.traces off

/-- A lane parks until its slots are free (R300). -/
def waitSlots (c : Ctx) (n : Nat) (s : State) (t : Nat) : State :=
  (s.parkLane t (.rayUnit n) c.start c.start).updCore c.core fun co =>
    { co with unitQueue := co.unitQueue ++ [⟨c.ci, c.place t, n, c.start, false⟩] }

/-- What a lane's word was promised is its own, or given up. -/
def dropGrant (c : Ctx) (s : State) (t : Nat) : State :=
  s.updCore c.core fun co =>
    { co with unitQueue := co.unitQueue.filter fun w => !(w.granted && w.crew == c.ci && w.lane == c.place t) }

/-- The forms of TRES; none for TRACE. -/
abbrev TraceForm := Option Nat

/-- What a ray does first, by its word and its record (R314, R315, R323). -/
def rayBegins (form : TraceForm) (r : BitVec 1024) : RayBegin :=
  match form with
  | none => if rayReplays r then .replay else .start
  | some f =>
    if rayStatus r = 0x12 then .pending
    else if rayStatus r = 0x13 then .replayNext
    else .leaf f

/-- What a lane's word left of the slots that were promised to it goes to those that wait. -/
def regrant (c : Ctx) (f : State → Nat → State) (s : State) (t : Nat) : State := (f (dropGrant c s t) t).slotsFreed c.core

/-- TRACE and TRES in one lane (R314). -/
def traceLane (c : Ctx) (d a b : Code) (form : TraceForm) (s : State) (t : Nat) : State :=
  match s.crews[c.ci]? with
  | none => s
  | some cr =>
    let off := (c.r32 t a).toNat
    let g := (c.prim t .i64 b).toNat
    let r := s.recordAt c.ci off
    let logs := rayLogs r || rayReplays r
    let gFault : Option (Trap × Nat) :=
      if !logs then none
      else if g % 16 ≠ 0 then some (.misaligned, 0)
      else if 2 ^ 56 ≤ g then some (.fault causeAddress, g % 2 ^ 56)
      else if isWindow g then
        match s.window c.ci g with
        | .trap tr x => some (tr, x)
        | .ok w =>
          if w.kind = 0 ∧ ((s.crews[w.crew]?).any fun cr => decide (w.off + 16 ≤ cr.alloc)) = true then none
          else some (.fault causeWindow, g)
        | _ => none
      else none
    let okStatus : Bool :=
      match form with
      | none => true
      | some f => isSuspension (rayStatus r) && (f == 0 || rayStatus r == 0x10 || rayStatus r == 0x11)
    if off % 128 ≠ 0 then failLane c t .misaligned 0 s
    else if cr.alloc < off + 128 ∨ cr.meetsQueue off 128 then failLane c t .resource 0 s
    else if s.rayFlying c.ci off then failLane c t .engineStatus 0 s
    else if rayBad r then failLane c t .illegalOperand 0 s
    else
      match gFault with
      | some (tr, x) => failLane c t tr x s
      | none =>
        if !okStatus then failLane c t .engineStatus 0 s
        else if s.freeSlots c.core = 0 then waitSlots c 1 s t
        else
          let y : Ray := ⟨c.ci, c.place t, off, rayCtlSet r 7 0 0, g, true, none, none, false, rayBegins form r,
            ((s.thread? c.ci (c.place t)).map fun th => th.interval).getD 0, s.moves.length⟩
          let s1 := (s.released c t)
          let s2 := if form.isNone then s1.closes c t else s1
          ({ s2 with rays := s2.rays ++ [y] }.parkLane t (.trace d.toNat) c.start c.next).updThread c.ci (c.place t)
            fun th => { th with pendWait := some (.trace off) }

/-- What the records of a packet must share (R316). -/
def packetKey (r : BitVec 1024) : List Nat :=
  [rayRoot r, rayCtl r 34 34, rayCtl r 47 40, rayCtl r 31 31, rayCtl r 30 30, rayCtl r 29 29, rayCtl r 28 28]

/-- TRACEP in one lane (R316). -/
def tracepLane (c : Ctx) (d a b : Code) (s : State) (t : Nat) : State :=
  match s.crews[c.ci]? with
  | none => s
  | some cr =>
    let off := (c.r32 t a).toNat
    let n := (c.r32 t b).toNat
    let offs := (List.range n).map fun i => off + 128 * i
    let rs := offs.map (s.recordAt c.ci)
    if off % 128 ≠ 0 then failLane c t .misaligned 0 s
    else if n = 0 ∨ 64 < n then failLane c t .illegalOperand 0 s
    else if cr.alloc < off + 128 * n ∨ cr.meetsQueue off (128 * n) then failLane c t .resource 0 s
    else if offs.any (s.rayFlying c.ci) then failLane c t .engineStatus 0 s
    else if rs.any (fun r => rayBad r || rayLogs r || rayReplays r) ||
        (rs.any fun r => packetKey r != packetKey (rs.headD 0)) then failLane c t .illegalOperand 0 s
    else if s.freeSlots c.core < n then waitSlots c n s t
    else
      let ys := (offs.zip rs).map fun x =>
        (⟨c.ci, c.place t, x.1, rayCtlSet x.2 7 0 0, 0, true, none, none, true, .start,
          ((s.thread? c.ci (c.place t)).map fun th => th.interval).getD 0, s.moves.length⟩ : Ray)
      let s1 := (s.released c t).closes c t
      ({ s1 with rays := s1.rays ++ ys }.parkLane t (.trace d.toNat) c.start c.next).updThread c.ci (c.place t)
        fun th => { th with pendWait := some (.tracep n off) }

/-- TRACE: R314. -/
def execTrace (d : BitVec 6) (a : BitVec 6) (c : BitVec 6) (s : State) : Out :=
  frame ⟨true, [.block 1 1 d, .src .i32 a, .src .i64 c], true⟩ s fun k s => eachLane k.active (regrant k (traceLane k d a c none)) s

/-- TRACEP: R316. -/
def execTracep (d : BitVec 6) (a : BitVec 6) (c : BitVec 6) (s : State) : Out :=
  frame ⟨true, [.block 1 1 d, .src .i32 a, .src .i32 c], true⟩ s fun k s => eachLane k.active (regrant k (tracepLane k d a c)) s

/-- TRES: R314. -/
def execTres (d : BitVec 6) (a : BitVec 6) (c : BitVec 6) (s : State) : Out :=
  frame ⟨true, [.block 1 1 d, .src .i32 a, .src .i64 c], true⟩ s fun k s =>
    eachLane k.active (regrant k (traceLane k d a c (some 0))) s

/-- TRES.acc: R314. -/
def execTresAcc (d : BitVec 6) (a : BitVec 6) (c : BitVec 6) (s : State) : Out :=
  frame ⟨true, [.block 1 1 d, .src .i32 a, .src .i64 c], true⟩ s fun k s =>
    eachLane k.active (regrant k (traceLane k d a c (some 1))) s

/-- TRES.term: R314. -/
def execTresTerm (d : BitVec 6) (a : BitVec 6) (c : BitVec 6) (s : State) : Out :=
  frame ⟨true, [.block 1 1 d, .src .i32 a, .src .i64 c], true⟩ s fun k s =>
    eachLane k.active (regrant k (traceLane k d a c (some 2))) s

end Sys2Proof.Machine
end

