-- ==== Sys2Proof/Machine/Pairs.lean ====
section
/-!
DEFINITION. Dual traversal and reprojection: XPAIR, XPAIR_COMPLETE, REPROJ, REPROJ_OPERATION (R324-R331).
-/

namespace Sys2Proof.Machine

open Sys2Proof
open Sys2Proof.Num (XR fp32)

/-! ### The pair record (R324) -/

def pairCtl (r : BitVec 1024) (hi lo : Nat) : Nat := bitsOf r (256 + hi) (256 + lo)
def pairCtlSet (r : BitVec 1024) (hi lo v : Nat) : BitVec 1024 := setBits r (256 + hi) (256 + lo) v
def pairStatus (r : BitVec 1024) : Nat := pairCtl r 7 0
def pairDepth (r : BitVec 1024) : Nat := pairCtl r 13 8
def pairPrec (r : BitVec 1024) : Bool := decide (pairCtl r 14 14 = 1)
def pairMaskA (r : BitVec 1024) : Nat := pairCtl r 23 16
def pairMaskB (r : BitVec 1024) : Nat := pairCtl r 31 24
def pairRsc (r : BitVec 1024) : Nat := pairCtl r 35 34
def pairRootA (r : BitVec 1024) : Nat := recGet r 0 7
def pairRootB (r : BitVec 1024) : Nat := recGet r 8 7
def pairQueue (r : BitVec 1024) : Nat := recGet r 16 7
def pairStamp (r : BitVec 1024) : Nat := recGet r 24 7
def pairSeq (r : BitVec 1024) : Nat := recGet r 40 4
def pairEmit (r : BitVec 1024) : Nat := recGet r 48 8
def pairTrail (r : BitVec 1024) (d : Nat) : Nat := bitsOf r (448 + 4 * d + 3) (448 + 4 * d)
def pairTrailSet (r : BitVec 1024) (d j : Nat) : BitVec 1024 := setBits r (448 + 4 * d + 3) (448 + 4 * d) j

/-- Whether the unit refuses a pair record (R326). -/
def pairReject (r : BitVec 1024) : Bool :=
  decide (pairStatus r ≠ 0 ∧ pairStatus r ≠ 0x0C ∧ pairStatus r ≠ 0x0F) ||
    ([7, 15, 23, 31].any fun b => decide (recGet r b 1 ≠ 0)) ||
    decide (pairCtl r 15 15 ≠ 0 ∨ pairCtl r 63 36 ≠ 0 ∨ recGet r 44 4 ≠ 0 ∨ recGet r 88 40 ≠ 0) ||
    decide (pairQueue r % 64 ≠ 0 ∨ 62 < pairDepth r ∨ pairRootA r % nodeUnit (pairPrec r) ≠ 0 ∨
      pairRootB r % nodeUnit (pairPrec r) ≠ 0)

/-! ### The walk (R326) -/

/-- A reference: a node or a leaf with its box, and its depth in its own hierarchy. -/
structure PairRef where
  kind : Nat
  addr : Nat
  lo : List XR
  hi : List XR
  depth : Nat

/-- A root: its box is unbounded. -/
def PairRef.root (a : Nat) : PairRef := ⟨1, a, List.replicate 3 (.inf true), List.replicate 3 (.inf false), 0⟩

/-- Whether two boxes overlap (R326). -/
def PairRef.overlaps (a b : PairRef) : Bool :=
  [0, 1, 2].all fun i =>
    xle (a.lo.getD i .nan) (b.hi.getD i .nan) && xle (b.lo.getD i .nan) (a.hi.getD i .nan)

/-- The candidate children of a reference's node. -/
def pairKids (fetch : Nat → Walked (List Child)) (x : PairRef) (mask : Nat) : Walked (List PairRef) :=
  (fetch x.addr).bind fun cs =>
    .ok ((cs.filter fun c => c.mask &&& mask ≠ 0).map fun c => ⟨c.kind, c.addr, c.lo, c.hi, x.depth + 1⟩)

/-- The list of a pair (R326). -/
def pairList (fetch : Nat → Walked (List Child)) (r : BitVec 1024) (a b : PairRef) : Walked (List (PairRef × PairRef)) :=
  let keep (xs : List (PairRef × PairRef)) := xs.filter fun x => x.1.overlaps x.2
  if a.kind = 1 ∧ b.kind = 1 then
    (pairKids fetch a (pairMaskA r)).bind fun xs => (pairKids fetch b (pairMaskB r)).bind fun ys =>
      .ok (keep (xs.flatMap fun x => ys.map fun y => (x, y)))
  else if a.kind = 1 then (pairKids fetch a (pairMaskA r)).bind fun xs => .ok (keep (xs.map fun x => (x, b)))
  else if b.kind = 1 then (pairKids fetch b (pairMaskB r)).bind fun ys => .ok (keep (ys.map fun y => (a, y)))
  else .bad

/-- The lists along the path that TRAIL names, from depth `d` on, `n` levels further down. -/
def pairPath (fetch : Nat → Walked (List Child)) (r : BitVec 1024) :
    Nat → Nat → PairRef → PairRef → Walked (List (List (PairRef × PairRef)))
  | 0, _, a, b => (pairList fetch r a b).bind fun l => .ok [l]
  | n + 1, d, a, b =>
    (pairList fetch r a b).bind fun l =>
      match l[pairTrail r d]? with
      | some (x, y) => (pairPath fetch r n (d + 1) x y).bind fun ls => .ok (l :: ls)
      | none => .bad

/-- `advance` and `pop` of R309 on a pair record, by the lengths of the lists: the record, and whether the walk is
over. -/
def pairAdvance (len : Nat → Nat) : Nat → BitVec 1024 → BitVec 1024 × Bool
  | d, r =>
    if pairTrail r d + 1 < len d then (pairTrailSet r d (pairTrail r d + 1), false)
    else
      match d with
      | 0 => (r, true)
      | d' + 1 => pairAdvance len d' (pairCtlSet (pairTrailSet r (d' + 1) 0) 13 8 d')

/-- `pop` at depth `d`. -/
def pairPop (len : Nat → Nat) (d : Nat) (r : BitVec 1024) : BitVec 1024 × Bool :=
  match d with
  | 0 => (r, true)
  | d' + 1 => pairAdvance len d' (pairCtlSet (pairTrailSet r (d' + 1) 0) 13 8 d')

/-- A leaf-pair record (R325). -/
def pairRecord (a b : PairRef) : Nat := b.kind * 2 ^ 126 + b.addr * 2 ^ 64 + a.kind * 2 ^ 62 + a.addr

/-- Plumb's view of an operation's accesses. -/
def plumbPair (s : State) (op : XPairOp) (a n : Nat) (write : Bool) : State :=
  s.plumbEngine (some op.crew) op.wid op.interval op.pc.toNat a n (pairRsc op.record) write

/-- The mark of an operation among those that R231 lets race: it writes in steps. -/
def XPairOp.tag (op : XPairOp) : Nat := 1 + op.crew * 2 ^ 32 + op.off

/-- A write of an operation to global memory, as one of those in flight (R231). -/
def pairPut (s : State) (op : XPairOp) (a : Nat) (bs : List Byte) : Walked State :=
  match s.crews[op.crew]? with
  | none => .bad
  | some cr =>
    let say (s : State) (va : Nat) : State := plumbPair s op va 4 true
    (((State.unitAddr a).bind fun _ => Acc.all (s.outWords (some op.crew) cr.part (dieOf cr.core) a 4 bs)).bind fun ws =>
      .ok (s.settleWords op.since op.tag true say ws)).walked a

/-- An emission (R327), and whether the queue had room for it; its header is read in any case. -/
def pairEmission (s : State) (op : XPairOp) (a b : PairRef) : Walked (State × Bool) :=
  let q := pairQueue op.record
  (s.unitRead op.crew none q 17).bind fun bs =>
    let h := leNat bs
    let s0 := plumbPair s op q 17 false
    let tail := fld h 63 0
    let room := 2 ^ (fld h 135 128)
    if room ≤ (tail + 2 ^ 64 - fld h 127 64) % 2 ^ 64 then .ok (s0, false)
    else
      let at_ := q + 64 + 16 * (tail % room)
      (pairPut s0 op at_ (leBytes 16 (pairRecord a b))).bind fun s1 =>
        (pairPut s1 op q (leBytes 8 (tail + 1))).bind fun s2 =>
          let p := (s.crews[op.crew]?.map fun cr => cr.part).getD 0
          .ok (s2.fireWaiters p q (pairRsc op.record), true)

/-- One step: the state, the record and, at its end, the status. -/
def pairStep (s : State) (op : XPairOp) : Walked (State × BitVec 1024 × Option Nat) :=
  let r := op.record
  let dep := pairDepth r
  let fetch (a : Nat) : Walked (List Child) := nodeAt s op.crew none (pairPrec r) a
  let next (s : State) (x : BitVec 1024 × Bool) : State × BitVec 1024 × Option Nat := (s, x.1, if x.2 then some 1 else none)
  (pairPath fetch r dep 0 (.root (pairRootA r)) (.root (pairRootB r))).bind fun ls =>
    let len (d : Nat) : Nat := (ls.getD d []).length
    match (ls.getD dep [])[pairTrail r dep]? with
    | none => .ok (next s (pairPop len dep r))
    | some (a, b) =>
      if (a.kind = 1 ∧ 31 < a.depth) ∨ (b.kind = 1 ∧ 31 < b.depth) then .ok (s, r, some 0x0E)
      else if a.kind = 1 ∨ b.kind = 1 then
        let deep (x : PairRef) (s : State) : State :=
          if x.kind = 1 then plumbPair s op x.addr (nodeUnit (pairPrec r)) false else s
        .ok (deep a (deep b s), pairTrailSet (pairCtlSet r 13 8 (dep + 1)) (dep + 1) 0, none)
      else
        (pairEmission s op a b).bind fun x =>
          if x.2 then .ok (next x.1 (pairAdvance len dep (recSet r 48 8 (pairEmit r + 1))))
          else .ok (x.1, r, some 0x0C)

/-- The walk, fuel: steps.  An operation whose walk is over carries its status; one held on a translation fault
says so. -/
def pairWalk : Nat → State → XPairOp → State × XPairOp × Bool
  | 0, s, op => (s, op, false)
  | fuel + 1, s, op =>
    let ends (st : Nat) : State × XPairOp × Bool := (s, { op with outcome := some st, refused := false }, false)
    match pairStep s op with
    | .ok (s1, r, none) => pairWalk fuel s1 { op with record := r }
    | .ok (s1, r, some st) => (s1, { op with record := r, outcome := some st }, false)
    | .bad => ends 0x0D
    | .held _ _ _ => if op.refused then ends 3 else (s, op, true)
    | .fail _ _ => ends 3
    | .poison => ends 3

/-- A reserved field or LCAP of a record queue's header (R325, R5). -/
def recordQueueBad (h : Nat) : Bool := decide (24 < fld h 135 128 ∨ fld h 143 137 ≠ 0 ∨ fld h 511 144 ≠ 0)

/-- The start of an operation (R326): the checks, the queue's header, BUSY, and the two roots, which every walk reads. -/
def pairStart (s : State) (op : XPairOp) : State × XPairOp × Bool :=
  let r := op.record
  let ends (s : State) (op : XPairOp) (st : Nat) : State × XPairOp × Bool :=
    (s, { op with outcome := some st, refused := false, started := true }, false)
  if pairReject r then ends s op 2
  else
    let fresh : BitVec 1024 := recSet (recSet (pairCtlSet r 13 8 0) 48 8 0) 56 32 0
    let op1 := { (if pairStatus r = 0 then { op with record := fresh } else op) with since := s.moves.length }
    let q := pairQueue r
    match s.unitRead op.crew none q 64 with
    | .ok bs =>
      let h := leNat bs
      let s0 := plumbPair s op q 64 false
      if recordQueueBad h || bitAt h 136 then ends s0 op 2
      else
        match pairPut s0 op1 (q + 17) [1] with
        | .ok s1 =>
          let root (a : Nat) (s : State) : State := plumbPair s op a (nodeUnit (pairPrec r)) false
          (root (pairRootA r) (root (pairRootB r) s1), { op1 with started := true, busy := true }, false)
        | .held _ _ _ => if op.refused then ends s0 op1 3 else (s, op, true)
        | _ => ends s0 op1 3
    | .held _ _ _ => if op.refused then ends s op1 3 else (s, op, true)
    | _ => ends s op1 3

namespace State

def setPair (s : State) (i : Nat) (op : XPairOp) : State := { s with xpairs := s.xpairs.set i op }

/-- The end of an operation (R328): BUSY is cleared, the record written, then the stamp.  An operation that a
fault holds keeps what is still owed, and gives up its slot. -/
def endPair (s : State) (i : Nat) (op : XPairOp) (status : Nat) : State :=
  let held (s : State) (op : XPairOp) : State :=
    (s.setPair i { op with inUnit := false }).slotsFreed (s.coreOf op.crew)
  let cleared : Option (State × XPairOp × Nat) :=
    if !op.busy then some (s, op, status)
    else
      match pairPut s op (pairQueue op.record + 17) [0] with
      | .ok s1 => some (s1, { op with busy := false }, status)
      | .held _ _ _ => if op.refused then some (s, { op with busy := false, refused := false }, 3) else none
      | _ => some (s, { op with busy := false }, 3)
  match cleared with
  | none => held s { op with outcome := some status }
  | some (s1, op1, st0) =>
    let st := if st0 ≠ 2 ∧ s.staleStamp op.crew (pairStamp op.record) then 4 else st0
    let s2 :=
      if op1.saved ∨ st = 2 then s1
      else s1.scratchStore op.crew op.off (leBytes 128 (pairCtlSet op.record 7 0 st).toNat)
    let gone (s : State) : State := { s with xpairs := s.xpairs.eraseIdx i }.slotsFreed (s.coreOf op.crew)
    let p := (s.crews[op.crew]?.map fun cr => cr.part).getD 0
    match s2.stamp (some op.crew) p (pairStamp op.record) (pairSeq op.record) st 0 (pairRsc op.record) op1.refused with
    | .written s3 => gone (plumbPair s3 op (pairStamp op.record) 8 true)
    | .lost => gone s2
    | .held => held s2 { op1 with outcome := some st, saved := true }

/-- A pre-emption of the issuing crew stops an operation between two steps (R328). -/
def pausePair (op : XPairOp) : XPairOp :=
  if op.outcome.isSome then op
  else if !op.started && pairReject op.record then { op with started := true, outcome := some 2 }
  else
    let fresh := recSet (recSet (pairCtlSet op.record 13 8 0) 48 8 0) 56 32 0
    let r := if !op.started && decide (pairStatus op.record = 0) then fresh else op.record
    { op with started := true, record := r, outcome := some 0x0F }

/-- Operation `i` runs as far as it can. -/
def runPair (s : State) (i : Nat) (op : XPairOp) : State :=
  let x := if op.outcome.isSome ∨ op.started then (s, op, false) else pairStart s op
  let y := if x.2.2 || x.2.1.outcome.isSome then x else pairWalk raySteps x.1 x.2.1
  match y.2.1.outcome with
  | some st => y.1.endPair i y.2.1 st
  | none =>
    if y.2.2 then (y.1.setPair i { y.2.1 with inUnit := false }).slotsFreed (s.coreOf op.crew)
    else y.1.setPair i y.2.1

end State

/-- Whether an operation outside the unit is still held on its fault: it would stop again where it stands. -/
def pairHeld (s : State) (i : Nat) (op : XPairOp) : Bool :=
  let s1 := (s.setPair i { op with inUnit := true }).runPair i { op with inUnit := true }
  s1.xpairs.length == s.xpairs.length && s1.xpairs[i]? == some { op with inUnit := false }

/-- XPAIR_COMPLETE: operation `i` walks to its end or stops, and reports it (R326-R328).  One that a fault held takes a
slot again, in the order of R300, once the fault is resolved; one whose fault was refused only ends. -/
def execXpairComplete (i : Nat) (s : State) : Out :=
  match s.xpairs[i]? with
  | none => .next s
  | some op =>
    let run (s : State) : Out := .next ((s.setPair i { op with inUnit := true }).runPair i { op with inUnit := true })
    if op.inUnit || op.refused then run s
    else if pairHeld s i op then .next s
    else
      let s1 := s.queueUnit op.crew op.key
      if s1.promised op.crew op.key then run (s1.unqueue op.crew op.key) else .next s1

/-- XPAIR in one lane (R326). -/
def xpairLane (c : Ctx) (a : Code) (s : State) (t : Nat) : State :=
  match s.crews[c.ci]?, s.thread? c.ci (c.place t) with
  | some cr, some th =>
    let off := (c.r32 t a).toNat
    let r := s.recordAt c.ci off
    if off % 128 ≠ 0 then failLane c t .misaligned 0 s
    else if cr.alloc < off + 128 ∨ cr.meetsQueue off 128 then failLane c t .resource 0 s
    else if pairStamp r % 8 ≠ 0 then failLane c t .misaligned 0 s
    else if s.freeSlots c.core = 0 then waitSlots c 1 s t
    else
      let op : XPairOp := ⟨c.ci, off, r, true, false, false, false, none, false, cr.wid th.tid, th.interval, c.start,
        s.moves.length⟩
      ({ s with xpairs := s.xpairs ++ [op] }.released c t).closes c t
  | _, _ => s

/-- XPAIR: R326. -/
def execXpair (a : BitVec 6) (s : State) : Out :=
  frame ⟨true, [.src .i32 a], true⟩ s fun k s => eachLane k.active (regrant k (xpairLane k a)) s

/-! ### Reprojection (R330, R331) -/

def rpList (p : BitVec 512) : Nat := bitsOf p 511 448
def rpDst (p : BitVec 512) : Nat := bitsOf p 447 384
def rpMv (p : BitVec 512) : Nat := bitsOf p 383 320
def rpSrc (p : BitVec 512) : Nat := bitsOf p 319 256
def rpTol (p : BitVec 512) : XR := Num.decodeF fp32 (bitsOf p 255 224)
def rpCap (p : BitVec 512) : Nat := bitsOf p 223 192
def rpStamp (p : BitVec 512) : Nat := bitsOf p 183 128
def rpSeq (p : BitVec 512) : Nat := bitsOf p 127 96
def rpW (p : BitVec 512) : Nat := bitsOf p 63 50 + 1
def rpH (p : BitVec 512) : Nat := bitsOf p 49 36 + 1
def rpAsc (p : BitVec 512) : Nat := bitsOf p 35 34
def rpRsc (p : BitVec 512) : Nat := bitsOf p 33 32
/-- Pixels of the buffers. -/
def rpN (p : BitVec 512) : Nat := rpW p * rpH p

/-- Whether the unit refuses a block (R331). -/
def rpReject (p : BitVec 512) : Bool :=
  let n := rpN p
  let src := (rpSrc p, 8 * n)
  let mv := (rpMv p, 16 * n)
  let dst := (rpDst p, 8 * n)
  let list := (rpList p, 64 + 4 * rpCap p)
  let tolBad : Bool :=
    match rpTol p with
    | .fin _ q => decide (q < 0)
    | _ => true
  decide (bitsOf p 191 184 ≠ 0 ∨ bitsOf p 95 64 ≠ 0 ∨ bitsOf p 31 0 ≠ 0) ||
    ([rpList p, rpDst p, rpMv p, rpSrc p].any fun a => decide (a % 64 ≠ 0 ∨ 2 ^ 56 ≤ a)) || tolBad ||
    meets dst src || meets dst mv || meets list src || meets list mv || meets list dst

/-- A candidate at a target: the depth and its encoding, the source pixel, the ID. -/
structure Splat where
  z : Rat
  enc : Nat
  i : Nat
  id : Nat

/-- Where a source pixel lands, and whether it raises INV. -/
def splat (p : BitVec 512) (src mv : List Byte) (i : Nat) : Option (Nat × Splat) × Bool :=
  let num (l : List Byte) (a : Nat) : Nat := leNat ((l.drop a).take 4)
  let id := num src (8 * i + 4)
  let dx := Num.decodeF fp32 (num mv (16 * i))
  let dy := Num.decodeF fp32 (num mv (16 * i + 4))
  let dz := Num.decodeF fp32 (num mv (16 * i + 8))
  if id = 0xFFFFFFFF then (none, false)
  else if !(dx.isFin && dy.isFin && dz.isFin) then (none, true)
  else
    let qx := Num.roundInt .rne (((i % rpW p : Nat) : Rat) + dx.rat)
    let qy := Num.roundInt .rne (((i / rpW p : Nat) : Rat) + dy.rat)
    if 0 ≤ qx ∧ qx < rpW p ∧ 0 ≤ qy ∧ qy < rpH p then
      (some (qy.toNat * rpW p + qx.toNat, ⟨dz.rat, num mv (16 * i + 8), i, id⟩), false)
    else (none, false)

/-- The least of a target's candidates by (dz, i); they come in ascending i. -/
def nearest : List Splat → Option Splat
  | [] => none
  | x :: xs =>
    match nearest xs with
    | none => some x
    | some y => if y.z < x.z then some y else some x

/-- A target pixel: its entry's depth and ID, and whether it is traced anew. -/
def target (p : BitVec 512) (cs : List Splat) : Nat × Nat × Bool :=
  match nearest cs with
  | none => (Num.infEnc fp32 false, 0xFFFFFFFF, true)
  | some w =>
    let mag : Rat := if w.z < 0 then -w.z else w.z
    (w.enc, w.id, cs.any fun c => c.id != w.id && decide (c.z ≤ w.z + (rpTol p).rat * mag))

/-- What an operation writes: the new buffer, the list, the status, and whether INV is raised. -/
def reproject (p : BitVec 512) (src mv : List Byte) : List Byte × List Byte × Nat × Bool :=
  let hits := (List.range (rpN p)).map (splat p src mv)
  let landed := hits.filterMap Prod.fst
  let ts := (List.range (rpN p)).map fun q => target p ((landed.filter fun x => x.1 == q).map Prod.snd)
  let again := (ts.zipIdx.filter fun x => x.1.2.2).map Prod.snd
  (ts.flatMap fun t => leBytes 4 t.1 ++ leBytes 4 t.2.1,
    leBytes 64 again.length ++ (again.take (rpCap p)).flatMap (leBytes 4),
    if rpCap p < again.length then 0x10 else 1, hits.any Prod.snd)

namespace State

def setReproj (s : State) (k i : Nat) (op : ReprojOp) : State :=
  s.updCluster k fun K => { K with reproj := K.reproj.set i op }

/-- Whether a unit's queue has an entry that is neither taken nor promised. -/
def reprojRoom (s : State) (k : Nat) : Bool :=
  decide ((s.cluster k).reproj.length + ((s.cluster k).reprojQueue.filter s.stillGranted).length < Config.reprojEntries)

/-- Threads parked on a unit's queue take entries in the order in which they parked.  Fuel: those that wait. -/
def grantReproj (k : Nat) : Nat → State → State
  | 0, s => s
  | fuel + 1, s =>
    match (s.cluster k).reprojQueue.find? fun w => !w.granted with
    | none => s
    | some w =>
      if !s.reprojRoom k then s
      else
        let s1 := s.updCluster k fun K =>
          { K with reprojQueue := K.reprojQueue.map fun (x : UnitWait) => if x = w then { x with granted := true } else x }
        grantReproj k fuel (s1.wakeRetry w.crew w.lane)

/-- Entries of a unit's queue may have been freed: those that wait take them (R331). -/
def reprojFreed (s : State) (k : Nat) : State :=
  if (s.cluster k).reprojQueue.isEmpty then s
  else
    let s := s.updCluster k fun K => { K with reprojQueue := K.reprojQueue.filter s.stillWaits }
    grantReproj k (s.cluster k).reprojQueue.length s

/-- An operation leaves the queue; the first thread parked on it takes its entry (R331). -/
def freeReproj (s : State) (k i : Nat) : State :=
  (s.updCluster k fun K => { K with reproj := K.reproj.eraseIdx i }).reprojFreed k

/-- The stamp of an operation. -/
def stampReproj (s : State) (k i : Nat) (op : ReprojOp) (status : Nat) (flags : BitVec 6) : State :=
  let p := op.block
  let part := (s.crews[op.crew]?.map fun cr => cr.part).getD 0
  match s.stamp (some op.crew) part (rpStamp p) (rpSeq p) status flags (rpRsc p) op.refused with
  | .written s1 =>
    (s1.plumbEngine (some op.crew) op.wid op.interval op.pc.toNat (rpStamp p) 8 (rpRsc p) true).freeReproj k i
  | .lost => s.freeReproj k i
  | .held => s.setReproj k i { op with outcome := some (status, flags) }

/-- Operation `i` of cluster `k`: none while a fault or a window holds it. -/
def runReproj (s : State) (k i : Nat) (op : ReprojOp) : Option State :=
  match s.crews[op.crew]?, op.outcome with
  | _, some (st, f) =>
    let s1 := s.stampReproj k i op st f
    if (s1.cluster k).reproj.length = (s.cluster k).reproj.length then none else some s1
  | none, none => none
  | some cr, none =>
    let p := op.block
    let ci := some op.crew
    let die := dieOf cr.core
    let op1 := { op with refused := false }
    let ends (s : State) (st : Nat) (f : BitVec 6) : Option State := some ((s.setReproj k i op1).stampReproj k i op1 st f)
    if rpReject p then ends s 2 0
    else
      let n := rpN p
      let both := (s.engineRead ci cr.part die (rpSrc p) (8 * n)).bind fun src =>
        (s.engineRead ci cr.part die (rpMv p) (16 * n)).bind fun mv => .ok (src, mv)
      match both with
      | .hold => none
      | .fault _ _ => if op.refused then ends s 3 0 else none
      | .trap .staleWindow _ => ends s 4 0
      | .trap _ _ => ends s 3 0
      | .poison => ends s 3 0
      | .ok (src, mv) =>
        let x := reproject p src mv
        let fl : BitVec 6 := flagIf x.2.2.2 flagInvalid
        let plumb (a n : Nat) (w : Bool) (s : State) : State :=
          s.plumbEngine ci op.wid op.interval op.pc.toNat a n (if w then rpRsc p else rpAsc p) w
        let seen := plumb (rpMv p) (16 * n) false (plumb (rpSrc p) (8 * n) false s)
        let out := s.outcomeOf (s.outWords ci cr.part die (rpDst p) 4 x.1 ++ s.outWords ci cr.part die (rpList p) 4 x.2.1)
        let put (whole : Bool) : State := seen.settleWords op.since 0 whole (fun s va => plumb va 4 true s) out.1
        match out.2 with
        | .ok _ => ends (put true) x.2.2.1 fl
        | .hold => none
        | .fault _ _ => if op.refused then ends (put false) 3 0 else none
        | .trap .staleWindow _ => ends seen 4 0
        | _ => ends (put false) 3 0

end State

/-- REPROJ_OPERATION: the unit of a cluster performs the first of its operations that can proceed (R331). -/
def execReprojOperation (cluster : Nat) (s : State) : Out :=
  let ops := (s.cluster cluster).reproj
  match ops.zipIdx.findSome? fun x => s.runReproj cluster x.2 x.1 with
  | some s1 => .next s1
  | none => .next s

/-- The entry that was promised to a lane's word is its own; what it leaves of it goes to those that wait (R331). -/
def ownReproj (c : Ctx) (f : State → Nat → State) (s : State) (t : Nat) : State :=
  let k := clusterOf c.core
  let s1 := s.updCluster k fun K =>
    { K with reprojQueue := K.reprojQueue.filter fun w => !(w.granted && w.crew == c.ci && w.lane == c.place t) }
  (f s1 t).reprojFreed k

/-- REPROJ in one lane (R331). -/
def reprojLane (c : Ctx) (a : Code) (s : State) (t : Nat) : State :=
  match s.crews[c.ci]?, s.thread? c.ci (c.place t) with
  | some cr, some th =>
    let off := (c.r32 t a).toNat
    let k := clusterOf c.core
    let p : BitVec 512 := BitVec.ofNat 512 (cr.scratch.nat off 64)
    if off % 64 ≠ 0 then failLane c t .misaligned 0 s
    else if cr.alloc < off + 64 then failLane c t .resource 0 s
    else if rpStamp p % 8 ≠ 0 then failLane c t .misaligned 0 s
    else if !s.reprojRoom k then
      (s.parkLane t .reprojQueue c.start c.start).updCluster k fun K =>
        { K with reprojQueue := K.reprojQueue ++ [⟨c.ci, c.place t, 1, c.start, false⟩] }
    else
      let op : ReprojOp := ⟨c.ci, p, false, none, cr.wid th.tid, th.interval, c.start, s.moves.length⟩
      (s.updCluster k fun K => { K with reproj := K.reproj ++ [op] }).released c t
  | _, _ => s

/-- REPROJ: R331. -/
def execReproj (a : BitVec 6) (s : State) : Out :=
  frame ⟨true, [.src .i32 a], true⟩ s fun k s => eachLane k.active (ownReproj k (reprojLane k a)) s

end Sys2Proof.Machine
end

