-- ==== Sys2Proof/Machine/Predicate.lean ====
section
/-!
DEFINITION. Probability predicates and random streams (R146-R164).
-/

namespace Sys2Proof.Machine

open Sys2Proof
open Sys2Proof.Num (FOp XR fp32)

/-! ### The predicate register (R146) -/

def qP (x : Reg) : Nat := bitsOf x.prim 15 0
def qTag (x : Reg) : Nat := bitsOf x.prim 23 16
def qDep (x : Reg) : Nat := bitsOf x.prim 24 24
/-- The fraction as a real (R54). -/
def qReal (x : Reg) : Rat := mkRat (qP x) 32768
/-- A Q register of given fraction, tag and dependence; its reserved bits are zero. -/
def qReg (p tag dep : Nat) (tan : List Word) : Reg := ⟨BitVec.ofNat 32 (p + tag * 2 ^ 16 + dep * 2 ^ 24), tan⟩
/-- A tangent word of a Q register: an FP32 value. -/
def tan32 (w : Word) : XR := Num.decodeF fp32 w.toNat

/-- The Q register that an index field names. -/
def Ctx.q (c : Ctx) (t : Nat) (code : Code) : Reg := (c.lane t).getQ code.toNat

/-- An exact tangent rounded to FP32 by RNE (R147). -/
def tanRne (x : XR) : Word := BitVec.ofNat 32 (Num.roundX fp32 .rne x).1

/-- One lane of PCMP (R151, R152) with the tag that its selector gives. -/
def pcmpLane (c : Ctx) (t : Nat) (F : FTy) (d a b : Code) (tag : Nat) : LaneOut :=
  let x := c.fop t F a
  let y := c.fop t F b
  let flags := flagIf (x.snan || y.snan) flagInvalid
  let tau := Num.decodeF fp32 c.cr.tempOld.toNat
  if tau.isZero then { q := some (d.toNat, c.hard (fcmp 4 x.x y.x)), flags := flags }
  else
    let diff := x.x.sub .rne y.x
    let zeros := List.replicate c.t 0
    let out (p : Nat) (tan : List Word) : LaneOut := { q := some (d.toNat, qReg p tag 0 tan), flags := flags }
    match diff with
    | .nan => out 0 zeros
    | .inf neg => out (if neg then 0 else 0x8000) zeros
    | .fin _ df =>
      let z := df / tau.rat
      let key := x.enc + 2 ^ 64 * y.enc
      let p := ((Num.sigmaR z).image fun q => Num.q15 (.ofRat q)).getD ((Config.unresolved 15 key 0).toNat % 0x8001)
      let tan (k : Nat) : Word :=
        let dt := (x.t k).sub .rne (y.t k)
        BitVec.ofNat 32 (match dt with
          | .fin n q => Num.roundCT 15 (key + 2 ^ 128 * (k + 1)) fp32 .rne ((Num.sigmaSlopeR z).scale (q / tau.rat)) n
          | w => (Num.roundX fp32 .rne w).1)
      out p ((List.range c.t).map tan)

/-- One lane of PSET (R156). -/
def psetLane (c : Ctx) (t : Nat) (d a : Code) (tag : Nat) : LaneOut :=
  let v := c.opnd t .f32 a
  let x := f32T.op v
  let inside : Bool := x.x.isFin && decide (0 ≤ x.x.rat ∧ x.x.rat ≤ 1)
  let tan (w : Dword) : Word := if inside then w.truncate 32 else 0
  { q := some (d.toNat, qReg (Num.q15 x.x) tag 0 (v.tan.map tan)), flags := flagIf x.snan flagInvalid }

/-- One lane of PAND or POR (R154, R155): the combined real, the combined tangents, the union of the
tags; with DTRAP a new overlap of tags traps. -/
def combineLane (c : Ctx) (t : Nat) (d a b : Code) (f : XR → XR → XR) (g : XR → XR → XR → XR → XR) : LaneOut :=
  let x := c.q t a
  let y := c.q t b
  let overlap : Bool := decide (qTag x &&& qTag y ≠ 0)
  if overlap && bitAt c.cr.mode.toNat 2 then { trap := some .dependentPredicate }
  else
    let p : XR := .ofRat (qReal x)
    let q : XR := .ofRat (qReal y)
    let tan (k : Nat) : Word := tanRne (g p q (tan32 (x.tan.getD k 0)) (tan32 (y.tan.getD k 0)))
    { q := some (d.toNat, qReg (Num.q15 (f p q)) (qTag x ||| qTag y) (qDep x ||| qDep y ||| overlap.toNat)
        ((List.range c.t).map tan)) }

/-- One lane of PBLEND (R157): `1 - p` has the sign of R57 where it is zero, and a NaN result has NaN tangents
(R133). -/
def pblendLane (c : Ctx) (t : Nat) (F : FTy) (q : BitVec 3) (a b : Code) : LaneOut :=
  let r := (c.lane t).getQ q.toNat
  let x := c.fop t F a
  let y := c.fop t F b
  let p : XR := .ofRat (qReal r)
  let p' : XR := (XR.ofRat 1).sub c.mode p
  let v : XR := if qP r = 0x8000 then x.x else if qP r = 0 then y.x else (p.mul x.x).add c.mode (p'.mul y.x)
  let yv := Num.arith F.fmt c.mode (if qP r = 0x8000 then [x] else if qP r = 0 then [y] else [x, y]) v
  let tan (k : Nat) : Dword :=
    let e := (((tan32 (r.tan.getD k 0)).mul (x.x.sub c.mode y.x)).add c.mode (p.mul (x.t k))).add c.mode (p'.mul (y.t k))
    BitVec.ofNat 64 (Num.roundX F.tfmt c.mode (if v.isNaN then .nan else e)).1
  { val := some ⟨F.ty.wide, BitVec.ofNat 64 yv.1, (List.range c.t).map tan⟩, flags := yv.2.toBits }

/-! ### Random streams (R159-R163) -/

def mix (z : Dword) : Dword :=
  let z := (z ^^^ (z >>> 30)) * 0xBF58476D1CE4E5B9
  let z := (z ^^^ (z >>> 27)) * 0x94D049BB133111EB
  z ^^^ (z >>> 31)

/-- key(a, b) of a thread or helper of the crew (R160). -/
def crewKey (cr : Crew) (tid : Nat) (a b : Dword) : Dword :=
  let id : Dword := (BitVec.ofNat 64 cr.num <<< 10) ||| BitVec.ofNat 64 tid
  mix (mix (mix (pktSalt cr.packet ^^^ id) ^^^ a) ^^^ b)
def streamKey (c : Ctx) (tid : Nat) (a b : Dword) : Dword := crewKey c.cr tid a b

/-- %tid as R28 gives it. -/
def Ctx.tid (c : Ctx) (t : Nat) : Nat := (c.lane t).tid (c.place t)

/-- The draw that a lane makes next. -/
def Ctx.draw (c : Ctx) (t : Nat) : Dword :=
  let l := c.lane t
  mix (l.key + l.ctr * 0x9E3779B97F4A7C15)
/-- The stream after a draw. -/
def Ctx.drawn (c : Ctx) (t : Nat) : LaneOut := { stream := some ((c.lane t).key, (c.lane t).ctr + 1) }

/-- A word that draws: guarded-off lanes advance their counters too (R163). -/
def drawWord (i : WordInfo) (n : Bool) (d : Code) (wide pushes : Bool) (f : Ctx → Nat → LaneOut) (s : State) : Out :=
  frame i s fun c s =>
    commit n d wide pushes (f c) c (s.mapLanes c.ci fun p l =>
      match c.laneOf p with
      | some t => if c.guardedOff t then { l with ctr := l.ctr + 1 } else l
      | none => l)

/-- PCMP: R151. -/
def execPcmp (b : Bool) (d : BitVec 6) (a : BitVec 6) (c : BitVec 6) (g : BitVec 1) (s : BitVec 3) (t : BitVec 2) (σ : State) : Out :=
  quietWord ⟨b, [.idx 8 d, .src (floatTy t) a, .src (floatTy t) c], g == 1#1 || s == 0#3⟩
    (fun k u => pcmpLane k u (FTy.ofCode t) d a c (if g == 1#1 then 2 ^ s.toNat else 0)) σ

/-- PSET: R156. -/
def execPset (b : Bool) (d : BitVec 6) (a : BitVec 6) (c : BitVec 6) (s : State) : Out :=
  quietWord ⟨b, [.idx 8 d, .src .f32 a], decide (c.toNat < 16) && (decide (8 ≤ c.toNat) || c == 0#6)⟩ (fun k t => psetLane k t d a (if 8 ≤ c.toNat then 2 ^ (c.toNat % 8) else 0)) s

/-- PAND: R154. -/
def execPand (b : Bool) (d : BitVec 6) (a : BitVec 6) (c : BitVec 6) (s : State) : Out :=
  quietWord ⟨b, [.idx 8 d, .idx 8 a, .idx 8 c], true⟩ (fun k t => combineLane k t d a c
    (fun p q => p.mul q) (fun p q tp tq => (tp.mul q).add .rne (p.mul tq))) s

/-- POR: R154. -/
def execPor (b : Bool) (d : BitVec 6) (a : BitVec 6) (c : BitVec 6) (s : State) : Out :=
  quietWord ⟨b, [.idx 8 d, .idx 8 a, .idx 8 c], true⟩ (fun k t => combineLane k t d a c
    (fun p q => (p.add .rne q).sub .rne (p.mul q))
    (fun p q tp tq => (tp.mul (XR.one.sub .rne q)).add .rne (tq.mul (XR.one.sub .rne p)))) s

/-- PNOT: R154. -/
def execPnot (b : Bool) (d : BitVec 6) (a : BitVec 6) (s : State) : Out :=
  quietWord ⟨b, [.idx 8 d, .idx 8 a], true⟩ (fun k t =>
    let x := k.q t a
    let neg (w : Word) : Word := BitVec.ofNat 32 (Num.roundX fp32 .rne (tan32 w).neg).1
    { q := some (d.toNat, qReg (0x8000 - qP x) (qTag x) (qDep x) (x.tan.map neg)) }) s

/-- PGET: R156. -/
def execPget (b : Bool) (n : Bool) (d : BitVec 6) (a : BitVec 6) (s : State) : Out :=
  vecWord ⟨b, [.dst false n d, .idx 8 a], true⟩ n d false (fun k t =>
    let x := k.q t a
    { val := some ⟨false, BitVec.ofNat 64 (Num.roundX fp32 .rne (.ofRat (qReal x))).1, x.tan.map fun w => w.zeroExtend 64⟩ }) s

/-- PGET.W: R156. -/
def execPgetW (b : Bool) (n : Bool) (d : BitVec 6) (a : BitVec 6) (s : State) : Out :=
  vecWord ⟨b, [.dst false n d, .idx 8 a], true⟩ n d false (fun k t => k.int32 (k.q t a).prim) s

/-- PPUT: R156. -/
def execPput (b : Bool) (d : BitVec 6) (a : BitVec 6) (c : BitVec 6) (s : State) : Out :=
  quietWord ⟨b, [.idx 8 d, .src .i32 a, .src .f32 c], true⟩ (fun k t =>
    let w := k.r32 t a
    let tan (x : Dword) : Word := x.truncate 32
    { q := some (d.toNat, qReg (min (bitsOf w 15 0) 0x8000) (bitsOf w 23 16) (bitsOf w 24 24) ((k.opnd t .f32 c).tan.map tan)),
      flags := flagIf (decide (0x8000 < bitsOf w 15 0)) flagSaturation }) s

/-- PCOLL: R162. -/
def execPcoll (b : Bool) (d : BitVec 6) (a : BitVec 6) (s : State) : Out :=
  drawWord ⟨b, [.idx 8 d, .idx 8 a], true⟩ true 0 false false (fun k t =>
    let x := k.q t a
    let u := (k.draw t >>> 49).toNat
    { k.drawn t with
      q := some (d.toNat, qReg (if u < qP x then 0x8000 else 0) (qTag x) (qDep x) (List.replicate k.t 0)) }) s

/-- PBLEND: R157. -/
def execPblend (b : Bool) (n : Bool) (d : BitVec 6) (t : BitVec 2) (q : BitVec 3) (c : BitVec 6) (e : BitVec 6) (s : State) : Out :=
  vecWord ⟨b, [.dst (floatTy t).wide n d, .src (floatTy t) c, .src (floatTy t) e], true⟩ n d (floatTy t).wide (fun k u => pblendLane k u (FTy.ofCode t) q c e) s

/-- PSEL: R158; R158 gives its operands a width only, and an IMM is read as an integer (log 47). -/
def execPsel (b : Bool) (n : Bool) (d : BitVec 6) (a : BitVec 6) (c : BitVec 6) (w : BitVec 1) (q : BitVec 3) (s : State) : Out :=
  vecWord ⟨b, [.dst (w == 1#1) n d, .src (if w == 1#1 then .i64 else .i32) a, .src (if w == 1#1 then .i64 else .i32) c], true⟩ n d (w == 1#1) (fun k t =>
    let ty : OpTy := if w == 1#1 then .i64 else .i32
    { val := some (k.opnd t ty (if 0x4000 ≤ qP ((k.lane t).getQ q.toNat) then a else c)) }) s

/-- RKEY: R161. -/
def execRkey (b : Bool) (a : BitVec 6) (c : BitVec 6) (s : State) : Out :=
  quietWord ⟨b, [.src .i64 a, .src .i32 c], true⟩ (fun k t =>
    { stream := some (streamKey k (k.tid t) (k.prim t .i64 a) ((k.r32 t c).zeroExtend 64), 0) }) s

/-- RNEXT.U32: R161. -/
def execRnextU32 (b : Bool) (n : Bool) (d : BitVec 6) (s : State) : Out :=
  drawWord ⟨b, [.dst false n d], true⟩ n d false true (fun k t =>
    { k.drawn t with val := some (.plain false k.t (k.draw t)) }) s

/-- RNEXT.U64: R161. -/
def execRnextU64 (b : Bool) (n : Bool) (d : BitVec 6) (s : State) : Out :=
  drawWord ⟨b, [.dst true n d], true⟩ n d true true (fun k t =>
    { k.drawn t with val := some (.plain true k.t (k.draw t)) }) s

/-- RNEXT.F32: R161. -/
def execRnextF32 (b : Bool) (n : Bool) (d : BitVec 6) (s : State) : Out :=
  drawWord ⟨b, [.dst false n d], true⟩ n d false true (fun k t =>
    let x := (k.draw t >>> 40).toNat
    { k.drawn t with
      val := some (.plain false k.t (BitVec.ofNat 64 (Num.roundX fp32 .rne (.ofRat ((x : Rat) * Num.pow2 (-24)))).1)) }) s

end Sys2Proof.Machine
end

