-- ==== Sys2Proof/Machine/Launch.lean ====
section
/-!
DEFINITION. Queues, packets, distribution and placement; FETCHW and LAUNCH (R332-R345, R350-R353).
-/

namespace Sys2Proof.Machine

open Sys2Proof
open Sys2Proof.Num (fp32)

/-- The commands in a crew's copy queue that the engine has not taken. -/
def Crew.commands (cr : Crew) : List (BitVec 256) :=
  (List.range (if pktQN cr.packet = 0 then 0 else cr.queued)).map fun i =>
    BitVec.ofNat 256 (cr.scratch.nat (pktQB cr.packet + 32 + 32 * ((cr.qword qHead + i) % pktQN cr.packet)) 32)

/-! ### Queue descriptors (R332) -/

def qdBase (d : BitVec 512) : Nat := bitsOf d 55 0
def qdLcap (d : BitVec 512) : Nat := bitsOf d 71 64
def qdPri (d : BitVec 512) : Nat := bitsOf d 74 72
def qdPart (d : BitVec 512) : Nat := bitsOf d 87 80
def qdEn (d : BitVec 512) : Bool := bitAt d.toNat 88
def qdDevw (d : BitVec 512) : Bool := bitAt d.toNat 89
def qdErr (d : BitVec 512) : Bool := bitAt d.toNat 90
def qdWptr (d : BitVec 512) : Nat := bitsOf d 127 96
def qdRptr (d : BitVec 512) : Nat := bitsOf d 159 128
/-- Packets written and not taken. -/
def qdAhead (d : BitVec 512) : Nat := (qdWptr d + 2 ^ 32 - qdRptr d) % 2 ^ 32
/-- ERR where WPTR is too far ahead (R332). -/
def qdChecked (d : BitVec 512) : BitVec 512 := if 2 ^ qdLcap d < qdAhead d then setBits d 90 90 1 else d

namespace State

def queue (s : State) (q : Nat) : BitVec 512 := Sparse.get s.queues q
def setQueue (s : State) (q : Nat) (d : BitVec 512) : State := { s with queues := Sparse.set s.queues q d }

/-- WPTR of a served queue written (R332): the doorbell of a queue that is not served is ignored. -/
def ringQueue (s : State) (q v : Nat) : State :=
  let d := s.queue q
  if !qdEn d || qdErr d then s else s.setQueue q (qdChecked (setBits d 127 96 v))

end State

/-- A reserved field or value of a descriptor (R332, R5). -/
def qdBad (d : BitVec 512) : Bool :=
  decide (bitsOf d 63 56 ≠ 0 ∨ qdBase d % 64 ≠ 0 ∨ 16 < qdLcap d ∨ bitsOf d 79 75 ≠ 0 ∨ 15 < qdPart d ∨ bitsOf d 95 91 ≠ 0 ∨
    bitsOf d 511 160 ≠ 0)

/-- Every thread parked in LAUNCH on a queue executes its word again (R353). -/
def State.wakeLaunches (s : State) (q : Nat) : State :=
  (List.range s.crews.length).foldl (fun s ci => s.wakeParked ci (.launchQueue q)) s

/-- A descriptor as its queue takes it: none of the fields of one with a reserved bit set acts, and its queue stops as
an error stops it (R5, R332). -/
def qdTaken (d : BitVec 512) : BitVec 512 := if qdBad d then setBits 0 90 90 1 else qdChecked d

/-- QUEUE_DESCRIPTOR_WRITE: R332.  Threads that wait for room in the queue look at it again. -/
def execQueueDescriptorWrite (q : Nat) (d : BitVec 512) (s : State) : Out :=
  if Config.queues ≤ q then .next s
  else .next ((s.setQueue q (qdTaken d)).wakeLaunches q)

/-! ### What a core grants (R107, R108, R340) -/

/-- A crew's reservation: on its core, then on its cluster's engine. -/
def reservation (p : BitVec 512) : List Nat × List Nat :=
  ([pktH p, pktGranules p, pktUC p, pktAlloc p / 4096, pktTiles p, pktBars p, pktMon p], [pktAccum p, pktWbuf p])

/-- What an empty core and an empty engine grant. -/
def capacity : List Nat × List Nat :=
  ([Config.groupSlots, Config.granules, Config.uniformFile, Config.scratchGranules, Config.tileEntries, Config.barriers,
    Config.monitorEntries], [Config.accLines, Config.weightGranules])

def addAll (a b : List Nat) : List Nat := a.zipWith (· + ·) b
def allLe (a b : List Nat) : Bool := (a.zip b).all fun x => decide (x.1 ≤ x.2)

/-- Whether a core grants a crew beside the crews that hold it and its cluster: (core, packet). -/
def coreGrants (used : List (Nat × BitVec 512)) (core : Nat) (p : BitVec 512) : Bool :=
  let here := (used.filter fun x => x.1 == core).foldl (fun a x => addAll a (reservation x.2).1) (reservation p).1
  let engine := (used.filter fun x => clusterOf x.1 == clusterOf core).foldl (fun a x => addAll a (reservation x.2).2)
    (reservation p).2
  allLe here capacity.1 && allLe engine capacity.2

/-- Crews placed first-fit on some cores, in ascending rank, as many as fit (R340): their cores. -/
def firstFit (cores : List Nat) (p : BitVec 512) : Nat → List (Nat × BitVec 512) → List Nat
  | 0, _ => []
  | n + 1, used =>
    match cores.find? fun c => coreGrants used c p with
    | none => []
    | some c => c :: firstFit cores p n ((c, p) :: used)

/-- A gang over several dies, filled in ascending order, at most `m` of them (R341). -/
def fillDies (coresOf : Nat → List Nat) (p : BitVec 512) : List Nat → Nat → Nat → List (Nat × BitVec 512) → Option (List Nat)
  | [], _, n, _ => if n = 0 then some [] else none
  | d :: ds, m, n, used =>
    if n = 0 then some []
    else if m = 0 then none
    else
      let cs := firstFit (coresOf d) p n used
      if cs.isEmpty then fillDies coresOf p ds m n used
      else (fillDies coresOf p ds (m - 1) (n - cs.length) (cs.map (fun c => (c, p)) ++ used)).map fun r => cs ++ r

/-- Each crew on the core that it must have (R343). -/
def fixedFit (p : BitVec 512) : List Nat → List (Nat × BitVec 512) → Bool
  | [], _ => true
  | c :: cs, used => coreGrants used c p && fixedFit p cs ((c, p) :: used)

/-- Dies that a gang may span (R341). -/
def latDies (p : BitVec 512) : Nat := 2 ^ pktLat p

namespace State

/-- Cores of a die that a partition may use: of its own clusters and, unless all are asked for, in service. -/
def coresOn (s : State) (part : Nat) (all : Bool) (die : Nat) : List Nat :=
  ((List.range 32).map fun i => 32 * die + i).filter fun c =>
    (s.part part).owns (clusterOf c) && (all || !((s.core c).withdrawn || (s.cluster (clusterOf c)).withdrawn))

/-- The crews that hold cores. -/
def holders (s : State) : List (Nat × BitVec 512) :=
  (s.crews.filter fun cr => cr.status == .resident || cr.status == .resuming).map fun cr => (cr.core, cr.packet)

/-- Whether an empty device holds a gang of a packet (R337). -/
def canHold (s : State) (part : Nat) (all : Bool) (p : BitVec 512) : Bool :=
  let on := s.coresOn part all
  if pktPrs p then (pktDies p).all fun d => fixedFit p (on d) []
  else if pktLat p = 0 then (pktDies p).any fun d => decide ((firstFit (on d) p (pktGang p) []).length = pktGang p)
  else (fillDies on p (pktDies p) (latDies p) (pktGang p) []).isSome

end State

/-! ### Packets (R335-R337) -/

/-- A reserved field or value of a grid-launch packet (R335, R336). -/
def packetReserved (p : BitVec 512) : Bool :=
  decide (bitsOf p 479 448 ≠ 0 ∨ bitsOf p 447 440 ≠ 0 ∨ bitsOf p 383 376 ≠ 0 ∨ bitsOf p 238 224 ≠ 0 ∨
    bitsOf p 129 128 ≠ 0 ∨ bitsOf p 246 244 ≠ 0 ∨ bitsOf p 243 242 = 3 ∨ bitsOf p 75 73 = 7 ∨ 4 < bitsOf p 72 70 ∨
    pktKind p = 0 ∨ 2 < pktKind p)

/-- A reserved field or value of a grid-launch packet, or a broken rule of the packet alone (R335, R337). -/
def packetBad (p : BitVec 512) : Bool :=
  let temp := Num.decodeF fp32 (pktTemp p).toNat
  let lqn := bitsOf p 171 168
  packetReserved p ||
    decide (pktStamp p % 8 ≠ 0 ∨ pktUinit p % 8 ≠ 0 ∨ (pktEntry p).toNat % 4 ≠ 0) ||
    (match temp with
      | .fin _ q => decide (q < 0)
      | _ => true) ||
    decide (524288 < pktScr p ∨ lqn = 1 ∨ 8 < lqn ∨ 256 < pktTiles p ∨ 64 < pktBars p ∨ 256 < pktMon p ∨
      pktAccum p % 2 = 1 ∨ 32 < pktUC p) ||
    (if pktPrs p then decide (pktNcrew p ≠ 0 ∨ bitsOf p 93 86 ≠ 0 ∨ pktLat p ≠ 0)
      else decide (pktNcrew p = 0 ∨ pktNcrew p % pktGang p ≠ 0))

/-- A graph-start packet's fields (R335). -/
def graphPacketBad (p : BitVec 512) : Bool :=
  decide (bitsOf p 479 440 ≠ 0 ∨ bitsOf p 383 86 ≠ 0 ∨ bitsOf p 77 64 ≠ 0 ∨ bitsOf p 57 56 ≠ 0 ∨ pktStamp p % 8 ≠ 0 ∨
    (pktEntry p).toNat % 4 ≠ 0)

/-- A crew that no empty core or engine grants: more accumulator lines or granules than one engine has (R108, R278). -/
def packetTooBig (p : BitVec 512) : Bool :=
  !(allLe (reservation p).1 capacity.1 && allLe (reservation p).2 capacity.2)

namespace State

/-- The status that refuses a packet (R337). -/
def packetCheck (s : State) (part : Nat) (p : BitVec 512) : Option Nat :=
  if pktKind p = 2 then (if graphPacketBad p then some 2 else none)
  else if pktKind p ≠ 1 ∨ packetBad p then some 2
  else if packetTooBig p then some 0x11
  else if !s.canHold part true p then some 2
  else if s.module.state = .degraded ∧ !s.canHold part false p then some 0x12
  else none

/-- The stamp of a packet (R337, R345); a misaligned one cannot be written. -/
def packetStamp (s : State) (part : Nat) (p : BitVec 512) (status : Nat) : Stamped :=
  if pktStamp p % 8 ≠ 0 then .lost else s.stamp none part (pktStamp p) (pktSeq p) status 0 (pktRsc p) false

/-- Packets taken so far, as an order. -/
def taken (s : State) : Nat := s.grids.length + s.graphs.length

/-- A grid is taken. -/
def addGrid (s : State) (p : BitVec 512) (queue part : Nat) (node : Option (Nat × Nat)) (st : GridStatus) : State :=
  { s with grids := s.grids ++ [⟨p, s.taken, queue, part, node, st, 0, []⟩] }

/-- Whether the module accepts work (R391). -/
def works (s : State) : Bool := (s.module.state == .operational || s.module.state == .degraded) && !s.module.tripped

/-- A die whose Scribe walker is in service, the lowest of a packet's (R335). -/
def walkerOf (p : BitVec 512) : Nat := (pktDies p).headD 0

end State

/-- PACKET_TAKE: the device takes the packet at RPTR, and refuses it or makes it a grid or a graph (R332, R337). -/
def execPacketTake (q : Nat) (s : State) : Out :=
  let d := s.queue q
  if !s.works || !qdEn d || qdErr d || qdAhead d == 0 || !(s.part (qdPart d)).up then .next s
  else
    match s.devNat (qdPart d) (qdBase d + 64 * (qdRptr d % 2 ^ qdLcap d)) 64 with
    | none => .next s
    | some n =>
      let p : BitVec 512 := BitVec.ofNat 512 n
      let s1 := (s.setQueue q (setBits d 159 128 (qdRptr d + 1))).wakeLaunches q
      match s1.packetCheck (qdPart d) p with
      | some st =>
        match s1.packetStamp (qdPart d) p st with
        | .written s2 => .next (s2.addGrid p q (qdPart d) none .refused)
        | .lost => .next (s1.addGrid p q (qdPart d) none .refused)
        | .held => .next s
      | none =>
        if pktKind p = 2 then
          .next { s1 with graphs := s1.graphs ++ [⟨p, s1.taken, q, qdPart d, State.walkerOf p, false, [], none, false⟩] }
        else .next (s1.addGrid p q (qdPart d) none .waiting)

/-! ### Distribution (R333) -/

namespace State

/-- Gangs of a grid that are distributed. -/
def gangsOf (s : State) (gi : Nat) : Nat := (s.gangs.filter fun x => x.grid == gi).length

/-- The cores of each die that a persistent grid has still to take, in the order of its dies: those of dies beyond the
last that it has a gang on (R343). -/
def prsDies (s : State) (gi : Nat) (g : Grid) : List (List Nat) :=
  let past (d : Nat) : Bool := (s.gangs.any fun x => x.grid == gi && decide (d ≤ x.die))
  (((pktDies g.packet).filter fun d => !past d).map (s.coresOn g.part false)).filter fun cs => !cs.isEmpty

/-- Whether a grid has crews that are not distributed. -/
def undistributed (s : State) (gi : Nat) (g : Grid) : Bool :=
  (g.status == .waiting || g.status == .live) &&
    (if pktPrs g.packet then !(s.prsDies gi g).isEmpty else decide (g.nextCrew < pktNcrew g.packet))

/-- Whether every earlier packet of a grid's queue has written its stamp (R344). -/
def earlierDone (s : State) (g : Grid) : Bool :=
  (s.grids.all fun x => !(x.queue == g.queue && x.node.isNone && decide (x.order < g.order)) ||
      (x.status == .done || x.status == .refused)) &&
    s.graphs.all fun x => !(x.queue == g.queue && decide (x.order < g.order)) || x.done

/-- Whether the distributor may take a gang of a grid now. -/
def mayDistribute (s : State) (gi : Nat) (g : Grid) : Bool :=
  s.undistributed gi g && (!(pktWaitp g.packet && g.node.isNone) || s.earlierDone g)

/-- The queue that the distributor serves: the highest PRI, round-robin within it. -/
def distributorQueue (s : State) : Option Nat :=
  let qs := ((s.grids.zipIdx.filter fun x => s.mayDistribute x.2 x.1).map fun x => x.1.queue).dedup
  let top := qs.foldl (fun m q => max m (qdPri (s.queue q))) 0
  let level := qs.filter fun q => qdPri (s.queue q) = top
  ((List.range Config.queues).map fun i => (s.robin.getD top 0 + i) % Config.queues).find? fun q => level.contains q

/-- Whether a die holds a gang of a packet, where nothing else stands on the units in service. -/
def dieHolds (s : State) (x : Gang) (g : Grid) : Bool :=
  let p := g.packet
  let on := s.coresOn g.part false
  if pktPrs p ∧ !x.started then
    fixedFit p (x.crews.filterMap fun c => (s.crews[c]?).map fun cr => cr.core) [] &&
      x.crews.all fun c => ((s.crews[c]?).map fun cr => (on x.die).contains cr.core).getD true
  else if pktLat p = 0 then decide ((firstFit (on x.die) p x.crews.length []).length = x.crews.length)
  else (fillDies on p (pktDies p) (latDies p) x.crews.length []).isSome

/-- Whether a grid no longer fits the units that a degraded device has in service: it has crews to distribute that
none holds, or a gang that waits where none holds it (R21, R337). -/
def unfit (s : State) (gi : Nat) (g : Grid) : Bool :=
  s.module.state == .degraded && (g.status == .waiting || g.status == .live) &&
    ((s.undistributed gi g && !s.canHold g.part false g.packet) ||
      s.gangs.any fun x => x.grid == gi && !x.placed && !s.dieHolds x g &&
        x.crews.any fun c => ((s.crews[c]?).map fun cr => cr.status) == some .distributed)

/-- Grids that no longer fit are refused at placement, whole: their crews leave (R21). -/
def dropUnfit (s : State) : State :=
  (List.range s.grids.length).foldl (fun s gi =>
    match s.grids[gi]? with
    | some g => if s.unfit gi g then s.dropGrid gi .nofit else s
    | none => s) s

/-- A crew before its start. -/
def newCrew (g : Grid) (gi num gang core : Nat) : Crew :=
  { grid := gi, num := num, gang := gang, packet := g.packet, part := g.part, queue := g.queue, status := .distributed,
    core := core, cslot := 0, lanes := [], lanesOld := [], masks := [], u := [], uOld := [], temp := 0, tempOld := 0,
    mode := 0, scratch := [], tiles := [], tilesOld := [], bars := [], accMeta := [], accSlots := [], regions := [],
    queueMeta := [], batch := none, moving := [], preempt := none, saveArea := none }

/-- Gangs of one grid, as numbers of crews each with the core that a persistent crew must have. -/
def nextGang (s : State) (gi : Nat) (g : Grid) : List Nat :=
  if pktPrs g.packet then (s.prsDies gi g).headD [] else List.replicate (pktGang g.packet) 0

/-- Whether a die may receive the next gang of a grid: a gang that stays on one die goes where the units in service can
hold it (R333, R339, R341). -/
def dieOk (s : State) (gi : Nat) (g : Grid) (die : Nat) : Bool :=
  if pktPrs g.packet then ((s.nextGang gi g).head?.map dieOf) = some die
  else (pktDies g.packet).contains die &&
    (if pktLat g.packet = 0 then
      decide ((firstFit (s.coresOn g.part false die) g.packet (pktGang g.packet) []).length = pktGang g.packet)
    else !(s.coresOn g.part false die).isEmpty)

end State

/-- DISTRIBUTE_GANG: the distributor assigns the next gang of the queue whose turn it is to a die (R333). -/
def execDistributeGang (die : Nat) (s0 : State) : Out :=
  let s := s0.dropUnfit
  match s.distributorQueue with
  | none => .next s
  | some q =>
    match s.grids.findIdx? (fun g => g.queue == q && s.mayDistribute (s.grids.idxOf g) g) with
    | none => .next s
    | some gi =>
      match s.grids[gi]? with
      | none => .next s
      | some g =>
        if !s.works || !s.dieOk gi g die then .next s
        else
          let cores := s.nextGang gi g
          let k := s.gangs.length
          let first := s.crews.length
          let news := cores.zipIdx.map fun x => State.newCrew g gi (g.nextCrew + x.2) k x.1
          let gang : Gang :=
            ⟨gi, s.gangsOf gi, (List.range cores.length).map fun i => first + i, die, s.orderNext, 0, false, false⟩
          .next { (s.updGrid gi fun g => { g with status := .live, nextCrew := g.nextCrew + cores.length }) with
            crews := s.crews ++ news, gangs := s.gangs ++ [gang], orderNext := s.orderNext + 1
            robin := s.robin.set (qdPri (s.queue q)) ((q + 1) % Config.queues) }

/-! ### Placement (R338-R343) -/

/-- A thread at its start (R338). -/
def Thread.fresh (tid : Nat) (entry : BitVec 56) : Thread :=
  { tid := tid, pc := entry, cont := entry, flags := 0, stack := List.replicate Config.callDepth 0, depth := 0,
    run := .waking none, region := none, pendWait := none, trap := none, held := [], windows := 0, interval := 0, acquired := [],
    pendPair := none }

/-- A crew on its core, every register as R109 and R338 say. -/
def Crew.start (cr : Crew) (core cslot : Nat) (u : List Dword) : Crew :=
  let p := cr.packet
  let lane (i : Nat) : Lane :=
    { v := List.replicate (pktC p) (Reg.zero (pktT p)), q := List.replicate 8 (Reg.zero (pktT p)),
      key := crewKey cr i 0 0, ctr := 0,
      occ := if i < pktN p then .thread (Thread.fresh i (pktEntry p)) else .never }
  let lanes := (List.range (16 * pktH p)).map lane
  let pad : Memory := if pktQN p = 0 then [] else Memory.write [] (pktQB p) [BitVec.ofNat 8 (bitsOf p 171 168)]
  { cr with
    status := .resident, core := core, cslot := cslot, lanes := lanes, lanesOld := lanes,
    masks := List.replicate (12 * pktH p) 0, u := u, uOld := u, temp := pktTemp p, tempOld := pktTemp p, mode := pktMode p,
    scratch := pad, tiles := List.replicate (pktTiles p) 0, tilesOld := List.replicate (pktTiles p) 0,
    bars := List.replicate (pktBars p) ⟨0, 0, none, false⟩ }

namespace State

/-- Initial uniform values (R338): none where UINIT cannot be read. -/
def uniforms (s : State) (cr : Crew) : Option (List Dword) :=
  let p := cr.packet
  if pktUinit p = 0 then some (List.replicate (pktUC p) 0)
  else (s.devNat cr.part (pktUinit p) (8 * pktUC p)).map fun n =>
    (List.range (pktUC p)).map fun i => BitVec.ofNat 64 (n / 2 ^ (64 * i))

/-- The lowest free crew slot of a core. -/
def freeCrewSlot (s : State) (core : Nat) : Nat :=
  ((List.range Config.groupSlots).find? fun k =>
    !s.crews.any fun cr => (cr.status == .resident || cr.status == .resuming) && cr.core == core && cr.cslot == k).getD 0

/-- One crew starts on a core, or takes its place again to be restored (R42, R196, R338). -/
def placeCrew (s : State) (ci core : Nat) : State :=
  match s.crews[ci]? with
  | none => s
  | some cr =>
    let k := s.freeCrewSlot core
    let g := 256 * core + k
    let s1 := { s with gens := Sparse.set s.gens g (Sparse.get s.gens g + 1) }
    if cr.saveArea.isSome then
      s1.updCrew ci fun cr => { cr with status := .resuming, core := core, cslot := k }
    else s1.updCrew ci fun cr => cr.start core k ((s.uniforms cr).getD [])

/-- Priority of a gang's queue (R334). -/
def gangPri (s : State) (x : Gang) : Nat :=
  ((s.grids[x.grid]?).map fun g => qdPri (s.queue g.queue)).getD 0

/-- Whether gang `a` stands before gang `b` (R339). -/
def gangBefore (s : State) (a b : Gang) : Bool :=
  decide (s.gangPri b < s.gangPri a) || (decide (s.gangPri a = s.gangPri b) && decide (a.order < b.order))

/-- The crews of a gang that wait for a core: a crew that is over is placed no more. -/
def unplaced (s : State) (x : Gang) : List Nat :=
  x.crews.filter fun ci => (s.crews[ci]?.map fun cr => cr.status) == some CrewStatus.distributed

/-- The gangs that wait on a die, in the unit's order. -/
def waitingGangs (s : State) (die : Nat) : List Nat :=
  let mine := (List.range s.gangs.length).filter fun k =>
    (s.gangs[k]?.map fun x => !x.placed && decide (x.die = die) && !(s.unplaced x).isEmpty &&
      decide (((s.grids[x.grid]?).map fun g => g.status) = some .live)).getD false
  mine.foldl (fun l k =>
    let (front, back) := l.partition fun j =>
      match s.gangs[j]?, s.gangs[k]? with
      | some a, some b => s.gangBefore a b
      | _, _ => true
    front ++ k :: back) []

/-- The cores that a gang receives, where it fits (R340, R341, R343). -/
def gangFit (s : State) (k : Nat) : Option (List Nat) :=
  match s.gangs[k]? with
  | none => none
  | some x =>
    let crews := s.unplaced x
    match (crews.head?).bind fun ci => s.crews[ci]? with
    | none => some []
    | some cr =>
      let p := cr.packet
      let on := s.coresOn cr.part false
      let n := crews.length
      let ready := crews.all fun ci => (s.crews[ci]?.map fun c => c.saveArea.isSome || (s.uniforms c).isSome).getD false
      let cores : Option (List Nat) :=
        if pktPrs p ∧ !x.started then
          let cs := crews.map s.coreOf
          if (cs.all fun c => (on x.die).contains c) && fixedFit p cs s.holders then some cs else none
        else if pktLat p = 0 then
          let cs := firstFit (on x.die) p n s.holders
          if cs.length = n then some cs else none
        else fillDies on p (pktDies p) (latDies p) n s.holders
      if ready then cores else none

/-! ### Release (R110) -/

/-- Whether an address of an operation of crew `ci` names a window of crew `cj`. -/
def namesCrew (s : State) (ci cj a : Nat) : Bool :=
  isWindow a &&
    match s.window ci a with
    | .ok w => w.crew == cj
    | _ => false

/-- The addresses of a copy command. -/
def cmdNames (c : BitVec 256) : List Nat :=
  (if cmdSk c = 0 then [cmdSrc c] else []) ++ (if cmdDk c = 0 then [cmdDst c] else []) ++ [cmdStamp c]

/-- Whether an engine operation that crew `cj` issued, or that names what it holds, is left; a command in another
crew's queue counts, taken or not. -/
def engineBusy (s : State) (cj : Nat) : Bool :=
  let names (ci : Nat) (l : List Nat) : Bool := ci == cj || l.any (s.namesCrew ci cj)
  (s.copies.any fun (o : CopyOp) => o.crew.any fun ci => names ci (cmdNames o.cmd)) ||
    (s.crews.zipIdx.any fun x => x.1.resident && x.2 != cj && x.1.commands.any fun c => (cmdNames c).any (s.namesCrew x.2 cj)) ||
    (s.xpairs.any fun (x : XPairOp) => names x.crew [pairStamp x.record]) ||
    s.clusters.any fun (K : Cluster) =>
      (K.entries.any fun (e : MEntry) => names e.crew ([e.addr.toNat, mbStamp e.block] ++
        (if mbDk e.block = 0 then [mbAdr e.block] else []))) ||
      K.reproj.any fun (o : ReprojOp) =>
        names o.crew [rpSrc o.block, rpMv o.block, rpDst o.block, rpList o.block, rpStamp o.block]

/-- Whether a crew has exited and its engine work has completed. -/
def crewOver (s : State) (ci : Nat) (cr : Crew) : Bool :=
  cr.resident && cr.live == 0 && !s.engineBusy ci && (pktQN cr.packet == 0 || cr.queued == 0) &&
    !s.arrivals.any fun a => a.crew == ci

/-- Every crew that is over releases what it holds. -/
def releaseOver (s : State) : State :=
  { s with crews := s.crews.mapIdx fun ci cr => if s.crewOver ci cr then { cr with status := .released } else cr }

end State

/-- The instruction fetches of a grid see memory as it stands when its launch is placed, at its first gang (R82). -/
def State.fixCode (s : State) (gi : Nat) : State :=
  if s.gangs.any fun x => x.grid == gi && x.started then s else s.updGrid gi fun g => { g with code := s.codeMem }

/-- PLACE_GANG: one decision of a die's placement unit (R339). -/
def execPlaceGang (die : Nat) (s0 : State) : Out :=
  let s := s0.releaseOver.dropUnfit
  let ks := s.waitingGangs die
  let firstPassed := (ks.head?.bind fun k => s.gangs[k]?).any fun x => decide (Config.passedGangs ≤ x.passed)
  let tried := if firstPassed then ks.take 1 else ks
  match tried.find? fun k => (s.gangFit k).isSome with
  | none => .next s
  | some k =>
    if !s.works then .next s
    else
      let cores := (s.gangFit k).getD []
      let crews := (s.gangs[k]?.map s.unplaced).getD []
      let s1 := (crews.zip cores).foldl (fun s x => s.placeCrew x.1 x.2) (s.fixCode ((s.gangs[k]?.map fun x => x.grid).getD 0))
      let s2 := (ks.takeWhile fun j => j != k).foldl (fun s j => s.updGang j fun x => { x with passed := x.passed + 1 }) s1
      .next (s2.updGang k fun x => { x with placed := true, started := true })

/-! ### Completion (R345) -/

/-- Whether every crew of a grid has released its resources and no engine operation of it is left (R345). -/
def State.gridOver (s : State) (gi : Nat) : Bool :=
  s.crews.all fun cr => cr.grid != gi || cr.status == .released

/-- GRID_COMPLETE: R337, R345, R246. -/
def execGridComplete (grid : Nat) (s0 : State) : Out :=
  let s := s0.releaseOver
  match s.grids[grid]? with
  | none => .next s
  | some g =>
    let removed := decide (g.status = .removed ∨ g.status = .nofit)
    if !(s.gridOver grid) || !(removed || (g.status == .live && !s.undistributed grid g)) then .next s
    else
      let st := match g.status with
        | .removed => 0x13
        | .nofit => 0x12
        | _ => 1
      let after (s : State) : State :=
        let s1 := (s.updGrid grid fun g => { g with status := .done }).updPart g.part fun P =>
          { P with bindings := P.bindings.filter fun b => b.grid != grid }
        s1.nodeEnds g.node st
      match s.packetStamp g.part g.packet st with
      | .written s1 => .next (after s1)
      | .lost => .next (after s)
      | .held => .next s

/-! ### FETCHW (R350-R352) -/

/-- What a page must be to hold a dispenser (R350). -/
def plainPage (g : Page) : Bool := !g.typed && !g.replicated && g.dual.isNone

/-- Bytes of global memory as Geyser reads them for a lane. -/
def geyserRead (s : State) (ci li a n : Nat) : Acc Nat :=
  (s.globalPage ci li a {}).bind fun g => (s.partBytes ci li a n g).bind fun bs => .ok (leNat bs)

/-- Fields of a dispenser (R350). -/
def dispKind (d : Nat) : Nat := fld d 7 0
def dispClosed (d : Nat) : Bool := bitAt d 8
def dispNext (d : Nat) : Nat := fld d 127 64
def dispX (d : Nat) : Nat := fld d 159 128
def dispY (d : Nat) : Nat := fld d 191 160
def dispZ (d : Nat) : Nat := fld d 223 192
def dispQueue (d : Nat) : Nat := fld d 311 256

/-- A reserved field or KIND, or invalid extents (R352). -/
def dispBad (d : Nat) : Bool :=
  decide (1 < dispKind d ∨ fld d 15 9 ≠ 0 ∨ fld d 63 16 ≠ 0 ∨ fld d 255 224 ≠ 0 ∨ fld d 511 312 ≠ 0) ||
    (dispKind d == 0 &&
      decide (dispX d = 0 ∨ dispY d = 0 ∨ dispZ d = 0 ∨ 2 ^ 48 < dispX d * dispY d * dispZ d))

/-- What FETCHW finds: an item's four words and the addresses accessed, nothing more to come, or nothing yet. -/
inductive Fetched where
  | item (words : List Nat) (s : State) (addrs : List Nat)
  | dry (addrs : List Nat)
  | wait (addrs : List Nat)

/-- An item of an index space (R352). -/
def indexItem (d n : Nat) : List Nat :=
  [n % dispX d, n / dispX d % dispY d, n / (dispX d * dispY d), n % 2 ^ 32]

/-- FETCHW at Geyser (R352). -/
def geyser (s : State) (ci li a : Nat) : Acc Fetched :=
  let die := dieOf (s.coreOf ci)
  let ask : Ask := { write := true, kindOk := plainPage }
  (s.globalPage ci li a ask).bind fun g =>
    if s.poisonedOn die g 64 then .poison
    else
      let d := leNat (s.physRead die g 64)
      if dispKind d = 1 ∧ isWindow (dispQueue d) then .trap (.fault causeWindow) (dispQueue d)
      else if dispBad d then .trap .engineStatus 0
      else if dispKind d = 0 then
        let n := dispNext d
        if n < dispX d * dispY d * dispZ d then
          .ok (.item (indexItem d n) (s.physWrite { g with pa := g.pa + 8 } (leBytes 8 (n + 1))) [a])
        else .ok (.dry [a])
      else
        let q := dispQueue d
        (s.globalPage ci li q { write := true }).bind fun h =>
          if s.poisonedOn die h 64 then .poison else
          let hdr := leNat (s.physRead die h 64)
          if recordQueueBad hdr then .trap .engineStatus 0 else
          let tail := fld hdr 63 0
          let head := fld hdr 127 64
          if head < tail then
            let slot := q + 64 + 16 * (head % 2 ^ fld hdr 135 128)
            (geyserRead s ci li slot 16).bind fun x =>
              .ok (.item ((List.range 4).map fun i => x / 2 ^ (32 * i) % 2 ^ 32)
                (s.physWrite { h with pa := h.pa + 8 } (leBytes 8 (head + 1))) [a, q, slot])
          else .ok (if dispClosed d then .dry [a, q] else .wait [a, q])

/-- Plumb's view of a FETCHW (R237, R239): TAIL of a record queue is acquired at .dev, and the atomic is logged at what
it changes, the dispenser or the queue's HEAD. -/
def geyserSeen (ci li : Nat) (as : List Nat) (write : Bool) (pc : BitVec 56) (s : State) : State :=
  match as with
  | [] => s
  | [a] => (s.plumbLane ci li a 2 2 true write pc).1
  | _ :: q :: _ => ((s.plumbAcquire ci li q).plumbLane ci li q 2 2 true write pc).1

/-- FETCHW in one lane (R352). -/
def fetchwLane (c : Ctx) (d a : Code) (q : Nat) (s : State) (t : Nat) : State :=
  let p := c.place t
  let x := c.adr a t
  let setQ (w : Word) (s : State) : State := s.updLane c.ci p fun l => l.setQ q ⟨w, List.replicate c.t 0⟩
  let seen (as : List Nat) (write : Bool) (s : State) : State :=
    geyserSeen c.ci p as write c.start (as.foldl (fun s a => s.replayed c.ci p a) s)
  if x % 64 ≠ 0 then failLane c t .misaligned 0 s
  else afterAcc c t (heldAs x true 0) s (geyser s c.ci p x) fun r =>
    match r with
    | .item ws s1 as =>
      let regs := ws.zipIdx.map fun w => (d.toNat + w.2, (⟨BitVec.ofNat 32 w.1, List.replicate c.t 0⟩ : Reg))
      (seen as true (setQ 0x8000 (setLane c t regs s1))).closes c t
    | .dry as => (seen as false (setQ 0 s)).closes c t
    | .wait as => (seen as false s).parkLane t (.geyser x) c.start c.start

/-- FETCHW: R351. -/
def execFetchw (d : BitVec 6) (a : BitVec 6) (c : BitVec 6) (s : State) : Out :=
  frame ⟨true, [.block 4 4 d, .src .i64 a, .idx 8 c], true⟩ s fun k s => eachLane k.active (fetchwLane k d a c.toNat) s

/-- FETCHW_WAKE: the open queue of a parked FETCHW has a record, or is closed: the thread executes its word
again (R352). -/
def execFetchwWake (crew lane : Nat) (s : State) : Out :=
  match s.thread? crew lane with
  | none => .next s
  | some th =>
    match th.run with
    | .parked (.geyser a) =>
      match geyser s crew lane a with
      | .ok (.wait _) => .next s
      | _ => .next (s.wakeRetry crew lane)
    | _ => .next s

/-! ### LAUNCH (R353) -/

/-- LAUNCH in one lane: its commit is a release at the scope of an HSCP, .dev without one (R222, R353). -/
def launchLane (c : Ctx) (d a b : Code) (s : State) (t : Nat) : State :=
  match s.crews[c.ci]? with
  | none => s
  | some cr =>
    let o := (c.r32 t a).toNat
    let q := (c.r32 t b).toNat
    let Q := s.queue q
    if o % 64 ≠ 0 then failLane c t .misaligned 0 s
    else if cr.alloc < o + 64 then failLane c t .resource 0 s
    else if Config.queues ≤ q then failLane c t .illegalOperand 0 s
    else if !qdEn Q || !qdDevw Q || qdErr Q || qdPart Q != cr.part then failLane c t (.fault causeProtection) 0 s
    else if qdAhead Q = 2 ^ qdLcap Q then s.parkLane t (.launchQueue q) c.start c.start
    else
      let at_ := qdBase Q + 64 * (qdWptr Q % 2 ^ qdLcap Q)
      let put : Acc State :=
        (s.laneXlat c.ci (c.place t) cr.part at_ { write := true, device := true }).bind fun g =>
          .ok ((s.performed cr.part (c.scopeOr 2)).physWrite g (cr.scratch.read o 64))
      afterAcc c t (heldAs at_ true 0) s put fun s1 =>
        let s2 := s1.setQueue q (setBits Q 127 96 (qdWptr Q + 1))
        (((setLane c t (plainRegs c.t d.toNat 1 (qdWptr Q)) s2).replayed c.ci (c.place t) at_).released c t).closes c t

/-- LAUNCH: R353. -/
def execLaunch (d : BitVec 6) (a : BitVec 6) (c : BitVec 6) (s : State) : Out :=
  frame ⟨true, [.block 1 1 d, .src .i32 a, .src .i32 c], true⟩ s fun k s => eachLane k.active (launchLane k d a c) s

end Sys2Proof.Machine
end

