-- ==== Sys2Proof/Machine/Graph.lean ====
section
/-!
DEFINITION. Scribe task graphs: GRAPH_START, GRAPH_NODE_START, GRAPH_MATRIX_NODE, GRAPH_NODE_COMPLETE
(R346-R350).
-/

namespace Sys2Proof.Machine

open Sys2Proof

/-! ### Headers and nodes (R346, R347); a node is its 128 bytes as a number -/

def gnKind (n : Nat) : Nat := fld n 7 0
def gnNpred (n : Nat) : Nat := fld n 31 16
def gnCw (n : Nat) : Nat := fld n 127 64
def gnBody (n : Nat) : Nat := fld n 143 128
def gnBodyLen (n : Nat) : Nat := fld n 159 144
def gnArgn (n : Nat) : Nat := fld n 175 160
def gnArgc (n : Nat) : Nat := fld n 215 192
/-- The payload. -/
def gnPay (n : Nat) : BitVec 512 := BitVec.ofNat 512 (fld n 1023 512)
/-- The successors that a node names. -/
def gnSucc (n : Nat) : List Nat :=
  ((List.range 8).map fun i => fld n (256 + 16 * i + 15) (256 + 16 * i)).filter fun x => x ≠ 0xFFFF
/-- COND or WHILE. -/
def gnOwns (n : Nat) : Bool := gnKind n == 5 || gnKind n == 6
/-- Whether node `j` lies in the body of an owner. -/
def inBody (n j : Nat) : Bool := gnOwns n && decide (gnBody n ≤ j ∧ j < gnBody n + gnBodyLen n)

/-- A reserved field of a node that is not zero, or a value outside its range (R346, R347). -/
def nodeBad (count n : Nat) : Bool :=
  let pay := gnPay n
  decide (6 < gnKind n ∨ fld n 15 8 ≠ 0 ∨ fld n 63 32 ≠ 0 ∨ fld n 255 224 ≠ 0 ∨ fld n 511 384 ≠ 0) ||
    (if gnOwns n then
      decide (gnCw n % 8 ≠ 0 ∨ 2 ^ 56 ≤ gnCw n ∨ gnBodyLen n = 0 ∨ 65534 < gnBodyLen n ∨ count < gnBody n + gnBodyLen n ∨
        pay.toNat ≠ 0)
    else decide (gnCw n ≠ 0)) ||
    ((gnSucc n).any fun x => decide (count ≤ x)) ||
    (match gnKind n with
      | 0 => decide (pay.toNat ≠ 0)
      | 2 => decide (bitsOf pay 511 256 ≠ 0 ∨ bitsOf pay 122 120 ≠ 0 ∨ bitsOf pay 58 56 ≠ 0) ||
          isWindow (bitsOf pay 55 0) || isWindow (bitsOf pay 119 64)
      | 3 => decide (fld n 191 176 ≠ 0 ∨ fld n 223 216 ≠ 0)
      | 4 => decide (bitsOf pay 511 136 ≠ 0 ∨ 1 < bitsOf pay 135 128)
      | _ => false)

/-- Whether the successor relation has no cycle: nodes without a predecessor left are struck out, round by round. -/
def acyclic (ns : List Nat) : Nat → List Nat → Bool
  | 0, left => left.isEmpty
  | fuel + 1, left =>
    let named := left.flatMap fun i => gnSucc (ns.getD i 0)
    let rest := left.filter fun i => named.contains i
    if rest.isEmpty then true else if rest.length = left.length then false else acyclic ns fuel rest

/-- The checks of R346 on the nodes of a graph. -/
def graphBad (ns : List Nat) : Bool :=
  let count := ns.length
  let idx := List.range count
  let owners := idx.filter fun i => gnOwns (ns.getD i 0)
  let body (i : Nat) : Nat × Nat := (gnBody (ns.getD i 0), gnBody (ns.getD i 0) + gnBodyLen (ns.getD i 0))
  ns.any (nodeBad count) ||
    (idx.any fun j => decide (gnNpred (ns.getD j 0) ≠ (ns.filter fun n => (gnSucc n).contains j).length)) ||
    (owners.any fun i => owners.any fun j =>
      let a := body i
      let b := body j
      i != j && decide (a.1 < b.2 ∧ b.1 < a.2) && !(decide (a.1 ≤ b.1 ∧ b.2 ≤ a.2)) && !(decide (b.1 ≤ a.1 ∧ a.2 ≤ b.2))) ||
    (owners.any fun i => idx.any fun j => (gnSucc (ns.getD j 0)).any fun k =>
      inBody (ns.getD i 0) j != inBody (ns.getD i 0) k) ||
    !acyclic ns count idx

namespace State

/-- The header of a graph's node array. -/
def graphHeader (g : Graph) : Nat := (pktEntry g.packet).toNat

/-- Bytes as the walker of a graph reads them: none while a translation fault holds it, and no number where they cannot
be read, a poisoned block among them (R397). -/
def walkerRead (s : State) (g : Graph) (va n : Nat) : Option (Option Nat) :=
  match s.readG g.part g.die va n true with
  | .ok bs => some (some (leNat bs))
  | .fault _ _ => none
  | _ => some none

/-- Node `i` of a graph, as it stands in memory. -/
def graphNode (s : State) (g : Graph) (i : Nat) : Option (Option Nat) :=
  s.walkerRead g (graphHeader g + 64 + 128 * i) 128

/-- Every node of a graph. -/
def graphNodes (s : State) (g : Graph) (count : Nat) : Option (List (Option Nat)) :=
  allSome ((List.range count).map fun i => s.graphNode g i)

/-- Whether a node cannot be read. -/
def nodeLost (s : State) (g : Graph) (i : Nat) : Bool := s.graphNode g i == some none

/-- The walker that runs the graphs of a die: of the next die that has one (R396). -/
def walkerFor (s : State) (die : Nat) : Nat :=
  (((List.range 8).map fun i => (die + i) % 8).find? fun d => !s.module.scribesOut.contains d).getD die

/-- The graph that a walker runs. -/
def activeGraph (s : State) (w : Nat) : Option Nat :=
  s.graphs.findIdx? fun g => s.walkerFor g.die == w && g.started && !g.done

/-- The next graph of a walker. -/
def nextGraph (s : State) (w : Nat) : Option Nat :=
  s.graphs.findIdx? fun g => s.walkerFor g.die == w && !g.started && !g.done

end State

/-! ### What may start (R348, R349) -/

/-- The owner whose body directly holds node `i`: the smallest body that contains it. -/
def ownerOf (ns : List Nat) (i : Nat) : Option Nat :=
  ((List.range ns.length).filter fun j => inBody (ns.getD j 0) i).foldl (fun b j =>
    match b with
    | none => some j
    | some k => if gnBodyLen (ns.getD j 0) < gnBodyLen (ns.getD k 0) then some j else some k) none

/-- Whether a node may start: its predecessors are done, and its owner's body runs. -/
def startable (ns : List Nat) (st : List NodeState) (i : Nat) : Bool :=
  st.getD i .done == .idle &&
    ((List.range ns.length).all fun j => !(gnSucc (ns.getD j 0)).contains i || st.getD j .idle == .done) &&
    match ownerOf ns i with
    | none => true
    | some o => st.getD o .idle == .running

/-- A node that is under way. -/
def NodeState.busy : NodeState → Bool
  | .running => true
  | .waitCrew => true
  | .ended _ => true
  | _ => false

/-- Whether the body of an owner has completed: every node that lies directly in it. -/
def bodyDone (ns : List Nat) (st : List NodeState) (o : Nat) : Bool :=
  (List.range ns.length).all fun i => ownerOf ns i != some o || st.getD i .idle == .done

/-- The nodes of a body reset (R349). -/
def resetBody (n : Nat) (st : List NodeState) : List NodeState := st.mapIdx fun j x => if inBody n j then .idle else x

namespace State

def setNode (s : State) (gi i : Nat) (x : NodeState) : State :=
  s.updGraph gi fun G => { G with nodes := G.nodes.set i x }

/-- How the read of a condition word goes: its value, a status that ends the node, or none while it is held. -/
def condition (s : State) (g : Graph) (n : Nat) : Option (Except Nat Nat) :=
  if isWindow (gnCw n) then some (.error 3)
  else
    match s.readG g.part g.die (gnCw n) 8 with
    | .ok bs => some (.ok (leNat bs))
    | .fault _ _ => none
    | _ => some (.error 3)

/-- A COND or WHILE reads its condition word (R349). -/
def ownerStarts (s : State) (gi i : Nat) (g : Graph) (n : Nat) : Option State :=
  match s.condition g n with
  | none => none
  | some (.error st) => some (s.setNode gi i (.ended st))
  | some (.ok 0) => some (s.setNode gi i (.ended 1))
  | some (.ok _) => some ((s.updGraph gi fun G => { G with nodes := resetBody n G.nodes }).setNode gi i .running)

/-- A FEED node's writes (R347, R350): none while a translation fault holds them. -/
def feed (s : State) (gi i : Nat) (g : Graph) (n : Nat) : Option State :=
  let p := gnPay n
  let a := bitsOf p 55 0
  let q := bitsOf p 119 64
  let close := decide (bitsOf p 135 128 = 1)
  let ends (s : State) (st : Nat) : Option State := some (s.setNode gi i (.ended st))
  if a % 64 ≠ 0 then ends s 2
  else if isWindow a || (!close && isWindow q) then ends s 3
  else
    match s.xlat g.part a { write := true, kindOk := plainPage } with
    | .ok pg =>
      let fl := leNat (s.physRead g.die { pg with pa := pg.pa + 1 } 1)
      let put (at_ : Nat) (bs : List Byte) (s : State) : State := s.physWrite { pg with pa := pg.pa + at_ } bs
      let s1 :=
        if close then put 1 (leBytes 1 (fl / 2 * 2 + 1)) s
        else put 1 (leBytes 1 (fl / 2 * 2)) (put 32 (leBytes 8 q) s)
      ends (s1.fireWaiters g.part a 2) 1
    | .fault _ _ => none
    | _ => ends s 3

/-- A node starts (R347): none while it must wait. -/
def startNode (s : State) (gi i : Nat) (g : Graph) (n : Nat) : Option State :=
  let p := gnPay n
  match gnKind n with
  | 0 => some (s.setNode gi i (.ended 1))
  | 1 =>
    match (if pktKind p = 1 then s.packetCheck g.part p else some 2) with
    | some st =>
      match s.packetStamp g.part p st with
      | .written s1 => some ((s1.addGrid p g.queue g.part (some (gi, i)) .refused).setNode gi i (.ended st))
      | .lost => some ((s.addGrid p g.queue g.part (some (gi, i)) .refused).setNode gi i (.ended st))
      | .held => none
    | none => some ((s.addGrid p g.queue g.part (some (gi, i)) .waiting).setNode gi i .running)
  | 2 =>
    let k := 8 * s.walkerFor g.die
    if Config.copiesInFlight ≤ s.copiesOf k none then none
    else
      let cmd : BitVec 256 := p.truncate 256
      let op : CopyOp := ⟨k, g.part, none, some (gi, i), cmd, ⟨false, false, 0, 0, 0, 0, 0⟩, false, false, none, none,
        s.moves.length⟩
      some ({ s with copies := s.copies ++ [op] }.setNode gi i .running)
  | 3 => some (s.setNode gi i .waitCrew)
  | 4 => s.feed gi i g n
  | _ => s.ownerStarts gi i g n

/-- Nodes of a walker that are under way. -/
def walkerBusy (s : State) (w : Nat) : Nat :=
  (s.graphs.filter fun g => s.walkerFor g.die == w && !g.done).foldl (fun n g => n + (g.nodes.filter NodeState.busy).length) 0

/-- What stands for a node that cannot be read: it names no successor and owns nothing. -/
def lostNode : Nat := 2 ^ 384 - 2 ^ 256

/-- The active graph of a walker with its nodes. -/
def graphNow (s : State) (w : Nat) : Option (Nat × Graph × List Nat) :=
  (s.activeGraph w).bind fun gi => (s.graphs[gi]?).bind fun g =>
    (s.graphNodes g g.nodes.length).map fun ns => (gi, g, ns.map fun n => n.getD lostNode)

/-- The node that a walker starts next: the lowest that may (R348); one that cannot be read stands before them, since its
graph fails at it (R397). -/
def nextNode (s : State) (g : Graph) (ns : List Nat) : Option Nat :=
  ((List.range ns.length).find? fun i => g.nodes.getD i .done == .idle && s.nodeLost g i).orElse fun _ =>
    (List.range ns.length).find? fun i => startable ns g.nodes i

/-- Whether a grid, copy or matrix operation of a node is there. -/
def nodeWork (s : State) (gi i : Nat) : Bool :=
  (s.grids.any fun x => x.node == some (gi, i)) || (s.copies.any fun (o : CopyOp) => o.node == some (gi, i)) ||
    s.clusters.any fun (K : Cluster) => K.entries.any fun (e : MEntry) => e.node == some (gi, i)

end State

/-- GRAPH_NODE_START: the lowest node that may start does (R348); one that cannot be read ends with FAULT (R397). -/
def execGraphNodeStart (w node : Nat) (s : State) : Out :=
  match s.graphNow w with
  | none => .next s
  | some (gi, g, ns) =>
    if g.failed.isSome || s.nextNode g ns != some node || decide (Config.walkerNodes ≤ s.walkerBusy w) || !s.works then
      .next s
    else if s.nodeLost g node then .next (s.setNode gi node (.ended 3))
    else
      match s.startNode gi node g (ns.getD node 0) with
      | some s1 => .next s1
      | none => .next s

/-! ### Matrix nodes (R347) -/

/-- The crew that a matrix node names, or its end: none while it must wait. -/
def matrixCrew (s : State) (gi : Nat) (ns : List Nat) (n : Nat) : Option (Option Nat) :=
  let argn := gnArgn n
  if ns.length ≤ argn ∨ gnKind (ns.getD argn 0) ≠ 1 then some none
  else
    match (s.grids.zipIdx.filter fun x => x.1.node == some (gi, argn)).getLast? with
    | none => none
    | some (x, k) =>
      if x.status = .refused ∨ (!pktPrs x.packet ∧ pktNcrew x.packet ≤ gnArgc n) then some none
      else
        match s.crews.findIdx? fun cr => cr.grid == k && cr.num == gnArgc n with
        | none => if x.status = .live ∨ x.status = .waiting then none else some none
        | some ci =>
          match s.crews[ci]?.map fun (cr : Crew) => cr.status with
          | some .resident => some (some ci)
          | some .released => some none
          | _ => none

/-- GRAPH_MATRIX_NODE: a matrix node whose crew is resident issues its block (R347). -/
def execGraphMatrixNode (w node : Nat) (s : State) : Out :=
  match s.graphNow w with
  | none => .next s
  | some (gi, g, ns) =>
    if g.nodes.getD node .idle != .waitCrew then .next s
    else if s.nodeLost g node then .next (s.setNode gi node (.ended 3))
    else
      let n := ns.getD node 0
      match matrixCrew s gi ns n with
      | none => .next s
      | some none => .next (s.setNode gi node (.ended 2))
      | some (some ci) =>
        match s.crews[ci]? with
        | none => .next s
        | some cr =>
          let p := gnPay n
          let k := clusterOf cr.core
          match mmCheck cr p with
          | some _ => .next (s.setNode gi node (.ended 2))
          | none =>
            match tileTest cr p with
            | .trap _ => .next (s.setNode gi node (.ended 2))
            | .wait _ => .next s
            | .ready =>
              if s.tableFull k then .next s
              else .next ((s.addEntry k (blockEntry s ci cr p (some (gi, node)) 0 0 0)).setNode gi node .running)

/-! ### Completion (R348, R349) -/

namespace State

/-- The graph's end, once no node is under way and none may start: FAILN, then its stamp.  None while the
stamp is held. -/
def endGraph (s : State) (gi : Nat) (ns : List Nat) : Option State :=
  match s.graphs[gi]? with
  | none => some s
  | some g =>
    let may := g.failed.isNone && (List.range ns.length).any fun i => startable ns g.nodes i
    -- after a failure an owner's body goes no further, and a launch that a matrix node waits for never comes
    let stuck (i : Nat) : Bool :=
      (gnOwns (ns.getD i 0) && g.nodes.getD i .idle == .running) ||
        (g.nodes.getD i .idle == .waitCrew && !s.grids.any fun x => x.node == some (gi, gnArgn (ns.getD i 0)))
    let busy := (List.range ns.length).any fun i => (g.nodes.getD i .idle).busy && !(g.failed.isSome && stuck i)
    if busy || may then some s
    else
      let (st, s1) := match g.failed with
        | none => (1, s)
        | some (i, st) => (st, s.devWrite g.part (graphHeader g + 8) (leBytes 4 i))
      match s1.packetStamp g.part g.packet st with
      | .written s2 => some (s2.updGraph gi fun G => { G with done := true })
      | .lost => some (s1.updGraph gi fun G => { G with done := true })
      | .held => none

/-- A node's result taken by the walker: none while it must wait. -/
def nodeResult (s : State) (gi node : Nat) (g : Graph) (ns : List Nat) : Option State :=
  match g.nodes.getD node .idle with
  | .ended 1 => some (s.setNode gi node .done)
  | .ended st =>
    let low := match g.failed with
      | some (j, x) => if j < node then (j, x) else (node, st)
      | none => (node, st)
    some ((s.setNode gi node (.failed st)).updGraph gi fun G => { G with failed := some low })
  | .running =>
    let n := ns.getD node 0
    if gnOwns n && bodyDone ns g.nodes node then
      if gnKind n = 5 then some (s.setNode gi node .done)
      else
        match s.condition g n with
        | none => none
        | some (.error st) => some (s.setNode gi node (.ended st))
        | some (.ok 0) => some (s.setNode gi node .done)
        | some (.ok _) =>
          if g.failed.isSome then some (s.setNode gi node .done)
          else some (s.updGraph gi fun G => { G with nodes := resetBody n G.nodes })
    else if s.nodeLost g node && !s.nodeWork gi node then some (s.setNode gi node (.ended 3))
    else none
  | _ => none

end State

/-- GRAPH_START: a walker takes its next graph and checks it (R346); one that cannot be read ends with FAULT (R397), and
one whose nodes can never start ends at once (R348). -/
def execGraphStart (w : Nat) (s : State) : Out :=
  match s.activeGraph w, s.nextGraph w with
  | none, some gi =>
    match s.graphs[gi]? with
    | none => .next s
    | some g =>
      let refuse (st : Nat) : Out :=
        match s.packetStamp g.part g.packet st with
        | .written s1 => .next (s1.updGraph gi fun G => { G with done := true })
        | .lost => .next (s.updGraph gi fun G => { G with done := true })
        | .held => .next s
      if !s.works then .next s
      else
        match s.walkerRead g (State.graphHeader g) 64 with
        | none => .next s
        | some none => refuse 3
        | some (some h) =>
          let count := fld h 31 0
          if count = 0 ∨ 65535 < count ∨ fld h 63 32 ≠ 0 ∨ fld h 511 96 ≠ 0 then refuse 2
          else
            match s.graphNodes g count with
            | none => .next s
            | some ns =>
              match allSome ns with
              | none => refuse 3
              | some ns =>
                if graphBad ns then refuse 2
                else
                  let s1 := (s.devWrite g.part (State.graphHeader g + 8) (leBytes 4 0xFFFF)).updGraph gi fun G =>
                    { G with started := true, nodes := List.replicate count .idle }
                  .next ((s1.endGraph gi ns).getD s)
  | _, _ => .next s

/-- GRAPH_NODE_COMPLETE: R348, R349. -/
def execGraphNodeComplete (w node : Nat) (s : State) : Out :=
  match s.graphNow w with
  | none => .next s
  | some (gi, g, ns) =>
    match (s.nodeResult gi node g ns).bind fun s1 => s1.endGraph gi ns with
    | some s1 => .next s1
    | none => .next s

end Sys2Proof.Machine
end

