-- ==== Sys2Proof/Machine/Collective.lean ====
section
/-!
DEFINITION. The collective units (R80, R81, R379-R384).
-/

namespace Sys2Proof.Machine

open Sys2Proof
open Sys2Proof.Num (Fmt Flags XR fp32 bf16)

/-! ### Commands and communicators (R379, R381) -/

def ccSrc (c : BitVec 512) : Nat := bitsOf c 55 0
def ccDst (c : BitVec 512) : Nat := bitsOf c 119 64
def ccStamp (c : BitVec 512) : Nat := bitsOf c 183 128
def ccCount (c : BitVec 512) : Nat := bitsOf c 223 192
def ccSeq (c : BitVec 512) : Nat := bitsOf c 255 224
def ccComm (c : BitVec 512) : Nat := bitsOf c 271 256
def ccOp (c : BitVec 512) : Nat := bitsOf c 279 272
def ccWire (c : BitVec 512) : Nat := bitsOf c 287 280
def ccRsc (c : BitVec 512) : Nat := bitsOf c 291 290
/-- Bytes of a value on the wire. -/
def wireBytes (w : Nat) : Nat := if w = 0 then 4 else 2
/-- The wire format. -/
def wireFmt (w : Nat) : Fmt := if w = 0 then fp32 else bf16

/-- A communicator, as its descriptor tells (R379). -/
structure Comm where
  ranks : Nat
  rank : Nat
  peers : Nat
  stage : Nat
  slen : Nat
  tmo : Nat
  deriving DecidableEq, Repr

/-- A communicator's descriptor; none where it is not one. -/
def communicator (s : State) (part comm : Nat) : Option Comm :=
  if 64 ≤ comm then none
  else
    (s.devNat part ((s.part part).at 80 7 + 64 * comm) 64).bind fun d =>
      let p := fld d 31 0
      let r := fld d 63 32
      if p = 0 ∨ 4096 < p ∨ p ≤ r ∨ fld d 127 120 ≠ 0 ∨ fld d 191 184 ≠ 0 ∨ fld d 183 128 % 64 ≠ 0 ∨ fld d 511 288 ≠ 0 then none
      else some ⟨p, r, fld d 119 64, fld d 183 128, fld d 255 192, fld d 287 256⟩

/-- How messages to a rank leave: over the send queue that PEERS names for it (R379). -/
def rankRoute (s : State) (part comm rank : Nat) : Option Route :=
  (communicator s part comm).bind fun d => (s.devNat part (d.peers + 2 * rank) 2).bind fun q => (s.sendQueue part q).map State.routeOf

/-- Whether the unit rejects a command (R381). -/
def ccReject (s : State) (part : Nat) (c : BitVec 512) : Bool :=
  decide (bitsOf c 63 56 ≠ 0 ∨ bitsOf c 127 120 ≠ 0 ∨ bitsOf c 191 184 ≠ 0 ∨ bitsOf c 295 292 ≠ 0 ∨ bitsOf c 511 296 ≠ 0 ∨
      ccSrc c % 64 ≠ 0 ∨ ccDst c % 64 ≠ 0 ∨ ccStamp c % 8 ≠ 0 ∨ ccCount c = 0 ∨ 2 ^ 24 ≤ ccCount c ∨ 2 < ccOp c ∨ 1 < ccWire c) ||
    match communicator s part (ccComm c) with
    | none => true
    | some d => decide (d.slen < 2 * ccCount c * wireBytes (ccWire c))

/-! ### The tree (R80) -/

/-- The largest power of two below `n`, for 2 ≤ n ≤ 4096. -/
def halfTree (n : Nat) : Nat := ((List.range 12).reverse.map fun i => 2 ^ i).find? (fun h => h < n) |>.getD 1

/-- The ranks whose node values rank `r` adds to its own, in order; `n` ranks from `lo` on.  Fuel: levels. -/
def treeChildren : Nat → Nat → Nat → Nat → List Nat
  | 0, _, _, _ => []
  | fuel + 1, lo, n, r =>
    if n ≤ 1 then []
    else
      let h := halfTree n
      if r < lo + h then treeChildren fuel lo h r ++ (if r = lo then [lo + h] else [])
      else treeChildren fuel (lo + h) (n - h) r

/-- The rank that rank `r` sends its node value to. -/
def treeParent : Nat → Nat → Nat → Nat → Option Nat
  | 0, _, _, _ => none
  | fuel + 1, lo, n, r =>
    if n ≤ 1 then none
    else
      let h := halfTree n
      if r < lo + h then treeParent fuel lo h r
      else if r = lo + h then some lo
      else treeParent fuel (lo + h) (n - h) r

def CollOp.children (op : CollOp) : List Nat := treeChildren 13 0 op.ranks op.rank
def CollOp.parent (op : CollOp) : Nat := (treeParent 13 0 op.ranks op.rank).getD 0

/-- One tree node on one element (R81): the sum rounded once, or the exact minimum or maximum, which treats NaN
and zeros as FMIN and FMAX do (R136). -/
def collNode (op : Nat) (f : Fmt) (a b : Nat) : Nat × Flags :=
  let x := Num.decodeF f a
  let y := Num.decodeF f b
  let snan := Num.isSNaN f a || Num.isSNaN f b
  if op = 0 then
    let r := Num.roundX f .rne (x.add .rne y)
    let clash := match x, y with
      | .inf p, .inf q => p != q
      | _, _ => false
    (r.1, r.2.or { inv := snan || clash })
  else
    let less := x.lt y || (x.isZero && y.isZero && x.sign && !y.sign)
    let more := y.lt x || (x.isZero && y.isZero && y.sign && !x.sign)
    let v :=
      if x.isNaN && y.isNaN then Num.canonNaN f
      else if x.isNaN then b
      else if y.isNaN then a
      else if op = 1 then (if more then b else a)
      else (if less then b else a)
    (v, { inv := snan })

/-- A node on whole vectors. -/
def collNodes (op : Nat) (f : Fmt) (a b : List Word) : List Word × BitVec 6 :=
  let rs := (a.zip b).map fun x => collNode op f x.1.toNat x.2.toNat
  (rs.map fun r => BitVec.ofNat 32 r.1, (rs.foldl (fun fl r => fl.or r.2) ({} : Flags)).toBits)

/-- A rank's contribution on the wire (R382, R59). -/
def contribution (wire : Nat) (bs : List Byte) : List Word × BitVec 6 :=
  let rs := (List.range (bs.length / 4)).map fun i =>
    Num.convertF fp32 (wireFmt wire) .rne (leNat ((bs.drop (4 * i)).take 4))
  (rs.map fun r => BitVec.ofNat 32 r.1, (rs.foldl (fun fl r => fl.or r.2) ({} : Flags)).toBits)

namespace State

def setColl (s : State) (i : Nat) (op : CollOp) : State := { s with colls := s.colls.set i op }

/-- A message to one rank. -/
def sendColl (s : State) (op : CollOp) (rank : Nat) (m : CollMsg) : State :=
  s.emit (.coll (rankRoute s op.part (ccComm op.cmd) rank) (ccComm op.cmd) op.seq rank m)

/-- A message to every other rank. -/
def sendAll (s : State) (op : CollOp) (m : CollMsg) : State :=
  ((List.range op.ranks).filter fun r => r ≠ op.rank).foldl (fun s r => s.sendColl op r m) s

/-- The flags and FRANK of a stamp (R383, R384); free values where the spec gives none (log 25). -/
def collStamp (s : State) (op : CollOp) (st : Nat) : Nat :=
  let flags : BitVec 6 := if st = 1 then op.flags else if st = 2 then 0 else Config.collFlags s.free
  let rank : BitVec 16 :=
    if st = 1 then 0xFFFF
    else if st = 0x14 then BitVec.ofNat 16 (op.failed.foldl min (op.failed.headD 0))
    else Config.collRank s.free
  ccSeq op.cmd * 2 ^ 32 + st * 2 ^ 24 + flags.toNat * 2 ^ 16 + rank.toNat

/-- The stamp of operation `i`, whose status stands: written, lost, or held by a fault of its own. -/
def endColl (s : State) (i : Nat) (op : CollOp) (st : Nat) : State :=
  let gone (s : State) : State := { s with colls := s.colls.eraseIdx i, free := s.free + 1 }
  match s.engineWrite none op.part (ccStamp op.cmd) (leBytes 8 (s.collStamp op st)) with
  | .ok s1 => (gone s1).fireWaiters op.part (ccStamp op.cmd) (ccRsc op.cmd)
  | .fault _ _ => if op.refused then gone s else s.setColl i { op with outcome := some st }
  | _ => gone s

/-- An access of operation `i` that failed: it waits, or its rank has failed and says so to every other (R383). -/
def collFault {α : Type} (s : State) (i : Nat) (op : CollOp) (a : Acc α) : State :=
  let ends : State := (s.sendAll op (.failed op.rank)).endColl i { op with refused := false } 3
  match a with
  | .fault _ _ => if op.refused then ends else s
  | .hold => s
  | _ => ends

/-- Whether operation `i` is the first of its communicator. -/
def collFirst (s : State) (i : Nat) (op : CollOp) : Bool :=
  !(s.colls.take i).any fun x => x.part == op.part && ccComm x.cmd == ccComm op.cmd

end State

/-- The node value that a rank has sent. -/
def CollOp.nodeFrom (op : CollOp) (r : Nat) : Option CollMsg :=
  (op.inbox.find? fun m => m.1 == r && match m.2 with
    | .node _ _ _ _ _ => true
    | _ => false).map Prod.snd

/-- Whether a rank has sent a message of one kind. -/
def CollOp.has (op : CollOp) (r : Nat) (m : CollMsg) : Bool := op.inbox.any fun x => x.1 == r && x.2 == m

/-- The value of this rank's node, from its contribution and its children's; none while one is missing. -/
def CollOp.fold (op : CollOp) : List Nat → List Word × BitVec 6 → Option (List Word × BitVec 6)
  | [], x => some x
  | r :: rs, x =>
    match op.nodeFrom r with
    | some (.node _ _ _ vals fl) =>
      let y := collNodes (ccOp op.cmd) (wireFmt (ccWire op.cmd)) x.1 vals
      CollOp.fold op rs (y.1, x.2 ||| fl ||| y.2)
    | _ => none

/-- A reducing step of operation `i` (R382): its rank's node, once its children's values are here.  The staging
area is overwritten (log 24). -/
def reduceColl (kind i : Nat) (s : State) : State :=
  match s.colls[i]? with
  | none => s
  | some op =>
    if ccOp op.cmd ≠ kind ∨ op.sent ∨ op.outcome.isSome ∨ !s.collFirst i op then s
    else
      let n := ccCount op.cmd
      match s.readG op.part 0 (ccSrc op.cmd) (4 * n) with
      | .ok bs =>
        match op.fold op.children (contribution (ccWire op.cmd) bs) with
        | none => s
        | some (vals, fl) =>
          let bytes := 2 * n * wireBytes (ccWire op.cmd)
          let stage := ((communicator s op.part (ccComm op.cmd)).map Comm.stage).getD 0
          match s.writeG op.part stage ((List.range bytes).map fun j => Config.stageByte (s.free + j)) with
          | .ok s1 =>
            let op1 := { op with value := some vals, flags := fl, sent := true }
            let s2 := { s1 with free := s1.free + bytes }
            if op.rank = 0 then (s2.setColl i { op1 with root := some vals }).sendAll op (.root vals fl)
            else (s2.setColl i op1).sendColl op op.parent (.node n kind (ccWire op.cmd) vals fl)
          | a => s.collFault i op a
      | a => s.collFault i op a

/-- The words that an operation writes at DST, one operation's among those in flight (R231, R382). -/
def collPut (s : State) (op : CollOp) (vals : List Word) : Acc State :=
  (Acc.all (s.outWords none op.part 0 (ccDst op.cmd) 4
    (vals.flatMap fun v => leBytes (wireBytes (ccWire op.cmd)) v.toNat))).bind fun ws =>
      .ok (s.settleWords op.since 0 true (fun s _ => s) ws)

/-- The last step of operation `i`: rank 0 commits once every rank has acknowledged the root; a rank that has the
commit writes DST, then its stamp (R382). -/
def commitColl (i : Nat) (s : State) : State :=
  match s.colls[i]? with
  | none => s
  | some op =>
    match op.outcome, op.root with
    | some st, _ => s.endColl i op st
    | none, none => s
    | none, some vals =>
      let all := (List.range op.ranks).all fun r => r == 0 || op.has r .ack
      let mine := op.has 0 .commit
      if !(mine || (op.rank == 0 && all)) then s
      else
        match collPut s op vals with
        | .ok s1 =>
          let s2 := if op.rank = 0 ∧ !mine then s1.sendAll op .commit else s1
          s2.endColl i op 1
        | a =>
          if op.rank = 0 ∧ !mine then
            (s.sendAll op .commit).setColl i { op with inbox := op.inbox ++ [(0, .commit)] }
          else s.collFault i op a

/-- COLLECTIVE_SUM: R382. -/
def execCollectiveSum (i : Nat) (s : State) : Out := .next (reduceColl 0 i s)
/-- COLLECTIVE_MIN: R382. -/
def execCollectiveMin (i : Nat) (s : State) : Out := .next (reduceColl 1 i s)
/-- COLLECTIVE_MAX: R382. -/
def execCollectiveMax (i : Nat) (s : State) : Out := .next (reduceColl 2 i s)
/-- COLLECTIVE_COMMIT: R382. -/
def execCollectiveCommit (i : Nat) (s : State) : Out := .next (commitColl i s)

/-- What a message from `rank` does to operation `i` (R381, R382, R384). -/
def receiveColl (i rank : Nat) (msg : CollMsg) (s : State) : State :=
  match s.colls[i]? with
  | none => s
  | some op =>
    if op.outcome.isSome then s
    else
      let keep := s.setColl i { op with inbox := op.inbox ++ [(rank, msg)] }
      match msg with
      | .node n k w _ _ =>
        if n ≠ ccCount op.cmd ∨ k ≠ ccOp op.cmd ∨ w ≠ ccWire op.cmd then (s.sendAll op .mismatch).endColl i op 0x15 else keep
      | .root vals fl =>
        if rank ≠ 0 ∨ op.rank = 0 then s
        else (s.setColl i { op with root := some vals, flags := fl }).sendColl op 0 .ack
      | .ack => keep
      | .commit => keep
      | .mismatch => s.endColl i op 0x15
      | .failed r => if op.has 0 .commit then s else s.endColl i { op with failed := r :: op.failed } 0x14

/-- The place among the collectives of a communicator's command. -/
def collAt (s : State) (part comm seq : Nat) : Option Nat :=
  s.colls.findIdx? fun x => x.part == part && ccComm x.cmd == comm && x.seq == seq

/-- The commands that this rank has taken from a communicator (R381). -/
def collsTaken (s : State) (part comm : Nat) : Nat := (Sparse.get s.collSeqs (64 * part + comm)).toNat

/-- COLLECTIVE_MESSAGE: a message for command `seq` of a communicator of the partition that JOB names; one for a command
that this rank has not taken yet waits for it, and one for a command that is over is dropped (R375, R381, R382, R384,
log 39). -/
def execCollectiveMessage (job : BitVec 32) (cmd : CommandRef) (rank : Nat) (msg : CollMsg) (s : State) : Out :=
  match s.partOf job with
  | none => .next s
  | some part =>
    match collAt s part cmd.comm cmd.seq with
    | some i => .next (receiveColl i rank msg s)
    | none =>
      if cmd.seq < collsTaken s part cmd.comm ∨ 64 ≤ cmd.comm then .next s
      else .next { s with collEarly := s.collEarly ++ [⟨part, cmd.comm, cmd.seq, rank, msg⟩] }

/-- Whether operation `op` waits for a message of a rank. -/
def CollOp.waitsFor (op : CollOp) (r : Nat) : Bool :=
  if op.has 0 .commit then false
  else if !op.sent then op.children.contains r && (op.nodeFrom r).isNone
  else if op.rank = 0 then decide (r < op.ranks ∧ r ≠ 0) && !op.has r .ack
  else r == 0

/-- The units of 2^10 counter cycles that TMO stands for (R379). -/
def Comm.timeout (d : Comm) : Nat := if d.tmo = 0 then 2 ^ 32 else d.tmo

/-- COLLECTIVE_TIMEOUT: this rank has waited for a message of a rank for so many units of 2^10 counter cycles; after
more than TMO it declares that rank failed, tells the others, and completes with FAILED (R384). -/
def execCollectiveTimeout (i : Nat) (wait : CollWait) (s : State) : Out :=
  match s.colls[i]? with
  | none => .next s
  | some op =>
    let late := (communicator s op.part (ccComm op.cmd)).any fun d => decide (d.timeout < wait.waited)
    if op.outcome.isSome || !op.waitsFor wait.rank || !late || !s.collFirst i op then .next s
    else .next ((s.sendAll op (.failed wait.rank)).endColl i { op with failed := wait.rank :: op.failed } 0x14)

/-! ### Rings (R380) -/

/-- The messages that came early for a command reach it. -/
def receiveEarly (part comm seq : Nat) (s : State) : State :=
  let mine (m : CollEarly) : Bool := m.part == part && m.comm == comm && m.seq == seq
  (s.collEarly.filter mine).foldl (fun s m =>
    match collAt s part comm seq with
    | some i => receiveColl i m.rank m.msg s
    | none => s) { s with collEarly := s.collEarly.filter fun m => !mine m }

/-- A command is taken (R380, R381). -/
def takeCommand (part ring : Nat) (c : BitVec 512) (s : State) : State :=
  let comm := ccComm c
  let d := (communicator s part comm).getD ⟨1, 0, 0, 0, 0, 0⟩
  let op : CollOp := ⟨part, ring, c, collsTaken s part comm, d.rank, d.ranks, [], none, 0, false, none, [], none,
    false, s.moves.length⟩
  let s1 : State := { s with colls := s.colls ++ [op] }
  if 64 ≤ comm then s1.endColl s.colls.length op 2
  else
    let s2 : State := { s1 with collSeqs := Sparse.set s1.collSeqs (64 * part + comm) (BitVec.ofNat 64 (op.seq + 1)) }
    if ccReject s part c then s2.endColl s.colls.length op 2 else receiveEarly part comm op.seq s2

/-- Commands from HEAD up to TAIL are taken.  Fuel: the ring's capacity. -/
def takeCommands (part ring hdr lcap : Nat) : Nat → Nat → State → State
  | 0, _, s => s
  | fuel + 1, tail, s =>
    let head := (s.devNat part (hdr + 8) 8).getD tail
    if head = tail then s
    else
      match s.devNat part (hdr + 64 + 64 * (head % 2 ^ lcap)) 64 with
      | none => s
      | some n =>
        let c : BitVec 512 := BitVec.ofNat 512 n
        let s1 := s.devWrite part (hdr + 8) (leBytes 8 ((head + 1) % 2 ^ 64))
        takeCommands part ring hdr lcap fuel tail (takeCommand part ring c s1)

/-- COLLECTIVE_DOORBELL: a write of TAIL that was performed at .dev or wider lets the unit take commands; the unit has
then seen that TAIL (R380). -/
def execCollectiveDoorbell (part ring : Nat) (s0 : State) : Out :=
  let P := s0.part part
  if !s0.works || !P.up || decide (P.at 97 1 ≤ ring) || !s0.rung.contains (part, ring) then .next s0
  else
    let hdr := s0.ringHeader part ring
    match s0.devNat part hdr 64 with
    | none => .next s0
    | some h =>
      let s : State := { s0 with rung := s0.rung.filter fun x => x != (part, ring)
                                 tails := Sparse.set s0.tails (16 * part + ring) (BitVec.ofNat 64 (fld h 63 0)) }
      let lcap := fld h 135 128
      let ahead := (fld h 63 0 + 2 ^ 64 - fld h 127 64) % 2 ^ 64
      if fld h 143 136 ≠ 0 then .next s
      else if 12 < lcap ∨ fld h 511 144 ≠ 0 ∨ 2 ^ lcap < ahead then .next (s.devWrite part (hdr + 17) [1])
      else .next (takeCommands part ring hdr lcap (2 ^ lcap) (fld h 63 0) s)

/-- Whether operation `i` waits on a translation fault (R383). -/
def collHeld (s : State) (i : Nat) (op : CollOp) : Bool :=
  let wait {α : Type} (a : Acc α) : Bool :=
    match a with
    | .fault _ _ => true
    | _ => false
  let n := ccCount op.cmd
  if op.outcome.isSome then wait (s.engineWrite none op.part (ccStamp op.cmd) (leBytes 8 0))
  else if !op.sent then
    s.collFirst i op && (wait (s.readG op.part 0 (ccSrc op.cmd) (4 * n)) ||
      wait (s.writeG op.part (((communicator s op.part (ccComm op.cmd)).map Comm.stage).getD 0)
        (List.replicate (2 * n * wireBytes (ccWire op.cmd)) 0)))
  else op.has 0 .commit && wait (s.writeG op.part (ccDst op.cmd) (List.replicate (n * wireBytes (ccWire op.cmd)) 0))

end Sys2Proof.Machine
end

