-- ==== Sys2Proof/Machine/Control.lean ====
section
/-!
DEFINITION. Control flow: branches, calls, Joiner points, rejoin masks, regions and EXIT (R165-R187).
-/

namespace Sys2Proof.Machine

open Sys2Proof

/-- A thread at a new program counter. -/
def jump (th : Thread) (a : BitVec 56) : Thread := { th with pc := a }

/-- The target of a word offset (R84, R170): modulo 2^56. -/
def relative (addr : BitVec 56) (off : Int) : BitVec 56 := addr + BitVec.ofInt 56 (4 * off)

/-- The checks of a target address, steps 1 and 2 of R171. -/
def badTarget (x : Dword) : Option (Trap × BitVec 56) :=
  if bitsOf x 1 0 ≠ 0 then some (.misaligned, 0)
  else if bitsOf x 63 56 ≠ 0 then some (.fault causeAddress, x.truncate 56)
  else none

/-- What a control word does in each active lane: the thread after it, and whether it left the run. -/
def steer (f : Ctx → Nat → Thread → Thread × Bool) (c : Ctx) (s : State) : State :=
  (s.mapLanes c.ci fun p l =>
    match c.laneOf p with
    | some t => if c.active t then l.updThread fun th => (f c t th).1 else l
    | none => l).updGroup c.core c.slot fun g =>
      { g with lanes := g.lanes.mapIdx fun t r =>
          if c.active t && ((c.lane t).thread?.map fun th => (f c t th).2).getD false then { r with kind := .gone }
          else r }

/-- A call: the address of the next word is pushed (R173). -/
def callTo (c : Ctx) (th : Thread) (a : BitVec 56) : Thread × Bool :=
  match th.push c.next with
  | some th' => (jump th' a, false)
  | none => (th.takeTrap .resource 0 c.start, true)

/-- A thread enters the crew's open batch; where that holds 256 threads, it closes and the thread opens
the next (R176). -/
def Crew.gather (cr : Crew) (now : Nat) (x : Gathered) : Crew :=
  match cr.batch with
  | none => { cr with batch := some ⟨now, [x]⟩ }
  | some b =>
    if b.threads.length < Config.batchThreads then { cr with batch := some { b with threads := b.threads ++ [x] } }
    else { cr with batch := some ⟨now, [x]⟩, moving := cr.moving ++ [b] }

/-- A Joiner point in lane `t` (R175): the target's checks, the push of a CALLJ, then the commit, which
closes the region and gathers the thread. -/
def gatherLane (c : Ctx) (target : Dword) (key : BitVec 16) (lv : Nat) (call : Bool) (s : State) (t : Nat) : State :=
  let fail (tr : Trap) (a : BitVec 56) : State := s.trapLane t tr a c.start
  match badTarget target with
  | some (tr, a) => fail tr a
  | none =>
    match s.thread? c.ci (c.place t) with
    | none => s
    | some th =>
      match (if call then th.push c.next else some th) with
      | none => fail .resource 0
      | some th' =>
        let a : BitVec 56 := target.truncate 56
        let gone : Thread := { th'.closeRegion with run := .parked .joiner, pc := a, cont := a }
        ((s.updThread c.ci (c.place t) fun _ => gone).leave t).updCrew c.ci fun cr =>
          cr.gather (s.core c.core).lclk.toNat ⟨c.place t, a, key, lv⟩

/-- A Joiner point: its active lanes gather in ascending order (R176). -/
def gatherAll (target : Nat → Dword) (key : Nat → BitVec 16) (lv : Nat) (call : Bool) (c : Ctx) (s : State) : State :=
  eachLane c.active (fun s t => gatherLane c (target t) (key t) lv call s t) s

/-- The masks after a JOIN (`set`) or LEAVE: each active lane's own bit of mask k of its home group
(R181).  A mask is read at the end of a cycle only, so the change stands in place. -/
def maskWrite (c : Ctx) (k : Nat) (set : Bool) (masks : List (BitVec 16)) : List (BitVec 16) :=
  ((List.range 16).filter c.active).foldl (fun ms t =>
    let p := c.place t
    ms.modify (12 * (p / 16) + k) fun m =>
      let bit : BitVec 16 := BitVec.ofNat 16 (2 ^ (p % 16))
      if set then m ||| bit else m &&& ~~~bit) masks

/-- REGION in a lane (R186): the marker, the call depth and the stream state are recorded; window accesses count from
here, and what is held stays only where the thread resumes at this marker (R198). -/
def Lane.openRegion (l : Lane) (marker : BitVec 56) (vq : BitVec 14) (qp : BitVec 4) : Lane :=
  l.updThread fun th =>
    { th with
      region := some ⟨marker, vq, qp, th.depth, l.key, l.ctr⟩
      windows := 0
      held := if th.region.isNone then []
        else (th.held.filter fun h => !h.resumed).map fun h => { h with resumed := true } }

/-- BRA: R170. -/
def execBra (o : BitVec 25) (s : State) : Out :=
  frame ⟨true, [], true⟩ s (steer fun g _ th => (jump th (relative g.addr o.toInt), false))

/-- CALL: R173. -/
def execCall (o : BitVec 25) (s : State) : Out :=
  frame ⟨true, [], true⟩ s (steer fun g _ th => callTo g th (relative g.addr o.toInt))

/-- BRQ: R170. -/
def execBrq (g : BitVec 1) (q : BitVec 3) (o : BitVec 18) (s : State) : Out :=
  frame ⟨true, [], true⟩ s (steer fun k t th =>
    let p : Bool := decide (0x4000 ≤ bitsOf ((k.lane t).getQ q.toNat).prim 15 0)
    (if p != (g == 1#1) then jump th (relative k.addr o.toInt) else th, false))

/-- NOP: R97. -/
def execNop (b : Bool) (s : State) : Out :=
  frame ⟨b, [], true⟩ s fun _ s => s

/-- BRX: R171. -/
def execBrx (a : BitVec 6) (s : State) : Out :=
  frame ⟨true, [.src .i64 a], true⟩ s (steer fun g t th =>
    let x := g.prim t .i64 a
    match badTarget x with
    | some (tr, at_) => (th.takeTrap tr at_ g.start, true)
    | none => (jump th (x.truncate 56), false))

/-- CALLX: R171. -/
def execCallx (a : BitVec 6) (s : State) : Out :=
  frame ⟨true, [.src .i64 a], true⟩ s (steer fun g t th =>
    let x := g.prim t .i64 a
    match badTarget x with
    | some (tr, at_) => (th.takeTrap tr at_ g.start, true)
    | none => callTo g th (x.truncate 56))

/-- RET: R173. -/
def execRet  (s : State) : Out :=
  frame ⟨true, [], true⟩ s (steer fun g _ th =>
    match th.pop with
    | some (a, th') => (jump th' a, false)
    | none => (th.takeTrap .resource 0 g.start, true))

/-- CALLJ: R175. -/
def execCallj (l : BitVec 6) (a : BitVec 6) (c : BitVec 6) (s : State) : Out :=
  frame ⟨true, [.live l, .src .i64 a, .src .i32 c], true⟩ s fun g s => gatherAll (fun t => g.prim t .i64 a) (fun t => (g.r32 t c).truncate 16) l.toNat true g s

/-- REGROUP: R175. -/
def execRegroup (l : BitVec 6) (a : BitVec 6) (s : State) : Out :=
  frame ⟨true, [.live l, .src .i32 a], true⟩ s fun g s =>
    gatherAll (fun _ => g.next.zeroExtend 64) (fun t => (g.r32 t a).truncate 16) l.toNat false g s

/-- JOIN: R181. -/
def execJoin (b : Bool) (k : BitVec 6) (s : State) : Out :=
  frame ⟨b, [.idx 12 k], true⟩ s fun g s => s.updCrew g.ci fun cr => { cr with masks := maskWrite g k.toNat true cr.masks }

/-- LEAVE: R181. -/
def execLeave (b : Bool) (k : BitVec 6) (s : State) : Out :=
  frame ⟨b, [.idx 12 k], true⟩ s fun g s => s.updCrew g.ci fun cr => { cr with masks := maskWrite g k.toNat false cr.masks }

/-- WAITM: R182. -/
def execWaitm (k : BitVec 6) (s : State) : Out :=
  frame ⟨true, [.idx 12 k], true⟩ s (steer fun g _ th =>
    ({ th with run := .parked (.mask k.toNat), pc := g.start, cont := g.next }, true))

/-- REGION: R186. -/
def execRegion (b : Bool) (v : BitVec 14) (q : BitVec 4) (s : State) : Out :=
  frame ⟨b, [.first, .quartets v], true⟩ s fun g s =>
    s.mapLanes g.ci fun p l =>
      match g.laneOf p with
      | some t => if g.active t then l.openRegion g.addr v q else l
      | none => l

/-- EXIT: R187. -/
def execExit  (s : State) : Out :=
  frame ⟨true, [], true⟩ s fun g s =>
    eachLane g.active (fun s t => (s.endThread g.ci (g.place t)).leave t) s

end Sys2Proof.Machine
end

