-- ==== Sys2Proof/Machine/SaveArea.lean ====
section
/-!
DEFINITION. The save area: its layout, what a save writes and what a resumption reads; the ring of free
areas, and trap reports (R354-R356, R361, R363, R390).
-/

namespace Sys2Proof.Machine

open Sys2Proof

/-! ### The layout (R354, R355) -/

/-- Bytes of a thread record. -/
def recSize (p : BitVec 512) : Nat := roundUp (256 + 4 * pktW p) 64
def areaUnis : Nat := 256
def areaBars (p : BitVec 512) : Nat := roundUp (areaUnis + 8 * pktUC p) 64
def areaTiles (p : BitVec 512) : Nat := roundUp (areaBars p + 8 * pktBars p) 64
def areaMasks (p : BitVec 512) : Nat := roundUp (areaTiles p + 8 * pktTiles p) 64
def areaRecs (p : BitVec 512) : Nat := roundUp (areaMasks p + 32 * pktH p) 64
def areaPad (p : BitVec 512) : Nat := areaRecs p + 16 * recSize p * pktH p
def areaAccs (p : BitVec 512) : Nat := areaPad p + pktAlloc p
/-- Bytes of the whole area. -/
def areaSize (p : BitVec 512) : Nat := areaAccs p + pktAccum p / 2 * 4160
/-- Where the record of lane `li` stands. -/
def areaRec (p : BitVec 512) (li : Nat) : Nat := areaRecs p + li * recSize p

/-- Numbers as their bytes, each of `k` bytes. -/
def bytesOf (k : Nat) (l : List Nat) : List Byte := l.flatMap (leBytes k)

/-- A list of bytes filled up with zeros to `n`. -/
def padTo (n : Nat) (bs : List Byte) : List Byte := bs ++ List.replicate (n - bs.length) 0

/-! ### Writing -/

/-- TRW of a trap record (R361). -/
def TrapRec.word (r : TrapRec) : Nat :=
  2 ^ 56 + r.cause.toNat * 2 ^ 52 + r.code.toNat * 2 ^ 48 + r.nest.toNat * 2 ^ 32 + r.held.toNat

/-- PW and PWA of a pending-wait record (R355). -/
def PendWait.words : PendWait → Nat × Nat
  | .barSyn b k => (2 ^ 56 + b * 2 ^ 48 + k.toNat, 0)
  | .gbar b k => (2 * 2 ^ 56 + b * 2 ^ 48 + k.toNat, 0)
  | .mbPut a k => (3 * 2 ^ 56 + k.toNat, a.toNat)
  | .mbTake a k => (4 * 2 ^ 56 + k.toNat, a.toNat)
  | .trace o => (5 * 2 ^ 56 + o, 0)
  | .tracep n o => (6 * 2 ^ 56 + n * 2 ^ 48 + o, 0)

/-- The words of a lane's registers: V0 to V(C − 1), then Q0 to Q7, each with its tangents. -/
def Lane.words (l : Lane) : List Nat := (l.v ++ l.q).flatMap fun r => r.prim.toNat :: r.tan.map BitVec.toNat

/-- A thread record (R355).  A thread saved at its region's marker still shows its region. -/
def Lane.record (p : BitVec 512) (l : Lane) : List Byte :=
  let size := recSize p
  match l.occ with
  | .never => List.replicate size 0
  | .exited tid =>
    padTo size (bytesOf 8 [2 ^ 60, l.key.toNat, l.ctr.toNat, 0, 0, 0, 0, tid] ++ List.replicate 192 0 ++ bytesOf 4 l.words)
  | .thread t =>
    let w := (t.pendWait.map PendWait.words).getD (0, 0)
    padTo size (bytesOf 8 [(if t.region.isSome then 2 else 3) * 2 ^ 60 + t.pc.toNat, l.key.toNat, l.ctr.toNat, 0,
        t.flags.toNat + t.depth * 2 ^ 32, w.1, w.2, t.tid] ++ bytesOf 8 (t.stack.map BitVec.toNat) ++
      bytesOf 8 [(t.trap.map TrapRec.word).getD 0, (t.trap.map fun r => r.addr.toNat).getD 0] ++ List.replicate 48 0 ++
      bytesOf 4 l.words)

/-- A barrier's 8 bytes (R354). -/
def Barrier.word (b : Barrier) : Nat :=
  b.phase.toNat * 2 ^ 32 + b.pend % 2 ^ 11 * 2 ^ 21 +
    (match b.cnt with
      | some c => c * 2 ^ 10 + b.gang.toNat * 2 ^ 9 + 2 ^ 8
      | none => 0)

/-- The sections of a crew's area, with their offsets (R354). -/
def Crew.sections (cr : Crew) : List (Nat × List Byte) :=
  let p := cr.packet
  let header := padTo 256 (leBytes 4 3 ++ leBytes 4 (areaSize p / 64) ++ leBytes 64 p.toNat ++ leBytes 4 cr.num ++
    leBytes 4 0 ++ leBytes 4 cr.temp.toNat ++ leBytes 1 cr.mode.toNat)
  let masks (h : Nat) : List Byte := bytesOf 2 (((cr.masks.drop (12 * h)).take 12).map BitVec.toNat) ++ List.replicate 8 0
  [(0, header), (areaUnis, bytesOf 8 (cr.u.map BitVec.toNat)), (areaBars p, bytesOf 8 (cr.bars.map Barrier.word)),
    (areaTiles p, bytesOf 8 (cr.tiles.map BitVec.toNat)), (areaMasks p, (List.range (pktH p)).flatMap masks)] ++
    cr.lanes.zipIdx.map (fun x => (areaRec p x.2, x.1.record p)) ++
    [(areaPad p, cr.scratch.read 0 (pktAlloc p)),
      (areaAccs p, (List.range (pktAccum p / 2)).flatMap fun j => cr.saveForm j)]

/-- The area written, section by section: none where some access faults. -/
def writeArea (part area : Nat) : List (Nat × List Byte) → State → Option State
  | [], s => some s
  | (o, bs) :: r, s =>
    match s.writeG part (area + o) bs true with
    | .ok s1 => writeArea part area r s1
    | _ => none

/-! ### Reading (R356) -/

/-- `n` bytes of a list at an offset, as a number. -/
def numAt (bs : List Byte) (a n : Nat) : Nat := leNat ((bs.drop a).take n)

/-- A barrier read back. -/
def Barrier.ofWord (w : Nat) : Barrier :=
  ⟨BitVec.ofNat 32 (fld w 63 32), fld w 31 21, if bitAt w 8 then some (fld w 20 10) else none, bitAt w 8 && bitAt w 9⟩

/-- A trap record read back. -/
def TrapRec.ofWords (w a : Nat) : Option TrapRec :=
  if fld w 63 56 = 0 then none
  else some ⟨BitVec.ofNat 4 (fld w 51 48), BitVec.ofNat 4 (fld w 55 52), bitAt w 32, decide (fld w 31 0 ≠ 0), BitVec.ofNat 56 a⟩

/-- A pending wait read back. -/
def PendWait.ofWords (w a : Nat) : Option PendWait :=
  let b := fld w 55 48
  let k : Word := BitVec.ofNat 32 (fld w 31 0)
  let m : BitVec 56 := BitVec.ofNat 56 a
  match fld w 63 56 with
  | 1 => some (.barSyn b k)
  | 2 => some (.gbar b k)
  | 3 => some (.mbPut m k)
  | 4 => some (.mbTake m k)
  | 5 => some (.trace (fld w 31 0))
  | 6 => some (.tracep b (fld w 31 0))
  | _ => none

/-- A reserved field or value of a thread record, or one of STATE 0 that is not zero beyond PCST (R355, R361). -/
def recordBad (p : BitVec 512) (bs : List Byte) : Bool :=
  let q (a : Nat) : Nat := numAt bs a 8
  let form := fld (q 40) 63 56
  decide (3 < fld (q 0) 63 60 ∨ fld (q 0) 59 56 ≠ 0 ∨ q 24 ≠ 0 ∨ fld (q 32) 31 6 ≠ 0 ∨ fld (q 32) 63 37 ≠ 0 ∨
      16 < fld (q 32) 36 32 ∨ 6 < form ∨ fld (q 40) 47 32 ≠ 0 ∨ fld (q 48) 63 56 ≠ 0 ∨ fld (q 56) 63 10 ≠ 0 ∨
      1 < fld (q 192) 63 56 ∨ fld (q 192) 47 33 ≠ 0 ∨ 1 < fld (q 192) 31 0 ∨ fld (q 200) 63 56 ≠ 0) ||
    (decide (fld (q 0) 63 60 = 0) && numAt bs 8 (recSize p - 8) != 0) ||
    (decide (form ≠ 3 ∧ form ≠ 4) && decide (q 48 ≠ 0)) || numAt bs 208 48 != 0 ||
    (List.range Config.callDepth).any fun i => decide (fld (q (64 + 8 * i)) 63 56 ≠ 0 ∨ fld (q (64 + 8 * i)) 1 0 ≠ 0)

/-- A reserved bit of a Q register's word in a thread record (R146, R355). -/
def recordQBad (p : BitVec 512) (bs : List Byte) : Bool :=
  (List.range 8).any fun r => fld (numAt bs (256 + 4 * ((pktC p + r) * (1 + pktT p))) 4) 31 25 != 0

/-- A reserved bit or format code of a tile entry (R62, R215). -/
def tileBad (w : Nat) : Bool := decide (fld w 61 60 ≠ 0 ∨ fld w 38 35 ≠ 0 ∨ 0x0A < fld w 59 52)

/-- A reserved bit or value of a crew mode word (R336). -/
def modeBad (w : Nat) : Bool := decide (fld w 7 5 ≠ 0 ∨ fld w 4 3 = 3)

/-- Registers read back from their words. -/
def regsOf (n t : Nat) (bs : List Byte) : List Reg :=
  (List.range n).map fun r =>
    let w (j : Nat) : Word := BitVec.ofNat 32 (numAt bs (4 * (r * (1 + t) + j)) 4)
    ⟨w 0, (List.range t).map fun j => w (j + 1)⟩

/-- A lane restored from its record; `was`: the lane before the save, which keeps Plumb's interval (R237).  A
lane of STATE 0 gets its stream key from `restoredLane`. -/
def laneOf (p : BitVec 512) (was : Lane) (bs : List Byte) : Lane :=
  let q (a : Nat) : Nat := numAt bs a 8
  let c := pktC p
  let t := pktT p
  let regs := regsOf (c + 8) t (bs.drop 256)
  let trap := TrapRec.ofWords (q 192) (q 200)
  let pc : BitVec 56 := BitVec.ofNat 56 (fld (q 0) 55 0)
  let th : Thread :=
    { tid := fld (q 56) 9 0, pc := pc, cont := pc, flags := BitVec.ofNat 6 (q 32), depth := fld (q 32) 36 32,
      stack := (List.range Config.callDepth).map fun i => BitVec.ofNat 64 (q (64 + 8 * i)),
      run := if (trap.map fun r => r.held).getD false then .held else .waking none,
      region := none, pendWait := PendWait.ofWords (q 40) (q 48), trap := trap, held := [], windows := 0,
      interval := (was.thread?.map fun x => x.interval).getD 0, acquired := [], pendPair := none }
  { v := regs.take c, q := regs.drop c, key := BitVec.ofNat 64 (q 8), ctr := BitVec.ofNat 64 (q 16),
    occ := match fld (q 0) 63 60 with
      | 0 => .never
      | 1 => .exited (fld (q 56) 9 0)
      | _ => .thread th }

/-- Lane `li` of a crew restored from its record.  A lane that never held a thread has the stream that a thread
launched there would have started with (R159); the record of STATE 0 holds none (R355). -/
def restoredLane (cr : Crew) (li : Nat) (was : Lane) (bs : List Byte) : Lane :=
  let l := laneOf cr.packet was bs
  if l.occ = .never then { l with key := crewKey cr li 0 0, ctr := 0 } else l

/-- Whether an area is rejected (R356, R5): VER, a reserved byte, bit or value of any section, PACKET among them, or accumulator
lines that are not canonical (R67, R279, log 48). -/
def areaBad (p : BitVec 512) (bs : List Byte) : Bool :=
  numAt bs 0 4 != 3 || packetReserved (BitVec.ofNat 512 (numAt bs 8 64)) || numAt bs 76 4 != 0 || numAt bs 75 1 != 0 || numAt bs 85 171 != 0 || modeBad (numAt bs 84 1) ||
    ((List.range (pktBars p)).any fun i => numAt bs (areaBars p + 8 * i) 1 != 0) ||
    ((List.range (pktTiles p)).any fun i => tileBad (numAt bs (areaTiles p + 8 * i) 8)) ||
    ((List.range (pktH p)).any fun h => numAt bs (areaMasks p + 32 * h + 24) 8 != 0) ||
    ((List.range (16 * pktH p)).any fun li => recordBad p (bs.drop (areaRec p li)) || recordQBad p (bs.drop (areaRec p li))) ||
    (List.range (pktAccum p / 2)).any fun j =>
      numAt bs (areaAccs p + 4160 * j + 16) 48 != 0 || !formOk ((bs.drop (areaAccs p + 4160 * j)).take 4160)

/-- A crew restored from its area: every section (R356). -/
def Crew.restore (cr : Crew) (bs : List Byte) : Crew :=
  let p := cr.packet
  let dwords (a n : Nat) : List Dword := (List.range n).map fun i => BitVec.ofNat 64 (numAt bs (a + 8 * i) 8)
  let lanes := cr.lanes.mapIdx fun li was => restoredLane cr li was ((bs.drop (areaRec p li)).take (recSize p))
  let u := dwords areaUnis (pktUC p)
  let temp : Word := BitVec.ofNat 32 (numAt bs 80 4)
  let tiles := dwords (areaTiles p) (pktTiles p)
  let cr1 : Crew :=
    { cr with
      status := .resident, lanes := lanes, lanesOld := lanes, u := u, uOld := u, temp := temp, tempOld := temp,
      mode := BitVec.ofNat 8 (numAt bs 84 1), tiles := tiles, tilesOld := tiles,
      bars := (List.range (pktBars p)).map fun i => Barrier.ofWord (numAt bs (areaBars p + 8 * i) 8),
      masks := (List.range (12 * pktH p)).map fun k =>
        BitVec.ofNat 16 (numAt bs (areaMasks p + 32 * (k / 12) + 2 * (k % 12)) 2),
      scratch := Memory.write [] 0 ((bs.drop (areaPad p)).take (pktAlloc p)), accMeta := [], accSlots := [],
      batch := none, moving := [], preempt := none, saveArea := none }
  (List.range (pktAccum p / 2)).foldl (fun c j => c.loadForm j ((bs.drop (areaAccs p + 4160 * j)).take 4160)) cr1

/-! ### Reports (R363, R390) -/

/-- A report of 32 bytes written to a partition's trap ring, or dropped and counted; TRAPW is then released at .sys,
which waiters on it see (R363, R389, R374). -/
def trapReport (p record : Nat) (s : State) : State :=
  let P := s.part p
  let n := P.at 24 4
  let w := P.at 104 4
  if n ≤ (w + 2 ^ 32 - P.at 108 4) % 2 ^ 32 then s.ctxSet p 28 4 (P.at 28 4 + 1)
  else
    let s0 := ((s.devWrite p (P.at 16 7 + 32 * (w % n)) (leBytes 32 record)).ctxSet p 104 4 (w + 1)).performed p 3
    let s1 := s0.fireAt p (Config.contextAt p + 104)
    if P.at 112 2 = 0xFFFF then s1 else s1.emit (.msix (P.at 112 2) (P.at 114 1))

/-- The report of a thread that became held (R363). -/
def heldReport (cr : Crew) (t : Thread) (r : TrapRec) : Nat :=
  r.addr.toNat * 2 ^ 200 + t.pc.toNat * 2 ^ 136 + cr.num * 2 ^ 104 + cr.cslot * 2 ^ 96 + cr.core * 2 ^ 88 +
    t.tid * 2 ^ 78 + cr.queue % 256 * 2 ^ 56 + r.nest.toNat * 2 ^ 8 + r.cause.toNat * 2 ^ 4 + r.code.toNat

/-- The report of a crew that waits for a save area (R390). -/
def areaReport (cr : Crew) : Nat := cr.num * 2 ^ 104 + 0xA

/-! ### The ring of free areas (R390) -/

/-- The next free area that holds the crew; areas too small are skipped and reported.  None where the slot at
SAVEH is empty.  Fuel: slots. -/
def takeArea (cr : Crew) : Nat → State → Option (BitVec 56) × State
  | 0, s => (none, s)
  | fuel + 1, s =>
    let P := s.part cr.part
    let h := P.at 100 4
    let at_ := P.at 56 7 + 8 * (h % 2 ^ P.at 99 1)
    let a := (s.devNat cr.part at_ 8).getD 0
    if a = 0 then (none, s)
    else
      let s1 := (s.devWrite cr.part at_ (leBytes 8 0)).ctxSet cr.part 100 4 (h + 1)
      let size := 64 * (s1.devNat cr.part (a + 4) 4).getD 0
      if a % 64 = 0 ∧ a < 2 ^ 56 ∧ areaSize cr.packet ≤ size then (some (BitVec.ofNat 56 a), s1)
      else takeArea cr fuel (trapReport cr.part (areaReport cr) s1)

/-- The empty slot that is filled next: the first at or after SAVEH. -/
def emptySlot (s : State) (p : Nat) : Option Nat :=
  let P := s.part p
  let n := 2 ^ P.at 99 1
  ((List.range n).map fun i => P.at 56 7 + 8 * ((P.at 100 4 + i) % n)).find? fun a => s.devNat p a 8 == some 0

end Sys2Proof.Machine
end

