-- ==== Sys2Proof/Machine/Trapping.lean ====
section
/-!
DEFINITION. Traps and their resolution, system values, hints, words that are no instruction, and the faults
that system software resolves (R90-R98, R198, R204-R206, R357-R371).
-/

namespace Sys2Proof.Machine

open Sys2Proof

/-! ### TRAP and ERET (R366, R367) -/

/-- TRAP: R366; it has committed, so BREAK is recorded at the next word (R359). -/
def execTrap (i : BitVec 12) (s : State) : Out :=
  frame ⟨true, [], true⟩ s (steer fun g _ th => (th.takeTrap .brk (i.zeroExtend 56) g.next, true))

/-- What ERET does in a thread (R367). -/
def eretThread (c : Ctx) (th : Thread) : Thread × Bool :=
  if th.trap.any fun r => !r.held then
    match th.eret with
    | some th' => (th', false)
    | none => (th.takeTrap .resource 0 c.start, true)
  else (th.takeTrap .illegalInstruction 0 c.start, true)

/-- ERET: R367. -/
def execEret (s : State) : Out :=
  frame ⟨true, [], true⟩ s (steer fun g _ th => eretThread g th)

/-! ### System values (R197, R368) -/

/-- %wraw (R197). -/
def rawWindow (s : State) (core cslot : Nat) : Nat :=
  0xF * 2 ^ 52 + core * 2 ^ 40 + cslot * 2 ^ 32 + (Sparse.get s.gens (256 * core + cslot)).toNat * 2 ^ 24

/-- A system value as lane `t` reads it (R368, R28). -/
def sysValue (s : State) (c : Ctx) (t k : Nat) : Nat :=
  let p := c.place t
  let th := (c.lane t).thread?
  let rec? := th.bind fun x => x.trap
  match k with
  | 0x00 => (c.lane t).tid p
  | 0x01 => p % 16
  | 0x02 => p / 16
  | 0x03 => c.cr.num
  | 0x04 => c.cr.num / pktGang c.cr.packet
  | 0x05 => ((s.gangs[c.cr.gang]?).bind fun g => g.crews.findIdx? fun x => x == c.ci).getD 0
  | 0x06 => c.core
  | 0x07 => dieOf c.core
  | 0x08 => (th.map fun x => x.flags.toNat).getD 0
  | 0x09 => c.cr.tempOld.toNat
  | 0x0A => c.nbv
  | 0x0B => c.cr.mode.toNat
  | 0x0C => (th.map fun x => x.depth).getD 0
  | 0x0D => rawWindow s c.core c.cr.cslot
  | 0x0E => (s.core c.core).lclk.toNat
  | 0x10 => (rec?.map fun r => r.code.toNat + r.cause.toNat * 2 ^ 4 + r.nest.toNat * 2 ^ 8).getD 0
  | 0x11 => (rec?.map fun r => r.addr.toNat).getD 0
  | 0x12 =>
    match th, rec? with
    | some x, some r => if r.held ∨ x.depth = 0 then 0 else (x.stack.getD (x.depth - 1) 0).toNat
    | _, _ => 0
  | _ => 0

/-- GETS: R368; no latch is pushed. -/
def execGets (b : Bool) (d : BitVec 6) (a : BitVec 6) (s : State) : Out :=
  frame ⟨b, [sysRead d a], true⟩ s fun k s =>
    let wide := (sysWide a.toNat).getD false
    commit false d wide false
      (fun t => { val := some (.plain wide k.t (BitVec.ofNat 64 (sysValue s k t a.toNat))) }) k s

/-- A value that %temp does not take: negative, infinite or NaN (R148). -/
def tempBad (v : Word) : Bool := decide (bitsOf v 30 23 = 0xFF) || (bitAt v.toNat 31 && decide (bitsOf v 30 0 ≠ 0))

/-- SETS %temp in one lane: -0 stores +0 (R148). -/
def setTemp (k : Ctx) (v : Nat → Word) (s : State) (t : Nat) : State :=
  if tempBad (v t) then s.trapLane t .illegalOperand 0 k.start
  else s.updCrew k.ci fun cr => { cr with temp := if v t = 0x80000000#32 then 0 else v t }

/-- SETS: R368; several writes of %temp apply in lane order, and the last stands. -/
def execSets (b : Bool) (d : BitVec 6) (a : BitVec 6) (s : State) : Out :=
  frame ⟨b, [sysWrite d a], true⟩ s fun k s =>
    let v (t : Nat) : Word := (k.prim t ((setsTy d).getD .i32) a).truncate 32
    if d = 8 then
      s.mapLanes k.ci fun p l =>
        match k.laneOf p with
        | some t => if k.active t then l.updThread fun th => { th with flags := (v t).truncate 6 } else l
        | none => l
    else eachLane k.active (setTemp k v) s

/-! ### Hints (R85, R90-R95) -/

/-- A hint word: it joins the bundle, or breaks a rule of R94 and is trapped itself. -/
def hintWord (bad : Bundle → Bool) (put : Bundle → Bundle) (s : State) : Out :=
  match s.ctx? with
  | none => .fault .noGroup
  | some c =>
    if Config.runWords ≤ c.g.count + 1 || bad c.g.bundle then .next (trapAll c .illegalInstruction c.addr s)
    else
      .next (s.updGroup c.core c.slot fun g =>
        { g with addr := g.addr + 4, count := g.count + 1
                 bundle := put { g.bundle with first := some c.start, himmLast := false } })

/-- HIMM: R91, R94. -/
def execHimm (i : BitVec 24) (s : State) : Out :=
  hintWord (fun h => decide (2 ≤ h.himm.length) || (!h.himm.isEmpty && !h.himmLast))
    (fun h => { h with himm := h.himm ++ [i], himmLast := true }) s

/-- HSEL: R92. -/
def execHsel (h : BitVec 1) (u : BitVec 5) (s : State) : Out :=
  hintWord (fun b => b.sel.isSome) (fun b => { b with sel := some (h == 1#1, u) }) s

/-- HGRD: R93. -/
def execHgrd (g : BitVec 1) (q : BitVec 3) (s : State) : Out :=
  hintWord (fun b => b.grd.isSome) (fun b => { b with grd := some (g == 1#1, q) }) s

/-- HRND: R56, R90. -/
def execHrnd (m : BitVec 2) (s : State) : Out :=
  hintWord (fun b => b.rnd.isSome) (fun b => { b with rnd := some m }) s

/-- HSCP: R90, R220. -/
def execHscp (x : BitVec 2) (s : State) : Out :=
  hintWord (fun b => b.scp.isSome) (fun b => { b with scp := some x }) s

/-- HCCH: R90; the policy changes timing only. -/
def execHcch (p : BitVec 2) (s : State) : Out :=
  hintWord (fun b => b.cch.isSome) (fun b => { b with cch := some p }) s

/-- HSCH: R90; the estimate changes timing only. -/
def execHsch (x : BitVec 8) (s : State) : Out :=
  hintWord (fun b => b.sch.isSome) (fun b => { b with sch := some x }) s

/-- UNASSIGNED_WORD: a word that is no instruction traps in every active lane (R98); a PBLEND word with bit 15
set names a register that is not there (R157); an FH word is trapped itself (R95). -/
def execUnassignedWord (w : BitVec 32) (s : State) : Out :=
  match s.ctx? with
  | none => .fault .noGroup
  | some c =>
    let op := w.extractLsb' 25 6
    let plain := op == 0x26#6 && w.getLsbD 15 && !(w.getLsbD 24 && w.extractLsb' 18 6 != 0#6) &&
      decide (c.g.count < Config.runWords)
    .next (trapAll c (if plain then .illegalOperand else .illegalInstruction) (if op == 0x3F#6 then c.addr else c.start) s)

/-! ### A trapped thread (R359, R363, R364) -/

/-- Whether a crew's pre-emption is under way: a request that still waits for an area has not been made (R390). -/
def Crew.stopping (cr : Crew) : Bool := cr.preempt.any fun p => !p.asked

/-- TRAP_HELD: once no write of the thread is outstanding it is held, and reported (R363). -/
def execTrapHeld (crew lane : Nat) (s : State) : Out :=
  match s.thread? crew lane, s.crews[crew]? with
  | some th, some cr =>
    match th.trap with
    | none => .next s
    | some r =>
      if th.run ≠ .trapping ∨ s.outstanding crew lane then .next s
      else .next (trapReport cr.part (heldReport cr th r) (s.updThread crew lane fun t => { t with run := .held }))
  | _, _ => .next s

/-- Where a held thread stands: on its core, or in its crew's save area (R364). -/
inductive HeldAt where
  | core (t : Thread)
  /-- the partition and the address of its record -/
  | area (part rec : Nat)
  /-- its crew's pre-emption or resumption is under way -/
  | later
  | nowhere

/-- The thread record at an address in a save area holds a held thread (R361). -/
def heldRecord (s : State) (part rec : Nat) : Bool :=
  let trw := (s.devNat part (rec + 192) 8).getD 0
  decide (fld trw 63 56 = 1 ∧ fld trw 31 0 ≠ 0)

/-- Finding a held thread. -/
def heldAt (s : State) (crew lane : Nat) : HeldAt :=
  match s.crews[crew]? with
  | none => .nowhere
  | some cr =>
    match cr.status, cr.saveArea with
    | .resident, _ =>
      match s.thread? crew lane with
      | some t =>
        if cr.stopping then (if (t.run = .held ∨ t.run = .saved) ∧ (t.trap.any fun r => r.held) = true then .later else .nowhere)
        else if t.run = .held then .core t else .nowhere
      | none => .nowhere
    | .distributed, some a =>
      let at_ := a.toNat + areaRec cr.packet lane
      if decide (lane < cr.lanes.length) && heldRecord s cr.part at_ then .area cr.part at_ else .nowhere
    | .resuming, some a =>
      if decide (lane < cr.lanes.length) && heldRecord s cr.part (a.toNat + areaRec cr.packet lane) then .later else .nowhere
    | _, _ => .nowhere

/-- A held thread sent into a routine: none where its stack is full (R364). -/
def Thread.enter (t : Thread) (h : BitVec 56) : Option Thread :=
  (t.push t.pc).map fun x =>
    { x with pc := h, run := .waking none, trap := x.trap.map fun r => { r with held := false } }

/-- ENTER in the thread record at `a` of a save area (R364, R355). -/
def enterRecord (s : State) (p a : Nat) (h : BitVec 56) : State :=
  let pcst := (s.devNat p a 8).getD 0
  let depth := (s.devNat p (a + 36) 1).getD 0
  if Config.callDepth ≤ depth then s
  else (((s.devWrite p (a + 64 + 8 * depth) (leBytes 8 (fld pcst 55 0))).devWrite p (a + 36) (leBytes 1 (depth + 1))).devWrite
    p (a + 192) (leBytes 4 0)).devWrite p a (leBytes 8 (fld pcst 63 56 * 2 ^ 56 + h.toNat))

/-- END in the thread record at `a` of lane `lane`: STATE 1, no call stack, no trap record, and the thread's bits in
the saved masks cleared (R364, R354). -/
def finishRecord (s : State) (cr : Crew) (lane p a : Nat) : State :=
  let m := a - areaRec cr.packet lane + areaMasks cr.packet + 32 * (lane / 16)
  let s1 := (((s.devWrite p a (leBytes 8 (2 ^ 60))).devWrite p (a + 36) (leBytes 1 0)).devWrite p (a + 64)
    (leBytes 128 0)).devWrite p (a + 192) (leBytes 16 0)
  (List.range 12).foldl (fun s k =>
    let w := (s.devNat p (m + 2 * k) 2).getD 0
    s.devWrite p (m + 2 * k) (leBytes 2 (if w.testBit (lane % 16) then w - 2 ^ (lane % 16) else w))) s1

/-- An action on a held thread: on its core, or in its record in the save area; it waits while the crew's
pre-emption or resumption is under way, one action to a thread (R364). -/
def heldAction (crew lane : Nat) (act : HeldAction) (s : State) : State :=
  match heldAt s crew lane, act, s.crews[crew]? with
  | .nowhere, _, _ => s
  | _, _, none => s
  | .later, _, some _ =>
    if s.trapActions.any fun x => x.crew == crew && x.lane == lane then s
    else { s with trapActions := s.trapActions ++ [⟨crew, lane, act⟩] }
  | .core _, .resume, some _ => s.updThread crew lane fun t => { t with trap := none, run := .waking none }
  | .area p a, .resume, some _ => s.devWrite p (a + 192) (leBytes 16 0)
  | .core t, .enter h, some _ =>
    match t.enter h with
    | some x => s.updThread crew lane fun _ => x
    | none => s
  | .area p a, .enter h, some _ => enterRecord s p a h
  | .core _, .finish, some _ => s.endThread crew lane
  | .area p a, .finish, some cr => finishRecord s cr lane p a
  | _, .abort, some cr => s.removeGrid cr.grid

/-- The actions that waited for a crew are taken, in their order (R364). -/
def takeActions (crew : Nat) (s : State) : State :=
  let mine := s.trapActions.filter fun x => x.crew == crew
  mine.foldl (fun s x => heldAction x.crew x.lane x.act s)
    { s with trapActions := s.trapActions.filter fun x => x.crew != crew }

/-- TRAP_RESUME: R364. -/
def execTrapResume (crew lane : Nat) (s : State) : Out := .next (heldAction crew lane .resume s)

/-- TRAP_ENTER: R364. -/
def execTrapEnter (crew lane : Nat) (h : BitVec 56) (s : State) : Out := .next (heldAction crew lane (.enter h) s)

/-- TRAP_END: R364. -/
def execTrapEnd (crew lane : Nat) (s : State) : Out := .next (heldAction crew lane .finish s)

/-- TRAP_ABORT: R364, R337. -/
def execTrapAbort (crew lane : Nat) (s : State) : Out := .next (heldAction crew lane .abort s)

/-! ### Faults (R204-R206) -/

/-- What a resolved fault delivers for each block that a parked access meets: the translation, and for a read the
block, its descriptor and its code (R82, R205); whether the access may use the page is asked when it replays. -/
def fillBlocks (s : State) (cr : Crew) (e : FaultEntry) : List Fill :=
  ((e.waiters.map fun w => w.addr / 64).dedup).filterMap fun b =>
    match s.xlat cr.part (64 * b) { device := true } with
    | .ok g =>
      if e.write then some ⟨b, g, [], 0, []⟩
      else if s.poisonedOn (dieOf cr.core) g 64 then none
      else some ⟨b, g, s.physRead (dieOf cr.core) g 64, s.descAt g, s.codeRead e.crew (dieOf cr.core) g 64⟩
    | _ => none

/-- A parked thread that is ready to replay, or a ray that waits for a slot again (R205, R320). -/
def wakeWaiter (ci : Nat) (s : State) (key : Nat) : State :=
  if key < 1024 then
    match (s.thread? ci key).map Thread.run with
    | some (.parked (.fault _ _)) => s.wakeRetry ci key
    | _ => s
  else s.queueUnit ci key

/-- FAULT_RESOLVED: entry `i` of a core's fault buffer receives its translation and, for reads, its blocks; the
threads parked on it are ready to replay (R204, R205). -/
def execFaultResolved (core i : Nat) (s : State) : Out :=
  match (s.core core).faults[i]? with
  | none => .next s
  | some e =>
    match s.crews[e.crew]? with
    | none => .next s
    | some cr =>
      match s.xlat cr.part (65536 * e.page) { write := e.write, device := true } with
      | .fault _ _ => .next s
      | _ =>
        if e.fill.isSome then .next s
        else
          let fill := fillBlocks s cr e
          let s1 := s.updCore core fun co => { co with faults := co.faults.set i { e with fill := some fill } }
          .next ((e.waiters.map FaultWaiter.key).foldl (wakeWaiter e.crew) s1)

/-- A thread parked on an entry raises FAULT at the bundle of the faulting instruction (R206). -/
def refuseThread (ci li : Nat) (cause a : Nat) (s : State) : State :=
  match (s.thread? ci li).map Thread.run with
  | some (.parked (.fault _ _)) =>
    s.updThread ci li fun t => t.takeTrap (.fault cause) (BitVec.ofNat 56 a) t.cont
  | _ => s

/-- A ray stopped on an entry ends with STATUS FAULT in its record, which stands in the scratchpad; its TRA is the node,
record or log address (R320, R361). -/
def refuseRay (ci key : Nat) (cause : Nat) (s : State) : State :=
  match s.rays.findIdx? fun y => y.crew == ci && y.key == key && !y.inUnit && y.failed.isNone with
  | none => s
  | some i =>
    match s.rays[i]? with
    | none => s
    | some y => (s.putStatus y 0x23).failRay i y (.fault cause) ((y.faultAt.map Prod.snd).getD 0)

/-- The cause that an unresolvable fault of an access carries: it met W = 0, or V = 0 (R190, R206). -/
def FaultWaiter.cause (w : FaultWaiter) : Nat := if w.prot then causeWriteProtection else causeTranslation

/-- An entry's fault declared unresolvable (R206). -/
def refuseEntry (core i : Nat) (s : State) : State :=
  match (s.core core).faults[i]? with
  | none => s
  | some e =>
    if e.fill.isSome then s
    else
      let s1 := s.updCore core fun co => { co with faults := co.faults.eraseIdx i }
      (e.waiters.foldl (fun s w =>
        if w.key < 1024 then refuseThread e.crew w.key w.cause w.addr s else refuseRay e.crew w.key w.cause s) s1).admitAll core

/-- Whether an operation waits on a translation fault: it cannot go on, and could if the fault were refused. -/
def waitsOnFault {α : Type} (now refused : Option α) : Bool := now.isNone && refused.isSome

/-- FAULT_UNRESOLVABLE: system software declares a fault unresolvable: of a fault-buffer entry (`i` of a core),
of copy `i`, of matrix entry number `i` of a cluster, of dual traversal `i`, of reprojection `i` of a
cluster, or of collective `i` (R206, R272, R274, R294, R328, R331, R383). -/
def execFaultUnresolvable (unit : FaultUnit) (core i : Nat) (s : State) : Out :=
  match unit with
  | .threads => .next (refuseEntry core i s)
  | .copy =>
    match s.copies[i]? with
    | none => .next s
    | some op =>
      if op.outcome.isNone && op.sent.isNone && (s.copyCheck op).isNone &&
          waitsOnFault (s.transfer i { op with refused := false }) (s.transfer i { op with refused := true }) then
        .next (s.updCopy i fun o => { o with refused := true })
      else .next s
  | .copyStamp =>
    .next (s.updCopy i fun o => if o.outcome.isSome then { o with stampRefused := true } else o)
  | .matrix =>
    match (s.cluster core).entries.find? fun e => e.num == i with
    | none => .next s
    | some e =>
      if e.outcome.isNone && waitsOnFault (s.runEntry core { e with refused := false })
          (s.runEntry core { e with refused := true }) then
        .next (s.updEntry core i fun x => { x with refused := true })
      else .next s
  | .matrixStamp =>
    .next (s.updEntry core i fun x => if x.outcome.isSome then { x with stampRefused := true } else x)
  | .xpair =>
    match s.xpairs[i]? with
    | none => .next s
    | some op => if op.inUnit then .next s else .next (s.setPair i { op with refused := true })
  | .reproj =>
    match (s.cluster core).reproj[i]? with
    | none => .next s
    | some op =>
      if waitsOnFault (s.runReproj core i { op with refused := false }) (s.runReproj core i { op with refused := true })
      then .next (s.setReproj core i { op with refused := true })
      else .next s
  | .coll =>
    match s.colls[i]? with
    | none => .next s
    | some op => if collHeld s i op then .next (s.setColl i { op with refused := true }) else .next s

/-- WINDOW_ACCESS_APPLY: a held window access is applied, and its thread is ready to execute it again (R198). -/
def execWindowAccessApply (crew lane : Nat) (s : State) : Out :=
  match s.thread? crew lane with
  | none => .next s
  | some th =>
    match th.run, th.held with
    | .parked .window, h :: r =>
      let size := if fld h.addr 50 48 = 1 then 4 else 8
      let done (s : State) (v : Option Dword) : Out :=
        .next ((s.updThread crew lane fun t => { t with held := { h with result := v } :: r }).wakeRetry crew lane)
      if h.write then
        match s.windowWrite crew h.addr size h.data.toNat with
        | .ok s1 => done s1 (some 0)
        | .trap _ _ => done s none
        | _ => .next s
      else
        match s.windowRead crew h.addr size with
        | .ok v => done s (some (BitVec.ofNat 64 v))
        | .trap _ _ => done s none
        | _ => .next s
    | _, _ => .next s

end Sys2Proof.Machine
end

