-- ==== Sys2Proof/Machine/Preempt.lean ====
section
/-!
DEFINITION. The Joiner's batches, pre-emption and resumption, and the retirement of a multiplier column or a
core (R34, R41, R42, R175-R180, R296, R321, R356, R390, R396).
-/

namespace Sys2Proof.Machine

open Sys2Proof

/-! ### The Joiner (R176-R180) -/

/-- Whether a thread lets a batch close (R176): gathered, parked or held. -/
def Thread.still (t : Thread) : Bool :=
  match t.run with
  | .parked _ => true
  | .held => true
  | .saved => true
  | _ => false

/-- Whether the open batch of a crew closes (R176).  A batch that opened in the cycle of counter N closes at the end
of the cycle of counter N + 64 (log 49). -/
def batchDue (now : Nat) (cr : Crew) (b : Batch) : Bool :=
  decide (Config.batchThreads ≤ b.threads.length ∨ b.opened + Config.batchCycles ≤ now) || cr.stopping ||
    cr.lanes.all fun l => (l.thread?.map Thread.still).getD true

/-- A batch that is due closes. -/
def closeBatch (crew : Nat) (s : State) : State :=
  s.updCrew crew fun cr =>
    match cr.batch with
    | none => cr
    | some b =>
      if batchDue (s.core cr.core).lclk.toNat cr b then { cr with batch := none, moving := cr.moving ++ [b] } else cr

/-- Whether every slot of a core has executed its word of the current cycle, so that the cycle is at its end. -/
def cycleOver (s : State) (core : Nat) : Bool :=
  match (s.core core).lastSlot with
  | none => false
  | some k => ((s.core core).slots.drop (k + 1)).all Option.isNone

/-- JOINER_BATCH_CLOSE: at the end of a cycle of the crew's core, its batch closes if it is due (R176). -/
def execJoinerBatchClose (crew : Nat) (s : State) : Out :=
  .next (if cycleOver s (s.coreOf crew) then closeBatch crew s else s)

/-- Whether gathered thread `a` stands before `b` in the sorted order (R177). -/
def gatheredBefore (s : State) (ci : Nat) (a b : Gathered) : Bool :=
  let tid (g : Gathered) : Nat := ((s.thread? ci g.lane).map fun t => t.tid).getD 0
  if a.target ≠ b.target then decide (a.target.toNat < b.target.toNat)
  else if a.key ≠ b.key then decide (a.key.toNat < b.key.toNat)
  else decide (tid a < tid b)

/-- A list in ascending order. -/
def insertSorted {α : Type} (before : α → α → Bool) (x : α) : List α → List α
  | [] => [x]
  | y :: ys => if before y x then y :: insertSorted before x ys else x :: y :: ys
def sortBy {α : Type} (before : α → α → Bool) (l : List α) : List α :=
  l.foldr (insertSorted before) []

/-- The lane at a place after a move (R178): the thread's own registers up to its live count, Q registers and
stream; the other V registers are the place's. -/
def movedLane (src dst : Lane) (live : Nat) (block : Nat) (target : BitVec 56) : Lane :=
  { v := src.v.take (4 * live) ++ dst.v.drop (4 * live), q := src.q, key := src.key, ctr := src.ctr,
    occ := match src.occ with
      | .thread t => .thread { t with pc := target, cont := target, run := .waking (some block) }
      | o => o }

/-- The first free place among the threads of a crew that a Joiner made ready in this cycle: each batch takes its
numbers as one block (R177). -/
def nextBlock (cr : Crew) : Nat :=
  cr.lanes.foldl (fun n l =>
    match l.thread?.map Thread.run with
    | some (.waking (some i)) => max n (i + 1)
    | _ => n) 0

/-- How a moved thread goes on: it is to become ready, or, in a crew under pre-emption, it stays parked at its
target until it is saved there (R180). -/
def Lane.moved (stopping : Bool) (l : Lane) : Lane :=
  if stopping then l.updThread fun t => { t with run := .parked .joiner } else l

/-- The moves of a batch (R177-R179); `n`: the place of its first thread among those made ready. -/
def moveBatch (ci : Nat) (b : Batch) (n : Nat) (s : State) : State :=
  let sorted := sortBy (gatheredBefore s ci) b.threads
  let places := sortBy (fun a b => decide (a < b)) (b.threads.map fun (g : Gathered) => g.lane)
  let moves := sorted.zip places
  s.updCrew ci fun cr =>
    { cr with
      lanes := cr.lanes.mapIdx fun p l =>
        match moves.zipIdx.find? fun (x : (Gathered × Nat) × Nat) => x.1.2 == p with
        | some ((g, _), i) =>
          let src := cr.lanes.getD g.lane l
          (if g.lane = p then movedLane l l cr.c (n + i) g.target else movedLane src l g.live (n + i) g.target).moved cr.stopping
        | none => l
      masks := cr.masks.mapIdx fun k m =>
        moves.foldl (fun m x =>
          if x.1.lane ≠ x.2 ∧ x.2 / 16 = k / 12 then m &&& ~~~(BitVec.ofNat 16 (2 ^ (x.2 % 16))) else m) m }

/-- JOINER_MOVES_COMPLETE: the moves of a crew's oldest closed batch complete, once no result is outstanding for
its lanes (R34, R177-R179). -/
def execJoinerMovesComplete (crew : Nat) (s : State) : Out :=
  match s.crews[crew]? with
  | none => .next s
  | some cr =>
    match cr.moving with
    | [] => .next s
    | b :: r =>
      if b.threads.any fun g => s.outstanding crew g.lane then .next s
      else .next (moveBatch crew b (nextBlock cr) (s.updCrew crew fun cr => { cr with moving := r }))

/-! ### Saving a thread (R40, R41, R360) -/

/-- What the device held for a thread that is saved is given up (R205, R249, R321). -/
def forget (ci li : Nat) (s : State) : State :=
  let core := s.coreOf ci
  let k := clusterOf core
  let mine (x : Nat × Nat) : Bool := x.1 == ci && x.2 == li
  let s1 : State :=
    { s with
      monitors := s.monitors.filter fun (m : Monitor) => !(m.crew == ci && m.lane == li)
      arrivals := s.arrivals.filter fun (a : Arrival) => !(a.crew == ci && a.lane == li) }
  let s2 := s1.updCore core fun co =>
    { co with
      faults := (co.faults.map fun (e : FaultEntry) =>
          if e.crew == ci then { e with waiters := e.waiters.filter fun w => w.key != li } else e).filter
            fun (e : FaultEntry) => !e.waiters.isEmpty
      faultQueue := co.faultQueue.filter fun (w : FaultWait) => !(w.crew == ci && w.key == li)
      unitQueue := co.unitQueue.filter fun (w : UnitWait) => !(w.crew == ci && w.lane == li) }
  (((s2.updCluster k fun K =>
    { K with matrixQueue := K.matrixQueue.filter fun x => !mine x
             reprojQueue := K.reprojQueue.filter fun x => !(x.crew == ci && x.lane == li) }).reprojFreed k).admitAll
      core).slotsFreed core

/-- A ray that the unit stops between two steps (R321).  What it was to do first is done now; where an access of
that step faults, its copy keeps it.  A ray outside the unit has stopped already. -/
def stopRay (y : Ray) (s : State) : State × Ray × Option (Nat × Nat) :=
  if y.begin = .walk ∨ !y.inUnit then (s, y, none)
  else
    match rayStep s y (some y.key) with
    | .ok x => (x.s, { y with record := x.r, begin := x.begin }, x.stop)
    | .bad => (s, y, some (0x20, 0))
    | .poison => (s, y, some (0x23, 0))
    | _ => (s, y, none)

/-- The keys of a lane's rays leave the fault buffer and the queue for slots. -/
def forgetKey (ci key : Nat) (s : State) : State :=
  let core := s.coreOf ci
  (s.updCore core fun co =>
    { co with
      faults := (co.faults.map fun (e : FaultEntry) =>
          if e.crew == ci then { e with waiters := e.waiters.filter fun w => w.key != key } else e).filter
            fun (e : FaultEntry) => !e.waiters.isEmpty
      faultQueue := co.faultQueue.filter fun (w : FaultWait) => !(w.crew == ci && w.key == key)
      unitQueue := co.unitQueue.filter fun (w : UnitWait) => !(w.crew == ci && w.lane == key) }).admitAll core

/-- The rays of a lane stop, the records of those in the unit stand in the scratchpad, and their slots are free (R321);
the record of one that has left the unit already stands as it is.  Fuel: rays. -/
def stopRays (ci li : Nat) : Nat → State → State
  | 0, s => s
  | fuel + 1, s =>
    let s1 :=
      match s.rays[fuel]? with
      | none => s
      | some y =>
        if y.crew ≠ ci ∨ y.lane ≠ li ∨ y.failed.isSome then s
        else
          let r := stopRay y s
          let s1 := forgetKey ci y.key r.1
          match r.2.2 with
          | some (st, k) => s1.endRay fuel r.2.1 st k
          | none =>
            ((if y.inUnit then s1.putRecord r.2.1 0 else s1).setRay fuel { r.2.1 with inUnit := false, faultAt := none }).slotsFreed
              (s.coreOf ci)
    stopRays ci li fuel s1

/-- Whether register `r` of a region's quartets is live-in. -/
def liveIn (r : Region) (n : Nat) : Bool := r.vq.getLsbD (n / 4)

/-- A region save (R40, R41): the marker, the live-in registers, the recorded depth and stream state. -/
def Lane.regionSave (l : Lane) : Lane :=
  match l.occ with
  | .thread t =>
    match t.region with
    | some r =>
      let keep (p : Nat → Bool) (rs : List Reg) : List Reg :=
        rs.mapIdx fun i x => if p i then x else Reg.zero x.tan.length
      { v := keep (liveIn r) l.v, q := keep (fun i => r.qp.getLsbD (i / 2)) l.q, key := r.key, ctr := r.ctr,
        occ := .thread { t with pc := r.marker, depth := r.depth, run := .saved, pendWait := none, held := [],
                                acquired := [], pendPair := none } }
    | none => l
  | _ => l

/-- A full save (R41). -/
def Thread.fullSave (t : Thread) : Thread :=
  { t with run := .saved, held := [], region := none, acquired := [], pendPair := none }

/-- The word of a crew at a program counter, where it can be read now (R82). -/
def wordAt (s : State) (ci : Nat) (cr : Crew) (pc : BitVec 56) : Option Nat :=
  if isWindow pc.toNat then none
  else
    match s.xlat cr.part pc.toNat { fetch := true } with
    | .ok g => if s.poisonedOn (dieOf cr.core) g 4 then none else some (leNat (s.codeRead ci (dieOf cr.core) g 4))
    | _ => none

/-- The REGION marker at a program counter: its live-in fields (R186). -/
def markerAt (s : State) (ci : Nat) (cr : Crew) (pc : BitVec 56) : Option (BitVec 14 × BitVec 4) :=
  match wordAt s ci cr pc with
  | some w =>
    if fld w 30 24 = 0x39 * 2 ∧ fld w 5 0 = 9 then some (BitVec.ofNat 14 (fld w 23 10), BitVec.ofNat 4 (fld w 9 6))
    else none
  | none => none

/-- How a thread of a crew under pre-emption is saved now, if it is (R41). -/
inductive SaveNow where
  | region
  | full
  | marker (v : BitVec 14) (q : BitVec 4)
  | no
  deriving DecidableEq, Repr

/-- How a thread is saved now.  One outside every region to which a result is still owed is saved once that has arrived:
the model's choice, since a save area has no place for a result on its way (log 36). -/
def saveNow (s : State) (ci li : Nat) (cr : Crew) (p : Preempt) (t : Thread) : SaveNow :=
  let out := s.outstanding ci li
  match t.run with
  | .saved => .no
  | .running => .no
  | .trapping => .no
  | .held => .full
  | .parked _ => if t.region.isSome then .region else if out then .no else .full
  | _ =>
    if t.region.isSome then .region
    else if out then .no
    else
      match markerAt s ci cr t.pc with
      | some (v, q) => .marker v q
      | none => if p.timedOut then .full else .no

/-- One lane of a crew under pre-emption; a wait that a write has already completed ends first (R249).  The save of a
thread is a release at .dev on its behalf (R234). -/
def saveLane (ci : Nat) (p : Preempt) (s0 : State) (li : Nat) : State :=
  let s := wakeMonitor ci li s0
  match s.crews[ci]?, s.thread? ci li with
  | some cr, some t =>
    let gone (s : State) : State := { s with rays := s.rays.filter fun (y : Ray) => !(y.crew == ci && y.lane == li) }
    let saved (s : State) (f : Lane → Lane) : State := ((forget ci li s).updLane ci li f).performed cr.part 2
    match saveNow s ci li cr p t with
    | .no => s
    | .region => saved (gone (stopRays ci li s.rays.length s)) Lane.regionSave
    | .marker v q => saved s fun l => (l.openRegion t.pc v q).regionSave
    | .full =>
      let s1 := stopRays ci li s.rays.length s
      -- a thread whose last ray ended here goes on as one between runs
      if (s1.thread? ci li).map Thread.run = some t.run then saved s1 fun l => l.updThread Thread.fullSave else s1
  | _, _ => s

/-- The dual traversals of a crew stop between two steps and end as PAUSED (R328). -/
def pausePairs (ci : Nat) : Nat → State → State
  | 0, s => s
  | fuel + 1, s =>
    let s1 :=
      match s.xpairs[fuel]? with
      | none => s
      | some op => if op.crew ≠ ci then s else s.runPair fuel (State.pausePair op)
    pausePairs ci fuel s1

/-- Whether the Joiner holds threads of a crew: none of the crew is saved until their moves are complete (R180). -/
def Crew.joining (cr : Crew) : Bool := cr.batch.isSome || !cr.moving.isEmpty

/-- Whether every thread of a crew is saved, and no work of its own is left. -/
def allSaved (s : State) (ci : Nat) (cr : Crew) : Bool :=
  !cr.joining &&
    (cr.lanes.all fun l => (l.thread?.map fun t => t.run == .saved).getD true) &&
    !s.copies.any (fun (o : CopyOp) => o.crew == some ci) && !s.xpairs.any (fun (x : XPairOp) => x.crew == ci) &&
    !s.clusters.any fun K => K.entries.any (fun (e : MEntry) => e.crew == ci) ||
      K.reproj.any fun (o : ReprojOp) => o.crew == ci

/-- The module is degraded and asks for service: a unit is withdrawn or retired (R21, R391, R398). -/
def enterDegraded (s : State) : State :=
  let m := s.module
  let s1 := { s with module := { m with svc := true, state := if m.state = .operational then .degraded else m.state } }
  if m.svc then s1 else s1.emit .service

/-- A unit that is retired is counted (R296, R398). -/
def countRetired (s : State) : State := { s with module := { s.module with retired := s.module.retired + 1 } }

/-- A unit that no crew holds is retired at once (R396). -/
def degrade (s : State) : State := countRetired (enterDegraded s)

/-- Whether some crew is left on a set of cores. -/
def anyOn (s : State) (p : Nat → Bool) : Bool := s.crews.any fun (cr : Crew) => cr.onCore && p cr.core

/-- A withdrawn core that no crew is left on is retired (R390, R396). -/
def retireCore (c : Nat) (s : State) : State :=
  if (s.core c).withdrawn && !(s.core c).retired && !anyOn s fun x => x == c then
    countRetired (s.updCore c fun co => { co with retired := true })
  else s

/-- A withdrawn cluster that no crew is left on is retired (R390, R396). -/
def retireCluster (k : Nat) (s : State) : State :=
  if (s.cluster k).withdrawn && !(s.cluster k).retired && !anyOn s fun x => clusterOf x == k then
    countRetired (s.updCluster k fun K => { K with retired := true })
  else s

/-- The core and the cluster that a crew has left are retired where that was due. -/
def retireLeft (core : Nat) (s : State) : State := retireCluster (clusterOf core) (retireCore core s)

/-- What a completed pre-emption leaves: the crew waits for a place again, with its gang once none of its crews
holds a core; the state of a removed grid is discarded (R337); a withdrawn unit that it was the last to hold is
retired (R390); and the actions that waited for its threads are taken (R364). -/
def leaveCore (ci : Nat) (area : Option (BitVec 56)) (s : State) : State :=
  let core := s.coreOf ci
  let s1 := s.updCrew ci fun cr =>
    { cr with status := if area.isSome then .distributed else .released, saveArea := area, preempt := none }
  let s2 := if area.isSome then s1 else { s1 with rays := s1.rays.filter fun (y : Ray) => y.crew != ci }
  let s3 :=
    match (s2.crews[ci]?).bind fun cr => (s2.gangs[cr.gang]?).map fun g => (cr.gang, g) with
    | none => s2
    | some (k, g) =>
      if g.crews.any fun c => ((s2.crews[c]?).map Crew.onCore).getD false then s2
      else s2.updGang k fun x => { x with placed := false, passed := 0 }
  takeActions ci (retireLeft core s3)

/-- The resident crews of a crew's gang. -/
def gangCrews (s : State) (ci : Nat) : List Nat :=
  (((s.crews[ci]?).bind fun cr => s.gangs[cr.gang]?).map fun g => g.crews.filter fun c =>
    ((s.crews[c]?).map Crew.resident).getD false).getD []

/-- Whether a crew's own part of its pre-emption is done: its threads are saved, and its area is there or not
needed. -/
def readyToLeave (s : State) (ci : Nat) : Bool :=
  match s.crews[ci]? with
  | none => false
  | some cr => (cr.preempt.any fun p => !p.asked && (p.area.isSome || p.discard)) && allSaved s ci cr

/-- The crew-level state of a crew is written to its area; none where an access faults. -/
def writeCrew (ci : Nat) (s : State) : Option State :=
  match s.crews[ci]? with
  | none => none
  | some cr =>
    match cr.preempt with
    | none => none
    | some p =>
      if p.discard then some s
      else p.area.bind fun a => writeArea cr.part a.toNat cr.sections s

/-- The areas of several crews written. -/
def writeCrews : List Nat → State → Option State
  | [], s => some s
  | c :: r, s => (writeCrew c s).bind (writeCrews r)

/-- A crew leaves its core with its area, or without one where its state is discarded. -/
def leave (ci : Nat) (s : State) : State :=
  leaveCore ci (((s.crews[ci]?).bind fun cr => cr.preempt).bind fun p => if p.discard then none else p.area) s

/-- THE END OF A PRE-EMPTION: once every thread of the crew, and of its whole gang, is saved and no work of theirs is
left, the crew-level states are written and the resources are released together (R26, R41, R427). -/
def finishSave (ci : Nat) (s : State) : State :=
  let crews := gangCrews s ci
  if crews.isEmpty || !crews.all (readyToLeave s) then s
  else
    match writeCrews crews (crews.foldl (fun s c => State.applyRegWrites (s.coreOf c) s) s) with
    | some s1 => crews.foldl (fun s c => leave c s) s1
    | none => s

/-- A crew under pre-emption: once its batches have closed and moved, its threads are saved as they reach their
save points, and at the end the crew itself (R41, R180). -/
def savePass (ci : Nat) (s : State) : State :=
  match s.crews[ci]? with
  | none => s
  | some cr =>
    match cr.preempt with
    | none => s
    | some p =>
      if !cr.resident || p.asked then s
      else
        let now := (s.core cr.core).lclk.toNat
        let p1 := if p.since + Config.preemptCycles ≤ now then { p with timedOut := true } else p
        let s1 := s.updCrew ci fun c => { c with preempt := some p1 }
        let s2 := pausePairs ci s1.xpairs.length s1
        let s3 := if cr.joining then s2 else (List.range cr.lanes.length).foldl (saveLane ci p1) s2
        finishSave ci s3

/-! ### Requests (R26, R390) -/

/-- Each crew of a list that has no area yet takes one; `say`: one that finds none is reported. -/
def takeAreas (say : Bool) (s : State) (crews : List Nat) : State :=
  crews.foldl (fun s c =>
    match s.crews[c]? with
    | none => s
    | some cr =>
      match cr.preempt with
      | none => s
      | some p =>
        if p.area.isSome || p.discard then s
        else
          let r := takeArea cr 8192 s
          match r.1 with
          | some a => r.2.updCrew c fun cr => { cr with preempt := some { p with area := some a } }
          | none => if say then trapReport cr.part (areaReport cr) r.2 else r.2) s

/-- Crews of the same gangs that have their places and are not restored yet give them up again (R26). -/
def unplace (crews : List Nat) (s : State) : State :=
  let gangs := crews.filterMap fun c => (s.crews[c]?).map fun cr => cr.gang
  let s1 : State := { s with crews := s.crews.map fun (cr : Crew) =>
    if cr.status = .resuming ∧ gangs.contains cr.gang then { cr with status := .distributed } else cr }
  gangs.foldl (fun s k =>
    if s.crews.any fun (cr : Crew) => cr.gang == k && cr.resident then s
    else s.updGang k fun x => { x with placed := false }) s1

/-- A request whose crews all hold an area takes effect (R390). -/
def startRequest (s : State) (crews : List Nat) : State :=
  let held (c : Nat) : Bool := ((s.crews[c]?).bind fun cr => cr.preempt).any fun p => p.area.isSome || p.discard
  if crews.all held then
    crews.foldl (fun s c => savePass c (s.updCrew c fun cr =>
      { cr with preempt := cr.preempt.map fun p =>
          if p.asked then { p with asked := false, since := (s.core cr.core).lclk.toNat } else p })) (unplace crews s)
  else s

/-- PREEMPT_REQUEST: system software or firmware asks for a crew, and so for its gang (R26, R41, R390). -/
def execPreemptRequest (crew : Nat) (s : State) : Out :=
  let crews := gangCrews s crew
  let now (cr : Crew) : Nat := (s.core cr.core).lclk.toNat
  let s1 := crews.foldl (fun s c => s.updCrew c fun cr =>
    if cr.preempt.isSome then cr else { cr with preempt := some ⟨now cr, none, false, false, true, false⟩ }) s
  .next (startRequest (takeAreas true s1 crews) crews)

/-- A pre-emption that the device forces for some crews, and so for their gangs (R26, R390). -/
def forcePreempt (s : State) (crews : List Nat) : State :=
  let all := (crews.flatMap (gangCrews s)).dedup
  let s1 := all.foldl (fun s c => s.updCrew c fun cr =>
    { cr with preempt := some (match cr.preempt with
        | some p => { p with forced := true, asked := false, since := if p.asked then (s.core cr.core).lclk.toNat else p.since }
        | none => ⟨(s.core cr.core).lclk.toNat, none, true, false, false, false⟩) }) s
  all.foldl (fun s c => savePass c s) (takeAreas true (unplace (crews ++ all) s1) all)

/-- PREEMPT_TIMEOUT: 4,096 cycles after the request the threads still outside every region are saved (R41). -/
def execPreemptTimeout (crew : Nat) (s : State) : Out := .next (savePass crew s)

/-- Crews of a partition that wait for an area try again, in order. -/
def retryAreas (part : Nat) (s : State) : State :=
  let waits := (List.range s.crews.length).filter fun c =>
    ((s.crews[c]?).map fun cr => cr.part == part && cr.resident &&
      cr.preempt.any fun p => p.area.isNone && !p.discard).getD false
  waits.foldl (fun s c => let crews := gangCrews s c; startRequest (takeAreas false s crews) crews) s

/-- SAVE_AREA_SUPPLY: system software fills the next empty slot of SAVEB, and a waiting pre-emption takes the
address (R390). -/
def execSaveAreaSupply (part : Nat) (addr : BitVec 64) (s : State) : Out :=
  match emptySlot s part with
  | none => .next s
  | some a => .next (retryAreas part (s.devWrite part a (leBytes 8 addr.toNat)))

/-! ### Resumption (R42, R356, R321) -/

/-- Where the wait of a resumed TRACE, TRES or TRACEP leads: the word's D, past its hints, and the next word. -/
def traceWord (s : State) (ci : Nat) (cr : Crew) : Nat → BitVec 56 → Option (Nat × BitVec 56)
  | 0, _ => none
  | fuel + 1, pc =>
    match wordAt s ci cr pc with
    | none => none
    | some w => if fld w 30 25 = 0x3F then traceWord s ci cr fuel (pc + 4) else some (fld w 23 18, pc + 4)

/-- A restored thread that waited on its rays waits on them again, and rays that its records name continue (R321).
While the word cannot be read, which names the register of the result, the thread stays parked and its rays wait. -/
def resumeTrace (ci : Nat) (s : State) (li : Nat) : State :=
  match s.crews[ci]?, s.thread? ci li with
  | some cr, some t =>
    let names : Option (List Nat × Bool) :=
      match t.pendWait with
      | some (.trace o) => some ([o], false)
      | some (.tracep n o) => some ((List.range n).map fun i => o + 128 * i, true)
      | _ => none
    match names with
    | none => s
    | some (offs, packet) =>
      if t.run = .held then s
      else
        let (d, cont) := (traceWord s ci cr Config.runWords t.pc).getD (64, t.pc)
        let s1 := s.updThread ci li fun t => { t with run := .parked (.trace d), cont := cont }
        let news := (offs.filter fun o => rayStatus (s.recordAt ci o) == 0 && !s.rayFlying ci o).map fun o =>
          (⟨ci, li, o, s.recordAt ci o, 0, false, none, none, packet, .walk, t.interval, s.moves.length⟩ : Ray)
        let s2 := { s1 with rays := s1.rays ++ news }
        if d = 64 ∨ (s2.rays.any fun y => y.crew == ci && y.lane == li && y.failed.isNone) = true then s2
        else s2.finishTrace ⟨ci, li, offs.headD 0, 0, 0, false, none, none, packet, .walk, t.interval, s.moves.length⟩ 0
  | _, _ => s

/-- A thread whose word could not be read when its crew resumed looks again. -/
def retryTrace (ci : Nat) (s : State) (li : Nat) : State :=
  if (s.thread? ci li).map Thread.run = some (.parked (.trace 64)) then resumeTrace ci s li else s

/-- The weight regions of a resumed crew are loaded again (R293); one that cannot be read is no longer valid. -/
def reloadRegion (ci : Nat) (s : State) (w : WRegion) : State :=
  match s.crews[ci]? with
  | none => s
  | some cr =>
    let per := rowBlocks w.fmt w.cols
    let fail : State := s.updCrew ci fun c => State.putRegion c { w with valid := false, data := [] }
    if !w.valid then fail
    else
      match s.wloadBlocks ci cr w.fmt w.dk.toNat w.adr.toNat w.rowb w.rows per false with
      | .ok bs =>
        let data := bs.flatMap fun b => compressBlock b.1 b.2
        if (bs.any fun b => Num.descFmt b.1 != w.fmt) ||
            decide ((pktWbuf cr.packet - w.granule) * 65536 < 64 + data.length) then fail
        else s.updCrew ci fun c => State.putRegion c { w with data := data }
      | _ => fail

/-- The crews of a crew's gang that have their places again and are not restored yet. -/
def resumingCrews (s : State) (ci : Nat) : List Nat :=
  (((s.crews[ci]?).bind fun cr => s.gangs[cr.gang]?).map fun g => g.crews.filter fun c =>
    ((s.crews[c]?).map fun (x : Crew) => x.status == .resuming).getD false).getD []

/-- The save area of a crew that has its place again; `none` where a crew or its area is not there. -/
def areaOf (s : State) (ci : Nat) : Option (Acc (List Byte)) :=
  (s.crews[ci]?).bind fun cr => cr.saveArea.map fun a => s.readG cr.part (dieOf cr.core) a.toNat (areaSize cr.packet) true

/-- The areas of several crews, once all can be read. -/
def areasOf (s : State) : List Nat → Option (List (Nat × List Byte))
  | [] => some []
  | c :: r =>
    match areaOf s c with
    | some (.ok bs) => (areasOf s r).map fun l => (c, bs) :: l
    | _ => none

/-- A crew restored from its area: every section, no weight region loaded yet (R356). -/
def restoreCrew (s : State) (x : Nat × List Byte) : State := s.updCrew x.1 fun c => { c.restore x.2 with regions := [] }

/-- What a restored crew does before a thread becomes ready: its rays go on, and the actions that waited for its
threads are taken (R321, R364). -/
def resumeThreads (s : State) (ci : Nat) : State :=
  takeActions ci ((List.range (((s.crews[ci]?).map fun cr => cr.lanes.length).getD 0)).foldl (resumeTrace ci) s)

/-- CREW_RESUME: the crews of a gang that have their places again are restored from their save areas together; the
weight regions are reloaded once every scratchpad stands, and then the threads go on (R26, R42, R298, R356, log 36).
An area that is rejected removes the grid. -/
def execCrewResume (crew : Nat) (s : State) : Out :=
  let crews := resumingCrews s crew
  if !crews.contains crew then .next s
  else
    match areasOf s crews with
    | none => .next s
    | some areas =>
      let bad (x : Nat × List Byte) : Bool := (s.crews[x.1]?).any fun cr => areaBad cr.packet x.2
      if areas.any bad then .next (s.removeGrid ((s.crews[crew]?.map fun cr => cr.grid).getD 0))
      else
        let regions : List (Nat × WRegion) := crews.flatMap fun c =>
          ((s.crews[c]?).map fun cr => cr.regions.reverse.map fun w => (c, w)).getD []
        let s1 := areas.foldl restoreCrew s
        let s2 := regions.foldl (fun s x => reloadRegion x.1 s x.2) s1
        .next (crews.foldl resumeThreads s2)

/-! ### Retirement (R296, R396) -/

/-- The crews that hold cores of a set. -/
def crewsOn (s : State) (p : Nat → Bool) : List Nat :=
  (List.range s.crews.length).filter fun c => ((s.crews[c]?).map fun cr => cr.onCore && p cr.core).getD false

/-- A core is withdrawn, and the module is degraded; its crews are pre-empted and resume elsewhere, and the core is
retired once they have left it (R390, R391, R396). -/
def withdrawCore (c : Nat) (s : State) : State :=
  if (s.core c).withdrawn then s
  else retireCore c (forcePreempt (enterDegraded (s.updCore c fun co => { co with withdrawn := true })) (crewsOn s fun x => x == c))

/-- A cluster is withdrawn, and the module is degraded (R21, R296, R390, R396). -/
def withdrawCluster (k : Nat) (s : State) : State :=
  if (s.cluster k).withdrawn then s
  else retireCluster k (forcePreempt (enterDegraded (s.updCluster k fun K => { K with withdrawn := true }))
    (crewsOn s fun x => clusterOf x == k))

/-- A thread parked for an entry that a failed engine drops executes its word again. -/
def dropEntry (k : Nat) (s : State) (e : MEntry) : State :=
  match e.lane with
  | some li =>
    let s1 := s.freeEntry k e
    if (s1.thread? e.crew li).map Thread.run = some (.parked .matrixEntry) then s1.wakeRetry e.crew li else s1
  | none => (s.updCrew e.crew fun cr => nanBlock cr e).stampEntry k e 0x0B

/-- MULTIPLIER_MISMATCH: a column is retired onto a spare and the pass runs again; without a spare left, the
cluster is withdrawn and every unfinished entry ends as HWFAIL (R296). -/
def execMultiplierMismatch (cluster : Nat) (s : State) : Out :=
  let K := s.cluster cluster
  if K.withdrawn || decide (Config.clusters ≤ cluster) then .next s
  else if K.spares < Config.spareColumns then
    .next (countRetired (s.updCluster cluster fun K => { K with spares := K.spares + 1 }))
  else .next (withdrawCluster cluster (K.entries.foldl (dropEntry cluster) s))

/-- A lasting fault retires its unit (R396). -/
def retire (unit : HwUnit) (s : State) : State :=
  let m := s.module
  match unit with
  | .core c _ => withdrawCore c s
  | .matrixCell k =>
    match execMultiplierMismatch k s with
    | .next s' => s'
    | _ => s
  | .cluster k _ => withdrawCluster k s
  | .l2Slice d i =>
    if m.slicesOut.contains (d, i) then s
    else degrade { s with module := { m with l2MB := m.l2MB - 2, slicesOut := (d, i) :: m.slicesOut } }
  | .memoryBlock pa =>
    if m.pagesDue.contains (pa / 65536) ∨ m.pagesOut.contains (pa / 65536) then s
    else degrade { s with module := { m with pagesDue := pa / 65536 :: m.pagesDue } }
  | .scribe d =>
    if m.scribesOut.contains d then s else degrade { s with module := { m with scribesOut := d :: m.scribesOut } }

/-- Whether a unit retires at the end of a cycle of a core. -/
def unitOfCore (core : Nat) : HwUnit → Bool
  | .core c _ => c == core
  | _ => false

/-- A retirement takes effect at the end of the unit's cycle (R395): for a part of a core, of the cycle under way;
every other unit's cycle ends with the event (log 40). -/
def retireAtEnd (unit : HwUnit) (s : State) : State :=
  match unit with
  | .core c _ => if (s.core c).lastSlot.isSome then { s with retiring := s.retiring ++ [unit] } else retire unit s
  | _ => retire unit s

/-- The units of a core whose retirement is due. -/
def retireDue (core : Nat) (s : State) : State :=
  (s.retiring.filter (unitOfCore core)).foldl (fun s u => retire u s)
    { s with retiring := s.retiring.filter fun u => !unitOfCore core u }

end Sys2Proof.Machine
end

