-- ==== Sys2Proof/Machine/Cycle.lean ====
section
/-!
DEFINITION. What happens between words: the picker, arriving results, waits that are met, and the end of a
core's cycle (R34, R35, R126, R176, R182-R184, R198, R249-R255, R259).
-/

namespace Sys2Proof.Machine

open Sys2Proof

/-! ### The picker (R35) -/

/-- A ready thread of a core (R34). -/
structure Ready where
  num : Nat
  crew : Nat
  lane : Nat
  pc : BitVec 56
  deriving DecidableEq, Repr

/-- Whether a thread is kept from becoming ready, or from running, by the pre-emption of its crew: it is inside a
region, or, while the Joiner's moves put off its save, it has reached a REGION marker (R34, R41, R180). -/
def barred (s : State) (ci : Nat) (cr : Crew) (t : Thread) : Bool :=
  cr.stopping && (t.region.isSome || (cr.joining && (markerAt s ci cr t.pc).isSome))

/-- The ready threads of a core. -/
def readyOn (s : State) (core : Nat) : List Ready :=
  s.crews.zipIdx.flatMap fun x =>
    if x.1.resident && x.1.core == core then
      x.1.lanes.zipIdx.filterMap fun l =>
        match l.1.thread? with
        | some t =>
          match t.run with
          | .ready n => if barred s x.2 x.1 t then none else some ⟨n, x.2, l.2, t.pc⟩
          | _ => none
        | none => none
    else []

/-- The oldest of some ready threads. -/
def oldest : List Ready → Option Ready
  | [] => none
  | x :: xs =>
    match oldest xs with
    | none => some x
    | some y => if y.num < x.num then some y else some x

/-- The group that the picker forms (R35): its lanes. -/
def pickLanes (cr : Crew) (leader : Ready) (mates : List Ready) : List LaneRef :=
  (List.range 16).map fun t =>
    let k := t / 4
    let quad :=
      if leader.lane / 4 % 4 = k then some (leader.lane / 4)
      else (oldest (mates.filter fun r => r.lane / 4 % 4 == k)).map fun r => r.lane / 4
    match quad with
    | none => ⟨.empty, 0⟩
    | some q =>
      let p := 4 * q + t % 4
      if mates.any fun r => r.lane == p then ⟨.active, p⟩
      else if ((cr.lanes[p]?).bind Lane.thread?).isNone then ⟨.helper, p⟩
      else ⟨.inactive, p⟩

/-- Whether a slot is the one that the picker fills next: at the start of a cycle the lowest free slot (R165). -/
def pickable (s : State) (core slot : Nat) : Bool :=
  s.works && (s.core core).lastSlot.isNone && (s.core core).slots[slot]? == some none &&
    ((s.core core).slots.take slot).all Option.isSome

/-- PICK_GROUP: R35, R165. -/
def execPickGroup (core slot : Nat) (s : State) : Out :=
  let ready := readyOn s core
  match oldest ready with
  | none => .next s
  | some leader =>
    match s.crews[leader.crew]? with
    | none => .next s
    | some cr =>
      if !pickable s core slot then .next s
      else
        let mates := ready.filter fun r => r.crew == leader.crew && r.pc == leader.pc
        let lanes := pickLanes cr leader mates
        let g : Group := ⟨leader.crew, leader.pc, 0, lanes, List.replicate 16 [], Bundle.empty⟩
        let s1 := s.mapLanes leader.crew fun p l =>
          if lanes.any fun r => r.kind == .active && r.place == p then l.updThread fun t => { t with run := .running } else l
        .next (s1.updCore core fun co => { co with slots := co.slots.set slot (some g) })

/-! ### Results that arrive (R31, R34) -/

/-- A thread between runs whose last result has arrived becomes ready when the cycle ends. -/
def settle (s : State) (ci li : Nat) : State :=
  if s.outstanding ci li then s
  else s.updThread ci li fun t => if t.run = .waiting then { t with run := .waking none } else t

/-- LOAD_DATA_ARRIVAL: result `i` reaches its registers (R202, R208). -/
def execLoadDataArrival (i : Nat) (s : State) : Out :=
  match s.arrivals[i]? with
  | none => .next s
  | some a =>
    let s1 := s.updLane a.crew a.lane fun l => (l.setRegs a.writes).setFlags a.flags
    .next (settle { s1 with arrivals := s1.arrivals.eraseIdx i } a.crew a.lane)

/-! ### Waits that are met -/

/-- MONITOR_WAKE: a write to a watched block has completed a parked MWAIT (R249, R250). -/
def execMonitorWake (crew lane : Nat) (s : State) : Out := .next (wakeMonitor crew lane s)

/-- MAILBOX_WAIT_MET: the slot of a parked put or take reaches its ticket; a put then performs its release (R259). -/
def execMailboxWaitMet (crew lane : Nat) (s : State) : Out :=
  match (s.thread? crew lane).map Thread.run, s.crews[crew]? with
  | some (.parked (.mailbox a k put msg d scope)), some cr =>
    match mboxTry crew a.toNat k put msg s with
    | none => .next s
    | some (s1, v) =>
      let s2 := if put then s1.performed cr.part scope else s1.updLane crew lane fun l => l.setRegs (plainRegs cr.t d 2 v.toNat)
      .next (s2.wakeCont crew lane)
  | _, _ => .next s

/-- Whether a crew lets a phase of a gang barrier complete (R255). -/
def gangReady (n : Nat) (cr : Crew) : Bool :=
  let b := cr.bar n
  cr.live == 0 || (cr.resident && b.gang && b.cnt == some 0 && decide (cr.live ≤ b.pend))

/-- The crews of a gang. -/
def gangMembers (s : State) (g : Gang) : List (Nat × Crew) := g.crews.filterMap fun c => (s.crews[c]?).map fun cr => (c, cr)

/-- Whether a phase of gang barrier `bar` completes: some crew waits on it, and every crew has arrived (R255). -/
def gangDue (s : State) (g : Gang) (bar : Nat) : Bool :=
  let crews := gangMembers s g
  (crews.any fun x => x.2.resident && (x.2.bar bar).gang && (x.2.bar bar).cnt.isSome) &&
    crews.all fun x => (x.2.resident || x.2.status == .released) && gangReady bar x.2

/-- GANG_BARRIER_COMPLETE: every crew of a gang has arrived at gang barrier `bar`, and it completes in each
(R255). -/
def execGangBarrierComplete (grid gang bar : Nat) (s : State) : Out :=
  match s.gangs.find? fun g => g.grid == grid && g.index == gang with
  | none => .next s
  | some g =>
    if gangDue s g bar then
      .next ((gangMembers s g).foldl (fun s x =>
        wakeBarrier x.1 bar (s.setBar x.1 bar ((x.2.bar bar).complete x.2.live))) s)
    else .next s

/-! ### The end of a cycle -/

/-- The lanes of home group `h` that wait in WAITM on mask `k`. -/
def maskWaiters (cr : Crew) (h k : Nat) : List Nat :=
  (List.range 16).filter fun j =>
    ((cr.lanes[16 * h + j]?).bind Lane.thread?).any fun t => t.run == .parked (.mask k)

/-- Whether a mask is satisfied (R182). -/
def maskMet (cr : Crew) (h k : Nat) : Bool :=
  let ws := maskWaiters cr h k
  let m := cr.masks.getD (12 * h + k) 0
  !ws.isEmpty && (List.range 16).all fun j => !m.getLsbD j || ws.contains j

/-- The masks of a crew tested (R182). -/
def releaseMasks (ci : Nat) (s : State) : State :=
  match s.crews[ci]? with
  | none => s
  | some cr =>
    (List.range (12 * pktH cr.packet)).foldl (fun s i =>
      if maskMet cr (i / 12) (i % 12) then
        (maskWaiters cr (i / 12) (i % 12)).foldl (fun s j => s.wakeCont ci (16 * (i / 12) + j)) s
      else s) s

/-- Home groups whose live threads all wait in WAITM raise REJOIN-CYCLE (R184). -/
def rejoinCycles (ci : Nat) (s : State) : State :=
  match s.crews[ci]? with
  | none => s
  | some cr =>
    (List.range (pktH cr.packet)).foldl (fun s h =>
      let live := (List.range 16).filter fun j => ((cr.lanes[16 * h + j]?).bind Lane.thread?).isSome
      let stuck (j : Nat) : Bool := ((cr.lanes[16 * h + j]?).bind Lane.thread?).any fun t =>
        match t.run with
        | .parked (.mask _) => true
        | _ => false
      if !live.isEmpty && live.all stuck then
        live.foldl (fun s j => s.trapThread ci (16 * h + j) .rejoinCycle 0) s
      else s) s

/-- Crew barriers complete (R253): a set count is met, or under LIVE every live thread has arrived. -/
def completeBarriers (ci : Nat) (s : State) : State :=
  match s.crews[ci]? with
  | none => s
  | some cr =>
    (List.range cr.bars.length).foldl (fun s n =>
      let b := cr.bar n
      match b.cnt with
      | none => s
      | some c =>
        let need := if c = 0 then cr.live else c
        if b.gang || decide (b.pend < need) then s else wakeBarrier ci n (s.setBar ci n (b.complete need))) s

/-- Threads parked on a tile look at it again (R218). -/
def settleTiles (ci : Nat) (s : State) : State :=
  match s.crews[ci]? with
  | none => s
  | some cr => (List.range cr.tiles.length).foldl (fun s i => s.settleTile ci i) s

/-- Held window accesses that can be applied are (R198). -/
def applyWindows (ci : Nat) (s : State) : State :=
  match s.crews[ci]? with
  | none => s
  | some cr =>
    (List.range cr.lanes.length).foldl (fun s li =>
      match execWindowAccessApply ci li s with
      | .next s1 => s1
      | _ => s) s

/-- What the threads of one crew find at the end of a cycle.  The batch is tested after the masks and barriers have released
their threads: the model's choice, R176 gives no order (log 49). -/
def endCycleCrew (s : State) (ci : Nat) : State :=
  savePass ci (closeBatch ci (settleTiles ci (completeBarriers ci (rejoinCycles ci (releaseMasks ci s)))))

/-- The threads of a crew that become ready, in their order (R34, R41, R177): the Joiner's batch, then by lane. -/
def wakingOrder (s : State) (ci : Nat) (cr : Crew) : List Nat :=
  let at_ (p : Nat) : Option (Option Nat) :=
    ((cr.lanes[p]?).bind Lane.thread?).bind fun t =>
      match t.run with
      | .waking b => if barred s ci cr t then none else some b
      | _ => none
  let lanes := List.range cr.lanes.length
  let block := sortBy (fun (a b : Nat × Nat) => decide (a.1 < b.1)) (lanes.filterMap fun p =>
    match at_ p with
    | some (some i) => some (i, p)
    | _ => none)
  block.map Prod.snd ++ lanes.filter fun p => at_ p == some none

/-- The threads of a crew that wait to become ready receive the core's next ready numbers (R34). -/
def numberCrew (core : Nat) (s : State) (ci : Nat) : State :=
  match s.crews[ci]? with
  | none => s
  | some cr =>
    (wakingOrder s ci cr).foldl (fun s p =>
      (s.updThread ci p fun t => { t with run := .ready (s.core core).readyNext }).updCore core fun co =>
        { co with readyNext := co.readyNext + 1 }) s

/-- What words of the next cycle see of this one (R126, R148, R198). -/
def snapshot (core : Nat) (cr : Crew) : Crew :=
  if cr.resident && cr.core == core then
    { cr with lanesOld := cr.lanes, uOld := cr.u, tempOld := cr.temp, tilesOld := cr.tiles }
  else cr

/-- The crews resident on a core, in ascending crew slot. -/
def crewsOf (s : State) (core : Nat) : List Nat :=
  let mine := (List.range s.crews.length).filter fun c =>
    ((s.crews[c]?).map fun cr => cr.resident && cr.core == core).getD false
  sortBy (fun a b => decide (((s.crews[a]?).map fun cr => cr.cslot).getD 0 < ((s.crews[b]?).map fun cr => cr.cslot).getD 0)) mine

/-- What windows ask of a core's crews is applied at the end of its cycle: the register writes of this cycle, then the
held accesses, and what they write (R198). -/
def applyAll (core : Nat) (s : State) : State :=
  let s1 := State.applyRegWrites core s
  State.applyRegWrites core ((crewsOf s1 core).foldl (fun s ci => applyWindows ci s) s1)

/-- Threads of a crew whose traversal's word could not be read at the resumption look again (R321). -/
def retryTraces (s : State) (ci : Nat) : State :=
  (List.range (((s.crews[ci]?).map fun cr => cr.lanes.length).getD 0)).foldl (retryTrace ci) s

/-- THE END OF A CYCLE of a core: window accesses are applied, waits are tested, the Joiner and pre-emptions go on, crews that are over release
what they hold, threads become ready, and the counter steps (R176, R182-R184, R198, R253, R300, R395). -/
def endCycle (core : Nat) (s : State) : State :=
  let s0 := applyAll core s
  let s1 := (crewsOf s0 core).foldl retryTraces (((crewsOf s0 core).foldl endCycleCrew s0).slotsFreed core)
  let s2 := retireLeft core (retireDue core s1).releaseOver
  let s3 := (crewsOf s2 core).foldl (numberCrew core) s2
  let s4 : State := { s3 with crews := s3.crews.map (snapshot core) }
  s4.updCore core fun co => { co with lclk := co.lclk + 1, lastSlot := none }

end Sys2Proof.Machine
end

