-- ==== Sys2Proof/Machine/Exchange.lean ====
section
/-!
DEFINITION. The lane exchanges (R120-R122) and the uniform operations (R123-R127).
-/

namespace Sys2Proof.Machine

open Sys2Proof

/-- An exchange: each executing lane takes the operand as read in its source lane, or its own where that
lane does not execute (R121).  R120 gives the operand a width only, and an IMM is read as an integer (log 47). -/
def exchange (i : WordInfo) (n : Bool) (d : Code) (wide : Bool) (ty : OpTy) (a : Code) (src : Ctx → Nat → Nat) :
    State → Out :=
  vecWord i n d wide fun k t =>
    let p := src k t
    { val := some (k.opnd (if k.exec p then p else t) ty a) }

/-- The lowest active lane that the guard passes (R125). -/
def Ctx.first (c : Ctx) : Nat := ((List.range 16).find? fun t => c.active t).getD 0

/-- A uniform operation: it executes once for the group, when some lane is active (R125); the register is
read as new from the next cycle on (R126). -/
def uniformWord (i : WordInfo) (d : Code) (f : Ctx → Dword) (s : State) : Out :=
  frame i s fun c s =>
    if (List.range 16).any fun t => c.active t then
      s.updCrew c.ci fun cr => { cr with u := cr.u.set d.toNat (f c) }
    else s

/-- QXCH.X: R121. -/
def execQxchX (b : Bool) (n : Bool) (d : BitVec 6) (a : BitVec 6) (s : State) : Out :=
  exchange ⟨b, [.dst false n d, .src .i32 a], true⟩ n d false .i32 a (fun _ t => t ^^^ 1) s

/-- QXCH.Y: R121. -/
def execQxchY (b : Bool) (n : Bool) (d : BitVec 6) (a : BitVec 6) (s : State) : Out :=
  exchange ⟨b, [.dst false n d, .src .i32 a], true⟩ n d false .i32 a (fun _ t => t ^^^ 2) s

/-- QXCH.XY: R121. -/
def execQxchXy (b : Bool) (n : Bool) (d : BitVec 6) (a : BitVec 6) (s : State) : Out :=
  exchange ⟨b, [.dst false n d, .src .i32 a], true⟩ n d false .i32 a (fun _ t => t ^^^ 3) s

/-- QXCH.BC: R121. -/
def execQxchBc (b : Bool) (n : Bool) (d : BitVec 6) (a : BitVec 6) (c : BitVec 6) (s : State) : Out :=
  exchange ⟨b, [.dst false n d, .src .i32 a, .idx 4 c], true⟩ n d false .i32 a (fun _ t => 4 * (t / 4) + c.toNat) s

/-- GSHUF: R121. -/
def execGshuf (b : Bool) (n : Bool) (d : BitVec 6) (a : BitVec 6) (c : BitVec 6) (s : State) : Out :=
  exchange ⟨b, [.dst false n d, .src .i32 a, .src .i32 c], true⟩ n d false .i32 a (fun k t => bitsOf (k.r32 t c) 3 0) s

/-- GSHUF.XOR: R121. -/
def execGshufXor (b : Bool) (n : Bool) (d : BitVec 6) (a : BitVec 6) (c : BitVec 6) (s : State) : Out :=
  exchange ⟨b, [.dst false n d, .src .i32 a, .src .i32 c], true⟩ n d false .i32 a (fun k t => t ^^^ bitsOf (k.r32 t c) 3 0) s

/-- QXCH.X.64: R121. -/
def execQxchX64 (b : Bool) (n : Bool) (d : BitVec 6) (a : BitVec 6) (s : State) : Out :=
  exchange ⟨b, [.dst true n d, .src .i64 a], true⟩ n d true .i64 a (fun _ t => t ^^^ 1) s

/-- QXCH.Y.64: R121. -/
def execQxchY64 (b : Bool) (n : Bool) (d : BitVec 6) (a : BitVec 6) (s : State) : Out :=
  exchange ⟨b, [.dst true n d, .src .i64 a], true⟩ n d true .i64 a (fun _ t => t ^^^ 2) s

/-- QXCH.XY.64: R121. -/
def execQxchXy64 (b : Bool) (n : Bool) (d : BitVec 6) (a : BitVec 6) (s : State) : Out :=
  exchange ⟨b, [.dst true n d, .src .i64 a], true⟩ n d true .i64 a (fun _ t => t ^^^ 3) s

/-- QXCH.BC.64: R121. -/
def execQxchBc64 (b : Bool) (n : Bool) (d : BitVec 6) (a : BitVec 6) (c : BitVec 6) (s : State) : Out :=
  exchange ⟨b, [.dst true n d, .src .i64 a, .idx 4 c], true⟩ n d true .i64 a (fun _ t => 4 * (t / 4) + c.toNat) s

/-- GSHUF.64: R121. -/
def execGshuf64 (b : Bool) (n : Bool) (d : BitVec 6) (a : BitVec 6) (c : BitVec 6) (s : State) : Out :=
  exchange ⟨b, [.dst true n d, .src .i64 a, .src .i32 c], true⟩ n d true .i64 a (fun k t => bitsOf (k.r32 t c) 3 0) s

/-- GSHUF.XOR.64: R121. -/
def execGshufXor64 (b : Bool) (n : Bool) (d : BitVec 6) (a : BitVec 6) (c : BitVec 6) (s : State) : Out :=
  exchange ⟨b, [.dst true n d, .src .i64 a, .src .i32 c], true⟩ n d true .i64 a (fun k t => t ^^^ bitsOf (k.r32 t c) 3 0) s

/-- UMOV: R125. -/
def execUmov (b : Bool) (d : BitVec 6) (a : BitVec 6) (s : State) : Out :=
  uniformWord ⟨b, [.uni d, .usrc a], true⟩ d (fun k => k.usrc a) s

/-- UADD: R125. -/
def execUadd (b : Bool) (d : BitVec 6) (a : BitVec 6) (c : BitVec 6) (s : State) : Out :=
  uniformWord ⟨b, [.uni d, .usrc a, .usrc c], true⟩ d (fun k =>
    let x := k.usrc a
    let y := k.usrc c
    x + y) s

/-- USUB: R125. -/
def execUsub (b : Bool) (d : BitVec 6) (a : BitVec 6) (c : BitVec 6) (s : State) : Out :=
  uniformWord ⟨b, [.uni d, .usrc a, .usrc c], true⟩ d (fun k =>
    let x := k.usrc a
    let y := k.usrc c
    x - y) s

/-- UMUL: R125. -/
def execUmul (b : Bool) (d : BitVec 6) (a : BitVec 6) (c : BitVec 6) (s : State) : Out :=
  uniformWord ⟨b, [.uni d, .usrc a, .usrc c], true⟩ d (fun k =>
    let x := k.usrc a
    let y := k.usrc c
    x * y) s

/-- UAND: R125. -/
def execUand (b : Bool) (d : BitVec 6) (a : BitVec 6) (c : BitVec 6) (s : State) : Out :=
  uniformWord ⟨b, [.uni d, .usrc a, .usrc c], true⟩ d (fun k =>
    let x := k.usrc a
    let y := k.usrc c
    x &&& y) s

/-- UOR: R125. -/
def execUor (b : Bool) (d : BitVec 6) (a : BitVec 6) (c : BitVec 6) (s : State) : Out :=
  uniformWord ⟨b, [.uni d, .usrc a, .usrc c], true⟩ d (fun k =>
    let x := k.usrc a
    let y := k.usrc c
    x ||| y) s

/-- UXOR: R125. -/
def execUxor (b : Bool) (d : BitVec 6) (a : BitVec 6) (c : BitVec 6) (s : State) : Out :=
  uniformWord ⟨b, [.uni d, .usrc a, .usrc c], true⟩ d (fun k =>
    let x := k.usrc a
    let y := k.usrc c
    x ^^^ y) s

/-- USHL: R125. -/
def execUshl (b : Bool) (d : BitVec 6) (a : BitVec 6) (c : BitVec 6) (s : State) : Out :=
  uniformWord ⟨b, [.uni d, .usrc a, .usrc c], true⟩ d (fun k =>
    let x := k.usrc a
    let y := k.usrc c
    if 64 ≤ y.toNat then 0 else x <<< y.toNat) s

/-- USHR: R125. -/
def execUshr (b : Bool) (d : BitVec 6) (a : BitVec 6) (c : BitVec 6) (s : State) : Out :=
  uniformWord ⟨b, [.uni d, .usrc a, .usrc c], true⟩ d (fun k =>
    let x := k.usrc a
    let y := k.usrc c
    x >>> y.toNat) s

/-- USAR: R125. -/
def execUsar (b : Bool) (d : BitVec 6) (a : BitVec 6) (c : BitVec 6) (s : State) : Out :=
  uniformWord ⟨b, [.uni d, .usrc a, .usrc c], true⟩ d (fun k =>
    let x := k.usrc a
    let y := k.usrc c
    sar x y.toNat) s

/-- UMIN: R125. -/
def execUmin (b : Bool) (d : BitVec 6) (a : BitVec 6) (c : BitVec 6) (s : State) : Out :=
  uniformWord ⟨b, [.uni d, .usrc a, .usrc c], true⟩ d (fun k =>
    let x := k.usrc a
    let y := k.usrc c
    minS x y) s

/-- UMAX: R125. -/
def execUmax (b : Bool) (d : BitVec 6) (a : BitVec 6) (c : BitVec 6) (s : State) : Out :=
  uniformWord ⟨b, [.uni d, .usrc a, .usrc c], true⟩ d (fun k =>
    let x := k.usrc a
    let y := k.usrc c
    maxS x y) s

/-- UMOVV: R125. -/
def execUmovv (b : Bool) (d : BitVec 6) (a : BitVec 6) (s : State) : Out :=
  uniformWord ⟨b, [.uni d, .src .i32 a], true⟩ d (fun k => k.prim k.first .i32 a) s

/-- UMOVV.64: R125. -/
def execUmovv64 (b : Bool) (d : BitVec 6) (a : BitVec 6) (s : State) : Out :=
  uniformWord ⟨b, [.uni d, .src .i64 a], true⟩ d (fun k => k.prim k.first .i64 a) s

end Sys2Proof.Machine
end

