-- ==== Sys2Proof/Machine/Links.lean ====
section
/-!
DEFINITION. The host's registers and accesses, what peers send, and checkpoints (R372-R378, R385).
-/

namespace Sys2Proof.Machine

open Sys2Proof

/-! ### BAR0 (R373, R374) -/

/-- The virtual function of a number. -/
def vfOf (s : State) (vf : Nat) : Option (Nat × Vf) := (s.vfs.zipIdx.find? fun x => x.1.id == vf).map fun x => (x.2, x.1)

/-- The queue that a doorbell slot names: the j-th queue assigned to the function, which is its partition's (R373,
R388). -/
def slotQueue (s : State) (f : Vf) (j : Nat) : Option Nat :=
  (f.slots[j]?).bind fun q => if j < Config.queues ∧ q < Config.queues ∧ qdPart (s.queue q) = f.part then some q else none

/-- DOORBELL: R373; bits 63:32 are ignored. -/
def execDoorbell (vf j : Nat) (v : BitVec 64) (s : State) : Out :=
  match vfOf s vf with
  | none => .next s
  | some (_, f) =>
    match slotQueue s f j with
    | none => .next s
    | some q => if s.works then .next (s.ringQueue q (v.toNat % 2 ^ 32)) else .next s

/-- REGW: R374. -/
def execRegw (vf : Nat) (v : BitVec 64) (s : State) : Out :=
  match vfOf s vf with
  | none => .next s
  | some (i, f) =>
    if bitsOf v 2 0 ≠ 0 ∨ 63 < bitsOf v 63 56 ∨ !s.works ∨ f.part = none then .next s
    else if Config.registrations ≤ f.waiters.length then .next { s with vfs := s.vfs.set i { f with full := true } }
    else
      let w : BitVec 56 × BitVec 6 := (BitVec.ofNat 56 (bitsOf v 55 0), BitVec.ofNat 6 (bitsOf v 63 56))
      .next { s with vfs := s.vfs.set i { f with waiters := f.waiters ++ [w] } }

/-- REGST_READ: R373. -/
def execRegstRead (vf : Nat) (s : State) : Out :=
  match vfOf s vf with
  | none => .next s
  | some (i, f) =>
    .next ({ s with vfs := s.vfs.set i { f with full := false } }.emit
      (.regst (BitVec.ofNat 64 (f.waiters.length + f.full.toNat * 2 ^ 16))))

/-- BAR0_RESERVED_WRITE: a write to a reserved offset is ignored, and a read of it, an event with no value, returns zero
(R373). -/
def execBar0ReservedWrite (_vf _off : Nat) (v : Option (BitVec 64)) (s : State) : Out :=
  match v with
  | some _ => .next s
  | none => .next (s.emit (.bar0 0))

/-! ### Device memory as the host reaches it (R372, R397) -/

/-- Whether bytes lie in some die's memory, or beyond every die's: in host memory, which the device reaches through
CXL.cache (R10, R372, log 50). -/
def physOk (a n : Nat) : Bool :=
  decide (a / Config.dieStride < Config.dies ∧ a % Config.dieStride + n ≤ Config.dieBytes) ||
    decide (Config.dies * Config.dieStride ≤ a ∧ a + n ≤ 2 ^ 56)

/-- A power of two. -/
def isPow2 (n : Nat) : Bool := (List.range 33).any fun i => n == 2 ^ i

/-- The virtual functions of a partition (R388). -/
def vfsOf (vfs : List Vf) (p : Nat) : List Nat := (vfs.filter fun f => f.part == some p).map Vf.id

/-- Whether Sprinow rejects the context of a partition with virtual functions `vfs` (R389, R5). -/
def contextBad (vfs : List Nat) (P : Partition) : Bool :=
  let adrs := [0, 16, 32, 40, 56, 64, 72, 80, 88]
  (adrs.any fun a => P.at (a + 7) 1 != 0) || P.at 115 13 != 0 ||
    decide (P.at 8 8 = 0 ∨ P.at 16 7 % 64 ≠ 0 ∨ 64 < P.at 96 1 ∨ 16 < P.at 97 1 ∨ 3 < P.at 98 1 ∨ 12 < P.at 99 1 ∨
      63 < P.at 114 1 ∨ (P.at 112 2 ≠ 0xFFFF ∧ P.at 112 2 ∉ vfs)) ||
    !isPow2 (P.at 24 4)

/-- Partition contexts as memory holds them, where `f` says that theirs was written (R389, log 16): CLMASK stays as the
start found it, since no two partitions share a cluster (R388).  One that would be rejected at a start is rejected, the
context before it stands, and the rejection is recorded (R5, R389, log 40).  A Plumb log ring whose base or size changes starts empty
(log 12). -/
def reloadIf (f : Nat → Bool) (s : State) : State :=
  let read (p : Nat) (P : Partition) : Partition :=
    ({ P with ctx := BitVec.ofNat 1024 (s.mem.nat (Config.contextAt p) 128) } : Partition).setAt 8 8 (P.at 8 8)
  let bad (p : Nat) (P : Partition) : Bool := f p && contextBad (vfsOf s.vfs p) (read p P)
  let load (Q P : Partition) : Partition := { Q with logged := if Q.at 40 12 = P.at 40 12 then P.logged else 0 }
  { s with
    parts := s.parts.mapIdx fun p (P : Partition) => if f p && !bad p P then load (read p P) P else P
    module := { s.module with rejected := s.module.rejected ++
      ((s.parts.zipIdx.filter fun x => bad x.2 x.1).map Prod.snd).filter fun p => !s.module.rejected.contains p } }

/-- The contexts that a write of `n` bytes at `a` meets. -/
def reloadContexts (a n : Nat) (s : State) : State :=
  reloadIf (fun p => decide (a < Config.contextAt p + 128 ∧ Config.contextAt p < a + n)) s

/-- What follows a write of `n` bytes at a physical address by an agent at .sys: page tables may have newly typed pages,
contexts may have changed, and collective rings may have been written (R61, R191, R380, R389). -/
def afterWrite (a n : Nat) (before s : State) : State :=
  (List.range s.parts.length).foldl (fun s p => s.ringTails p) (before.freshTyped (reloadContexts a n s))

/-- HOST_DEVICE_MEMORY_ACCESS: the host reads or writes memory through CXL.mem (R372); a poisoned block answers with
poison, and a write of a whole block clears it (R397). -/
def execHostDeviceMemoryAccess (_part : Nat) (addr : BitVec 56) (len : Nat) (data : Option (List (BitVec 8))) (s : State) : Out :=
  match data with
  | none =>
    if !physOk addr.toNat len then .next s
    else if 0 < len && s.poisoned addr.toNat len then .next (s.emit .hostPoison)
    else .next (s.emit (.hostData (s.mem.read addr.toNat len)))
  | some bs =>
    if !physOk addr.toNat bs.length then .next s
    else .next (afterWrite addr.toNat bs.length s (s.hostStore addr.toNat bs))

/-! ### Peers (R377, R378) -/

/-- Bytes written by a command that the transport gave up: each 4-byte word is old or new, a free choice (R377, log 6). -/
def tornBytes (n : Nat) (old new : List Byte) : List Byte :=
  (old.zip new).mapIdx fun i x => if Config.raceBit (n + i / 4) then x.2 else x.1

/-- A .sys agent has stored bytes to the partition's memory: later launches fetch them (R82), and its collective rings
may have been written (R377, R380). -/
def agentWrote (part : Nat) (s : State) : State := s.performed part 3

/-- REMOTE_PAYLOAD_RECEIVE: the payload of a peer's command for the partition that JOB names is performed here, then REMC
counts it as a release at .dev, then the acknowledgement leaves.  Where the transport gave up before the whole command
arrived, each word is old or new, and REMC stays (R375, R377). -/
def execRemotePayloadReceive (job : BitVec 32) (addr : BitVec 56) (data : Payload) (remc : BitVec 56) (s : State) : Out :=
  match s.partOf job with
  | none => .next s
  | some part =>
    if !data.whole then
      match s.readG part 0 addr.toNat data.bytes.length with
      | .ok old =>
        match s.writeG part addr.toNat (tornBytes s.free old data.bytes) with
        | .ok s1 => .next (agentWrote part { s1 with free := s1.free + data.bytes.length })
        | _ => .next s
      | _ => .next s
    else
      match s.writeG part addr.toNat data.bytes with
      | .ok s0 =>
        let s1 := agentWrote part s0
        if remc = 0 then .next (s1.emit (.ack true))
        else
          match s1.readG part 0 remc.toNat 8 with
          | .ok bs =>
            match s1.writeG part remc.toNat (leBytes 8 (leNat bs + 1)) with
            | .ok s2 => .next ((s2.fireWaiters part remc.toNat 2).emit (.ack true))
            | _ => .next s
          | _ => .next s
      | _ => .next s

/-- Whether a partition's send queue `q` is a control queue that leads toward a peer (R376, R378). -/
def controlQueue (s : State) (part q : Nat) (peer : BitVec 32) : Bool :=
  (s.controlRoute part q).any fun r => r.peer == peer

/-- Whether the peer's firmware refuses a registration that a peer sent (R378). -/
def registrationBad (s : State) (part : Nat) (peer : BitVec 32) (m : BitVec 256) : Bool :=
  let target := bitsOf m 55 0
  decide (bitsOf m 63 56 ≠ 0 ∨ bitsOf m 2 0 ≠ 0 ∨ bitsOf m 127 120 ≠ 0 ∨ bitsOf m 66 64 ≠ 0 ∨ bitsOf m 143 128 ≠ 1 ∨
      bitsOf m 255 160 ≠ 0) ||
    !controlQueue s part (bitsOf m 159 144) peer ||
    decide (Config.peerRegistrations ≤ (s.part part).peerRegs.length) ||
    match s.xlat part target { device := true } with
    | .ok _ => isWindow target
    | _ => true

/-- PEER_REGISTRATION: a registration message that the device of the sender's fabric address sent to the partition that
JOB names (R378). -/
def execPeerRegistration (sender : PeerJob) (msg : BitVec 256) (s : State) : Out :=
  match s.partOf sender.job with
  | none => .next (s.emit (.ack false))
  | some part =>
    if registrationBad s part sender.peer msg then .next (s.emit (.ack false))
    else
      let r : PeerReg := ⟨BitVec.ofNat 56 (bitsOf msg 55 0), BitVec.ofNat 56 (bitsOf msg 119 64), BitVec.ofNat 16 (bitsOf msg 159 144)⟩
      .next ((s.updPart part fun P => { P with peerRegs := P.peerRegs ++ [r] }).emit (.ack true))

/-- PEER_WAKE: the value that a peer's wake carries is stored to MIRROR, as a release at .dev (R378). -/
def execPeerWake (job : BitVec 32) (mirror : BitVec 56) (v : BitVec 64) (s : State) : Out :=
  match s.partOf job with
  | none => .next s
  | some part =>
    match s.writeG part mirror.toNat (leBytes 8 v.toNat) with
    | .ok s1 => .next (s1.fireWaiters part mirror.toNat 2)
    | _ => .next s

/-! ### Checkpoints (R385) -/

/-- Whether a checkpoint request covers a partition. -/
def covers (part : Option Nat) (p : Nat) : Bool := part.all fun x => x == p

/-- Whether a physical address is a covered partition's: of all partitions, memory of the dies (R385, R388). -/
def coversMem (part : Option Nat) (a : Nat) : Bool :=
  decide (a < Config.dies * Config.dieStride) && part.all fun p => Config.owned p (a / 2 ^ 30)

/-- The resident crews that a request covers. -/
def coveredCrews (s : State) (part : Option Nat) : List Nat :=
  (List.range s.crews.length).filter fun c =>
    ((s.crews[c]?).map fun cr => covers part cr.part && (cr.status == .resident || cr.status == .resuming)).getD false

/-- Whether nothing runs that a request covers: no crew holds a core, no engine operation or collective is left. -/
def quiet (s : State) (part : Option Nat) : Bool :=
  (coveredCrews s part).isEmpty && !s.copies.any (fun (o : CopyOp) => covers part o.part) &&
    !s.colls.any fun (o : CollOp) => covers part o.part

/-- A collective that stands when a checkpoint begins completes with FAILED here and at every other rank (R385). -/
def endCovered (part : Option Nat) (s : State) (i : Nat) : State :=
  match s.colls[i]? with
  | some op =>
    if covers part op.part ∧ op.outcome.isNone then
      (s.sendAll op (.failed op.rank)).endColl i { op with failed := [op.rank] } 0x14
    else s
  | none => s

/-- CHECKPOINT: the first request pre-empts every crew and ends the collectives; once everything is quiet, memory
and block descriptors go to the safe tier, with what the device keeps of the crews, and a release at .sys is performed
(R385). -/
def execCheckpoint (part : Option Nat) (tier : BitVec 64) (s : State) : Out :=
  if quiet s part then
    let t : Tier :=
      { tier := tier, part := part
        mem := s.mem.filter fun x => coversMem part x.1
        desc := s.desc.filter fun x => coversMem part (64 * x.1)
        crews := s.crews, gangs := s.gangs, grids := s.grids, graphs := s.graphs, rays := s.rays
        bindings := s.parts.map Partition.bindings }
    .next { s.publish with tiers := t :: s.tiers.filter fun x => x.tier != tier }
  else
    let s1 := (coveredCrews s part).foldl (fun s c =>
      match execPreemptRequest c s with
      | .next s' => s'
      | _ => s) (unplace (coveredCrews s part) s)
    .next ((List.range s1.colls.length).reverse.foldl (endCovered part) s1)

/-- A sparse memory whose covered places come from another. -/
def mergeSparse {w : Nat} (p : Nat → Bool) (old new : Sparse w) : Sparse w :=
  (new.filter fun x => p x.1).foldl (fun m x => Sparse.set m x.1 x.2) (old.filter fun x => !p x.1)

/-- What a request covers leaves the device before a restoration: its crews, its grids and its graphs. -/
def clearCovered (part : Option Nat) (s : State) : State :=
  let mine (cr : Crew) : Bool := covers part cr.part
  let off (ci : Nat) : Bool := (s.crews[ci]?).any mine
  { s with
    crews := s.crews.map fun cr => if mine cr then { cr with status := .released, saveArea := none, preempt := none } else cr
    grids := s.grids.map fun g => if covers part g.part then { g with status := .done } else g
    graphs := s.graphs.map fun g => if covers part g.part then { g with done := true } else g
    rays := s.rays.filter fun y => !off y.crew
    trapActions := s.trapActions.filter fun x => !off x.crew }

/-- The crews of a tier come back beside those that the device has now, with their gangs, grids, graphs and rays; each
keeps its place in its own lists, and the bindings of the grids come with them (R246, log 40). -/
def bringBack (t : Tier) (s : State) : State :=
  let c := s.crews.length
  let k := s.gangs.length
  let i := s.grids.length
  let h := s.graphs.length
  let there (ci : Nat) : Bool := (t.crews[ci]?).any fun cr => covers t.part cr.part
  { s with
    crews := s.crews ++ t.crews.mapIdx fun ci (cr : Crew) =>
      { cr with grid := cr.grid + i, gang := cr.gang + k, status := if there ci then cr.status else .released }
    gangs := s.gangs ++ t.gangs.map fun (g : Gang) => { g with grid := g.grid + i, crews := g.crews.map fun x => x + c }
    grids := s.grids ++ t.grids.map fun (g : Grid) =>
      { g with node := g.node.map fun x => (x.1 + h, x.2), status := if covers t.part g.part then g.status else .done }
    graphs := s.graphs ++ t.graphs.map fun (g : Graph) => { g with done := g.done || !covers t.part g.part }
    rays := s.rays ++ (t.rays.filter fun y => there y.crew).map fun (y : Ray) => { y with crew := y.crew + c }
    parts := s.parts.mapIdx fun p (P : Partition) =>
      if covers t.part p then { P with bindings := (t.bindings.getD p []).map fun b => { b with grid := b.grid + i } } else P }

/-- CHECKPOINT_RESTORE: memory and descriptors come back from the safe tier, and the crews saved in it wait for a
place again, also after a start of the device (R385). -/
def execCheckpointRestore (part : Option Nat) (tier : BitVec 64) (s : State) : Out :=
  match s.tiers.find? fun t => t.tier == tier && t.part == part with
  | none => .next s
  | some t =>
    if !quiet s part then .next s
    else
      let s1 : State :=
        { s with
          mem := mergeSparse (coversMem part) s.mem t.mem
          codeMem := mergeSparse (coversMem part) s.codeMem t.mem
          desc := mergeSparse (fun b => coversMem part (64 * b)) s.desc t.desc
          poison := s.poison.filter fun b => !coversMem part (64 * b) }
      .next (bringBack t (clearCovered part (reloadIf (fun p => coversMem part (Config.contextAt p)) s1)))

end Sys2Proof.Machine
end

