-- ==== Sys2Proof/Machine/System.lean ====
section
/-!
DEFINITION. Starts, resets, errors, health, attestation, power (R386-R400), and the removal of a grid (R337).
-/

namespace Sys2Proof.Machine

open Sys2Proof

/-! ### Partition contexts (R388, R389) -/

/-- Whether a partition shares a cluster with another. -/
def sharesCluster (ps : List Partition) (p : Nat) (P : Partition) : Bool :=
  ps.zipIdx.any fun x => x.2 != p && (x.1.at 8 8 &&& P.at 8 8) != 0

/-- Whether an image's signature holds, under the Agoico key whose digest the fuses hold or an owner key (R387). -/
def imageOk (owner : Option (BitVec 512)) (i : Image) : Bool :=
  (i.key == Config.agoicoKey || owner == some i.key) && Config.verifies i.key i.digest i.sig

/-- The partition of a setup: not up yet. -/
def partitionOf (x : PartSetup) : Partition := ⟨x.ctx, false, [], [], 0, x.job, x.image.digest, x.owner⟩

/-- The virtual functions of a start, each with its partition and the queues of its doorbell slots, at most 1,024
(R373, R388). -/
def functionsOf (parts : List PartSetup) : List Vf :=
  (List.range 256).map fun v =>
    match parts.zipIdx.findSome? fun x => (x.1.vfs.find? fun f => f.1 == v).map fun f => (x.2, f.2) with
    | some (p, slots) => ⟨v, some p, [], false, slots.take Config.queues⟩
    | none => ⟨v, none, [], false, []⟩

/-- Whether the context of partition `p` of a start is rejected (R388, R389). -/
def rejects (parts : List PartSetup) (p : Nat) (x : PartSetup) : Bool :=
  contextBad (vfsOf (functionsOf parts) p) (partitionOf x) || sharesCluster (parts.map partitionOf) p (partitionOf x)

/-- The partitions of a start (R387, R392, step 6): each is up unless its context is rejected, its image's signature
fails, or its image does not boot. -/
def partitionsOf (parts : List PartSetup) : List Partition :=
  parts.mapIdx fun p x => { partitionOf x with up := !rejects parts p x && imageOk x.owner x.image && x.boots }

/-! ### Starts (R391-R394) -/

/-- Everything that runs is gone: no crew, no queue, no work.  Memory, the safe tiers and the local counters stay
(log 27). -/
def quench (s : State) : State :=
  { s with
    cur := (0, 0)
    cores := s.cores.map fun (c : Core) => { Core.reset with lclk := c.lclk, withdrawn := c.withdrawn, retired := c.retired }
    clusters := s.clusters.map fun (k : Cluster) =>
      { Cluster.reset with spares := k.spares, withdrawn := k.withdrawn, retired := k.retired }
    crews := [], gangs := [], grids := [], graphs := [], arrivals := [], regWrites := [], copies := [], moves := [], rays := []
    xpairs := [], monitors := [], colls := [], collSeqs := [], collEarly := [], rung := [], tails := [], trapActions := []
    codeMem := s.mem, gens := [], queues := [], robin := List.replicate 8 0, orderNext := 0, parts := [], vfs := Vf.unassigned
    retiring := [] }

/-- The next start must be cold (R394, R400). -/
def mustBeCold (m : Module) : Bool := m.coldNext || decide (3 ≤ m.sf)

/-- A 4-bit count of failed starts, as the health record shows it. -/
def countUp (n : Nat) : Nat := min 15 (n + 1)

/-- A start that failed (R394); where it was to be cold, it was. -/
def failedStart (cold : Bool) (s : State) : State :=
  let m := s.module
  let cf := if cold then countUp m.cf else m.cf
  { s with module := { m with sf := countUp m.sf, cf := cf, coldNext := m.coldNext && !cold, underWay := none
                              state := if 3 ≤ cf then .failed else .starting } }

/-- The training record written by step 3 of a start (R392): its digest, signed. -/
def trains (digest : BitVec 512) (s : State) : State :=
  { s with module := { s.module with record := some ⟨digest, Config.recordSig digest⟩ } }

/-- A start that succeeded: withdrawn pages leave service, every other unit is back (R391, R394, R396, log 26);
each partition that passed step 6 is up, and every page that its tables mark typed is newly typed (R61, R191, log 26).
Where pages leave service at this start the module is degraded and asks for
service (R396, R398). -/
def goodStart (cold : Bool) (setup : StartSetup) (s : State) : State :=
  let m := s.module
  let out := (m.pagesOut ++ m.pagesDue).dedup
  let parts := partitionsOf setup.parts
  let less := !m.pagesDue.isEmpty
  let s1 := quench s
  let s2 : State :=
    { s1 with
      cores := s1.cores.map fun (c : Core) => { c with withdrawn := false, retired := false }
      clusters := s1.clusters.map fun (k : Cluster) =>
        { k with withdrawn := false, retired := false, spares := if cold then 0 else k.spares }
      parts := parts
      vfs := functionsOf setup.parts
      module :=
        { m with
          state := if less then .degraded else .operational
          sf := 0, cf := 0, coldNext := false, underWay := none, tripped := false, svc := less
          firmware := setup.firmware.map Image.digest
          rejected := (setup.parts.zipIdx.filter fun x => rejects setup.parts x.2 x.1).map Prod.snd
          retired := if cold then 0 else m.retired, soft := if cold then 0 else m.soft
          l2MB := Config.l2MiB, memGB := (Config.memGiB * 16384 - out.length) / 16384
          pagesDue := [], pagesOut := out, scribesOut := [], slicesOut := [] } }
  let s3 := parts.zipIdx.foldl (fun s (x : Partition × Nat) => s.hostStore (Config.contextAt x.2) (leBytes 128 x.1.ctx.toNat)) s2
  let s4 := s1.freshTyped s3
  if less then s4.emit .service else s4

/-- The step at which a start fails, if it does: one that the event names, or one whose firmware images do not verify
(R387, R392).  A partition that fails step 6 fails no start. -/
def failsAt (failedStep : Option Nat) (setup : StartSetup) : Option Nat :=
  let named := failedStep.filter fun n => 1 ≤ n && n ≤ 5
  let image (i : Nat) : Bool := (setup.firmware[i]?).any (imageOk none)
  let all := ([named, if image 0 then none else some 1,
    if setup.firmware.length = 8 ∧ (setup.firmware.all (imageOk none)) = true then none else some 5].filterMap id)
  all.foldl (fun r n => some ((r.map fun x => min x n).getD n)) none

/-- Whether a start event says that the start goes on and has not reached step 6 yet: a step after the six. -/
def hangs (failedStep : Option Nat) : Bool := failedStep.any fun n => decide (6 < n)

/-- A start whose steps 3 and 4 run (`cold`) or not: what each step leaves (R392, R393); one that does not come to an end
is under way. -/
def start (cold : Bool) (failedStep : Option Nat) (setup : StartSetup) (s : State) : State :=
  let trained := if cold then trains setup.trained s else s
  match failsAt (if cold then failedStep else failedStep.filter fun n => n ≠ 3 ∧ n ≠ 4) setup with
  | some n => failedStart cold (if n ≤ 3 then s else trained)
  | none =>
    if hangs failedStep then { s with module := { s.module with underWay := some cold } } else goodStart cold setup trained

/-- Whether a start can begin: the module is starting, and Sprinow has 1 to 16 partitions (R388, R391). -/
def mayStart (setup : StartSetup) (s : State) : Bool :=
  decide (s.module.state = .starting ∧ 1 ≤ setup.parts.length ∧ setup.parts.length ≤ 16)

/-- COLD_START: R392. -/
def execColdStart (failedStep : Option Nat) (setup : StartSetup) (s : State) : Out :=
  .next (if mayStart setup s then start true failedStep setup s else s)

/-- Whether the retained training record holds: its digest and its signature (R393); `intact`: what the flash gives back
is what was written. -/
def recordHolds (intact : Bool) (m : Module) : Bool := m.record.any fun r => intact && r.sig == Config.recordSig r.digest

/-- WARM_START: it is cold where it must be, and becomes cold from step 3, and counts as one, where the training record
does not hold (R393, R394). -/
def execWarmStart (failedStep : Option Nat) (intact : Bool) (setup : StartSetup) (s : State) : Out :=
  let early := (failsAt failedStep setup).any fun n => decide (n < 3)
  let cold := mustBeCold s.module || (!recordHolds intact s.module && !early)
  .next (if mayStart setup s then start cold failedStep setup s else s)

/-- START_TIMEOUT: the start under way, cold or warm, has not reached step 6 in time and has failed; a start of which
nothing was said yet is cold where it must be or no training record is retained (R392-R394, log 30). -/
def execStartTimeout (s : State) : Out :=
  let cold := s.module.underWay.getD (mustBeCold s.module || s.module.record.isNone)
  if s.module.state = .starting then .next (failedStart cold s) else .next s

/-- RESET: R391. -/
def execReset (s : State) : Out :=
  if s.module.state = .failed then .next s
  else .next { quench s with module := { s.module with state := .starting, svc := false, underWay := none } }

/-- RECOVER: R391. -/
def execRecover (s : State) : Out :=
  if s.module.state = .failed then .next { s with module := { s.module with state := .starting, coldNext := true, underWay := none } }
  else .next s

/-! ### Errors (R395-R397) -/

/-- A soft error counted by its unit (R395): the counter after it, and whether the fault is lasting. -/
def countSoft (counts : List SoftCount) (unit : HwUnit) (addr counter : Nat) : List SoftCount × Bool :=
  let w := counter / 2 ^ 30
  let old := (counts.find? fun c => c.unit == unit && c.window == w).getD ⟨unit, w, 0, []⟩
  let new : SoftCount := ⟨unit, w, old.count + 1, addr :: old.addrs⟩
  (new :: counts.filter fun c => c.unit != unit, new.count == 9 || new.addrs.count addr == 3)

/-- One corrected error at an address, counted; whether the fault has become lasting. -/
def countError (unit : HwUnit) (counter : Nat) (x : State × Bool) (addr : Nat) : State × Bool :=
  let s := x.1
  let r := countSoft s.module.counts unit addr counter
  ({ s with module := { s.module with soft := s.module.soft + 1, counts := r.1 } }, x.2 || r.2)

/-- SOFT_ERROR_CORRECTED: the errors that a unit corrects in one cycle of its counter, counted in ascending address; the
retirement takes effect at the cycle's end (R395, R396). -/
def execSoftErrorCorrected (unit : HwUnit) (addrs : List Nat) (counter : Nat) (s : State) : Out :=
  let r := (sortBy (fun a b => decide (a < b)) addrs).foldl (countError unit counter) (s, false)
  .next (if r.2 then retireAtEnd unit r.1 else r.1)

/-- Whether a unit holds state of a crew: a part of its core, or of its cluster. -/
def holdsState (cr : Crew) : HwUnit → Bool
  | .core c _ => cr.onCore && cr.core == c
  | .matrixCell k => cr.onCore && clusterOf cr.core == k
  | .cluster k _ => cr.onCore && clusterOf cr.core == k
  | _ => false

/-- A block number in a rising list. -/
def insertBlock (b : Nat) : List Nat → List Nat
  | [] => [b]
  | x :: xs => if b < x then b :: x :: xs else if b = x then x :: xs else x :: insertBlock b xs

/-- UNCORRECTABLE_ERROR: an error of a unit is lasting at once; in the state of a crew that the unit holds it ends the
crew's grid, and in memory, or a line of it in L2, it poisons the block (R397). -/
def execUncorrectableError (place : ErrPlace) (s : State) : Out :=
  match place.target with
  | .crewState c =>
    match s.crews[c]? with
    | none => .next s
    | some cr => if holdsState cr place.unit then .next (retireAtEnd place.unit (s.removeGrid cr.grid)) else .next s
  | .memory pa => .next (retireAtEnd place.unit { s with poison := insertBlock (pa / 64) s.poison })
  | .other => .next (retireAtEnd place.unit s)

/-! ### Health and attestation (R398, R399) -/

def ModState.code : ModState → Nat
  | .starting => 0
  | .operational => 1
  | .degraded => 2
  | .failed => 3

/-- Bytes 0-3 of the health record (R398). -/
def healthWord (m : Module) : Nat := m.state.code + (m.sf + m.cf * 16) * 2 ^ 8 + m.svc.toNat * 2 ^ 16

/-- Bits for the units of a list that are in service. -/
def serviceBits (l : List Bool) : Nat := (l.zipIdx.filter fun x => !x.1).foldl (fun n x => n + 2 ^ x.2) 0

/-- Whether a core is out of service: it, or its cluster, was withdrawn. -/
def coreOut (s : State) (c : Nat) : Bool := (s.core c).withdrawn || (s.cluster (clusterOf c)).withdrawn

/-- The health record of 128 bytes (R398), as a read through the management interface finds it. -/
def healthRecord (s : State) : List Byte :=
  let m := s.module
  leBytes 4 (healthWord m) ++ leBytes 32 (serviceBits ((List.range s.cores.length).map (coreOut s))) ++
    leBytes 8 (serviceBits (s.clusters.map fun (k : Cluster) => k.withdrawn)) ++
    (s.clusters.flatMap fun (k : Cluster) => leBytes 1 k.spares) ++ leBytes 4 m.retired ++ leBytes 8 m.soft ++
    leBytes 4 m.l2MB ++ leBytes 4 m.memGB

/-- The digests that a report holds (R399): those of the boot, Sprinow and six RV32E images, then the requesting
partition's or, for the physical function, every partition's; none for a function that no partition owns. -/
def reportImages (s : State) (vf : Option Nat) : Option (List (BitVec 512)) :=
  match vf with
  | none => some (s.module.firmware ++ s.parts.map Partition.image)
  | some v => ((vfOf s v).bind fun x => x.2.part).map fun p => s.module.firmware ++ [(s.part p).image]

/-- ATTESTATION_REQUEST: R399; the signature and the identity are free values (log 15). -/
def execAttestationRequest (vf : Option Nat) (nonce : BitVec 512) (s : State) : Out :=
  match reportImages s vf with
  | none => .next s
  | some imgs =>
    .next (s.emit (.report nonce imgs Config.fuseIdentity (BitVec.ofNat 32 (healthWord s.module))
      (Config.signature nonce.toNat (healthWord s.module :: imgs.map BitVec.toNat))))

/-! ### Power and heat (R400) -/

/-- POWER_THERMAL_THROTTLE: one step down, to the last that still clocks (log 31). -/
def execPowerThermalThrottle (s : State) : Out :=
  .next { s with module := { s.module with clock := max 1 (s.module.clock - 1) } }

/-- CLOCK_RESTORE: one step up. -/
def execClockRestore (s : State) : Out :=
  .next { s with module := { s.module with clock := min Config.clockSteps (s.module.clock + 1) } }

/-- THERMAL_TRIP: the module stops at once, nothing is saved, and the next start is cold (R400). -/
def execThermalTrip (s : State) : Out :=
  .next { quench s with module := { s.module with
    state := if s.module.state = .failed then .failed else .starting, coldNext := true, tripped := true, underWay := none } }

/-- GRID_REMOVAL: R337. -/
def execGridRemoval (grid : Nat) (s : State) : Out := .next (s.removeGrid grid)

end Sys2Proof.Machine
end

