-- ==== Sys2Proof/Machine/Dispatch.lean ====
section
/-!
DEFINITION. The dispatch: one arm per row of the opcode table, each a call of its meaning.
-/

namespace Sys2Proof.Machine

open Sys2Proof

/-- What an instruction, or another step of the device, does. -/
def exec (i : Instr) (s : State) : Host.Outcome State Fault Refusal :=
  match i with
  | .iadd b n d a c => Sys2Proof.Machine.execIadd b n d a c s
  | .isub b n d a c => Sys2Proof.Machine.execIsub b n d a c s
  | .imul b n d a c => Sys2Proof.Machine.execImul b n d a c s
  | .imulh b n d a c => Sys2Proof.Machine.execImulh b n d a c s
  | .imulhU b n d a c => Sys2Proof.Machine.execImulhU b n d a c s
  | .ineg b n d a => Sys2Proof.Machine.execIneg b n d a s
  | .iabs b n d a => Sys2Proof.Machine.execIabs b n d a s
  | .imin b n d a c => Sys2Proof.Machine.execImin b n d a c s
  | .iminU b n d a c => Sys2Proof.Machine.execIminU b n d a c s
  | .imax b n d a c => Sys2Proof.Machine.execImax b n d a c s
  | .imaxU b n d a c => Sys2Proof.Machine.execImaxU b n d a c s
  | .land b n d a c => Sys2Proof.Machine.execLand b n d a c s
  | .lor b n d a c => Sys2Proof.Machine.execLor b n d a c s
  | .lxor b n d a c => Sys2Proof.Machine.execLxor b n d a c s
  | .lnot b n d a => Sys2Proof.Machine.execLnot b n d a s
  | .shl b n d a c => Sys2Proof.Machine.execShl b n d a c s
  | .shr b n d a c => Sys2Proof.Machine.execShr b n d a c s
  | .sar b n d a c => Sys2Proof.Machine.execSar b n d a c s
  | .rot b n d a c => Sys2Proof.Machine.execRot b n d a c s
  | .popc b n d a => Sys2Proof.Machine.execPopc b n d a s
  | .clz b n d a => Sys2Proof.Machine.execClz b n d a s
  | .ctz b n d a => Sys2Proof.Machine.execCtz b n d a s
  | .brev b n d a => Sys2Proof.Machine.execBrev b n d a s
  | .mov b n d a => Sys2Proof.Machine.execMov b n d a s
  | .iaddSat b n d a c => Sys2Proof.Machine.execIaddSat b n d a c s
  | .isubSat b n d a c => Sys2Proof.Machine.execIsubSat b n d a c s
  | .iaddUsat b n d a c => Sys2Proof.Machine.execIaddUsat b n d a c s
  | .isubUsat b n d a c => Sys2Proof.Machine.execIsubUsat b n d a c s
  | .iadd64 b n d a c => Sys2Proof.Machine.execIadd64 b n d a c s
  | .isub64 b n d a c => Sys2Proof.Machine.execIsub64 b n d a c s
  | .imul64 b n d a c => Sys2Proof.Machine.execImul64 b n d a c s
  | .imulh64 b n d a c => Sys2Proof.Machine.execImulh64 b n d a c s
  | .imulhU64 b n d a c => Sys2Proof.Machine.execImulhU64 b n d a c s
  | .ineg64 b n d a => Sys2Proof.Machine.execIneg64 b n d a s
  | .iabs64 b n d a => Sys2Proof.Machine.execIabs64 b n d a s
  | .imin64 b n d a c => Sys2Proof.Machine.execImin64 b n d a c s
  | .iminU64 b n d a c => Sys2Proof.Machine.execIminU64 b n d a c s
  | .imax64 b n d a c => Sys2Proof.Machine.execImax64 b n d a c s
  | .imaxU64 b n d a c => Sys2Proof.Machine.execImaxU64 b n d a c s
  | .land64 b n d a c => Sys2Proof.Machine.execLand64 b n d a c s
  | .lor64 b n d a c => Sys2Proof.Machine.execLor64 b n d a c s
  | .lxor64 b n d a c => Sys2Proof.Machine.execLxor64 b n d a c s
  | .lnot64 b n d a => Sys2Proof.Machine.execLnot64 b n d a s
  | .shl64 b n d a c => Sys2Proof.Machine.execShl64 b n d a c s
  | .shr64 b n d a c => Sys2Proof.Machine.execShr64 b n d a c s
  | .sar64 b n d a c => Sys2Proof.Machine.execSar64 b n d a c s
  | .rot64 b n d a c => Sys2Proof.Machine.execRot64 b n d a c s
  | .popc64 b n d a => Sys2Proof.Machine.execPopc64 b n d a s
  | .clz64 b n d a => Sys2Proof.Machine.execClz64 b n d a s
  | .ctz64 b n d a => Sys2Proof.Machine.execCtz64 b n d a s
  | .brev64 b n d a => Sys2Proof.Machine.execBrev64 b n d a s
  | .mov64 b n d a => Sys2Proof.Machine.execMov64 b n d a s
  | .iaddSat64 b n d a c => Sys2Proof.Machine.execIaddSat64 b n d a c s
  | .isubSat64 b n d a c => Sys2Proof.Machine.execIsubSat64 b n d a c s
  | .iaddUsat64 b n d a c => Sys2Proof.Machine.execIaddUsat64 b n d a c s
  | .isubUsat64 b n d a c => Sys2Proof.Machine.execIsubUsat64 b n d a c s
  | .imad b n d a c e => Sys2Proof.Machine.execImad b n d a c e s
  | .imad64 b n d a c e => Sys2Proof.Machine.execImad64 b n d a c e s
  | .movi b n d ix => Sys2Proof.Machine.execMovi b n d ix s
  | .lea b n d a ix => Sys2Proof.Machine.execLea b n d a ix s
  | .icmp b d a c w k => Sys2Proof.Machine.execIcmp b d a c w k s
  | .bfi b n d a c e => Sys2Proof.Machine.execBfi b n d a c e s
  | .bfxU b n d a c => Sys2Proof.Machine.execBfxU b n d a c s
  | .bfxS b n d a c => Sys2Proof.Machine.execBfxS b n d a c s
  | .bffs b n d a => Sys2Proof.Machine.execBffs b n d a s
  | .bffsIdx b n d a => Sys2Proof.Machine.execBffsIdx b n d a s
  | .bfpl b n d a c => Sys2Proof.Machine.execBfpl b n d a c s
  | .qxchX b n d a => Sys2Proof.Machine.execQxchX b n d a s
  | .qxchY b n d a => Sys2Proof.Machine.execQxchY b n d a s
  | .qxchXy b n d a => Sys2Proof.Machine.execQxchXy b n d a s
  | .qxchBc b n d a c => Sys2Proof.Machine.execQxchBc b n d a c s
  | .gshuf b n d a c => Sys2Proof.Machine.execGshuf b n d a c s
  | .gshufXor b n d a c => Sys2Proof.Machine.execGshufXor b n d a c s
  | .qxchX64 b n d a => Sys2Proof.Machine.execQxchX64 b n d a s
  | .qxchY64 b n d a => Sys2Proof.Machine.execQxchY64 b n d a s
  | .qxchXy64 b n d a => Sys2Proof.Machine.execQxchXy64 b n d a s
  | .qxchBc64 b n d a c => Sys2Proof.Machine.execQxchBc64 b n d a c s
  | .gshuf64 b n d a c => Sys2Proof.Machine.execGshuf64 b n d a c s
  | .gshufXor64 b n d a c => Sys2Proof.Machine.execGshufXor64 b n d a c s
  | .umov b d a => Sys2Proof.Machine.execUmov b d a s
  | .uadd b d a c => Sys2Proof.Machine.execUadd b d a c s
  | .usub b d a c => Sys2Proof.Machine.execUsub b d a c s
  | .umul b d a c => Sys2Proof.Machine.execUmul b d a c s
  | .uand b d a c => Sys2Proof.Machine.execUand b d a c s
  | .uor b d a c => Sys2Proof.Machine.execUor b d a c s
  | .uxor b d a c => Sys2Proof.Machine.execUxor b d a c s
  | .ushl b d a c => Sys2Proof.Machine.execUshl b d a c s
  | .ushr b d a c => Sys2Proof.Machine.execUshr b d a c s
  | .usar b d a c => Sys2Proof.Machine.execUsar b d a c s
  | .umin b d a c => Sys2Proof.Machine.execUmin b d a c s
  | .umax b d a c => Sys2Proof.Machine.execUmax b d a c s
  | .umovv b d a => Sys2Proof.Machine.execUmovv b d a s
  | .umovv64 b d a => Sys2Proof.Machine.execUmovv64 b d a s
  | .ffmaF32 b n d a c e => Sys2Proof.Machine.execFfmaF32 b n d a c e s
  | .ffmaF64 b n d a c e => Sys2Proof.Machine.execFfmaF64 b n d a c e s
  | .ffmaF16 b n d a c e => Sys2Proof.Machine.execFfmaF16 b n d a c e s
  | .ffmaBf16 b n d a c e => Sys2Proof.Machine.execFfmaBf16 b n d a c e s
  | .ffmaF16x2 b n d a c e => Sys2Proof.Machine.execFfmaF16x2 b n d a c e s
  | .faddF32 b n d a c => Sys2Proof.Machine.execFaddF32 b n d a c s
  | .fsubF32 b n d a c => Sys2Proof.Machine.execFsubF32 b n d a c s
  | .fmulF32 b n d a c => Sys2Proof.Machine.execFmulF32 b n d a c s
  | .fminF32 b n d a c => Sys2Proof.Machine.execFminF32 b n d a c s
  | .fmaxF32 b n d a c => Sys2Proof.Machine.execFmaxF32 b n d a c s
  | .fabsF32 b n d a => Sys2Proof.Machine.execFabsF32 b n d a s
  | .fnegF32 b n d a => Sys2Proof.Machine.execFnegF32 b n d a s
  | .fdivF32 b n d a c => Sys2Proof.Machine.execFdivF32 b n d a c s
  | .frcpF32 b n d a => Sys2Proof.Machine.execFrcpF32 b n d a s
  | .frsqF32 b n d a => Sys2Proof.Machine.execFrsqF32 b n d a s
  | .fsqrtF32 b n d a => Sys2Proof.Machine.execFsqrtF32 b n d a s
  | .fexp2F32 b n d a => Sys2Proof.Machine.execFexp2F32 b n d a s
  | .flog2F32 b n d a => Sys2Proof.Machine.execFlog2F32 b n d a s
  | .fsinF32 b n d a => Sys2Proof.Machine.execFsinF32 b n d a s
  | .fcosF32 b n d a => Sys2Proof.Machine.execFcosF32 b n d a s
  | .ffloorF32 b n d a => Sys2Proof.Machine.execFfloorF32 b n d a s
  | .fceilF32 b n d a => Sys2Proof.Machine.execFceilF32 b n d a s
  | .frndF32 b n d a => Sys2Proof.Machine.execFrndF32 b n d a s
  | .ffracF32 b n d a => Sys2Proof.Machine.execFfracF32 b n d a s
  | .faddF64 b n d a c => Sys2Proof.Machine.execFaddF64 b n d a c s
  | .fsubF64 b n d a c => Sys2Proof.Machine.execFsubF64 b n d a c s
  | .fmulF64 b n d a c => Sys2Proof.Machine.execFmulF64 b n d a c s
  | .fminF64 b n d a c => Sys2Proof.Machine.execFminF64 b n d a c s
  | .fmaxF64 b n d a c => Sys2Proof.Machine.execFmaxF64 b n d a c s
  | .fabsF64 b n d a => Sys2Proof.Machine.execFabsF64 b n d a s
  | .fnegF64 b n d a => Sys2Proof.Machine.execFnegF64 b n d a s
  | .fdivF64 b n d a c => Sys2Proof.Machine.execFdivF64 b n d a c s
  | .frcpF64 b n d a => Sys2Proof.Machine.execFrcpF64 b n d a s
  | .frsqF64 b n d a => Sys2Proof.Machine.execFrsqF64 b n d a s
  | .fsqrtF64 b n d a => Sys2Proof.Machine.execFsqrtF64 b n d a s
  | .fexp2F64 b n d a => Sys2Proof.Machine.execFexp2F64 b n d a s
  | .flog2F64 b n d a => Sys2Proof.Machine.execFlog2F64 b n d a s
  | .fsinF64 b n d a => Sys2Proof.Machine.execFsinF64 b n d a s
  | .fcosF64 b n d a => Sys2Proof.Machine.execFcosF64 b n d a s
  | .ffloorF64 b n d a => Sys2Proof.Machine.execFfloorF64 b n d a s
  | .fceilF64 b n d a => Sys2Proof.Machine.execFceilF64 b n d a s
  | .frndF64 b n d a => Sys2Proof.Machine.execFrndF64 b n d a s
  | .ffracF64 b n d a => Sys2Proof.Machine.execFfracF64 b n d a s
  | .faddF16 b n d a c => Sys2Proof.Machine.execFaddF16 b n d a c s
  | .fsubF16 b n d a c => Sys2Proof.Machine.execFsubF16 b n d a c s
  | .fmulF16 b n d a c => Sys2Proof.Machine.execFmulF16 b n d a c s
  | .fminF16 b n d a c => Sys2Proof.Machine.execFminF16 b n d a c s
  | .fmaxF16 b n d a c => Sys2Proof.Machine.execFmaxF16 b n d a c s
  | .fabsF16 b n d a => Sys2Proof.Machine.execFabsF16 b n d a s
  | .fnegF16 b n d a => Sys2Proof.Machine.execFnegF16 b n d a s
  | .fdivF16 b n d a c => Sys2Proof.Machine.execFdivF16 b n d a c s
  | .frcpF16 b n d a => Sys2Proof.Machine.execFrcpF16 b n d a s
  | .frsqF16 b n d a => Sys2Proof.Machine.execFrsqF16 b n d a s
  | .fsqrtF16 b n d a => Sys2Proof.Machine.execFsqrtF16 b n d a s
  | .fexp2F16 b n d a => Sys2Proof.Machine.execFexp2F16 b n d a s
  | .flog2F16 b n d a => Sys2Proof.Machine.execFlog2F16 b n d a s
  | .fsinF16 b n d a => Sys2Proof.Machine.execFsinF16 b n d a s
  | .fcosF16 b n d a => Sys2Proof.Machine.execFcosF16 b n d a s
  | .ffloorF16 b n d a => Sys2Proof.Machine.execFfloorF16 b n d a s
  | .fceilF16 b n d a => Sys2Proof.Machine.execFceilF16 b n d a s
  | .frndF16 b n d a => Sys2Proof.Machine.execFrndF16 b n d a s
  | .ffracF16 b n d a => Sys2Proof.Machine.execFfracF16 b n d a s
  | .faddBf16 b n d a c => Sys2Proof.Machine.execFaddBf16 b n d a c s
  | .fsubBf16 b n d a c => Sys2Proof.Machine.execFsubBf16 b n d a c s
  | .fmulBf16 b n d a c => Sys2Proof.Machine.execFmulBf16 b n d a c s
  | .fminBf16 b n d a c => Sys2Proof.Machine.execFminBf16 b n d a c s
  | .fmaxBf16 b n d a c => Sys2Proof.Machine.execFmaxBf16 b n d a c s
  | .fabsBf16 b n d a => Sys2Proof.Machine.execFabsBf16 b n d a s
  | .fnegBf16 b n d a => Sys2Proof.Machine.execFnegBf16 b n d a s
  | .fdivBf16 b n d a c => Sys2Proof.Machine.execFdivBf16 b n d a c s
  | .frcpBf16 b n d a => Sys2Proof.Machine.execFrcpBf16 b n d a s
  | .frsqBf16 b n d a => Sys2Proof.Machine.execFrsqBf16 b n d a s
  | .fsqrtBf16 b n d a => Sys2Proof.Machine.execFsqrtBf16 b n d a s
  | .fexp2Bf16 b n d a => Sys2Proof.Machine.execFexp2Bf16 b n d a s
  | .flog2Bf16 b n d a => Sys2Proof.Machine.execFlog2Bf16 b n d a s
  | .fsinBf16 b n d a => Sys2Proof.Machine.execFsinBf16 b n d a s
  | .fcosBf16 b n d a => Sys2Proof.Machine.execFcosBf16 b n d a s
  | .ffloorBf16 b n d a => Sys2Proof.Machine.execFfloorBf16 b n d a s
  | .fceilBf16 b n d a => Sys2Proof.Machine.execFceilBf16 b n d a s
  | .frndBf16 b n d a => Sys2Proof.Machine.execFrndBf16 b n d a s
  | .ffracBf16 b n d a => Sys2Proof.Machine.execFfracBf16 b n d a s
  | .faddF16x2 b n d a c => Sys2Proof.Machine.execFaddF16x2 b n d a c s
  | .fsubF16x2 b n d a c => Sys2Proof.Machine.execFsubF16x2 b n d a c s
  | .fmulF16x2 b n d a c => Sys2Proof.Machine.execFmulF16x2 b n d a c s
  | .fminF16x2 b n d a c => Sys2Proof.Machine.execFminF16x2 b n d a c s
  | .fmaxF16x2 b n d a c => Sys2Proof.Machine.execFmaxF16x2 b n d a c s
  | .fabsF16x2 b n d a => Sys2Proof.Machine.execFabsF16x2 b n d a s
  | .fnegF16x2 b n d a => Sys2Proof.Machine.execFnegF16x2 b n d a s
  | .fdivF16x2 b n d a c => Sys2Proof.Machine.execFdivF16x2 b n d a c s
  | .frcpF16x2 b n d a => Sys2Proof.Machine.execFrcpF16x2 b n d a s
  | .frsqF16x2 b n d a => Sys2Proof.Machine.execFrsqF16x2 b n d a s
  | .fsqrtF16x2 b n d a => Sys2Proof.Machine.execFsqrtF16x2 b n d a s
  | .fexp2F16x2 b n d a => Sys2Proof.Machine.execFexp2F16x2 b n d a s
  | .flog2F16x2 b n d a => Sys2Proof.Machine.execFlog2F16x2 b n d a s
  | .fsinF16x2 b n d a => Sys2Proof.Machine.execFsinF16x2 b n d a s
  | .fcosF16x2 b n d a => Sys2Proof.Machine.execFcosF16x2 b n d a s
  | .ffloorF16x2 b n d a => Sys2Proof.Machine.execFfloorF16x2 b n d a s
  | .fceilF16x2 b n d a => Sys2Proof.Machine.execFceilF16x2 b n d a s
  | .frndF16x2 b n d a => Sys2Proof.Machine.execFrndF16x2 b n d a s
  | .ffracF16x2 b n d a => Sys2Proof.Machine.execFfracF16x2 b n d a s
  | .fcmp b d a c t k => Sys2Proof.Machine.execFcmp b d a c t k s
  | .cvt b n d a x y => Sys2Proof.Machine.execCvt b n d a x y s
  | .dseedF32 b n d a k => Sys2Proof.Machine.execDseedF32 b n d a k s
  | .dseedF64 b n d a k => Sys2Proof.Machine.execDseedF64 b n d a k s
  | .dzero b n d a => Sys2Proof.Machine.execDzero b n d a s
  | .dzero64 b n d a => Sys2Proof.Machine.execDzero64 b n d a s
  | .dgetF32 b n d a k => Sys2Proof.Machine.execDgetF32 b n d a k s
  | .dgetF64 b n d a k => Sys2Proof.Machine.execDgetF64 b n d a k s
  | .dputF32 b d a k => Sys2Proof.Machine.execDputF32 b d a k s
  | .dputF64 b d a k => Sys2Proof.Machine.execDputF64 b d a k s
  | .deval b n d a u t => Sys2Proof.Machine.execDeval b n d a u t s
  | .pcmp b d a c g x t => Sys2Proof.Machine.execPcmp b d a c g x t s
  | .pset b d a c => Sys2Proof.Machine.execPset b d a c s
  | .pand b d a c => Sys2Proof.Machine.execPand b d a c s
  | .por b d a c => Sys2Proof.Machine.execPor b d a c s
  | .pnot b d a => Sys2Proof.Machine.execPnot b d a s
  | .pget b n d a => Sys2Proof.Machine.execPget b n d a s
  | .pgetW b n d a => Sys2Proof.Machine.execPgetW b n d a s
  | .pput b d a c => Sys2Proof.Machine.execPput b d a c s
  | .pcoll b d a => Sys2Proof.Machine.execPcoll b d a s
  | .pblend b n d t q c e => Sys2Proof.Machine.execPblend b n d t q c e s
  | .psel b n d a c w q => Sys2Proof.Machine.execPsel b n d a c w q s
  | .rkey b a c => Sys2Proof.Machine.execRkey b a c s
  | .rnextU32 b n d => Sys2Proof.Machine.execRnextU32 b n d s
  | .rnextU64 b n d => Sys2Proof.Machine.execRnextU64 b n d s
  | .rnextF32 b n d => Sys2Proof.Machine.execRnextF32 b n d s
  | .ld b d a c w => Sys2Proof.Machine.execLd b d a c w s
  | .st b d a c w => Sys2Proof.Machine.execSt b d a c w s
  | .ldt b d a c u t => Sys2Proof.Machine.execLdt b d a c u t s
  | .stt b d a c u t => Sys2Proof.Machine.execStt b d a c u t s
  | .ldd b d a c f => Sys2Proof.Machine.execLdd b d a c f s
  | .std b d a c f => Sys2Proof.Machine.execStd b d a c f s
  | .lds b d a c w => Sys2Proof.Machine.execLds b d a c w s
  | .sts b d a c w => Sys2Proof.Machine.execSts b d a c w s
  | .bhdrRd b d a => Sys2Proof.Machine.execBhdrRd b d a s
  | .bhdrWr b d a => Sys2Proof.Machine.execBhdrWr b d a s
  | .pref b a c => Sys2Proof.Machine.execPref b a c s
  | .tset b a c => Sys2Proof.Machine.execTset b a c s
  | .tsetClr b a => Sys2Proof.Machine.execTsetClr b a s
  | .tstat b n d a => Sys2Proof.Machine.execTstat b n d a s
  | .atom b d a c o p w => Sys2Proof.Machine.execAtom b d a c o p w s
  | .atomFadd b d a c o w => Sys2Proof.Machine.execAtomFadd b d a c o w s
  | .atoms b d a c o p w => Sys2Proof.Machine.execAtoms b d a c o p w s
  | .atomsFadd b d a c o w => Sys2Proof.Machine.execAtomsFadd b d a c o w s
  | .acq b d a => Sys2Proof.Machine.execAcq b d a s
  | .rel b a c => Sys2Proof.Machine.execRel b a c s
  | .fence b => Sys2Proof.Machine.execFence b s
  | .bind b d a c => Sys2Proof.Machine.execBind b d a c s
  | .bindClr b d a => Sys2Proof.Machine.execBindClr b d a s
  | .mwait d a c q y w => Sys2Proof.Machine.execMwait d a c q y w s
  | .barArv b n d a c => Sys2Proof.Machine.execBarArv b n d a c s
  | .barWt a c => Sys2Proof.Machine.execBarWt a c s
  | .barSyn a c => Sys2Proof.Machine.execBarSyn a c s
  | .gbar c => Sys2Proof.Machine.execGbar c s
  | .mbput d a => Sys2Proof.Machine.execMbput d a s
  | .mbtake d a => Sys2Proof.Machine.execMbtake d a s
  | .bra o => Sys2Proof.Machine.execBra o s
  | .call o => Sys2Proof.Machine.execCall o s
  | .brq g q o => Sys2Proof.Machine.execBrq g q o s
  | .nop b => Sys2Proof.Machine.execNop b s
  | .brx a => Sys2Proof.Machine.execBrx a s
  | .callx a => Sys2Proof.Machine.execCallx a s
  | .ret => Sys2Proof.Machine.execRet s
  | .callj l a c => Sys2Proof.Machine.execCallj l a c s
  | .regroup l a => Sys2Proof.Machine.execRegroup l a s
  | .join b k => Sys2Proof.Machine.execJoin b k s
  | .leave b k => Sys2Proof.Machine.execLeave b k s
  | .waitm k => Sys2Proof.Machine.execWaitm k s
  | .region b v q => Sys2Proof.Machine.execRegion b v q s
  | .exit => Sys2Proof.Machine.execExit s
  | .xq a => Sys2Proof.Machine.execXq a s
  | .xqn a => Sys2Proof.Machine.execXqn a s
  | .elect b d => Sys2Proof.Machine.execElect b d s
  | .mmissue a => Sys2Proof.Machine.execMmissue a s
  | .accsv d a c => Sys2Proof.Machine.execAccsv d a c s
  | .accld d a c => Sys2Proof.Machine.execAccld d a c s
  | .electU b d u => Sys2Proof.Machine.execElectU b d u s
  | .trace d a c => Sys2Proof.Machine.execTrace d a c s
  | .tracep d a c => Sys2Proof.Machine.execTracep d a c s
  | .xpair a => Sys2Proof.Machine.execXpair a s
  | .tres d a c => Sys2Proof.Machine.execTres d a c s
  | .tresAcc d a c => Sys2Proof.Machine.execTresAcc d a c s
  | .tresTerm d a c => Sys2Proof.Machine.execTresTerm d a c s
  | .reproj a => Sys2Proof.Machine.execReproj a s
  | .fetchw d a c => Sys2Proof.Machine.execFetchw d a c s
  | .launch d a c => Sys2Proof.Machine.execLaunch d a c s
  | .trap ix => Sys2Proof.Machine.execTrap ix s
  | .eret => Sys2Proof.Machine.execEret s
  | .gets b d a => Sys2Proof.Machine.execGets b d a s
  | .sets b d a => Sys2Proof.Machine.execSets b d a s
  | .himm ix => Sys2Proof.Machine.execHimm ix s
  | .hsel h u => Sys2Proof.Machine.execHsel h u s
  | .hgrd g q => Sys2Proof.Machine.execHgrd g q s
  | .hrnd m => Sys2Proof.Machine.execHrnd m s
  | .hscp x => Sys2Proof.Machine.execHscp x s
  | .hcch p => Sys2Proof.Machine.execHcch p s
  | .hsch x => Sys2Proof.Machine.execHsch x s
  | .pickGroup core slot => Sys2Proof.Machine.execPickGroup core slot s
  | .loadDataArrival ix => Sys2Proof.Machine.execLoadDataArrival ix s
  | .faultResolved core ix => Sys2Proof.Machine.execFaultResolved core ix s
  | .faultUnresolvable unit core ix => Sys2Proof.Machine.execFaultUnresolvable unit core ix s
  | .windowAccessApply crew lane => Sys2Proof.Machine.execWindowAccessApply crew lane s
  | .monitorWake crew lane => Sys2Proof.Machine.execMonitorWake crew lane s
  | .mailboxWaitMet crew lane => Sys2Proof.Machine.execMailboxWaitMet crew lane s
  | .gangBarrierComplete grid gang bar => Sys2Proof.Machine.execGangBarrierComplete grid gang bar s
  | .joinerBatchClose crew => Sys2Proof.Machine.execJoinerBatchClose crew s
  | .joinerMovesComplete crew => Sys2Proof.Machine.execJoinerMovesComplete crew s
  | .preemptRequest crew => Sys2Proof.Machine.execPreemptRequest crew s
  | .preemptTimeout crew => Sys2Proof.Machine.execPreemptTimeout crew s
  | .crewResume crew => Sys2Proof.Machine.execCrewResume crew s
  | .saveAreaSupply part addr => Sys2Proof.Machine.execSaveAreaSupply part addr s
  | .trapHeld crew lane => Sys2Proof.Machine.execTrapHeld crew lane s
  | .trapResume crew lane => Sys2Proof.Machine.execTrapResume crew lane s
  | .trapEnter crew lane h => Sys2Proof.Machine.execTrapEnter crew lane h s
  | .trapEnd crew lane => Sys2Proof.Machine.execTrapEnd crew lane s
  | .trapAbort crew lane => Sys2Proof.Machine.execTrapAbort crew lane s
  | .copyTake cluster => Sys2Proof.Machine.execCopyTake cluster s
  | .copyComplete ix nack => Sys2Proof.Machine.execCopyComplete ix nack s
  | .matrixMma cluster => Sys2Proof.Machine.execMatrixMma cluster s
  | .matrixWload cluster => Sys2Proof.Machine.execMatrixWload cluster s
  | .matrixFin cluster => Sys2Proof.Machine.execMatrixFin cluster s
  | .matrixClr cluster => Sys2Proof.Machine.execMatrixClr cluster s
  | .accEntryExecute cluster => Sys2Proof.Machine.execAccEntryExecute cluster s
  | .matrixPassGrant cluster => Sys2Proof.Machine.execMatrixPassGrant cluster s
  | .multiplierMismatch cluster => Sys2Proof.Machine.execMultiplierMismatch cluster s
  | .rayEndOrSuspend ix => Sys2Proof.Machine.execRayEndOrSuspend ix s
  | .rayFaultStop ix => Sys2Proof.Machine.execRayFaultStop ix s
  | .rayReenter ix => Sys2Proof.Machine.execRayReenter ix s
  | .xpairComplete ix => Sys2Proof.Machine.execXpairComplete ix s
  | .reprojOperation cluster => Sys2Proof.Machine.execReprojOperation cluster s
  | .fetchwWake crew lane => Sys2Proof.Machine.execFetchwWake crew lane s
  | .doorbell vf j v => Sys2Proof.Machine.execDoorbell vf j v s
  | .regw vf v => Sys2Proof.Machine.execRegw vf v s
  | .regstRead vf => Sys2Proof.Machine.execRegstRead vf s
  | .bar0ReservedWrite vf off v => Sys2Proof.Machine.execBar0ReservedWrite vf off v s
  | .queueDescriptorWrite q d => Sys2Proof.Machine.execQueueDescriptorWrite q d s
  | .packetTake q => Sys2Proof.Machine.execPacketTake q s
  | .distributeGang die => Sys2Proof.Machine.execDistributeGang die s
  | .placeGang die => Sys2Proof.Machine.execPlaceGang die s
  | .gridComplete grid => Sys2Proof.Machine.execGridComplete grid s
  | .graphStart w => Sys2Proof.Machine.execGraphStart w s
  | .graphNodeStart w node => Sys2Proof.Machine.execGraphNodeStart w node s
  | .graphMatrixNode w node => Sys2Proof.Machine.execGraphMatrixNode w node s
  | .graphNodeComplete w node => Sys2Proof.Machine.execGraphNodeComplete w node s
  | .remotePayloadReceive job addr data remc => Sys2Proof.Machine.execRemotePayloadReceive job addr data remc s
  | .peerRegistration sender msg => Sys2Proof.Machine.execPeerRegistration sender msg s
  | .peerWake job mirror v => Sys2Proof.Machine.execPeerWake job mirror v s
  | .transportFailure ix => Sys2Proof.Machine.execTransportFailure ix s
  | .collectiveDoorbell part ring => Sys2Proof.Machine.execCollectiveDoorbell part ring s
  | .collectiveSum ix => Sys2Proof.Machine.execCollectiveSum ix s
  | .collectiveMin ix => Sys2Proof.Machine.execCollectiveMin ix s
  | .collectiveMax ix => Sys2Proof.Machine.execCollectiveMax ix s
  | .collectiveMessage job cmd rank msg => Sys2Proof.Machine.execCollectiveMessage job cmd rank msg s
  | .collectiveCommit ix => Sys2Proof.Machine.execCollectiveCommit ix s
  | .collectiveTimeout ix wait => Sys2Proof.Machine.execCollectiveTimeout ix wait s
  | .checkpoint part tier => Sys2Proof.Machine.execCheckpoint part tier s
  | .checkpointRestore part tier => Sys2Proof.Machine.execCheckpointRestore part tier s
  | .coldStart failedStep setup => Sys2Proof.Machine.execColdStart failedStep setup s
  | .warmStart failedStep intact setup => Sys2Proof.Machine.execWarmStart failedStep intact setup s
  | .startTimeout => Sys2Proof.Machine.execStartTimeout s
  | .reset => Sys2Proof.Machine.execReset s
  | .recover => Sys2Proof.Machine.execRecover s
  | .softErrorCorrected unit addrs counter => Sys2Proof.Machine.execSoftErrorCorrected unit addrs counter s
  | .uncorrectableError place => Sys2Proof.Machine.execUncorrectableError place s
  | .attestationRequest vf nonce => Sys2Proof.Machine.execAttestationRequest vf nonce s
  | .powerThermalThrottle => Sys2Proof.Machine.execPowerThermalThrottle s
  | .clockRestore => Sys2Proof.Machine.execClockRestore s
  | .thermalTrip => Sys2Proof.Machine.execThermalTrip s
  | .unassignedWord w => Sys2Proof.Machine.execUnassignedWord w s
  | .hostDeviceMemoryAccess part addr len data => Sys2Proof.Machine.execHostDeviceMemoryAccess part addr len data s
  | .gridRemoval grid => Sys2Proof.Machine.execGridRemoval grid s

end Sys2Proof.Machine
end

