-- ==== Sys2Proof/Machine/Turns.lean ====
section
/-!
DEFINITION. A turn: a slot's group fetches and executes its next word, a cycle ends, or another step of the device
is taken; and the turn that the model takes when none is given (R31, R34, R35, R82, R188, log 2).
-/

namespace Sys2Proof.Machine

open Sys2Proof

/-! ### Fetching (R82, R188, R204) -/

/-- The word at the group's address, as memory stood when the crew's launch was placed (R82); a replayed fetch takes
what the resolution of its fault delivered (R205). -/
def fetchWord (s : State) (c : Ctx) : Acc Nat :=
  let a := c.addr.toNat
  let li := c.place c.lead
  if isWindow a then .trap (.fault causeWindow) a
  else
    (s.laneXlat c.ci li c.cr.part a { fetch := true }).bind fun g =>
      match s.fillFor c.ci li a false with
      | some f => .ok (leNat ((f.code.drop (a % 64)).take 4))
      | none => if s.poisonedOn (dieOf c.core) g 4 then .poison else .ok (leNat (s.codeRead c.ci (dieOf c.core) g 4))

/-- Every active lane of the group leaves its run, and the slot falls free. -/
def leaveAll (c : Ctx) (f : State → Nat → State) (s : State) : State :=
  (eachLane c.takesPart f s).clearSlot c.core c.slot

/-- A fetch that faults parks or traps every active lane; the address is the fetched word's (R204, R361). -/
def fetchFails {α : Type} (c : Ctx) (r : Acc α) (s : State) : State :=
  match r with
  | .trap tr a => leaveAll c (fun s t => failLane c t tr a s) s
  | .fault a _ => leaveAll c (fun s t => s.faultLane t a false c.start) s
  | _ => leaveAll c (fun s t => s.poisonLane t c.start) s

/-- The lanes of a group whose fetch has replayed leave its entry of the fault buffer (R205). -/
def fetched (c : Ctx) (s : State) : State :=
  if (s.core c.core).faults.isEmpty then s
  else (eachLane c.takesPart (fun s t => s.replayed c.ci (c.place t) c.addr.toNat) s).admitAll c.core

/-- A word executed: the instruction that it decodes to, or the fate of a word that is none (R98). -/
noncomputable def runDecoded (w : Word) (s : State) : Out :=
  match decode w with
  | some i => exec i s
  | none => execUnassignedWord w s

/-- The state in which the word of a slot is fetched: the slot is the current one, and where the slots of the
cycle have passed it, that cycle has ended. -/
def atSlot (core slot : Nat) (s : State) : State :=
  let s1 : State := { s with cur := (core, slot) }
  let s2 := if (s1.core core).lastSlot.any fun k => decide (slot ≤ k) then endCycle core s1 else s1
  s2.updCore core fun co => { co with lastSlot := some slot }

end Sys2Proof.Machine
end

