-- ==== Sys2Proof/Machine/Fast.lean ====
section
/-!
DEFINITION. The decoder and the dispatch in one, for evaluation: the same rows as `decode`, each giving its meaning
straight from the word's fields.  `runDecoded_eq` proves that nothing else changes.  (Lean's compiler gives
no code to constructors past the 244th, so `decode` itself is for the kernel alone.)
-/

namespace Sys2Proof.Machine

open Sys2Proof

/-- Major opcode 0x01. -/
def fast01 (f : Fields) (s : State) : Option Out :=
  match f.s3.toNat with
  | 0x00 => some (execIadd f.b f.n f.d f.s1 f.s2 s)
  | 0x01 => some (execIsub f.b f.n f.d f.s1 f.s2 s)
  | 0x02 => some (execImul f.b f.n f.d f.s1 f.s2 s)
  | 0x03 => some (execImulh f.b f.n f.d f.s1 f.s2 s)
  | 0x04 => some (execImulhU f.b f.n f.d f.s1 f.s2 s)
  | 0x05 => if f.s2 == 0#6 then some (execIneg f.b f.n f.d f.s1 s) else none
  | 0x06 => if f.s2 == 0#6 then some (execIabs f.b f.n f.d f.s1 s) else none
  | 0x07 => some (execImin f.b f.n f.d f.s1 f.s2 s)
  | 0x08 => some (execIminU f.b f.n f.d f.s1 f.s2 s)
  | 0x09 => some (execImax f.b f.n f.d f.s1 f.s2 s)
  | 0x0A => some (execImaxU f.b f.n f.d f.s1 f.s2 s)
  | 0x0B => some (execLand f.b f.n f.d f.s1 f.s2 s)
  | 0x0C => some (execLor f.b f.n f.d f.s1 f.s2 s)
  | 0x0D => some (execLxor f.b f.n f.d f.s1 f.s2 s)
  | 0x0E => if f.s2 == 0#6 then some (execLnot f.b f.n f.d f.s1 s) else none
  | 0x0F => some (execShl f.b f.n f.d f.s1 f.s2 s)
  | 0x10 => some (execShr f.b f.n f.d f.s1 f.s2 s)
  | 0x11 => some (execSar f.b f.n f.d f.s1 f.s2 s)
  | 0x12 => some (execRot f.b f.n f.d f.s1 f.s2 s)
  | 0x13 => if f.s2 == 0#6 then some (execPopc f.b f.n f.d f.s1 s) else none
  | 0x14 => if f.s2 == 0#6 then some (execClz f.b f.n f.d f.s1 s) else none
  | 0x15 => if f.s2 == 0#6 then some (execCtz f.b f.n f.d f.s1 s) else none
  | 0x16 => if f.s2 == 0#6 then some (execBrev f.b f.n f.d f.s1 s) else none
  | 0x17 => if f.s2 == 0#6 then some (execMov f.b f.n f.d f.s1 s) else none
  | 0x18 => some (execIaddSat f.b f.n f.d f.s1 f.s2 s)
  | 0x19 => some (execIsubSat f.b f.n f.d f.s1 f.s2 s)
  | 0x1A => some (execIaddUsat f.b f.n f.d f.s1 f.s2 s)
  | 0x1B => some (execIsubUsat f.b f.n f.d f.s1 f.s2 s)
  | _ => none

/-- Major opcode 0x02. -/
def fast02 (f : Fields) (s : State) : Option Out :=
  match f.s3.toNat with
  | 0x00 => some (execIadd64 f.b f.n f.d f.s1 f.s2 s)
  | 0x01 => some (execIsub64 f.b f.n f.d f.s1 f.s2 s)
  | 0x02 => some (execImul64 f.b f.n f.d f.s1 f.s2 s)
  | 0x03 => some (execImulh64 f.b f.n f.d f.s1 f.s2 s)
  | 0x04 => some (execImulhU64 f.b f.n f.d f.s1 f.s2 s)
  | 0x05 => if f.s2 == 0#6 then some (execIneg64 f.b f.n f.d f.s1 s) else none
  | 0x06 => if f.s2 == 0#6 then some (execIabs64 f.b f.n f.d f.s1 s) else none
  | 0x07 => some (execImin64 f.b f.n f.d f.s1 f.s2 s)
  | 0x08 => some (execIminU64 f.b f.n f.d f.s1 f.s2 s)
  | 0x09 => some (execImax64 f.b f.n f.d f.s1 f.s2 s)
  | 0x0A => some (execImaxU64 f.b f.n f.d f.s1 f.s2 s)
  | 0x0B => some (execLand64 f.b f.n f.d f.s1 f.s2 s)
  | 0x0C => some (execLor64 f.b f.n f.d f.s1 f.s2 s)
  | 0x0D => some (execLxor64 f.b f.n f.d f.s1 f.s2 s)
  | 0x0E => if f.s2 == 0#6 then some (execLnot64 f.b f.n f.d f.s1 s) else none
  | 0x0F => some (execShl64 f.b f.n f.d f.s1 f.s2 s)
  | 0x10 => some (execShr64 f.b f.n f.d f.s1 f.s2 s)
  | 0x11 => some (execSar64 f.b f.n f.d f.s1 f.s2 s)
  | 0x12 => some (execRot64 f.b f.n f.d f.s1 f.s2 s)
  | 0x13 => if f.s2 == 0#6 then some (execPopc64 f.b f.n f.d f.s1 s) else none
  | 0x14 => if f.s2 == 0#6 then some (execClz64 f.b f.n f.d f.s1 s) else none
  | 0x15 => if f.s2 == 0#6 then some (execCtz64 f.b f.n f.d f.s1 s) else none
  | 0x16 => if f.s2 == 0#6 then some (execBrev64 f.b f.n f.d f.s1 s) else none
  | 0x17 => if f.s2 == 0#6 then some (execMov64 f.b f.n f.d f.s1 s) else none
  | 0x18 => some (execIaddSat64 f.b f.n f.d f.s1 f.s2 s)
  | 0x19 => some (execIsubSat64 f.b f.n f.d f.s1 f.s2 s)
  | 0x1A => some (execIaddUsat64 f.b f.n f.d f.s1 f.s2 s)
  | 0x1B => some (execIsubUsat64 f.b f.n f.d f.s1 f.s2 s)
  | _ => none

/-- Major opcode 0x09. -/
def fast09 (f : Fields) (s : State) : Option Out :=
  match f.s3.toNat with
  | 0x00 => some (execBfxU f.b f.n f.d f.s1 f.s2 s)
  | 0x01 => some (execBfxS f.b f.n f.d f.s1 f.s2 s)
  | 0x02 => if f.s2 == 0#6 then some (execBffs f.b f.n f.d f.s1 s) else none
  | 0x03 => if f.s2 == 0#6 then some (execBffsIdx f.b f.n f.d f.s1 s) else none
  | 0x04 => some (execBfpl f.b f.n f.d f.s1 f.s2 s)
  | _ => none

/-- Major opcode 0x0A. -/
def fast0A (f : Fields) (s : State) : Option Out :=
  match f.s3.toNat with
  | 0x00 => if f.s2 == 0#6 then some (execQxchX f.b f.n f.d f.s1 s) else none
  | 0x01 => if f.s2 == 0#6 then some (execQxchY f.b f.n f.d f.s1 s) else none
  | 0x02 => if f.s2 == 0#6 then some (execQxchXy f.b f.n f.d f.s1 s) else none
  | 0x03 => some (execQxchBc f.b f.n f.d f.s1 f.s2 s)
  | 0x08 => some (execGshuf f.b f.n f.d f.s1 f.s2 s)
  | 0x09 => some (execGshufXor f.b f.n f.d f.s1 f.s2 s)
  | 0x10 => if f.s2 == 0#6 then some (execQxchX64 f.b f.n f.d f.s1 s) else none
  | 0x11 => if f.s2 == 0#6 then some (execQxchY64 f.b f.n f.d f.s1 s) else none
  | 0x12 => if f.s2 == 0#6 then some (execQxchXy64 f.b f.n f.d f.s1 s) else none
  | 0x13 => some (execQxchBc64 f.b f.n f.d f.s1 f.s2 s)
  | 0x18 => some (execGshuf64 f.b f.n f.d f.s1 f.s2 s)
  | 0x19 => some (execGshufXor64 f.b f.n f.d f.s1 f.s2 s)
  | _ => none

/-- Major opcode 0x15. -/
def fast15 (f : Fields) (s : State) : Option Out :=
  match f.s3.toNat with
  | 0x00 => some (execFaddF32 f.b f.n f.d f.s1 f.s2 s)
  | 0x01 => some (execFsubF32 f.b f.n f.d f.s1 f.s2 s)
  | 0x02 => some (execFmulF32 f.b f.n f.d f.s1 f.s2 s)
  | 0x03 => some (execFminF32 f.b f.n f.d f.s1 f.s2 s)
  | 0x04 => some (execFmaxF32 f.b f.n f.d f.s1 f.s2 s)
  | 0x05 => if f.s2 == 0#6 then some (execFabsF32 f.b f.n f.d f.s1 s) else none
  | 0x06 => if f.s2 == 0#6 then some (execFnegF32 f.b f.n f.d f.s1 s) else none
  | 0x07 => some (execFdivF32 f.b f.n f.d f.s1 f.s2 s)
  | 0x08 => if f.s2 == 0#6 then some (execFrcpF32 f.b f.n f.d f.s1 s) else none
  | 0x09 => if f.s2 == 0#6 then some (execFrsqF32 f.b f.n f.d f.s1 s) else none
  | 0x0A => if f.s2 == 0#6 then some (execFsqrtF32 f.b f.n f.d f.s1 s) else none
  | 0x0B => if f.s2 == 0#6 then some (execFexp2F32 f.b f.n f.d f.s1 s) else none
  | 0x0C => if f.s2 == 0#6 then some (execFlog2F32 f.b f.n f.d f.s1 s) else none
  | 0x0D => if f.s2 == 0#6 then some (execFsinF32 f.b f.n f.d f.s1 s) else none
  | 0x0E => if f.s2 == 0#6 then some (execFcosF32 f.b f.n f.d f.s1 s) else none
  | 0x0F => if f.s2 == 0#6 then some (execFfloorF32 f.b f.n f.d f.s1 s) else none
  | 0x10 => if f.s2 == 0#6 then some (execFceilF32 f.b f.n f.d f.s1 s) else none
  | 0x11 => if f.s2 == 0#6 then some (execFrndF32 f.b f.n f.d f.s1 s) else none
  | 0x12 => if f.s2 == 0#6 then some (execFfracF32 f.b f.n f.d f.s1 s) else none
  | _ => none

/-- Major opcode 0x16. -/
def fast16 (f : Fields) (s : State) : Option Out :=
  match f.s3.toNat with
  | 0x00 => some (execFaddF64 f.b f.n f.d f.s1 f.s2 s)
  | 0x01 => some (execFsubF64 f.b f.n f.d f.s1 f.s2 s)
  | 0x02 => some (execFmulF64 f.b f.n f.d f.s1 f.s2 s)
  | 0x03 => some (execFminF64 f.b f.n f.d f.s1 f.s2 s)
  | 0x04 => some (execFmaxF64 f.b f.n f.d f.s1 f.s2 s)
  | 0x05 => if f.s2 == 0#6 then some (execFabsF64 f.b f.n f.d f.s1 s) else none
  | 0x06 => if f.s2 == 0#6 then some (execFnegF64 f.b f.n f.d f.s1 s) else none
  | 0x07 => some (execFdivF64 f.b f.n f.d f.s1 f.s2 s)
  | 0x08 => if f.s2 == 0#6 then some (execFrcpF64 f.b f.n f.d f.s1 s) else none
  | 0x09 => if f.s2 == 0#6 then some (execFrsqF64 f.b f.n f.d f.s1 s) else none
  | 0x0A => if f.s2 == 0#6 then some (execFsqrtF64 f.b f.n f.d f.s1 s) else none
  | 0x0B => if f.s2 == 0#6 then some (execFexp2F64 f.b f.n f.d f.s1 s) else none
  | 0x0C => if f.s2 == 0#6 then some (execFlog2F64 f.b f.n f.d f.s1 s) else none
  | 0x0D => if f.s2 == 0#6 then some (execFsinF64 f.b f.n f.d f.s1 s) else none
  | 0x0E => if f.s2 == 0#6 then some (execFcosF64 f.b f.n f.d f.s1 s) else none
  | 0x0F => if f.s2 == 0#6 then some (execFfloorF64 f.b f.n f.d f.s1 s) else none
  | 0x10 => if f.s2 == 0#6 then some (execFceilF64 f.b f.n f.d f.s1 s) else none
  | 0x11 => if f.s2 == 0#6 then some (execFrndF64 f.b f.n f.d f.s1 s) else none
  | 0x12 => if f.s2 == 0#6 then some (execFfracF64 f.b f.n f.d f.s1 s) else none
  | _ => none

/-- Major opcode 0x17. -/
def fast17 (f : Fields) (s : State) : Option Out :=
  match f.s3.toNat with
  | 0x00 => some (execFaddF16 f.b f.n f.d f.s1 f.s2 s)
  | 0x01 => some (execFsubF16 f.b f.n f.d f.s1 f.s2 s)
  | 0x02 => some (execFmulF16 f.b f.n f.d f.s1 f.s2 s)
  | 0x03 => some (execFminF16 f.b f.n f.d f.s1 f.s2 s)
  | 0x04 => some (execFmaxF16 f.b f.n f.d f.s1 f.s2 s)
  | 0x05 => if f.s2 == 0#6 then some (execFabsF16 f.b f.n f.d f.s1 s) else none
  | 0x06 => if f.s2 == 0#6 then some (execFnegF16 f.b f.n f.d f.s1 s) else none
  | 0x07 => some (execFdivF16 f.b f.n f.d f.s1 f.s2 s)
  | 0x08 => if f.s2 == 0#6 then some (execFrcpF16 f.b f.n f.d f.s1 s) else none
  | 0x09 => if f.s2 == 0#6 then some (execFrsqF16 f.b f.n f.d f.s1 s) else none
  | 0x0A => if f.s2 == 0#6 then some (execFsqrtF16 f.b f.n f.d f.s1 s) else none
  | 0x0B => if f.s2 == 0#6 then some (execFexp2F16 f.b f.n f.d f.s1 s) else none
  | 0x0C => if f.s2 == 0#6 then some (execFlog2F16 f.b f.n f.d f.s1 s) else none
  | 0x0D => if f.s2 == 0#6 then some (execFsinF16 f.b f.n f.d f.s1 s) else none
  | 0x0E => if f.s2 == 0#6 then some (execFcosF16 f.b f.n f.d f.s1 s) else none
  | 0x0F => if f.s2 == 0#6 then some (execFfloorF16 f.b f.n f.d f.s1 s) else none
  | 0x10 => if f.s2 == 0#6 then some (execFceilF16 f.b f.n f.d f.s1 s) else none
  | 0x11 => if f.s2 == 0#6 then some (execFrndF16 f.b f.n f.d f.s1 s) else none
  | 0x12 => if f.s2 == 0#6 then some (execFfracF16 f.b f.n f.d f.s1 s) else none
  | _ => none

/-- Major opcode 0x18. -/
def fast18 (f : Fields) (s : State) : Option Out :=
  match f.s3.toNat with
  | 0x00 => some (execFaddBf16 f.b f.n f.d f.s1 f.s2 s)
  | 0x01 => some (execFsubBf16 f.b f.n f.d f.s1 f.s2 s)
  | 0x02 => some (execFmulBf16 f.b f.n f.d f.s1 f.s2 s)
  | 0x03 => some (execFminBf16 f.b f.n f.d f.s1 f.s2 s)
  | 0x04 => some (execFmaxBf16 f.b f.n f.d f.s1 f.s2 s)
  | 0x05 => if f.s2 == 0#6 then some (execFabsBf16 f.b f.n f.d f.s1 s) else none
  | 0x06 => if f.s2 == 0#6 then some (execFnegBf16 f.b f.n f.d f.s1 s) else none
  | 0x07 => some (execFdivBf16 f.b f.n f.d f.s1 f.s2 s)
  | 0x08 => if f.s2 == 0#6 then some (execFrcpBf16 f.b f.n f.d f.s1 s) else none
  | 0x09 => if f.s2 == 0#6 then some (execFrsqBf16 f.b f.n f.d f.s1 s) else none
  | 0x0A => if f.s2 == 0#6 then some (execFsqrtBf16 f.b f.n f.d f.s1 s) else none
  | 0x0B => if f.s2 == 0#6 then some (execFexp2Bf16 f.b f.n f.d f.s1 s) else none
  | 0x0C => if f.s2 == 0#6 then some (execFlog2Bf16 f.b f.n f.d f.s1 s) else none
  | 0x0D => if f.s2 == 0#6 then some (execFsinBf16 f.b f.n f.d f.s1 s) else none
  | 0x0E => if f.s2 == 0#6 then some (execFcosBf16 f.b f.n f.d f.s1 s) else none
  | 0x0F => if f.s2 == 0#6 then some (execFfloorBf16 f.b f.n f.d f.s1 s) else none
  | 0x10 => if f.s2 == 0#6 then some (execFceilBf16 f.b f.n f.d f.s1 s) else none
  | 0x11 => if f.s2 == 0#6 then some (execFrndBf16 f.b f.n f.d f.s1 s) else none
  | 0x12 => if f.s2 == 0#6 then some (execFfracBf16 f.b f.n f.d f.s1 s) else none
  | _ => none

/-- Major opcode 0x19. -/
def fast19 (f : Fields) (s : State) : Option Out :=
  match f.s3.toNat with
  | 0x00 => some (execFaddF16x2 f.b f.n f.d f.s1 f.s2 s)
  | 0x01 => some (execFsubF16x2 f.b f.n f.d f.s1 f.s2 s)
  | 0x02 => some (execFmulF16x2 f.b f.n f.d f.s1 f.s2 s)
  | 0x03 => some (execFminF16x2 f.b f.n f.d f.s1 f.s2 s)
  | 0x04 => some (execFmaxF16x2 f.b f.n f.d f.s1 f.s2 s)
  | 0x05 => if f.s2 == 0#6 then some (execFabsF16x2 f.b f.n f.d f.s1 s) else none
  | 0x06 => if f.s2 == 0#6 then some (execFnegF16x2 f.b f.n f.d f.s1 s) else none
  | 0x07 => some (execFdivF16x2 f.b f.n f.d f.s1 f.s2 s)
  | 0x08 => if f.s2 == 0#6 then some (execFrcpF16x2 f.b f.n f.d f.s1 s) else none
  | 0x09 => if f.s2 == 0#6 then some (execFrsqF16x2 f.b f.n f.d f.s1 s) else none
  | 0x0A => if f.s2 == 0#6 then some (execFsqrtF16x2 f.b f.n f.d f.s1 s) else none
  | 0x0B => if f.s2 == 0#6 then some (execFexp2F16x2 f.b f.n f.d f.s1 s) else none
  | 0x0C => if f.s2 == 0#6 then some (execFlog2F16x2 f.b f.n f.d f.s1 s) else none
  | 0x0D => if f.s2 == 0#6 then some (execFsinF16x2 f.b f.n f.d f.s1 s) else none
  | 0x0E => if f.s2 == 0#6 then some (execFcosF16x2 f.b f.n f.d f.s1 s) else none
  | 0x0F => if f.s2 == 0#6 then some (execFfloorF16x2 f.b f.n f.d f.s1 s) else none
  | 0x10 => if f.s2 == 0#6 then some (execFceilF16x2 f.b f.n f.d f.s1 s) else none
  | 0x11 => if f.s2 == 0#6 then some (execFrndF16x2 f.b f.n f.d f.s1 s) else none
  | 0x12 => if f.s2 == 0#6 then some (execFfracF16x2 f.b f.n f.d f.s1 s) else none
  | _ => none

/-- Major opcode 0x20. -/
def fast20 (f : Fields) (s : State) : Option Out :=
  match f.s3.toNat with
  | 0x00 => some (execDseedF32 f.b f.n f.d f.s1 f.s2 s)
  | 0x01 => some (execDseedF64 f.b f.n f.d f.s1 f.s2 s)
  | 0x02 => if f.s2 == 0#6 then some (execDzero f.b f.n f.d f.s1 s) else none
  | 0x03 => if f.s2 == 0#6 then some (execDzero64 f.b f.n f.d f.s1 s) else none
  | 0x04 => some (execDgetF32 f.b f.n f.d f.s1 f.s2 s)
  | 0x05 => some (execDgetF64 f.b f.n f.d f.s1 f.s2 s)
  | 0x06 => if !f.n then some (execDputF32 f.b f.d f.s1 f.s2 s) else none
  | 0x07 => if !f.n then some (execDputF64 f.b f.d f.s1 f.s2 s) else none
  | _ => none

/-- Major opcode 0x25. -/
def fast25 (f : Fields) (s : State) : Option Out :=
  match f.s3.toNat with
  | 0x00 => if !f.n then some (execPset f.b f.d f.s1 f.s2 s) else none
  | 0x01 => if !f.n then some (execPand f.b f.d f.s1 f.s2 s) else none
  | 0x02 => if !f.n then some (execPor f.b f.d f.s1 f.s2 s) else none
  | 0x03 => if !f.n && f.s2 == 0#6 then some (execPnot f.b f.d f.s1 s) else none
  | 0x04 => if f.s2 == 0#6 then some (execPget f.b f.n f.d f.s1 s) else none
  | 0x05 => if f.s2 == 0#6 then some (execPgetW f.b f.n f.d f.s1 s) else none
  | 0x06 => if !f.n then some (execPput f.b f.d f.s1 f.s2 s) else none
  | 0x07 => if !f.n && f.s2 == 0#6 then some (execPcoll f.b f.d f.s1 s) else none
  | _ => none

/-- Major opcode 0x27. -/
def fast27 (f : Fields) (s : State) : Option Out :=
  (if f.s1 == 0#6 && f.s2 == 0#6 && f.s3 == 33#6 then some (execRnextU32 f.b f.n f.d s) else none)
  <|> (if f.s1 == 0#6 && f.s2 == 0#6 && f.s3 == 34#6 then some (execRnextU64 f.b f.n f.d s) else none)
  <|> (if f.s1 == 0#6 && f.s2 == 0#6 && f.s3 == 35#6 then some (execRnextF32 f.b f.n f.d s) else none)
  <|> (if !f.n && f.d == 0#6 && f.s3 == 32#6 then some (execRkey f.b f.s1 f.s2 s) else none)
  <|> (if f.s3.extractLsb' 5 1 == 0#1 && f.s3.extractLsb' 3 1 == 0#1
      then some (execPsel f.b f.n f.d f.s1 f.s2 (f.s3.extractLsb' 4 1) (f.s3.extractLsb' 0 3) s) else none)

/-- Major opcode 0x2A. -/
def fast2A (f : Fields) (s : State) : Option Out :=
  (if !f.n && f.s3.extractLsb' 5 1 == 1#1 && f.s3.extractLsb' 3 1 == 0#1 && f.s3.extractLsb' 0 2 == 0#2
      then some (execStt f.b f.d f.s1 f.s2 (f.s3.extractLsb' 4 1) (f.s3.extractLsb' 2 1) s) else none)
  <|> (if !f.n && f.s3.extractLsb' 5 1 == 0#1 && f.s3.extractLsb' 0 2 == 0#2
      then some (execLdt f.b f.d f.s1 f.s2 (f.s3.extractLsb' 4 1) (f.s3.extractLsb' 2 2) s) else none)

/-- Major opcode 0x2B. -/
def fast2B (f : Fields) (s : State) : Option Out :=
  (if !f.n && f.s3.extractLsb' 1 5 == 0#5 then some (execLdd f.b f.d f.s1 f.s2 (f.s3.extractLsb' 0 1) s) else none)
  <|> (if !f.n && f.s3.extractLsb' 1 5 == 16#5
      then some (execStd f.b f.d f.s1 f.s2 (f.s3.extractLsb' 0 1) s) else none)

/-- Major opcode 0x2E. -/
def fast2E (f : Fields) (s : State) : Option Out :=
  match f.s3.toNat with
  | 0x00 => if !f.n && f.s2 == 0#6 then some (execBhdrRd f.b f.d f.s1 s) else none
  | 0x01 => if !f.n && f.s2 == 0#6 then some (execBhdrWr f.b f.d f.s1 s) else none
  | 0x02 => if !f.n && f.d == 0#6 then some (execPref f.b f.s1 f.s2 s) else none
  | _ => none

/-- Major opcode 0x2F. -/
def fast2F (f : Fields) (s : State) : Option Out :=
  match f.s3.toNat with
  | 0x00 => if !f.n && f.d == 0#6 then some (execTset f.b f.s1 f.s2 s) else none
  | 0x01 => if !f.n && f.d == 0#6 && f.s2 == 0#6 then some (execTsetClr f.b f.s1 s) else none
  | 0x02 => if f.s2 == 0#6 then some (execTstat f.b f.n f.d f.s1 s) else none
  | _ => none

/-- Major opcode 0x30. -/
def fast30 (f : Fields) (s : State) : Option Out :=
  if f.s3.extractLsb' 4 2 == 3#2 then
    if !f.n && f.s3.extractLsb' 3 3 == 6#3
      then some (execAtomFadd f.b f.d f.s1 f.s2 (f.s3.extractLsb' 1 2) (f.s3.extractLsb' 0 1) s) else none
  else if !f.n
      then some (execAtom f.b f.d f.s1 f.s2 (f.s3.extractLsb' 4 2) (f.s3.extractLsb' 1 3) (f.s3.extractLsb' 0 1) s) else none

/-- Major opcode 0x31. -/
def fast31 (f : Fields) (s : State) : Option Out :=
  if f.s3.extractLsb' 4 2 == 3#2 then
    if !f.n && f.s3.extractLsb' 3 3 == 6#3
      then some (execAtomsFadd f.b f.d f.s1 f.s2 (f.s3.extractLsb' 1 2) (f.s3.extractLsb' 0 1) s) else none
  else if !f.n
      then some (execAtoms f.b f.d f.s1 f.s2 (f.s3.extractLsb' 4 2) (f.s3.extractLsb' 1 3) (f.s3.extractLsb' 0 1) s) else none

/-- Major opcode 0x32. -/
def fast32 (f : Fields) (s : State) : Option Out :=
  match f.s3.toNat with
  | 0x00 => if !f.n && f.s2 == 0#6 then some (execAcq f.b f.d f.s1 s) else none
  | 0x01 => if !f.n && f.d == 0#6 then some (execRel f.b f.s1 f.s2 s) else none
  | 0x02 => if !f.n && f.d == 0#6 && f.s1 == 0#6 && f.s2 == 0#6 then some (execFence f.b s) else none
  | 0x03 => if !f.n then some (execBind f.b f.d f.s1 f.s2 s) else none
  | 0x04 => if !f.n && f.s2 == 0#6 then some (execBindClr f.b f.d f.s1 s) else none
  | _ => none

/-- Major opcode 0x34. -/
def fast34 (f : Fields) (s : State) : Option Out :=
  match f.s3.toNat with
  | 0x00 => some (execBarArv f.b f.n f.d f.s1 f.s2 s)
  | 0x01 => if f.b && !f.n && f.d == 0#6 then some (execBarWt f.s1 f.s2 s) else none
  | 0x02 => if f.b && !f.n && f.d == 0#6 then some (execBarSyn f.s1 f.s2 s) else none
  | 0x03 => if f.b && !f.n && f.d == 0#6 && f.s1 == 0#6 then some (execGbar f.s2 s) else none
  | _ => none

/-- Major opcode 0x35. -/
def fast35 (f : Fields) (s : State) : Option Out :=
  match f.s3.toNat with
  | 0x00 => if f.b && !f.n && f.s2 == 0#6 then some (execMbput f.d f.s1 s) else none
  | 0x01 => if f.b && !f.n && f.s2 == 0#6 then some (execMbtake f.d f.s1 s) else none
  | _ => none

/-- Major opcode 0x39. -/
def fast39 (f : Fields) (s : State) : Option Out :=
  match f.s3.toNat with
  | 0x00 => if !f.n && f.d == 0#6 && f.s1 == 0#6 && f.s2 == 0#6 then some (execNop f.b s) else none
  | 0x01 => if f.b && !f.n && f.d == 0#6 && f.s2 == 0#6 then some (execBrx f.s1 s) else none
  | 0x02 => if f.b && !f.n && f.d == 0#6 && f.s2 == 0#6 then some (execCallx f.s1 s) else none
  | 0x03 => if f.b && !f.n && f.d == 0#6 && f.s1 == 0#6 && f.s2 == 0#6 then some (execRet s) else none
  | 0x04 => if f.b && !f.n then some (execCallj f.d f.s1 f.s2 s) else none
  | 0x05 => if f.b && !f.n && f.s2 == 0#6 then some (execRegroup f.d f.s1 s) else none
  | 0x06 => if !f.n && f.s1 == 0#6 && f.s2 == 0#6 then some (execJoin f.b f.d s) else none
  | 0x07 => if !f.n && f.s1 == 0#6 && f.s2 == 0#6 then some (execLeave f.b f.d s) else none
  | 0x08 => if f.b && !f.n && f.s1 == 0#6 && f.s2 == 0#6 then some (execWaitm f.d s) else none
  | 0x09 => if !f.n
      then some (execRegion f.b (f.d ++ f.s1 ++ f.s2.extractLsb' 4 2) (f.s2.extractLsb' 0 4) s) else none
  | 0x0A => if f.b && !f.n && f.d == 0#6 && f.s1 == 0#6 && f.s2 == 0#6 then some (execExit s) else none
  | _ => none

/-- Major opcode 0x3A. -/
def fast3A (f : Fields) (s : State) : Option Out :=
  match f.s3.toNat with
  | 0x00 => if f.b && !f.n && f.d == 0#6 && f.s2 == 0#6 then some (execXq f.s1 s) else none
  | 0x01 => if f.b && !f.n && f.d == 0#6 && f.s2 == 0#6 then some (execXqn f.s1 s) else none
  | _ => none

/-- Major opcode 0x3B. -/
def fast3B (f : Fields) (s : State) : Option Out :=
  match f.s3.toNat with
  | 0x00 => if !f.n && f.s1 == 0#6 && f.s2 == 0#6 then some (execElect f.b f.d s) else none
  | 0x01 => if f.b && !f.n && f.d == 0#6 && f.s2 == 0#6 then some (execMmissue f.s1 s) else none
  | 0x02 => if f.b && !f.n then some (execAccsv f.d f.s1 f.s2 s) else none
  | 0x03 => if f.b && !f.n then some (execAccld f.d f.s1 f.s2 s) else none
  | 0x04 => if !f.n && f.s1 == 0#6 then some (execElectU f.b f.d f.s2 s) else none
  | _ => none

/-- Major opcode 0x3C. -/
def fast3C (f : Fields) (s : State) : Option Out :=
  match f.s3.toNat with
  | 0x00 => if f.b && !f.n then some (execTrace f.d f.s1 f.s2 s) else none
  | 0x01 => if f.b && !f.n then some (execTracep f.d f.s1 f.s2 s) else none
  | 0x02 => if f.b && !f.n && f.d == 0#6 && f.s2 == 0#6 then some (execXpair f.s1 s) else none
  | 0x03 => if f.b && !f.n then some (execTres f.d f.s1 f.s2 s) else none
  | 0x04 => if f.b && !f.n then some (execTresAcc f.d f.s1 f.s2 s) else none
  | 0x05 => if f.b && !f.n then some (execTresTerm f.d f.s1 f.s2 s) else none
  | 0x06 => if f.b && !f.n && f.d == 0#6 && f.s2 == 0#6 then some (execReproj f.s1 s) else none
  | _ => none

/-- Major opcode 0x3D. -/
def fast3D (f : Fields) (s : State) : Option Out :=
  match f.s3.toNat with
  | 0x00 => if !f.n && f.s2 == 0#6 then some (execUmov f.b f.d f.s1 s) else none
  | 0x01 => if !f.n then some (execUadd f.b f.d f.s1 f.s2 s) else none
  | 0x02 => if !f.n then some (execUsub f.b f.d f.s1 f.s2 s) else none
  | 0x03 => if !f.n then some (execUmul f.b f.d f.s1 f.s2 s) else none
  | 0x04 => if !f.n then some (execUand f.b f.d f.s1 f.s2 s) else none
  | 0x05 => if !f.n then some (execUor f.b f.d f.s1 f.s2 s) else none
  | 0x06 => if !f.n then some (execUxor f.b f.d f.s1 f.s2 s) else none
  | 0x07 => if !f.n then some (execUshl f.b f.d f.s1 f.s2 s) else none
  | 0x08 => if !f.n then some (execUshr f.b f.d f.s1 f.s2 s) else none
  | 0x09 => if !f.n then some (execUsar f.b f.d f.s1 f.s2 s) else none
  | 0x0A => if !f.n then some (execUmin f.b f.d f.s1 f.s2 s) else none
  | 0x0B => if !f.n then some (execUmax f.b f.d f.s1 f.s2 s) else none
  | 0x10 => if !f.n && f.s2 == 0#6 then some (execUmovv f.b f.d f.s1 s) else none
  | 0x11 => if !f.n && f.s2 == 0#6 then some (execUmovv64 f.b f.d f.s1 s) else none
  | _ => none

/-- Major opcode 0x3E. -/
def fast3E (f : Fields) (s : State) : Option Out :=
  match f.s3.toNat with
  | 0x10 => if f.b && !f.n then some (execFetchw f.d f.s1 f.s2 s) else none
  | 0x11 => if f.b && !f.n then some (execLaunch f.d f.s1 f.s2 s) else none
  | 0x00 => if f.b && !f.n && f.d == 0#6 then some (execTrap (f.s1 ++ f.s2) s) else none
  | 0x01 => if f.b && !f.n && f.d == 0#6 && f.s1 == 0#6 && f.s2 == 0#6 then some (execEret s) else none
  | 0x02 => if !f.n && f.s2 == 0#6 then some (execGets f.b f.d f.s1 s) else none
  | 0x03 => if !f.n && f.s2 == 0#6 then some (execSets f.b f.d f.s1 s) else none
  | _ => none

/-- Major opcode 0x3F. -/
def fast3F (f : Fields) (s : State) : Option Out :=
  (if !f.b && f.n && f.d == 8#6 && f.s1 == 0#6 && f.s2 == 0#6 && f.s3.extractLsb' 2 4 == 0#4
      then some (execHrnd (f.s3.extractLsb' 0 2) s) else none)
  <|> (if !f.b && f.n && f.d == 12#6 && f.s1 == 0#6 && f.s2 == 0#6 && f.s3.extractLsb' 2 4 == 0#4
      then some (execHscp (f.s3.extractLsb' 0 2) s) else none)
  <|> (if !f.b && f.n && f.d == 16#6 && f.s1 == 0#6 && f.s2 == 0#6 && f.s3.extractLsb' 2 4 == 0#4
      then some (execHcch (f.s3.extractLsb' 0 2) s) else none)
  <|> (if !f.b && f.n && f.d == 4#6 && f.s1 == 0#6 && f.s2 == 0#6 && f.s3.extractLsb' 4 2 == 0#2
      then some (execHgrd (f.s3.extractLsb' 3 1) (f.s3.extractLsb' 0 3) s) else none)
  <|> (if !f.b && f.n && f.d == 0#6 && f.s1 == 0#6 && f.s2 == 0#6
      then some (execHsel (f.s3.extractLsb' 5 1) (f.s3.extractLsb' 0 5) s) else none)
  <|> (if !f.b && f.n && f.d == 20#6 && f.s1 == 0#6 && f.s2.extractLsb' 2 4 == 0#4
      then some (execHsch (f.s2.extractLsb' 0 2 ++ f.s3) s) else none)
  <|> (if !f.b && !f.n then some (execHimm (f.d ++ f.s1 ++ f.s2 ++ f.s3) s) else none)

/-- The meaning of a word from its fields. -/
def fastFields (f : Fields) (s : State) : Option Out :=
  match f.op.toNat with
  | 0x01 => fast01 f s
  | 0x02 => fast02 f s
  | 0x03 => some (execImad f.b f.n f.d f.s1 f.s2 f.s3 s)
  | 0x04 => some (execImad64 f.b f.n f.d f.s1 f.s2 f.s3 s)
  | 0x05 => if f.s1 == 0#6 then some (execMovi f.b f.n f.d (f.s2 ++ f.s3) s) else none
  | 0x06 => some (execLea f.b f.n f.d f.s1 (f.s2 ++ f.s3) s)
  | 0x07 => if !f.n && f.s3.extractLsb' 5 1 == 0#1
      then some (execIcmp f.b f.d f.s1 f.s2 (f.s3.extractLsb' 4 1) (f.s3.extractLsb' 0 4) s) else none
  | 0x08 => some (execBfi f.b f.n f.d f.s1 f.s2 f.s3 s)
  | 0x09 => fast09 f s
  | 0x0A => fast0A f s
  | 0x10 => some (execFfmaF32 f.b f.n f.d f.s1 f.s2 f.s3 s)
  | 0x11 => some (execFfmaF64 f.b f.n f.d f.s1 f.s2 f.s3 s)
  | 0x12 => some (execFfmaF16 f.b f.n f.d f.s1 f.s2 f.s3 s)
  | 0x13 => some (execFfmaBf16 f.b f.n f.d f.s1 f.s2 f.s3 s)
  | 0x14 => some (execFfmaF16x2 f.b f.n f.d f.s1 f.s2 f.s3 s)
  | 0x15 => fast15 f s
  | 0x16 => fast16 f s
  | 0x17 => fast17 f s
  | 0x18 => fast18 f s
  | 0x19 => fast19 f s
  | 0x1A => if !f.n && f.s3.extractLsb' 5 1 == 0#1
      then some (execFcmp f.b f.d f.s1 f.s2 (f.s3.extractLsb' 3 2) (f.s3.extractLsb' 0 3) s) else none
  | 0x1B => if f.s2 == 0#6
      then some (execCvt f.b f.n f.d f.s1 (f.s3.extractLsb' 3 3) (f.s3.extractLsb' 0 3) s) else none
  | 0x20 => fast20 f s
  | 0x21 => if f.s3.extractLsb' 2 4 == 0#4
      then some (execDeval f.b f.n f.d f.s1 f.s2 (f.s3.extractLsb' 0 2) s) else none
  | 0x24 => if !f.n
      then some (execPcmp f.b f.d f.s1 f.s2 (f.s3.extractLsb' 5 1) (f.s3.extractLsb' 2 3) (f.s3.extractLsb' 0 2) s) else none
  | 0x25 => fast25 f s
  | 0x26 => if f.s1.extractLsb' 3 1 == 0#1
      then some (execPblend f.b f.n f.d (f.s1.extractLsb' 4 2) (f.s1.extractLsb' 0 3) f.s2 f.s3 s) else none
  | 0x27 => fast27 f s
  | 0x28 => if !f.n && f.s3.extractLsb' 0 3 == 0#3
      then some (execLd f.b f.d f.s1 f.s2 (f.s3.extractLsb' 3 3) s) else none
  | 0x29 => if !f.n && f.s3.extractLsb' 0 3 == 0#3
      then some (execSt f.b f.d f.s1 f.s2 (f.s3.extractLsb' 3 3) s) else none
  | 0x2A => fast2A f s
  | 0x2B => fast2B f s
  | 0x2C => if !f.n && f.s3.extractLsb' 0 3 == 0#3
      then some (execLds f.b f.d f.s1 f.s2 (f.s3.extractLsb' 3 3) s) else none
  | 0x2D => if !f.n && f.s3.extractLsb' 0 3 == 0#3
      then some (execSts f.b f.d f.s1 f.s2 (f.s3.extractLsb' 3 3) s) else none
  | 0x2E => fast2E f s
  | 0x2F => fast2F f s
  | 0x30 => fast30 f s
  | 0x31 => fast31 f s
  | 0x32 => fast32 f s
  | 0x33 => if f.b && !f.n && f.s3.extractLsb' 3 3 == 0#3
      then some (execMwait f.d f.s1 f.s2 (f.s3.extractLsb' 2 1) (f.s3.extractLsb' 1 1) (f.s3.extractLsb' 0 1) s) else none
  | 0x34 => fast34 f s
  | 0x35 => fast35 f s
  | 0x36 => if f.b then some (execBra (BitVec.ofBool f.n ++ f.d ++ f.s1 ++ f.s2 ++ f.s3) s) else none
  | 0x37 => if f.b then some (execCall (BitVec.ofBool f.n ++ f.d ++ f.s1 ++ f.s2 ++ f.s3) s) else none
  | 0x38 => if f.b && !f.n && f.d.extractLsb' 4 2 == 0#2
      then some (execBrq (f.d.extractLsb' 3 1) (f.d.extractLsb' 0 3) (f.s1 ++ f.s2 ++ f.s3) s) else none
  | 0x39 => fast39 f s
  | 0x3A => fast3A f s
  | 0x3B => fast3B f s
  | 0x3C => fast3C f s
  | 0x3D => fast3D f s
  | 0x3E => fast3E f s
  | 0x3F => fast3F f s
  | _ => none

theorem map_need (c : Bool) (i : Instr) (s : State) :
    (need c i).map (fun i => exec i s) = if c then some (exec i s) else none := by
  cases c <;> rfl

theorem map_orElse (a b : Option Instr) (s : State) :
    (a <|> b).map (fun i => exec i s) = (a.map (fun i => exec i s) <|> b.map (fun i => exec i s)) := by
  cases a <;> rfl

theorem fast01_eq (f : Fields) (s : State) : (decode01 f).map (fun i => exec i s) = fast01 f s := by
  unfold decode01 fast01
  generalize f.s3.toNat = n
  split <;> first
    | rfl
    | exact map_need _ _ _
    | (split <;> first | rfl | contradiction)

theorem fast02_eq (f : Fields) (s : State) : (decode02 f).map (fun i => exec i s) = fast02 f s := by
  unfold decode02 fast02
  generalize f.s3.toNat = n
  split <;> first
    | rfl
    | exact map_need _ _ _
    | (split <;> first | rfl | contradiction)

theorem fast09_eq (f : Fields) (s : State) : (decode09 f).map (fun i => exec i s) = fast09 f s := by
  unfold decode09 fast09
  generalize f.s3.toNat = n
  split <;> first
    | rfl
    | exact map_need _ _ _
    | (split <;> first | rfl | contradiction)

theorem fast0A_eq (f : Fields) (s : State) : (decode0A f).map (fun i => exec i s) = fast0A f s := by
  unfold decode0A fast0A
  generalize f.s3.toNat = n
  split <;> first
    | rfl
    | exact map_need _ _ _
    | (split <;> first | rfl | contradiction)

theorem fast15_eq (f : Fields) (s : State) : (decode15 f).map (fun i => exec i s) = fast15 f s := by
  unfold decode15 fast15
  generalize f.s3.toNat = n
  split <;> first
    | rfl
    | exact map_need _ _ _
    | (split <;> first | rfl | contradiction)

theorem fast16_eq (f : Fields) (s : State) : (decode16 f).map (fun i => exec i s) = fast16 f s := by
  unfold decode16 fast16
  generalize f.s3.toNat = n
  split <;> first
    | rfl
    | exact map_need _ _ _
    | (split <;> first | rfl | contradiction)

theorem fast17_eq (f : Fields) (s : State) : (decode17 f).map (fun i => exec i s) = fast17 f s := by
  unfold decode17 fast17
  generalize f.s3.toNat = n
  split <;> first
    | rfl
    | exact map_need _ _ _
    | (split <;> first | rfl | contradiction)

theorem fast18_eq (f : Fields) (s : State) : (decode18 f).map (fun i => exec i s) = fast18 f s := by
  unfold decode18 fast18
  generalize f.s3.toNat = n
  split <;> first
    | rfl
    | exact map_need _ _ _
    | (split <;> first | rfl | contradiction)

theorem fast19_eq (f : Fields) (s : State) : (decode19 f).map (fun i => exec i s) = fast19 f s := by
  unfold decode19 fast19
  generalize f.s3.toNat = n
  split <;> first
    | rfl
    | exact map_need _ _ _
    | (split <;> first | rfl | contradiction)

theorem fast20_eq (f : Fields) (s : State) : (decode20 f).map (fun i => exec i s) = fast20 f s := by
  unfold decode20 fast20
  generalize f.s3.toNat = n
  split <;> first
    | rfl
    | exact map_need _ _ _
    | (split <;> first | rfl | contradiction)

theorem fast25_eq (f : Fields) (s : State) : (decode25 f).map (fun i => exec i s) = fast25 f s := by
  unfold decode25 fast25
  generalize f.s3.toNat = n
  split <;> first
    | rfl
    | exact map_need _ _ _
    | (split <;> first | rfl | contradiction)

theorem fast27_eq (f : Fields) (s : State) : (decode27 f).map (fun i => exec i s) = fast27 f s := by
  unfold decode27 fast27
  simp only [map_orElse, map_need]
  rfl

theorem fast2A_eq (f : Fields) (s : State) : (decode2A f).map (fun i => exec i s) = fast2A f s := by
  unfold decode2A fast2A
  simp only [map_orElse, map_need]
  rfl

theorem fast2B_eq (f : Fields) (s : State) : (decode2B f).map (fun i => exec i s) = fast2B f s := by
  unfold decode2B fast2B
  simp only [map_orElse, map_need]
  rfl

theorem fast2E_eq (f : Fields) (s : State) : (decode2E f).map (fun i => exec i s) = fast2E f s := by
  unfold decode2E fast2E
  generalize f.s3.toNat = n
  split <;> first
    | rfl
    | exact map_need _ _ _
    | (split <;> first | rfl | contradiction)

theorem fast2F_eq (f : Fields) (s : State) : (decode2F f).map (fun i => exec i s) = fast2F f s := by
  unfold decode2F fast2F
  generalize f.s3.toNat = n
  split <;> first
    | rfl
    | exact map_need _ _ _
    | (split <;> first | rfl | contradiction)

theorem fast30_eq (f : Fields) (s : State) : (decode30 f).map (fun i => exec i s) = fast30 f s := by
  unfold decode30 fast30
  split <;> exact map_need _ _ _

theorem fast31_eq (f : Fields) (s : State) : (decode31 f).map (fun i => exec i s) = fast31 f s := by
  unfold decode31 fast31
  split <;> exact map_need _ _ _

theorem fast32_eq (f : Fields) (s : State) : (decode32 f).map (fun i => exec i s) = fast32 f s := by
  unfold decode32 fast32
  generalize f.s3.toNat = n
  split <;> first
    | rfl
    | exact map_need _ _ _
    | (split <;> first | rfl | contradiction)

theorem fast34_eq (f : Fields) (s : State) : (decode34 f).map (fun i => exec i s) = fast34 f s := by
  unfold decode34 fast34
  generalize f.s3.toNat = n
  split <;> first
    | rfl
    | exact map_need _ _ _
    | (split <;> first | rfl | contradiction)

theorem fast35_eq (f : Fields) (s : State) : (decode35 f).map (fun i => exec i s) = fast35 f s := by
  unfold decode35 fast35
  generalize f.s3.toNat = n
  split <;> first
    | rfl
    | exact map_need _ _ _
    | (split <;> first | rfl | contradiction)

theorem fast39_eq (f : Fields) (s : State) : (decode39 f).map (fun i => exec i s) = fast39 f s := by
  unfold decode39 fast39
  generalize f.s3.toNat = n
  split <;> first
    | rfl
    | exact map_need _ _ _
    | (split <;> first | rfl | contradiction)

theorem fast3A_eq (f : Fields) (s : State) : (decode3A f).map (fun i => exec i s) = fast3A f s := by
  unfold decode3A fast3A
  generalize f.s3.toNat = n
  split <;> first
    | rfl
    | exact map_need _ _ _
    | (split <;> first | rfl | contradiction)

theorem fast3B_eq (f : Fields) (s : State) : (decode3B f).map (fun i => exec i s) = fast3B f s := by
  unfold decode3B fast3B
  generalize f.s3.toNat = n
  split <;> first
    | rfl
    | exact map_need _ _ _
    | (split <;> first | rfl | contradiction)

theorem fast3C_eq (f : Fields) (s : State) : (decode3C f).map (fun i => exec i s) = fast3C f s := by
  unfold decode3C fast3C
  generalize f.s3.toNat = n
  split <;> first
    | rfl
    | exact map_need _ _ _
    | (split <;> first | rfl | contradiction)

theorem fast3D_eq (f : Fields) (s : State) : (decode3D f).map (fun i => exec i s) = fast3D f s := by
  unfold decode3D fast3D
  generalize f.s3.toNat = n
  split <;> first
    | rfl
    | exact map_need _ _ _
    | (split <;> first | rfl | contradiction)

theorem fast3E_eq (f : Fields) (s : State) : (decode3E f).map (fun i => exec i s) = fast3E f s := by
  unfold decode3E fast3E
  generalize f.s3.toNat = n
  split <;> first
    | rfl
    | exact map_need _ _ _
    | (split <;> first | rfl | contradiction)

theorem fast3F_eq (f : Fields) (s : State) : (decode3F f).map (fun i => exec i s) = fast3F f s := by
  unfold decode3F fast3F
  simp only [map_orElse, map_need]
  rfl

theorem fastFields_eq (f : Fields) (s : State) :
    (decodeFields f).map (fun i => exec i s) = fastFields f s := by
  unfold decodeFields fastFields
  generalize f.op.toNat = n
  split
  · exact fast01_eq _ _
  · exact fast02_eq _ _
  · rfl
  · rfl
  · exact map_need _ _ _
  · rfl
  · exact map_need _ _ _
  · rfl
  · exact fast09_eq _ _
  · exact fast0A_eq _ _
  · rfl
  · rfl
  · rfl
  · rfl
  · rfl
  · exact fast15_eq _ _
  · exact fast16_eq _ _
  · exact fast17_eq _ _
  · exact fast18_eq _ _
  · exact fast19_eq _ _
  · exact map_need _ _ _
  · exact map_need _ _ _
  · exact fast20_eq _ _
  · exact map_need _ _ _
  · exact map_need _ _ _
  · exact fast25_eq _ _
  · exact map_need _ _ _
  · exact fast27_eq _ _
  · exact map_need _ _ _
  · exact map_need _ _ _
  · exact fast2A_eq _ _
  · exact fast2B_eq _ _
  · exact map_need _ _ _
  · exact map_need _ _ _
  · exact fast2E_eq _ _
  · exact fast2F_eq _ _
  · exact fast30_eq _ _
  · exact fast31_eq _ _
  · exact fast32_eq _ _
  · exact map_need _ _ _
  · exact fast34_eq _ _
  · exact fast35_eq _ _
  · exact map_need _ _ _
  · exact map_need _ _ _
  · exact map_need _ _ _
  · exact fast39_eq _ _
  · exact fast3A_eq _ _
  · exact fast3B_eq _ _
  · exact fast3C_eq _ _
  · exact fast3D_eq _ _
  · exact fast3E_eq _ _
  · exact fast3F_eq _ _
  · first
      | rfl
      | (split <;> first | rfl | contradiction)

/-- A word executed, from its fields. -/
def runFast (w : Word) (s : State) : Out := (fastFields (Fields.unpack w) s).getD (execUnassignedWord w s)

@[csimp] theorem runDecoded_eq : @runDecoded = @runFast := by
  funext w s
  unfold runDecoded runFast decode
  rw [← fastFields_eq]
  cases decodeFields (Fields.unpack w) <;> rfl

/-! ### Turns -/

/-- The group in a slot executes its next word; where that would be the 25th word of a run, it is not fetched, and its
threads raise ILLEGAL-INSTRUCTION there (R29). -/
def runWord (core slot : Nat) (s : State) : Out :=
  if !s.works then .next s
  else
    let s1 := atSlot core slot s
    match s1.ctx? with
    | none => .next s1
    | some c =>
      if Config.runWords ≤ c.g.count then .next (trapAll c .illegalInstruction c.addr s1)
      else
        match fetchWord s1 c with
        | .ok w => runDecoded (BitVec.ofNat 32 w) (fetched c s1)
        | r => .next (fetchFails c r s1)

/-- A step of the device that no word encodes. -/
def runEvent (i : Instr) (s : State) : Out :=
  match i with
  | .unassignedWord _ => .next s
  | i => if i.isWord then .next s else exec i s

/-- What a turn does to memory and to the units. -/
def runTurn (t : Turn) (s : State) : Out :=
  match t with
  | .word core slot => runWord core slot s
  | .endCycle core => if s.works then .next (endCycle core s) else .next s
  | .event i => runEvent i s

/-- Whether a turn brings descriptors back with the page tables (R385). -/
def Turn.restores : Turn → Bool
  | .event (.checkpointRestore _ _) => true
  | _ => false

/-- What a turn from `before` leaves: pages that the tables mark typed after it and did not before are newly typed,
whoever wrote the tables (R61, R191). -/
def typedOut (before : State) (r : Out) : Out :=
  match r with
  | .next s => .next (before.freshTyped s)
  | r => r

/-- One turn. -/
def turn (t : Turn) (s : State) : Out := if t.restores then runTurn t s else typedOut s (runTurn t s)

/-! ### The model's own choice (log 2) -/

/-- The core that moves next: of those with a resident crew, the one whose counter is least. -/
def ownCore (s : State) : Option Nat :=
  let cores := ((s.crews.filter fun (cr : Crew) => cr.resident).map fun (cr : Crew) => cr.core).dedup
  cores.foldl (fun (m : Option Nat) c =>
    match m with
    | none => some c
    | some d => if (s.core c).lclk.toNat < (s.core d).lclk.toNat then some c else some d) none

/-- A thread that is to be held (R363). -/
def ownHeld (s : State) : Option (Nat × Nat) :=
  s.crews.zipIdx.findSome? fun x =>
    if x.1.resident then
      (x.1.lanes.findIdx? fun (l : Lane) => l.thread?.any fun t => t.run == .trapping).map fun li => (x.2, li)
    else none

/-- The slot that the picker fills next, while a thread is ready (R165). -/
def ownPick (s : State) (core : Nat) : Option Nat :=
  if (readyOn s core).isEmpty || (s.core core).lastSlot.isSome then none
  else (s.core core).slots.findIdx? fun g => g.isNone

/-- The next slot of the cycle that holds a group. -/
def ownWord (s : State) (core : Nat) : Option Nat :=
  (List.range Config.slots).find? fun k =>
    (s.group? core k).isSome && (s.core core).lastSlot.all fun l => decide (l < k)

/-- A wait of a thread that another's word has met: a monitor, a mailbox, a gang barrier. -/
def ownWake (s : State) : Option Turn :=
  let run (c l : Nat) : Option RunState := (s.thread? c l).map Thread.run
  match s.monitors.find? fun (m : Monitor) => m.got.isSome && run m.crew m.lane == some (.parked .monitor) with
  | some m => some (.event (.monitorWake m.crew m.lane))
  | none =>
    let parked := s.crews.zipIdx.flatMap fun (x : Crew × Nat) => (List.range x.1.lanes.length).map fun l => (x.2, l)
    match parked.find? fun x =>
      match run x.1 x.2 with
      | some (.parked (.mailbox a k put msg _ _)) => (mboxTry x.1 a.toNat k put msg s).isSome
      | _ => false with
    | some x => some (.event (.mailboxWaitMet x.1 x.2))
    | none =>
      s.gangs.findSome? fun (g : Gang) =>
        ((List.range Config.barriers).find? fun bar => gangDue s g bar).map fun bar =>
          Turn.event (.gangBarrierComplete g.grid g.index bar)

/-- The turn that the model takes when the agenda names none: results arrive, trapped threads are held, moves
complete, waits that are met end; then the core with the least counter picks a group, executes a word, or ends
its cycle. -/
def ownTurn (s : State) : Option Turn :=
  if !s.works then none
  else if !s.arrivals.isEmpty then some (.event (.loadDataArrival 0))
  else
    match ownHeld s with
    | some (c, l) => some (.event (.trapHeld c l))
    | none =>
      match s.crews.findIdx? fun (cr : Crew) => cr.resident && !cr.moving.isEmpty with
      | some c => some (.event (.joinerMovesComplete c))
      | none =>
        match ownWake s with
        | some t => some t
        | none =>
          match ownCore s with
          | none => none
          | some core =>
            match ownPick s core with
            | some k => some (.event (.pickGroup core k))
            | none =>
              match ownWord s core with
              | some k => some (.word core k)
              | none => some (.endCycle core)

/-! ### A program placed from outside (log 32) -/

/-- The virtual address of a word that is placed. -/
def wordVa : Nat := 0x1000

/-- Page tables that map the first 2 MiB of virtual space to the physical 2 MiB at 0x200000, writable and
executable (R189, R190). -/
def wordTables : List (Nat × Nat) :=
  [(0x10000, 0x20001), (0x20000, 0x30001), (0x30000, 0x40001), (0x40000, 0x20001B)]

/-- The launch packet of the crew that executes it: C 56, T 1, UC 32, one thread, one crew; 64 KiB of scratchpad, a
copy queue, tiles, barriers, monitors, lines and granules (R335). -/
def wordPacket : BitVec 512 :=
  BitVec.ofNat 512 (2 ^ 60 + wordVa + 32 * 2 ^ 64 + 1 * 2 ^ 70 + 6 * 2 ^ 73 + 1 * 2 ^ 104 + 16 * 2 ^ 130 + 8 * 2 ^ 143 +
    64 * 2 ^ 152 + 8 * 2 ^ 159 + 2 * 2 ^ 168 + 65536 * 2 ^ 172 + 4 * 2 ^ 247)

/-- The context of its partition: PTROOT and cluster 0 (R389). -/
def wordContext : BitVec 1024 := BitVec.ofNat 1024 (0x10000 + 2 ^ 64)

/-- The state whose next step fetches and executes a word of `nbits` bits. -/
def loadWord (_nbits w : Nat) (s : State) : State :=
  let ci := s.crews.length
  let gi := s.grids.length
  let k := s.gangs.length
  let mem := (wordTables.foldl (fun m x => Memory.write m x.1 (leBytes 8 x.2)) s.mem).write (0x200000 + wordVa) (leBytes 4 w)
  let g : Grid := ⟨wordPacket, s.taken, 0, 0, none, .live, 1, mem⟩
  let cr := (State.newCrew g gi 0 k 0).start 0 0 (List.replicate 32 0)
  let run : List Lane := cr.lanes.modify 0 fun l => l.updThread fun t => { t with run := .running }
  let lanes : List LaneRef :=
    ⟨.active, 0⟩ :: (List.range 3).map (fun i => ⟨.helper, i + 1⟩) ++ List.replicate 12 ⟨.empty, 0⟩
  let grp : Group := ⟨ci, BitVec.ofNat 56 wordVa, 0, lanes, List.replicate 16 [], Bundle.empty⟩
  { s with
    agenda := .word 0 0 :: s.agenda
    mem := mem
    codeMem := mem
    cores := s.cores.modify 0 fun co => { co with slots := co.slots.set 0 (some grp), lastSlot := none }
    crews := s.crews ++ [{ cr with lanes := run, lanesOld := run }]
    gangs := s.gangs ++ [⟨gi, 0, [ci], 0, s.orderNext, 0, true, true⟩]
    grids := s.grids ++ [g]
    parts := ⟨wordContext, true, [], [], 0, 0, 0, none⟩ :: s.parts.drop 1
    module := { s.module with state := .operational, tripped := false } }

end Sys2Proof.Machine
end

