-- ==== Sys2Proof/Machine/Step.lean ====
section
/-!
DEFINITION. One step of the device, and the machine that executes a given word next.
-/

namespace Sys2Proof.Machine

open Sys2Proof

/-- A step: the first turn of the agenda, or the model's own choice; nothing happens where no turn is left. -/
def step (s : State) : Host.Outcome State Fault Refusal :=
  match s.agenda with
  | t :: r => turn t { s with agenda := r }
  | [] =>
    match ownTurn s with
    | some t => turn t s
    | none => .next s

/-- `s` with a word stored where the next step fetches: a crew of one thread is placed on core 0 of partition 0,
whose page tables map the word's page, and its group holds slot 0. -/
def State.withFetchWord (s : State) (nbits w : Nat) : State := loadWord nbits w s

end Sys2Proof.Machine
end

