-- ==== Sys2Proof/Safety.lean ====
section
/-!
DEFINITION. What counts as an undisturbed execution of a word, and the state that such an execution leaves: the terms
in which the claims are stated.
-/

namespace Sys2Proof

/-- What the frame checks of a word (R29, R30, R98, R99). -/
def Instr.info (i : Instr) : Machine.WordInfo := ⟨i.last, i.uses, i.legal⟩

/-- The hint words, of format FH (R90). -/
def Instr.isHint (i : Instr) : Bool :=
  match i with
  | .himm _ => true
  | .hsel _ _ => true
  | .hgrd _ _ => true
  | .hrnd _ => true
  | .hscp _ => true
  | .hcch _ => true
  | .hsch _ => true
  | _ => false

/-- A word that works in its lanes, its crew and its issue slot alone: every word that reaches no memory, no tile, no
engine, no wait of other threads and no queue. -/
def Instr.inLanes (i : Instr) : Bool :=
  match i with
  | .ld _ _ _ _ _ => false
  | .st _ _ _ _ _ => false
  | .ldt _ _ _ _ _ _ => false
  | .stt _ _ _ _ _ _ => false
  | .ldd _ _ _ _ _ => false
  | .std _ _ _ _ _ => false
  | .lds _ _ _ _ _ => false
  | .sts _ _ _ _ _ => false
  | .bhdrRd _ _ _ => false
  | .bhdrWr _ _ _ => false
  | .pref _ _ _ => false
  | .tset _ _ _ => false
  | .tsetClr _ _ => false
  | .tstat _ _ _ _ => false
  | .atom _ _ _ _ _ _ _ => false
  | .atomFadd _ _ _ _ _ _ => false
  | .atoms _ _ _ _ _ _ _ => false
  | .atomsFadd _ _ _ _ _ _ => false
  | .acq _ _ _ => false
  | .rel _ _ _ => false
  | .fence _ => false
  | .bind _ _ _ _ => false
  | .bindClr _ _ _ => false
  | .mwait _ _ _ _ _ _ => false
  | .barArv _ _ _ _ _ => false
  | .barWt _ _ => false
  | .barSyn _ _ => false
  | .gbar _ => false
  | .mbput _ _ => false
  | .mbtake _ _ => false
  | .xq _ => false
  | .xqn _ => false
  | .mmissue _ => false
  | .accsv _ _ _ => false
  | .accld _ _ _ => false
  | .trace _ _ _ => false
  | .tracep _ _ _ => false
  | .xpair _ => false
  | .tres _ _ _ => false
  | .tresAcc _ _ _ => false
  | .tresTerm _ _ _ => false
  | .reproj _ => false
  | .fetchw _ _ _ => false
  | .launch _ _ _ => false
  | i => i.isWord

namespace Machine

/-- A word may have its effect: a group holds the current slot, none of the conditions 1-4 of R99 holds, and no
register it names awaits a result (R31). -/
structure WordReady (i : Instr) (s : State) (c : Ctx) : Prop where
  here : s.ctx? = some c
  checks : wordTrap i.info c = none
  flows : stalls i.info s c = false

/-- The lanes that hold a thread or a helper stand at different places (R27). -/
def Ctx.distinct (c : Ctx) : Bool :=
  (List.range c.g.lanes.length).all fun t => (List.range c.g.lanes.length).all fun u =>
    t == u || c.place t != c.place u || !(c.kind t == .active || c.kind t == .helper) ||
      !(c.kind u == .active || c.kind u == .helper)

/-! ### The state that a word leaves, where its whole effect lies in the lanes of its group -/

/-- The lane at place `p` after a word: a thread that takes part in the last word of a run stands at the next word;
`eff` acts on the lane; and a thread that has not left is then between runs (R31, R34). -/
def laneAfter (s : State) (c : Ctx) (last : Bool) (eff : Nat → Lane → Lane) (leaves : Nat → Bool) (p : Nat) (l : Lane) :
    Lane :=
  match c.laneOf p with
  | none => l
  | some u =>
    let l1 := eff u (if last && c.takesPart u then l.updThread fun th => { th with pc := c.next } else l)
    if last && c.takesPart u && !leaves u then
      l1.updThread fun th => { th with run := if s.outstanding c.ci p then .waiting else .waking none }
    else l1

/-- The slot after a word: free after the last word of the run, and once no thread is left in the group; else the
group stands at the next word, with an empty bundle and what the word pushed (R31, R32, R94). -/
def groupAfter (c : Ctx) (last : Bool) (leaves : Nat → Bool) (pushed : Nat → Option Val) : Option Group :=
  let lanes := c.g.lanes.mapIdx fun u r => if leaves u then { r with kind := .gone } else r
  if last || !lanes.any (fun r => r.kind == .active) then none
  else
    some { c.g with
      addr := c.g.addr + 4
      count := c.g.count + 1
      bundle := Bundle.empty
      lanes := lanes
      latch := c.g.latch.mapIdx fun u vs =>
        match pushed u with
        | some v => pushLatch v vs
        | none => vs }

/-- The state after a word: the lanes of its crew and its slot change, and nothing else. -/
def wordAfter (s : State) (c : Ctx) (last : Bool) (eff : Nat → Lane → Lane) (leaves : Nat → Bool)
    (pushed : Nat → Option Val) : State :=
  { s with
    cores := s.cores.modify c.core fun k => { k with slots := k.slots.set c.slot (groupAfter c last leaves pushed) }
    crews := s.crews.modify c.ci fun cr => { cr with lanes := cr.lanes.mapIdx (laneAfter s c last eff leaves) } }

/-- No lane leaves. -/
def nobody (_ : Nat) : Bool := false

/-- A result in each executing lane, written unless N, with the flags it raises (R87, R101). -/
def resultLane (c : Ctx) (n : Bool) (d : Code) (val : Nat → Val) (flags : Nat → BitVec 6) (u : Nat) (l : Lane) : Lane :=
  if c.exec u then (if n then l else l.writeV d.toNat (val u)).setFlags (flags u) else l

/-- What a word with a result pushes: the result where the lane executes, D's current value where it is guarded off
(R32, R93). -/
def resultPush (c : Ctx) (wide n : Bool) (d : Code) (val : Nat → Val) (u : Nat) : Option Val :=
  if c.exec u then some (val u) else if c.guardedOff u then some (c.stays wide n d u) else none

/-- The state after a word with a V result. -/
def vecAfter (s : State) (c : Ctx) (last n : Bool) (d : Code) (wide : Bool) (val : Nat → Val) (flags : Nat → BitVec 6) :
    State :=
  wordAfter s c last (resultLane c n d val flags) nobody (resultPush c wide n d val)

/-- The state after a word with a Q result, which pushes nothing (R146). -/
def quietAfter (s : State) (c : Ctx) (last : Bool) (d : Code) (q : Nat → Reg) (flags : Nat → BitVec 6) : State :=
  wordAfter s c last (fun u l => if c.exec u then (l.setQ d.toNat (q u)).setFlags (flags u) else l) nobody fun _ => none

/-- A narrow or wide integer result: zero tangents (R113). -/
def Ctx.w32 (c : Ctx) (x : Word) : Val := .plain false c.t (x.zeroExtend 64)
def Ctx.w64 (c : Ctx) (x : Dword) : Val := .plain true c.t x

/-- Whether some lane of the group is active and passes the guard (R125). -/
def Ctx.someActive (c : Ctx) : Bool := (List.range 16).any fun t => c.active t

/-- The state after a uniform operation (R125). -/
def uniformAfter (s : State) (c : Ctx) (last : Bool) (d : Code) (x : Dword) : State :=
  wordAfter (s.updCrew c.ci fun cr => { cr with u := cr.u.set d.toNat x }) c last (fun _ l => l) nobody fun _ => none

/-- The value of a floating-point word (R133): its primal, and in each tangent the canonical NaN where the primal is a
NaN. -/
def Ctx.floatVal (c : Ctx) (F : FTy) (f : Num.FFun) (xs : List Num.FOp) : Val :=
  let y := (Num.fprim f F.fmt c.mode c.nbv xs).1
  ⟨F.ty.wide, BitVec.ofNat 64 y, (List.range c.t).map fun k =>
    BitVec.ofNat 64 (if Num.isNaNEnc F.fmt y then Num.canonNaN F.tfmt else Num.ftan f F.tfmt c.mode xs k)⟩

def Ctx.floatFlags (c : Ctx) (F : FTy) (f : Num.FFun) (xs : List Num.FOp) : BitVec 6 :=
  (Num.fprim f F.fmt c.mode c.nbv xs).2.toBits

/-- Half `h` of a packed word's result in lane `t` (R48, R131). -/
def Ctx.packedHalf (c : Ctx) (f : Num.FFun) (t : Nat) (xs : List Code) (h : Nat) : Nat × Num.Flags :=
  Num.fprim f Num.fp16 c.mode c.nbv (xs.map fun x => half h (c.opnd t .f16x2 x))

def Ctx.packedVal (c : Ctx) (f : Num.FFun) (t : Nat) (xs : List Code) : Val :=
  .plain false c.t (BitVec.ofNat 64 ((c.packedHalf f t xs 0).1 + 2 ^ 16 * (c.packedHalf f t xs 1).1))

def Ctx.packedFlags (c : Ctx) (f : Num.FFun) (t : Nat) (xs : List Code) : BitVec 6 :=
  (c.packedHalf f t xs 0).2.toBits ||| (c.packedHalf f t xs 1).2.toBits

/-- The state after a draw whose value is the word's result (R161, R163). -/
def drawAfter (s : State) (c : Ctx) (last n : Bool) (d : Code) (wide : Bool) (val : Nat → Val) : State :=
  wordAfter s c last (fun t l =>
    if c.exec t then
      { (if n then l else l.writeV d.toNat (val t)) with key := (c.lane t).key, ctr := (c.lane t).ctr + 1 }
    else if c.guardedOff t then { l with ctr := l.ctr + 1 } else l) nobody (resultPush c wide n d val)

/-- What a word does to the threads of its active lanes. -/
def Ctx.moveLane (c : Ctx) (f : Nat → Thread → Thread) (t : Nat) (l : Lane) : Lane :=
  if c.active t then l.updThread (f t) else l

/-- A target that steps 1 and 2 of R171 accept. -/
def goodTarget (x : Dword) : Prop := bitsOf x 1 0 = 0 ∧ bitsOf x 63 56 = 0

/-- Every active lane holds a thread whose call depth is as said. -/
def Ctx.stackHas (c : Ctx) (p : Nat → Prop) : Prop :=
  ∀ t, c.active t = true → ∀ th, (c.lane t).thread? = some th → p th.depth

/-- Every active lane holds a thread. -/
def Ctx.allThreads (c : Ctx) : Bool := (List.range 16).all fun t => !c.active t || (c.lane t).thread?.isSome

/-- The active lanes that hold a thread. -/
def Ctx.livesActive (c : Ctx) (t : Nat) : Bool := c.active t && (c.lane t).thread?.isSome

/-- The crew's batch once the active threads have joined it, in ascending lanes (R176). -/
def Ctx.joined (c : Ctx) (now : Nat) (x : Nat → Gathered) : Batch :=
  let news := ((List.range 16).filter c.active).map x
  match c.cr.batch with
  | none => ⟨now, news⟩
  | some b => { b with threads := b.threads ++ news }

/-- The state after a hint (R90): its group stands at the next word of the bundle. -/
def hintAfter (s : State) (c : Ctx) (put : Bundle → Bundle) : State :=
  s.updGroup c.core c.slot fun g =>
    { g with addr := g.addr + 4, count := g.count + 1
             bundle := put { g.bundle with first := some c.start, himmLast := false } }

/-! ### Words that take effect lane by lane -/

/-- The state that lane `t` of a word meets: the lower lanes of the set have had their effect (R102). -/
def metBy (c : Ctx) (last : Bool) (p : Nat → Bool) (put : Nat → State → State) (s : State) (t : Nat) : State :=
  ((List.range t).filter p).foldl (fun s u => put u s) (if last then setPcs c s else s)

/-- The state after a word whose lanes have their effects one after another, in ascending order. -/
def byLanes (c : Ctx) (last : Bool) (p : Nat → Bool) (put : Nat → State → State) (s : State) : State :=
  finish last (metBy c last p put s 16)

/-- The crew's accesses meet no Plumb, no replay of a fault and no held window access (R235, R205, R198). -/
structure PlainAccess (s : State) (c : Ctx) : Prop where
  watch : bitsOf c.cr.mode 4 3 = 0
  faults : (s.core c.cr.core).faults = []
  held : ∀ t th, (c.lane t).thread? = some th → th.held = []

/-- The lanes whose threads store: a helper stores nothing (R28). -/
def Ctx.stores (c : Ctx) (t : Nat) : Bool := c.exec t && (c.lane t).thread?.isSome

/-- An aligned address in global memory that a page admits. -/
def reaches (s : State) (c : Ctx) (a size : Nat) (q : Ask) (g : Page) : Prop :=
  a % size = 0 ∧ a < 2 ^ 56 ∧ isWindow a = false ∧ s.xlat c.cr.part a q = .ok g

/-- Whether physical address `z` is one of the `n` bytes at a page's address, in any copy of a replicated page. -/
def Page.covers (g : Page) (n z : Nat) : Prop :=
  if g.replicated then ∃ d < Config.dies, g.pa + d * Config.dieStride ≤ z ∧ z < g.pa + d * Config.dieStride + n
  else g.pa ≤ z ∧ z < g.pa + n

/-- What a word never touches that takes effect in its crew, its core and memory alone. -/
def sameDevice (s s' : State) : Prop :=
  s'.clusters = s.clusters ∧ s'.gangs = s.gangs ∧ s'.grids = s.grids ∧ s'.graphs = s.graphs ∧ s'.copies = s.copies ∧
  s'.rays = s.rays ∧ s'.xpairs = s.xpairs ∧ s'.colls = s.colls ∧ s'.gens = s.gens ∧ s'.queues = s.queues ∧
  s'.parts = s.parts ∧ s'.vfs = s.vfs ∧ s'.module = s.module ∧ s'.tiers = s.tiers ∧ s'.out = s.out ∧
  s'.regWrites = s.regWrites ∧ s'.moves = s.moves ∧ s'.trapActions = s.trapActions ∧ s'.codeMem = s.codeMem ∧
  s'.collSeqs = s.collSeqs ∧ s'.collEarly = s.collEarly ∧ s'.rung = s.rung ∧ s'.tails = s.tails ∧ s'.retiring = s.retiring

/-- Memory and block descriptors have their canonical form. -/
def State.formed (s : State) : Prop := s.mem.wf = true ∧ Sparse.wf s.desc = true

/-- No flag raised. -/
def noFlags (_ : Nat) : BitVec 6 := 0

end Machine

end Sys2Proof
end

