-- ==== Sys2Proof/Certificates/Slice0/Obligations.lean ====
section
/-!
DEFINITION. The claims: what the spec's numbered rules say of the device, as propositions about the model.
-/

open Sys2Proof Sys2Proof.Machine
open Sys2Proof.Num (XR FFun roundX decodeF canonNaN isNaNEnc isSNaN toInteger fp32 fp64)


/-! ### Words whose whole effect lies in the lanes of their group -/

/-- R111, R112, R113: the 32-bit integer and logic forms of two sources. R111, R112, R113: the .64 forms; a shift count is
32 bits, and the counts of bits are 32-bit results. R111, R113: the saturating forms clamp the exact sum or difference,
and raise saturation where the clamp changed it. -/
def Obligations.IntegerResults : Prop :=
  (∀ p ∈ [(Instr.iadd, fun (x y : Word) => x + y), (.isub, fun x y => x - y), (.imul, fun x y => x * y),
        (.imulh, fun x y => BitVec.ofInt 32 (x.toInt * y.toInt / 2 ^ 32)),
        (.imulhU, fun x y => BitVec.ofNat 32 (x.toNat * y.toNat / 2 ^ 32)),
        (.imin, fun x y => BitVec.ofInt 32 (min x.toInt y.toInt)), (.iminU, fun x y => BitVec.ofNat 32 (min x.toNat y.toNat)),
        (.imax, fun x y => BitVec.ofInt 32 (max x.toInt y.toInt)), (.imaxU, fun x y => BitVec.ofNat 32 (max x.toNat y.toNat)),
        (.land, fun x y => x &&& y), (.lor, fun x y => x ||| y), (.lxor, fun x y => x ^^^ y),
        (.shl, fun x y => x <<< y.toNat), (.shr, fun x y => x >>> y.toNat),
        (.sar, fun x y => x.sshiftRight (min y.toNat 31)), (.rot, fun x y => x.rotateLeft (y.toNat % 32))],
    ∀ b n d x y s c, WordReady (p.1 b n d x y) s c →
      exec (p.1 b n d x y) s = .next (vecAfter s c b n d false (fun t => c.w32 (p.2 (c.r32 t x) (c.r32 t y))) noFlags)) ∧
  (∀ p ∈ [(Instr.ineg, fun (x : Word) => -x), (.iabs, fun x => BitVec.ofInt 32 |x.toInt|), (.lnot, fun x => ~~~x),
        (.popc, fun x => BitVec.ofNat 32 (popc x)), (.clz, fun x => BitVec.ofNat 32 (clz x)),
        (.ctz, fun x => BitVec.ofNat 32 (ctz x)), (.brev, fun x => x.reverse)],
    ∀ b n d x s c, WordReady (p.1 b n d x) s c →
      exec (p.1 b n d x) s = .next (vecAfter s c b n d false (fun t => c.w32 (p.2 (c.r32 t x))) noFlags)) ∧
  (∀ b n d x s c, WordReady (.mov b n d x) s c →
    exec (.mov b n d x) s = .next (vecAfter s c b n d false (fun t => c.opnd t .i32 x) noFlags)) ∧
  (∀ p ∈ [(Instr.iadd64, fun (x y : Dword) => x + y), (.isub64, fun x y => x - y), (.imul64, fun x y => x * y),
        (.imulh64, fun x y => BitVec.ofInt 64 (x.toInt * y.toInt / 2 ^ 64)),
        (.imulhU64, fun x y => BitVec.ofNat 64 (x.toNat * y.toNat / 2 ^ 64)),
        (.imin64, fun x y => BitVec.ofInt 64 (min x.toInt y.toInt)), (.iminU64, fun x y => BitVec.ofNat 64 (min x.toNat y.toNat)),
        (.imax64, fun x y => BitVec.ofInt 64 (max x.toInt y.toInt)), (.imaxU64, fun x y => BitVec.ofNat 64 (max x.toNat y.toNat)),
        (.land64, fun x y => x &&& y), (.lor64, fun x y => x ||| y), (.lxor64, fun x y => x ^^^ y)],
    ∀ b n d x y s c, WordReady (p.1 b n d x y) s c →
      exec (p.1 b n d x y) s =
        .next (vecAfter s c b n d true (fun t => c.w64 (p.2 (c.prim t .i64 x) (c.prim t .i64 y))) noFlags)) ∧
  (∀ p ∈ [(Instr.shl64, fun (x : Dword) k => x <<< k), (.shr64, fun x k => x >>> k),
        (.sar64, fun x k => x.sshiftRight (min k 63)), (.rot64, fun x k => x.rotateLeft (k % 64))],
    ∀ b n d x y s c, WordReady (p.1 b n d x y) s c →
      exec (p.1 b n d x y) s =
        .next (vecAfter s c b n d true (fun t => c.w64 (p.2 (c.prim t .i64 x) (c.r32 t y).toNat)) noFlags)) ∧
  (∀ p ∈ [(Instr.ineg64, fun (x : Dword) => -x), (.iabs64, fun x => BitVec.ofInt 64 |x.toInt|), (.lnot64, fun x => ~~~x),
        (.brev64, fun x => x.reverse)],
    ∀ b n d x s c, WordReady (p.1 b n d x) s c →
      exec (p.1 b n d x) s = .next (vecAfter s c b n d true (fun t => c.w64 (p.2 (c.prim t .i64 x))) noFlags)) ∧
  (∀ p ∈ [(Instr.popc64, fun (x : Dword) => popc x), (.clz64, fun x => clz x), (.ctz64, fun x => ctz x)],
    ∀ b n d x s c, WordReady (p.1 b n d x) s c →
      exec (p.1 b n d x) s =
        .next (vecAfter s c b n d false (fun t => c.w32 (BitVec.ofNat 32 (p.2 (c.prim t .i64 x)))) noFlags)) ∧
  (∀ b n d x s c, WordReady (.mov64 b n d x) s c →
    exec (.mov64 b n d x) s = .next (vecAfter s c b n d true (fun t => c.opnd t .i64 x) noFlags)) ∧
  (∀ p ∈ [(Instr.iaddSat, fun (x y : Word) => x.toInt + y.toInt, (-2 ^ 31 : Int), (2 ^ 31 - 1 : Int)),
        (.isubSat, fun x y => x.toInt - y.toInt, -2 ^ 31, 2 ^ 31 - 1),
        (.iaddUsat, fun x y => x.toNat + y.toNat, 0, 2 ^ 32 - 1), (.isubUsat, fun x y => x.toNat - y.toNat, 0, 2 ^ 32 - 1)],
    ∀ b n d x y s c, WordReady (p.1 b n d x y) s c →
      exec (p.1 b n d x y) s = .next (vecAfter s c b n d false
        (fun t => c.w32 (BitVec.ofInt 32 (max p.2.2.1 (min p.2.2.2 (p.2.1 (c.r32 t x) (c.r32 t y))))))
        (fun t => flagIf (decide (p.2.1 (c.r32 t x) (c.r32 t y) < p.2.2.1 ∨ p.2.2.2 < p.2.1 (c.r32 t x) (c.r32 t y)))
          flagSaturation))) ∧
  (∀ p ∈ [(Instr.iaddSat64, fun (x y : Dword) => x.toInt + y.toInt, (-2 ^ 63 : Int), (2 ^ 63 - 1 : Int)),
        (.isubSat64, fun x y => x.toInt - y.toInt, -2 ^ 63, 2 ^ 63 - 1),
        (.iaddUsat64, fun x y => x.toNat + y.toNat, 0, 2 ^ 64 - 1), (.isubUsat64, fun x y => x.toNat - y.toNat, 0, 2 ^ 64 - 1)],
    ∀ b n d x y s c, WordReady (p.1 b n d x y) s c →
      exec (p.1 b n d x y) s = .next (vecAfter s c b n d true
        (fun t => c.w64 (BitVec.ofInt 64 (max p.2.2.1 (min p.2.2.2 (p.2.1 (c.prim t .i64 x) (c.prim t .i64 y))))))
        (fun t => flagIf (decide (p.2.1 (c.prim t .i64 x) (c.prim t .i64 y) < p.2.2.1 ∨
          p.2.2.2 < p.2.1 (c.prim t .i64 x) (c.prim t .i64 y))) flagSaturation)))

/-- R114, R115, R116, R118, R119: IMAD, MOVI, LEA, BFI and the bit-field forms. R111, R113, R119: what the counts and
fills of bits are, at either width. POPC counts the set bits; CLZ and CTZ give the first set bit from either end, and the
width for zero; a BFX field has its low bits, above them zeros or copies of its top bit; BFPL sets exactly the lowest clear
bits, as many as the population lacks. -/
def Obligations.BitFieldResults : Prop :=
  (∀ b n d x y z s c, WordReady (.imad b n d x y z) s c →
    exec (.imad b n d x y z) s =
      .next (vecAfter s c b n d false (fun t => c.w32 (c.r32 t x * c.r32 t y + c.r32 t z)) noFlags)) ∧
  (∀ b n d x y z s c, WordReady (.imad64 b n d x y z) s c →
    exec (.imad64 b n d x y z) s =
      .next (vecAfter s c b n d true (fun t => c.w64 (c.prim t .i64 x * c.prim t .i64 y + c.prim t .i64 z)) noFlags)) ∧
  (∀ b n d i s c, WordReady (.movi b n d i) s c →
    exec (.movi b n d i) s = .next (vecAfter s c b n d false (fun _ => c.w32 (i.signExtend 32)) noFlags)) ∧
  (∀ b n d x i s c, WordReady (.lea b n d x i) s c →
    exec (.lea b n d x i) s =
      .next (vecAfter s c b n d true (fun t => c.w64 (c.prim t .i64 x + i.signExtend 64)) noFlags)) ∧
  (∀ b n d x y z s c, WordReady (.bfi b n d x y z) s c →
    exec (.bfi b n d x y z) s = .next (vecAfter s c b n d false
      (fun t => c.w32 ((c.r32 t x &&& c.r32 t z) ||| (c.r32 t y &&& ~~~(c.r32 t z)))) noFlags)) ∧
  (∀ p ∈ [(Instr.bfxU, false), (.bfxS, true)], ∀ b n d x y s c, WordReady (p.1 b n d x y) s c →
    exec (p.1 b n d x y) s =
      .next (vecAfter s c b n d false (fun t => c.w32 (bfx p.2 (c.r32 t x) (c.r32 t y))) noFlags)) ∧
  (∀ b n d x s c, WordReady (.bffs b n d x) s c →
    exec (.bffs b n d x) s =
      .next (vecAfter s c b n d true (fun t => c.w64 (c.prim t .i64 x ||| (c.prim t .i64 x + 1))) noFlags)) ∧
  (∀ b n d x s c, WordReady (.bffsIdx b n d x) s c →
    exec (.bffsIdx b n d x) s = .next (vecAfter s c b n d false
      (fun t => c.w32 (BitVec.ofNat 32 (ctz (~~~(c.prim t .i64 x))))) noFlags)) ∧
  (∀ b n d x y s c, WordReady (.bfpl b n d x y) s c →
    exec (.bfpl b n d x y) s = .next (vecAfter s c b n d true
      (fun t => c.w64 (fillTo (min (c.r32 t y).toNat 64) (c.prim t .i64 x))) noFlags)) ∧
  (∀ (w : Nat) (x : BitVec w), popc x = ((List.range w).countP fun i => x.getLsbD i)) ∧
  (∀ (w : Nat) (x : BitVec w), x ≠ 0 → ctz x < w ∧ x.getLsbD (ctz x) = true ∧ ∀ i < ctz x, x.getLsbD i = false) ∧
  (∀ (w : Nat) (x : BitVec w), x ≠ 0 →
    clz x < w ∧ x.getLsbD (w - 1 - clz x) = true ∧ ∀ i < clz x, x.getLsbD (w - 1 - i) = false) ∧
  (∀ w : Nat, clz (0 : BitVec w) = w ∧ ctz (0 : BitVec w) = w) ∧
  (∀ (signed : Bool) (x y : Word) (i : Nat), i < 32 →
    let pos := bitsOf y 4 0
    let len := min (bitsOf y 13 8) 32
    (bfx signed x y).getLsbD i =
      if i < len then x.getLsbD (pos + i) else signed && decide (0 < len) && x.getLsbD (pos + len - 1)) ∧
  (∀ (k : Nat) (x : Dword) (i : Nat), i < 64 → (fillTo k x).getLsbD i =
    (x.getLsbD i || decide (popc x + ((List.range i).countP fun j => !x.getLsbD j) < k)))

/-- R117, R139: the comparisons write a hard predicate: fraction 0x8000 or 0, tag 0, dependence 0, zero tangents. R117:
the ten conditions of ICMP, as orders of the signed and unsigned values, at either width. R139: the eight conditions of
FCMP, as orders of the numbers, with the infinities at the ends and unordered where either is a NaN. -/
def Obligations.CompareResults : Prop :=
  (∀ b d x y k s c, WordReady (.icmp b d x y 0 k) s c →
    exec (.icmp b d x y 0 k) s = .next (quietAfter s c b d
      (fun t => ⟨if icmp k.toNat (c.r32 t x) (c.r32 t y) then 0x8000 else 0, List.replicate c.t 0⟩) noFlags)) ∧
  (∀ b d x y k s c, WordReady (.icmp b d x y 1 k) s c →
    exec (.icmp b d x y 1 k) s = .next (quietAfter s c b d
      (fun t => ⟨if icmp k.toNat (c.prim t .i64 x) (c.prim t .i64 y) then 0x8000 else 0, List.replicate c.t 0⟩) noFlags)) ∧
  (∀ b d x y ty k s c, WordReady (.fcmp b d x y ty k) s c →
    exec (.fcmp b d x y ty k) s = .next (quietAfter s c b d
      (fun t => ⟨if fcmp k.toNat (c.fop t (FTy.ofCode ty) x).x (c.fop t (FTy.ofCode ty) y).x then 0x8000 else 0,
        List.replicate c.t 0⟩)
      (fun t => flagIf ((c.fop t (FTy.ofCode ty) x).snan || (c.fop t (FTy.ofCode ty) y).snan) flagInvalid))) ∧
  (∀ (w : Nat) (x y : BitVec w),
      (icmp 0 x y = true ↔ x.toNat = y.toNat) ∧ (icmp 1 x y = true ↔ x.toNat ≠ y.toNat) ∧
      (icmp 2 x y = true ↔ x.toInt < y.toInt) ∧ (icmp 3 x y = true ↔ x.toInt ≤ y.toInt) ∧
      (icmp 4 x y = true ↔ y.toInt < x.toInt) ∧ (icmp 5 x y = true ↔ y.toInt ≤ x.toInt) ∧
      (icmp 6 x y = true ↔ x.toNat < y.toNat) ∧ (icmp 7 x y = true ↔ x.toNat ≤ y.toNat) ∧
      (icmp 8 x y = true ↔ y.toNat < x.toNat) ∧ (icmp 9 x y = true ↔ y.toNat ≤ x.toNat)) ∧
  (∀ (m n : Bool) (p q : Rat), let x := XR.fin m p; let y := XR.fin n q
      (fcmp 0 x y = true ↔ p = q) ∧ (fcmp 1 x y = true ↔ p ≠ q) ∧ (fcmp 2 x y = true ↔ p < q) ∧
      (fcmp 3 x y = true ↔ p ≤ q) ∧ (fcmp 4 x y = true ↔ q < p) ∧ (fcmp 5 x y = true ↔ q ≤ p) ∧
      fcmp 6 x y = false ∧ fcmp 7 x y = true) ∧
  (∀ (k : Nat) (m n : Bool) (p q : Rat), k < 8 →
      fcmp k (.inf false) (.fin m p) = fcmp k (.fin m (p + 1)) (.fin m p) ∧
      fcmp k (.inf true) (.fin m p) = fcmp k (.fin m (p - 1)) (.fin m p) ∧
      fcmp k (.fin m p) (.inf false) = fcmp k (.fin m p) (.fin m (p + 1)) ∧
      fcmp k (.fin m p) (.inf true) = fcmp k (.fin m p) (.fin m (p - 1)) ∧
      fcmp k (.inf m) (.inf n) = fcmp k (.fin m (if m then -1 else 1)) (.fin n (if n then -1 else 1))) ∧
  (∀ (k : Nat) (x y : XR), k < 8 → x = .nan ∨ y = .nan → fcmp k x y = (k == 1 || k == 6)) ∧
  (∀ (c : Ctx) (t : Nat) (F : FTy) (a : Code), let e := (c.opnd t F.ty a).bits.toNat % 2 ^ F.fmt.width
      (c.fop t F a).enc = e ∧ (c.fop t F a).x = decodeF F.fmt e ∧ (c.fop t F a).snan = isSNaN F.fmt e)

/-- R120, R121: an exchange gives each lane the operand as read in its source lane, or its own where that lane does not
execute; an IMM operand is read as an integer of the width (log 47). R123, R125, R126: a uniform operation with an active lane writes its uniform register once, from values as they
stood when the cycle began; UMOVV takes the lowest active lane's operand. -/
def Obligations.ExchangeResults : Prop :=
  (∀ p ∈ [(Instr.qxchX, Instr.qxchX64, 1), (.qxchY, .qxchY64, 2), (.qxchXy, .qxchXy64, 3)], ∀ b n d x s c,
    (WordReady (p.1 b n d x) s c → exec (p.1 b n d x) s = .next (vecAfter s c b n d false
      (fun t => c.opnd (if c.exec (t ^^^ p.2.2) then t ^^^ p.2.2 else t) .i32 x) noFlags)) ∧
    (WordReady (p.2.1 b n d x) s c → exec (p.2.1 b n d x) s = .next (vecAfter s c b n d true
      (fun t => c.opnd (if c.exec (t ^^^ p.2.2) then t ^^^ p.2.2 else t) .i64 x) noFlags))) ∧
  (∀ b n d x y s c, let q (t : Nat) := 4 * (t / 4) + y.toNat
    (WordReady (.qxchBc b n d x y) s c → exec (.qxchBc b n d x y) s = .next (vecAfter s c b n d false
      (fun t => c.opnd (if c.exec (q t) then q t else t) .i32 x) noFlags)) ∧
    (WordReady (.qxchBc64 b n d x y) s c → exec (.qxchBc64 b n d x y) s = .next (vecAfter s c b n d true
      (fun t => c.opnd (if c.exec (q t) then q t else t) .i64 x) noFlags))) ∧
  (∀ b n d x y s c, let q (t : Nat) := (c.r32 t y).toNat % 16
    (WordReady (.gshuf b n d x y) s c → exec (.gshuf b n d x y) s = .next (vecAfter s c b n d false
      (fun t => c.opnd (if c.exec (q t) then q t else t) .i32 x) noFlags)) ∧
    (WordReady (.gshuf64 b n d x y) s c → exec (.gshuf64 b n d x y) s = .next (vecAfter s c b n d true
      (fun t => c.opnd (if c.exec (q t) then q t else t) .i64 x) noFlags))) ∧
  (∀ b n d x y s c, let q (t : Nat) := t ^^^ ((c.r32 t y).toNat % 16)
    (WordReady (.gshufXor b n d x y) s c → exec (.gshufXor b n d x y) s = .next (vecAfter s c b n d false
      (fun t => c.opnd (if c.exec (q t) then q t else t) .i32 x) noFlags)) ∧
    (WordReady (.gshufXor64 b n d x y) s c → exec (.gshufXor64 b n d x y) s = .next (vecAfter s c b n d true
      (fun t => c.opnd (if c.exec (q t) then q t else t) .i64 x) noFlags))) ∧
  (∀ p ∈ [(Instr.uadd, fun (x y : Dword) => x + y), (.usub, fun x y => x - y), (.umul, fun x y => x * y),
        (.uand, fun x y => x &&& y), (.uor, fun x y => x ||| y), (.uxor, fun x y => x ^^^ y),
        (.ushl, fun x y => x <<< y.toNat), (.ushr, fun x y => x >>> y.toNat),
        (.usar, fun x y => x.sshiftRight (min y.toNat 63)), (.umin, fun x y => if y.slt x then y else x),
        (.umax, fun x y => if x.slt y then y else x)],
    ∀ b d x y s c, WordReady (p.1 b d x y) s c → c.someActive = true →
      exec (p.1 b d x y) s = .next (uniformAfter s c b d (p.2 (c.usrc x) (c.usrc y)))) ∧
  (∀ b d x s c, WordReady (.umov b d x) s c → c.someActive = true →
    exec (.umov b d x) s = .next (uniformAfter s c b d (c.usrc x))) ∧
  (∀ b d x s c, WordReady (.umovv b d x) s c → c.someActive = true →
    exec (.umovv b d x) s = .next (uniformAfter s c b d (c.prim c.first .i32 x))) ∧
  (∀ b d x s c, WordReady (.umovv64 b d x) s c → c.someActive = true →
    exec (.umovv64 b d x) s = .next (uniformAfter s c b d (c.prim c.first .i64 x))) ∧
  (∀ b d x y s c, WordReady (.uadd b d x y) s c → c.someActive = false →
    exec (.uadd b d x y) s = .next (wordAfter s c b (fun _ l => l) nobody fun _ => none))

/-- R134, R135, R136 under R133: a floating-point word rounds its function's exact value once in the word's mode, its
tangents likewise, gives the canonical NaN in every tangent of a NaN, and raises the flags of the primal. R131, R48:
a packed word acts on each half alone, with zero tangents and the flags of both halves. R57, R134: what the exact
values of FFMA, FADD, FSUB and FMUL are, zeros, infinities and NaNs included, and that each is rounded once. R135,
R137: FDIV's quotient, rounded once under version 3 and in FP64, and the special operands of the functions. R136:
FMIN, FMAX, FABS, FNEG and the forms that cut to an integer. R135, R137, R138: the tangent rules of these forms. The
approximated functions rest on the enclosures of log 7; FFRAC of a zero, and a pole's tangent where tb = 0, on log
8; that FFRAC of a nonzero integer is +0 in every mode, on log 47. -/
def Obligations.FloatResults : Prop :=
  (∀ p ∈ [(Instr.ffmaF32, f32T), (.ffmaF64, f64T), (.ffmaF16, f16T), (.ffmaBf16, bf16T)],
    ∀ b n d x y z s c, WordReady (p.1 b n d x y z) s c →
      exec (p.1 b n d x y z) s = .next (vecAfter s c b n d p.2.ty.wide
        (fun t => c.floatVal p.2 .fma [c.fop t p.2 x, c.fop t p.2 y, c.fop t p.2 z])
        (fun t => c.floatFlags p.2 .fma [c.fop t p.2 x, c.fop t p.2 y, c.fop t p.2 z]))) ∧
  (∀ p ∈ [(Instr.faddF32, f32T, FFun.add), (Instr.faddF64, f64T, .add), (Instr.faddF16, f16T, .add),
        (Instr.faddBf16, bf16T, .add), (Instr.fsubF32, f32T, .sub), (Instr.fsubF64, f64T, .sub),
        (Instr.fsubF16, f16T, .sub), (Instr.fsubBf16, bf16T, .sub), (Instr.fmulF32, f32T, .mul),
        (Instr.fmulF64, f64T, .mul), (Instr.fmulF16, f16T, .mul), (Instr.fmulBf16, bf16T, .mul),
        (Instr.fminF32, f32T, .min), (Instr.fminF64, f64T, .min), (Instr.fminF16, f16T, .min),
        (Instr.fminBf16, bf16T, .min), (Instr.fmaxF32, f32T, .max), (Instr.fmaxF64, f64T, .max),
        (Instr.fmaxF16, f16T, .max), (Instr.fmaxBf16, bf16T, .max), (Instr.fdivF32, f32T, .div),
        (Instr.fdivF64, f64T, .div), (Instr.fdivF16, f16T, .div), (Instr.fdivBf16, bf16T, .div)],
    ∀ b n d x y s c, WordReady (p.1 b n d x y) s c →
      exec (p.1 b n d x y) s = .next (vecAfter s c b n d p.2.1.ty.wide
        (fun t => c.floatVal p.2.1 p.2.2 [c.fop t p.2.1 x, c.fop t p.2.1 y])
        (fun t => c.floatFlags p.2.1 p.2.2 [c.fop t p.2.1 x, c.fop t p.2.1 y]))) ∧
  (∀ p ∈ [(Instr.fabsF32, f32T, FFun.abs), (Instr.fabsF64, f64T, .abs), (Instr.fabsF16, f16T, .abs),
        (Instr.fabsBf16, bf16T, .abs), (Instr.fnegF32, f32T, .neg), (Instr.fnegF64, f64T, .neg),
        (Instr.fnegF16, f16T, .neg), (Instr.fnegBf16, bf16T, .neg), (Instr.frcpF32, f32T, .rcp),
        (Instr.frcpF64, f64T, .rcp), (Instr.frcpF16, f16T, .rcp), (Instr.frcpBf16, bf16T, .rcp),
        (Instr.frsqF32, f32T, .rsq), (Instr.frsqF64, f64T, .rsq), (Instr.frsqF16, f16T, .rsq),
        (Instr.frsqBf16, bf16T, .rsq), (Instr.fsqrtF32, f32T, .sqrt), (Instr.fsqrtF64, f64T, .sqrt),
        (Instr.fsqrtF16, f16T, .sqrt), (Instr.fsqrtBf16, bf16T, .sqrt), (Instr.fexp2F32, f32T, .exp2),
        (Instr.fexp2F64, f64T, .exp2), (Instr.fexp2F16, f16T, .exp2), (Instr.fexp2Bf16, bf16T, .exp2),
        (Instr.flog2F32, f32T, .log2), (Instr.flog2F64, f64T, .log2), (Instr.flog2F16, f16T, .log2),
        (Instr.flog2Bf16, bf16T, .log2), (Instr.fsinF32, f32T, .sin), (Instr.fsinF64, f64T, .sin),
        (Instr.fsinF16, f16T, .sin), (Instr.fsinBf16, bf16T, .sin), (Instr.fcosF32, f32T, .cos),
        (Instr.fcosF64, f64T, .cos), (Instr.fcosF16, f16T, .cos), (Instr.fcosBf16, bf16T, .cos),
        (Instr.ffloorF32, f32T, .floor), (Instr.ffloorF64, f64T, .floor), (Instr.ffloorF16, f16T, .floor),
        (Instr.ffloorBf16, bf16T, .floor), (Instr.fceilF32, f32T, .ceil), (Instr.fceilF64, f64T, .ceil),
        (Instr.fceilF16, f16T, .ceil), (Instr.fceilBf16, bf16T, .ceil), (Instr.frndF32, f32T, .rnd),
        (Instr.frndF64, f64T, .rnd), (Instr.frndF16, f16T, .rnd), (Instr.frndBf16, bf16T, .rnd),
        (Instr.ffracF32, f32T, .frac), (Instr.ffracF64, f64T, .frac), (Instr.ffracF16, f16T, .frac),
        (Instr.ffracBf16, bf16T, .frac)],
    ∀ b n d x s c, WordReady (p.1 b n d x) s c →
      exec (p.1 b n d x) s = .next (vecAfter s c b n d p.2.1.ty.wide
        (fun t => c.floatVal p.2.1 p.2.2 [c.fop t p.2.1 x]) (fun t => c.floatFlags p.2.1 p.2.2 [c.fop t p.2.1 x]))) ∧
  (∀ b n d x y z s c, WordReady (.ffmaF16x2 b n d x y z) s c →
    exec (.ffmaF16x2 b n d x y z) s = .next (vecAfter s c b n d false (fun t => c.packedVal .fma t [x, y, z])
      (fun t => c.packedFlags .fma t [x, y, z]))) ∧
  (∀ p ∈ [(Instr.faddF16x2, FFun.add), (.fsubF16x2, .sub), (.fmulF16x2, .mul), (.fminF16x2, .min), (.fmaxF16x2, .max),
        (.fdivF16x2, .div)],
    ∀ b n d x y s c, WordReady (p.1 b n d x y) s c →
      exec (p.1 b n d x y) s = .next (vecAfter s c b n d false (fun t => c.packedVal p.2 t [x, y])
        (fun t => c.packedFlags p.2 t [x, y]))) ∧
  (∀ p ∈ [(Instr.fabsF16x2, FFun.abs), (Instr.fnegF16x2, .neg), (Instr.frcpF16x2, .rcp), (Instr.frsqF16x2, .rsq), (Instr.fsqrtF16x2, .sqrt),
        (Instr.fexp2F16x2, .exp2), (Instr.flog2F16x2, .log2), (Instr.fsinF16x2, .sin), (Instr.fcosF16x2, .cos), (Instr.ffloorF16x2, .floor),
        (Instr.fceilF16x2, .ceil), (Instr.frndF16x2, .rnd), (Instr.ffracF16x2, .frac)],
    ∀ b n d x s c, WordReady (p.1 b n d x) s c →
      exec (p.1 b n d x) s = .next (vecAfter s c b n d false (fun t => c.packedVal p.2 t [x])
        (fun t => c.packedFlags p.2 t [x]))) ∧
  -- exact values
  (∀ (m : Num.Mode) (s t : Bool) (p q : Rat),
    (XR.fin s p).mul (.fin t q) = .fin (s ^^ t) (p * q) ∧ (XR.fin s p).neg = .fin (!s) (-p) ∧
    (p + q ≠ 0 → (XR.fin s p).add m (.fin t q) = .fin (decide (p + q < 0)) (p + q)) ∧
    (p + q = 0 → (XR.fin s p).add m (.fin t q) =
      .fin (if p = 0 ∧ s = t then s else decide (m = .rd)) 0)) ∧
  (∀ (m : Num.Mode) (s : Bool) (x : XR), x ≠ .nan →
    (XR.inf s).mul x = (if x.isZero then .nan else .inf (s ^^ x.sign)) ∧
    x.mul (.inf s) = (if x.isZero then .nan else .inf (x.sign ^^ s)) ∧
    (XR.inf s).add m x = (if x = .inf (!s) then .nan else .inf s) ∧
    x.add m (.inf s) = (if x = .inf (!s) then .nan else .inf s)) ∧
  (∀ (m : Num.Mode) (x : XR), XR.nan.mul x = .nan ∧ x.mul .nan = .nan ∧ XR.nan.add m x = .nan ∧ x.add m .nan = .nan ∧
    XR.nan.neg = .nan ∧ (∀ s, (XR.inf s).neg = .inf (!s))) ∧
  -- primals
  (∀ (F : Num.Fmt) (m : Num.Mode) (nbv : Nat) (a b c : Num.FOp),
    let out (xs : List Num.FOp) (e : XR) : Nat × Num.Flags := ((roundX F m e).1, (roundX F m e).2.or
      { inv := (e.isNaN && xs.all fun o => !o.x.isNaN) || xs.any fun o => o.snan })
    Num.fprim .fma F m nbv [a, b, c] = out [a, b, c] ((a.x.mul b.x).add m c.x) ∧
    Num.fprim .add F m nbv [a, b] = out [a, b] (a.x.add m b.x) ∧
    Num.fprim .sub F m nbv [a, b] = out [a, b] (a.x.add m b.x.neg) ∧
    Num.fprim .mul F m nbv [a, b] = out [a, b] (a.x.mul b.x)) ∧
  (∀ (F : Num.Fmt) (m : Num.Mode) (nbv : Nat) (a b : Num.FOp) (n k : Bool) (p q : Rat), a.snan = false → b.snan = false →
    a.x = .fin n p → b.x = .fin k q →
    (p ≠ 0 → q ≠ 0 → F = fp64 ∨ nbv = 3 → Num.fprim .div F m nbv [a, b] = Num.roundRat F m (p / q)) ∧
    (p = 0 → q ≠ 0 → Num.fprim .div F m nbv [a, b] = (Num.signBit F (n ^^ k), {})) ∧
    (p ≠ 0 → q = 0 → Num.fprim .div F m nbv [a, b] = (Num.infEnc F (n ^^ k), { dvz := true })) ∧
    (p = 0 → q = 0 → Num.fprim .div F m nbv [a, b] = (canonNaN F, { inv := true })) ∧
    (p = 0 → Num.fprim .rcp F m nbv [a] = (Num.infEnc F n, { dvz := true }) ∧
      Num.fprim .rsq F m nbv [a] = (Num.infEnc F n, { dvz := true }) ∧
      Num.fprim .sqrt F m nbv [a] = (Num.signBit F n, {}) ∧
      Num.fprim .log2 F m nbv [a] = (Num.infEnc F true, { dvz := true }) ∧
      Num.fprim .sin F m nbv [a] = (Num.signBit F n, {})) ∧
    (p < 0 → Num.fprim .rsq F m nbv [a] = (canonNaN F, { inv := true }) ∧
      Num.fprim .sqrt F m nbv [a] = (canonNaN F, { inv := true }) ∧
      Num.fprim .log2 F m nbv [a] = (canonNaN F, { inv := true })) ∧
    (p ≠ 0 → F = fp64 ∨ nbv = 3 → Num.fprim .rcp F m nbv [a] = Num.roundRat F m (1 / p)) ∧
    (p = 1 → Num.fprim .log2 F m nbv [a] = (0, {})) ∧
    Num.fprim .frac F m nbv [a] = Num.roundRat F m (p - ⌊p⌋)) ∧
  (∀ (f : FFun) (F : Num.Fmt) (m : Num.Mode) (nbv : Nat) (a : Num.FOp), a.x = .nan →
    f ∈ [FFun.rcp, .rsq, .sqrt, .exp2, .log2, .sin, .cos, .floor, .ceil, .rnd, .frac] →
    Num.fprim f F m nbv [a] = (canonNaN F, { inv := a.snan })) ∧
  (∀ (F : Num.Fmt) (m : Num.Mode) (nbv : Nat) (a : Num.FOp) (n : Bool), F.hasInf = true → a.x = .inf n → a.snan = false →
    Num.fprim .rcp F m nbv [a] = (Num.signBit F n, {}) ∧
    Num.fprim .rsq F m nbv [a] = (if n then (canonNaN F, { inv := true }) else (0, {})) ∧
    Num.fprim .sqrt F m nbv [a] = (if n then (canonNaN F, { inv := true }) else (Num.infEnc F false, {})) ∧
    Num.fprim .exp2 F m nbv [a] = (if n then 0 else Num.infEnc F false, {}) ∧
    Num.fprim .log2 F m nbv [a] = (if n then (canonNaN F, { inv := true }) else (Num.infEnc F false, {})) ∧
    (∀ f ∈ [FFun.sin, .cos, .frac], Num.fprim f F m nbv [a] = (canonNaN F, { inv := true }))) ∧
  (∀ (F : Num.Fmt) (m : Num.Mode) (nbv : Nat) (a b : Num.FOp),
    let inv : Bool := a.snan || b.snan
    (a.x = .nan → b.x = .nan → Num.fprim .min F m nbv [a, b] = (canonNaN F, { inv := inv }) ∧
      Num.fprim .max F m nbv [a, b] = (canonNaN F, { inv := inv })) ∧
    (a.x = .nan → b.x ≠ .nan → Num.fprim .min F m nbv [a, b] = (b.enc, { inv := inv }) ∧
      Num.fprim .max F m nbv [a, b] = (b.enc, { inv := inv })) ∧
    (a.x ≠ .nan → b.x = .nan → Num.fprim .min F m nbv [a, b] = (a.enc, { inv := inv }) ∧
      Num.fprim .max F m nbv [a, b] = (a.enc, { inv := inv })) ∧
    (a.x ≠ .nan → b.x ≠ .nan →
      let below (x y : XR) : Bool := fcmp 2 x y || (fcmp 0 x y && x.sign && !y.sign)
      Num.fprim .min F m nbv [a, b] = (if below b.x a.x then b.enc else a.enc, { inv := inv }) ∧
      Num.fprim .max F m nbv [a, b] = (if below a.x b.x then b.enc else a.enc, { inv := inv }))) ∧
  (∀ (F : Num.Fmt) (m : Num.Mode) (nbv : Nat) (a : Num.FOp) (i : Nat), a.enc < 2 ^ F.width → 0 < F.width →
    (Num.fprim .abs F m nbv [a]).1.testBit i = (a.enc.testBit i && decide (i ≠ F.width - 1)) ∧
    (Num.fprim .neg F m nbv [a]).1.testBit i = (a.enc.testBit i ^^ decide (i = F.width - 1)) ∧
    (Num.fprim .abs F m nbv [a]).2 = {} ∧ (Num.fprim .neg F m nbv [a]).2 = {}) ∧
  (∀ (F : Num.Fmt) (m : Num.Mode) (nbv : Nat) (a : Num.FOp) (n : Bool) (q : Rat),
    let out (i : Int) : Nat × Num.Flags :=
      (if i = 0 then Num.signBit F n else (Num.roundRat F .rne i).1, { inv := a.snan })
    a.x = .fin n q → Num.fprim .floor F m nbv [a] = out ⌊q⌋ ∧ Num.fprim .ceil F m nbv [a] = out ⌈q⌉ ∧
      Num.fprim .rnd F m nbv [a] = out (Num.roundInt m q)) ∧
  (∀ (f : FFun) (F : Num.Fmt) (m : Num.Mode) (nbv : Nat) (a : Num.FOp) (n : Bool), a.x = .inf n →
    f ∈ [FFun.floor, .ceil, .rnd] → Num.fprim f F m nbv [a] = (Num.infEnc F n, { inv := a.snan })) ∧
  -- tangents
  (∀ (F : Num.Fmt) (m : Num.Mode) (a b c : Num.FOp) (k : Nat),
    let out (e : XR) : Nat := (roundX F m e).1
    Num.ftan .fma F m [a, b, c] k = out (((a.x.mul (b.t k)).add m ((a.t k).mul b.x)).add m (c.t k)) ∧
    Num.ftan .add F m [a, b] k = out ((a.t k).add m (b.t k)) ∧
    Num.ftan .sub F m [a, b] k = out ((a.t k).add m (b.t k).neg) ∧
    Num.ftan .mul F m [a, b] k = out ((a.x.mul (b.t k)).add m ((a.t k).mul b.x)) ∧
    Num.ftan .neg F m [a] k = out (a.t k).neg ∧ Num.ftan .frac F m [a] k = out (a.t k) ∧
    (a.x.isZero = false → Num.ftan .abs F m [a] k = out (if a.x.sign then (a.t k).neg else a.t k)) ∧
    (a.x.isZero = true → Num.ftan .abs F m [a] k = 0) ∧
    (∀ f ∈ [FFun.floor, .ceil, .rnd], Num.ftan f F m [a] k = 0) ∧
    (a.x ≠ .nan → b.x ≠ .nan →
      let below (x y : XR) : Bool := fcmp 2 x y || (fcmp 0 x y && x.sign && !y.sign)
      Num.ftan .min F m [a, b] k = out (if below b.x a.x then b.t k else a.t k) ∧
      Num.ftan .max F m [a, b] k = out (if below a.x b.x then b.t k else a.t k)) ∧
    (a.x ≠ .nan → b.x = .nan → Num.ftan .min F m [a, b] k = out (a.t k) ∧ Num.ftan .max F m [a, b] k = out (a.t k)) ∧
    (a.x = .nan → b.x ≠ .nan → Num.ftan .min F m [a, b] k = out (b.t k) ∧ Num.ftan .max F m [a, b] k = out (b.t k))) ∧
  (∀ (F : Num.Fmt) (m : Num.Mode) (a b : Num.FOp) (k : Nat) (n i : Bool) (p q : Rat) (u v : Bool) (ta tb : Rat),
    a.x = .fin n p → b.x = .fin i q → a.t k = .fin u ta → b.t k = .fin v tb →
    (q ≠ 0 → (ta * q - p * tb) / (q * q) ≠ 0 →
      Num.ftan .div F m [a, b] k = (Num.roundRat F m ((ta * q - p * tb) / (q * q))).1) ∧
    (p ≠ 0 → ta ≠ 0 → Num.ftan .rcp F m [a] k = (Num.roundRat F m (-ta / (p * p))).1) ∧
    (p ≠ 0 → q = 0 → Num.ftan .div F m [a, b] k = if tb = 0 then 0 else Num.infEnc F (!(n ^^ v))) ∧
    (p = 0 → Num.ftan .rcp F m [a] k = (if ta = 0 then 0 else Num.infEnc F (!u)) ∧
      Num.ftan .rsq F m [a] k = (if ta = 0 then 0 else Num.infEnc F (!u)) ∧
      Num.ftan .sqrt F m [a] k = (if ta = 0 then 0 else Num.infEnc F false) ∧
      Num.ftan .log2 F m [a] k = (if ta = 0 then 0 else Num.infEnc F (u ^^ n))))

/-- R140: CVT converts the primal by R59 and, between float types, each tangent; the flags are the conversion's. -/
def Obligations.ConversionResults : Prop :=
  ∀ b n d a (x y : BitVec 3) s c, WordReady (.cvt b n d a x y) s c →
    (x.toNat < 4 → y.toNat < 4 →
      exec (.cvt b n d a x y) s = .next (vecAfter s c b n d (cvtTy x).wide
        (fun t =>
          let o := c.fop t (cvtFloat y) a
          ⟨(cvtTy x).wide, BitVec.ofNat 64 (roundX (cvtFloat x).fmt c.mode o.x).1,
            (c.opnd t (cvtTy y) a).tan.map fun w => BitVec.ofNat 64 (if o.x.isNaN then canonNaN (cvtFloat x).tfmt
              else (roundX (cvtFloat x).tfmt c.mode
                (decodeF (cvtFloat y).tfmt (w.toNat % 2 ^ (cvtFloat y).tfmt.width))).1)⟩)
        (fun t =>
          let o := c.fop t (cvtFloat y) a
          ((roundX (cvtFloat x).fmt c.mode o.x).2.or { inv := o.snan }).toBits))) ∧
    (4 ≤ x.toNat → y.toNat < 4 →
      exec (.cvt b n d a x y) s = .next (vecAfter s c b n d (cvtTy x).wide
        (fun t => .plain (cvtTy x).wide c.t
          (BitVec.ofNat 64 (toInteger (cvtInt x) c.mode (c.fop t (cvtFloat y) a).x).1))
        (fun t => ((toInteger (cvtInt x) c.mode (c.fop t (cvtFloat y) a).x).2.or
          { inv := (c.fop t (cvtFloat y) a).snan }).toBits))) ∧
    (x.toNat < 4 → 4 ≤ y.toNat →
      exec (.cvt b n d a x y) s = .next (vecAfter s c b n d (cvtTy x).wide
        (fun t => .plain (cvtTy x).wide c.t (BitVec.ofNat 64
          (roundX (cvtFloat x).fmt c.mode (.ofRat ((cvtInt y).val (c.opnd t (cvtTy y) a).bits.toNat))).1))
        (fun t => (roundX (cvtFloat x).fmt c.mode
          (.ofRat ((cvtInt y).val (c.opnd t (cvtTy y) a).bits.toNat))).2.toBits)))

/-- R141, R142: the tangent moves transfer bits without rounding and raise no flag; DZERO reads an IMM operand as an
integer (log 8). R143, R144: DEVAL adds each tangent
times its delta to the primal, exactly, and rounds once; the tangents pass unchanged, or are the canonical NaN where the
result is a NaN; invalid rises from a signalling NaN among the operand and the deltas, and, where no term is a NaN, from
infinite terms of opposite sign (log 47). -/
def Obligations.TangentResults : Prop :=
  (∀ b n d a k s c, WordReady (.dseedF32 b n d a k) s c →
    exec (.dseedF32 b n d a k) s = .next (vecAfter s c b n d false (fun t => { c.opnd t .f32 a with
      tan := (List.range c.t).map fun j => if j = k.toNat then 0x3F800000 else 0 }) noFlags)) ∧
  (∀ b n d a k s c, WordReady (.dseedF64 b n d a k) s c →
    exec (.dseedF64 b n d a k) s = .next (vecAfter s c b n d true (fun t => { c.opnd t .f64 a with
      tan := (List.range c.t).map fun j => if j = k.toNat then 0x3FF0000000000000 else 0 }) noFlags)) ∧
  (∀ b n d a s c, WordReady (.dzero b n d a) s c →
    exec (.dzero b n d a) s = .next (vecAfter s c b n d false (fun t => .plain false c.t (c.prim t .i32 a)) noFlags)) ∧
  (∀ b n d a s c, WordReady (.dzero64 b n d a) s c →
    exec (.dzero64 b n d a) s = .next (vecAfter s c b n d true (fun t => .plain true c.t (c.prim t .i64 a)) noFlags)) ∧
  (∀ b n d a k s c, WordReady (.dgetF32 b n d a k) s c →
    exec (.dgetF32 b n d a k) s =
      .next (vecAfter s c b n d false (fun t => .plain false c.t ((c.opnd t .f32 a).tan.getD k.toNat 0)) noFlags)) ∧
  (∀ b n d a k s c, WordReady (.dgetF64 b n d a k) s c →
    exec (.dgetF64 b n d a k) s =
      .next (vecAfter s c b n d true (fun t => .plain true c.t ((c.opnd t .f64 a).tan.getD k.toNat 0)) noFlags)) ∧
  (∀ b d a k s c, WordReady (.dputF32 b d a k) s c →
    exec (.dputF32 b d a k) s = .next (vecAfter s c b false d false (fun t =>
      let v := (c.lane t).readV false d.toNat
      { v with tan := v.tan.set k.toNat (c.prim t .f32 a) }) noFlags)) ∧
  (∀ b d a k s c, WordReady (.dputF64 b d a k) s c →
    exec (.dputF64 b d a k) s = .next (vecAfter s c b false d true (fun t =>
      let v := (c.lane t).readV true d.toNat
      { v with tan := v.tan.set k.toNat (c.prim t .f64 a) }) noFlags)) ∧
  (∀ b n d a u ty s c, WordReady (.deval b n d a u ty) s c →
      let F := FTy.ofCode ty
      let delta (k : Nat) : XR := decodeF fp64 (c.cr.uOld.getD (u.toNat + k) 0).toNat
      let sum (t : Nat) : XR := (List.range c.t).foldl (fun acc k => acc.add c.mode (((c.fop t F a).t k).mul (delta k)))
        (c.fop t F a).x
      let y (t : Nat) := roundX F.fmt c.mode (sum t)
      let nanIn (t : Nat) : Bool := (c.fop t F a).x.isNaN ||
        (List.range c.t).any fun k => ((c.fop t F a).t k).isNaN || (delta k).isNaN
      let badDelta : Bool := (List.range c.t).any fun k => isSNaN fp64 (c.cr.uOld.getD (u.toNat + k) 0).toNat
      exec (.deval b n d a u ty) s = .next (vecAfter s c b n d (floatTy ty).wide
        (fun t => ⟨F.ty.wide, BitVec.ofNat 64 (y t).1, if isNaNEnc F.fmt (y t).1
          then List.replicate c.t (BitVec.ofNat 64 (canonNaN F.tfmt)) else (c.opnd t F.ty a).tan⟩)
        (fun t => ((y t).2.or { inv := (c.fop t F a).snan || ((sum t).isNaN && !nanIn t) || badDelta }).toBits)))

/-! ### Probability predicates and random streams -/

/-- R154, R155: PAND and POR combine the fractions exactly and round once, with the union of the tags; operands that share
a tag set DEP without DTRAP, and with DTRAP raise DEPENDENT-PREDICATE at the bundle's first word and leave D unchanged; a
helper, which takes no trap, leaves D unchanged too (log 9). -/
def Obligations.PredicateCombination : Prop :=
  (∀ p ∈ [(Instr.pand, fun (p q : XR) => p.mul q, fun (p q tp tq : XR) => (tp.mul q).add .rne (p.mul tq)),
        (.por, fun p q => (p.add .rne q).sub .rne (p.mul q),
          fun p q tp tq => (tp.mul (XR.one.sub .rne q)).add .rne (tq.mul (XR.one.sub .rne p)))],
    ∀ b d x y s c, WordReady (p.1 b d x y) s c → c.distinct = true →
      let overlap (t : Nat) : Bool := decide (qTag (c.q t x) &&& qTag (c.q t y) ≠ 0)
      let traps (t : Nat) : Bool := overlap t && bitAt c.cr.mode.toNat 2
      let result (t : Nat) : Reg :=
        let P : XR := .ofRat (qReal (c.q t x))
        let Q : XR := .ofRat (qReal (c.q t y))
        qReg (Num.q15 (p.2.1 P Q)) (qTag (c.q t x) ||| qTag (c.q t y))
          (qDep (c.q t x) ||| qDep (c.q t y) ||| (if overlap t then 1 else 0))
          ((List.range c.t).map fun k =>
            tanRne (p.2.2 P Q (tan32 ((c.q t x).tan.getD k 0)) (tan32 ((c.q t y).tan.getD k 0))))
      exec (p.1 b d x y) s = .next (wordAfter s c b
        (fun t l =>
          if c.exec t then
            if traps t then l.updThread fun th => th.takeTrap .dependentPredicate 0 c.start
            else (l.setQ d.toNat (result t)).setFlags 0
          else l)
        (fun t => c.active t && traps t) fun _ => none)) ∧
  (∀ b d x s c, WordReady (.pnot b d x) s c →
    exec (.pnot b d x) s = .next (quietAfter s c b d (fun t => qReg (0x8000 - qP (c.q t x)) (qTag (c.q t x))
      (qDep (c.q t x)) ((c.q t x).tan.map fun w => tanRne (tan32 w).neg)) noFlags))

/-- R156, R158: the moves between Q and V registers, and PSEL's choice at 0x4000, an IMM operand read as an integer of the
width (log 47). R284: ELECT marks the lowest active
lane; ELECT.u does so where the uniform register reads zero, and sets it. -/
def Obligations.PredicateMovesAndElections : Prop :=
  (∀ b d x y s c, WordReady (.pset b d x y) s c →
    exec (.pset b d x y) s = .next (quietAfter s c b d (fun t =>
      let v := (c.fop t f32T x).x
      qReg (Num.q15 v) (if 8 ≤ y.toNat then 2 ^ (y.toNat % 8) else 0) 0 ((c.opnd t .f32 x).tan.map fun w =>
        if v.isFin && decide (0 ≤ v.rat ∧ v.rat ≤ 1) then w.truncate 32 else 0))
      (fun t => flagIf (c.fop t f32T x).snan flagInvalid))) ∧
  (∀ b n d x s c, WordReady (.pget b n d x) s c →
    exec (.pget b n d x) s = .next (vecAfter s c b n d false (fun t =>
      ⟨false, BitVec.ofNat 64 (roundX fp32 .rne (.ofRat (qReal (c.q t x)))).1,
        (c.q t x).tan.map fun w => w.zeroExtend 64⟩) noFlags)) ∧
  (∀ b n d x s c, WordReady (.pgetW b n d x) s c →
    exec (.pgetW b n d x) s = .next (vecAfter s c b n d false (fun t => c.w32 (c.q t x).prim) noFlags)) ∧
  (∀ b d x y s c, WordReady (.pput b d x y) s c →
    exec (.pput b d x y) s = .next (quietAfter s c b d (fun t =>
      let w := c.r32 t x
      qReg (min (bitsOf w 15 0) 0x8000) (bitsOf w 23 16) (bitsOf w 24 24) ((c.opnd t .f32 y).tan.map fun z => z.truncate 32))
      (fun t => flagIf (decide (0x8000 < bitsOf (c.r32 t x) 15 0)) flagSaturation))) ∧
  (∀ b n d x y q s c,
    (WordReady (.psel b n d x y 0 q) s c → exec (.psel b n d x y 0 q) s = .next (vecAfter s c b n d false
      (fun t => c.opnd t .i32 (if 0x4000 ≤ qP ((c.lane t).getQ q.toNat) then x else y)) noFlags)) ∧
    (WordReady (.psel b n d x y 1 q) s c → exec (.psel b n d x y 1 q) s = .next (vecAfter s c b n d true
      (fun t => c.opnd t .i64 (if 0x4000 ≤ qP ((c.lane t).getQ q.toNat) then x else y)) noFlags))) ∧
  (∀ b d s c w, WordReady (.elect b d) s c → w < 16 → c.active w = true → (∀ u < w, c.active u = false) →
    exec (.elect b d) s = .next (quietAfter s c b d
      (fun t => ⟨if t = w then 0x8000 else 0, List.replicate c.t 0⟩) noFlags)) ∧
  (∀ b d s c, WordReady (.elect b d) s c → (∀ u < 16, c.active u = false) →
    exec (.elect b d) s = .next (quietAfter s c b d (fun _ => ⟨0, List.replicate c.t 0⟩) noFlags)) ∧
  (∀ b d u s c w, WordReady (.electU b d u) s c → c.cr.u[u.toNat]? = some 0 → w < 16 → c.active w = true →
    (∀ v < w, c.active v = false) →
    exec (.electU b d u) s = .next (quietAfter
      (s.updCrew c.ci fun cr => { cr with u := cr.u.set u.toNat 1 }) c b d
      (fun t => ⟨if t = w then 0x8000 else 0, List.replicate c.t 0⟩) noFlags)) ∧
  (∀ b d u s c x, WordReady (.electU b d u) s c → c.cr.u[u.toNat]? = some x → x ≠ 0 →
    exec (.electU b d u) s = .next (quietAfter s c b d (fun _ => ⟨0, List.replicate c.t 0⟩) noFlags))

/-- R152, R151: at temperature zero PCMP writes exactly what FCMP.gt writes; at any other temperature it writes the
fraction of σ of the difference over the temperature, its own tag, and no dependence. R157: PBLEND weighs its operands by
the fraction, exactly, and rounds once; its tangents follow the product rule, and are NaN where the primal is; a hard
predicate selects, and of the operands only the selected one raises invalid (log 41). -/
def Obligations.SoftPredicates : Prop :=
  (∀ b d x y g m ty s c, WordReady (.pcmp b d x y g m ty) s c →
      let F := FTy.ofCode ty
      let tau := decodeF fp32 c.cr.tempOld.toNat
      let flags (t : Nat) := flagIf ((c.fop t F x).snan || (c.fop t F y).snan) flagInvalid
      (tau.isZero = true → exec (.pcmp b d x y g m ty) s = .next (quietAfter s c b d
        (fun t => ⟨if fcmp 4 (c.fop t F x).x (c.fop t F y).x then 0x8000 else 0, List.replicate c.t 0⟩) flags)) ∧
      (tau.isZero = false → ∃ q, exec (.pcmp b d x y g m ty) s = .next (quietAfter s c b d q flags) ∧
        ∀ t, ∃ p tan, q t = qReg p (if g = 1#1 then 2 ^ m.toNat else 0) 0 tan ∧ tan.length = c.t ∧
          match (c.fop t F x).x.sub .rne (c.fop t F y).x with
          | .nan => p = 0
          | .inf neg => p = if neg then 0 else 0x8000
          | .fin _ z => ∀ r, (Num.sigmaR (z / tau.rat)).image (fun w => Num.q15 (.ofRat w)) = some r → p = r)) ∧
  (∀ b n d ty q x y s c, WordReady (.pblend b n d ty q x y) s c →
      let F := FTy.ofCode ty
      let P (t : Nat) := qP ((c.lane t).getQ q.toNat)
      let p (t : Nat) : XR := .ofRat (qReal ((c.lane t).getQ q.toNat))
      -- at P = 0x8000 the weight 1 - p is a zero of R57's sign
      let p' (t : Nat) : XR := (XR.ofRat 1).sub c.mode (p t)
      let X (t : Nat) := c.fop t F x
      let Y (t : Nat) := c.fop t F y
      let v (t : Nat) : XR :=
        if P t = 0x8000 then (X t).x else if P t = 0 then (Y t).x
        else ((p t).mul (X t).x).add c.mode ((p' t).mul (Y t).x)
      let r (t : Nat) : Nat × Num.Flags :=
        Num.arith F.fmt c.mode (if P t = 0x8000 then [X t] else if P t = 0 then [Y t] else [X t, Y t]) (v t)
      let tan (t k : Nat) : XR := if v t = .nan then .nan else
        (((tan32 (((c.lane t).getQ q.toNat).tan.getD k 0)).mul ((X t).x.sub c.mode (Y t).x)).add c.mode
          ((p t).mul ((X t).t k))).add c.mode ((p' t).mul ((Y t).t k))
      exec (.pblend b n d ty q x y) s = .next (vecAfter s c b n d (floatTy ty).wide
        (fun t => ⟨F.ty.wide, BitVec.ofNat 64 (r t).1,
          (List.range c.t).map fun k => BitVec.ofNat 64 (roundX F.tfmt c.mode (tan t k)).1⟩)
        (fun t => (r t).2.toBits)))

/-- R160, R161, R162, R163: RKEY sets a stream; a draw mixes key and counter and advances the counter, in guarded-off
lanes too. -/
def Obligations.RandomDraws : Prop :=
  (∀ b x y s c, WordReady (.rkey b x y) s c →
    exec (.rkey b x y) s = .next (wordAfter s c b (fun t l => if c.exec t
      then { l with key := streamKey c (c.tid t) (c.prim t .i64 x) ((c.r32 t y).zeroExtend 64), ctr := 0 }
      else l) nobody fun _ => none)) ∧
  (∀ b n d s c, WordReady (.rnextU32 b n d) s c →
    exec (.rnextU32 b n d) s = .next (drawAfter s c b n d false fun t => .plain false c.t (c.draw t))) ∧
  (∀ b n d s c, WordReady (.rnextU64 b n d) s c →
    exec (.rnextU64 b n d) s = .next (drawAfter s c b n d true fun t => .plain true c.t (c.draw t))) ∧
  (∀ b n d s c, WordReady (.rnextF32 b n d) s c →
    exec (.rnextF32 b n d) s = .next (drawAfter s c b n d false fun t => .plain false c.t (BitVec.ofNat 64
      (roundX fp32 .rne (.ofRat (((c.draw t >>> 40).toNat : Rat) * Num.pow2 (-24)))).1))) ∧
  (∀ b d x s c, WordReady (.pcoll b d x) s c →
    exec (.pcoll b d x) s = .next (wordAfter s c b (fun t l =>
      if c.exec t then
        { l.setQ d.toNat (qReg (if (c.draw t >>> 49).toNat < qP (c.q t x) then 0x8000 else 0) (qTag (c.q t x))
          (qDep (c.q t x)) (List.replicate c.t 0)) with key := (c.lane t).key, ctr := (c.lane t).ctr + 1 }
      else if c.guardedOff t then { l with ctr := l.ctr + 1 } else l) nobody fun _ => none)) ∧
  (∀ c : Ctx, ∀ t, c.draw t = mix ((c.lane t).key + (c.lane t).ctr * 0x9E3779B97F4A7C15))

/-! ### Control flow -/

/-- R97, R170, R173, R171: the direct transfers, and the indirect ones where every active lane's target is good and its
call stack has room or an entry. R171, R173: a target that is not a multiple of 4 raises MISALIGNED, one beyond 56 bits
FAULT with cause 0, a full call stack RESOURCE, and so does RET on an empty one; the thread stays at the bundle. R173: the
call stack gives back what was pushed, and holds 16 entries. -/
def Obligations.Transfers : Prop :=
  (∀ o s c, WordReady (.bra o) s c →
    exec (.bra o) s = .next (wordAfter s c true (c.moveLane fun _ th => { th with pc := c.addr + BitVec.ofInt 56 (4 * o.toInt) })
      nobody fun _ => none)) ∧
  (∀ g q o s c, WordReady (.brq g q o) s c →
    exec (.brq g q o) s = .next (wordAfter s c true (c.moveLane fun t th =>
      if (decide (0x4000 ≤ qP ((c.lane t).getQ q.toNat)) != (g == 1#1))
      then { th with pc := c.addr + BitVec.ofInt 56 (4 * o.toInt) } else th) nobody fun _ => none)) ∧
  (∀ b s c, WordReady (.nop b) s c →
    exec (.nop b) s = .next (wordAfter s c b (fun _ l => l) nobody fun _ => none)) ∧
  (∀ x s c, WordReady (.brx x) s c → (∀ t, c.active t = true → goodTarget (c.prim t .i64 x)) →
    exec (.brx x) s = .next (wordAfter s c true (c.moveLane fun t th => { th with pc := (c.prim t .i64 x).truncate 56 })
      nobody fun _ => none)) ∧
  (∀ o s c, WordReady (.call o) s c → c.stackHas (fun depth => depth < 16) →
    exec (.call o) s = .next (wordAfter s c true (c.moveLane fun _ th =>
      { th with stack := th.stack.set th.depth (c.next.zeroExtend 64), depth := th.depth + 1
                pc := c.addr + BitVec.ofInt 56 (4 * o.toInt) }) nobody fun _ => none)) ∧
  (∀ x s c, WordReady (.callx x) s c → (∀ t, c.active t = true → goodTarget (c.prim t .i64 x)) →
    c.stackHas (fun depth => depth < 16) →
    exec (.callx x) s = .next (wordAfter s c true (c.moveLane fun t th =>
      { th with stack := th.stack.set th.depth (c.next.zeroExtend 64), depth := th.depth + 1
                pc := (c.prim t .i64 x).truncate 56 }) nobody fun _ => none)) ∧
  (∀ s c, WordReady .ret s c → c.stackHas (fun depth => 0 < depth) →
    exec .ret s = .next (wordAfter s c true (c.moveLane fun _ th =>
      { th with depth := th.depth - 1, pc := BitVec.ofNat 56 (th.stack.getD (th.depth - 1) 0).toNat })
      nobody fun _ => none)) ∧
  (∀ x s c, WordReady (.brx x) s c → c.distinct = true → (∀ t, c.active t = true → bitsOf (c.prim t .i64 x) 1 0 ≠ 0) →
    exec (.brx x) s = .next (wordAfter s c true (c.moveLane fun _ th => th.takeTrap .misaligned 0 c.start)
      c.livesActive fun _ => none)) ∧
  (∀ x s c, WordReady (.brx x) s c → c.distinct = true →
    (∀ t, c.active t = true → bitsOf (c.prim t .i64 x) 1 0 = 0 ∧ bitsOf (c.prim t .i64 x) 63 56 ≠ 0) →
    exec (.brx x) s = .next (wordAfter s c true
      (c.moveLane fun t th => th.takeTrap (.fault 0) ((c.prim t .i64 x).truncate 56) c.start) c.livesActive fun _ => none)) ∧
  (∀ o s c, WordReady (.call o) s c → c.distinct = true → c.stackHas (fun depth => 16 ≤ depth) →
    exec (.call o) s = .next (wordAfter s c true (c.moveLane fun _ th => th.takeTrap .resource 0 c.start)
      c.livesActive fun _ => none)) ∧
  (∀ s c, WordReady .ret s c → c.distinct = true → c.stackHas (fun depth => depth = 0) →
    exec .ret s = .next (wordAfter s c true (c.moveLane fun _ th => th.takeTrap .resource 0 c.start)
      c.livesActive fun _ => none)) ∧
  (∀ (th : Thread) (a : BitVec 56), th.stack.length = 16 →
      (th.depth < 16 → ∃ th', th.push a = some th' ∧ th'.pop = some (a, { th with stack := th'.stack })) ∧
      (16 ≤ th.depth → th.push a = none) ∧ (th.depth = 0 → th.pop = none))

/-- R175, R176: a Joiner point whose targets are good closes each active thread's region, parks it at its target, and
gathers the threads, in ascending lanes, in the crew's open batch where that has room; CALLJ pushes the return address
first. -/
def Obligations.JoinerPoints : Prop :=
  ∀ s c, c.distinct = true → c.someActive = true → c.allThreads = true →
    ((c.cr.batch.map fun b => b.threads.length).getD 0) + ((List.range 16).filter c.active).length ≤ 256 →
    (∀ lv x y, WordReady (.callj lv x y) s c → (∀ t, c.active t = true → goodTarget (c.prim t .i64 x)) →
      c.stackHas (fun depth => depth < 16) →
      exec (.callj lv x y) s = .next (wordAfter
        (s.updCrew c.ci fun cr => { cr with batch := some (c.joined (s.core c.core).lclk.toNat fun t =>
          ⟨c.place t, (c.prim t .i64 x).truncate 56, (c.r32 t y).truncate 16, lv.toNat⟩) })
        c true (c.moveLane fun t th =>
          { th with stack := th.stack.set th.depth (c.next.zeroExtend 64), depth := th.depth + 1, region := none, held := []
                    run := .parked .joiner, pc := (c.prim t .i64 x).truncate 56
                    cont := (c.prim t .i64 x).truncate 56 }) c.active fun _ => none)) ∧
    (∀ lv x, WordReady (.regroup lv x) s c → bitsOf c.next 1 0 = 0 →
      exec (.regroup lv x) s = .next (wordAfter
        (s.updCrew c.ci fun cr => { cr with batch := some (c.joined (s.core c.core).lclk.toNat fun t =>
          ⟨c.place t, c.next, (c.r32 t x).truncate 16, lv.toNat⟩) })
        c true (c.moveLane fun _ th => { th with region := none, held := [], run := .parked .joiner, pc := c.next, cont := c.next })
        c.active fun _ => none))

/-- R181, R182: JOIN and LEAVE change each active lane's own bit of the mask of its home group; WAITM parks the active
threads on the mask. R185, R186, R174: REGION records the marker, the live-ins, the call depth and the stream state of
each active thread; a discarded region takes the thread back to its marker, with that depth and that stream state. -/
def Obligations.MaskAndRegionWords : Prop :=
  (∀ b k s c, WordReady (.join b k) s c →
    exec (.join b k) s = .next (wordAfter
      (s.updCrew c.ci fun cr => { cr with masks := maskWrite c k.toNat true cr.masks }) c b (fun _ l => l) nobody fun _ => none)) ∧
  (∀ b k s c, WordReady (.leave b k) s c →
    exec (.leave b k) s = .next (wordAfter
      (s.updCrew c.ci fun cr => { cr with masks := maskWrite c k.toNat false cr.masks }) c b (fun _ l => l) nobody fun _ => none)) ∧
  (∀ (c : Ctx) (k : Nat) (set : Bool) (ms : List (BitVec 16)) (i j : Nat), k < 12 → i < ms.length → j < 16 →
    ((maskWrite c k set ms).getD i 0).getLsbD j =
      if i % 12 = k ∧ (List.range 16).any (fun t => c.active t && decide (c.place t = 16 * (i / 12) + j)) then set
      else (ms.getD i 0).getLsbD j) ∧
  (∀ k s c, WordReady (.waitm k) s c → c.distinct = true → c.allThreads = true →
    exec (.waitm k) s = .next (wordAfter s c true
      (c.moveLane fun _ th => { th with run := .parked (.mask k.toNat), pc := c.start, cont := c.next }) c.active fun _ => none)) ∧
  (∀ b v q s c, WordReady (.region b v q) s c →
    exec (.region b v q) s = .next (wordAfter s c b (fun t l => if c.active t then l.openRegion c.addr v q else l) nobody
      fun _ => none)) ∧
  (∀ (l : Lane) th m v q, l.occ = .thread th → ∃ th', (l.openRegion m v q).thread? = some th' ∧
    th'.region = some ⟨m, v, q, th.depth, l.key, l.ctr⟩ ∧ th'.pc = th.pc ∧ (l.openRegion m v q).v = l.v ∧
    (l.openRegion m v q).q = l.q) ∧
  (∀ (l : Lane) th r, l.occ = .thread th → th.region = some r → ∃ th', l.discardRegion.thread? = some th' ∧
    th'.pc = r.marker ∧ th'.depth = r.depth ∧ l.discardRegion.key = r.key ∧ l.discardRegion.ctr = r.ctr) ∧
  (∀ b v q s c, s.ctx? = some c → c.g.count ≠ 0 →
    exec (.region b v q) s = .next (trapAll c .illegalInstruction c.start s))

/-- R183, R187: EXIT ends each active thread: its mask bits are cleared and its registers and stream state stay. R357,
R361: TRAP takes a BREAK trap that carries its number, at the next word, in every active thread. -/
def Obligations.ExitAndTrapWords : Prop :=
  (∀ s c, WordReady .exit s c → c.distinct = true → c.allThreads = true → (∀ t, c.active t = true → c.place t < c.cr.lanes.length) →
      ∃ masks, masks.length = c.cr.masks.length ∧
        exec .exit s = .next (wordAfter (s.updCrew c.ci fun cr => { cr with masks := masks }) c true
          (fun t l => if c.active t then
              match l.occ with
              | .thread th => { l with occ := .exited th.tid }
              | _ => l
            else l) c.active fun _ => none) ∧
        ∀ i j, i < masks.length → j < 16 → (masks.getD i 0).getLsbD j =
          if (List.range 16).any (fun t => c.active t && decide (c.place t = 16 * (i / 12) + j)) then false
          else (c.cr.masks.getD i 0).getLsbD j) ∧
  (∀ i s c, WordReady (.trap i) s c → c.distinct = true → c.allThreads = true →
      exec (.trap i) s = .next (wordAfter s c true (c.moveLane fun _ th => th.takeTrap .brk (i.zeroExtend 56) c.next) c.active
        fun _ => none))

/-! ### Traps, system values and hints -/

/-- R367: in each active lane whose thread runs a trap routine, ERET pops the call stack, clears the trap record and
continues at the popped address, or traps as RET does where the stack is empty; in every other it raises ILLEGAL-
INSTRUCTION. -/
def Obligations.EretWord : Prop :=
  ∀ s c, WordReady .eret s c → c.distinct = true → c.allThreads = true →
    let routine (th : Thread) : Bool := th.trap.any fun r => !r.held
    exec .eret s = .next (wordAfter s c true
      (c.moveLane fun _ th =>
        if routine th then
          if th.depth = 0 then th.takeTrap .resource 0 c.start
          else { th with
            depth := th.depth - 1
            trap := none
            pc := BitVec.ofNat 56 (th.stack.getD (th.depth - 1) 0).toNat }
        else th.takeTrap .illegalInstruction 0 c.start)
      (fun t => c.active t && (c.lane t).thread?.any fun th => !(routine th && decide (th.depth ≠ 0)))
      fun _ => none)

/-- R368, R369: GETS writes the system value that its index names, pushing nothing; SETS writes the thread's flags, or the
crew's temperature where every active lane's value is a temperature. R368: what the system values are. -/
def Obligations.SystemWords : Prop :=
  (∀ b d x s c wide, WordReady (.gets b d x) s c → sysWide x.toNat = some wide →
    exec (.gets b d x) s = .next (wordAfter s c b
      (fun t l => if c.exec t then l.writeV d.toNat (.plain wide c.t (BitVec.ofNat 64 (sysValue s c t x.toNat))) else l)
      nobody fun _ => none)) ∧
  (∀ b x s c, WordReady (.sets b 8 x) s c →
    exec (.sets b 8 x) s = .next (wordAfter s c b (c.moveLane fun t th => { th with flags := (c.r32 t x).truncate 6 }) nobody
      fun _ => none)) ∧
  (∀ b x s c u, WordReady (.sets b 9 x) s c → c.active u = true → u < 16 → (∀ t, u < t → c.active t = false) →
    (∀ t, c.active t = true → tempBad ((c.prim t .f32 x).truncate 32) = false) →
    let v : Word := (c.prim u .f32 x).truncate 32
    exec (.sets b 9 x) s = .next (wordAfter (s.updCrew c.ci fun cr => { cr with temp := if v = 0x80000000#32 then 0 else v })
      c b (fun _ l => l) nobody fun _ => none)) ∧
  (∀ s c t th, (c.lane t).thread? = some th →
      sysValue s c t 0x00 = th.tid ∧ sysValue s c t 0x01 = c.place t % 16 ∧ sysValue s c t 0x02 = c.place t / 16 ∧
      sysValue s c t 0x03 = c.cr.num ∧ sysValue s c t 0x06 = c.core ∧ sysValue s c t 0x07 = c.core / 32 ∧
      sysValue s c t 0x08 = th.flags.toNat ∧ sysValue s c t 0x09 = c.cr.tempOld.toNat ∧ sysValue s c t 0x0A = c.nbv ∧
      sysValue s c t 0x0B = c.cr.mode.toNat ∧ sysValue s c t 0x0C = th.depth ∧
      sysValue s c t 0x0E = (s.core c.core).lclk.toNat ∧
      (th.trap = none → sysValue s c t 0x10 = 0 ∧ sysValue s c t 0x11 = 0 ∧ sysValue s c t 0x12 = 0) ∧
      (∀ r, th.trap = some r → sysValue s c t 0x10 = r.code.toNat + 16 * r.cause.toNat + (if r.nest then 256 else 0) ∧
        sysValue s c t 0x11 = r.addr.toNat))

/-- R90, R94: a hint that keeps the rules joins its target's bundle and changes nothing else; one that breaks them is
trapped itself: the 24th word of a run, a second hint of one kind before a target, a third HIMM, and an HIMM that does not
follow the first at once. -/
def Obligations.HintWords : Prop :=
  (∀ i s c, s.ctx? = some c → c.g.count + 1 < 24 → c.g.bundle.himm = [] ∨ (c.g.bundle.himm.length = 1 ∧ c.g.bundle.himmLast = true) →
    exec (.himm i) s = .next (hintAfter s c fun b => { b with himm := b.himm ++ [i], himmLast := true })) ∧
  (∀ h u s c, s.ctx? = some c → c.g.count + 1 < 24 → c.g.bundle.sel = none →
    exec (.hsel h u) s = .next (hintAfter s c fun b => { b with sel := some (h == 1#1, u) })) ∧
  (∀ g q s c, s.ctx? = some c → c.g.count + 1 < 24 → c.g.bundle.grd = none →
    exec (.hgrd g q) s = .next (hintAfter s c fun b => { b with grd := some (g == 1#1, q) })) ∧
  (∀ m s c, s.ctx? = some c → c.g.count + 1 < 24 → c.g.bundle.rnd = none →
    exec (.hrnd m) s = .next (hintAfter s c fun b => { b with rnd := some m })) ∧
  (∀ m s c, s.ctx? = some c → c.g.count + 1 < 24 → c.g.bundle.scp = none →
    exec (.hscp m) s = .next (hintAfter s c fun b => { b with scp := some m })) ∧
  (∀ m s c, s.ctx? = some c → c.g.count + 1 < 24 → c.g.bundle.cch = none →
    exec (.hcch m) s = .next (hintAfter s c fun b => { b with cch := some m })) ∧
  (∀ m s c, s.ctx? = some c → c.g.count + 1 < 24 → c.g.bundle.sch = none →
    exec (.hsch m) s = .next (hintAfter s c fun b => { b with sch := some m })) ∧
  (∀ i s c, s.ctx? = some c → i.isHint = true → 24 ≤ c.g.count + 1 →
    exec i s = .next (trapAll c .illegalInstruction c.addr s)) ∧
  (∀ h u s c, s.ctx? = some c → c.g.bundle.sel.isSome = true →
    exec (.hsel h u) s = .next (trapAll c .illegalInstruction c.addr s)) ∧
  (∀ g q s c, s.ctx? = some c → c.g.bundle.grd.isSome = true →
    exec (.hgrd g q) s = .next (trapAll c .illegalInstruction c.addr s)) ∧
  (∀ m s c, s.ctx? = some c → c.g.bundle.rnd.isSome = true →
    exec (.hrnd m) s = .next (trapAll c .illegalInstruction c.addr s)) ∧
  (∀ m s c, s.ctx? = some c → c.g.bundle.scp.isSome = true →
    exec (.hscp m) s = .next (trapAll c .illegalInstruction c.addr s)) ∧
  (∀ m s c, s.ctx? = some c → c.g.bundle.cch.isSome = true →
    exec (.hcch m) s = .next (trapAll c .illegalInstruction c.addr s)) ∧
  (∀ m s c, s.ctx? = some c → c.g.bundle.sch.isSome = true →
    exec (.hsch m) s = .next (trapAll c .illegalInstruction c.addr s)) ∧
  (∀ i s c, s.ctx? = some c → 2 ≤ c.g.bundle.himm.length ∨ (c.g.bundle.himm ≠ [] ∧ c.g.bundle.himmLast = false) →
    exec (.himm i) s = .next (trapAll c .illegalInstruction c.addr s))

/-! ### Memory -/

/-- R207, R208, R209: LD and LDS leave each executing lane's word on its way to D, extended as the width code says; memory
stays. -/
def Obligations.Loads : Prop :=
  (∀ b d a x w s c (g : Nat → Page), WordReady (.ld b d a x w) s c → PlainAccess s c →
    poolShort s c (fun t => oneBlock (c.ea t a x)) = false →
    let n := widthBytes w
    let put (t : Nat) (s' : State) : State := s'.arrive ⟨c.ci, c.place t,
      plainRegs c.t d.toNat (ldRegs w) (extend w (leNat (s'.physRead (dieOf c.cr.core) (g t) n))), 0, s'.wordId c,
      oneBlock (c.ea t a x)⟩
    (∀ t < 16, c.exec t = true → reaches (metBy c b c.exec put s t) c (c.ea t a x) n {} (g t) ∧ s.poisonedOn (dieOf c.cr.core) (g t) n = false) →
    exec (.ld b d a x w) s = .next (byLanes c b c.exec put s) ∧
      (byLanes c b c.exec put s).mem = s.mem ∧ sameDevice s (byLanes c b c.exec put s)) ∧
  (∀ b d a x w s c, WordReady (.lds b d a x w) s c →
    let n := widthBytes w
    let put (t : Nat) (s' : State) : State := s'.arrive ⟨c.ci, c.place t,
      plainRegs c.t d.toNat (ldRegs w) (extend w (c.cr.scratch.nat (c.soff t a x) n)), 0, 0, []⟩
    (∀ t < 16, c.exec t = true → c.soff t a x % n = 0 ∧ c.soff t a x + n ≤ c.cr.alloc) →
    exec (.lds b d a x w) s = .next (byLanes c b c.exec put s) ∧
      (byLanes c b c.exec put s).mem = s.mem ∧ sameDevice s (byLanes c b c.exec put s)) ∧
  (∀ x, x < 2 ^ 8 → extend 0 x = x ∧ extend 1 x = if x < 2 ^ 7 then x else x + (2 ^ 32 - 2 ^ 8)) ∧
  (∀ x, x < 2 ^ 16 → extend 2 x = x ∧ extend 3 x = if x < 2 ^ 15 then x else x + (2 ^ 32 - 2 ^ 16))

/-- R193, R210, R214: LDD brings the primal and the tangents of a dual page, tangent k from 2^e times k + 1 bytes on, and
no others; BHDR.rd the block's descriptor. R212: LDT brings one element of a block, converted to its type, and raises the
conversion's flags; under .d the tangents come from the tangent blocks, each under its own descriptor. R62, R64: what an
element of each block format is. A part that fails decides before any later part is looked at (log 5). -/
def Obligations.DualAndTypedLoads : Prop :=
  (∀ b d a x f s c (xs : Nat → List Nat), WordReady (.ldd b d a x f) s c → PlainAccess s c →
    let blocks (t : Nat) : List Nat := (lddParts s c (c.place t) (c.ea t a x) c.t).map fun y => y / 64
    poolShort s c blocks = false →
    let n := if f == 1#1 then 8 else 4
    let put (t : Nat) (s' : State) : State := s'.arrive ⟨c.ci, c.place t,
      valRegs d.toNat ⟨f == 1#1, BitVec.ofNat 64 ((xs t).getD 0 0), (List.range c.t).map fun k =>
        BitVec.ofNat 64 ((xs t).getD (k + 1) 0)⟩, 0, s'.wordId c, blocks t⟩
    (∀ t < 16, c.exec t = true → c.ea t a x % n = 0 ∧ isWindow (c.ea t a x) = false ∧
      lddRead s c (c.place t) (c.ea t a x) n = .ok (xs t)) →
    exec (.ldd b d a x f) s = .next (byLanes c b c.exec put s) ∧ (byLanes c b c.exec put s).mem = s.mem) ∧
  (∀ (s : State) (c : Ctx) p a n g, (s.crews[c.ci]?) = some c.cr → (s.core c.cr.core).faults = [] → reaches s c a n {} g →
    let raw (g : Page) : Prop := g.typed = true → (Sparse.get s.desc (g.pa / 64)).toNat % 256 = 0
    (g.dual = none → raw g → s.poisonedOn (dieOf c.cr.core) g n = false →
      lddRead s c p a n = .ok [leNat (s.physRead (dieOf c.cr.core) g n)]) ∧
    (∀ e dt (gs : Nat → Page), g.dual = some (e, dt) → raw g → s.poisonedOn (dieOf c.cr.core) g n = false →
      (∀ k < min c.t dt, reaches s c (a + (k + 1) * 2 ^ e) n {} (gs k) ∧ raw (gs k) ∧ s.poisonedOn (dieOf c.cr.core) (gs k) n = false) →
      lddRead s c p a n = .ok (leNat (s.physRead (dieOf c.cr.core) g n) ::
        (List.range (min c.t dt)).map fun k => leNat (s.physRead (dieOf c.cr.core) (gs k) n))) ∧
    (¬ raw g → lddRead s c p a n = .trap (.fault 6) a)) ∧
  (∀ b d a x f s c (g : Nat → Page), WordReady (.ldd b d a x f) s c → PlainAccess s c →
    let blocks (t : Nat) : List Nat := (lddParts s c (c.place t) (c.ea t a x) c.t).map fun y => y / 64
    poolShort s c blocks = false →
    let n := if f == 1#1 then 8 else 4
    let put (t : Nat) (s' : State) : State := s'.arrive ⟨c.ci, c.place t, valRegs d.toNat ⟨f == 1#1,
      BitVec.ofNat 64 (leNat (s.physRead (dieOf c.cr.core) (g t) n)), List.replicate c.t 0⟩, 0, s'.wordId c, blocks t⟩
    (∀ t < 16, c.exec t = true → reaches s c (c.ea t a x) n {} (g t) ∧ (g t).dual = none ∧
      ((g t).typed = true → (Sparse.get s.desc ((g t).pa / 64)).toNat % 256 = 0) ∧ s.poisonedOn (dieOf c.cr.core) (g t) n = false) →
    exec (.ldd b d a x f) s = .next (byLanes c b c.exec put s)) ∧
  (∀ b d a s c (g : Nat → Page), WordReady (.bhdrRd b d a) s c → PlainAccess s c →
    poolShort s c (fun t => oneBlock (c.prim t .i64 a).toNat) = false →
    let put (t : Nat) (s' : State) : State := s'.arrive ⟨c.ci, c.place t,
      plainRegs c.t d.toNat 1 (if (g t).typed then (Sparse.get s.desc ((g t).pa / 64)).toNat else 0), 0, s'.wordId c,
      oneBlock (c.prim t .i64 a).toNat⟩
    (∀ t < 16, c.exec t = true → reaches s c (c.prim t .i64 a).toNat 64 {} (g t)) →
    exec (.bhdrRd b d a) s = .next (byLanes c b c.exec put s) ∧ (byLanes c b c.exec put s).mem = s.mem) ∧
  (∀ b d a x u ty s c (y : Nat → Nat × Num.Flags × List Nat), WordReady (.ldt b d a x u ty) s c → PlainAccess s c →
    let blocks (t : Nat) : List Nat := (typedParts s c (c.place t) (c.prim t .i64 a).toNat c.t (u == 1#1)).map fun z => z / 64
    poolShort s c blocks = false →
    let put (t : Nat) (s' : State) : State :=
      let s1 := s'.arrive ⟨c.ci, c.place t,
        valRegs d.toNat ⟨ty == 1#2, BitVec.ofNat 64 (y t).1, (List.range c.t).map fun k => BitVec.ofNat 64 ((y t).2.2.getD k 0)⟩,
        0, s'.wordId c, blocks t⟩
      if (c.lane t).thread?.isSome then s1.setFlags c.ci (c.place t) (y t).2.1.toBits else s1
    (∀ t < 16, c.exec t = true → (c.prim t .i64 a).toNat % 64 = 0 ∧ isWindow (c.prim t .i64 a).toNat = false ∧
      ldtRead s c (c.place t) (c.prim t .i64 a).toNat (c.r32 t x).toNat (u == 1#1) ty = .ok (y t)) →
    exec (.ldt b d a x u ty) s = .next (byLanes c b c.exec put s) ∧ (byLanes c b c.exec put s).mem = s.mem) ∧
  (∀ (s : State) (c : Ctx) p a i (u : Bool) ty g, (s.crews[c.ci]?) = some c.cr → (s.core c.cr.core).faults = [] →
    reaches s c a 64 {} g → s.poisonedOn (dieOf c.cr.core) g 64 = false →
    let elt (g : Page) : Except Nat (Nat × Num.Flags) :=
      eltRead (if g.typed then (Sparse.get s.desc (g.pa / 64)).toNat else 0) (s.physRead (dieOf c.cr.core) g 64) i ty
        (if ty == 1#2 then fp64 else fp32) c.mode
    (∀ r, elt g = .ok r → u = false ∨ g.dual = none → ldtRead s c p a i u ty = .ok (r.1, r.2, [])) ∧
    (∀ r e dt (gs : Nat → Page) (rs : Nat → Nat × Num.Flags), elt g = .ok r → u = true → g.dual = some (e, dt) →
      (∀ k < min c.t dt, reaches s c (a + (k + 1) * 2 ^ e) 64 {} (gs k) ∧ s.poisonedOn (dieOf c.cr.core) (gs k) 64 = false ∧
        elt (gs k) = .ok (rs k)) →
      ldtRead s c p a i u ty = .ok (r.1, r.2, (List.range (min c.t dt)).map fun k => (rs k).1)) ∧
    (∀ cause, elt g = .error cause → ldtRead s c p a i u ty = .trap (.fault cause) a)) ∧
  (∀ b d a x ty s c (g : Nat → Page) (r : Nat → Nat × Num.Flags), WordReady (.ldt b d a x 0 ty) s c → PlainAccess s c →
    let blocks (t : Nat) : List Nat := (typedParts s c (c.place t) (c.prim t .i64 a).toNat c.t false).map fun z => z / 64
    poolShort s c blocks = false →
    let put (t : Nat) (s' : State) : State :=
      let s1 := s'.arrive ⟨c.ci, c.place t, valRegs d.toNat ⟨ty == 1#2, BitVec.ofNat 64 (r t).1, List.replicate c.t 0⟩,
        0, s'.wordId c, blocks t⟩
      if (c.lane t).thread?.isSome then s1.setFlags c.ci (c.place t) (r t).2.toBits else s1
    (∀ t < 16, c.exec t = true → reaches s c (c.prim t .i64 a).toNat 64 {} (g t) ∧ s.poisonedOn (dieOf c.cr.core) (g t) 64 = false ∧
      eltRead (if (g t).typed then (Sparse.get s.desc ((g t).pa / 64)).toNat else 0)
        (s.physRead (dieOf c.cr.core) (g t) 64) (c.r32 t x).toNat ty (if ty == 1#2 then fp64 else fp32) c.mode = .ok (r t)) →
    exec (.ldt b d a x 0 ty) s = .next (byLanes c b c.exec put s)) ∧
  (∀ desc block i ty F mode, desc % 256 = 0 → eltRead desc block i ty F mode =
    if i < (if ty == 1#2 then 8 else 16) then .ok (leNat block / 2 ^ ((if ty == 1#2 then 64 else 32) * i) %
      2 ^ (if ty == 1#2 then 64 else 32), {})
    else .error 7) ∧
  (∀ desc block i (ty : BitVec 2) F mode, 0x0A < desc % 256 → eltRead desc block i ty F mode = .error 6) ∧
  (∀ p ∈ [(0x01, 8, Num.Elt.flt Num.e4m3), (0x02, 8, .int ⟨8, true⟩), (0x03, 8, .int ⟨8, false⟩), (0x04, 4, .int ⟨4, true⟩),
      (0x05, 4, .int ⟨4, false⟩), (0x06, 16, .flt Num.fp16), (0x07, 16, .flt Num.bf16), (0x08, 16, .int ⟨16, true⟩),
      (0x09, 32, .flt fp32), (0x0A, 64, .flt fp64)],
    ∀ desc block i (ty : BitVec 2) F mode, desc % 256 = p.1 →
      let scale : Int := if (desc / 256) % 256 < 128 then ((desc / 256 % 256 : Nat) : Int) else (desc / 256 % 256 : Nat) - 256
      let enc := leNat block / 2 ^ (p.2.1 * i) % 2 ^ p.2.1
      let val : XR := match p.2.2 with
        | .flt f => decodeF f enc
        | .int t => .ofRat (t.val enc)
        | .raw => .zero
      let x : XR := match val with
        | .fin n q => .fin n (q * (2 : Rat) ^ scale)
        | y => y
      let snan : Bool := match p.2.2 with
        | .flt f => isSNaN f enc
        | _ => false
      let r := if ty == 2#2 then toInteger ⟨32, true⟩ mode x else roundX F mode x
      eltRead desc block i ty F mode = if i < 512 / p.2.1 then .ok (r.1, r.2.or { inv := snan }) else .error 7)

/-- R207, R208, R209: ST and STS store the low bytes of their source at the lane's address, lane after lane; every other
byte of memory stays.  R380: a store performed at .dev or wider rings each collective ring whose TAIL it writes, and one
at a narrower scope none (that a plain write at such a scope is a doorbell is the model's reading: log 39). -/
def Obligations.Stores : Prop :=
  (∀ (s : State) p va n, s.wrote p 0 va n = s ∧ s.wrote p 1 va n = s ∧ ∀ scope, ∃ l, s.wrote p scope va n = { s with rung := l }) ∧
  (∀ (s : State) p scope va n pa r h x, 2 ≤ scope → isWindow va = false → s.devPa p va = some pa → r < min 16 ((s.part p).at 97 1) →
    s.devPa p (s.ringHeader p r) = some h → s.devNat p (s.ringHeader p r) 8 = some x →
    BitVec.ofNat 64 x ≠ Sparse.get s.tails (16 * p + r) → (p, r) ∉ s.rung →
    ((p, r) ∈ (s.wrote p scope va n).rung ↔ pa < h + 8 ∧ h < pa + n)) ∧
  (∀ b d a x w s c (g : Nat → Page), WordReady (.st b d a x w) s c → PlainAccess s c →
    poolShort s c (fun t => oneBlock (c.ea t a x)) = false →
    let n := widthBytes w
    let put (t : Nat) (s' : State) : State :=
      (s'.physWrite (g t) (leBytes n (storeValue c t d w))).wrote c.cr.part c.scope (c.ea t a x) n
    (∀ t < 16, c.stores t = true → reaches (metBy c b c.stores put s t) c (c.ea t a x) n { write := true } (g t)) →
    exec (.st b d a x w) s = .next (byLanes c b c.stores put s) ∧
      sameDevice { s with rung := (byLanes c b c.stores put s).rung } (byLanes c b c.stores put s) ∧
      (s.formed → ∀ z, (∀ t < 16, c.stores t = true → ¬ (g t).covers n z) →
        (byLanes c b c.stores put s).mem.byte z = s.mem.byte z)) ∧
  (∀ b d a x w s c, WordReady (.sts b d a x w) s c →
    let n := widthBytes w
    let put (t : Nat) (s' : State) : State := s'.scratchStore c.ci (c.soff t a x) (leBytes n (storeValue c t d w))
    (∀ t < 16, c.stores t = true → c.soff t a x % n = 0 ∧ c.soff t a x + n ≤ c.cr.alloc ∧
      c.cr.meetsQueue (c.soff t a x) n = false) →
    exec (.sts b d a x w) s = .next (byLanes c b c.stores put s) ∧ (byLanes c b c.stores put s).mem = s.mem ∧
      ∀ z, (∀ t < 16, c.stores t = true → z < c.soff t a x ∨ c.soff t a x + n ≤ z) → ∀ cr cr',
        s.crews[c.ci]? = some cr → cr.scratch.wf = true → (byLanes c b c.stores put s).crews[c.ci]? = some cr' →
        cr'.scratch.byte z = cr.scratch.byte z)

/-- R213, R210, R214, R191: STD stores the primal and eight tangents of a dual page, those that the register lacks as
zero; STT a packed block with its descriptor, and under .d each tangent block with its own; and BHDR.wr a descriptor
alone. R65: a block is packed under the least scale that holds its largest finite element. R380: a store performed
at .dev or wider rings each collective ring whose TAIL it writes (for a plain write that is the model's reading: log
39). -/
def Obligations.DualStores : Prop :=
  (∀ b d a x f s c (ps : Nat → List (Nat × Page)), WordReady (.std b d a x f) s c → PlainAccess s c →
    poolShort s c (fun t => (lddParts s c (c.place t) (c.ea t a x) 8).map fun y => y / 64) = false →
    let ty : OpTy := if f == 1#1 then .f64 else .f32
    let n := if f == 1#1 then 8 else 4
    let put (t : Nat) (s' : State) : State := ((ps t).zip ((c.opnd t ty d).bits.toNat :: (List.range 8).map fun k =>
      ((c.opnd t ty d).tan.getD k 0).toNat)).foldl (fun s x =>
        (s.physWrite x.1.2 (leBytes n x.2)).wrote c.cr.part c.scope x.1.1 n) s'
    (∀ t < 16, c.stores t = true → c.ea t a x % n = 0 ∧
      stdPages (metBy c b c.stores put s t) c (c.place t) (c.ea t a x) = .ok (ps t)) →
    exec (.std b d a x f) s = .next (byLanes c b c.stores put s) ∧
      (s.formed → ∀ z, (∀ t < 16, c.stores t = true → ∀ p ∈ ps t, ¬ p.2.covers n z) →
        (byLanes c b c.stores put s).mem.byte z = s.mem.byte z)) ∧
  (∀ (s : State) (c : Ctx) p a n g, (s.crews[c.ci]?) = some c.cr → (s.core c.cr.core).faults = [] →
    reaches s c a n { write := true } g →
    let raw (g : Page) : Prop := g.typed = true → (Sparse.get s.desc (g.pa / 64)).toNat % 256 = 0
    (∀ e dt (gs : Nat → Page), g.dual = some (e, dt) → raw g →
      (∀ k < min 8 dt, reaches s c (a + (k + 1) * 2 ^ e) n { write := true } (gs k) ∧ raw (gs k)) →
      stdPages s c p a = .ok ((a, g) :: (List.range (min 8 dt)).map fun k => (a + (k + 1) * 2 ^ e, gs k))) ∧
    (g.dual = none → stdPages s c p a = .trap (.fault 4) a)) ∧
  (∀ b d a x f s c t g e dt (gs : Nat → Page), WordReady (.std b d a x f) s c → PlainAccess s c → t < 16 →
    (∀ u < 16, c.stores u = decide (u = t)) →
    poolShort s c (fun t => (lddParts s c (c.place t) (c.ea t a x) 8).map fun y => y / 64) = false →
    let ty : OpTy := if f == 1#1 then .f64 else .f32
    let n := if f == 1#1 then 8 else 4
    let raw (g : Page) : Prop := g.typed = true → (Sparse.get s.desc (g.pa / 64)).toNat % 256 = 0
    reaches s c (c.ea t a x) n { write := true } g → raw g → g.dual = some (e, dt) →
    (∀ k < min 8 dt, reaches s c (c.ea t a x + (k + 1) * 2 ^ e) n { write := true } (gs k) ∧ raw (gs k)) →
    let adr (k : Nat) : Nat := c.ea t a x + (k + 1) * 2 ^ e
    exec (.std b d a x f) s = .next (byLanes c b c.stores (fun _ s' => (List.range (min 8 dt)).foldl (fun s k =>
      (s.physWrite (gs k) (leBytes n ((c.opnd t ty d).tan.getD k 0).toNat)).wrote c.cr.part c.scope (adr k) n)
      ((s'.physWrite g (leBytes n (c.opnd t ty d).bits.toNat)).wrote c.cr.part c.scope (c.ea t a x) n)) s)) ∧
  (∀ b d a s c (g : Nat → Page), WordReady (.bhdrWr b d a) s c → PlainAccess s c →
    poolShort s c (fun t => oneBlock (c.prim t .i64 a).toNat) = false →
    let v (t : Nat) : Nat := (c.r32 t d).toNat % 2 ^ 16
    let put (t : Nat) (s' : State) : State :=
      s'.setDesc (g t) (BitVec.ofNat 16 (if v t % 256 = 0 then 0 else v t))
    (∀ t < 16, c.stores t = true → v t % 256 ≤ 0x0A ∧
      reaches s c (c.prim t .i64 a).toNat 64 { write := true } (g t) ∧ (g t).typed = true) →
    exec (.bhdrWr b d a) s = .next (byLanes c b c.stores put s) ∧ (byLanes c b c.stores put s).mem = s.mem) ∧
  (∀ b d a x (u y : BitVec 1) s c (ps : Nat → List (Nat × Page)), WordReady (.stt b d a x u y) s c → PlainAccess s c →
    poolShort s c (fun t => (typedParts s c (c.place t) (c.prim t .i64 a).toNat 8 (u == 1#1)).map fun z => z / 64) = false →
    let fmt (t : Nat) : Nat := (c.r32 t x).toNat % 256
    let src (t : Nat) : Nat := (c.r32 t d).toNat
    let w := if y == 1#1 then 8 else 4
    let F := if y == 1#1 then fp64 else fp32
    let n (t : Nat) : Nat := ((Num.eltOf (fmt t)).map Num.Elt.perBlock).getD 0
    let elt (t j i : Nat) : Nat := c.cr.scratch.nat (src t + (j * n t + i) * w) w
    let block (t j : Nat) : List Byte × Nat × Num.Flags :=
      if j ≤ c.t then Num.packBlock (fmt t) c.mode ((List.range (n t)).map fun i => decodeF F (elt t j i))
      else (List.replicate 64 0, fmt t, {})
    let nan (t : Nat) : Bool := (List.range (n t)).any fun i => isSNaN F (elt t 0 i)
    let put (t : Nat) (s' : State) : State :=
      ((ps t).zipIdx.foldl (fun (s : State) (x : (Nat × Page) × Nat) =>
        ((s.physWrite x.1.2 (block t x.2).1).setDesc x.1.2 (BitVec.ofNat 16 (block t x.2).2.1)).wrote c.cr.part c.scope
          x.1.1 64) s').setFlags c.ci (c.place t) ((block t 0).2.2.or { inv := nan t }).toBits
    (∀ t < 16, c.stores t = true → (c.prim t .i64 a).toNat % 64 = 0 ∧ src t % w = 0 ∧ 0 < fmt t ∧ fmt t ≤ 0x0A ∧
      src t + (if u == 1#1 then 1 + c.t else 1) * n t * w ≤ c.cr.alloc ∧
      sttPages (metBy c b c.stores put s t) c (c.place t) (c.prim t .i64 a).toNat (u == 1#1) = .ok (ps t)) →
    exec (.stt b d a x u y) s = .next (byLanes c b c.stores put s) ∧
      (s.formed → ∀ z, (∀ t < 16, c.stores t = true → ∀ p ∈ ps t, ¬ p.2.covers 64 z) →
        (byLanes c b c.stores put s).mem.byte z = s.mem.byte z)) ∧
  (∀ (s : State) (c : Ctx) p a (u : Bool) g, (s.crews[c.ci]?) = some c.cr → (s.core c.cr.core).faults = [] →
    reaches s c a 64 { write := true } g →
    (u = false → g.typed = true → sttPages s c p a u = .ok [(a, g)]) ∧
    (∀ e dt (gs : Nat → Page), u = true → g.typed = true → g.dual = some (e, dt) →
      (∀ k < min 8 dt, reaches s c (a + (k + 1) * 2 ^ e) 64 { write := true } (gs k) ∧ (gs k).typed = true) →
      sttPages s c p a u = .ok ((a, g) :: (List.range (min 8 dt)).map fun k => (a + (k + 1) * 2 ^ e, gs k))) ∧
    (g.typed = false ∨ (u = true ∧ g.dual = none) → sttPages s c p a u = .trap (.fault 4) a)) ∧
  (∀ b d a x (y : BitVec 1) s c t g, WordReady (.stt b d a x 0 y) s c → PlainAccess s c → t < 16 →
    (∀ u < 16, c.stores u = decide (u = t)) →
    poolShort s c (fun t => (typedParts s c (c.place t) (c.prim t .i64 a).toNat 8 false).map fun z => z / 64) = false →
    let fmt := (c.r32 t x).toNat % 256
    let src := (c.r32 t d).toNat
    let w := if y == 1#1 then 8 else 4
    let F := if y == 1#1 then fp64 else fp32
    let n : Nat := ((Num.eltOf fmt).map Num.Elt.perBlock).getD 0
    let elts := (List.range n).map fun i => c.cr.scratch.nat (src + i * w) w
    let block := Num.packBlock fmt c.mode (elts.map (decodeF F))
    reaches s c (c.prim t .i64 a).toNat 64 { write := true } g → g.typed = true → src % w = 0 → 0 < fmt → fmt ≤ 0x0A →
    src + n * w ≤ c.cr.alloc →
    exec (.stt b d a x 0 y) s = .next (byLanes c b c.stores (fun _ s' =>
      (((s'.physWrite g block.1).setDesc g (BitVec.ofNat 16 block.2.1)).wrote c.cr.part c.scope (c.prim t .i64 a).toNat
        64).setFlags c.ci (c.place t) (block.2.2.or { inv := elts.any (isSNaN F) }).toBits) s)) ∧
  (∀ fmt (e : Num.Elt) mode (xs : List XR), Num.eltOf fmt = some e → e ≠ .raw → xs.length = e.perBlock →
    ∃ (bytes : List Byte) (scale : Int) (fl : Num.Flags),
      Num.packBlock fmt mode xs = (bytes, fmt + 256 * (scale % 256).toNat, fl) ∧ bytes.length = 64 ∧
      -128 ≤ scale ∧ scale ≤ 127 ∧ (fmt = 0x09 ∨ fmt = 0x0A → scale = 0) ∧
      ((∀ x ∈ xs, x.isFin = true → x.isZero = true) → scale = 0) ∧
      (fmt ≠ 0x09 → fmt ≠ 0x0A → (∃ x ∈ xs, x.isFin = true ∧ x.isZero = false) →
        (scale < 127 → ∀ x ∈ xs, |x.rat| ≤ e.fmax * (2 : Rat) ^ scale) ∧
        ∀ r : Int, -128 ≤ r → r < scale → ∃ x ∈ xs, e.fmax * (2 : Rat) ^ r < |x.rat|) ∧
      ∀ i x, xs[i]? = some x →
        let y : XR := match x with
          | .fin n q => .fin n (q * (2 : Rat) ^ (-scale))
          | z => z
        leNat bytes / 2 ^ (e.width * i) % 2 ^ e.width = match e with
          | .flt F => (roundX F mode y).1
          | .int t => (toInteger t mode y).1
          | .raw => 0) ∧
  (([0x01, 0x02, 0x03, 0x04, 0x05, 0x06, 0x08].map fun f => (Num.eltOf f).map Num.Elt.fmax) =
    [some 448, some 127, some 255, some 7, some 15, some 65504, some 32767])

/-- R203, R204, R208: an access that is not aligned traps, one that its page refuses traps with the cause, and one that
meets no valid entry, or a page that admits no write, parks its thread on the fault buffer, in an entry for the page that
the fault lies on, of 64 KiB or 2 MiB. R190: the order of a page's tests. -/
def Obligations.AccessTraps : Prop :=
  (∀ b d a x w s c, WordReady (.ld b d a x w) s c → poolShort s c (fun t => oneBlock (c.ea t a x)) = false →
    (∀ t < 16, c.exec t = true → (c.lane t).thread?.isSome = true ∧ c.ea t a x % widthBytes w ≠ 0) →
    exec (.ld b d a x w) s = .next (byLanes c b c.exec (fun t s' => failLane c t .misaligned 0 s') s)) ∧
  (∀ b d a x w s c, WordReady (.st b d a x w) s c → poolShort s c (fun t => oneBlock (c.ea t a x)) = false →
    (∀ t < 16, c.exec t = true → (c.lane t).thread?.isSome = true ∧ c.ea t a x % widthBytes w ≠ 0) →
    exec (.st b d a x w) s = .next (byLanes c b c.exec (fun t s' => failLane c t .misaligned 0 s') s)) ∧
  -- LD and ST at a page that refuses them, or beyond the address space
  (∀ b d a x w s c (i : Instr) (q : Ask) (cause adr : Nat → Nat),
    (i = .ld b d a x w ∧ q = {}) ∨ (i = .st b d a x w ∧ q = { write := true }) → WordReady i s c → PlainAccess s c →
    poolShort s c (fun t => oneBlock (c.ea t a x)) = false →
    let put (t : Nat) (s' : State) : State := failLane c t (.fault (cause t)) (adr t) s'
    (∀ t < 16, c.exec t = true → (c.lane t).thread?.isSome = true ∧ c.ea t a x % widthBytes w = 0 ∧
      ((c.ea t a x < 2 ^ 56 ∧ isWindow (c.ea t a x) = false ∧
          s.xlat c.cr.part (c.ea t a x) q = .trap (.fault (cause t)) (adr t)) ∨
        (2 ^ 56 ≤ c.ea t a x ∧ cause t = 0 ∧ adr t = c.ea t a x % 2 ^ 56))) →
    exec i s = .next (byLanes c b c.exec put s)) ∧
  -- LD and ST at an address without a valid entry, or ST at a page that admits no write
  (∀ b d a x w s c (i : Instr) (q : Ask), (i = .ld b d a x w ∧ q = {}) ∨ (i = .st b d a x w ∧ q = { write := true }) →
    WordReady i s c → PlainAccess s c → poolShort s c (fun t => oneBlock (c.ea t a x)) = false →
    let put (t : Nat) (s' : State) : State := s'.faultLane t (c.ea t a x) q.write c.start
    (∀ t < 16, c.exec t = true → (c.lane t).thread?.isSome = true ∧ c.ea t a x % widthBytes w = 0 ∧ c.ea t a x < 2 ^ 56 ∧
      isWindow (c.ea t a x) = false ∧ s.xlat c.cr.part (c.ea t a x) q = .fault (c.ea t a x) q.write) →
    exec i s = .next (byLanes c b c.exec put s)) ∧
  (∀ (s : State) (c : Ctx) (q : Ask) va, (walk s.mem va levels (s.part c.cr.part).root) = .miss → s.xlat c.cr.part va q = .fault va q.write) ∧
  (∀ (s : State) (c : Ctx) (q : Ask) va, (walk s.mem va levels (s.part c.cr.part).root) = .bad → s.xlat c.cr.part va q = .trap (.fault 0) va) ∧
  (∀ (s : State) (c : Ctx) (q : Ask) va g, walk s.mem va levels (s.part c.cr.part).root = .page g → s.module.pagesOut = [] →
    s.xlat c.cr.part va q =
      if g.priv = true ∧ q.device = false then .trap (.fault 1) va
      else if q.fetch = true ∧ g.x = false then .trap (.fault 1) va
      else if q.kindOk g = false then .trap (.fault 4) va
      else if q.write = true ∧ g.w = false then .fault va true else .ok g) ∧
  (∀ (s : State) (c : Ctx) s' t tr a, s.ctx? = some c → t < c.g.lanes.length → c.place t < c.cr.lanes.length →
    (c.lane t).thread?.isSome = true → s' = failLane c t tr a s →
    ∃ th, s'.thread? c.ci (c.place t) = some th ∧ th.pc = c.start ∧ th.run = .trapping ∧ th.region = none ∧
      ∃ r, th.trap = some r ∧ r.code = tr.code ∧ r.cause = tr.cause ∧ r.addr = BitVec.ofNat 56 a ∧ r.held = true) ∧
  (∀ (s : State) (c : Ctx) s' t a write, s.ctx? = some c → t < c.g.lanes.length → c.place t < c.cr.lanes.length →
    (c.lane t).thread?.isSome = true → (∀ th, (c.lane t).thread? = some th → th.region = none) →
    (s.core c.cr.core).faults.length < Config.faultEntries → c.cr.core < s.cores.length →
    s' = s.faultLane t a write c.start →
    (∃ th, s'.thread? c.ci (c.place t) = some th ∧ th.pc = c.start ∧ th.run = .parked (.fault a write)) ∧
    ∃ e ∈ (s'.core c.cr.core).faults, e.crew = c.ci ∧ e.page ≤ a / 65536 ∧ a / 65536 < e.page + e.span ∧ e.write = write ∧
      ∃ w ∈ e.waiters, w.key = c.place t ∧ w.addr = a) ∧
  (∀ (s : State) ci a cr g, s.crews[ci]? = some cr → walk s.mem a levels (s.part cr.part).root = .page g → g.big = true →
    s.faultPage ci a = (a / 2 ^ 21 * 32, 32, true))

/-! ### Tiles, atomics, acquires and releases -/

/-- R216, R217, R214: TSET writes an entry that keeps the rules, TSET.clr empties one, TSTAT reads one as the last cycle
left it; PREF, which traps on nothing, takes a request for its block and writes nothing. -/
def Obligations.TileWords : Prop :=
  (∀ b a x s c, WordReady (.tset b a x) s c →
    let idx (t : Nat) : Nat := (c.r32 t a).toNat
    let e (t : Nat) : Nat := (c.prim t .i64 x).toNat
    let put (t : Nat) (s' : State) : State :=
      s'.updCrew c.ci fun cr => { cr with tiles := cr.tiles.set (idx t) (BitVec.ofNat 64 (e t)) }
    (∀ t < 16, c.stores t = true → idx t < pktTiles c.cr.packet ∧ fld (e t) 63 62 = 2 ∧ fld (e t) 61 60 = 0 ∧
      fld (e t) 59 52 ≤ 0x0A ∧ fld (e t) 51 39 ≠ 0 ∧ fld (e t) 38 35 = 0 ∧ fld (e t) 34 16 % 64 = 0 ∧
      fld (e t) 34 16 + 64 * fld (e t) 51 39 + (if fld (e t) 59 52 = 0 then 0 else roundUp (2 * fld (e t) 51 39) 64) ≤ c.cr.alloc ∧
      (bitsOf (c.cr.tiles.getD (idx t) 0) 63 62 = 0 ∨ bitsOf (c.cr.tiles.getD (idx t) 0) 63 62 = 2)) →
    exec (.tset b a x) s = .next (byLanes c b c.stores put s) ∧ (byLanes c b c.stores put s).mem = s.mem) ∧
  (∀ b a s c, WordReady (.tsetClr b a) s c →
    let idx (t : Nat) : Nat := (c.r32 t a).toNat
    let put (t : Nat) (s' : State) : State :=
      s'.updCrew c.ci fun cr => { cr with tiles := cr.tiles.set (idx t) (setBits (cr.tiles.getD (idx t) 0) 63 62 0) }
    (∀ t < 16, c.stores t = true → idx t < pktTiles c.cr.packet ∧
      (bitsOf (c.cr.tiles.getD (idx t) 0) 63 62 = 0 ∨ bitsOf (c.cr.tiles.getD (idx t) 0) 63 62 = 2)) →
    exec (.tsetClr b a) s = .next (byLanes c b c.stores put s) ∧ (byLanes c b c.stores put s).mem = s.mem) ∧
  (∀ b n d a s c, WordReady (.tstat b n d a) s c → (∀ t, c.exec t = true → (c.r32 t a).toNat < pktTiles c.cr.packet) →
    exec (.tstat b n d a) s =
      .next (vecAfter s c b n d true (fun t => c.w64 (c.cr.tilesOld.getD (c.r32 t a).toNat 0)) noFlags)) ∧
  (∀ b a x s c, WordReady (.pref b a x) s c → poolShort s c (fun t => oneBlock (c.ea t a x)) = true ∨
      (∀ t < 16, c.exec t = true → ∀ g, s.globalPage c.ci (c.place t) (c.ea t a x) {} ≠ .ok g) →
    exec (.pref b a x) s = .next (wordAfter s c b (fun _ l => l) nobody fun _ => none)) ∧
  (∀ b a x s c (g : Nat → Page), WordReady (.pref b a x) s c → PlainAccess s c →
    poolShort s c (fun t => oneBlock (c.ea t a x)) = false →
    let put (t : Nat) (s' : State) : State := s'.arrive ⟨c.ci, c.place t, [], 0, s'.wordId c, oneBlock (c.ea t a x)⟩
    (∀ t < 16, c.exec t = true → reaches s c (c.ea t a x) 1 {} (g t)) →
    exec (.pref b a x) s = .next (byLanes c b c.exec put s) ∧ (byLanes c b c.exec put s).mem = s.mem)

/-- R241, R242, R243: an atomic reads the old value, stores the operation's result over it and sends the old value to D;
a release fires the word's waiters and advances the interval; every other byte of memory stays. R242: the values
that an atomic stores. R380: the write is performed at the word's scope (for an atomic without .rel that it then
rings a ring is the model's reading: log 39). -/
def Obligations.AtomicWords : Prop :=
  (∀ b d a x (o : BitVec 2) (w : BitVec 1) s c (i : Instr) (g : Nat → Page) (f : Nat → Nat → Nat × BitVec 6),
    (∃ p, i = .atom b d a x o p w ∧ f = fun t m =>
      (atomOp p (atomSize w) m (c.prim t (if w == 1#1 then .i64 else .i32) x).toNat
        ((c.lane t).readV (w == 1#1) d.toNat).bits.toNat, 0)) ∨
    (i = .atomFadd b d a x o w ∧ f = fun t m =>
      atomFadd c.mode c.nbv (atomSize w) m (c.prim t (if w == 1#1 then .f64 else .f32) x).toNat) →
    WordReady i s c → PlainAccess s c →
    let n := atomSize w
    let put (t : Nat) (s' : State) : State :=
      let m := leNat (s'.physRead (dieOf c.core) (g t) n)
      let s1 := s'.physWrite (g t) (leBytes n (f t m).1)
      let s2 := if o == 2#2 then (s1.fireWaiters c.cr.part (c.adr a t) c.scope).released c t
        else s1.wrote c.cr.part c.scope (c.adr a t) n
      (s2.closes c t).arrive ⟨c.ci, c.place t, plainRegs c.t d.toNat (n / 4) m, (f t m).2, 0, []⟩
    (∀ t < 16, c.active t = true → reaches (metBy c b c.active put s t) c (c.adr a t) n { write := true } (g t) ∧
      (metBy c b c.active put s t).poisonedOn (dieOf c.core) (g t) n = false) →
    exec i s = .next (byLanes c b c.active put s) ∧
      (s.formed → ∀ z, (∀ t < 16, c.active t = true → ¬ (g t).covers n z) →
        (byLanes c b c.active put s).mem.byte z = s.mem.byte z)) ∧
  (∀ b d a x (o : BitVec 2) (w : BitVec 1) s c (i : Instr) (f : Nat → Nat → Nat × BitVec 6),
    (∃ p, i = .atoms b d a x o p w ∧ f = fun t m =>
      (atomOp p (atomSize w) m (c.prim t (if w == 1#1 then .i64 else .i32) x).toNat
        ((c.lane t).readV (w == 1#1) d.toNat).bits.toNat, 0)) ∨
    (i = .atomsFadd b d a x o w ∧ f = fun t m =>
      atomFadd c.mode c.nbv (atomSize w) m (c.prim t (if w == 1#1 then .f64 else .f32) x).toNat) →
    WordReady i s c →
    let n := atomSize w
    let off (t : Nat) : Nat := (c.prim t .i32 a).toNat
    let put (t : Nat) (s' : State) : State :=
      let m := ((s'.crews[c.ci]?).map fun cr => cr.scratch.nat (off t) n).getD 0
      let s1 := s'.scratchStore c.ci (off t) (leBytes n (f t m).1)
      ((if o == 2#2 then s1.released c t else s1).closes c t).arrive
        ⟨c.ci, c.place t, plainRegs c.t d.toNat (n / 4) m, (f t m).2, 0, []⟩
    (∀ t < 16, c.active t = true → off t % n = 0 ∧ off t + n ≤ c.cr.alloc ∧ c.cr.meetsQueue (off t) n = false) →
    exec i s = .next (byLanes c b c.active put s) ∧ (byLanes c b c.active put s).mem = s.mem) ∧
  (∀ (size m a k : Nat), size = 4 ∨ size = 8 → m < 2 ^ (8 * size) → a < 2 ^ (8 * size) → k < 2 ^ (8 * size) →
      let sg (x : Nat) : Int := (BitVec.ofNat (8 * size) x).toInt
      atomOp 0 size m a k = (m + a) % 2 ^ (8 * size) ∧
      sg (atomOp 1 size m a k) = min (sg m) (sg a) ∧ sg (atomOp 2 size m a k) = max (sg m) (sg a) ∧
      (∀ j, (atomOp 3 size m a k).testBit j = (m.testBit j && a.testBit j)) ∧
      (∀ j, (atomOp 4 size m a k).testBit j = (m.testBit j || a.testBit j)) ∧
      (∀ j, (atomOp 5 size m a k).testBit j = Bool.xor (m.testBit j) (a.testBit j)) ∧
      atomOp 6 size m a k = a ∧ atomOp 7 size m a k = (if m = k then a else m) ∧
      ∀ p, atomOp p size m a k < 2 ^ (8 * size))

/-- R245, R226, R237: ACQ reads a word, REL writes one and fires its waiters, and each release advances the thread's
interval; FENCE takes in the pending pair. R226, R82, R380: what a release performs at its scope: at .sys later launches
fetch what it orders, and at .dev a ring whose TAIL moved has rung (logs 38, 39). R246: BIND adds an entry to the partition's binding table; an entry that
already stands changes nothing, one that overlaps another traps; BIND.clr takes entries away. -/
def Obligations.OrderAndBindWords : Prop :=
  (∀ b d a s c (g : Nat → Page), WordReady (.acq b d a) s c → PlainAccess s c →
    let put (t : Nat) (s' : State) : State := s'.arrive ⟨c.ci, c.place t,
      plainRegs c.t d.toNat 2 (leNat (s'.physRead (dieOf c.cr.core) (g t) 8)), 0, s'.wordId c, []⟩
    (∀ t < 16, c.active t = true → reaches (metBy c b c.active put s t) c (c.adr a t) 8 {} (g t) ∧
      s.poisonedOn (dieOf c.cr.core) (g t) 8 = false) →
    exec (.acq b d a) s = .next (byLanes c b c.active put s) ∧ (byLanes c b c.active put s).mem = s.mem) ∧
  (∀ b a x s c (g : Nat → Page), WordReady (.rel b a x) s c → PlainAccess s c →
    let put (t : Nat) (s' : State) : State :=
      ((s'.physWrite (g t) (leBytes 8 (c.prim t .i64 x).toNat)).fireWaiters c.cr.part (c.adr a t) c.scope).released c t
    (∀ t < 16, c.active t = true → reaches (metBy c b c.active put s t) c (c.adr a t) 8 { write := true } (g t)) →
    exec (.rel b a x) s = .next (byLanes c b c.active put s) ∧
      (s.formed → ∀ z, (∀ t < 16, c.active t = true → ¬ (g t).covers 8 z) →
        (byLanes c b c.active put s).mem.byte z = s.mem.byte z)) ∧
  (∀ b s c, WordReady (.fence b) s c →
    let put (t : Nat) (s' : State) : State := s'.updThread c.ci (c.place t) fun th =>
      { th with
        interval := if th.interval = 0xFFFFFFFF#32 then th.interval else th.interval + 1
        acquired := match th.pendPair with
          | some x => State.insertPair th.acquired x
          | none => th.acquired
        pendPair := none }
    exec (.fence b) s = .next (finish b (if c.someActive then (metBy c b c.active put s 16).performed c.cr.part c.scope
      else metBy c b c.active put s 16))) ∧
  (∀ (s : State) p, s.performed p 0 = s ∧ s.performed p 1 = s ∧ (s.performed p 3).codeMem = s.mem ∧
    (∀ scope, (s.performed p scope).mem = s.mem ∧ (s.performed p scope).crews = s.crews) ∧
    ∀ scope, 2 ≤ scope → ∀ r < min 16 ((s.part p).at 97 1), ∀ t, s.devNat p (s.ringHeader p r) 8 = some t →
      BitVec.ofNat 64 t ≠ Sparse.get s.tails (16 * p + r) → (p, r) ∈ (s.performed p scope).rung) ∧
  (∀ b d a x s c, WordReady (.bind b d a x) s c →
    let obj (t : Nat) : Nat := c.adr d t
    let base (t : Nat) : Nat := c.adr a t
    let len (t : Nat) : Nat := (c.prim t .i32 x).toNat
    let put (t : Nat) (s' : State) : State :=
      s'.setBindings c.cr.part ((s'.part c.cr.part).bindings ++ [⟨obj t, base t, len t, c.cr.grid⟩])
    (∀ t < 16, c.active t = true → obj t % 64 = 0 ∧ base t % 64 = 0 ∧ len t % 64 = 0 ∧ len t ≠ 0 ∧
      (∀ e ∈ ((metBy c b c.active put s t).part c.cr.part).bindings, base t + len t ≤ e.base ∨ e.base + e.len ≤ base t) ∧
      ((metBy c b c.active put s t).part c.cr.part).bindings.length < Config.bindings) →
    exec (.bind b d a x) s = .next (byLanes c b c.active put s)) ∧
  (∀ b d a x s c, WordReady (.bind b d a x) s c →
    (∀ t < 16, c.active t = true → c.adr d t % 64 = 0 ∧ c.adr a t % 64 = 0 ∧ (c.prim t .i32 x).toNat % 64 = 0 ∧
      (c.prim t .i32 x).toNat ≠ 0 ∧ ∃ e ∈ (s.part c.cr.part).bindings, e.object = c.adr d t ∧ e.base = c.adr a t ∧
        e.len = (c.prim t .i32 x).toNat) →
    exec (.bind b d a x) s = .next (wordAfter s c b (fun _ l => l) nobody fun _ => none)) ∧
  (∀ b d a x s c, WordReady (.bind b d a x) s c →
    (∀ t < 16, c.active t = true → c.adr d t % 64 = 0 ∧ c.adr a t % 64 = 0 ∧ (c.prim t .i32 x).toNat % 64 = 0 ∧
      (c.prim t .i32 x).toNat ≠ 0 ∧
      (∀ e ∈ (s.part c.cr.part).bindings, ¬ (e.object = c.adr d t ∧ e.base = c.adr a t ∧ e.len = (c.prim t .i32 x).toNat)) ∧
      ∃ e ∈ (s.part c.cr.part).bindings, c.adr a t < e.base + e.len ∧ e.base < c.adr a t + (c.prim t .i32 x).toNat) →
    exec (.bind b d a x) s = .next (byLanes c b c.active (fun t s' => failLane c t .illegalOperand 0 s') s)) ∧
  (∀ b d a s c, WordReady (.bindClr b d a) s c →
    exec (.bindClr b d a) s = .next (byLanes c b c.active (fun t s' => s'.setBindings c.cr.part
      ((s'.part c.cr.part).bindings.filter fun e => !(e.object == c.adr d t && e.base == c.adr a t))) s))

/-! ### Monitors, barriers and mailboxes -/

/-- R247, R249, R250: MWAIT on a word that differs from the expected value continues with it; on one that equals it, the
thread parks with an entry among the monitors, and the first write that changes the word completes the wait; in a crew
without monitor entries every MWAIT raises RESOURCE. -/
def Obligations.MonitorWaits : Prop :=
  (∀ d a x q w s c (g : Nat → Page), WordReady (.mwait d a x q 0 w) s c → PlainAccess s c →
    let n := if w == 1#1 then 8 else 4
    let v (t : Nat) (s' : State) : Nat := leNat (s'.physRead (dieOf c.core) (g t) n)
    let put (t : Nat) (s' : State) : State := setLane c t (plainRegs c.t d.toNat (n / 4) (v t s')) s'
    (∀ t < 16, c.active t = true → reaches (metBy c true c.active put s t) c (c.adr a t) n {} (g t) ∧
      s.poisonedOn (dieOf c.core) (g t) n = false ∧
      (s.watched c.ci).length < pktMon c.cr.packet ∧
      BitVec.ofNat 64 (v t s) ≠ c.prim t (if w == 1#1 then .i64 else .i32) x) →
    exec (.mwait d a x q 0 w) s = .next (byLanes c true c.active put s) ∧ (byLanes c true c.active put s).mem = s.mem) ∧
  (∀ d a x q y w s c (g : Nat → Page), WordReady (.mwait d a x q y w) s c → PlainAccess s c →
    let n := if w == 1#1 then 8 else 4
    let v (t : Nat) : Nat := leNat (s.physRead (dieOf c.core) (g t) n)
    let pa (t : Nat) : Nat := if (g t).replicated then (g t).pa + dieOf c.core * Config.dieStride else (g t).pa
    let e (t : Nat) : Dword := c.prim t (if w == 1#1 then .i64 else .i32) x
    let put (t : Nat) (s' : State) : State :=
      { s'.parkLane t .monitor c.start c.next with
        monitors := s'.monitors ++ [⟨c.ci, c.place t, none, pa t, w == 1#1, y == 1#1, q == 1#1, e t, d.toNat, c.adr a t,
          c.scope, none⟩] }
    (∀ t < 16, c.active t = true → reaches (metBy c true c.active put s t) c (c.adr a t) n {} (g t) ∧
      s.poisoned (pa t) n = false ∧ (y == 1#1 || BitVec.ofNat 64 (v t) == e t) = true ∧
      ((metBy c true c.active put s t).watched c.ci).length < pktMon c.cr.packet) →
    exec (.mwait d a x q y w) s = .next (byLanes c true c.active put s) ∧ (byLanes c true c.active put s).mem = s.mem) ∧
  (∀ (m : Memory) (a n : Nat) (w : Monitor), w.pad = none → w.got = none → 0 < n →
    (a / 64 ≤ w.place / 64 ∧ w.place / 64 ≤ (a + n - 1) / 64 →
      (w.any = true ∨ BitVec.ofNat 64 (m.nat w.place (if w.wide then 8 else 4)) ≠ w.expect) →
      Monitor.notice none m a n w = { w with got := some (BitVec.ofNat 64 (m.nat w.place (if w.wide then 8 else 4))) }) ∧
    (w.place / 64 < a / 64 ∨ (a + n - 1) / 64 < w.place / 64 ∨
      (w.any = false ∧ BitVec.ofNat 64 (m.nat w.place (if w.wide then 8 else 4)) = w.expect) →
      Monitor.notice none m a n w = w)) ∧
  (∀ d a x q y w s c, WordReady (.mwait d a x q y w) s c → pktMon c.cr.packet = 0 → c.distinct = true → c.allThreads = true →
    exec (.mwait d a x q y w) s = .next (byLanes c true c.active (fun t s' => failLane c t .resource 0 s') s))

/-- R251, R253, R254, R255, R256: an arrival counts the thread, is a release at the word's scope (.dev or .sys for
GBAR), and returns the phase as its token; a wait continues at once where the phase has moved on, and parks the
thread where it has not; BAR.SYN and GBAR do both. (That a helper's lane pushes what a guarded-off one does is the
model's reading: log 9; so is what PEND holds after 2,047 arrivals, a free value: log 51.) -/
def Obligations.BarrierWords : Prop :=
  (∀ n < 2047, pendNext n = n + 1) ∧ (∀ n, pendNext n < 2048) ∧
  (∀ (c : Ctx), c.barScope false = c.scope ∧ c.barScope true = if c.scope = 3 then 3 else 2) ∧
  (∀ (s : State) c scope t, s.releases c scope t = (s.performed c.cr.part scope).released c t) ∧
  (∀ b n d a k s c, WordReady (.barArv b n d a k) s c →
    let bar (s' : State) : Barrier := ((s'.crews[c.ci]?).map fun cr => cr.bar k.toNat).getD ⟨0, 0, none, false⟩
    let cnt (t : Nat) : Nat := (c.prim t .i32 a).toNat
    let put (t : Nat) (s' : State) : State :=
      let v : Val := .plain false c.t ((bar s').phase.zeroExtend 64)
      let s1 := s'.setBar c.ci k.toNat { bar s' with pend := pendNext (bar s').pend, cnt := some (cnt t), gang := false }
      (((s1.releases c c.scope t).closes c t).updLane c.ci (c.place t) fun l => if n then l else l.writeV d.toNat v).updGroup
        c.core c.slot fun g => { g with latch := g.latch.modify t (pushLatch v) }
    (∀ t < 16, c.active t = true → cnt t ≤ 1024 ∧ ((bar (metBy c b c.active put s t)).cnt = none ∨
      (bar (metBy c b c.active put s t)).cnt = some (cnt t) ∧ (bar (metBy c b c.active put s t)).gang = false)) →
    exec (.barArv b n d a k) s = .next (finish b (pushStays c n d (metBy c b c.active put s 16)))) ∧
  (∀ a k s c, WordReady (.barWt a k) s c → (∀ t < 16, c.active t = true → c.r32 t a ≠ (c.cr.bar k.toNat).phase) →
    exec (.barWt a k) s = .next (byLanes c true c.active
      (fun t s' => s'.updThread c.ci (c.place t) fun th => { th with pendWait := none }) s)) ∧
  (∀ a k s c, WordReady (.barWt a k) s c → (∀ t < 16, c.active t = true → c.r32 t a = (c.cr.bar k.toNat).phase) →
    exec (.barWt a k) s = .next (byLanes c true c.active (fun t s' =>
      (s'.parkLane t (.barrier k.toNat (c.r32 t a)) c.start c.next).updThread c.ci (c.place t) fun th =>
        { th with pendWait := none }) s)) ∧
  (∀ (i : Instr) (k : BitVec 6) (gang : Bool) (cnt : Nat → Nat) s c,
    (∃ a, i = .barSyn a k ∧ gang = false ∧ cnt = fun t => (c.prim t .i32 a).toNat) ∨ (i = .gbar k ∧ gang = true ∧ cnt = fun _ => 0) →
    WordReady i s c → c.distinct = true →
    (∀ t th, c.active t = true → (c.lane t).thread? = some th → th.pendWait = none) →
    let bar (s' : State) : Barrier := ((s'.crews[c.ci]?).map fun cr => cr.bar k.toNat).getD ⟨0, 0, none, false⟩
    let put (t : Nat) (s' : State) : State :=
      let tok := (bar s').phase
      let s1 := s'.setBar c.ci k.toNat { bar s' with pend := pendNext (bar s').pend, cnt := some (cnt t), gang := gang }
      ((((s1.releases c (c.barScope gang) t).closes c t).parkLane t (.barrier k.toNat tok) c.start c.next).updThread c.ci (c.place t)
        fun th => { th with pendWait := some (if gang then .gbar k.toNat tok else .barSyn k.toNat tok) })
    (∀ t < 16, c.active t = true → cnt t ≤ 1024 ∧ ((bar (metBy c true c.active put s t)).cnt = none ∨
      (bar (metBy c true c.active put s t)).cnt = some (cnt t) ∧ (bar (metBy c true c.active put s t)).gang = gang)) →
    exec i s = .next (byLanes c true c.active put s)) ∧
  (∀ (b : Barrier) (need : Nat), need ≤ b.pend → (b.complete need).phase = b.phase + 1 ∧
    (b.complete need).pend = b.pend - need ∧ (b.pend = need → (b.complete need).cnt = none)) ∧
  (∀ i (k : BitVec 6) s c, (∃ a, i = Instr.barSyn a k) ∨ i = .gbar k → s.ctx? = some c → pktBars c.cr.packet ≤ k.toNat →
    c.g.count < Config.runWords → (∀ u ∈ i.uses, Use.badOperand c u = false) → exec i s = .next (trapAll c .resource c.start s))

/-- R257, R258, R259: a put draws the next ticket, fills its slot and performs a release at the scope; a take draws the
next ticket and empties it; a slot that is not its ticket's turn parks the thread. R257, R258: the checks of a
mailbox, and when a slot is its ticket's turn. R259: what a put leaves, the take of the same ticket brings (log 11). -/
def Obligations.MailboxWords : Prop :=
  (∀ (i : Instr) (a d : BitVec 6) (isPut : Bool) s c (m : Nat → Mbox) (r : Nat → State × Dword),
    (i = .mbput d a ∧ isPut = true) ∨ (i = .mbtake d a ∧ isPut = false) → WordReady i s c → c.distinct = true →
    (∀ t th, c.active t = true → (c.lane t).thread? = some th → th.pendWait = none) →
    let msg (t : Nat) : Dword := if isPut then c.prim t .i64 d else 0
    let put (t : Nat) (s' : State) : State :=
      let s1 := (r t).1.updThread c.ci (c.place t) fun th => { th with pendWait := none }
      if isPut then s1.performed c.cr.part c.scope else setLane c t (plainRegs c.t d.toNat 2 (r t).2.toNat) s1
    (∀ t < 16, c.active t = true → let s' := metBy c true c.active put s t
      mboxAt s' c.ci (c.adr a t) = .ok (m t) ∧
      mboxTry c.ci (c.adr a t) (drawTicket isPut (m t) s').1 isPut (msg t) ((drawTicket isPut (m t) s').2.closes c t) = some (r t)) →
    exec i s = .next (byLanes c true c.active put s)) ∧
  (∀ (i : Instr) (a d : BitVec 6) (isPut : Bool) s c (m : Nat → Mbox),
    (i = .mbput d a ∧ isPut = true) ∨ (i = .mbtake d a ∧ isPut = false) → WordReady i s c → c.distinct = true →
    (∀ t th, c.active t = true → (c.lane t).thread? = some th → th.pendWait = none) →
    let msg (t : Nat) : Dword := if isPut then c.prim t .i64 d else 0
    let put (t : Nat) (s' : State) : State :=
      let k := (drawTicket isPut (m t) s').1
      (((drawTicket isPut (m t) s').2.closes c t).parkLane t (.mailbox (BitVec.ofNat 56 (c.adr a t)) k isPut (msg t) d.toNat
        c.scope) c.start c.next).updThread c.ci (c.place t) fun th =>
          { th with pendWait := some (if isPut then .mbPut (BitVec.ofNat 56 (c.adr a t)) k else .mbTake (BitVec.ofNat 56 (c.adr a t)) k) }
    (∀ t < 16, c.active t = true → let s' := metBy c true c.active put s t
      mboxAt s' c.ci (c.adr a t) = .ok (m t) ∧
      mboxTry c.ci (c.adr a t) (drawTicket isPut (m t) s').1 isPut (msg t) ((drawTicket isPut (m t) s').2.closes c t) = none) →
    exec i s = .next (byLanes c true c.active put s)) ∧
  (∀ (i : Instr) (a d : BitVec 6) (isPut : Bool) s c t (w : Win) cr (j : Nat),
    (i = .mbput d a ∧ isPut = true) ∨ (i = .mbtake d a ∧ isPut = false) → WordReady i s c → c.distinct = true →
    (∀ th, (c.lane t).thread? = some th → th.pendWait = none) → t < 16 → (∀ u < 16, c.active u = decide (u = t)) →
    c.adr a t % 16 = 0 → c.adr a t < 2 ^ 56 → isWindow (c.adr a t) = true → s.window c.ci (c.adr a t) = .ok w → w.kind = 0 →
    s.crews[w.crew]? = some cr → cr.scratch.wf = true → j ≤ 12 → cr.scratch.nat w.off 4 = 2 ^ j →
    cr.scratch.nat (w.off + 12) 4 = 0 → w.off + 16 + 16 * 2 ^ j ≤ cr.alloc → cr.meetsQueue w.off (16 + 16 * 2 ^ j) = false →
    let ticket := w.off + if isPut then 4 else 8
    let k : Word := BitVec.ofNat 32 (cr.scratch.nat ticket 4)
    let slot := w.off + 16 + 16 * (k.toNat % 2 ^ j)
    cr.meetsQueue slot 16 = false → BitVec.ofNat 32 (cr.scratch.nat (slot + 8) 4) = (if isPut then k else k + 1) →
    exec i s = .next (byLanes c true c.active (fun _ s' =>
      let drawn := (s'.scratchStore w.crew ticket (leBytes 4 (k.toNat + 1))).closes c t
      if isPut then (((drawn.scratchStore w.crew slot (leBytes 8 (c.prim t .i64 d).toNat)).scratchStore w.crew (slot + 8)
        (leBytes 4 (k + 1).toNat)).updThread c.ci (c.place t) fun th => { th with pendWait := none }).performed c.cr.part
          c.scope
      else setLane c t (plainRegs c.t d.toNat 2 (cr.scratch.nat slot 8))
        ((drawn.scratchStore w.crew (slot + 8) (leBytes 4 (k + BitVec.ofNat 32 (2 ^ j)).toNat)).updThread c.ci (c.place t)
          fun th => { th with pendWait := none })) s)) ∧
  (∀ (s : State) ci a (w : Win) cr, a < 2 ^ 56 → isWindow a = true → s.window ci a = .ok w → w.kind = 0 →
    s.crews[w.crew]? = some cr →
    let cap := cr.scratch.nat w.off 4 % 2 ^ 13
    (∀ j ≤ 12, a % 16 = 0 → cr.scratch.nat w.off 4 = 2 ^ j → cr.scratch.nat (w.off + 12) 4 = 0 →
      w.off + 16 + 16 * 2 ^ j ≤ cr.alloc → cr.meetsQueue w.off (16 + 16 * 2 ^ j) = false →
      mboxAt s ci a = .ok ⟨w.crew, w.off⟩) ∧
    ∀ (k : Word) (msg : Dword), let slot := w.off + 16 + 16 * (k.toNat % cap)
      let seq : Word := BitVec.ofNat 32 (cr.scratch.nat (slot + 8) 4)
      0 < cap → slot + 16 ≤ cr.alloc → cr.meetsQueue slot 16 = false →
      mboxTry ci a k true msg s = (if seq = k then
        some ((s.scratchStore w.crew slot (leBytes 8 msg.toNat)).scratchStore w.crew (slot + 8) (leBytes 4 (k + 1).toNat), 0)
        else none) ∧
      mboxTry ci a k false msg s = (if seq = k + 1 then
        some (s.scratchStore w.crew (slot + 8) (leBytes 4 (k + BitVec.ofNat 32 cap).toNat),
          BitVec.ofNat 64 (cr.scratch.nat slot 8))
        else none)) ∧
  (∀ (isPut : Bool) (m : Mbox) (s : State) cr, s.crews[m.crew]? = some cr → cr.scratch.wf = true →
    (drawTicket isPut m s).1 = BitVec.ofNat 32 (cr.scratch.nat (m.off + (if isPut then 4 else 8)) 4) ∧
    ∃ cr', (drawTicket isPut m s).2.crews[m.crew]? = some cr' ∧
      cr'.scratch.nat (m.off + (if isPut then 4 else 8)) 4 =
        (cr.scratch.nat (m.off + (if isPut then 4 else 8)) 4 + 1) % 2 ^ 32) ∧
  (∀ ci a (k : Word) (msg : Dword) (s : State) s1 v, (∀ cr ∈ s.crews, cr.scratch.wf = true) →
      mboxTry ci a k true msg s = some (s1, v) →
      ∃ s2, mboxTry ci a k false 0 s1 = some (s2, msg))

/-! ### Words that hand work to an engine -/

/-- R260, R266, R267, R268: XQ and XQN append a command to the crew's copy queue; where the tiles that it names are in
the states that it needs, the commit moves them on. (That each advances the interval of its thread is the model's
reading: log 13.) -/
def Obligations.CopyWords : Prop :=
  (∀ (i : Instr) (a : BitVec 6) (n : Bool) s c, (i = .xq a ∧ n = false) ∨ (i = .xqn a ∧ n = true) → WordReady i s c →
    c.distinct = true → c.allThreads = true →
    let cmd (t : Nat) : BitVec 256 :=
      BitVec.ofNat 256 ((List.range 8).foldl (fun x i => x + ((c.lane t).getV (a.toNat + i)).prim.toNat * 2 ^ (32 * i)) 0)
    let put (t : Nat) (s' : State) : State :=
      match s'.crews[c.ci]?, (c.lane t).thread? with
      | some cr, some th =>
        let r := commitTiles cr (cmd t)
        let tail := cr.qword 4
        let info : QMeta := ⟨n, r.2.1, r.2.2, (s'.core c.core).lclk, cr.wid th.tid, th.interval, c.start⟩
        let s1 := s'.updCrew c.ci fun _ => { r.1 with queueMeta := r.1.queueMeta ++ [info] }
        let s2 := s1.scratchStore c.ci (pktQB cr.packet + 32 + 32 * (tail % pktQN cr.packet)) (leBytes 32 (cmd t).toNat)
        ((s2.scratchStore c.ci (pktQB cr.packet + 4) (leBytes 4 (tail + 1))).released c t).closes c t
      | _, _ => s'
    pktQN c.cr.packet ≠ 0 →
    (∀ t < 16, c.active t = true → cmdStamp (cmd t) % 8 = 0 ∧
      ¬ (isWindow (cmdStamp (cmd t)) = true ∧ fld (cmdStamp (cmd t)) 50 48 ≠ 0) ∧
      ∀ cr, (metBy c true c.active put s t).crews[c.ci]? = some cr → cr.queued ≠ pktQN cr.packet) →
    exec i s = .next (byLanes c true c.active put s) ∧ (byLanes c true c.active put s).mem = s.mem) ∧
  (∀ (cr : Crew) (cmd : BitVec 256) i j, cr.tileNamed (cmdSk cmd) (cmdSrc cmd) = some i →
    cr.tileNamed (cmdDk cmd) (cmdDst cmd) = some j → i ≠ j → bitsOf (cr.tiles.getD i 0) 63 62 = 2 →
    (bitsOf (cr.tiles.getD j 0) 63 62 = 0 ∨ bitsOf (cr.tiles.getD j 0) 63 62 = 2) → i < cr.tiles.length → j < cr.tiles.length →
    (commitTiles cr cmd).2.1 = false ∧
    bitsOf ((commitTiles cr cmd).1.tiles.getD i 0) 63 62 = (if cmdTr cmd then 3 else 2) ∧
    bitsOf ((commitTiles cr cmd).1.tiles.getD j 0) 63 62 = 1 ∧
    ∀ k, k ≠ i → k ≠ j → (commitTiles cr cmd).1.tiles[k]? = cr.tiles[k]?) ∧
  (∀ (cr : Crew) (cmd : BitVec 256) i, cr.tileNamed (cmdSk cmd) (cmdSrc cmd) = some i →
    bitsOf (cr.tiles.getD i 0) 63 62 ≠ 2 → (commitTiles cr cmd).2.1 = true ∧ (commitTiles cr cmd).1 = cr)

/-- R288, R297: MMISSUE, ACCSV and ACCLD take an entry of the cluster's reservation table, for the parameter block as it
stands and the tile entries as the last cycle left them; the latter two park their thread on it. (That each advances the
interval of its thread is the model's reading: log 13.) -/
def Obligations.MatrixWords : Prop :=
  (∀ a s c, WordReady (.mmissue a) s c → c.distinct = true → c.allThreads = true →
    let off (t : Nat) : Nat := (c.prim t .i32 a).toNat
    let p (t : Nat) : BitVec 512 := BitVec.ofNat 512 (c.cr.scratch.nat (off t) 64)
    let k := clusterOf c.core
    let put (t : Nat) (s' : State) : State :=
      match (c.lane t).thread? with
      | some th => ((s'.addEntry k (blockEntry s' c.ci c.cr (p t) none (c.cr.wid th.tid) th.interval c.start)).released c t).closes c t
      | none => s'
    (∀ t < 16, c.active t = true → off t % 64 = 0 ∧ off t + 64 ≤ c.cr.alloc ∧ mmCheck c.cr (p t) = none ∧
      tileTest c.cr (p t) = .ready ∧ ((metBy c true c.active put s t).cluster k).entries.length < Config.matrixEntries) →
    exec (.mmissue a) s = .next (byLanes c true c.active put s) ∧ (byLanes c true c.active put s).mem = s.mem) ∧
  (∀ (i : Instr) (kind : MKind) (d a x : BitVec 6) s c,
    (i = .accsv d a x ∧ kind = .accsv) ∨ (i = .accld d a x ∧ kind = .accld) → WordReady i s c → c.distinct = true →
    c.allThreads = true →
    let first (t : Nat) : Nat := (c.prim t .i32 a).toNat
    let count (t : Nat) : Nat := (c.prim t .i32 x).toNat
    let k := clusterOf c.core
    let put (t : Nat) (s' : State) : State :=
      match (c.lane t).thread? with
      | some th =>
        let e : MEntry := { blockEntry s' c.ci c.cr 0 none (c.cr.wid th.tid) th.interval c.start with
          kind := kind
          lane := some (c.place t)
          addr := BitVec.ofNat 56 (c.adr d t)
          first := first t
          count := count t
          scope := c.scope }
        ((s'.addEntry k e).released c t).parkLane t .matrixEntry c.start c.next
      | none => s'
    (∀ t < 16, c.active t = true → first t % 2 = 0 ∧ count t % 2 = 0 ∧ count t ≠ 0 ∧ first t + count t ≤ pktAccum c.cr.packet ∧
      c.adr d t % 64 = 0 ∧ c.adr d t < 2 ^ 56 ∧ isWindow (c.adr d t) = false ∧
      ((metBy c true c.active put s t).cluster k).entries.length < Config.matrixEntries) →
    exec i s = .next (byLanes c true c.active put s) ∧ (byLanes c true c.active put s).mem = s.mem) ∧
  (∀ (i : Instr) (d a x : BitVec 6) s c, i = .accsv d a x ∨ i = .accld d a x → WordReady i s c → c.allThreads = true →
    (∀ t < 16, c.active t = true → (c.prim t .i32 a).toNat % 2 = 1 ∨ (c.prim t .i32 x).toNat = 0) →
    exec i s = .next (byLanes c true c.active (fun t s' => failLane c t .illegalOperand 0 s') s))

/-- R300, R313, R314, R316, R321: TRACE, TRES and its forms, and TRACEP send rays to the unit, from records whose STATUS
they clear, and park their thread with a pending-wait record; where no slot is free, the thread parks in the unit's queue.
R326, R331: XPAIR hands a pair record to the unit and goes on; REPROJ takes an entry of the cluster's list. (That each
of these words advances the interval of its thread, and how slots are kept for a woken thread, are the model's readings:
logs 13 and 14.) -/
def Obligations.RayAndPairWords : Prop :=
  (∀ (i : Instr) (form : TraceForm) (d a x : BitVec 6) s c,
    (i = .trace d a x ∧ form = none) ∨ (i = .tres d a x ∧ form = some 0) ∨ (i = .tresAcc d a x ∧ form = some 1) ∨
      (i = .tresTerm d a x ∧ form = some 2) → WordReady i s c →
    let off (t : Nat) : Nat := (c.r32 t a).toNat
    let g (t : Nat) : Nat := (c.prim t .i64 x).toNat
    let r (t : Nat) : BitVec 1024 := BitVec.ofNat 1024 (c.cr.scratch.nat (off t) 128)
    let put (t : Nat) (s' : State) : State :=
      let y : Ray := ⟨c.ci, c.place t, off t, rayCtlSet (r t) 7 0 0, g t, true, none, none, false, rayBegins form (r t),
        ((s'.thread? c.ci (c.place t)).map fun th => th.interval).getD 0, s.moves.length⟩
      let s1 := (dropGrant c s' t).released c t
      let s2 := if form.isNone then s1.closes c t else s1
      (({ s2 with rays := s2.rays ++ [y] }.parkLane t (.trace d.toNat) c.start c.next).updThread c.ci (c.place t)
        fun th => { th with pendWait := some (.trace (off t)) }).slotsFreed c.core
    (∀ t < 16, c.active t = true → let s' := dropGrant c (metBy c true c.active put s t) t
      off t % 128 = 0 ∧ off t + 128 ≤ c.cr.alloc ∧ c.cr.meetsQueue (off t) 128 = false ∧ s'.rayFlying c.ci (off t) = false ∧
      rayBad (r t) = false ∧ (rayLogs (r t) || rayReplays (r t)) = false ∧ 0 < s'.freeSlots c.core ∧
      ∀ f, form = some f → isSuspension (rayStatus (r t)) = true ∧ (f = 0 ∨ rayStatus (r t) = 0x10 ∨ rayStatus (r t) = 0x11)) →
    exec i s = .next (byLanes c true c.active put s) ∧ (byLanes c true c.active put s).mem = s.mem) ∧
  (∀ d a x s c, WordReady (.tracep d a x) s c →
    let off (t : Nat) : Nat := (c.r32 t a).toNat
    let n (t : Nat) : Nat := (c.r32 t x).toNat
    let r (t i : Nat) : BitVec 1024 := BitVec.ofNat 1024 (c.cr.scratch.nat (off t + 128 * i) 128)
    let put (t : Nat) (s' : State) : State :=
      let ys : List Ray := (List.range (n t)).map fun i =>
        ⟨c.ci, c.place t, off t + 128 * i, rayCtlSet (r t i) 7 0 0, 0, true, none, none, true, .start,
          ((s'.thread? c.ci (c.place t)).map fun th => th.interval).getD 0, s.moves.length⟩
      let s1 := ((dropGrant c s' t).released c t).closes c t
      (({ s1 with rays := s1.rays ++ ys }.parkLane t (.trace d.toNat) c.start c.next).updThread c.ci (c.place t)
        fun th => { th with pendWait := some (.tracep (n t) (off t)) }).slotsFreed c.core
    (∀ t < 16, c.active t = true → let s' := dropGrant c (metBy c true c.active put s t) t
      off t % 128 = 0 ∧ 1 ≤ n t ∧ n t ≤ 64 ∧ off t + 128 * n t ≤ c.cr.alloc ∧ c.cr.meetsQueue (off t) (128 * n t) = false ∧
      n t ≤ s'.freeSlots c.core ∧
      ∀ i < n t, s'.rayFlying c.ci (off t + 128 * i) = false ∧ rayBad (r t i) = false ∧ rayLogs (r t i) = false ∧
        rayReplays (r t i) = false ∧ packetKey (r t i) = packetKey (r t 0)) →
    exec (.tracep d a x) s = .next (byLanes c true c.active put s) ∧ (byLanes c true c.active put s).mem = s.mem) ∧
  (∀ (i : Instr) (d a x : BitVec 6) s c, i = .trace d a x ∨ i = .tres d a x → WordReady i s c → c.allThreads = true →
    (s.core c.core).unitQueue = [] →
    (∀ t < 16, c.active t = true → (c.r32 t a).toNat % 128 ≠ 0) →
    exec i s = .next (byLanes c true c.active (fun t s' => failLane c t .misaligned 0 s') s)) ∧
  (∀ d a x s c, WordReady (.trace d a x) s c →
    let off (t : Nat) : Nat := (c.r32 t a).toNat
    let r (t : Nat) : BitVec 1024 := BitVec.ofNat 1024 (c.cr.scratch.nat (off t) 128)
    let put (t : Nat) (s' : State) : State :=
      (((dropGrant c s' t).parkLane t (.rayUnit 1) c.start c.start).updCore c.core fun co =>
        { co with unitQueue := co.unitQueue ++ [⟨c.ci, c.place t, 1, c.start, false⟩] }).slotsFreed c.core
    (∀ t < 16, c.active t = true → let s' := dropGrant c (metBy c true c.active put s t) t
      off t % 128 = 0 ∧ off t + 128 ≤ c.cr.alloc ∧ c.cr.meetsQueue (off t) 128 = false ∧ s'.rayFlying c.ci (off t) = false ∧
      rayBad (r t) = false ∧ (rayLogs (r t) || rayReplays (r t)) = false ∧ s'.freeSlots c.core = 0) →
    exec (.trace d a x) s = .next (byLanes c true c.active put s)) ∧
  (∀ a s c, WordReady (.xpair a) s c → c.distinct = true → c.allThreads = true →
    let off (t : Nat) : Nat := (c.r32 t a).toNat
    let r (t : Nat) : BitVec 1024 := BitVec.ofNat 1024 (c.cr.scratch.nat (off t) 128)
    let put (t : Nat) (s' : State) : State :=
      match (c.lane t).thread? with
      | some th =>
        let s1 := dropGrant c s' t
        let op : XPairOp := ⟨c.ci, off t, r t, true, false, false, false, none, false, c.cr.wid th.tid, th.interval, c.start,
          s.moves.length⟩
        (({ s1 with xpairs := s1.xpairs ++ [op] }.released c t).closes c t).slotsFreed c.core
      | none => s'
    (∀ t < 16, c.active t = true → off t % 128 = 0 ∧ off t + 128 ≤ c.cr.alloc ∧ c.cr.meetsQueue (off t) 128 = false ∧
      pairStamp (r t) % 8 = 0 ∧ 0 < (dropGrant c (metBy c true c.active put s t) t).freeSlots c.core) →
    exec (.xpair a) s = .next (byLanes c true c.active put s) ∧ (byLanes c true c.active put s).mem = s.mem) ∧
  (∀ a s c, WordReady (.reproj a) s c → c.distinct = true → c.allThreads = true →
    let off (t : Nat) : Nat := (c.r32 t a).toNat
    let p (t : Nat) : BitVec 512 := BitVec.ofNat 512 (c.cr.scratch.nat (off t) 64)
    let k := clusterOf c.core
    -- the entry that a parked lane was promised is its own
    let own (t : Nat) (s' : State) : State := s'.updCluster k fun K =>
      { K with reprojQueue := K.reprojQueue.filter fun w => !(w.granted && w.crew == c.ci && w.lane == c.place t) }
    let put (t : Nat) (s' : State) : State :=
      match (c.lane t).thread? with
      | some th => (((own t s').updCluster k fun K =>
          { K with reproj := K.reproj ++ [⟨c.ci, p t, false, none, c.cr.wid th.tid, th.interval, c.start, s.moves.length⟩] }).released
            c t).reprojFreed k
      | none => s'
    (∀ t < 16, c.active t = true → off t % 64 = 0 ∧ off t + 64 ≤ c.cr.alloc ∧ rpStamp (p t) % 8 = 0 ∧
      (own t (metBy c true c.active put s t)).reprojRoom k = true) →
    exec (.reproj a) s = .next (byLanes c true c.active put s) ∧ (byLanes c true c.active put s).mem = s.mem)

/-- R351, R352, R353: FETCHW takes an item of a dispenser, an index space's next or a record of its queue, marks Q, and
parks where an open queue is empty; a queue whose header breaks R325 traps. LAUNCH performs a release at its scope,
.dev without a hint, writes a packet into a device-writable queue and returns the index. (That LAUNCH advances the
interval of its thread is the model's reading: log 13.) -/
def Obligations.LaunchWords : Prop :=
  (∀ (c : Ctx), c.scopeOr 2 = match c.g.bundle.scp with
    | some x => x.toNat
    | none => 2) ∧
  (∀ d a q s c (r : Nat → Fetched), WordReady (.fetchw d a q) s c → PlainAccess s c →
    let set (t : Nat) (w : Word) (s' : State) : State :=
      s'.updLane c.ci (c.place t) fun l => l.setQ q.toNat ⟨w, List.replicate c.t 0⟩
    let put (t : Nat) (s' : State) : State :=
      match r t with
      | .item ws s1 _ => (set t 0x8000 (setLane c t
          (ws.zipIdx.map fun w => (d.toNat + w.2, ⟨BitVec.ofNat 32 w.1, List.replicate c.t 0⟩)) s1)).closes c t
      | .dry _ => (set t 0 s').closes c t
      | .wait _ => s'.parkLane t (.geyser (c.adr a t)) c.start c.start
    (∀ t < 16, c.active t = true → c.adr a t % 64 = 0 ∧
      geyser (metBy c true c.active put s t) c.ci (c.place t) (c.adr a t) = .ok (r t)) →
    exec (.fetchw d a q) s = .next (byLanes c true c.active put s)) ∧
  (∀ d a q s c t g, WordReady (.fetchw d a q) s c → PlainAccess s c → t < 16 → (∀ u < 16, c.active u = decide (u = t)) →
    reaches s c (c.adr a t) 64 { write := true, kindOk := plainPage } g →
    s.poisonedOn (dieOf c.cr.core) g 64 = false →
    let x := leNat (s.physRead (dieOf c.cr.core) g 64)
    let n := dispNext x
    dispBad x = false → dispKind x = 0 → n < dispX x * dispY x * dispZ x →
    exec (.fetchw d a q) s = .next (byLanes c true c.active (fun _ s' =>
      ((setLane c t (([n % dispX x, n / dispX x % dispY x, n / (dispX x * dispY x), n % 2 ^ 32].zipIdx).map fun w =>
          (d.toNat + w.2, ⟨BitVec.ofNat 32 w.1, List.replicate c.t 0⟩))
        (s'.physWrite { g with pa := g.pa + 8 } (leBytes 8 (n + 1)))).updLane c.ci (c.place t) fun l =>
          l.setQ q.toNat ⟨0x8000, List.replicate c.t 0⟩).closes c t) s)) ∧
  (∀ (s : State) ci li a g x, x = leNat (s.physRead (dieOf (s.coreOf ci)) g 64) →
    s.globalPage ci li a { write := true, kindOk := plainPage } = .ok g → s.poisonedOn (dieOf (s.coreOf ci)) g 64 = false → dispBad x = false →
    dispKind x = 0 → dispNext x < dispX x * dispY x * dispZ x →
    geyser s ci li a = .ok (.item [dispNext x % dispX x, dispNext x / dispX x % dispY x, dispNext x / (dispX x * dispY x),
      dispNext x % 2 ^ 32] (s.physWrite { g with pa := g.pa + 8 } (leBytes 8 (dispNext x + 1))) [a])) ∧
  (∀ (s : State) ci li a g x, x = leNat (s.physRead (dieOf (s.coreOf ci)) g 64) →
    s.globalPage ci li a { write := true, kindOk := plainPage } = .ok g → s.poisonedOn (dieOf (s.coreOf ci)) g 64 = false → dispBad x = false →
    dispKind x = 0 → dispX x * dispY x * dispZ x ≤ dispNext x → geyser s ci li a = .ok (.dry [a])) ∧
  (∀ (s : State) ci li a g x h y, x = leNat (s.physRead (dieOf (s.coreOf ci)) g 64) →
    s.globalPage ci li a { write := true, kindOk := plainPage } = .ok g → s.poisonedOn (dieOf (s.coreOf ci)) g 64 = false → dispBad x = false →
    dispKind x = 1 → isWindow (dispQueue x) = false → s.globalPage ci li (dispQueue x) { write := true } = .ok h →
    s.poisonedOn (dieOf (s.coreOf ci)) h 64 = false → y = leNat (s.physRead (dieOf (s.coreOf ci)) h 64) →
    (recordQueueBad y = true ↔ 24 < fld y 135 128 ∨ fld y 143 137 ≠ 0 ∨ fld y 511 144 ≠ 0) ∧
    (recordQueueBad y = true → geyser s ci li a = .trap .engineStatus 0) ∧
    (recordQueueBad y = false →
    let tail := fld y 63 0
    let head := fld y 127 64
    let slot := dispQueue x + 64 + 16 * (head % 2 ^ fld y 135 128)
    (head < tail → ∀ w, geyserRead s ci li slot 16 = .ok w →
      geyser s ci li a = .ok (.item [w % 2 ^ 32, w / 2 ^ 32 % 2 ^ 32, w / 2 ^ 64 % 2 ^ 32, w / 2 ^ 96 % 2 ^ 32]
        (s.physWrite { h with pa := h.pa + 8 } (leBytes 8 (head + 1))) [a, dispQueue x, slot])) ∧
    (tail ≤ head → geyser s ci li a = .ok (if bitAt x 8 then .dry [a, dispQueue x] else .wait [a, dispQueue x])))) ∧
  (∀ d a x s c (g : Nat → Page), WordReady (.launch d a x) s c → PlainAccess s c →
    let o (t : Nat) : Nat := (c.r32 t a).toNat
    let q (t : Nat) : Nat := (c.r32 t x).toNat
    let slot (Q : BitVec 512) : Nat := qdBase Q + 64 * (qdWptr Q % 2 ^ qdLcap Q)
    let put (t : Nat) (s' : State) : State :=
      let Q := s'.queue (q t)
      ((setLane c t [(d.toNat, ⟨BitVec.ofNat 32 (qdWptr Q), List.replicate c.t 0⟩)]
        (((s'.performed c.cr.part (c.scopeOr 2)).physWrite (g t) (c.cr.scratch.read (o t) 64)).setQueue (q t)
          (setBits Q 127 96 (qdWptr Q + 1)))).released c t).closes c t
    (∀ t < 16, c.active t = true → let s' := metBy c true c.active put s t
      let Q := s'.queue (q t)
      o t % 64 = 0 ∧ o t + 64 ≤ c.cr.alloc ∧ q t < Config.queues ∧ qdEn Q = true ∧ qdDevw Q = true ∧ qdErr Q = false ∧
      qdPart Q = c.cr.part ∧ qdAhead Q ≠ 2 ^ qdLcap Q ∧
      s'.xlat c.cr.part (slot Q) { write := true, device := true } = .ok (g t)) →
    exec (.launch d a x) s = .next (byLanes c true c.active put s)) ∧
  (∀ d a x s c t g, WordReady (.launch d a x) s c → PlainAccess s c → t < 16 → (∀ u < 16, c.active u = decide (u = t)) →
    let o := (c.r32 t a).toNat
    let q := (c.r32 t x).toNat
    let Q := s.queue q
    o % 64 = 0 → o + 64 ≤ c.cr.alloc → q < Config.queues → qdEn Q = true → qdDevw Q = true → qdErr Q = false →
    qdPart Q = c.cr.part → qdAhead Q ≠ 2 ^ qdLcap Q →
    s.xlat c.cr.part (qdBase Q + 64 * (qdWptr Q % 2 ^ qdLcap Q)) { write := true, device := true } = .ok g →
    exec (.launch d a x) s = .next (byLanes c true c.active (fun _ s' =>
      ((setLane c t [(d.toNat, ⟨BitVec.ofNat 32 (qdWptr Q), List.replicate c.t 0⟩)]
        (((s'.performed c.cr.part (c.scopeOr 2)).physWrite g (c.cr.scratch.read o 64)).setQueue q
          (setBits Q 127 96 (qdWptr Q + 1)))).released c t).closes c t) s))

/-! ### What happens between words -/

/-- R34, R35: the picker takes the ready thread with the least ready number, and forms a group of the threads of its
crew at its word: lane by lane, quads whole; a thread inside a region of a crew that is being pre-empted is not
ready. R165: it fills the free slots at the start of a cycle, in ascending number, and no others. R31, R34: a result
that arrives reaches its registers, and a thread that waited for its last result becomes ready when the cycle ends.
(That picking a group and the arrival of a result are steps of the device, which change nothing where their
condition does not hold, is the model's reading: log 1.) -/
def Obligations.PickerAndArrivals : Prop :=
  (∀ core slot s leader cr, oldest (readyOn s core) = some leader → s.crews[leader.crew]? = some cr →
    core < s.cores.length → (s.core core).slots[slot]? = some none → s.works = true → (s.core core).lastSlot = none →
    (∀ j < slot, (s.core core).slots[j]? ≠ some none) →
    ∃ (t : State) (g : Group), exec (.pickGroup core slot) s = .next t ∧ t.group? core slot = some g ∧ g.crew = leader.crew ∧
      g.addr = leader.pc ∧ g.count = 0 ∧ g.bundle = Bundle.empty ∧ g.lanes.length = 16 ∧
      g.lanes[leader.lane % 16]? = some ⟨.active, leader.lane⟩ ∧
      (∀ (u : Nat) (r : LaneRef), g.lanes[u]? = some r → r.kind = .active → r.place % 16 = u ∧
        ∃ x ∈ readyOn s core, x.crew = leader.crew ∧ x.lane = r.place ∧ x.pc = leader.pc) ∧
      (∀ (u : Nat) (r : LaneRef), g.lanes[u]? = some r → r.kind = .helper → (cr.lanes[r.place]?.bind Lane.thread?) = none) ∧
      (∀ (u v : Nat) (r r' : LaneRef), g.lanes[u]? = some r → g.lanes[v]? = some r' → u / 4 = v / 4 → r.place / 4 = r'.place / 4) ∧
      t.mem = s.mem) ∧
  (∀ (l : List Ready) x, oldest l = some x → x ∈ l ∧ ∀ y ∈ l, x.num ≤ y.num) ∧
  (∀ (s : State) core x, x ∈ readyOn s core → ∃ cr th, s.crews[x.crew]? = some cr ∧ cr.status = .resident ∧ cr.core = core ∧
    s.thread? x.crew x.lane = some th ∧ th.run = .ready x.num ∧ th.pc = x.pc ∧
    ∀ p, cr.preempt = some p → p.asked = false → th.region = none) ∧
  (∀ core slot s, readyOn s core = [] → exec (.pickGroup core slot) s = .next s) ∧
  (∀ core slot s, (s.core core).lastSlot.isSome = true ∨ (∃ j < slot, (s.core core).slots[j]? = some none) →
    exec (.pickGroup core slot) s = .next s) ∧
  (∀ i s a l, s.arrivals[i]? = some a → s.lane? a.crew a.lane = some l →
    ∃ t l', exec (.loadDataArrival i) s = .next t ∧ t.arrivals = s.arrivals.eraseIdx i ∧
      t.lane? a.crew a.lane = some l' ∧ l'.v = (l.setRegs a.writes).v ∧ l'.q = l.q ∧ t.mem = s.mem ∧
      ∀ th, l.thread? = some th → ∃ th', l'.thread? = some th' ∧ th'.flags = th.flags ||| a.flags ∧ th'.pc = th.pc ∧
        th'.run = if th.run = .waiting ∧ (s.arrivals.eraseIdx i).any (fun x => x.crew == a.crew && x.lane == a.lane) = false
          then .waking none else th.run) ∧
  (∀ (l : Lane) d x t k, d + k ≤ l.v.length → ∀ j < k,
    ((l.setRegs (plainRegs t d k x)).getV (d + j)).prim = BitVec.ofNat 32 (x / 2 ^ (32 * j)) ∧
    ((l.setRegs (plainRegs t d k x)).getV (d + j)).tan = List.replicate t 0)

/-- R249, R253, R255, R256, R259, R198: a wait that is met goes on at the word after it: a monitor's with the word that
completed it, a mailbox's with its message, or for a put after its release at the scope, a gang barrier's once every
crew has arrived; a held window access that can be applied is, and its thread executes its word again. (Which
windows a mailbox may lie in is the model's reading: log 11.) -/
def Obligations.WaitsMet : Prop :=
  (∀ crew lane s i m v cr, s.monitors.findIdx? (fun m => m.crew == crew && m.lane == lane && m.got.isSome) = some i →
    s.monitors[i]? = some m → m.got = some v → m.acq = false → s.crews[crew]? = some cr →
    ((s.thread? crew lane).map Thread.run) = some (.parked .monitor) →
    exec (.monitorWake crew lane) s = .next (State.wakeCont
      { s.updLane crew lane fun l => l.setRegs (plainRegs cr.t m.d (if m.wide then 2 else 1) v.toNat) with
        monitors := s.monitors.eraseIdx i } crew lane)) ∧
  (∀ crew lane s (a : BitVec 56) (k : Word) isPut msg d scope cr w x,
    ((s.thread? crew lane).map Thread.run) = some (.parked (.mailbox a k isPut msg d scope)) →
    s.crews[crew]? = some cr → isWindow a.toNat = true → s.window crew a.toNat = .ok w → w.kind = 0 → s.crews[w.crew]? = some x →
    let cap := x.scratch.nat w.off 4 % 2 ^ 13
    let slot := w.off + 16 + 16 * (k.toNat % cap)
    let seq : Word := BitVec.ofNat 32 (x.scratch.nat (slot + 8) 4)
    0 < cap → slot + 16 ≤ x.alloc → x.meetsQueue slot 16 = false →
    exec (.mailboxWaitMet crew lane) s = .next (
      if isPut then
        if seq = k then (((s.scratchStore w.crew slot (leBytes 8 msg.toNat)).scratchStore w.crew (slot + 8)
          (leBytes 4 (k + 1).toNat)).performed cr.part scope).wakeCont crew lane
        else s
      else if seq = k + 1 then ((s.scratchStore w.crew (slot + 8) (leBytes 4 (k + BitVec.ofNat 32 cap).toNat)).updLane crew lane
        fun l => l.setRegs (plainRegs cr.t d 2 (x.scratch.nat slot 8))).wakeCont crew lane
      else s)) ∧
  (∀ (ci li : Nat) (s : State) th, s.thread? ci li = some th → ∃ th', (s.wakeCont ci li).thread? ci li = some th' ∧ th'.pc = th.cont ∧
    th'.pendWait = none ∧ th'.run = if s.outstanding ci li then .waiting else .waking none) ∧
  (∀ grid gang bar s g, s.gangs.find? (fun g => g.grid == grid && g.index == gang) = some g → gangDue s g bar = true →
    g.crews.Nodup → ∃ t, exec (.gangBarrierComplete grid gang bar) s = .next t ∧ t.mem = s.mem ∧
      ∀ c cr, c ∈ g.crews → s.crews[c]? = some cr → bar < cr.bars.length →
        ((t.crews[c]?).map fun x => x.bar bar) = some ((cr.bar bar).complete cr.live)) ∧
  (∀ crew lane s th h hs s1, s.thread? crew lane = some th → th.run = .parked .window → th.held = h :: hs → h.write = true →
    s.windowWrite crew h.addr (if fld h.addr 50 48 = 1 then 4 else 8) h.data.toNat = .ok s1 →
    exec (.windowAccessApply crew lane) s = .next
      ((s1.updThread crew lane fun t => { t with held := { h with result := some 0 } :: hs }).wakeRetry crew lane)) ∧
  (∀ crew lane s th h hs w x, s.thread? crew lane = some th → th.run = .parked .window → th.held = h :: hs →
    s.window crew h.addr = .ok w → w.kind = 3 → fld h.addr 50 48 = 3 → s.crews[w.crew]? = some x →
    w.off / 2048 < pktAccum x.packet → s.lineInFlight w.crew (w.off / 2048) = false →
    exec (.windowAccessApply crew lane) s = .next (
      if h.write then (((s.updCrew w.crew fun cr => { cr with accSlots := Sparse.set cr.accSlots (w.off / 8) h.data }).updThread
        crew lane fun t => { t with held := { h with result := some 0 } :: hs }).wakeRetry crew lane)
      else ((s.updThread crew lane fun t =>
        { t with held := { h with result := some (Sparse.get x.accSlots (w.off / 8)) } :: hs }).wakeRetry crew lane))) ∧
  (∀ crew lane s th h hs w x li r j, s.thread? crew lane = some th → th.run = .parked .window → th.held = h :: hs → h.write = true →
    s.window crew h.addr = .ok w → w.kind = 1 → fld h.addr 50 48 = 1 → s.crews[w.crew]? = some x →
    kind1Place x w.off = some (li, r, j) → s.inGroup w.crew li = false →
    exec (.windowAccessApply crew lane) s = .next ((State.updThread
      { s with regWrites := s.regWrites ++ [⟨w.crew, li, r, j, BitVec.ofNat 32 h.data.toNat⟩] } crew lane
        fun t => { t with held := { h with result := some 0 } :: hs }).wakeRetry crew lane)) ∧
  (∀ crew lane s th h hs v, s.thread? crew lane = some th → th.run = .parked .window → th.held = h :: hs → h.write = false →
    s.windowRead crew h.addr (if fld h.addr 50 48 = 1 then 4 else 8) = .ok v →
    exec (.windowAccessApply crew lane) s = .next
      ((s.updThread crew lane fun t => { t with held := { h with result := some (BitVec.ofNat 64 v) } :: hs }).wakeRetry
        crew lane))

/-- R204, R205, R206: a fault that is resolved fills its entry, and its threads execute their word again; one declared
unresolvable takes the entry away, and its thread traps with the cause and the address. R359, R363, R364: a trapped thread
is held and reported once nothing of it is outstanding; system software then resumes it at its word, enters a routine with
the word's address on its call stack, ends it, or aborts its grid; an action on a thread whose crew is being pre-empted
waits. (That one action to a thread waits is the model's reading: log 37.) -/
def Obligations.FaultAndTrapEvents : Prop :=
  (∀ core i s e cr, core < s.cores.length → (s.core core).faults[i]? = some e → s.crews[e.crew]? = some cr → e.fill = none →
    (∀ a w, s.xlat cr.part (65536 * e.page) { write := e.write, device := true } ≠ .fault a w) →
    ∃ t, exec (.faultResolved core i) s = .next t ∧ t.mem = s.mem ∧
      (t.core core).faults[i]? = some { e with fill := some (fillBlocks s cr e) } ∧
      ∀ w ∈ e.waiters, w.key < 1024 → ∀ th a wr, s.thread? e.crew w.key = some th → th.run = .parked (.fault a wr) →
        ∃ th', t.thread? e.crew w.key = some th' ∧ th'.pc = th.pc ∧
          th'.run = if s.outstanding e.crew w.key then .waiting else .waking none) ∧
  (∀ (s : State) cr e w g, w ∈ e.waiters → s.xlat cr.part (64 * (w.addr / 64)) { device := true } = .ok g →
    e.write = true ∨ s.poisonedOn (dieOf cr.core) g 64 = false →
    ∃ f ∈ fillBlocks s cr e, f.block = w.addr / 64 ∧ f.page = g ∧
      (e.write = false → f.bytes = s.physRead (dieOf cr.core) g 64 ∧ f.desc = s.descAt g)) ∧
  (∀ core i s e li a pr th b wr, core < s.cores.length → (s.core core).faults[i]? = some e → e.fill = none →
    e.waiters = [⟨li, a, pr⟩] → li < 1024 → s.thread? e.crew li = some th → th.run = .parked (.fault b wr) →
    (s.core core).faultQueue = [] →
    exec (.faultUnresolvable .threads core i) s = .next
      ((s.updCore core fun co => { co with faults := co.faults.eraseIdx i }).updThread e.crew li fun t =>
        t.takeTrap (.fault (if pr then 3 else 2)) (BitVec.ofNat 56 a) t.cont)) ∧
  (∀ (t : Thread) tr a pc, (t.takeTrap tr a pc).pc = pc ∧ (t.takeTrap tr a pc).region = none ∧
    (t.takeTrap tr a pc).stack = t.stack ∧ (t.takeTrap tr a pc).depth = t.depth ∧ (t.takeTrap tr a pc).flags = t.flags ∧
    (t.takeTrap tr a pc).trap = some ⟨tr.code, tr.cause, t.trap.isSome, true, a⟩) ∧
  (∀ crew lane s th cr r, s.thread? crew lane = some th → s.crews[crew]? = some cr → th.trap = some r → th.run = .trapping →
    s.outstanding crew lane = false →
    exec (.trapHeld crew lane) s =
      .next (trapReport cr.part (heldReport cr th r) (s.updThread crew lane fun t => { t with run := .held }))) ∧
  (∀ crew lane s th cr, s.thread? crew lane = some th → s.crews[crew]? = some cr → cr.status = .resident →
    cr.preempt = none → th.run = .held →
    exec (.trapResume crew lane) s = .next (s.updThread crew lane fun t => { t with trap := none, run := .waking none }) ∧
    exec (.trapEnd crew lane) s = .next (s.endThread crew lane) ∧
    exec (.trapAbort crew lane) s = .next (s.removeGrid cr.grid) ∧
    (∀ h, th.depth < 16 → exec (.trapEnter crew lane h) s = .next (s.updThread crew lane fun t =>
      { t with
        stack := t.stack.set t.depth (t.pc.zeroExtend 64)
        depth := t.depth + 1
        pc := h
        run := .waking none
        trap := t.trap.map fun r => { r with held := false } })) ∧
    (∀ h, 16 ≤ th.depth → exec (.trapEnter crew lane h) s = .next s)) ∧
  (∀ crew lane s th cr p r act, s.thread? crew lane = some th → s.crews[crew]? = some cr → cr.status = .resident →
    cr.preempt = some p → p.asked = false → th.run = .held ∨ th.run = .saved → th.trap = some r → r.held = true →
    (∀ x ∈ s.trapActions, ¬(x.crew = crew ∧ x.lane = lane)) → ∀ i,
    (i = .trapResume crew lane ∧ act = .resume) ∨ (i = .trapEnd crew lane ∧ act = .finish) ∨
      (i = .trapAbort crew lane ∧ act = .abort) ∨ (∃ h, i = .trapEnter crew lane h ∧ act = .enter h) →
    exec i s = .next { s with trapActions := s.trapActions ++ [⟨crew, lane, act⟩] }) ∧
  (∀ (ci li : Nat) (s : State) cr th, s.crews[ci]? = some cr → s.thread? ci li = some th → ∃ cr' l, (s.endThread ci li).crews[ci]? = some cr' ∧
    cr'.lanes[li]? = some l ∧ l.occ = .exited th.tid ∧ cr'.live + 1 = cr.live ∧
    (∀ k < 12, ∀ m, cr.masks[12 * (li / 16) + k]? = some m → ∃ m', cr'.masks[12 * (li / 16) + k]? = some m' ∧
      ∀ j < 16, m'.getLsbD j = (m.getLsbD j && decide (j ≠ li % 16)))) ∧
  (∀ gi (s : State) (i : Nat) (cr : Crew), s.crews[i]? = some cr → cr.grid = gi → cr.status = .resident →
    ∃ cr', (s.removeGrid gi).crews[i]? = some cr' ∧ ∃ p, cr'.preempt = some p ∧ p.discard = true ∧ p.forced = true)

/-- R176, R177, R178, R179: at the end of a cycle of its core a Joiner batch closes once it holds 256 threads, 64 cycles
have passed, a pre-emption asks for its crew, or every live thread is gathered, parked or held; its threads then stand
sorted by target, key and thread number, in ascending order, over the places that they left, with their live registers;
and for every place whose occupant changes, that lane's bit is cleared in the 12 masks of its home group. (At which end of
cycle the 64 cycles have passed is the model's choice: log 49.) -/
def Obligations.JoinerBatches : Prop :=
  (∀ crew s cr b k, s.crews[crew]? = some cr → cr.batch = some b → (s.core cr.core).lastSlot = some k →
    (∀ j g, k < j → (s.core cr.core).slots[j]? ≠ some (some g)) →
    256 ≤ b.threads.length ∨ b.opened + 64 ≤ (s.core cr.core).lclk.toNat ∨ (∃ p, cr.preempt = some p ∧ p.asked = false) ∨
      (∀ l ∈ cr.lanes, ∀ th, l.thread? = some th → th.run = .held ∨ th.run = .saved ∨ ∃ x, th.run = .parked x) →
    exec (.joinerBatchClose crew) s =
      .next (s.updCrew crew fun cr => { cr with batch := none, moving := cr.moving ++ [b] })) ∧
  (∀ crew s cr b k, s.crews[crew]? = some cr → cr.batch = some b → (s.core cr.core).lastSlot = some k →
    (∀ j g, k < j → (s.core cr.core).slots[j]? ≠ some (some g)) → b.threads.length < 256 →
    (s.core cr.core).lclk.toNat < b.opened + 64 → cr.preempt = none →
    (∃ l ∈ cr.lanes, ∃ th, l.thread? = some th ∧ th.run = .running) →
    exec (.joinerBatchClose crew) s = .next s) ∧
  (∀ crew s cr j k g, s.crews[crew]? = some cr → (s.core cr.core).lastSlot = none ∨
      ((s.core cr.core).lastSlot = some k ∧ k < j ∧ (s.core cr.core).slots[j]? = some (some g)) →
    exec (.joinerBatchClose crew) s = .next s) ∧
  (∀ crew s cr b r, s.crews[crew]? = some cr → cr.moving = b :: r →
    (∀ g ∈ b.threads, s.outstanding crew g.lane = false) →
    (b.threads.map fun (g : Gathered) => g.lane).Nodup →
    (∀ g ∈ b.threads, ∃ l th, cr.lanes[g.lane]? = some l ∧ l.occ = .thread th) →
    let order : List Gathered := sortBy (gatheredBefore s crew) b.threads
    let places : List Nat := sortBy (fun a b => decide (a < b)) (b.threads.map fun (g : Gathered) => g.lane)
    ∃ t cr', exec (.joinerMovesComplete crew) s = .next t ∧ t.crews[crew]? = some cr' ∧ cr'.moving = r ∧ t.mem = s.mem ∧
      (∀ i (g : Gathered) p, order[i]? = some g → places[i]? = some p →
        ∃ (src dst : Lane) (th : Thread) (l : Lane) (th' : Thread), cr.lanes[g.lane]? = some src ∧ src.occ = .thread th ∧
          cr.lanes[p]? = some dst ∧ cr'.lanes[p]? = some l ∧ l.occ = .thread th' ∧
          th'.tid = th.tid ∧ th'.pc = g.target ∧
          th'.run = (if cr.stopping then .parked .joiner else .waking (some (nextBlock cr + i))) ∧ th'.stack = th.stack ∧
          th'.depth = th.depth ∧ l.q = src.q ∧ l.key = src.key ∧ l.ctr = src.ctr ∧
          (∀ n < 4 * g.live, n < src.v.length → l.v[n]? = src.v[n]?) ∧
          (∀ n, 4 * g.live ≤ n → 4 * g.live ≤ src.v.length → l.v[n]? = dst.v[n]?)) ∧
      (∀ p, (∀ g ∈ b.threads, g.lane ≠ p) → cr'.lanes[p]? = cr.lanes[p]?) ∧
      (∀ h k m, k < 12 → cr.masks[12 * h + k]? = some m → ∃ m', cr'.masks[12 * h + k]? = some m' ∧ ∀ j < 16,
        (m'.getLsbD j = true ↔ m.getLsbD j = true ∧ ∀ (i : Nat) (g : Gathered), order[i]? = some g →
          places[i]? = some (16 * h + j) → g.lane = 16 * h + j))) ∧
  (∀ (s : State) ci (a b : Gathered) ta tb, s.thread? ci a.lane = some ta → s.thread? ci b.lane = some tb →
    (gatheredBefore s ci a b = true ↔ a.target.toNat < b.target.toNat ∨ (a.target = b.target ∧
      (a.key.toNat < b.key.toNat ∨ (a.key = b.key ∧ ta.tid < tb.tid))))) ∧
  (∀ (s : State) ci (l : List Gathered), (sortBy (gatheredBefore s ci) l).Pairwise fun a b => gatheredBefore s ci b a = false) ∧
  (∀ {α : Type} (before : α → α → Bool) (l : List α), (sortBy before l).Perm l) ∧
  (∀ (l : List Nat), (sortBy (fun a b => decide (a < b)) l).Pairwise (· ≤ ·))

/-! ### Saving and restoring -/

/-- R41, R42, R186, R234, R390: a pre-emption is asked for a whole gang and waits for its save areas; a thread is then
saved at its region, with the live-in registers alone, at a REGION marker that it stands at, or in full where it is
parked outside every region, is held, or 4,096 cycles have passed; no thread is saved while the Joiner holds threads
of its crew, and the crew leaves its core once all are; each save is a release at .dev. R355, R356: the crews of a
gang come back from their areas together, each lane from its record, and a thread that was saved in full comes back
as it was. (On what happens when no area is there, and on a gang that comes back together, the model's choices: logs
23 and 36.) -/
def Obligations.PreemptionAndReturn : Prop :=
  (∀ crew s, exec (.preemptRequest crew) s = .next
    (startRequest (takeAreas true ((gangCrews s crew).foldl (fun s' c => s'.updCrew c fun cr =>
      if cr.preempt.isSome then cr
      else { cr with preempt := some ⟨(s.core cr.core).lclk.toNat, none, false, false, true, false⟩ }) s)
        (gangCrews s crew)) (gangCrews s crew))) ∧
  (∀ (s : State) (crews : List Nat), (∃ c ∈ crews, ∃ cr p, s.crews[c]? = some cr ∧ cr.preempt = some p ∧ p.area = none ∧ p.discard = false) →
    startRequest s crews = s) ∧
  (∀ crew s cr p, s.crews[crew]? = some cr → cr.preempt = some p → cr.status = .resident → p.asked = false → s.xpairs = [] →
    let p1 := { p with timedOut := p.timedOut || decide (p.since + 4096 ≤ (s.core cr.core).lclk.toNat) }
    let s1 := s.updCrew crew fun c => { c with preempt := some p1 }
    exec (.preemptTimeout crew) s = .next (finishSave crew (if cr.batch.isSome || !cr.moving.isEmpty then s1
      else (List.range cr.lanes.length).foldl (saveLane crew p1) s1))) ∧
  (∀ (s : State) ci li cr p t, s.crews[ci]? = some cr → s.thread? ci li = some t → s.rays = [] →
    (∀ m ∈ s.monitors, ¬(m.crew = ci ∧ m.lane = li ∧ m.got.isSome = true)) →
    saveLane ci p s li = match saveNow s ci li cr p t with
      | .no => s
      | .region => ((forget ci li s).updLane ci li Lane.regionSave).performed cr.part 2
      | .marker v q => ((forget ci li s).updLane ci li fun l => (l.openRegion t.pc v q).regionSave).performed cr.part 2
      | .full => ((forget ci li s).updThread ci li Thread.fullSave).performed cr.part 2) ∧
  (∀ (s : State) ci cr p a, s.crews[ci]? = some cr → gangCrews s ci = [ci] → cr.preempt = some p → p.asked = false →
    p.discard = false → p.area = some a → allSaved s ci cr = true → s.trapActions = [] → s.regWrites = [] →
    ∀ s1, writeArea cr.part a.toNat cr.sections s = some s1 →
    ∃ cr', (finishSave ci s).crews[ci]? = some cr' ∧ cr'.status = .distributed ∧ cr'.saveArea = some a ∧ cr'.preempt = none) ∧
  (∀ (s : State) ci, (∃ c ∈ gangCrews s ci, readyToLeave s c = false) → finishSave ci s = s) ∧
  (∀ (cr : Crew) li (l : Lane), cr.lanes[li]? = some l → (areaRec cr.packet li, l.record cr.packet) ∈ cr.sections) ∧
  (∀ part addr s a, emptySlot s part = some a →
    exec (.saveAreaSupply part addr) s = .next (retryAreas part (s.devWrite part a (leBytes 8 addr.toNat)))) ∧
  (∀ crew s cr g a bs, s.crews[crew]? = some cr → s.gangs[cr.gang]? = some g → g.crews = [crew] → cr.status = .resuming →
    cr.saveArea = some a → cr.regions = [] →
    s.readG cr.part (dieOf cr.core) a.toNat (areaSize cr.packet) true = .ok bs → areaBad cr.packet bs = false →
    exec (.crewResume crew) s = .next (takeActions crew ((List.range cr.lanes.length).foldl (resumeTrace crew)
      (s.updCrew crew fun c => { c.restore bs with regions := [] })))) ∧
  (∀ crew s areas, crew ∈ resumingCrews s crew → areasOf s (resumingCrews s crew) = some areas →
    (∀ x ∈ areas, ∀ cr, s.crews[x.1]? = some cr → areaBad cr.packet x.2 = false) →
    let regions : List (Nat × WRegion) := (resumingCrews s crew).flatMap fun c =>
      ((s.crews[c]?).map fun cr => cr.regions.reverse.map fun w => (c, w)).getD []
    exec (.crewResume crew) s = .next ((resumingCrews s crew).foldl resumeThreads
      (regions.foldl (fun s' x => reloadRegion x.1 s' x.2) (areas.foldl restoreCrew s)))) ∧
  (∀ crew s cr areas x c, s.crews[crew]? = some cr → crew ∈ resumingCrews s crew →
    areasOf s (resumingCrews s crew) = some areas → x ∈ areas → s.crews[x.1]? = some c → areaBad c.packet x.2 = true →
    exec (.crewResume crew) s = .next (s.removeGrid cr.grid)) ∧
  (∀ (cr : Crew) bs, (cr.restore bs).status = .resident ∧ (cr.restore bs).preempt = none ∧
    (cr.restore bs).saveArea = none ∧ (cr.restore bs).packet = cr.packet ∧
    (∀ (li : Nat) (was : Lane), cr.lanes[li]? = some was → (cr.restore bs).lanes[li]? = some (restoredLane cr li was
      ((bs.drop (areaRec cr.packet li)).take (recSize cr.packet)))) ∧
    (∀ i < pktUC cr.packet, (cr.restore bs).u[i]? = some (BitVec.ofNat 64 (numAt bs (256 + 8 * i) 8))) ∧
    (∀ i < pktTiles cr.packet, (cr.restore bs).tiles[i]? = some (BitVec.ofNat 64 (numAt bs (areaTiles cr.packet + 8 * i) 8))) ∧
    (∀ h < pktH cr.packet, ∀ k < 12, (cr.restore bs).masks[12 * h + k]? =
      some (BitVec.ofNat 16 (numAt bs (areaMasks cr.packet + 32 * h + 2 * k) 2))) ∧
    (cr.restore bs).temp = BitVec.ofNat 32 (numAt bs 80 4) ∧ (cr.restore bs).mode = BitVec.ofNat 8 (numAt bs 84 1)) ∧
  (∀ (cr : Crew) li was bs, restoredLane cr li was bs = if (laneOf cr.packet was bs).occ = .never then
      { laneOf cr.packet was bs with key := crewKey cr li 0 0, ctr := 0 } else laneOf cr.packet was bs) ∧
  (∀ (s : State) ci li cr p (t : Thread), t.run ≠ .running → t.run ≠ .trapping → t.run ≠ .held → t.run ≠ .saved →
    t.region.isSome = true → saveNow s ci li cr p t = .region) ∧
  (∀ (s : State) ci li cr p t, t.run = .running ∨ t.run = .trapping ∨ t.run = .saved → saveNow s ci li cr p t = .no) ∧
  (∀ (s : State) ci li cr p t, t.run = .held → saveNow s ci li cr p t = .full) ∧
  (∀ (s : State) ci li cr p (t : Thread) w, t.run = .parked w → t.region = none → s.outstanding ci li = false →
    saveNow s ci li cr p t = .full) ∧
  (∀ (s : State) ci li cr p (t : Thread) n b, t.run = .ready n ∨ t.run = .waking b → t.region = none →
    s.outstanding ci li = false → saveNow s ci li cr p t = match markerAt s ci cr t.pc with
      | some (v, q) => .marker v q
      | none => if p.timedOut then .full else .no) ∧
  (∀ (t : Thread), t.fullSave.run = .saved ∧ t.fullSave.pc = t.pc ∧ t.fullSave.stack = t.stack ∧ t.fullSave.depth = t.depth ∧
    t.fullSave.flags = t.flags ∧ t.fullSave.pendWait = t.pendWait ∧ t.fullSave.trap = t.trap ∧ t.fullSave.region = none) ∧
  (∀ (l : Lane) t r, l.occ = .thread t → t.region = some r → ∃ t', l.regionSave.occ = .thread t' ∧ t'.pc = r.marker ∧
    t'.depth = r.depth ∧ l.regionSave.key = r.key ∧ l.regionSave.ctr = r.ctr ∧
    (∀ n x, l.v[n]? = some x → l.regionSave.v[n]? = some (if r.vq.getLsbD (n / 4) then x else Reg.zero x.tan.length)) ∧
    (∀ n x, l.q[n]? = some x → l.regionSave.q[n]? = some (if r.qp.getLsbD (n / 2) then x else Reg.zero x.tan.length))) ∧
  (∀ (p : BitVec 512) (l : Lane) (t : Thread), l.occ = .thread t → l.v.length = pktC p → l.q.length = 8 →
      (∀ x ∈ l.v ++ l.q, x.tan.length = pktT p) → t.tid < 2 ^ 10 → t.depth ≤ 16 → t.stack.length = 16 →
      t.cont = t.pc → t.run = .saved → t.region = none → t.held = [] → t.windows = 0 → t.acquired = [] → t.pendPair = none →
      (∀ w, t.pendWait = some w → match w with
        | .barSyn b _ => b < 2 ^ 8
        | .gbar b _ => b < 2 ^ 8
        | .mbPut _ _ => True
        | .mbTake _ _ => True
        | .trace o => o < 2 ^ 32
        | .tracep n o => n < 2 ^ 8 ∧ o < 2 ^ 32) →
      laneOf p l (l.record p) = { l with occ := .thread { t with
        run := if (t.trap.map fun r => r.held).getD false then .held else .waking none } })

/-! ### Engines -/

/-- R265, R268, R269, R270, R271, R273, R276, R377: the copy engine takes the command at HEAD of the crew whose turn it is; a
command that fails a check ends with its status; a plain copy leaves in each destination word what its source word held,
and nothing else in the scratchpad; an expanded block is its elements as FP32 values, a compressed one is packed under the
scale rule; the stamp and DONE follow; a payload leaves for its peer, and one that is given up ends with status 7. -/
def Obligations.CopyEvents : Prop :=
  (∀ k s ci cr, s.copyTurn k = some ci → s.crews[ci]? = some cr → k < s.clusters.length → cr.scratch.wf = true →
    ∃ t, exec (.copyTake k) s = .next t ∧ t.mem = s.mem ∧
      (∃ op, t.copies = s.copies ++ [op] ∧ op.cluster = k ∧ op.crew = some ci ∧ op.part = cr.part ∧ op.outcome = none ∧
        op.cmd = BitVec.ofNat 256 (cr.scratch.nat (pktQB cr.packet + 32 + 32 * (cr.qword 8 % pktQN cr.packet)) 32)) ∧
      (t.cluster k).copyNext = ci + 1 ∧
      ∃ cr', t.crews[ci]? = some cr' ∧ cr'.qword 8 = (cr.qword 8 + 1) % 2 ^ 32 ∧ cr'.queueMeta = cr.queueMeta.drop 1) ∧
  (∀ k s, s.copyTurn k = none → exec (.copyTake k) s = .next s) ∧
  (∀ k (s : State), 64 ≤ s.copiesOf k none → s.copyTurn k = none) ∧
  (∀ k (s : State) ci cr, s.crews[ci]? = some cr → cr.status = .resident → clusterOf cr.core = k → 0 < cr.queued →
    pktQN cr.packet ≠ 0 → s.copiesOf k (some ci) < 8 → s.copiesOf k none < 64 → (s.cluster k).copyNext = ci →
    s.copyTurn k = some ci) ∧
  (∀ k (s : State) ci, s.copyTurn k = some ci → s.mayTake k ci = true) ∧
  (∀ i nack s op st, s.copies[i]? = some op → op.outcome = none → op.sent = none → s.copyCheck op = some st →
    exec (.copyComplete i nack) s = .next ((s.settleCopy i op st 0).stampCopy i)) ∧
  (∀ i nack s op s1, s.copies[i]? = some op → op.outcome = none → op.sent = none → s.copyCheck op = none →
    s.transfer i op = some s1 → exec (.copyComplete i nack) s = .next (s1.stampCopy i)) ∧
  (∀ i nack s op f, s.copies[i]? = some op → op.outcome = none → op.sent = some f →
    s.sendQueue op.part (fld (cmdDst op.cmd) 55 48) = none ∨ nack = false →
    exec (.copyComplete i nack) s = .next ((s.settleCopy i op 1 f).stampCopy i)) ∧
  (∀ i s op f, s.copies[i]? = some op → op.outcome = none → op.sent = some f →
    exec (.transportFailure i) s = .next ((s.settleCopy i op 7 f).stampCopy i)) ∧
  -- the checks of R265
  (∀ (s : State) op, let c := op.cmd
    cmdNw c = 0 ∨ cmdXf c = 3 ∨ bitsOf c 126 123 ≠ 0 ∨ bitsOf c 63 59 ≠ 0 ∨ 3 ≤ cmdSk c ∨ (cmdFmt c ≠ 0 ∧ cmdXf c ≠ 2) ∨
      (op.info.xqn = true ∧ cmdDk c ≠ 3) ∨ (op.info.xqn = false ∧ 3 ≤ cmdDk c) ∨ (cmdSk c = 1 ∧ 256 ≤ cmdSrc c) ∨
      (cmdDk c = 1 ∧ 256 ≤ cmdDst c) ∨ (cmdSk c ≠ 1 ∧ cmdSrc c % 4 ≠ 0) ∨ (cmdDk c ≠ 1 ∧ cmdDst c % 4 ≠ 0) ∨
      (cmdXf c ≠ 0 ∧ cmdSk c ≠ 1 ∧ cmdSrc c % 64 ≠ 0) ∨ (cmdXf c ≠ 0 ∧ cmdDk c ≠ 1 ∧ cmdDst c % 64 ≠ 0) ∨
      (cmdXf c = 1 ∧ cmdNw c % 16 ≠ 0) ∨ (cmdXf c = 2 ∧ (cmdFmt c = 0 ∨ 9 ≤ cmdFmt c)) → s.copyCheck op = some 2) ∧
  (∀ (s : State) op ci cr, let c := op.cmd
    op.crew = some ci → s.crews[ci]? = some cr → op.info.xqn = false → cmdSk c = 2 → cmdDk c = 2 → cmdXf c = 0 →
    s.copyCheck op = if bitsOf c 126 123 ≠ 0 ∨ bitsOf c 63 59 ≠ 0 ∨ cmdNw c = 0 ∨ cmdFmt c ≠ 0 ∨ cmdSrc c % 4 ≠ 0 ∨
        cmdDst c % 4 ≠ 0 ∨ cr.alloc < cmdSrc c + 4 * cmdNw c ∨ cr.meetsQueue (cmdSrc c) (4 * cmdNw c) = true ∨
        cr.alloc < cmdDst c + 4 * cmdNw c ∨ cr.meetsQueue (cmdDst c) (4 * cmdNw c) = true then some 2
      else if op.info.refusedTile then some 5 else if s.staleEnd op 0 (cmdStamp c) then some 4 else none) ∧
  -- a plain copy within a scratchpad, whose stamp goes to memory
  (∀ i nack s op ci cr g, let c := op.cmd
    s.copies[i]? = some op → op.outcome = none → op.sent = none → op.node = none → op.crew = some ci → s.crews[ci]? = some cr →
    op.info.xqn = false → op.info.refusedTile = false → cmdSk c = 2 → cmdDk c = 2 → cmdXf c = 0 → bitsOf c 126 123 = 0 →
    bitsOf c 63 59 = 0 → cmdNw c ≠ 0 → cmdFmt c = 0 → cmdSrc c % 4 = 0 → cmdDst c % 4 = 0 →
    cmdSrc c + 4 * cmdNw c ≤ cr.alloc → cr.meetsQueue (cmdSrc c) (4 * cmdNw c) = false →
    cmdDst c + 4 * cmdNw c ≤ cr.alloc → cr.meetsQueue (cmdDst c) (4 * cmdNw c) = false → pktQN cr.packet ≠ 0 →
    cmdSrc c + 4 * cmdNw c ≤ cmdDst c ∨ cmdDst c + 4 * cmdNw c ≤ cmdSrc c → s.moves.drop op.since = [] →
    cr.scratch.wf = true → bitsOf cr.mode 4 3 = 0 → isWindow (cmdStamp c) = false → cmdStamp c % 8 = 0 → cmdRsc c < 2 →
    s.xlat op.part (cmdStamp c) { write := true } = .ok g →
    ∃ t cr', exec (.copyComplete i nack) s = .next t ∧ t.copies = s.copies.eraseIdx i ∧
      t.mem = (s.physWrite g (leBytes 8 (cmdSeq c * 2 ^ 32 + 2 ^ 24))).mem ∧ t.crews[ci]? = some cr' ∧
      (∀ j < cmdNw c, cr'.scratch.nat (cmdDst c + 4 * j) 4 = cr.scratch.nat (cmdSrc c + 4 * j) 4) ∧
      cr'.qword 12 = (cr.qword 12 + 1) % 2 ^ 32 ∧
      (∀ a, (a < cmdDst c ∨ cmdDst c + 4 * cmdNw c ≤ a) → (a < pktQB cr.packet + 12 ∨ pktQB cr.packet + 16 ≤ a) →
        cr'.scratch.nat a 1 = cr.scratch.nat a 1)) ∧
  -- a plain copy between pages that hold no descriptors
  (∀ i (s : State) op ci cr (f g : Nat → Page), let c := op.cmd
    s.copies[i]? = some op → op.crew = some ci → s.crews[ci]? = some cr → op.info.xqn = false → cmdSk c = 0 → cmdDk c = 0 →
    cmdXf c = 0 → isWindow (cmdSrc c) = false → isWindow (cmdDst c) = false → bitsOf cr.mode 4 3 = 0 →
    s.moves.drop op.since = [] → s.mem.wf = true →
    (∀ j < cmdNw c, s.xlat op.part (cmdSrc c + 4 * j) {} = .ok (f j) ∧ s.poisonedOn op.die (f j) 4 = false ∧
      (f j).typed = false ∧ (f j).replicated = false ∧ (f j).pa % 4 = 0 ∧
      s.xlat op.part (cmdDst c + 4 * j) { write := true } = .ok (g j) ∧ (g j).replicated = false ∧ (g j).pa % 4 = 0) →
    (∀ j < cmdNw c, ∀ k < cmdNw c, (f j).pa ≠ (g k).pa ∧ (j ≠ k → (g j).pa ≠ (g k).pa)) →
    ∃ s1, s.transfer i op = some s1 ∧
      (∀ j < cmdNw c, s1.mem.nat (g j).pa 4 = s.mem.nat (f j).pa 4) ∧
      (∀ a, (∀ j < cmdNw c, a < (g j).pa ∨ (g j).pa + 4 ≤ a) → s1.mem.nat a 1 = s.mem.nat a 1) ∧
      (s1.copies[i]?.map fun o => o.outcome) = some (some (1, 0)) ∧ s1.desc = s.desc) ∧
  -- expanding and compressing
  (∀ mode desc ws, expandBlock mode desc ws = none ↔ Num.eltOf (Num.descFmt desc) = none) ∧
  (∀ mode desc ws, Num.descFmt desc = 0 → expandBlock mode desc ws = some (ws, {})) ∧
  (∀ mode desc ws e out fl, Num.eltOf (Num.descFmt desc) = some e → e ≠ .raw → expandBlock mode desc ws = some (out, fl) →
    out.length = e.perBlock ∧ ∀ n < e.perBlock, out[n]? = some (BitVec.ofNat 32 (roundX fp32 mode
      (((e.value (Num.eltEnc e.width (ws.flatMap fun w => leBytes 4 w.toNat) n)).1).scale (Num.descScale desc))).1)) ∧
  (∀ mode fmt (ws : List Word), let b := Num.packBlock fmt mode (ws.map fun w => decodeF fp32 w.toNat)
    (compressAll mode fmt [ws.map some]).descs = [some b.2.1] ∧
    (compressAll mode fmt [ws.map some]).words.length = 16 ∧
    ∀ n < 16, (compressAll mode fmt [ws.map some]).words[n]? = some (some (BitVec.ofNat 32 (leNat ((b.1.drop (4 * n)).take 4))))) ∧
  -- a payload of an XQN
  (∀ i (s : State) op ci cr d, let c := op.cmd
    s.copies[i]? = some op → op.crew = some ci → s.crews[ci]? = some cr → op.info.xqn = true → cmdSk c = 2 → cmdXf c = 0 →
    s.sendQueue op.part (fld (cmdDst c) 55 48) = some d → fld d 7 0 ≠ 2 →
    fld (cmdDst c) 47 0 + 4 * cmdNw c ≤ fld d 255 192 → s.sendWaits i op = false →
    ∃ s1, s.transfer i op = some s1 ∧ s1.mem = s.mem ∧
      s1.out = .payload (State.routeOf d) (BitVec.ofNat 56 (fld d 183 128 + fld (cmdDst c) 47 0)) (BitVec.ofNat 56 (fld d 311 256))
        ((List.range (cmdNw c)).flatMap fun j => leBytes 4 (cr.scratch.nat (cmdSrc c + 4 * j) 4)) :: s.out ∧
      (s1.copies[i]?.map fun o => o.sent) = some (some 0)) ∧
  -- what an operation leaves of the words that it writes
  (∀ (s : State) since (ws : List WordOut) whole, (∀ x ∈ ws, ∃ pa, x.place = .mem pa false ∧ pa % 4 = 0) →
    (ws.map WordOut.place).Nodup → s.mem.wf = true →
    let t := s.settleWords since 0 whole (fun s' _ => s') ws
    (∀ x ∈ ws, ∀ pa, x.place = .mem pa false → (whole = true → s.moves.drop since = [] → t.mem.nat pa 4 = x.word.toNat) ∧
      (t.mem.nat pa 4 = x.word.toNat ∨ t.mem.nat pa 4 = s.mem.nat pa 4)) ∧
    (∀ a, (∀ x ∈ ws, ∀ pa, x.place = .mem pa false → a < pa ∨ pa + 4 ≤ a) → t.mem.nat a 1 = s.mem.nat a 1) ∧
    t.crews = s.crews) ∧
  (∀ seq st (f : BitVec 6), seq < 2 ^ 32 → st < 2 ^ 8 →
    fld (State.stampWord seq st f) 63 32 = seq ∧ fld (State.stampWord seq st f) 31 24 = st ∧
      fld (State.stampWord seq st f) 23 16 = f.toNat ∧ fld (State.stampWord seq st f) 15 0 = 0)

/-- R66, R69, R72, R282, R289, R290, R291, R292, R293, R294, R296, R297: the arbiter grants the next pass to the entry
of the highest priority, the oldest first; a pass of an MMA adds up to 256 products to each element, by residues or
by groups of 16; FIN rounds each element to the output; WLOAD compresses its blocks, which expand to what they were;
ACCLD brings the lines that ACCSV saved; CLR clears; a multiplier that fails is replaced while spares last. R294: an
operation that may not run ends with its status and changes nothing. (That a stale STAMP is seen at the operation's
start is the model's reading: log 34.) -/
def Obligations.MatrixEvents : Prop :=
  (∀ k s, k < s.clusters.length → (s.cluster k).granted = none → s.grantable k ≠ [] →
    ∃ t best, exec (.matrixPassGrant k) s = .next t ∧ best ∈ s.grantable k ∧ (t.cluster k).granted = some best.num ∧
      (∀ e ∈ s.grantable k, e.priority < best.priority ∨ (e.priority = best.priority ∧ best.num ≤ e.num)) ∧
      t.mem = s.mem ∧ t.crews = s.crews) ∧
  (∀ k s e s1, s.grantedEntry k = some e → s.runEntry k e = some s1 →
    (e.kind = .mma → (e.passes < e.passCount ∨ mbFin e.block = false) → exec (.matrixMma k) s = .next s1) ∧
    (e.kind = .wload → exec (.matrixWload k) s = .next s1) ∧
    (e.kind = .fin ∨ (e.kind = .mma ∧ mbFin e.block = true ∧ e.passCount ≤ e.passes) → exec (.matrixFin k) s = .next s1) ∧
    (e.kind = .accsv ∨ e.kind = .accld → exec (.accEntryExecute k) s = .next s1)) ∧
  -- a pass of an MMA on tiles that hold no descriptors
  (∀ k s e cr mode cr0, s.grantedEntry k = some e → e.kind = .mma → s.crews[e.crew]? = some cr → e.passes < e.passCount →
    0 < e.passes ∨ s.staleStamp e.crew (mbStamp e.block) = false →
    hdrSrc (mbOpb e.block) = 0 → bitsOf e.tileA 59 52 = 0 → bitsOf e.tileB 59 52 = 0 →
    pairing (hdrFmt (mbOpa e.block)) (hdrFmt (mbOpb e.block)) = some mode →
    (0 < e.passes ∧ cr0 = cr) ∨ (e.passes = 0 ∧ mmaBegin cr e.block mode = some cr0) →
    e.passes + 1 < e.passCount ∨ mbFin e.block = true →
    let da := if 0 < e.passes then e.descA else tileDescs cr e.tileA (extent (mbOpa e.block) (shapeA e.block))
    let db := if 0 < e.passes then e.descB else tileDescs cr e.tileB (extent (mbOpb e.block) (shapeB e.block))
    let r := mmaPass cr0 e (tileOperand cr (mbOpa e.block) e.tileA da) (tileOperand cr (mbOpb e.block) e.tileB db)
    exec (.matrixMma k) s = .next (((s.updCrew e.crew fun c =>
      { c with accMeta := r.1.accMeta, accSlots := r.1.accSlots }).updEntry k e.num fun _ =>
        { e with passes := e.passes + 1, flags := e.flags ||| r.2.toBits, descA := da, descB := db }).updCluster k
          fun K => { K with granted := none })) ∧
  -- what ends an MMA before its first pass: a stale STAMP, then a tile's descriptors, then the region
  (∀ k s e cr, s.grantedEntry k = some e → e.kind = .mma → s.crews[e.crew]? = some cr → e.passes = 0 → 0 < e.passCount →
    let bad := descsBad (mbOpa e.block) (shapeA e.block) e.tileA (tileDescs cr e.tileA (extent (mbOpa e.block) (shapeA e.block)))
    (s.staleStamp e.crew (mbStamp e.block) = true → exec (.matrixMma k) s = .next (s.stampEntry k e 4)) ∧
    (s.staleStamp e.crew (mbStamp e.block) = false → bad = true → exec (.matrixMma k) s = .next (s.stampEntry k e 6)) ∧
    (s.staleStamp e.crew (mbStamp e.block) = false → bad = false → hdrSrc (mbOpb e.block) = 1 → regionFor cr e.block = none →
      exec (.matrixMma k) s = .next (s.stampEntry k e 9))) ∧
  (∀ cr (p : BitVec 512) mode, mbClr p = false → mode ≠ 0 →
    (∀ n, mbC0 p ≤ n → n < mbC0 p + mbLpr p * mbM p → cr.lineMode n = mode) → mmaBegin cr p mode = some cr) ∧
  (∀ (cr : Crew) (e : MEntry) (a b : Operand), Sparse.wf cr.accMeta = true → Sparse.wf cr.accSlots = true →
    pairing a.fmt b.fmt = some 2 → ∀ i < mbM e.block,
    let n := mbC0 e.block + 2 * i
    let k0 := 256 * e.passes
    let r := resPassRow e.block a b k0 (min (mbK e.block) (k0 + 256)) i (cr.resRow n)
    (mmaPass cr e a b).2 = {} ∧
    (mmaPass cr e a b).1.lineMeta n = BitVec.ofNat 64 (2 * 2 ^ 62 + r.lcls * 2 ^ 41 + r.segn) ∧
    ∀ j < 256, (mmaPass cr e a b).1.slot n j = BitVec.ofNat 64 (r.els.getD j (0, 0)).1 ∧
      (mmaPass cr e a b).1.slot (n + 1) j = BitVec.ofNat 64 (r.els.getD j (0, 0)).2) ∧
  (∀ (cr : Crew) (e : MEntry) (a b : Operand), Sparse.wf cr.accMeta = true → Sparse.wf cr.accSlots = true →
    pairing a.fmt b.fmt = some 1 → mbLpr e.block = 1 → ∀ i < mbM e.block, ∀ j < mbN e.block,
    let n := mbC0 e.block + i
    let k0 := 256 * e.passes
    (mmaPass cr e a b).1.slot n j = BitVec.ofNat 64 (2 ^ 24 * (fltPassElt acc32 fp32 e.nbv a b k0
      (min (mbK e.block) (k0 + 256)) i j ((cr.fltRow n 1).getD j 0, {})).1)) ∧
  (∀ f acc nbv enc ps, (accGroup f acc nbv enc ps).1 =
    (roundOdd f (XR.add .rne (decodeF f enc) (groupSum acc nbv ps))).1) ∧
  (∀ acc (p : XR) ps, groupSum acc 1 (p :: ps) = ps.foldl (fun g x => rn acc (XR.add .rne g (rn acc x))) (rn acc p)) ∧
  -- residues
  (∀ m1 m2 m3, m1 < 65535 → m2 < 65536 → m3 < 65537 → resInt m1 m2 m3 % 65535 = m1 ∧ resInt m1 m2 m3 % 65536 = m2 ∧
    resInt m1 m2 m3 % 65537 = m3 ∧ -(65535 * 65536 * 65537) ≤ 2 * resInt m1 m2 m3 ∧ 2 * resInt m1 m2 m3 < 65535 * 65536 * 65537) ∧
  (∀ w fold (v e : Int) nan, resOpen w = false ∨ resExp w = e → -512 ≤ e → e < 512 →
    let m (n : Nat) (old : Nat) : Nat := (((old : Int) + v) % n).toNat
    (resAdd (w, fold) v e nan).2 = fold ∧ resOpen (resAdd (w, fold) v e nan).1 = true ∧
    resExp (resAdd (w, fold) v e nan).1 = e ∧ resNan (resAdd (w, fold) v e nan).1 = (resNan w || nan) ∧
    fld (resAdd (w, fold) v e nan).1 15 0 = m 65535 (fld w 15 0) ∧ fld (resAdd (w, fold) v e nan).1 31 16 = m 65536 (fld w 31 16) ∧
    fld (resAdd (w, fold) v e nan).1 48 32 = m 65537 (fld w 48 32)) ∧
  (∀ (r : ResRow) cls (a : ResElt) (bs : List ResElt), let full := decide (resLimit (max r.lcls cls) ≤ r.segn)
    (r.step cls a bs).segn = (if full then 0 else r.segn) + 1 ∧ (r.step cls a bs).lcls = max (if full then 0 else r.lcls) cls ∧
    ∀ (j : Nat) (x : Nat × Nat) (b : ResElt), r.els[j]? = some x → bs[j]? = some b → (r.step cls a bs).els[j]? =
      some (resAdd (if full then resClose x else x) (a.v * b.v) (a.x + b.x) (a.nan || b.nan))) ∧
  -- FIN to the crew's own scratchpad, one row of FP32 lines to FP32
  (∀ k s e cr, let p := e.block
    s.grantedEntry k = some e → e.kind = .fin → s.crews[e.crew]? = some cr →
    0 < e.passes ∨ s.staleStamp e.crew (mbStamp p) = false → mbM p = 1 → mbOfmt p = 0 → mbDk p = 2 →
    mbAdr p % 4 = 0 → cr.lineMode (mbC0 p) = 1 → mbC0 p + 1 ≤ pktAccum cr.packet → s.moves.drop e.since = [] →
    cr.scratch.wf = true → Sparse.wf cr.accMeta = true →
    ∃ (s1 : State) (e1 : MEntry) (cr' : Crew), exec (.matrixFin k) s = .next (s1.stampEntry k e1 1) ∧ e1.num = e.num ∧ e1.block = p ∧ s1.mem = s.mem ∧
      s1.crews[e.crew]? = some cr' ∧
      (∀ j < mbN p, BitVec.ofNat 32 (cr'.scratch.nat (mbAdr p + 4 * j) 4) =
        BitVec.ofNat 32 (roundX fp32 (mbMode p) (decodeF acc32 ((cr.fltRow (mbC0 p) 1).getD j 0))).1) ∧
      (mbKeep p = false → cr'.lineMode (mbC0 p) = 0) ∧ (mbKeep p = true → cr'.accMeta = cr.accMeta ∧ cr'.accSlots = cr.accSlots)) ∧
  (∀ cr (p : BitVec 512) lpr i, cr.lineMode (mbC0 p + lpr * i) = 2 → ∀ j < mbN p, j < 256 →
    let x := resClose ((cr.resRow (mbC0 p + lpr * i)).els.getD j (0, 0))
    (finRow cr p lpr i).1[j]? = some (if resNan x.1 then canonNaN (mbOut p)
      else (roundX (mbOut p) (mbMode p) (decodeF fp64 x.2)).1)) ∧
  -- WLOAD from the crew's own scratchpad
  (∀ k s e cr, let p := e.block
    let h := mbOpb p
    s.grantedEntry k = some e → e.kind = .wload → s.crews[e.crew]? = some cr → mbDk p = 2 →
    s.staleStamp e.crew (mbStamp p) = false →
    let blocks := State.wloadPlaces (mbAdr p) (mbRowb p) (shapeB p).1 (rowBlocks (hdrFmt h) (shapeB p).2)
    let data := blocks.flatMap fun a => compressBlock (hdrFmt h) (cr.scratch.read a 64)
    let fits := decide (64 + data.length ≤ (pktWbuf cr.packet - hdrIdx h) * 65536)
    exec (.matrixWload k) s = .next ((s.updCrew e.crew fun c => State.putRegion c
      ⟨hdrIdx h, hdrFmt h, hdrTr h, (shapeB p).1, (shapeB p).2, BitVec.ofNat 56 (mbAdr p), 2, mbRowb p, fits,
        if fits then data else []⟩).stampEntry k e (if fits then 1 else 0x0A))) ∧
  (∀ (bs : List (Nat × List Byte)), (∀ b ∈ bs, b.1 < 2 ^ 16 ∧ b.2.length = 64) →
    expandRegion bs.length (bs.flatMap fun b => compressBlock b.1 b.2) = bs) ∧
  -- ACCLD and ACCSV
  (∀ k s e cr bs, s.grantedEntry k = some e → e.kind = .accld → s.crews[e.crew]? = some cr →
    isWindow e.addr.toNat = false → s.readG cr.part (dieOf cr.core) e.addr.toNat (4160 * (e.count / 2)) = .ok bs →
    s.staleStamp e.crew (mbStamp e.block) = false → bitsOf cr.mode 4 3 = 0 →
    ((∀ i < e.count / 2, formOk ((bs.drop (4160 * i)).take 4160) = true) →
      exec (.accEntryExecute k) s = .next ((s.updCrew e.crew fun c => (List.range (e.count / 2)).foldl (fun c i =>
        c.loadForm (e.first / 2 + i) ((bs.drop (4160 * i)).take 4160)) c).endAcc k e none)) ∧
    ((∃ i < e.count / 2, formOk ((bs.drop (4160 * i)).take 4160) = false) →
      exec (.accEntryExecute k) s = .next (s.endAcc k e (some (.engineStatus, 0))))) ∧
  (∀ (cr c : Crew) j, Sparse.wf c.accMeta = true → Sparse.wf c.accSlots = true → (c.loadForm j (cr.saveForm j)).lineMeta (2 * j) = cr.lineMeta (2 * j) ∧
    (c.loadForm j (cr.saveForm j)).lineMeta (2 * j + 1) = cr.lineMeta (2 * j + 1) ∧
    ∀ i < 256, (c.loadForm j (cr.saveForm j)).slot (2 * j) i = cr.slot (2 * j) i ∧
      (c.loadForm j (cr.saveForm j)).slot (2 * j + 1) i = cr.slot (2 * j + 1) i) ∧
  (∀ k s e, s.grantedEntry k = some e → e.kind = .clr → s.staleStamp e.crew (mbStamp e.block) = false → exec (.matrixClr k) s = .next
    ((s.updCrew e.crew fun c => c.clearLines (mbC0 e.block) (mbM e.block)).stampEntry k e 1)) ∧
  -- the stamp of an entry, to memory
  (∀ (s : State) k e cr g st, s.crews[e.crew]? = some cr → isWindow (mbStamp e.block) = false → mbStamp e.block % 8 = 0 →
    mbRsc e.block < 2 → bitsOf cr.mode 4 3 = 0 → e.node = none →
    s.xlat cr.part (mbStamp e.block) { write := true } = .ok g →
    s.stampEntry k e st = (s.physWrite g (leBytes 8 (State.stampWord (mbSeq e.block) st e.flags))).freeEntry k e) ∧
  (∀ k s, k < 64 → k < s.clusters.length → (s.cluster k).withdrawn = false → (s.cluster k).spares < Config.spareColumns →
    ∃ t, exec (.multiplierMismatch k) s = .next t ∧ (t.cluster k).spares = (s.cluster k).spares + 1 ∧
      (t.cluster k).entries = (s.cluster k).entries ∧ t.module = { s.module with retired := s.module.retired + 1 } ∧
      t.crews = s.crews) ∧
  (∀ (e : MEntry), e.kind = .mma → e.passCount = (mbK e.block + 255) / 256) ∧
  (∀ (e : MEntry), e.priority ≤ 7 ∧ (e.waited < 64 → e.priority = mbPri e.block))

/-- R303, R308, R309, R311, R314, R320, R321, R326, R327, R328, R331, R352: a ray walks, step by step, until it stops
with a status, or until an access of it faults; its record and the word's D then hold the result; it takes a slot
again once the fault is resolved. A dual traversal goes down pair by pair and emits each pair of leaves. A
reprojection gives each target pixel the nearest of the pixels that land on it. A FETCHW that waited goes on once
its queue has a record. -/
def Obligations.RayEvents : Prop :=
  (∀ i s y s1 y1 st k, s.rays[i]? = some y → y.inUnit = true → rayWalk raySteps s y (some y.key) = .stopped s1 y1 st k →
    exec (.rayEndOrSuspend i) s = .next (s1.endRay i y1 st k)) ∧
  (∀ i s y s1 y1 a w item, s.rays[i]? = some y → y.inUnit = true → rayWalk raySteps s y (some y.key) = .held s1 y1 a w item →
    exec (.rayEndOrSuspend i) s = .next s ∧
    exec (.rayFaultStop i) s = .next (((((s1.putRecord y1 0).rayReplayed y1).setRay i
      { y1 with inUnit := false, faultAt := some (a, item) }).takeEntry y1.crew y1.key a w).2.slotsFreed (s.coreOf y.crew))) ∧
  -- a walk from the root, where the root node has no child, or cannot be read
  (∀ i s y cr, s.rays[i]? = some y → y.inUnit = true → y.begin = .start → s.crews[y.crew]? = some cr → bitsOf cr.mode 4 3 = 0 →
    rayLogs y.record = false → rayReplays y.record = false → y.faultAt = none →
    let y1 := { y with
      record := rayLeaf (rayCtlSet (recSet (rayCtlSet y.record 24 20 0) 80 8 0) 27 27 0) false 0 0, begin := .walk }
    (nodeAt s y.crew (some y.key) (rayPrec y.record) (rayRoot y.record) = .ok [] →
      exec (.rayEndOrSuspend i) s = .next (s.endRay i y1 1 0)) ∧
    (∀ a w item, nodeAt s y.crew (some y.key) (rayPrec y.record) (rayRoot y.record) = .held a w item →
      exec (.rayFaultStop i) s = .next ((((s.putRecord y1 0).setRay i
        { y1 with inUnit := false, faultAt := some (a, item) }).takeEntry y.crew y.key a w).2.slotsFreed (s.coreOf y.crew)))) ∧
  (∀ (s : State) ci key a cr bs, a % 64 = 0 → a < 2 ^ 56 → isWindow a = false → s.crews[ci]? = some cr →
    (s.core cr.core).faults = [] → s.readG cr.part (dieOf cr.core) a 64 = .ok bs →
    nodeAt s ci key false a = match readNode false bs with
      | some cs => .ok cs
      | none => .bad) ∧
  (∀ (s : State) y st k d cr th, s.rays = [y] → s.crews[y.crew]? = some cr → (s.core cr.core).unitQueue = [] →
    (s.core cr.core).faults = [] → y.faultAt = none → s.thread? y.crew y.lane = some th → th.run = .parked (.trace d) →
    th.pendWait = some (.trace y.off) →
    let s' := s.putRecord y st
    s.endRay 0 y st k = (State.updLane { s' with rays := [] } y.crew y.lane fun l => l.setV d
      ⟨BitVec.ofNat 32 (State.rayResult (s'.recordAt y.crew y.off) k), List.replicate cr.t 0⟩).wakeCont y.crew y.lane) ∧
  -- one step of a ray that keeps no log
  (∀ (s : State) y key ls cr, rayLists s y key = .ok ls → rayLogs y.record = false → s.crews[y.crew]? = some cr →
    bitsOf cr.mode 4 3 = 0 →
    let r := y.record
    let dep := rayDepth r
    ((ls.getD dep [])[rayTrail r dep]? = none → walkStep s y key false = .ok (goOn s (rayPop ls dep r))) ∧
    ∀ e, (ls.getD dep [])[rayTrail r dep]? = some e →
      (rayEnt r = true → e.kind = 1 → walkStep s y key false = .bad) ∧
      (rayEnt r = false → (rayF r 56).lt e.tnear = true → walkStep s y key false = .ok (goOn s (rayPop ls dep r))) ∧
      (rayEnt r = false → (rayF r 56).lt e.tnear = false → e.kind = 1 → dep = 31 →
        walkStep s y key false = .ok (.ends s r 0x21)) ∧
      (rayEnt r = false → (rayF r 56).lt e.tnear = false → e.kind = 1 → dep ≠ 31 →
        walkStep s y key false = .ok (.go s (rayTrailSet (rayCtlSet r 24 20 (dep + 1)) (dep + 1) 0))) ∧
      (rayEnt r = false → (rayF r 56).lt e.tnear = false → e.kind ≠ 1 →
        walkStep s y key false = .ok (.go s (rayLeaf r true 0 e.addr))) ∧
      ∀ p, rayEnt r = true → leafRecord s y.crew key (rayPrec r) (e.kind == 2) e.addr (rayLeafi r) = .ok p →
        (e.kind = 3 → walkStep s y key false =
          .ok (candidate s r 0x11 p.prim (fld p.tf 31 16) (Num.infEnc (rayFmt r) false) 0)) ∧
        (e.kind = 2 → triTest r p = none → walkStep s y key false = .ok (afterRecord s r ls p.last)) ∧
        ∀ h, e.kind = 2 → triTest r p = some h →
          walkStep s y key false = .ok (
            if acceptable r (.ofRat h.t) = false then afterRecord s r ls p.last
            else if p.opaq = true ∨ rayCtl r 31 31 = 1 then afterRecord s (rayCommit r h.enc p.prim (h.u + h.v * 2 ^ 32)) ls p.last
            else candidate s r 0x10 p.prim (fld p.tf 31 16) h.enc (h.u + h.v * 2 ^ 32))) ∧
  (∀ r (cs : List Child) e, e ∈ childList r cs → ∃ c ∈ cs, e.kind = c.kind ∧ e.addr = c.addr ∧ c.mask &&& rayCtl r 47 40 ≠ 0) ∧
  (∀ r (cs : List Child), (∀ e ∈ childList r cs, e.tnear.isNaN = false) →
    (childList r cs).Pairwise fun a b => b.tnear.lt a.tnear = false) ∧
  (∀ r (q : Rat), acceptable r (.ofRat q) = (xle (rayF r 48) (.ofRat q) &&
    if rayHv r then (XR.ofRat q).lt (rayF r 56) else xle (.ofRat q) (rayF r 56))) ∧
  -- a ray takes a slot again
  (∀ i s y th d, s.rays[i]? = some y → y.inUnit = false → y.failed = none → s.thread? y.crew y.lane = some th →
    th.run = .parked (.trace d) → d < 64 → rayWaits s y = false → (s.core (s.coreOf y.crew)).unitQueue = [] →
    s.coreOf y.crew < s.cores.length → 0 < s.freeSlots (s.coreOf y.crew) → y.off < 2 ^ 26 →
    (∀ cr, s.crews[y.crew]? = some cr → cr.lanes.length ≤ 1024) → rayBad (s.recordAt y.crew y.off) = false →
    exec (.rayReenter i) s =
      .next (s.setRay i { y with record := rayCtlSet (s.recordAt y.crew y.off) 7 0 0, inUnit := true })) ∧
  -- dual traversal
  (∀ i s op, s.xpairs[i]? = some op → op.inUnit = true ∨ op.refused = true →
    exec (.xpairComplete i) s =
      .next ((s.setPair i { op with inUnit := true }).runPair i { op with inUnit := true })) ∧
  (∀ i s op, s.xpairs[i]? = some op → op.inUnit = true → op.started = true → op.outcome = none → pairDepth op.record = 0 →
    pairList (nodeAt s op.crew none (pairPrec op.record)) op.record (.root (pairRootA op.record)) (.root (pairRootB op.record)) =
      .ok [] →
    exec (.xpairComplete i) s = .next (s.endPair i { op with outcome := some 1 } 1)) ∧
  (∀ (s : State) op ls a b, let r := op.record
    let dep := pairDepth r
    pairPath (nodeAt s op.crew none (pairPrec r)) r dep 0 (.root (pairRootA r)) (.root (pairRootB r)) = .ok ls →
    (ls.getD dep [])[pairTrail r dep]? = some (a, b) →
    ((a.kind = 1 ∧ 31 < a.depth) ∨ (b.kind = 1 ∧ 31 < b.depth) → pairStep s op = .ok (s, r, some 0x0E)) ∧
    (∀ s1, a.kind ≠ 1 → b.kind ≠ 1 → pairEmission s op a b = .ok (s1, false) → pairStep s op = .ok (s1, r, some 0x0C)) ∧
    (∀ s1, a.kind ≠ 1 → b.kind ≠ 1 → pairEmission s op a b = .ok (s1, true) → ∃ r1 x, pairStep s op = .ok (s1, r1, x) ∧
      pairEmit r1 = (pairEmit r + 1) % 2 ^ 64)) ∧
  (∀ (a b : PairRef), a.kind < 4 → b.kind < 4 → a.addr < 2 ^ 56 → b.addr < 2 ^ 56 →
    fld (pairRecord a b) 55 0 = a.addr ∧ fld (pairRecord a b) 63 62 = a.kind ∧ fld (pairRecord a b) 119 64 = b.addr ∧
      fld (pairRecord a b) 127 126 = b.kind) ∧
  (∀ (a b : PairRef), a.overlaps b = true ↔ ∀ i < 3, xle (a.lo.getD i .nan) (b.hi.getD i .nan) = true ∧
    xle (b.lo.getD i .nan) (a.hi.getD i .nan) = true) ∧
  -- reprojection
  (∀ k s op cr src mv, let p := op.block
    (s.cluster k).reproj = [op] → op.outcome = none → s.crews[op.crew]? = some cr → bitsOf cr.mode 4 3 = 0 →
    rpReject p = false → s.engineRead (some op.crew) cr.part (dieOf cr.core) (rpSrc p) (8 * rpN p) = .ok src →
    s.engineRead (some op.crew) cr.part (dieOf cr.core) (rpMv p) (16 * rpN p) = .ok mv →
    let x := reproject p src mv
    let out := s.outcomeOf (s.outWords (some op.crew) cr.part (dieOf cr.core) (rpDst p) 4 x.1 ++
      s.outWords (some op.crew) cr.part (dieOf cr.core) (rpList p) 4 x.2.1)
    out.2 = .ok () →
    exec (.reprojOperation k) s = .next (((s.settleWords op.since 0 true (fun s' _ => s') out.1).setReproj k 0
      { op with refused := false }).stampReproj k 0 { op with refused := false } x.2.2.1
        (if x.2.2.2 then flagInvalid else 0))) ∧
  (∀ p src mv, (reproject p src mv).1.length = 8 * rpN p ∧
    (reproject p src mv).2.2.1 = if rpCap p < leNat ((reproject p src mv).2.1.take 8) then 0x10 else 1) ∧
  (∀ p src mv i, let num (l : List Byte) (a : Nat) : Nat := leNat ((l.drop a).take 4)
    let dx := decodeF fp32 (num mv (16 * i))
    let dy := decodeF fp32 (num mv (16 * i + 4))
    let dz := decodeF fp32 (num mv (16 * i + 8))
    (num src (8 * i + 4) = 0xFFFFFFFF → splat p src mv i = (none, false)) ∧
    (num src (8 * i + 4) ≠ 0xFFFFFFFF → (dx.isFin && dy.isFin && dz.isFin) = false → splat p src mv i = (none, true)) ∧
    (num src (8 * i + 4) ≠ 0xFFFFFFFF → (dx.isFin && dy.isFin && dz.isFin) = true → ∀ qx qy : Nat,
      Num.roundInt .rne (((i % rpW p : Nat) : Rat) + dx.rat) = qx → Num.roundInt .rne (((i / rpW p : Nat) : Rat) + dy.rat) = qy →
      qx < rpW p → qy < rpH p → splat p src mv i =
        (some (qy * rpW p + qx, ⟨dz.rat, num mv (16 * i + 8), i, num src (8 * i + 4)⟩), false))) ∧
  (∀ (l : List Splat), nearest l = none ↔ l = []) ∧
  (∀ (l : List Splat) w, nearest l = some w → ∃ a b, l = a ++ w :: b ∧ (∀ y ∈ a, w.z < y.z) ∧ ∀ y ∈ b, w.z ≤ y.z) ∧
  -- FETCHW
  (∀ crew lane s th a g x h y, s.thread? crew lane = some th → th.run = .parked (.geyser a) →
    x = leNat (s.physRead (dieOf (s.coreOf crew)) g 64) →
    s.globalPage crew lane a { write := true, kindOk := plainPage } = .ok g →
    s.poisonedOn (dieOf (s.coreOf crew)) g 64 = false → dispBad x = false →
    dispKind x = 1 → isWindow (dispQueue x) = false → s.globalPage crew lane (dispQueue x) { write := true } = .ok h →
    s.poisonedOn (dieOf (s.coreOf crew)) h 64 = false → y = leNat (s.physRead (dieOf (s.coreOf crew)) h 64) →
    recordQueueBad y = false →
    (fld y 127 64 < fld y 63 0 ∨ bitAt x 8 = true →
      ∃ t th', exec (.fetchwWake crew lane) s = .next t ∧ t.thread? crew lane = some th' ∧ th'.pc = th.pc ∧ t.mem = s.mem ∧
        th'.run = if s.outstanding crew lane then .waiting else .waking none) ∧
    (fld y 63 0 ≤ fld y 127 64 → bitAt x 8 = false → exec (.fetchwWake crew lane) s = .next s))

/-! ### Launch -/

/-- R332, R337, R345, R353: writing a queue descriptor, which lets threads that wait for room look again, taking a
packet, and completing a grid; packets that fail a check are refused with their status. (Where the queue descriptors
live, and what a lost stamp leaves, and that a rejected descriptor sets ERR and nothing else, are the model's
choices: log 22.) -/
def Obligations.QueueEvents : Prop :=
  (∀ q d s, q < Config.queues →
    exec (.queueDescriptorWrite q d) s = .next (State.wakeLaunches { s with queues := Sparse.set s.queues q (qdTaken d) } q)) ∧
  (∀ (d : BitVec 512), (qdBad d = false → qdTaken d = qdChecked d) ∧
    (qdBad d = true → qdErr (qdTaken d) = true ∧ qdEn (qdTaken d) = false ∧ qdPri (qdTaken d) = 0)) ∧
  (∀ (d : BitVec 512), qdErr (qdChecked d) = (qdErr d || decide (2 ^ qdLcap d < qdAhead d))) ∧
  (∀ q s n (p : BitVec 512), s.works = true → qdEn (s.queue q) = true → qdErr (s.queue q) = false → qdAhead (s.queue q) ≠ 0 →
    (s.part (qdPart (s.queue q))).up = true →
    s.devNat (qdPart (s.queue q)) (qdBase (s.queue q) + 64 * (qdRptr (s.queue q) % 2 ^ qdLcap (s.queue q))) 64 = some n →
    p = BitVec.ofNat 512 n →
    let s1 := (s.setQueue q (setBits (s.queue q) 159 128 (qdRptr (s.queue q) + 1))).wakeLaunches q
    (s1.packetCheck (qdPart (s.queue q)) p = none →
      (pktKind p = 1 → exec (.packetTake q) s = .next { s1 with
        grids := s1.grids ++ [⟨p, s1.taken, q, qdPart (s.queue q), none, .waiting, 0, []⟩] }) ∧
      (pktKind p = 2 → exec (.packetTake q) s = .next { s1 with
        graphs := s1.graphs ++ [⟨p, s1.taken, q, qdPart (s.queue q), (pktDies p).headD 0, false, [], none, false⟩] })) ∧
    (∀ st g, s1.packetCheck (qdPart (s.queue q)) p = some st → pktStamp p % 8 = 0 → isWindow (pktStamp p) = false → pktRsc p < 2 →
      s1.xlat (qdPart (s.queue q)) (pktStamp p) { write := true } = .ok g →
      exec (.packetTake q) s = .next (State.addGrid (s1.physWrite g (leBytes 8 (State.stampWord (pktSeq p) st 0)))
        p q (qdPart (s.queue q)) none .refused))) ∧
  (∀ g s G pg, let r := s.releaseOver
    r.grids[g]? = some G → G.node = none → (∀ cr ∈ r.crews, cr.grid = g → cr.status = .released) →
    (G.status = .removed ∨ G.status = .nofit ∨ (G.status = .live ∧ r.undistributed g G = false)) →
    pktStamp G.packet % 8 = 0 → isWindow (pktStamp G.packet) = false → pktRsc G.packet < 2 →
    r.xlat G.part (pktStamp G.packet) { write := true } = .ok pg →
    exec (.gridComplete g) s = .next (((r.physWrite pg (leBytes 8 (State.stampWord (pktSeq G.packet)
      (if G.status = .removed then 0x13 else if G.status = .nofit then 0x12 else 1) 0))).updGrid g fun g =>
        { g with status := .done }).updPart G.part fun P => { P with bindings := P.bindings.filter fun b => b.grid != g })) ∧
  (∀ (s : State) part p, pktKind p ≠ 1 → pktKind p ≠ 2 → s.packetCheck part p = some 0x02) ∧
  (∀ (s : State) part p, pktKind p = 1 → packetBad p = false →
    4096 < pktAccum p ∨ 256 < pktWbuf p ∨ 128 < pktAlloc p / 4096 → s.packetCheck part p = some 0x11) ∧
  (∀ (s : State) part p, pktKind p = 1 → packetBad p = false → packetTooBig p = false → s.canHold part true p = true →
    s.module.state = .degraded → s.canHold part false p = false → s.packetCheck part p = some 0x12) ∧
  (∀ gi s, exec (.gridRemoval gi) s = .next (s.removeGrid gi))

/-- R82, R333, R338, R339, R340, R109, R159, R196: the distributor gives a die the next gang of a grid, its crews numbered on;
the placement unit starts a gang that fits, each crew on the first core that grants it, in the lowest free slot, each
thread at the entry with zero registers and its own stream; the code that a grid runs is fixed at its first gang. (What
the code image holds is the model's choice: log 38.) -/
def Obligations.Placement : Prop :=
  (∀ die s q gi g, let r := s.dropUnfit
    r.distributorQueue = some q →
    r.grids.findIdx? (fun g => g.queue == q && r.mayDistribute (r.grids.idxOf g) g) = some gi → r.grids[gi]? = some g →
    r.works = true → r.dieOk gi g die = true →
    ∃ t, exec (.distributeGang die) s = .next t ∧ t.mem = r.mem ∧
      t.crews.length = r.crews.length + (r.nextGang gi g).length ∧
      t.robin = r.robin.set (qdPri (r.queue q)) ((q + 1) % Config.queues) ∧
      (∃ g', t.grids[gi]? = some g' ∧ g'.status = .live ∧ g'.nextCrew = g.nextCrew + (r.nextGang gi g).length) ∧
      (∃ x, t.gangs = r.gangs ++ [x] ∧ x.grid = gi ∧ x.die = die ∧ x.order = r.orderNext ∧ x.placed = false ∧
        x.crews = (List.range (r.nextGang gi g).length).map fun i => r.crews.length + i) ∧
      ∀ i < (r.nextGang gi g).length, ∃ cr, t.crews[r.crews.length + i]? = some cr ∧ cr.grid = gi ∧
        cr.num = g.nextCrew + i ∧ cr.packet = g.packet ∧ cr.part = g.part ∧ cr.status = .distributed) ∧
  (∀ (s : State), s.module.state ≠ .degraded → s.dropUnfit = s) ∧
  (∀ (s : State) q, s.distributorQueue = some q → ∀ g ∈ s.grids, s.mayDistribute (s.grids.idxOf g) g = true →
    qdPri (s.queue g.queue) ≤ qdPri (s.queue q)) ∧
  (∀ die s k ks x cores, let r := s.releaseOver.dropUnfit
    r.waitingGangs die = k :: ks → r.gangs[k]? = some x → r.gangFit k = some cores → r.works = true →
    exec (.placeGang die) s = .next ((((r.unplaced x).zip cores).foldl (fun s' y => s'.placeCrew y.1 y.2)
      (r.fixCode x.grid)).updGang k fun x => { x with placed := true, started := true })) ∧
  (∀ (s : State) gi g, s.grids[gi]? = some g → (∀ x ∈ s.gangs, x.grid = gi → x.started = false) →
    (s.fixCode gi).grids[gi]? = some { g with code := s.codeMem }) ∧
  (∀ c cs p n used, firstFit (c :: cs) p (n + 1) used =
    if coreGrants used c p then c :: firstFit (c :: cs) p n ((c, p) :: used) else firstFit cs p (n + 1) used) ∧
  (∀ cores p n used, (firstFit cores p n used).length ≤ n ∧ ∀ c ∈ firstFit cores p n used, c ∈ cores) ∧
  (∀ (cr : Crew) core slot u, (cr.start core slot u).core = core ∧ (cr.start core slot u).cslot = slot ∧
    (cr.start core slot u).status = .resident ∧ (cr.start core slot u).u = u ∧
    (cr.start core slot u).lanes.length = 16 * pktH cr.packet ∧ (cr.start core slot u).mode = pktMode cr.packet ∧
    (cr.start core slot u).temp = pktTemp cr.packet ∧
    (∀ x ∈ (cr.start core slot u).masks, x = 0) ∧ (∀ x ∈ (cr.start core slot u).tiles, x = 0) ∧
    ∀ i l, (cr.start core slot u).lanes[i]? = some l →
      (∀ x ∈ l.v ++ l.q, x.prim = 0 ∧ x.tan = List.replicate (pktT cr.packet) 0) ∧ l.v.length = pktC cr.packet ∧ l.q.length = 8 ∧
      l.ctr = 0 ∧ l.key = crewKey cr i 0 0 ∧
      (i < pktN cr.packet → ∃ th, l.occ = .thread th ∧ th.tid = i ∧ th.pc = pktEntry cr.packet ∧ th.depth = 0 ∧ th.flags = 0 ∧
        th.trap = none ∧ th.region = none) ∧
      (pktN cr.packet ≤ i → l.occ = .never)) ∧
  (∀ (ci core : Nat) (s : State) cr, s.crews[ci]? = some cr → Sparse.wf s.gens = true →
    let k := s.freeCrewSlot core
    let t := s.placeCrew ci core
    t.crews[ci]? = some (if cr.saveArea.isSome then { cr with status := .resuming, core := core, cslot := k }
      else cr.start core k ((s.uniforms cr).getD [])) ∧
    Sparse.get t.gens (256 * core + k) = Sparse.get s.gens (256 * core + k) + 1) ∧
  (∀ (s : State) core, let taken (k : Nat) : Prop := ∃ cr ∈ s.crews, (cr.status = .resident ∨ cr.status = .resuming) ∧
      cr.core = core ∧ cr.cslot = k
    (∃ k < Config.groupSlots, ¬taken k) → ¬taken (s.freeCrewSlot core) ∧ ∀ k < s.freeCrewSlot core, taken k)

/-- R346, R347, R348, R349, R397: a walker takes its next graph, starts the lowest node that may start, gives a matrix
node's block to the crew that it names, and takes the nodes' results; a graph none of whose nodes can ever start ends at
once. (When a graph fails whose header or node cannot be read is the model's choice: log 35.) -/
def Obligations.GraphEvents : Prop :=
  (∀ w s gi g h ns, s.works = true → s.activeGraph w = none → s.nextGraph w = some gi → s.graphs[gi]? = some g →
    s.walkerRead g (State.graphHeader g) 64 = some (some h) → 0 < fld h 31 0 → fld h 31 0 ≤ 65535 → fld h 63 32 = 0 →
    fld h 511 96 = 0 → s.graphNodes g (fld h 31 0) = some (ns.map some) → graphBad ns = false → g.failed = none →
    let s1 := (s.devWrite g.part (State.graphHeader g + 8) (leBytes 4 0xFFFF)).updGraph gi fun G =>
      { G with started := true, nodes := List.replicate (fld h 31 0) .idle }
    ((∃ i < ns.length, startable ns (List.replicate ns.length .idle) i = true) → exec (.graphStart w) s = .next s1) ∧
    ∀ pg, (∀ i < ns.length, startable ns (List.replicate ns.length .idle) i = false) → pktStamp g.packet % 8 = 0 →
      isWindow (pktStamp g.packet) = false → pktRsc g.packet < 2 → s1.xlat g.part (pktStamp g.packet) { write := true } = .ok pg →
      exec (.graphStart w) s = .next ((s1.physWrite pg (leBytes 8 (State.stampWord (pktSeq g.packet) 1 0))).updGraph gi fun G =>
        { G with done := true })) ∧
  -- a graph whose header cannot be read, or whose header breaks a check
  (∀ w s gi g pg st, s.works = true → s.activeGraph w = none → s.nextGraph w = some gi → s.graphs[gi]? = some g →
    (s.walkerRead g (State.graphHeader g) 64 = some none ∧ st = 3) ∨
      (∃ h, s.walkerRead g (State.graphHeader g) 64 = some (some h) ∧ fld h 31 0 = 0 ∧ st = 2) →
    pktStamp g.packet % 8 = 0 → isWindow (pktStamp g.packet) = false → pktRsc g.packet < 2 →
    s.xlat g.part (pktStamp g.packet) { write := true } = .ok pg →
    exec (.graphStart w) s = .next ((s.physWrite pg (leBytes 8 (State.stampWord (pktSeq g.packet) st 0))).updGraph gi fun G =>
      { G with done := true })) ∧
  (∀ w node s gi g ns s1, s.works = true → s.graphNow w = some (gi, g, ns) → g.failed = none →
    node < ns.length → startable ns g.nodes node = true → (∀ j < node, startable ns g.nodes j = false) →
    (∀ j < ns.length, s.nodeLost g j = false) → s.walkerBusy w < Config.walkerNodes → s.startNode gi node g (ns.getD node 0) = some s1 →
    exec (.graphNodeStart w node) s = .next s1) ∧
  -- a node that cannot be read fails its graph
  (∀ w node s gi g ns, s.works = true → s.graphNow w = some (gi, g, ns) → g.failed = none → s.walkerBusy w < Config.walkerNodes →
    node < ns.length → g.nodes[node]? = some .idle → s.nodeLost g node = true → (∀ j < node, s.nodeLost g j = false) →
    exec (.graphNodeStart w node) s = .next (s.setNode gi node (.ended 3))) ∧
  (∀ (s : State) gi i g n, gnKind n = 0 → s.startNode gi i g n = some (s.setNode gi i (.ended 1))) ∧
  (∀ (s : State) gi i g n bs, gnKind n = 5 ∨ gnKind n = 6 → isWindow (gnCw n) = false → s.readG g.part g.die (gnCw n) 8 = .ok bs →
    s.startNode gi i g n = some (if leNat bs = 0 then s.setNode gi i (.ended 1)
      else (s.updGraph gi fun G => { G with nodes := resetBody n G.nodes }).setNode gi i .running)) ∧
  (∀ w node s gi g ns ci cr, s.graphNow w = some (gi, g, ns) → g.nodes.getD node .idle = .waitCrew →
    s.nodeLost g node = false → matrixCrew s gi ns (ns.getD node 0) = some (some ci) → s.crews[ci]? = some cr →
    mmCheck cr (gnPay (ns.getD node 0)) = none → tileTest cr (gnPay (ns.getD node 0)) = .ready →
    s.tableFull (clusterOf cr.core) = false →
    exec (.graphMatrixNode w node) s = .next ((s.addEntry (clusterOf cr.core)
      (blockEntry s ci cr (gnPay (ns.getD node 0)) (some (gi, node)) 0 0 0)).setNode gi node .running)) ∧
  (∀ w node s gi g ns, s.works = true → s.graphNow w = some (gi, g, ns) → g.failed = none →
    node < ns.length → startable ns g.nodes node = true → (∀ j < node, startable ns g.nodes j = false) →
    (∀ j < ns.length, s.nodeLost g j = false) → s.walkerBusy w < 256 → gnKind (ns.getD node 0) = 0 →
    exec (.graphNodeStart w node) s = .next (s.setNode gi node (.ended 1))) ∧
  (∀ w node s gi g ns j, s.graphNow w = some (gi, g, ns) → g.nodes.getD node .idle = .ended 1 → g.failed = none →
    j < ns.length → j ≠ node → (g.nodes.getD j .idle).busy = true →
    exec (.graphNodeComplete w node) s = .next (s.setNode gi node .done)) ∧
  (∀ w node s gi g ns pg, s.graphNow w = some (gi, g, ns) → g.nodes.getD node .idle = .ended 1 → g.failed = none →
    (∀ j < ns.length, j ≠ node → g.nodes.getD j .idle = .done) → pktStamp g.packet % 8 = 0 →
    isWindow (pktStamp g.packet) = false → pktRsc g.packet < 2 → s.xlat g.part (pktStamp g.packet) { write := true } = .ok pg →
    exec (.graphNodeComplete w node) s = .next (((s.setNode gi node .done).physWrite pg
      (leBytes 8 (State.stampWord (pktSeq g.packet) 1 0))).updGraph gi fun G => { G with done := true })) ∧
  (∀ w node s gi g ns s1 s2, s.graphNow w = some (gi, g, ns) → s.nodeResult gi node g ns = some s1 →
    s1.endGraph gi ns = some s2 → exec (.graphNodeComplete w node) s = .next s2) ∧
  (∀ (s : State) gi node g ns, g.nodes.getD node .idle = .ended 1 → s.nodeResult gi node g ns = some (s.setNode gi node .done)) ∧
  (∀ (s : State) gi node g ns st, g.nodes.getD node .idle = .ended st → st ≠ 1 → g.failed = none →
    s.nodeResult gi node g ns = some ((s.setNode gi node (.failed st)).updGraph gi fun G => { G with failed := some (node, st) }))

/-! ### The host, peers and collectives -/

/-- R373, R374, R372, R397: a doorbell sets the WPTR of the queue that its slot was assigned, and one of a slot without a
queue does nothing; REGW registers a waiter, or sets FULL; reading REGST reports both and clears FULL; a reserved offset
reads zero and ignores writes; a release to a word, under whatever address it is registered, fires its waiters once; the
host reads device memory as it stands, a poisoned block as poison, and a write stores its bytes, clears the poison of the
blocks that it covers whole, and leaves every partition's context that it does not meet. R82: running crews fetch what
the host wrote (log 38). R191: a page that it makes typed has no descriptor. That the start event gives the order of a
function's slots is log 29, that the device reads a written context again, and rejects one that a start would, log 16. -/
def Obligations.HostEvents : Prop :=
  (∀ vf j v s i f q, vfOf s vf = some (i, f) → f.slots[j]? = some q → j < Config.queues → q < Config.queues →
    qdPart (s.queue q) = f.part → s.works = true → qdEn (s.queue q) = true → qdErr (s.queue q) = false →
    exec (.doorbell vf j v) s = .next { s with
      queues := Sparse.set s.queues q (qdChecked (setBits (s.queue q) 127 96 (v.toNat % 2 ^ 32))) }) ∧
  (∀ vf j v s i f, vfOf s vf = some (i, f) → f.slots[j]? = none → exec (.doorbell vf j v) s = .next s) ∧
  (∀ vf v s i f, vfOf s vf = some (i, f) → s.works = true → f.part ≠ none → bitsOf v 2 0 = 0 → bitsOf v 63 56 ≤ 63 →
    (f.waiters.length < 256 → exec (.regw vf v) s = .next { s with
      vfs := s.vfs.set i { f with
        waiters := f.waiters ++ [(BitVec.ofNat 56 (bitsOf v 55 0), BitVec.ofNat 6 (bitsOf v 63 56))] } }) ∧
    (256 ≤ f.waiters.length → exec (.regw vf v) s = .next { s with vfs := s.vfs.set i { f with full := true } })) ∧
  (∀ vf v s i f, vfOf s vf = some (i, f) → bitsOf v 2 0 ≠ 0 ∨ 63 < bitsOf v 63 56 → exec (.regw vf v) s = .next s) ∧
  (∀ vf s i f, vfOf s vf = some (i, f) → exec (.regstRead vf) s = .next { s with
    vfs := s.vfs.set i { f with full := false }
    out := .regst (BitVec.ofNat 64 (f.waiters.length + if f.full then 2 ^ 16 else 0)) :: s.out }) ∧
  (∀ vf off v s, exec (.bar0ReservedWrite vf off (some v)) s = .next s ∧
    exec (.bar0ReservedWrite vf off none) s = .next { s with out := .bar0 0 :: s.out }) ∧
  (∀ (s : State) p pa, let on (w : BitVec 56) : Bool := (s.devPa p w.toNat).any fun x => x / 8 == pa / 8
    ((s.fireAt p pa).vfs = s.vfs.map fun (f : Vf) =>
      if f.part = some p then { f with waiters := f.waiters.filter fun w => !on w.1 } else f) ∧
    (∀ f ∈ s.vfs, f.part = some p → ∀ w ∈ f.waiters, on w.1 = true → .msix f.id w.2.toNat ∈ (s.fireAt p pa).out) ∧
    (s.fireAt p pa).mem = s.mem ∧ (s.fireAt p pa).crews = s.crews) ∧
  (∀ (s : State) p va, s.fireWaiters p va 0 = s ∧ s.fireWaiters p va 1 = s ∧ (s.performed p 3).codeMem = s.mem ∧
    ∀ pa, isWindow va = false → (s.performed p 2).devPa p va = some pa → s.fireWaiters p va 2 = (s.performed p 2).fireAt p pa) ∧
  (∀ part (addr : BitVec 56) len s, physOk addr.toNat len = true →
    exec (.hostDeviceMemoryAccess part addr len none) s = .next { s with
      out := (if 0 < len ∧ s.poisoned addr.toNat len = true then .hostPoison else .hostData (s.mem.read addr.toNat len)) :: s.out }) ∧
  (∀ part (addr : BitVec 56) len bs s, physOk addr.toNat bs.length = true →
    ∃ t, exec (.hostDeviceMemoryAccess part addr len (some bs)) s = .next t ∧ t.mem = s.mem.write addr.toNat bs ∧
      t.codeMem = s.codeMem.write addr.toNat bs ∧ t.crews = s.crews ∧ t.cores = s.cores ∧
      (∀ x ∈ t.desc, x ∈ s.desc) ∧
      -- a block in a page that this write marks typed has lost its descriptor
      (∀ x ∈ t.desc, x.1 / 1024 ∈ t.typedNow → x.1 / 1024 ∈ s.typedNow) ∧
      (∀ b, b ∈ t.poison ↔ b ∈ s.poison ∧ ¬ (addr.toNat ≤ 64 * b ∧ 64 * b + 64 ≤ addr.toNat + bs.length)) ∧
      ((∀ p < s.parts.length, ¬ (addr.toNat < Config.contextAt p + 128 ∧ Config.contextAt p < addr.toNat + bs.length)) →
        t.parts = s.parts ∧ t.module = s.module) ∧
      -- a context that the write meets is read again, unless the device rejects it
      ∀ p P, s.parts[p]? = some P → addr.toNat < Config.contextAt p + 128 → Config.contextAt p < addr.toNat + bs.length →
        let Q := ({ P with ctx := BitVec.ofNat 1024 ((s.mem.write addr.toNat bs).nat (Config.contextAt p) 128) } : Partition).setAt 8 8
          (P.at 8 8)
        (contextBad (vfsOf s.vfs p) Q = true → t.parts[p]? = some P ∧ p ∈ t.module.rejected) ∧
        (contextBad (vfsOf s.vfs p) Q = false → ∃ Q', t.parts[p]? = some Q' ∧ Q'.ctx = Q.ctx ∧ Q'.up = P.up))

/-- R377, R378: a payload is stored before the word that counts it grows and its waiters fire; where the transport gave
up, each word is old or new and nothing is counted; a registration is taken or refused; a wake stores its value.
R380: a TAIL performed at .dev rings, and the unit takes the commands. R80, R81, R379, R381, R382, R383, R384: a
rank adds its children's values to its own along the tree of R80, each node rounded once, sends the node value on,
acknowledges the root value, and commits it; ranks that differ complete with MISMATCH; a rank that is late is
declared failed, and every other rank is told. Which values a torn payload leaves is log 6, where the bytes of a
collective that wait for its commit are held is log 24, that a message which comes early waits and that the event
says how long a rank has waited log 39. -/
def Obligations.PeerAndCollectiveEvents : Prop :=
  (∀ job (addr : BitVec 56) data s part s1, s.partOf job = some part → s.writeG part addr.toNat data = .ok s1 →
    exec (.remotePayloadReceive job addr ⟨data, true⟩ 0) s = .next ((s1.performed part 3).emit (.ack true))) ∧
  (∀ job (addr remc : BitVec 56) data s part s1 bs s2, s.partOf job = some part → s.writeG part addr.toNat data = .ok s1 →
    remc ≠ 0 → (s1.performed part 3).readG part 0 remc.toNat 8 = .ok bs →
    (s1.performed part 3).writeG part remc.toNat (leBytes 8 (leNat bs + 1)) = .ok s2 →
    exec (.remotePayloadReceive job addr ⟨data, true⟩ remc) s = .next ((s2.fireWaiters part remc.toNat 2).emit (.ack true))) ∧
  (∀ job (addr : BitVec 56) (data : List Byte) s part g, s.partOf job = some part → 0 < data.length →
    addr.toNat % 65536 + data.length ≤ 65536 → s.xlat part addr.toNat { write := true } = .ok g → (s.part part).at 97 1 = 0 →
    exec (.remotePayloadReceive job addr ⟨data, true⟩ 0) s = .next ((s.physWrite g data).publish.emit (.ack true))) ∧
  (∀ job (addr remc : BitVec 56) data s part old s1, s.partOf job = some part → s.readG part 0 addr.toNat data.length = .ok old →
    s.writeG part addr.toNat (tornBytes s.free old data) = .ok s1 →
    exec (.remotePayloadReceive job addr ⟨data, false⟩ remc) s =
      .next (({ s1 with free := s1.free + data.length } : State).performed part 3)) ∧
  (∀ n (old new : List Byte) i, old.length = new.length → i < new.length → ∃ fresh : Bool, (tornBytes n old new)[i]? =
    (if fresh then new[i]? else old[i]?) ∧ ∀ k, k / 4 = i / 4 → k < new.length →
      (tornBytes n old new)[k]? = (if fresh then new[k]? else old[k]?)) ∧
  (∀ job peer (msg : BitVec 256) s part, s.partOf job = some part → registrationBad s part peer msg = false →
    part < s.parts.length → ∃ t, exec (.peerRegistration ⟨job, peer⟩ msg) s = .next t ∧ t.out = .ack true :: s.out ∧ t.mem = s.mem ∧
      (t.part part).peerRegs = (s.part part).peerRegs ++ [⟨BitVec.ofNat 56 (bitsOf msg 55 0),
        BitVec.ofNat 56 (bitsOf msg 119 64), BitVec.ofNat 16 (bitsOf msg 159 144)⟩]) ∧
  (∀ job peer (msg : BitVec 256) s, (∀ part, s.partOf job = some part → registrationBad s part peer msg = true) →
    exec (.peerRegistration ⟨job, peer⟩ msg) s = .next (s.emit (.ack false))) ∧
  (∀ s part peer (msg : BitVec 256), bitsOf msg 143 128 ≠ 1 ∨ bitsOf msg 255 160 ≠ 0 ∨ bitsOf msg 2 0 ≠ 0 ∨ bitsOf msg 63 56 ≠ 0 ∨
    bitsOf msg 66 64 ≠ 0 ∨ bitsOf msg 127 120 ≠ 0 ∨ 4096 ≤ (s.part part).peerRegs.length ∨
    (∀ r, s.controlRoute part (bitsOf msg 159 144) = some r → r.peer ≠ peer) ∨
    (∀ g, s.xlat part (bitsOf msg 55 0) { device := true } ≠ .ok g) → registrationBad s part peer msg = true) ∧
  (∀ job (mirror : BitVec 56) v s part s1, s.partOf job = some part → s.writeG part mirror.toNat (leBytes 8 v.toNat) = .ok s1 →
    exec (.peerWake job mirror v) s = .next (s1.fireWaiters part mirror.toNat 2)) ∧
  (∀ job (mirror : BitVec 56) v s part g, s.partOf job = some part → mirror.toNat % 8 = 0 →
    s.xlat part mirror.toNat { write := true } = .ok g → (s.part part).at 97 1 = 0 → (s.part part).peerRegs = [] →
    (∀ f ∈ s.vfs, f.waiters = []) → exec (.peerWake job mirror v) s = .next (s.physWrite g (leBytes 8 v.toNat))) ∧
  (∀ (s : State) p scope r, 2 ≤ scope → r < 16 → r < (s.part p).at 97 1 → ((p, r) ∈ (s.performed p scope).rung ↔
    (p, r) ∈ s.rung ∨ ∃ t, s.devNat p (s.ringHeader p r) 8 = some t ∧ BitVec.ofNat 64 t ≠ Sparse.get s.tails (16 * p + r))) ∧
  (∀ part ring s h, s.works = true → (s.part part).up = true → ring < (s.part part).at 97 1 → (part, ring) ∈ s.rung →
    s.devNat part (s.ringHeader part ring) 64 = some h → fld h 143 136 = 0 →
    let s1 : State := { s with rung := s.rung.filter fun x => x != (part, ring)
                               tails := Sparse.set s.tails (16 * part + ring) (BitVec.ofNat 64 (fld h 63 0)) }
    (fld h 135 128 ≤ 12 → fld h 511 144 = 0 → (fld h 63 0 + 2 ^ 64 - fld h 127 64) % 2 ^ 64 ≤ 2 ^ fld h 135 128 →
      exec (.collectiveDoorbell part ring) s =
        .next (takeCommands part ring (s.ringHeader part ring) (fld h 135 128) (2 ^ fld h 135 128) (fld h 63 0) s1)) ∧
    (2 ^ fld h 135 128 < (fld h 63 0 + 2 ^ 64 - fld h 127 64) % 2 ^ 64 →
      exec (.collectiveDoorbell part ring) s = .next (s1.devWrite part (s.ringHeader part ring + 17) [1]))) ∧
  (∀ part ring s h, (part, ring) ∉ s.rung ∨ (s.devNat part (s.ringHeader part ring) 64 = some h ∧ fld h 143 136 ≠ 0) →
    ∃ t, exec (.collectiveDoorbell part ring) s = .next t ∧ t.mem = s.mem ∧ t.colls = s.colls) ∧
  (∀ part ring hdr lcap fuel tail (s : State) head n, s.devNat part (hdr + 8) 8 = some head →
    (head = tail → takeCommands part ring hdr lcap (fuel + 1) tail s = s) ∧
    (head ≠ tail → s.devNat part (hdr + 64 + 64 * (head % 2 ^ lcap)) 64 = some n →
      takeCommands part ring hdr lcap (fuel + 1) tail s = takeCommands part ring hdr lcap fuel tail
        (takeCommand part ring (BitVec.ofNat 512 n) (s.devWrite part (hdr + 8) (leBytes 8 ((head + 1) % 2 ^ 64)))))) ∧
  (∀ part ring c (s : State) d, ccReject s part c = false → communicator s part (ccComm c) = some d → s.collEarly = [] →
    takeCommand part ring c s = { s with
      colls := s.colls ++ [⟨part, ring, c, collsTaken s part (ccComm c), d.rank, d.ranks, [], none, 0, false, none, [], none, false, s.moves.length⟩]
      collSeqs := Sparse.set s.collSeqs (64 * part + ccComm c) (BitVec.ofNat 64 (collsTaken s part (ccComm c) + 1)) }) ∧
  (∀ (F : Num.Fmt) a b x y p q, F = fp32 ∨ F = Num.bf16 → decodeF F a = .fin x p → decodeF F b = .fin y q →
    (p + q ≠ 0 → collNode 0 F a b = Num.roundRat F .rne (p + q)) ∧
    (p < q → (collNode 1 F a b).1 = a ∧ (collNode 1 F b a).1 = a ∧ (collNode 2 F a b).1 = b ∧ (collNode 2 F b a).1 = b)) ∧
  (∀ (F : Num.Fmt) a b, F = fp32 ∨ F = Num.bf16 → decodeF F a = .nan →
    (collNode 0 F a b).1 = canonNaN F ∧ (collNode 0 F b a).1 = canonNaN F ∧
    (decodeF F b ≠ .nan → (collNode 1 F a b).1 = b ∧ (collNode 2 F a b).1 = b)) ∧
  (∀ fuel lo n r k, 2 ^ k < n → n ≤ 2 ^ (k + 1) → n ≤ 4096 → treeChildren (fuel + 1) lo n r =
    if r < lo + 2 ^ k then treeChildren fuel lo (2 ^ k) r ++ (if r = lo then [lo + 2 ^ k] else [])
    else treeChildren fuel (lo + 2 ^ k) (n - 2 ^ k) r) ∧
  (∀ n r, 1 ≤ n → n ≤ 4096 → r < n → (treeParent 13 0 n r = none ↔ r = 0) ∧
    ∀ k, treeParent 13 0 n r = some k ↔ r ∈ treeChildren 13 0 n k) ∧
  (∀ (op : CollOp) x, op.fold [] x = some x ∧ (∀ r rs n k w vals fl, op.nodeFrom r = some (.node n k w vals fl) →
    op.fold (r :: rs) x = op.fold rs
      ((collNodes (ccOp op.cmd) (wireFmt (ccWire op.cmd)) x.1 vals).1,
      x.2 ||| fl ||| (collNodes (ccOp op.cmd) (wireFmt (ccWire op.cmd)) x.1 vals).2)) ∧
    ∀ rs, (∀ r ∈ rs, (op.nodeFrom r).isSome) → (op.fold rs x).isSome) ∧
  (∀ op F (a b : List Word) (i : Nat) (x y : Word), a[i]? = some x → b[i]? = some y →
    (collNodes op F a b).1[i]? = some (BitVec.ofNat 32 (collNode op F x.toNat y.toNat).1)) ∧
  (∀ wire (bs : List Byte) i, i < bs.length / 4 → (contribution wire bs).1[i]? = some (BitVec.ofNat 32
    (Num.convertF fp32 (if wire = 0 then fp32 else Num.bf16) .rne (leNat ((bs.drop (4 * i)).take 4))).1)) ∧
  (∀ i kind s op bs vals fl s1, kind ≤ 2 → s.colls[i]? = some op → ccOp op.cmd = kind → op.sent = false → op.outcome = none →
    s.collFirst i op = true → s.readG op.part 0 (ccSrc op.cmd) (4 * ccCount op.cmd) = .ok bs →
    op.fold op.children (contribution (ccWire op.cmd) bs) = some (vals, fl) →
    s.writeG op.part (((communicator s op.part (ccComm op.cmd)).map Comm.stage).getD 0)
      ((List.range (2 * ccCount op.cmd * wireBytes (ccWire op.cmd))).map fun j => Config.stageByte (s.free + j)) = .ok s1 →
    ∃ t op', exec (if kind = 0 then .collectiveSum i else if kind = 1 then .collectiveMin i else .collectiveMax i) s = .next t ∧
      t.colls = s1.colls.set i op' ∧ op'.value = some vals ∧ op'.sent = true ∧ op'.flags = fl ∧ t.mem = s1.mem ∧
      (op.rank = 0 → op'.root = some vals ∧ ∀ r < op.ranks, r ≠ 0 → ∃ via, .coll via (ccComm op.cmd) op.seq r (.root vals fl) ∈ t.out) ∧
      (op.rank ≠ 0 → ∃ via, t.out = .coll via (ccComm op.cmd) op.seq op.parent
        (.node (ccCount op.cmd) kind (ccWire op.cmd) vals fl) :: s1.out)) ∧
  (∀ i kind s op d g g2, kind ≤ 2 → s.colls[i]? = some op → ccOp op.cmd = kind → op.sent = false → op.outcome = none →
    s.collFirst i op = true → (∀ r ∈ op.children, (op.nodeFrom r).isSome) → communicator s op.part (ccComm op.cmd) = some d →
    let n := ccCount op.cmd
    0 < n → ccSrc op.cmd % 65536 + 4 * n ≤ 65536 → s.xlat op.part (ccSrc op.cmd) {} = .ok g → s.poisonedOn 0 g (4 * n) = false →
    d.stage % 65536 + 2 * n * wireBytes (ccWire op.cmd) ≤ 65536 → s.xlat op.part d.stage { write := true } = .ok g2 →
    ∃ t op', exec (if kind = 0 then .collectiveSum i else if kind = 1 then .collectiveMin i else .collectiveMax i) s = .next t ∧
      t.colls = s.colls.set i op' ∧ op'.sent = true ∧
      op'.value = (op.fold op.children (contribution (ccWire op.cmd) (s.physRead 0 g (4 * n)))).map Prod.fst ∧
      ∀ a, g2.covers (2 * n * wireBytes (ccWire op.cmd)) a ∨ t.mem.byte a = s.mem.byte a) ∧
  (∀ job comm s part seq i op vals fl, s.partOf job = some part → collAt s part comm seq = some i → s.colls[i]? = some op →
    op.outcome = none → op.rank ≠ 0 → ∃ t op' via, exec (.collectiveMessage job ⟨comm, seq⟩ 0 (.root vals fl)) s = .next t ∧
      t.colls = s.colls.set i op' ∧ op'.root = some vals ∧ op'.flags = fl ∧
      t.out = .coll via (ccComm op.cmd) op.seq 0 .ack :: s.out) ∧
  (∀ job comm s part seq rank i op n k w vals fl, s.partOf job = some part → collAt s part comm seq = some i →
    s.colls[i]? = some op → op.outcome = none →
    exec (.collectiveMessage job ⟨comm, seq⟩ rank (.node n k w vals fl)) s = .next
      (if n = ccCount op.cmd ∧ k = ccOp op.cmd ∧ w = ccWire op.cmd then
        s.setColl i { op with inbox := op.inbox ++ [(rank, .node n k w vals fl)] }
      else (s.sendAll op .mismatch).endColl i op 0x15)) ∧
  (∀ job comm s part seq rank i op r, s.partOf job = some part → collAt s part comm seq = some i → s.colls[i]? = some op →
    op.outcome = none → op.has 0 .commit = false → exec (.collectiveMessage job ⟨comm, seq⟩ rank (.failed r)) s =
      .next (s.endColl i { op with failed := r :: op.failed } 0x14)) ∧
  (∀ job comm s part seq rank msg, s.partOf job = some part → collAt s part comm seq = none →
    (collsTaken s part comm ≤ seq → comm < 64 → exec (.collectiveMessage job ⟨comm, seq⟩ rank msg) s =
      .next { s with collEarly := s.collEarly ++ [⟨part, comm, seq, rank, msg⟩] }) ∧
    (seq < collsTaken s part comm → exec (.collectiveMessage job ⟨comm, seq⟩ rank msg) s = .next s)) ∧
  (∀ (s : State) op m r, r < op.ranks → r ≠ op.rank →
    .coll (rankRoute s op.part (ccComm op.cmd) r) (ccComm op.cmd) op.seq r m ∈ (s.sendAll op m).out) ∧
  (∀ (s : State) part comm r d q sq, communicator s part comm = some d → s.devNat part (d.peers + 2 * r) 2 = some q →
    s.sendQueue part q = some sq → rankRoute s part comm r = some (State.routeOf sq)) ∧
  (∀ i s op vals s1, s.colls[i]? = some op → op.outcome = none → op.root = some vals → op.has 0 .commit = true →
    collPut s op vals = .ok s1 → exec (.collectiveCommit i) s = .next (s1.endColl i op 1)) ∧
  (∀ (s : State) op (vals : List Word) g, let bs := vals.flatMap fun v => leBytes (wireBytes (ccWire op.cmd)) v.toNat
    0 < vals.length → isWindow (ccDst op.cmd) = false → ccDst op.cmd % 4 = 0 → ccDst op.cmd % 65536 + bs.length ≤ 65536 → s.mem.wf = true →
    s.xlat op.part (ccDst op.cmd) { write := true } = .ok g → g.replicated = false → s.moves.drop op.since = [] →
    ∃ s1, collPut s op vals = .ok s1 ∧ (∀ j < bs.length, s1.mem.byte (g.pa + j) = bs.getD j 0) ∧
      (∀ a, a < g.pa ∨ g.pa + bs.length ≤ a → s1.mem.byte a = s.mem.byte a) ∧ s1.colls = s.colls ∧ s1.out = s.out) ∧
  (∀ (s : State) i op st g, isWindow (ccStamp op.cmd) = false → ccStamp op.cmd % 8 = 0 → ccRsc op.cmd < 2 →
    s.xlat op.part (ccStamp op.cmd) { write := true } = .ok g →
    s.endColl i op st = { s.physWrite g (leBytes 8 (s.collStamp op st)) with colls := s.colls.eraseIdx i, free := s.free + 1 } ∧
      s.collStamp op 1 = ccSeq op.cmd * 2 ^ 32 + 1 * 2 ^ 24 + op.flags.toNat * 2 ^ 16 + 0xFFFF) ∧
  (∀ i s op, s.colls[i]? = some op → op.outcome = none → op.root = none → exec (.collectiveCommit i) s = .next s) ∧
  (∀ i rank waited s op d, s.colls[i]? = some op → op.outcome = none → op.waitsFor rank = true → s.collFirst i op = true →
    communicator s op.part (ccComm op.cmd) = some d → d.timeout < waited →
    exec (.collectiveTimeout i ⟨rank, waited⟩) s =
      .next ((s.sendAll op (.failed rank)).endColl i { op with failed := rank :: op.failed } 0x14))

/-! ### The module -/

/-- R387, R388, R389, R391, R392, R393, R394, R396: a start makes a module operational or degraded, and each partition up
whose context holds, whose image verifies and which boots; a start at which a step fails, or a firmware image does not
verify, is counted, and three cold ones make the module failed; a warm start keeps what the training record and the spares
hold, and is cold where it must be or the record does not hold; a reset stops everything and starts again, and only
RECOVER leaves failed. That withdrawn pages make the module degraded at the start that withdraws them alone, and how
MEMGB is rounded, is log 26; that memory outlives a reset log 27; that a start event may say that
its start is still under way log 30; that each partition has one job identifier from its start log 40; that signatures are free values log 15. -/
def Obligations.Starts : Prop :=
  (∀ setup s, mayStart setup s = true → failsAt none setup = none → ∃ t, exec (.coldStart none setup) s = .next t ∧
    t.module.state = (if s.module.pagesDue = [] then .operational else .degraded) ∧ t.module.sf = 0 ∧ t.module.cf = 0 ∧
    t.module.retired = 0 ∧ t.module.tripped = false ∧ t.module.coldNext = false ∧
    t.module.svc = !s.module.pagesDue.isEmpty ∧ t.module.pagesDue = [] ∧
    (∀ p, p ∈ t.module.pagesOut ↔ p ∈ s.module.pagesOut ∨ p ∈ s.module.pagesDue) ∧
    t.module.record = some ⟨setup.trained, Config.recordSig setup.trained⟩ ∧
    t.module.firmware = setup.firmware.map Image.digest ∧ t.crews = [] ∧ t.grids = [] ∧ t.queues = [] ∧
    t.parts = partitionsOf setup.parts ∧ t.vfs = functionsOf setup.parts ∧
    (∀ k ∈ t.cores, k.withdrawn = false) ∧ (∀ k ∈ t.clusters, k.withdrawn = false ∧ k.spares = 0)) ∧
  (∀ setup s, mayStart setup s = true → failsAt none setup = none → mustBeCold s.module = false →
    recordHolds true s.module = true → ∃ t, exec (.warmStart none true setup) s = .next t ∧
    t.module.state = (if s.module.pagesDue = [] then .operational else .degraded) ∧ t.module.retired = s.module.retired ∧
    t.module.soft = s.module.soft ∧ t.module.record = s.module.record ∧ t.parts = partitionsOf setup.parts ∧
    t.clusters.map Cluster.spares = s.clusters.map Cluster.spares) ∧
  (∀ setup s n, mustBeCold s.module = true → exec (.warmStart n true setup) s = exec (.coldStart n setup) s) ∧
  (∀ setup s intact, failsAt none setup = none → recordHolds intact s.module = false →
    exec (.warmStart none intact setup) s = exec (.coldStart none setup) s) ∧
  (∀ (m : Module) intact, (recordHolds intact m = true ↔ intact = true ∧ ∃ r, m.record = some r ∧ r.sig = Config.recordSig r.digest) ∧
    mustBeCold m = (m.coldNext || decide (3 ≤ m.sf))) ∧
  (∀ setup (s : State), mayStart setup s = true ↔ s.module.state = .starting ∧ 1 ≤ setup.parts.length ∧ setup.parts.length ≤ 16) ∧
  (∀ setup, failsAt none setup = none ↔ setup.firmware.length = 8 ∧ ∀ i ∈ setup.firmware, imageOk none i = true) ∧
  (∀ owner i, imageOk owner i = true ↔
    (i.key = Config.agoicoKey ∨ owner = some i.key) ∧ Config.verifies i.key i.digest i.sig = true) ∧
  (∀ n setup s, mayStart setup s = true → failsAt none setup = none → 1 ≤ n → n ≤ 5 →
    exec (.coldStart (some n) setup) s = .next { s with
      module := { s.module with
        sf := min 15 (s.module.sf + 1)
        cf := min 15 (s.module.cf + 1)
        coldNext := false
        underWay := none
        record := if n ≤ 3 then s.module.record else some ⟨setup.trained, Config.recordSig setup.trained⟩
        state := if 3 ≤ min 15 (s.module.cf + 1) then .failed else .starting } }) ∧
  (∀ setup s, mayStart setup s = true → failsAt none setup ≠ none → ∃ t, exec (.coldStart none setup) s = .next t ∧
    t.module.sf = min 15 (s.module.sf + 1) ∧ t.module.cf = min 15 (s.module.cf + 1) ∧ t.parts = s.parts ∧
    (t.module.state = .starting ∨ t.module.state = .failed)) ∧
  (∀ n setup s, mayStart setup s = true → failsAt none setup = none → n = 1 ∨ n = 2 ∨ n = 5 → mustBeCold s.module = false →
    recordHolds true s.module = true → exec (.warmStart (some n) true setup) s = .next { s with
    module := { s.module with
      sf := min 15 (s.module.sf + 1)
      underWay := none
      state := if 3 ≤ s.module.cf then .failed else .starting } }) ∧
  (∀ n setup s, mayStart setup s = true → failsAt none setup = none → 6 < n →
    exec (.coldStart (some n) setup) s = .next { s with module := { s.module with underWay := some true } } ∧
    (mustBeCold s.module = false → recordHolds true s.module = true →
      exec (.warmStart (some n) true setup) s = .next { s with module := { s.module with underWay := some false } })) ∧
  (∀ s, s.module.state = .starting →
    (s.module.underWay = some true ∨ (s.module.underWay = none ∧ (mustBeCold s.module = true ∨ s.module.record = none)) →
      exec .startTimeout s = .next { s with module := { s.module with
        sf := min 15 (s.module.sf + 1)
        cf := min 15 (s.module.cf + 1)
        coldNext := false
        underWay := none
        state := if 3 ≤ min 15 (s.module.cf + 1) then .failed else .starting } }) ∧
    (s.module.underWay = some false ∨ (s.module.underWay = none ∧ mustBeCold s.module = false ∧ s.module.record ≠ none) →
      exec .startTimeout s = .next { s with module := { s.module with
        sf := min 15 (s.module.sf + 1)
        underWay := none
        state := if 3 ≤ s.module.cf then .failed else .starting } })) ∧
  (∀ s, s.module.state ≠ .failed → ∃ t, exec .reset s = .next t ∧ t.module = { s.module with state := .starting, svc := false, underWay := none } ∧
    t.crews = [] ∧ t.grids = [] ∧ t.copies = [] ∧ t.parts = [] ∧ t.queues = [] ∧ t.mem = s.mem ∧ t.tiers = s.tiers ∧
    ∀ k ∈ t.cores, k.slots = List.replicate 8 none) ∧
  (∀ s, s.module.state = .failed → exec .reset s = .next s ∧
    exec .recover s = .next { s with module := { s.module with state := .starting, coldNext := true, underWay := none } }) ∧
  (∀ (parts : List PartSetup) (p : Nat) (x : PartSetup), parts[p]? = some x →
    (partitionsOf parts)[p]? = some ⟨x.ctx, !rejects parts p x && imageOk x.owner x.image && x.boots, [], [], 0, x.job,
      x.image.digest, x.owner⟩) ∧
  (∀ (parts : List PartSetup) (p q : Nat) (x y : PartSetup), parts[p]? = some x → parts[q]? = some y →
    (bitsOf x.ctx 127 64 = 0 → rejects parts p x = true) ∧
    (p ≠ q → bitsOf x.ctx 127 64 &&& bitsOf y.ctx 127 64 ≠ 0 → rejects parts p x = true) ∧
    ((∀ i ≤ 32, bitsOf x.ctx 223 192 ≠ 2 ^ i) → rejects parts p x = true)) ∧
  (∀ (parts : List PartSetup) (p v : Nat) (x : PartSetup) qs, v < 256 → parts[p]? = some x → (v, qs) ∈ x.vfs →
    (∀ (r : Nat) (y : PartSetup) qs', parts[r]? = some y → (v, qs') ∈ y.vfs → r = p ∧ qs' = qs) →
    (functionsOf parts)[v]? = some ⟨v, some p, [], false, qs.take 1024⟩)

/-- R21, R395, R396, R397, R400: soft errors are counted in ascending address, the ninth in a window and the third at an
address retire their unit; the module is degraded when a core or a cluster is withdrawn; a core that no crew is left
on is withdrawn and retired, an L2 slice takes 2 MiB once, a Scribe walker is passed over, a memory block's page is
withdrawn at the next start; an uncorrectable error poisons its block, or removes its grid; the clock steps down and
up, and a trip stops the module. How far the clock steps is log 31; when the cycle of a unit outside the cores ends
is log 40. -/
def Obligations.ErrorEvents : Prop :=
  (∀ unit addr counter s, (countSoft s.module.counts unit addr counter).2 = false →
    exec (.softErrorCorrected unit [addr] counter) s = .next { s with module := { s.module with
      soft := s.module.soft + 1
      counts := (countSoft s.module.counts unit addr counter).1 } }) ∧
  (∀ unit (a b : Nat) counter s, a ≤ b → exec (.softErrorCorrected unit [b, a] counter) s = exec (.softErrorCorrected unit [a, b] counter) s) ∧
  (∀ unit (a b : Nat) counter s, a ≤ b → (countSoft s.module.counts unit a counter).2 = false →
    exec (.softErrorCorrected unit [a, b] counter) s = exec (.softErrorCorrected unit [b] counter) { s with module := { s.module with
      soft := s.module.soft + 1
      counts := (countSoft s.module.counts unit a counter).1 } }) ∧
  (∀ unit addr counter s, (countSoft s.module.counts unit addr counter).2 = true →
    exec (.softErrorCorrected unit [addr] counter) s = .next (retireAtEnd unit { s with module := { s.module with
      soft := s.module.soft + 1
      counts := (countSoft s.module.counts unit addr counter).1 } })) ∧
  (∀ pa addr counter s, (countSoft s.module.counts (.memoryBlock pa) addr counter).2 = true →
    pa / 65536 ∉ s.module.pagesDue → pa / 65536 ∉ s.module.pagesOut →
    ∃ t, exec (.softErrorCorrected (.memoryBlock pa) [addr] counter) s = .next t ∧
      t.module.pagesDue = pa / 65536 :: s.module.pagesDue ∧ t.module.retired = s.module.retired + 1 ∧ t.module.svc = true ∧
      t.module.state = (if s.module.state = .operational then .degraded else s.module.state)) ∧
  (∀ (cs : List SoftCount) unit addr counter c, cs.find? (fun c => c.unit == unit && c.window == counter / 2 ^ 30) = some c →
    ((countSoft cs unit addr counter).2 = true ↔ c.count = 8 ∨ c.addrs.count addr = 2) ∧
    ∃ d ∈ (countSoft cs unit addr counter).1, d = ⟨unit, counter / 2 ^ 30, c.count + 1, addr :: c.addrs⟩) ∧
  (∀ (cs : List SoftCount) unit addr counter, cs.find? (fun c => c.unit == unit && c.window == counter / 2 ^ 30) = none →
    (countSoft cs unit addr counter).2 = false ∧ ⟨unit, counter / 2 ^ 30, 1, [addr]⟩ ∈ (countSoft cs unit addr counter).1) ∧
  (∀ c part s K, s.cores[c]? = some K → K.lastSlot = none → K.withdrawn = false → K.retired = false →
    (∀ cr ∈ s.crews, cr.onCore = true → cr.core ≠ c) → ∃ t, exec (.uncorrectableError ⟨.core c part, .other⟩) s = .next t ∧
      t.cores = s.cores.set c { K with withdrawn := true, retired := true } ∧ t.crews = s.crews ∧ t.mem = s.mem ∧
      t.module.retired = s.module.retired + 1 ∧ t.module.svc = true ∧
      t.module.state = (if s.module.state = .operational then .degraded else s.module.state)) ∧
  (∀ c s K, s.cores[c]? = some K → K.withdrawn = false → withdrawCore c s = retireCore c (forcePreempt
      (enterDegraded { s with cores := s.cores.set c { K with withdrawn := true } }) (crewsOn s fun x => x == c))) ∧
  (∀ k s K, s.clusters[k]? = some K → K.withdrawn = false → withdrawCluster k s = retireCluster k (forcePreempt
      (enterDegraded { s with clusters := s.clusters.set k { K with withdrawn := true } }) (crewsOn s fun x => clusterOf x == k))) ∧
  (∀ s, (enterDegraded s).module = { s.module with
      svc := true, state := if s.module.state = .operational then .degraded else s.module.state }) ∧
  (∀ c part s K, s.cores[c]? = some K → K.lastSlot ≠ none → exec (.uncorrectableError ⟨.core c part, .other⟩) s =
    .next { s with retiring := s.retiring ++ [.core c part] }) ∧
  (∀ d i s, exec (.uncorrectableError ⟨.l2Slice d i, .other⟩) s = .next
    (if (d, i) ∈ s.module.slicesOut then s
      else degrade { s with module := { s.module with
        l2MB := s.module.l2MB - 2, slicesOut := (d, i) :: s.module.slicesOut } })) ∧
  (∀ d s, exec (.uncorrectableError ⟨.scribe d, .other⟩) s = .next
    (if d ∈ s.module.scribesOut then s
      else degrade { s with module := { s.module with scribesOut := d :: s.module.scribesOut } })) ∧
  (∀ unit pa s, unit = .memoryBlock pa ∨ (∃ d i, unit = .l2Slice d i) →
    ∃ t, exec (.uncorrectableError ⟨unit, .memory pa⟩) s = .next t ∧ pa / 64 ∈ t.poison ∧
    (∀ b ∈ s.poison, b ∈ t.poison) ∧ (∀ b ∈ t.poison, b = pa / 64 ∨ b ∈ s.poison) ∧ t.mem = s.mem ∧ t.crews = s.crews) ∧
  (∀ unit ci s cr, s.crews[ci]? = some cr →
    exec (.uncorrectableError ⟨unit, .crewState ci⟩) s = .next
      (if holdsState cr unit = true then retireAtEnd unit (s.removeGrid cr.grid) else s)) ∧
  (∀ (cr : Crew) c k part part', cr.onCore = true → cr.core = c → clusterOf c = k →
    holdsState cr (.core c part) = true ∧ holdsState cr (.cluster k part') = true ∧ holdsState cr (.matrixCell k) = true) ∧
  (∀ s, 1 ≤ s.module.clock → s.module.clock ≤ 16 → exec .powerThermalThrottle s = .next { s with
      module := { s.module with clock := if s.module.clock = 1 then 1 else s.module.clock - 1 } } ∧
    exec .clockRestore s = .next { s with
      module := { s.module with clock := if s.module.clock = 16 then 16 else s.module.clock + 1 } }) ∧
  (∀ s, ∃ t, exec .thermalTrip s = .next t ∧ t.crews = [] ∧ t.works = false ∧ t.module.tripped = true ∧
    t.module.underWay = none ∧ t.module.coldNext = true ∧ mustBeCold t.module = true ∧ t.mem = s.mem)

/-- R385, R399, R398: once nothing of a request runs, a checkpoint holds the memory and the descriptors of its partition
with its crews and their grids' bindings (R246), and a restore brings them back (of a checkpoint of every partition,
the memory of the dies); a collective that stands then completes with FAILED here and at the other ranks; a report
carries the nonce, the digests of the images that run and the health of the module, and the health record shows
which cores are in service. What the signature and the identity are is log 15; that a restored crew comes back
beside the crews that the device has is log 40; which memory is a partition's is log 28. -/
def Obligations.Checkpoints : Prop :=
  (∀ part tier s, quiet s part = true → ∃ t c, exec (.checkpoint part tier) s = .next t ∧ t.tiers.head? = some c ∧
    c.tier = tier ∧ c.part = part ∧ c.mem = s.mem.filter (fun x => coversMem part x.1) ∧
    c.desc = s.desc.filter (fun x => coversMem part (64 * x.1)) ∧ c.crews = s.crews ∧ c.gangs = s.gangs ∧ c.grids = s.grids ∧
    c.bindings = s.parts.map Partition.bindings ∧
    t.mem = s.mem ∧ t.codeMem = s.mem ∧ t.crews = s.crews ∧ (∀ x ∈ s.tiers, x.tier ≠ tier → x ∈ t.tiers)) ∧
  (∀ part tier s op, coveredCrews s part = [] → s.colls = [op] → covers part op.part = true → op.outcome = none →
    exec (.checkpoint part tier) s = .next ((s.sendAll op (.failed op.rank)).endColl 0 { op with failed := [op.rank] } 0x14)) ∧
  (∀ part tier s c, s.tiers.find? (fun t => t.tier == tier && t.part == part) = some c → quiet s part = true →
    s.mem.wf = true → c.mem.wf = true →
    ∃ t, exec (.checkpointRestore part tier) s = .next t ∧ t.mem.wf = true ∧
      (∀ a, t.mem.byte a = if coversMem part a then c.mem.byte a else s.mem.byte a) ∧
      t.crews.length = s.crews.length + c.crews.length ∧
      (∀ p P, t.parts[p]? = some P → covers c.part p = true → P.bindings = (c.bindings.getD p []).map fun b =>
        { b with grid := b.grid + s.grids.length }) ∧
      ∀ (ci : Nat) cr, c.crews[ci]? = some cr → covers c.part cr.part = true → t.crews[s.crews.length + ci]? = some { cr with
        grid := cr.grid + s.grids.length
        gang := cr.gang + s.gangs.length }) ∧
  (∀ nonce s vf imgs, reportImages s vf = some imgs → exec (.attestationRequest vf nonce) s = .next { s with
    out := .report nonce imgs Config.fuseIdentity (BitVec.ofNat 32 (healthWord s.module))
      (Config.signature nonce.toNat (healthWord s.module :: imgs.map BitVec.toNat)) :: s.out }) ∧
  (∀ nonce s, exec (.attestationRequest none nonce) s = .next { s with
    out := .report nonce (s.module.firmware ++ s.parts.map Partition.image) Config.fuseIdentity
      (BitVec.ofNat 32 (healthWord s.module)) (Config.signature nonce.toNat
        (healthWord s.module :: (s.module.firmware ++ s.parts.map Partition.image).map BitVec.toNat)) :: s.out }) ∧
  (∀ s v i f p, vfOf s v = some (i, f) → (f.part = some p → reportImages s (some v) = some (s.module.firmware ++ [(s.part p).image])) ∧
    (f.part = none → reportImages s (some v) = none)) ∧
  (∀ (m : Module), m.sf < 16 → m.cf < 16 → fld (healthWord m) 7 0 = m.state.code ∧ fld (healthWord m) 11 8 = m.sf ∧
    fld (healthWord m) 15 12 = m.cf ∧ fld (healthWord m) 16 16 = if m.svc then 1 else 0) ∧
  (∀ s : State, s.cores.length = 256 → s.clusters.length = 64 → (healthRecord s).length = 128 ∧
    ∀ c < 256, (leNat (((healthRecord s).drop 4).take 32)).testBit c =
      !((s.core c).withdrawn || (s.cluster (c / 4)).withdrawn))

/-! ### The machine as a whole -/

/-- A turn at a slot moves to the slot, fetches the word at its group's address, and executes the instruction that the
word decodes to, or the fate of a word that is none; every other turn of the agenda is taken as it stands, and with no
agenda the model takes its own turn (log 2). R29: what would be the 25th word of a run is not fetched. R61, R191: the
descriptors of a page that a turn makes typed are zero after it. (That a restored checkpoint's descriptors come with its
page tables is log 26.) -/
def Obligations.StepRunsDecodedWord : Prop :=
  (∀ core slot r (s : State) s1 c w i, s.agenda = .word core slot :: r → s.works = true →
    atSlot core slot { s with agenda := r } = s1 → s1.ctx? = some c → c.g.count < 24 → fetchWord s1 c = .ok w →
    decode (BitVec.ofNat 32 w) = some i → step s = typedOut { s with agenda := r } (exec i (fetched c s1))) ∧
  (∀ core slot r (s : State) s1 c w, s.agenda = .word core slot :: r → s.works = true →
    atSlot core slot { s with agenda := r } = s1 → s1.ctx? = some c → c.g.count < 24 → fetchWord s1 c = .ok w →
    decode (BitVec.ofNat 32 w) = none →
    step s = typedOut { s with agenda := r } (exec (.unassignedWord (BitVec.ofNat 32 w)) (fetched c s1))) ∧
  (∀ core slot r (s : State) s1 c, s.agenda = .word core slot :: r → s.works = true →
    atSlot core slot { s with agenda := r } = s1 → s1.ctx? = some c → 24 ≤ c.g.count →
    step s = typedOut { s with agenda := r } (.next (trapAll c .illegalInstruction c.addr s1))) ∧
  -- pages that a turn makes typed, whoever wrote the tables, have no descriptor after it; nothing else follows a turn
  (∀ (b t : State) r, typedOut b (.next t) = .next (b.freshTyped t) ∧ (∀ f, typedOut b (.fault f) = .fault f) ∧
    (typedOut b r = .next t → ∃ t', r = .next t' ∧ t = { t' with desc := t.desc } ∧ (∀ x, x ∈ t.desc ↔
      x ∈ t'.desc ∧ (x.1 / 1024 ∈ b.typedNow ∨ x.1 / 1024 ∉ t'.typedNow)))) ∧
  (∀ (b t : State), t.desc = [] → typedOut b (.next t) = .next t) ∧
  (∀ (b t : State), b.typedNow = t.typedNow → typedOut b (.next t) = .next t) ∧
  (∀ core slot (s : State), (s.core core).lastSlot = none → atSlot core slot s = { s with
    cur := (core, slot)
    cores := s.cores.modify core fun k => { k with lastSlot := some slot } }) ∧
  (∀ c s, (s.core c.core).faults = [] → fetched c s = s) ∧
  (∀ i r (s : State), s.agenda = .event i :: r → i.isWord = false → (∀ w, i ≠ .unassignedWord w) →
    ((∀ p t, i ≠ .checkpointRestore p t) → step s = typedOut { s with agenda := r } (exec i { s with agenda := r })) ∧
    ((∃ p t, i = .checkpointRestore p t) → step s = exec i { s with agenda := r })) ∧
  (∀ core r (s : State), s.agenda = .endCycle core :: r → s.works = true →
    step s = typedOut { s with agenda := r } (.next (endCycle core { s with agenda := r }))) ∧
  (∀ (s : State) t, s.agenda = [] → ownTurn s = some t → step s = step { s with agenda := [t] }) ∧
  (∀ (s : State), s.agenda = [] → ownTurn s = none → step s = .next s) ∧
  (∀ nbits w (s : State), ∃ t : State, s.withFetchWord nbits w = t ∧ t.agenda = .word 0 0 :: s.agenda ∧
    t.parts.drop 1 = s.parts.drop 1 ∧ t.queues = s.queues ∧ t.out = s.out)

/-- R82, R188: outside the windows, the word that executes is the four bytes, lowest first, at the address that the page
tables map the group's address to, in the memory that the crew's launch fetches: as a release at .sys had left it when
the launch was placed (log 38). A store of running code changes nothing of it, nor does a release. -/
def Obligations.FetchReadsMemory : Prop :=
  (∀ s c g, isWindow c.addr.toNat = false → s.fillFor c.ci (c.place c.lead) c.addr.toNat false = none →
    s.xlat c.cr.part c.addr.toNat { fetch := true } = .ok g → s.poisonedOn (dieOf c.core) g 4 = false →
    fetchWord s c = .ok (leNat (s.codeRead c.ci (dieOf c.core) g 4))) ∧
  (∀ (s : State) ci (cr : Crew) (gr : Grid), s.crews[ci]? = some cr → s.grids[cr.grid]? = some gr →
    (∀ d (g : Page) n, g.replicated = false → s.codeRead ci d g n = gr.code.read g.pa n) ∧
    (∀ pa bs d (g : Page) n, (s.physStore pa bs).codeRead ci d g n = s.codeRead ci d g n) ∧
    (∀ d (g : Page) n, s.publish.codeRead ci d g n = s.codeRead ci d g n)) ∧
  (∀ (s : State) pa bs, (s.physStore pa bs).codeMem = s.codeMem ∧ s.publish.codeMem = s.mem) ∧
  (∀ (s : State) gi (gr : Grid), s.grids[gi]? = some gr → (∀ k ∈ s.gangs, k.grid = gi → k.started = false) →
    (s.fixCode gi).grids[gi]? = some { gr with code := s.codeMem }) ∧
  (∀ b0 b1 b2 b3 : Byte, BitVec.ofNat 32 (leNat [b0, b1, b2, b3]) = b3 ++ b2 ++ b1 ++ b0) ∧
  (∀ s c, isWindow c.addr.toNat = true → fetchWord s c = .trap (.fault causeWindow) c.addr.toNat)

/-- R98, R99, R95, R31: a word that is no instruction, and a word that meets a condition on its operands, traps in every
active lane at the first word of its bundle and ends the run; a word that waits for a register changes nothing. -/
def Obligations.WordTraps : Prop :=
  (∀ i s c tr, i.isWord = true → i.isHint = false → s.ctx? = some c → wordTrap i.info c = some tr →
    exec i s = .next (trapAll c tr c.start s)) ∧
  (∀ i s c, i.isWord = true → i.isHint = false → s.ctx? = some c → wordTrap i.info c = none → stalls i.info s c = true →
    exec i s = .next s) ∧
  (∀ (w : Word) s c, s.ctx? = some c → w.extractLsb' 25 6 ≠ 0x26#6 → w.extractLsb' 25 6 ≠ 0x3F#6 →
    exec (.unassignedWord w) s = .next (trapAll c .illegalInstruction c.start s)) ∧
  (∀ (w : Word) s c, s.ctx? = some c → w.extractLsb' 25 6 = 0x3F#6 →
    exec (.unassignedWord w) s = .next (trapAll c .illegalInstruction c.addr s)) ∧
  (∀ (w : Word) s c, s.ctx? = some c → w.extractLsb' 25 6 = 0x26#6 → w.getLsbD 15 = true → w.getLsbD 24 = false →
    c.g.count < 24 → exec (.unassignedWord w) s = .next (trapAll c .illegalOperand c.start s)) ∧
  (∀ c tr pc (s : State), trapAll c tr pc s = { s with
    crews := s.crews.modify c.ci fun cr => { cr with
      lanes := cr.lanes.mapIdx fun p l =>
        match c.laneOf p with
        | some t => if c.takesPart t then l.updThread fun th => th.takeTrap tr 0 pc else l
        | none => l }
    cores := s.cores.modify c.core fun k => { k with slots := k.slots.set c.slot none } }) ∧
  (∀ (th : Thread) (tr : Trap) a pc, th.takeTrap tr a pc = { th with
    pc := pc
    region := none
    pendWait := none
    held := []
    trap := some ⟨tr.code, tr.cause, th.trap.isSome, true, a⟩
    run := .trapping })

/-- Words that the spec writes out beside their assembly, some of each family, decode to the instructions that they stand
for. R98: the word zero, every word of the major opcodes 0x00, 0x0B-0x0F, 0x1C-0x1F, 0x22 and 0x23, and every hint with K
1 and SUB 6-15 decode to nothing. -/
def Obligations.DecodeSamples : Prop :=
  (∀ p ∈ [((0x020C1080 : Word), Instr.iadd false false 3 1 2), (0x8230C2C0, .iadd true false 12 12 11),
      (0x04102F4F, .shl64 false false 4 2 61), (0x0C28A100, .lea false false 10 10 256),
      (0x0E043102, .icmp false 1 3 4 0 2), (0x12182003, .bffsIdx false false 6 2),
      (0x14207000, .qxchX false false 8 7), (0x7A082F41, .uadd false 2 2 61),
      (0xA2202106, .ffmaF64 true false 8 2 4 6), (0xAC282103, .fminF64 true false 10 2 4),
      (0x340C61C2, .fcmp false 3 6 7 0 2), (0x36103020, .cvt false false 4 3 4 0),
      (0x400BD040, .dseedF32 false false 2 61 1), (0x480410A0, .pcmp false 1 1 2 1 0 0),
      (0x4A0C1081, .pand false 3 1 2), (0x4E247203, .psel false false 9 7 8 0 3),
      (0x5420A0C0, .ldt false 8 10 3 0 0), (0x5408AF70, .stt false 2 10 61 1 0), (0x58102F20, .lds false 4 2 60 4),
      (0xDE002180, .tset true 2 6), (0x5E202002, .tstat false false 8 2), (0x6010A19E, .atom false 4 10 6 1 7 0),
      (0x6020AF2C, .atom false 8 10 60 2 6 0), (0x6400A301, .rel false 10 12), (0x64000002, .fence false),
      (0xE614A104, .mwait 5 10 4 1 0 0), (0xE803C0C2, .barSyn 60 3), (0xEDFFFFFD, .bra (-3)),
      (0xF0240003, .brq 1 1 3), (0xF2000003, .ret), (0x72080006, .join false 2), (0x72000C49, .region false 3 1),
      (0xF200000A, .exit), (0xF4008000, .xq 8), (0x760400C4, .electU false 1 3), (0xF6284142, .accsv 10 4 5),
      (0xF8102F00, .trace 4 2 60), (0xF8002006, .reproj 2), (0xFC20E050, .fetchw 8 14 1),
      (0xFC1020D1, .launch 4 2 3), (0xFC000140, .trap 5), (0xFC000001, .eret), (0x7C18E002, .gets false 6 14),
      (0x7C27D003, .sets false 9 61), (0x7E000003, .himm 3), (0x7F300002, .hscp 2)],
    decode p.1 = some p.2) ∧
  (∀ w : Word, (w.extractLsb' 25 6).toNat ∈ [0x00, 0x0B, 0x0C, 0x0D, 0x0E, 0x0F, 0x1C, 0x1D, 0x1E, 0x1F, 0x22, 0x23] →
    decode w = none) ∧
  (∀ w : Word, w.extractLsb' 25 6 = 0x3F#6 → w.getLsbD 24 = true → 6 ≤ (w.extractLsb' 20 4).toNat → decode w = none) ∧
  (decode 0 = none)

/-- Decoding the word of a well-formed instruction gives the instruction back, whatever its operands, from the word, from
its four bytes in memory order with whatever bytes follow, and from the opcode table's numbering of its bits. -/
def Obligations.DecodeEncode : Prop :=
  ∀ i : Instr, i.wf = true → ∃ w, encode i = some w ∧ decode w = some i ∧ decodeTableWord 32 w.toNat = some i ∧
    ∀ rest : List Byte, decodeBytes (leBytes 4 w.toNat ++ rest) = some (i, rest)

/-- Every word has one meaning: the instruction that it decodes to has that word and no other. -/
def Obligations.EncodeDecode : Prop :=
  (∀ (w : Word) i, decode w = some i → i.isWord = true ∧ encode i = some w) ∧
  (∀ i : Instr, i.isWord = false → encode i = none)

/-- Every step, of every word and every event, keeps memory and the block descriptors in their canonical form: places
rising, and none listed at what an unlisted place reads as. -/
def Obligations.StepKeepsMemoryForm : Prop :=
  ∀ s t : State, s.formed → step s = .next t → t.formed

/-- R49, R50: the value of an encoding, of each of the five formats. R55, R58, R59: a nonzero number rounded once to a
format: within the format's range it goes to the nearest value in the mode's sense, a tie to the even significand, and is
inexact where that changes it; beyond the range it overflows as the mode says, E4M3 saturating. R52: the canonical NaN.
R59: a number rounded to an integer in the mode, and the integer clamped to its type. -/
def Obligations.RoundingLaws : Prop :=
  (∀ F ∈ [fp64, fp32, Num.fp16, Num.bf16, Num.e4m3], ∀ (s : Bool) (e m : Nat), e < 2 ^ F.ew → m < 2 ^ F.fw →
    let w := (if s then 2 ^ (F.ew + F.fw) else 0) + e * 2 ^ F.fw + m
    let signed (q : Rat) : XR := .fin s (if s then -q else q)
    (e = 0 → decodeF F w = signed (m * (2 : Rat) ^ (1 - (F.bias : Int) - F.fw))) ∧
    (0 < e → e < 2 ^ F.ew - 1 ∨ (F.hasInf = false ∧ m ≠ 2 ^ F.fw - 1) →
      decodeF F w = signed ((2 ^ F.fw + m) * (2 : Rat) ^ ((e : Int) - F.bias - F.fw))) ∧
    (e = 2 ^ F.ew - 1 → F.hasInf = true → decodeF F w = if m = 0 then .inf s else .nan) ∧
    (e = 2 ^ F.ew - 1 → F.hasInf = false → m = 2 ^ F.fw - 1 → decodeF F w = .nan) ∧
    (isSNaN F w = true ↔ decodeF F w = .nan ∧ F.hasInf = true ∧ m < 2 ^ (F.fw - 1))) ∧
  (∀ F ∈ [fp64, fp32, Num.fp16, Num.bf16, Num.e4m3], ∀ (mode : Num.Mode) (q : Rat), q ≠ 0 →
    let r := Num.roundRat F mode q
    let top := Num.maxFinite F
    let ulp := top - (decodeF F (Num.maxEnc F false - 1)).rat
    let beyond : Prop := match mode with
      | .rne => top + ulp / 2 < |q| ∨ (F.hasInf = true ∧ |q| = top + ulp / 2)
      | .rz => top + ulp ≤ |q|
      | .ru => if 0 < q then top < |q| else top + ulp ≤ |q|
      | .rd => if 0 < q then top + ulp ≤ |q| else top < |q|
    let up : Bool := match mode with
      | .rne => true
      | .rz => false
      | .ru => decide (0 < q)
      | .rd => decide (q < 0)
    (beyond → r = if F.hasInf then
        (if up then Num.infEnc F (decide (q < 0)) else Num.maxEnc F (decide (q < 0)), { ovf := true, inx := true })
      else (Num.maxEnc F (decide (q < 0)), { ovf := true, inx := true, sat := true })) ∧
    (¬ beyond → ∃ v, decodeF F r.1 = .fin (decide (q < 0)) v ∧ r.2 = { inx := decide (v ≠ q), unf := r.2.unf } ∧
      (r.2.unf = true → v ≠ q ∧ |q| < Num.minNormal F) ∧
      (v ≠ q → v ≠ 0 → |v| < Num.minNormal F → r.2.unf = true) ∧
      ∀ w n u, decodeF F w = .fin n u →
        (mode = .rd ∨ (mode = .rz ∧ 0 < q) → v ≤ q ∧ (u ≤ q → u ≤ v)) ∧
        (mode = .ru ∨ (mode = .rz ∧ q < 0) → q ≤ v ∧ (q ≤ u → v ≤ u)) ∧
        (mode = .rne → |q - v| ≤ |q - u| ∧ (u ≠ v → |q - v| = |q - u| → r.1 % 2 = 0)))) ∧
  (∀ (F : Num.Fmt) (mode : Num.Mode), roundX F mode .nan = (canonNaN F, {}) ∧
    (∀ n, F.hasInf = true → roundX F mode (.inf n) = (Num.infEnc F n, {})) ∧
    (∀ n, F.hasInf = false → roundX F mode (.inf n) = (Num.maxEnc F n, { sat := true })) ∧
    (∀ n, roundX F mode (.fin n 0) = (Num.signBit F n, {})) ∧
    ∀ n q, q ≠ 0 → roundX F mode (.fin n q) = Num.roundRat F mode q) ∧
  ([0, 1, 2, 3].map Num.Mode.ofCode = [.rne, .rz, .ru, .rd]) ∧
  (canonNaN fp64 = 0x7FF8000000000000 ∧ canonNaN fp32 = 0x7FC00000 ∧ canonNaN Num.fp16 = 0x7E00 ∧
    canonNaN Num.bf16 = 0x7FC0 ∧ canonNaN Num.e4m3 = 0x7F) ∧
  (∀ q : Rat, Num.roundInt .rd q = ⌊q⌋ ∧ Num.roundInt .ru q = ⌈q⌉ ∧
    Num.roundInt .rz q = (if 0 ≤ q then ⌊q⌋ else ⌈q⌉) ∧ |q - Num.roundInt .rne q| ≤ 1 / 2 ∧
    (|q - Num.roundInt .rne q| = 1 / 2 → Num.roundInt .rne q % 2 = 0)) ∧
  (∀ (t : Num.ITy) (mode : Num.Mode), 0 < t.w →
    let lo : Int := if t.signed then -2 ^ (t.w - 1) else 0
    let hi : Int := if t.signed then 2 ^ (t.w - 1) - 1 else 2 ^ t.w - 1
    (∀ n q, let i := Num.roundInt mode q
      t.val (toInteger t mode (.fin n q)).1 = max lo (min hi i) ∧
      (lo ≤ i → i ≤ hi → (toInteger t mode (.fin n q)).2 = { inx := decide ((i : Rat) ≠ q) }) ∧
      (i < lo ∨ hi < i → (toInteger t mode (.fin n q)).2 = { sat := true, inv := true })) ∧
    (∀ n, t.val (toInteger t mode (.inf n)).1 = (if n then lo else hi) ∧
      (toInteger t mode (.inf n)).2 = { sat := true, inv := true }) ∧
    toInteger t mode .nan = (0, { inv := true })) ∧
  (∀ (n : Bool) (q : Rat), (Num.q15 (.fin n q) : Int) = max 0 (min 0x8000 (Num.roundInt .rne (q * 32768))) ∧
    Num.q15 .nan = 0 ∧ Num.q15 (.inf false) = 0x8000 ∧ Num.q15 (.inf true) = 0)

/-- Reset memory has the canonical form. R391, R21: after reset the module is starting, its clock at the last of its 16
steps (log 31) and the device complete; nothing is placed, and no step is taken until an event comes (logs 2, 32). -/
def Obligations.ResetState : Prop :=
  (State.reset.formed) ∧
  (State.reset.module.state = .starting ∧ State.reset.module.clock = 16 ∧ State.reset.module.l2MB = 512 ∧
    State.reset.module.memGB = 576 ∧ State.reset.works = false ∧ State.reset.crews = [] ∧ State.reset.parts = [] ∧
    State.reset.cores.length = 256 ∧ State.reset.clusters.length = 64 ∧ State.reset.vfs.length = 256 ∧
    (∀ k ∈ State.reset.cores, k.slots = List.replicate 8 none ∧ k.withdrawn = false) ∧
    (∀ a, State.reset.mem.byte a = 0) ∧ step State.reset = .next State.reset)

/-- A word that works in its lanes alone, whatever becomes of it, leaves every byte of memory, every block descriptor,
every other crew and every other core as they were. -/
def Obligations.LaneWordsKeepMemory : Prop :=
  ∀ i s t c, i.inLanes = true → s.ctx? = some c → exec i s = .next t →
    t.mem = s.mem ∧ t.desc = s.desc ∧ t.poison = s.poison ∧ t.monitors = s.monitors ∧ t.arrivals = s.arrivals ∧
    sameDevice s t ∧ (∀ ci, ci ≠ c.ci → t.crews[ci]? = s.crews[ci]?) ∧
    (∀ k, k ≠ c.core → t.cores[k]? = s.cores[k]?) ∧ ∀ a, t.mem.byte a = s.mem.byte a

/-- R87, R101, R141: a word that works in its lanes and has a V result leaves, in every lane, every Q register, the
stream but for a draw, and every V register but its destination as they were, whatever becomes of the word; with N, or
where its lane does not execute, every V register. R146: a word with a Q result leaves every V register and every Q
register but its destination; where its lane does not execute, all. Other crews, other cores and memory:
LaneWordsKeepMemory. -/
def Obligations.RegisterFrames : Prop :=
  (∀ i s t c wide n d rest (p : Nat) cr' l l', i.inLanes = true → i.uses = .dst wide n d :: rest → s.ctx? = some c →
    exec i s = .next t → c.cr.lanes[p]? = some l → t.crews[c.ci]? = some cr' → cr'.lanes[p]? = some l' →
    l'.q = l.q ∧ l'.key = l.key ∧
    ((∀ b, i ≠ .rnextU32 b n d ∧ i ≠ .rnextU64 b n d ∧ i ≠ .rnextF32 b n d) → l'.ctr = l.ctr) ∧
    (∀ r : Nat, r ≠ d.toNat → (wide = true → r ≠ d.toNat + 1) → l'.v[r]? = l.v[r]?) ∧
    (n = true → l'.v = l.v) ∧ ((∀ u, c.laneOf p = some u → c.exec u = false) → l'.v = l.v)) ∧
  (∀ i s t c d rest (p : Nat) cr' l l', i.inLanes = true → i.uses = .idx 8 d :: rest → s.ctx? = some c →
    exec i s = .next t → c.cr.lanes[p]? = some l → t.crews[c.ci]? = some cr' → cr'.lanes[p]? = some l' →
    l'.v = l.v ∧ l'.key = l.key ∧ l'.ctr = l.ctr ∧ (∀ r : Nat, r ≠ d.toNat → l'.q[r]? = l.q[r]?) ∧
    ((∀ u, c.laneOf p = some u → c.exec u = false) → l'.q = l.q)) ∧
  (∀ i s t c k m d rest (p : Nat) cr' l l', i.inLanes = true → i.uses = .block k m d :: rest → s.ctx? = some c →
    exec i s = .next t → c.cr.lanes[p]? = some l → t.crews[c.ci]? = some cr' → cr'.lanes[p]? = some l' →
    l'.q = l.q ∧ l'.key = l.key ∧ l'.ctr = l.ctr ∧ (∀ r : Nat, r < d.toNat ∨ d.toNat + k ≤ r → l'.v[r]? = l.v[r]?) ∧
    ((∀ u, c.laneOf p = some u → c.exec u = false) → l'.v = l.v)) ∧
  (∀ i, (∃ wide n d rest, i.inLanes = true ∧ i.uses = .dst wide n d :: rest) → ∀ s c, WordReady i s c → ∃ t, exec i s = .next t) ∧
  (∀ i, (∃ d rest, i.inLanes = true ∧ i.uses = .idx 8 d :: rest) → ∀ s c, WordReady i s c → ∃ t, exec i s = .next t)
end

