-- ==== Sys2Proof/Laws/Words.lean ====
section
/-!
SUPPORT. What the frame of a word can do, said once: the trap of its checks, the stall, and the effect.
-/

namespace Sys2Proof.Machine

open Sys2Proof

/-- The three ways through the frame, whatever the word. -/
theorem frameWith_of_trap {i : WordInfo} {s : State} {c : Ctx} {short : Ctx → Bool} {eff : Ctx → State → State} {tr : Trap}
    (h : s.ctx? = some c) (ht : wordTrap i c = some tr) :
    frameWith i s short eff = .next (trapAll c tr c.start s) := by
  simp [frameWith, h, ht]

theorem frameWith_of_stall {i : WordInfo} {s : State} {c : Ctx} {short : Ctx → Bool} {eff : Ctx → State → State}
    (h : s.ctx? = some c) (ht : wordTrap i c = none) (hs : (stalls i s c || short c) = true) :
    frameWith i s short eff = .next s := by
  simp [frameWith, h, ht, hs]

theorem frameWith_of_ready {i : WordInfo} {s : State} {c : Ctx} {short : Ctx → Bool} {eff : Ctx → State → State}
    (h : s.ctx? = some c) (ht : wordTrap i c = none) (hs : stalls i s c = false) (hp : short c = false) :
    frameWith i s short eff = .next (finish i.last (eff c (if i.last then setPcs c s else s))) := by
  simp [frameWith, h, ht, hs, hp]

theorem frame_of_ready {i : WordInfo} {s : State} {c : Ctx} {eff : Ctx → State → State}
    (h : s.ctx? = some c) (ht : wordTrap i c = none) (hs : stalls i s c = false) :
    frame i s eff = .next (finish i.last (eff c (if i.last then setPcs c s else s))) :=
  frameWith_of_ready h ht hs rfl

/-! ### What stands behind a word's context -/

theorem ctx_some {s : State} {c : Ctx} (h : s.ctx? = some c) :
    s.cur = (c.core, c.slot) ∧ s.group? c.core c.slot = some c.g ∧ s.crews[c.ci]? = some c.cr ∧
      c.nbv = (s.part c.cr.part).nbv := by
  unfold State.ctx? at h
  split at h
  · cases h
  · rename_i g hg
    split at h
    · cases h
    · rename_i cr hcr
      cases h
      exact ⟨rfl, hg, hcr, rfl⟩

/-- The core behind a context, and its slot. -/
theorem ctx_slot {s : State} {c : Ctx} (h : s.ctx? = some c) :
    ∃ k, s.cores[c.core]? = some k ∧ k.slots[c.slot]? = some (some c.g) := by
  have hg := (ctx_some h).2.1
  unfold State.group? State.core at hg
  cases hk : s.cores[c.core]? with
  | none =>
    have : s.cores.getD c.core Core.reset = Core.reset := by simp [List.getD, hk]
    rw [this] at hg
    exfalso
    revert hg
    simp only [Core.reset, List.getElem?_replicate]
    split <;> simp
  | some k =>
    refine ⟨k, rfl, ?_⟩
    have : s.cores.getD c.core Core.reset = k := by simp [List.getD, hk]
    rw [this] at hg
    cases hs : k.slots[c.slot]? with
    | none => simp [hs] at hg
    | some o => simp [hs] at hg; rw [hg]

/-! ### The end of a word whose effect lies in its lanes -/

/-- A group whose leaving lanes are gone. -/
def gone (leaves : Nat → Bool) (ls : List LaneRef) : List LaneRef :=
  ls.mapIdx fun u r => if leaves u then { r with kind := .gone } else r

theorem gone_nobody (ls : List LaneRef) : gone nobody ls = ls := by
  apply List.ext_getElem? ; intro u
  simp only [gone, nobody, List.getElem?_mapIdx]
  cases ls[u]? <;> simp

/-- A lane that still stands in the group. -/
def LaneRef.here (p : Nat) (r : LaneRef) : Bool := r.place == p && (r.kind == .active || r.kind == .helper)

theorem laneOf_eq (c : Ctx) (p : Nat) : c.laneOf p = c.g.lanes.findIdx? (LaneRef.here p) := rfl

theorem here_gone (leaves : Nat → Bool) (ls : List LaneRef) (p u : Nat) :
    ((gone leaves ls)[u]?.map (LaneRef.here p)).getD false =
      (((ls[u]?.map (LaneRef.here p)).getD false) && !leaves u) := by
  simp only [gone, List.getElem?_mapIdx]
  cases ls[u]? with
  | none => simp
  | some r => by_cases h : leaves u <;> simp [h, LaneRef.here]

/-- `findIdx?` by the values of the predicate along the list. -/
theorem findIdx_congr {α : Type} (p q : α → Bool) : ∀ (l m : List α),
    (∀ u : Nat, (l[u]?.map p).getD false = (m[u]?.map q).getD false) → l.findIdx? p = m.findIdx? q
  | [], [], _ => rfl
  | [], b :: m, h => by
    have h0 := h 0
    have hm := findIdx_congr p q [] m (fun u => by simpa using h (u + 1))
    simp at h0 hm
    simp [List.findIdx?_cons, h0.symm, ← hm]
  | a :: l, [], h => by
    have h0 := h 0
    have hm := findIdx_congr p q l [] (fun u => by simpa using h (u + 1))
    simp at h0 hm
    simp [List.findIdx?_cons, h0]
    exact hm
  | a :: l, b :: m, h => by
    have h0 := h 0
    have hm := findIdx_congr p q l m (fun u => by simpa using h (u + 1))
    simp at h0
    simp [List.findIdx?_cons, h0, hm]

theorem distinct_iff {c : Ctx} (h : c.distinct = true) {p u v : Nat}
    (hu : (c.g.lanes[u]?.map (LaneRef.here p)).getD false = true)
    (hv : (c.g.lanes[v]?.map (LaneRef.here p)).getD false = true) : u = v := by
  by_contra hne
  cases hru : c.g.lanes[u]? with
  | none => simp [hru] at hu
  | some r =>
    cases hrv : c.g.lanes[v]? with
    | none => simp [hrv] at hv
    | some r' =>
      have hlu : u < c.g.lanes.length := (List.getElem?_eq_some_iff.mp hru).1
      have hlv : v < c.g.lanes.length := (List.getElem?_eq_some_iff.mp hrv).1
      have h1 := List.all_eq_true.mp h u (List.mem_range.mpr hlu)
      have h2 := List.all_eq_true.mp h1 v (List.mem_range.mpr hlv)
      simp [hru, LaneRef.here] at hu
      simp [hrv, LaneRef.here] at hv
      simp [Ctx.place, Ctx.kind, hru, hrv, hne, hu, hv] at h2
      rcases hu with ⟨_, hu | hu⟩ <;> rcases hv with ⟨_, hv | hv⟩ <;> simp_all

/-- The lane at a place once some lanes have left the group. -/
theorem laneOf_gone {c c' : Ctx} {leaves : Nat → Bool} (hl : c'.g.lanes = gone leaves c.g.lanes)
    (hd : leaves = nobody ∨ c.distinct = true) (p : Nat) :
    c'.laneOf p = (c.laneOf p).bind fun u => if leaves u then none else some u := by
  rw [laneOf_eq, laneOf_eq, hl]
  rcases hd with rfl | hd
  · rw [gone_nobody]
    simp [nobody]
  · cases hf : c.g.lanes.findIdx? (LaneRef.here p) with
    | none =>
      rw [List.findIdx?_eq_none_iff] at hf
      simp only [Option.bind_none, List.findIdx?_eq_none_iff]
      intro r hr
      obtain ⟨u, hu⟩ := List.mem_iff_getElem?.mp hr
      have hh := here_gone leaves c.g.lanes p u
      rw [hu] at hh
      cases hru : c.g.lanes[u]? with
      | none => simpa [hru] using hh
      | some r0 =>
        have := hf r0 (List.mem_of_getElem? hru)
        simpa [hru, this] using hh
    | some u =>
      obtain ⟨hu, hp, hmin⟩ := List.findIdx?_eq_some_iff_getElem.mp hf
      have hhu : (c.g.lanes[u]?.map (LaneRef.here p)).getD false = true := by
        simp [List.getElem?_eq_getElem hu, hp]
      by_cases hlv : leaves u = true
      · simp only [Option.bind_some, hlv, if_true, List.findIdx?_eq_none_iff]
        intro r hr
        obtain ⟨v, hv⟩ := List.mem_iff_getElem?.mp hr
        have hh := here_gone leaves c.g.lanes p v
        rw [hv] at hh
        simp only [Option.map_some, Option.getD_some] at hh
        rw [hh]
        by_cases hvu : v = u
        · subst hvu; simp [hlv]
        · have : (c.g.lanes[v]?.map (LaneRef.here p)).getD false = false := by
            by_contra hx
            exact hvu (distinct_iff hd (by simpa using hx) hhu)
          simp [this]
      · simp only [Option.bind_some, hlv, if_false, Bool.false_eq_true]
        have : (gone leaves c.g.lanes).findIdx? (LaneRef.here p) = c.g.lanes.findIdx? (LaneRef.here p) := by
          apply findIdx_congr
          intro v
          rw [here_gone]
          by_cases hvu : v = u
          · subst hvu; simp [hhu, hlv]
          · have : (c.g.lanes[v]?.map (LaneRef.here p)).getD false = false := by
              by_contra hx
              exact hvu (distinct_iff hd (by simpa using hx) hhu)
            simp [this]
        rw [this, hf]

theorem updThread_id (l : Lane) : l.updThread (fun th => th) = l := by
  cases l with
  | mk v q k c o => cases o <;> rfl

/-- A lane's latch after a word. -/
def latchAfter (pushed : Nat → Option Val) (u : Nat) (vs : List Val) : List Val :=
  match pushed u with
  | some v => pushLatch v vs
  | none => vs

/-- The end of a run in a lane: its thread is between runs, unless it has left (R31, R34). -/
def closeLane (s : State) (c : Ctx) (last : Bool) (leaves : Nat → Bool) (p : Nat) (l : Lane) : Lane :=
  match c.laneOf p with
  | none => l
  | some u =>
    if last && c.takesPart u && !leaves u then
      l.updThread fun th => { th with run := if s.outstanding c.ci p then .waiting else .waking none }
    else l

/-- Two changes of one entry make one. -/
theorem modify_twice {α : Type} (l : List α) (i : Nat) (f g h : α → α) (hh : ∀ x, l[i]? = some x → g (f x) = h x) :
    (l.modify i f).modify i g = l.modify i h := by
  apply List.ext_getElem?
  intro j
  simp only [List.getElem?_modify]
  by_cases hj : i = j
  · subst hj
    cases hx : l[i]? with
    | none => simp
    | some x => simp [hh x hx]
  · simp [hj]

/-- The state whose crew's lanes and slot have changed. -/
def lanesState (s : State) (c : Ctx) (F : Nat → Lane → Lane) (G : Option Group → Option Group) : State :=
  { s with
    cores := s.cores.modify c.core fun k => { k with slots := k.slots.modify c.slot G }
    crews := s.crews.modify c.ci fun cr => { cr with lanes := cr.lanes.mapIdx F } }

theorem mapLanes_updGroup (s : State) (c : Ctx) (F : Nat → Lane → Lane) (G : Group → Group) :
    (s.mapLanes c.ci F).updGroup c.core c.slot G = lanesState s c F (Option.map G) := rfl

theorem lanesState_ctx {s : State} {c : Ctx} (h : s.ctx? = some c) (F : Nat → Lane → Lane) (G : Group → Group)
    (hc : (G c.g).crew = c.g.crew) :
    (lanesState s c F (Option.map G)).ctx? =
      some ⟨c.core, c.slot, G c.g, { c.cr with lanes := c.cr.lanes.mapIdx F }, c.nbv⟩ := by
  obtain ⟨hcur, hg, hcr, hn⟩ := ctx_some h
  obtain ⟨k, hk, hs⟩ := ctx_slot h
  have hg' : (lanesState s c F (Option.map G)).curGroup? = some (G c.g) := by
    simp [State.curGroup?, State.group?, State.core, lanesState, hcur, List.getD, hk, hs]
  have hcr' : (lanesState s c F (Option.map G)).crews[(G c.g).crew]? =
      some { c.cr with lanes := c.cr.lanes.mapIdx F } := by
    have : s.crews[c.g.crew]? = some c.cr := hcr
    simp [lanesState, Ctx.ci, hc, this]
  simp only [State.ctx?, hg', hcr']
  simp [lanesState, hcur, State.part, hn]

/-- The end of a word whose effect lies in its lanes and its slot. -/
theorem finish_lanes {s : State} {c : Ctx} (h : s.ctx? = some c) (last : Bool) (F : Nat → Lane → Lane)
    (G : Group → Group) (leaves : Nat → Bool) (pushed : Nat → Option Val)
    (hG : G c.g = { c.g with lanes := gone leaves c.g.lanes, latch := c.g.latch.mapIdx (latchAfter pushed) })
    (hd : leaves = nobody ∨ c.distinct = true) :
    finish last (lanesState s c F (Option.map G)) =
      { s with
        cores := s.cores.modify c.core fun k => { k with slots := k.slots.set c.slot (groupAfter c last leaves pushed) }
        crews := s.crews.modify c.ci fun cr =>
          { cr with lanes := cr.lanes.mapIdx fun p l => closeLane s c last leaves p (F p l) } } := by
  have hcrew : (G c.g).crew = c.g.crew := by rw [hG]
  have hctx := lanesState_ctx h F G hcrew
  obtain ⟨hcur, hg, hcr, hn⟩ := ctx_some h
  obtain ⟨k, hk, hs⟩ := ctx_slot h
  have hout (p : Nat) : (lanesState s c F (Option.map G)).outstanding c.ci p = s.outstanding c.ci p := rfl
  have hcg : (lanesState s c F (Option.map G)).curGroup? = some (G c.g) := by
    have := ctx_some hctx
    rw [State.curGroup?, this.1]
    exact this.2.1
  unfold finish
  rw [hcg]
  simp only
  have hcores (o : Option Group) (B : Option Group → Option Group) (hB : B (some (G c.g)) = o) :
      (s.cores.modify c.core fun k => { k with slots := k.slots.modify c.slot (Option.map G) }).modify c.core
          (fun k => { k with slots := k.slots.modify c.slot B }) =
        s.cores.modify c.core fun k => { k with slots := k.slots.set c.slot o } := by
    apply modify_twice
    intro x hx
    rw [hk] at hx
    cases hx
    congr 1
    apply List.ext_getElem?
    intro j
    simp only [List.getElem?_modify, List.getElem?_set]
    by_cases hj : c.slot = j
    · subst hj
      have := (List.getElem?_eq_some_iff.mp hs).1
      have hx' : k.slots[c.slot] = some c.g := by
        have := List.getElem?_eq_getElem this
        rw [hs] at this
        exact (Option.some.inj this).symm
      simp [this, hx', hB]
    · simp [hj]
  have hset (o : Option Group) :
      (s.cores.modify c.core fun k => { k with slots := k.slots.modify c.slot (Option.map G) }).modify c.core
          (fun k => { k with slots := k.slots.set c.slot o }) =
        s.cores.modify c.core fun k => { k with slots := k.slots.set c.slot o } := by
    apply modify_twice
    intro x hx
    congr 1
    apply List.ext_getElem?
    intro j
    simp only [List.getElem?_modify, List.getElem?_set, List.length_modify]
    by_cases hj : c.slot = j
    · subst hj
      have := (List.getElem?_eq_some_iff.mp hs).1
      simp
    · simp [hj]
  cases last with
  | true =>
    simp only [if_true, endRun, hctx]
    simp only [lanesState, State.mapLanes, State.updCrew, State.clearSlot, State.updCore, groupAfter, Bool.true_or, hset,
      Ctx.ci, hcrew]
    congr 1
    apply modify_twice
    intro cr hx
    congr 1
    rw [List.mapIdx_mapIdx]
    congr 1
    funext p l
    simp only [Function.comp_apply, closeLane]
    rw [laneOf_gone (c := c) (leaves := leaves) (by simp [hG]) hd]
    cases hlo : c.laneOf p with
    | none => simp
    | some u =>
      by_cases hlv : leaves u = true
      · simp [hlv]
      · have : (⟨c.core, c.slot, G c.g, { c.cr with lanes := c.cr.lanes.mapIdx F }, c.nbv⟩ : Ctx).takesPart u =
            c.takesPart u := by
          simp only [Ctx.takesPart, Ctx.kind, hG, gone, List.getElem?_mapIdx]
          cases c.g.lanes[u]? <;> simp [hlv]
        simp [hlv, this]
        rfl
  | false =>
    simp only [Bool.false_eq_true, if_false]
    have hcrews : (s.crews.modify c.ci fun cr => { cr with lanes := cr.lanes.mapIdx F }) =
        s.crews.modify c.ci fun cr =>
          { cr with lanes := cr.lanes.mapIdx fun p l => closeLane s c false leaves p (F p l) } := by
      congr 1
      funext cr
      congr 2
      funext p l
      simp only [closeLane, Bool.false_and]
      cases c.laneOf p <;> rfl
    by_cases hany : (gone leaves c.g.lanes).any (fun r => r.kind == .active) = true
    · have : (G c.g).lanes.any (fun r => r.kind == .active) = true := by rw [hG]; exact hany
      simp only [this, if_true]
      simp only [lanesState, State.updGroup, State.updCore, hcur, groupAfter]
      rw [hcores (some { G c.g with addr := (G c.g).addr + 4, count := (G c.g).count + 1, bundle := Bundle.empty }) _ rfl]
      rw [hcrews]
      have hany' : (c.g.lanes.mapIdx fun u r => if leaves u then { r with kind := .gone } else r).any
          (fun r => r.kind == .active) = true := hany
      simp only [hany', Bool.not_true, Bool.or_false, Bool.false_eq_true, if_false, hG]
      rfl
    · have : (G c.g).lanes.any (fun r => r.kind == .active) = false := by rw [hG]; simpa using hany
      simp only [this, Bool.false_eq_true, if_false]
      simp only [lanesState, State.clearSlot, State.updCore, hcur, groupAfter]
      have hany' : (c.g.lanes.mapIdx fun u r => if leaves u then { r with kind := .gone } else r).any
          (fun r => r.kind == .active) = false := Bool.eq_false_iff.mpr hany
      rw [hset, hcrews]
      simp only [hany', Bool.not_false, Bool.or_true, if_true]

theorem mapIdx_id {α : Type} (f : Nat → α → α) (hf : ∀ u x, f u x = x) (l : List α) : l.mapIdx f = l := by
  apply List.ext_getElem?
  intro u
  simp only [List.getElem?_mapIdx]
  cases l[u]? <;> simp [hf]

/-- A lane as a word's effect finds and leaves it. -/
def effLane (c : Ctx) (last : Bool) (eff : Nat → Lane → Lane) (p : Nat) (l : Lane) : Lane :=
  match c.laneOf p with
  | none => l
  | some u => eff u (if last && c.takesPart u then l.updThread fun th => { th with pc := c.next } else l)

/-- A word whose effect lies in its lanes and its slot leaves `wordAfter`. -/
theorem finish_word {s : State} {c : Ctx} (h : s.ctx? = some c) (last : Bool) (eff : Nat → Lane → Lane)
    (G : Group → Group) (leaves : Nat → Bool) (pushed : Nat → Option Val)
    (hG : G c.g = { c.g with lanes := gone leaves c.g.lanes, latch := c.g.latch.mapIdx (latchAfter pushed) })
    (hd : leaves = nobody ∨ c.distinct = true) :
    finish last (lanesState s c (effLane c last eff) (Option.map G)) = wordAfter s c last eff leaves pushed := by
  rw [finish_lanes h last _ G leaves pushed hG hd]
  simp only [wordAfter]
  congr 2
  funext cr
  congr 2
  funext p l
  simp only [closeLane, effLane, laneAfter]
  cases c.laneOf p <;> rfl

/-- Lanes changed twice. -/
theorem mapLanes_twice (s : State) (ci : Nat) (f g : Nat → Lane → Lane) :
    (s.mapLanes ci f).mapLanes ci g = s.mapLanes ci fun p l => g p (f p l) := by
  simp only [State.mapLanes, State.updCrew]
  congr 1
  apply modify_twice
  intro x _
  simp only [List.mapIdx_mapIdx, Function.comp_def]

/-- Where the counters move first, the effect acts on lanes that have moved. -/
theorem mapLanes_moved (c : Ctx) (last : Bool) (s : State) (eff : Nat → Lane → Lane) :
    (if last then setPcs c s else s).mapLanes c.ci (fun p l =>
        match c.laneOf p with
        | some u => eff u l
        | none => l) =
      s.mapLanes c.ci (effLane c last eff) := by
  cases last with
  | false =>
    simp only [Bool.false_eq_true, if_false]
    congr 1
    funext p l
    simp only [effLane, Bool.false_and]
    cases c.laneOf p <;> rfl
  | true =>
    simp only [if_true, setPcs, mapLanes_twice]
    congr 1
    funext p l
    simp only [effLane, Bool.true_and]
    cases c.laneOf p <;> rfl

theorem active_exec {c : Ctx} {u : Nat} (h : c.active u = true) : c.exec u = true := by
  simp only [Ctx.active, Ctx.exec, Bool.and_eq_true, beq_iff_eq] at h ⊢
  simp [h.1, h.2]

/-- What a word that commits results pushes. -/
def commitPush (c : Ctx) (n : Bool) (d : Code) (wide pushes : Bool) (f : Nat → LaneOut) (u : Nat) : Option Val :=
  if !pushes then none
  else if c.exec u then (f u).val
  else if c.guardedOff u then some (c.stays wide n d u) else none

/-- A word whose results are committed, where no executing lane traps. -/
theorem commit_word {s : State} {c : Ctx} (h : s.ctx? = some c) (last n : Bool) (d : Code) (wide pushes : Bool)
    (f : Nat → LaneOut) (hf : ∀ u, c.exec u = true → (f u).trap = none) :
    finish last (commit n d wide pushes f c (if last then setPcs c s else s)) =
      wordAfter s c last (fun u l => if c.exec u then (f u).apply n d c.start l else l) nobody
        (commitPush c n d wide pushes f) := by
  rw [← finish_word h last _ (fun g => { g with
      latch := g.latch.mapIdx fun t vs =>
        if !pushes then vs
        else if c.exec t then
          match (f t).val with
          | some v => pushLatch v vs
          | none => vs
        else if c.guardedOff t then pushLatch (c.stays wide n d t) vs
        else vs
      lanes := g.lanes.mapIdx fun t r =>
        if c.active t && (f t).trap.isSome then { r with kind := .gone } else r }) nobody _ ?_ (.inl rfl)]
  · congr 1
    simp only [commit]
    rw [← mapLanes_updGroup]
    congr 1
    exact mapLanes_moved c last s _
  · have hg (t : Nat) : (c.active t && (f t).trap.isSome) = false := by
      cases ha : c.active t with
      | false => rfl
      | true => simp [hf t (active_exec ha)]
    simp only [hg, gone, nobody]
    congr 1
    congr 1
    funext u vs
    simp only [latchAfter, commitPush]
    by_cases hp : pushes <;> by_cases he : c.exec u <;> by_cases hg : c.guardedOff u <;> simp [hp, he, hg]

/-- A word whose results are committed, where the executing lanes that trap leave. -/
theorem commit_word_traps {s : State} {c : Ctx} (h : s.ctx? = some c) (last n : Bool) (d : Code) (wide pushes : Bool)
    (f : Nat → LaneOut) (hd : c.distinct = true) :
    finish last (commit n d wide pushes f c (if last then setPcs c s else s)) =
      wordAfter s c last (fun u l => if c.exec u then (f u).apply n d c.start l else l)
        (fun u => c.active u && (f u).trap.isSome) (commitPush c n d wide pushes f) := by
  rw [← finish_word h last _ (fun g => { g with
      latch := g.latch.mapIdx fun t vs =>
        if !pushes then vs
        else if c.exec t then
          match (f t).val with
          | some v => pushLatch v vs
          | none => vs
        else if c.guardedOff t then pushLatch (c.stays wide n d t) vs
        else vs
      lanes := g.lanes.mapIdx fun t r =>
        if c.active t && (f t).trap.isSome then { r with kind := .gone } else r })
      (fun u => c.active u && (f u).trap.isSome) _ ?_ (.inr hd)]
  · congr 1
    simp only [commit]
    rw [← mapLanes_updGroup]
    congr 1
    exact mapLanes_moved c last s _
  · simp only [gone]
    congr 1
    congr 1
    funext u vs
    simp only [latchAfter, commitPush]
    by_cases hp : pushes <;> by_cases he : c.exec u <;> by_cases hg : c.guardedOff u <;> simp [hp, he, hg]

/-- Two effects that agree in the executing lanes leave the same state. -/
theorem wordAfter_congr (s : State) (c : Ctx) (last : Bool) (leaves : Nat → Bool) {e e' : Nat → Lane → Lane}
    {p p' : Nat → Option Val} (he : ∀ u l, e u l = e' u l) (hp : ∀ u, p u = p' u) :
    wordAfter s c last e leaves p = wordAfter s c last e' leaves p' := by
  have h1 : e = e' := funext fun u => funext fun l => he u l
  have h2 : p = p' := funext hp
  rw [h1, h2]

theorem vecWord_next {i : WordInfo} {s : State} {c : Ctx} {n wide : Bool} {d : Code} {f : Ctx → Nat → LaneOut}
    (h : s.ctx? = some c) (ht : wordTrap i c = none) (hs : stalls i s c = false) (val : Nat → Val)
    (flags : Nat → BitVec 6) (hf : ∀ u, c.exec u = true → f c u = { val := some (val u), flags := flags u }) :
    vecWord i n d wide f s = .next (vecAfter s c i.last n d wide val flags) := by
  rw [vecWord, frame_of_ready h ht hs, commit_word h _ _ _ _ _ _ (fun u hu => by rw [hf u hu])]
  congr 1
  apply wordAfter_congr
  · intro u l
    simp only [resultLane]
    by_cases hu : c.exec u = true
    · simp only [hu, if_true, hf u hu]; rfl
    · simp [hu]
  · intro u
    simp only [commitPush, resultPush]
    by_cases hu : c.exec u = true
    · simp [hu, hf u hu]
    · simp [hu]

theorem quietWord_next {i : WordInfo} {s : State} {c : Ctx} {d : Code} {f : Ctx → Nat → LaneOut}
    (h : s.ctx? = some c) (ht : wordTrap i c = none) (hs : stalls i s c = false) (q : Nat → Reg)
    (flags : Nat → BitVec 6) (hf : ∀ u, c.exec u = true → f c u = { q := some (d.toNat, q u), flags := flags u }) :
    quietWord i f s = .next (quietAfter s c i.last d q flags) := by
  rw [quietWord, frame_of_ready h ht hs, commit_word h _ _ _ _ _ _ (fun u hu => by rw [hf u hu])]
  congr 1
  apply wordAfter_congr
  · intro u l
    by_cases hu : c.exec u = true
    · simp only [hu, if_true, hf u hu]; rfl
    · simp [hu]
  · intro u
    rfl

/-- The lane of the group at a place, as the crew holds it. -/
theorem laneOf_lane {c : Ctx} {p u : Nat} {l : Lane} (hl : c.cr.lanes[p]? = some l) (hu : c.laneOf p = some u) :
    c.place u = p ∧ c.lane u = l := by
  rw [laneOf_eq] at hu
  obtain ⟨hlt, hp, _⟩ := List.findIdx?_eq_some_iff_getElem.mp hu
  have hpl : c.place u = p := by
    simp only [LaneRef.here, Bool.and_eq_true, beq_iff_eq] at hp
    simp [Ctx.place, List.getElem?_eq_getElem hlt, hp.1]
  refine ⟨hpl, ?_⟩
  simp [Ctx.lane, Ctx.laneAt, hpl, List.getD, hl]

/-- A lane with its counter moved, as a word's effect finds it. -/
def steppedLane (c : Ctx) (last : Bool) (u : Nat) (l : Lane) : Lane :=
  if last && c.takesPart u then l.updThread fun th => { th with pc := c.next } else l

/-- Two effects that agree on the lanes of the crew leave the same state. -/
theorem wordAfter_congr_at {s : State} {c : Ctx} (h : s.ctx? = some c) (last : Bool) {leaves leaves' : Nat → Bool}
    {e e' : Nat → Lane → Lane} {p p' : Nat → Option Val}
    (he : ∀ u, e u (steppedLane c last u (c.lane u)) = e' u (steppedLane c last u (c.lane u)))
    (hl : ∀ u, leaves u = leaves' u) (hp : ∀ u, p u = p' u) :
    wordAfter s c last e leaves p = wordAfter s c last e' leaves' p' := by
  have h1 : leaves = leaves' := funext hl
  have h2 : p = p' := funext hp
  subst h1 h2
  simp only [wordAfter]
  congr 1
  apply List.ext_getElem?
  intro j
  simp only [List.getElem?_modify]
  by_cases hj : c.ci = j
  · subst hj
    have hcr := (ctx_some h).2.2.1
    simp only [if_true, hcr, Option.map_eq_map, Option.map_some]
    congr 2
    apply List.ext_getElem?
    intro q
    simp only [List.getElem?_mapIdx]
    cases hq : c.cr.lanes[q]? with
    | none => rfl
    | some l =>
      simp only [Option.map_some, laneAfter]
      cases hu : c.laneOf q with
      | none => rfl
      | some u =>
        have hc := (laneOf_lane hq hu).2
        have := he u
        rw [hc, steppedLane] at this
        simp only [this]
  · simp [hj]

/-- A control word, whichever of its lanes leave. -/
theorem steer_word {s : State} {c : Ctx} (h : s.ctx? = some c) (last : Bool) (f : Ctx → Nat → Thread → Thread × Bool)
    (leaves : Nat → Bool)
    (hl : ∀ u, leaves u = (c.active u && ((c.lane u).thread?.map fun th => (f c u th).2).getD false))
    (hd : leaves = nobody ∨ c.distinct = true) :
    finish last (steer f c (if last then setPcs c s else s)) =
      wordAfter s c last (c.moveLane fun u th => (f c u th).1) leaves fun _ => none := by
  rw [← finish_word h last _ (fun g => { g with
      lanes := g.lanes.mapIdx fun u r => if leaves u then { r with kind := .gone } else r }) leaves (fun _ => none) ?_ hd]
  · congr 1
    simp only [steer]
    rw [← mapLanes_updGroup]
    simp only [hl]
    congr 1
    exact mapLanes_moved c last s (c.moveLane fun u th => (f c u th).1)
  · simp only [gone, mapIdx_id (latchAfter fun _ => none) (fun _ _ => rfl)]

theorem active_takesPart {c : Ctx} {u : Nat} (h : c.active u = true) : c.takesPart u = true := by
  simp only [Ctx.active, Bool.and_eq_true] at h
  exact h.1

/-- A control word that ends its run, by what it does to each active thread. -/
theorem steer_next {s : State} {c : Ctx} (h : s.ctx? = some c) (f : Ctx → Nat → Thread → Thread × Bool)
    (g : Nat → Thread → Thread) (leaves : Nat → Bool)
    (hg : ∀ u th, c.active u = true → (c.lane u).thread? = some th →
      (f c u { th with pc := c.next }).1 = g u { th with pc := c.next } ∧ (f c u th).2 = leaves u)
    (hn : ∀ u, c.active u = true → (c.lane u).thread? = none → leaves u = false)
    (hi : ∀ u, c.active u = false → leaves u = false) (hd : leaves = nobody ∨ c.distinct = true) :
    finish true (steer f c (setPcs c s)) = wordAfter s c true (c.moveLane g) leaves fun _ => none := by
  refine (steer_word h true f leaves (fun u => ?_) hd).trans (wordAfter_congr_at h true (fun u => ?_) (fun _ => rfl)
    fun _ => rfl)
  · cases hu : c.active u with
    | false => simp [hi u hu]
    | true =>
      cases ht : (c.lane u).thread? with
      | none => simp [hn u hu ht]
      | some th => simp [(hg u th hu ht).2]
  · simp only [Ctx.moveLane]
    cases hu : c.active u with
    | false => simp
    | true =>
      simp only [if_true, steppedLane, Bool.true_and, active_takesPart hu]
      have hth := hg u
      revert hth
      cases c.lane u with
      | mk v q k ct o =>
        intro hth
        cases o with
        | thread th => simp only [Lane.updThread]; rw [(hth th hu rfl).1]
        | _ => rfl

/-! ### Words that change their crew beside its lanes -/

/-- The context of a word whose crew has changed. -/
theorem updCrew_ctx {s : State} {c : Ctx} (h : s.ctx? = some c) (f : Crew → Crew) (hp : (f c.cr).part = c.cr.part) :
    (s.updCrew c.ci f).ctx? = some { c with cr := f c.cr } := by
  obtain ⟨hcur, hg, hcr, hn⟩ := ctx_some h
  have hg' : (s.updCrew c.ci f).curGroup? = some c.g := by
    have : (s.updCrew c.ci f).curGroup? = s.group? s.cur.1 s.cur.2 := rfl
    rw [this, hcur]
    exact hg
  have hcr' : (s.updCrew c.ci f).crews[c.g.crew]? = some (f c.cr) := by
    have : s.crews[c.g.crew]? = some c.cr := hcr
    simp [State.updCrew, Ctx.ci, this]
  have hcur' : (s.updCrew c.ci f).cur = (c.core, c.slot) := hcur
  have hpart : ((s.updCrew c.ci f).part (f c.cr).part).nbv = c.nbv := by rw [hp, hn]; rfl
  simp only [State.ctx?, hg', hcr', hcur', hpart]

/-- A change of the crew that leaves its lanes alone passes the move of the counters. -/
theorem setPcs_updCrew (c : Ctx) (last : Bool) (s : State) (f : Crew → Crew)
    (hf : ∀ cr g, f { cr with lanes := g } = { f cr with lanes := g }) (hl : ∀ cr, (f cr).lanes = cr.lanes) :
    (if last then setPcs c s else s).updCrew c.ci f =
      if last then setPcs c (s.updCrew c.ci f) else s.updCrew c.ci f := by
  cases last
  · rfl
  · simp only [if_true, setPcs, State.mapLanes, State.updCrew]
    congr 1
    apply List.ext_getElem?
    intro j
    simp only [List.getElem?_modify]
    by_cases hj : c.ci = j <;> simp only [hj, if_true, if_false]
    cases s.crews[j]? with
    | none => rfl
    | some x => exact congrArg some ((hf x _).trans (by show _ = ({ f x with lanes := (f x).lanes.mapIdx _ } : Crew); rw [hl]))

theorem updGroup_id (s : State) (a b : Nat) : s.updGroup a b id = s := by
  have h1 (l : List (Option Group)) : l.modify b (Option.map id) = l := by
    apply List.ext_getElem?
    intro j
    simp only [List.getElem?_modify]
    by_cases hj : b = j <;> simp [hj]
  have h2 : s.cores.modify a (fun k => { k with slots := k.slots.modify b (Option.map id) }) = s.cores := by
    apply List.ext_getElem?
    intro j
    simp only [List.getElem?_modify, h1]
    by_cases hj : a = j <;> simp [hj]
  simp only [State.updGroup, State.updCore, h2]

theorem mapLanes_id (s : State) (ci : Nat) (f : Nat → Lane → Lane) (hf : ∀ p l, f p l = l) : s.mapLanes ci f = s := by
  have : s.crews.modify ci (fun cr => { cr with lanes := cr.lanes.mapIdx f }) = s.crews := by
    apply List.ext_getElem?
    intro j
    simp only [List.getElem?_modify, mapIdx_id f hf]
    by_cases hj : ci = j <;> simp [hj]
  simp only [State.mapLanes, State.updCrew, this]

/-- The end of a word that does nothing in its lanes. -/
theorem finish_plain {s : State} {c : Ctx} (h : s.ctx? = some c) (last : Bool) :
    finish last (if last then setPcs c s else s) = wordAfter s c last (fun _ l => l) nobody fun _ => none := by
  have key := finish_word h last (fun _ l => l) id nobody (fun _ => none)
    (by simp [gone_nobody, mapIdx_id (latchAfter fun _ => none) (fun _ _ => rfl)]) (.inl rfl)
  rw [← key, ← mapLanes_updGroup, updGroup_id, ← mapLanes_moved, mapLanes_id]
  intro p l
  cases c.laneOf p <;> rfl

/-- The end of a word that changes its crew, and nothing in its lanes. -/
theorem finish_crew {s : State} {c : Ctx} (h : s.ctx? = some c) (last : Bool) (f : Crew → Crew)
    (hf : ∀ cr g, f { cr with lanes := g } = { f cr with lanes := g }) (hl : ∀ cr, (f cr).lanes = cr.lanes)
    (hp : (f c.cr).part = c.cr.part) :
    finish last ((if last then setPcs c s else s).updCrew c.ci f) =
      wordAfter (s.updCrew c.ci f) c last (fun _ l => l) nobody fun _ => none := by
  rw [setPcs_updCrew c last s f hf hl]
  exact finish_plain (updCrew_ctx h f hp) last

end Sys2Proof.Machine
end

