-- ==== Sys2Proof/Laws/Framed.lean ====
section
/-!
SUPPORT. Every word but a hint goes through the frame of R102, with the checks that `Instr.info` gives it.
-/

namespace Sys2Proof.Machine

open Sys2Proof

/-- An outcome that comes of the frame with the checks `i`. -/
def FramedAs (i : WordInfo) (s : State) (o : Out) : Prop := ∃ short eff, o = frameWith i s short eff

theorem framed_with (i : WordInfo) (s : State) (short : Ctx → Bool) (eff : Ctx → State → State) :
    FramedAs i s (frameWith i s short eff) := ⟨short, eff, rfl⟩

theorem framed_frame (i : WordInfo) (s : State) (eff : Ctx → State → State) : FramedAs i s (frame i s eff) := ⟨_, eff, rfl⟩

theorem framed_vec (i : WordInfo) (n : Bool) (d : Code) (wide : Bool) (f : Ctx → Nat → LaneOut) (s : State) :
    FramedAs i s (vecWord i n d wide f s) := framed_frame ..

theorem framed_quiet (i : WordInfo) (f : Ctx → Nat → LaneOut) (s : State) : FramedAs i s (quietWord i f s) := framed_frame ..

theorem framed_draw (i : WordInfo) (n : Bool) (d : Code) (wide pushes : Bool) (f : Ctx → Nat → LaneOut) (s : State) :
    FramedAs i s (drawWord i n d wide pushes f s) := framed_frame ..

theorem framed_mem (i : WordInfo) (blocks : Ctx → Nat → List Nat) (eff : Ctx → State → State) (s : State) :
    FramedAs i s (memWord i blocks eff s) := framed_with ..

theorem framed_uniform (i : WordInfo) (d : Code) (f : Ctx → Dword) (s : State) : FramedAs i s (uniformWord i d f s) :=
  framed_frame ..

/-- The meaning of a word goes through the frame. -/
def Framed (i : Instr) : Prop := i.isWord = true → i.isHint = false → ∀ s, FramedAs i.info s (exec i s)

namespace Framed

theorem iadd (x0 x1 x2 x3 x4) : Framed (.iadd x0 x1 x2 x3 x4) := fun _ _ _ => framed_vec ..
theorem isub (x0 x1 x2 x3 x4) : Framed (.isub x0 x1 x2 x3 x4) := fun _ _ _ => framed_vec ..
theorem imul (x0 x1 x2 x3 x4) : Framed (.imul x0 x1 x2 x3 x4) := fun _ _ _ => framed_vec ..
theorem imulh (x0 x1 x2 x3 x4) : Framed (.imulh x0 x1 x2 x3 x4) := fun _ _ _ => framed_vec ..
theorem imulhU (x0 x1 x2 x3 x4) : Framed (.imulhU x0 x1 x2 x3 x4) := fun _ _ _ => framed_vec ..
theorem ineg (x0 x1 x2 x3) : Framed (.ineg x0 x1 x2 x3) := fun _ _ _ => framed_vec ..
theorem iabs (x0 x1 x2 x3) : Framed (.iabs x0 x1 x2 x3) := fun _ _ _ => framed_vec ..
theorem imin (x0 x1 x2 x3 x4) : Framed (.imin x0 x1 x2 x3 x4) := fun _ _ _ => framed_vec ..
theorem iminU (x0 x1 x2 x3 x4) : Framed (.iminU x0 x1 x2 x3 x4) := fun _ _ _ => framed_vec ..
theorem imax (x0 x1 x2 x3 x4) : Framed (.imax x0 x1 x2 x3 x4) := fun _ _ _ => framed_vec ..
theorem imaxU (x0 x1 x2 x3 x4) : Framed (.imaxU x0 x1 x2 x3 x4) := fun _ _ _ => framed_vec ..
theorem land (x0 x1 x2 x3 x4) : Framed (.land x0 x1 x2 x3 x4) := fun _ _ _ => framed_vec ..
theorem lor (x0 x1 x2 x3 x4) : Framed (.lor x0 x1 x2 x3 x4) := fun _ _ _ => framed_vec ..
theorem lxor (x0 x1 x2 x3 x4) : Framed (.lxor x0 x1 x2 x3 x4) := fun _ _ _ => framed_vec ..
theorem lnot (x0 x1 x2 x3) : Framed (.lnot x0 x1 x2 x3) := fun _ _ _ => framed_vec ..
theorem shl (x0 x1 x2 x3 x4) : Framed (.shl x0 x1 x2 x3 x4) := fun _ _ _ => framed_vec ..
theorem shr (x0 x1 x2 x3 x4) : Framed (.shr x0 x1 x2 x3 x4) := fun _ _ _ => framed_vec ..
theorem sar (x0 x1 x2 x3 x4) : Framed (.sar x0 x1 x2 x3 x4) := fun _ _ _ => framed_vec ..
theorem rot (x0 x1 x2 x3 x4) : Framed (.rot x0 x1 x2 x3 x4) := fun _ _ _ => framed_vec ..
theorem popc (x0 x1 x2 x3) : Framed (.popc x0 x1 x2 x3) := fun _ _ _ => framed_vec ..
theorem clz (x0 x1 x2 x3) : Framed (.clz x0 x1 x2 x3) := fun _ _ _ => framed_vec ..
theorem ctz (x0 x1 x2 x3) : Framed (.ctz x0 x1 x2 x3) := fun _ _ _ => framed_vec ..
theorem brev (x0 x1 x2 x3) : Framed (.brev x0 x1 x2 x3) := fun _ _ _ => framed_vec ..
theorem mov (x0 x1 x2 x3) : Framed (.mov x0 x1 x2 x3) := fun _ _ _ => framed_vec ..
theorem iaddSat (x0 x1 x2 x3 x4) : Framed (.iaddSat x0 x1 x2 x3 x4) := fun _ _ _ => framed_vec ..
theorem isubSat (x0 x1 x2 x3 x4) : Framed (.isubSat x0 x1 x2 x3 x4) := fun _ _ _ => framed_vec ..
theorem iaddUsat (x0 x1 x2 x3 x4) : Framed (.iaddUsat x0 x1 x2 x3 x4) := fun _ _ _ => framed_vec ..
theorem isubUsat (x0 x1 x2 x3 x4) : Framed (.isubUsat x0 x1 x2 x3 x4) := fun _ _ _ => framed_vec ..
theorem iadd64 (x0 x1 x2 x3 x4) : Framed (.iadd64 x0 x1 x2 x3 x4) := fun _ _ _ => framed_vec ..
theorem isub64 (x0 x1 x2 x3 x4) : Framed (.isub64 x0 x1 x2 x3 x4) := fun _ _ _ => framed_vec ..
theorem imul64 (x0 x1 x2 x3 x4) : Framed (.imul64 x0 x1 x2 x3 x4) := fun _ _ _ => framed_vec ..
theorem imulh64 (x0 x1 x2 x3 x4) : Framed (.imulh64 x0 x1 x2 x3 x4) := fun _ _ _ => framed_vec ..
theorem imulhU64 (x0 x1 x2 x3 x4) : Framed (.imulhU64 x0 x1 x2 x3 x4) := fun _ _ _ => framed_vec ..
theorem ineg64 (x0 x1 x2 x3) : Framed (.ineg64 x0 x1 x2 x3) := fun _ _ _ => framed_vec ..
theorem iabs64 (x0 x1 x2 x3) : Framed (.iabs64 x0 x1 x2 x3) := fun _ _ _ => framed_vec ..
theorem imin64 (x0 x1 x2 x3 x4) : Framed (.imin64 x0 x1 x2 x3 x4) := fun _ _ _ => framed_vec ..
theorem iminU64 (x0 x1 x2 x3 x4) : Framed (.iminU64 x0 x1 x2 x3 x4) := fun _ _ _ => framed_vec ..
theorem imax64 (x0 x1 x2 x3 x4) : Framed (.imax64 x0 x1 x2 x3 x4) := fun _ _ _ => framed_vec ..
theorem imaxU64 (x0 x1 x2 x3 x4) : Framed (.imaxU64 x0 x1 x2 x3 x4) := fun _ _ _ => framed_vec ..
theorem land64 (x0 x1 x2 x3 x4) : Framed (.land64 x0 x1 x2 x3 x4) := fun _ _ _ => framed_vec ..
theorem lor64 (x0 x1 x2 x3 x4) : Framed (.lor64 x0 x1 x2 x3 x4) := fun _ _ _ => framed_vec ..
theorem lxor64 (x0 x1 x2 x3 x4) : Framed (.lxor64 x0 x1 x2 x3 x4) := fun _ _ _ => framed_vec ..
theorem lnot64 (x0 x1 x2 x3) : Framed (.lnot64 x0 x1 x2 x3) := fun _ _ _ => framed_vec ..
theorem shl64 (x0 x1 x2 x3 x4) : Framed (.shl64 x0 x1 x2 x3 x4) := fun _ _ _ => framed_vec ..
theorem shr64 (x0 x1 x2 x3 x4) : Framed (.shr64 x0 x1 x2 x3 x4) := fun _ _ _ => framed_vec ..
theorem sar64 (x0 x1 x2 x3 x4) : Framed (.sar64 x0 x1 x2 x3 x4) := fun _ _ _ => framed_vec ..
theorem rot64 (x0 x1 x2 x3 x4) : Framed (.rot64 x0 x1 x2 x3 x4) := fun _ _ _ => framed_vec ..
theorem popc64 (x0 x1 x2 x3) : Framed (.popc64 x0 x1 x2 x3) := fun _ _ _ => framed_vec ..
theorem clz64 (x0 x1 x2 x3) : Framed (.clz64 x0 x1 x2 x3) := fun _ _ _ => framed_vec ..
theorem ctz64 (x0 x1 x2 x3) : Framed (.ctz64 x0 x1 x2 x3) := fun _ _ _ => framed_vec ..
theorem brev64 (x0 x1 x2 x3) : Framed (.brev64 x0 x1 x2 x3) := fun _ _ _ => framed_vec ..
theorem mov64 (x0 x1 x2 x3) : Framed (.mov64 x0 x1 x2 x3) := fun _ _ _ => framed_vec ..
theorem iaddSat64 (x0 x1 x2 x3 x4) : Framed (.iaddSat64 x0 x1 x2 x3 x4) := fun _ _ _ => framed_vec ..
theorem isubSat64 (x0 x1 x2 x3 x4) : Framed (.isubSat64 x0 x1 x2 x3 x4) := fun _ _ _ => framed_vec ..
theorem iaddUsat64 (x0 x1 x2 x3 x4) : Framed (.iaddUsat64 x0 x1 x2 x3 x4) := fun _ _ _ => framed_vec ..
theorem isubUsat64 (x0 x1 x2 x3 x4) : Framed (.isubUsat64 x0 x1 x2 x3 x4) := fun _ _ _ => framed_vec ..
theorem imad (x0 x1 x2 x3 x4 x5) : Framed (.imad x0 x1 x2 x3 x4 x5) := fun _ _ _ => framed_vec ..
theorem imad64 (x0 x1 x2 x3 x4 x5) : Framed (.imad64 x0 x1 x2 x3 x4 x5) := fun _ _ _ => framed_vec ..
theorem movi (x0 x1 x2 x3) : Framed (.movi x0 x1 x2 x3) := fun _ _ _ => framed_vec ..
theorem lea (x0 x1 x2 x3 x4) : Framed (.lea x0 x1 x2 x3 x4) := fun _ _ _ => framed_vec ..
theorem icmp (x0 x1 x2 x3 x4 x5) : Framed (.icmp x0 x1 x2 x3 x4 x5) := fun _ _ _ => framed_quiet ..
theorem bfi (x0 x1 x2 x3 x4 x5) : Framed (.bfi x0 x1 x2 x3 x4 x5) := fun _ _ _ => framed_vec ..
theorem bfxU (x0 x1 x2 x3 x4) : Framed (.bfxU x0 x1 x2 x3 x4) := fun _ _ _ => framed_vec ..
theorem bfxS (x0 x1 x2 x3 x4) : Framed (.bfxS x0 x1 x2 x3 x4) := fun _ _ _ => framed_vec ..
theorem bffs (x0 x1 x2 x3) : Framed (.bffs x0 x1 x2 x3) := fun _ _ _ => framed_vec ..
theorem bffsIdx (x0 x1 x2 x3) : Framed (.bffsIdx x0 x1 x2 x3) := fun _ _ _ => framed_vec ..
theorem bfpl (x0 x1 x2 x3 x4) : Framed (.bfpl x0 x1 x2 x3 x4) := fun _ _ _ => framed_vec ..
theorem qxchX (x0 x1 x2 x3) : Framed (.qxchX x0 x1 x2 x3) := fun _ _ _ => framed_vec ..
theorem qxchY (x0 x1 x2 x3) : Framed (.qxchY x0 x1 x2 x3) := fun _ _ _ => framed_vec ..
theorem qxchXy (x0 x1 x2 x3) : Framed (.qxchXy x0 x1 x2 x3) := fun _ _ _ => framed_vec ..
theorem qxchBc (x0 x1 x2 x3 x4) : Framed (.qxchBc x0 x1 x2 x3 x4) := fun _ _ _ => framed_vec ..
theorem gshuf (x0 x1 x2 x3 x4) : Framed (.gshuf x0 x1 x2 x3 x4) := fun _ _ _ => framed_vec ..
theorem gshufXor (x0 x1 x2 x3 x4) : Framed (.gshufXor x0 x1 x2 x3 x4) := fun _ _ _ => framed_vec ..
theorem qxchX64 (x0 x1 x2 x3) : Framed (.qxchX64 x0 x1 x2 x3) := fun _ _ _ => framed_vec ..
theorem qxchY64 (x0 x1 x2 x3) : Framed (.qxchY64 x0 x1 x2 x3) := fun _ _ _ => framed_vec ..
theorem qxchXy64 (x0 x1 x2 x3) : Framed (.qxchXy64 x0 x1 x2 x3) := fun _ _ _ => framed_vec ..
theorem qxchBc64 (x0 x1 x2 x3 x4) : Framed (.qxchBc64 x0 x1 x2 x3 x4) := fun _ _ _ => framed_vec ..
theorem gshuf64 (x0 x1 x2 x3 x4) : Framed (.gshuf64 x0 x1 x2 x3 x4) := fun _ _ _ => framed_vec ..
theorem gshufXor64 (x0 x1 x2 x3 x4) : Framed (.gshufXor64 x0 x1 x2 x3 x4) := fun _ _ _ => framed_vec ..
theorem umov (x0 x1 x2) : Framed (.umov x0 x1 x2) := fun _ _ _ => framed_uniform ..
theorem uadd (x0 x1 x2 x3) : Framed (.uadd x0 x1 x2 x3) := fun _ _ _ => framed_uniform ..
theorem usub (x0 x1 x2 x3) : Framed (.usub x0 x1 x2 x3) := fun _ _ _ => framed_uniform ..
theorem umul (x0 x1 x2 x3) : Framed (.umul x0 x1 x2 x3) := fun _ _ _ => framed_uniform ..
theorem uand (x0 x1 x2 x3) : Framed (.uand x0 x1 x2 x3) := fun _ _ _ => framed_uniform ..
theorem uor (x0 x1 x2 x3) : Framed (.uor x0 x1 x2 x3) := fun _ _ _ => framed_uniform ..
theorem uxor (x0 x1 x2 x3) : Framed (.uxor x0 x1 x2 x3) := fun _ _ _ => framed_uniform ..
theorem ushl (x0 x1 x2 x3) : Framed (.ushl x0 x1 x2 x3) := fun _ _ _ => framed_uniform ..
theorem ushr (x0 x1 x2 x3) : Framed (.ushr x0 x1 x2 x3) := fun _ _ _ => framed_uniform ..
theorem usar (x0 x1 x2 x3) : Framed (.usar x0 x1 x2 x3) := fun _ _ _ => framed_uniform ..
theorem umin (x0 x1 x2 x3) : Framed (.umin x0 x1 x2 x3) := fun _ _ _ => framed_uniform ..
theorem umax (x0 x1 x2 x3) : Framed (.umax x0 x1 x2 x3) := fun _ _ _ => framed_uniform ..
theorem umovv (x0 x1 x2) : Framed (.umovv x0 x1 x2) := fun _ _ _ => framed_uniform ..
theorem umovv64 (x0 x1 x2) : Framed (.umovv64 x0 x1 x2) := fun _ _ _ => framed_uniform ..
theorem ffmaF32 (x0 x1 x2 x3 x4 x5) : Framed (.ffmaF32 x0 x1 x2 x3 x4 x5) := fun _ _ _ => framed_vec ..
theorem ffmaF64 (x0 x1 x2 x3 x4 x5) : Framed (.ffmaF64 x0 x1 x2 x3 x4 x5) := fun _ _ _ => framed_vec ..
theorem ffmaF16 (x0 x1 x2 x3 x4 x5) : Framed (.ffmaF16 x0 x1 x2 x3 x4 x5) := fun _ _ _ => framed_vec ..
theorem ffmaBf16 (x0 x1 x2 x3 x4 x5) : Framed (.ffmaBf16 x0 x1 x2 x3 x4 x5) := fun _ _ _ => framed_vec ..
theorem ffmaF16x2 (x0 x1 x2 x3 x4 x5) : Framed (.ffmaF16x2 x0 x1 x2 x3 x4 x5) := fun _ _ _ => framed_vec ..
theorem faddF32 (x0 x1 x2 x3 x4) : Framed (.faddF32 x0 x1 x2 x3 x4) := fun _ _ _ => framed_vec ..
theorem fsubF32 (x0 x1 x2 x3 x4) : Framed (.fsubF32 x0 x1 x2 x3 x4) := fun _ _ _ => framed_vec ..
theorem fmulF32 (x0 x1 x2 x3 x4) : Framed (.fmulF32 x0 x1 x2 x3 x4) := fun _ _ _ => framed_vec ..
theorem fminF32 (x0 x1 x2 x3 x4) : Framed (.fminF32 x0 x1 x2 x3 x4) := fun _ _ _ => framed_vec ..
theorem fmaxF32 (x0 x1 x2 x3 x4) : Framed (.fmaxF32 x0 x1 x2 x3 x4) := fun _ _ _ => framed_vec ..
theorem fabsF32 (x0 x1 x2 x3) : Framed (.fabsF32 x0 x1 x2 x3) := fun _ _ _ => framed_vec ..
theorem fnegF32 (x0 x1 x2 x3) : Framed (.fnegF32 x0 x1 x2 x3) := fun _ _ _ => framed_vec ..
theorem fdivF32 (x0 x1 x2 x3 x4) : Framed (.fdivF32 x0 x1 x2 x3 x4) := fun _ _ _ => framed_vec ..
theorem frcpF32 (x0 x1 x2 x3) : Framed (.frcpF32 x0 x1 x2 x3) := fun _ _ _ => framed_vec ..
theorem frsqF32 (x0 x1 x2 x3) : Framed (.frsqF32 x0 x1 x2 x3) := fun _ _ _ => framed_vec ..
theorem fsqrtF32 (x0 x1 x2 x3) : Framed (.fsqrtF32 x0 x1 x2 x3) := fun _ _ _ => framed_vec ..
theorem fexp2F32 (x0 x1 x2 x3) : Framed (.fexp2F32 x0 x1 x2 x3) := fun _ _ _ => framed_vec ..
theorem flog2F32 (x0 x1 x2 x3) : Framed (.flog2F32 x0 x1 x2 x3) := fun _ _ _ => framed_vec ..
theorem fsinF32 (x0 x1 x2 x3) : Framed (.fsinF32 x0 x1 x2 x3) := fun _ _ _ => framed_vec ..
theorem fcosF32 (x0 x1 x2 x3) : Framed (.fcosF32 x0 x1 x2 x3) := fun _ _ _ => framed_vec ..
theorem ffloorF32 (x0 x1 x2 x3) : Framed (.ffloorF32 x0 x1 x2 x3) := fun _ _ _ => framed_vec ..
theorem fceilF32 (x0 x1 x2 x3) : Framed (.fceilF32 x0 x1 x2 x3) := fun _ _ _ => framed_vec ..
theorem frndF32 (x0 x1 x2 x3) : Framed (.frndF32 x0 x1 x2 x3) := fun _ _ _ => framed_vec ..
theorem ffracF32 (x0 x1 x2 x3) : Framed (.ffracF32 x0 x1 x2 x3) := fun _ _ _ => framed_vec ..
theorem faddF64 (x0 x1 x2 x3 x4) : Framed (.faddF64 x0 x1 x2 x3 x4) := fun _ _ _ => framed_vec ..
theorem fsubF64 (x0 x1 x2 x3 x4) : Framed (.fsubF64 x0 x1 x2 x3 x4) := fun _ _ _ => framed_vec ..
theorem fmulF64 (x0 x1 x2 x3 x4) : Framed (.fmulF64 x0 x1 x2 x3 x4) := fun _ _ _ => framed_vec ..
theorem fminF64 (x0 x1 x2 x3 x4) : Framed (.fminF64 x0 x1 x2 x3 x4) := fun _ _ _ => framed_vec ..
theorem fmaxF64 (x0 x1 x2 x3 x4) : Framed (.fmaxF64 x0 x1 x2 x3 x4) := fun _ _ _ => framed_vec ..
theorem fabsF64 (x0 x1 x2 x3) : Framed (.fabsF64 x0 x1 x2 x3) := fun _ _ _ => framed_vec ..
theorem fnegF64 (x0 x1 x2 x3) : Framed (.fnegF64 x0 x1 x2 x3) := fun _ _ _ => framed_vec ..
theorem fdivF64 (x0 x1 x2 x3 x4) : Framed (.fdivF64 x0 x1 x2 x3 x4) := fun _ _ _ => framed_vec ..
theorem frcpF64 (x0 x1 x2 x3) : Framed (.frcpF64 x0 x1 x2 x3) := fun _ _ _ => framed_vec ..
theorem frsqF64 (x0 x1 x2 x3) : Framed (.frsqF64 x0 x1 x2 x3) := fun _ _ _ => framed_vec ..
theorem fsqrtF64 (x0 x1 x2 x3) : Framed (.fsqrtF64 x0 x1 x2 x3) := fun _ _ _ => framed_vec ..
theorem fexp2F64 (x0 x1 x2 x3) : Framed (.fexp2F64 x0 x1 x2 x3) := fun _ _ _ => framed_vec ..
theorem flog2F64 (x0 x1 x2 x3) : Framed (.flog2F64 x0 x1 x2 x3) := fun _ _ _ => framed_vec ..
theorem fsinF64 (x0 x1 x2 x3) : Framed (.fsinF64 x0 x1 x2 x3) := fun _ _ _ => framed_vec ..
theorem fcosF64 (x0 x1 x2 x3) : Framed (.fcosF64 x0 x1 x2 x3) := fun _ _ _ => framed_vec ..
theorem ffloorF64 (x0 x1 x2 x3) : Framed (.ffloorF64 x0 x1 x2 x3) := fun _ _ _ => framed_vec ..
theorem fceilF64 (x0 x1 x2 x3) : Framed (.fceilF64 x0 x1 x2 x3) := fun _ _ _ => framed_vec ..
theorem frndF64 (x0 x1 x2 x3) : Framed (.frndF64 x0 x1 x2 x3) := fun _ _ _ => framed_vec ..
theorem ffracF64 (x0 x1 x2 x3) : Framed (.ffracF64 x0 x1 x2 x3) := fun _ _ _ => framed_vec ..
theorem faddF16 (x0 x1 x2 x3 x4) : Framed (.faddF16 x0 x1 x2 x3 x4) := fun _ _ _ => framed_vec ..
theorem fsubF16 (x0 x1 x2 x3 x4) : Framed (.fsubF16 x0 x1 x2 x3 x4) := fun _ _ _ => framed_vec ..
theorem fmulF16 (x0 x1 x2 x3 x4) : Framed (.fmulF16 x0 x1 x2 x3 x4) := fun _ _ _ => framed_vec ..
theorem fminF16 (x0 x1 x2 x3 x4) : Framed (.fminF16 x0 x1 x2 x3 x4) := fun _ _ _ => framed_vec ..
theorem fmaxF16 (x0 x1 x2 x3 x4) : Framed (.fmaxF16 x0 x1 x2 x3 x4) := fun _ _ _ => framed_vec ..
theorem fabsF16 (x0 x1 x2 x3) : Framed (.fabsF16 x0 x1 x2 x3) := fun _ _ _ => framed_vec ..
theorem fnegF16 (x0 x1 x2 x3) : Framed (.fnegF16 x0 x1 x2 x3) := fun _ _ _ => framed_vec ..
theorem fdivF16 (x0 x1 x2 x3 x4) : Framed (.fdivF16 x0 x1 x2 x3 x4) := fun _ _ _ => framed_vec ..
theorem frcpF16 (x0 x1 x2 x3) : Framed (.frcpF16 x0 x1 x2 x3) := fun _ _ _ => framed_vec ..
theorem frsqF16 (x0 x1 x2 x3) : Framed (.frsqF16 x0 x1 x2 x3) := fun _ _ _ => framed_vec ..
theorem fsqrtF16 (x0 x1 x2 x3) : Framed (.fsqrtF16 x0 x1 x2 x3) := fun _ _ _ => framed_vec ..
theorem fexp2F16 (x0 x1 x2 x3) : Framed (.fexp2F16 x0 x1 x2 x3) := fun _ _ _ => framed_vec ..
theorem flog2F16 (x0 x1 x2 x3) : Framed (.flog2F16 x0 x1 x2 x3) := fun _ _ _ => framed_vec ..
theorem fsinF16 (x0 x1 x2 x3) : Framed (.fsinF16 x0 x1 x2 x3) := fun _ _ _ => framed_vec ..
theorem fcosF16 (x0 x1 x2 x3) : Framed (.fcosF16 x0 x1 x2 x3) := fun _ _ _ => framed_vec ..
theorem ffloorF16 (x0 x1 x2 x3) : Framed (.ffloorF16 x0 x1 x2 x3) := fun _ _ _ => framed_vec ..
theorem fceilF16 (x0 x1 x2 x3) : Framed (.fceilF16 x0 x1 x2 x3) := fun _ _ _ => framed_vec ..
theorem frndF16 (x0 x1 x2 x3) : Framed (.frndF16 x0 x1 x2 x3) := fun _ _ _ => framed_vec ..
theorem ffracF16 (x0 x1 x2 x3) : Framed (.ffracF16 x0 x1 x2 x3) := fun _ _ _ => framed_vec ..
theorem faddBf16 (x0 x1 x2 x3 x4) : Framed (.faddBf16 x0 x1 x2 x3 x4) := fun _ _ _ => framed_vec ..
theorem fsubBf16 (x0 x1 x2 x3 x4) : Framed (.fsubBf16 x0 x1 x2 x3 x4) := fun _ _ _ => framed_vec ..
theorem fmulBf16 (x0 x1 x2 x3 x4) : Framed (.fmulBf16 x0 x1 x2 x3 x4) := fun _ _ _ => framed_vec ..
theorem fminBf16 (x0 x1 x2 x3 x4) : Framed (.fminBf16 x0 x1 x2 x3 x4) := fun _ _ _ => framed_vec ..
theorem fmaxBf16 (x0 x1 x2 x3 x4) : Framed (.fmaxBf16 x0 x1 x2 x3 x4) := fun _ _ _ => framed_vec ..
theorem fabsBf16 (x0 x1 x2 x3) : Framed (.fabsBf16 x0 x1 x2 x3) := fun _ _ _ => framed_vec ..
theorem fnegBf16 (x0 x1 x2 x3) : Framed (.fnegBf16 x0 x1 x2 x3) := fun _ _ _ => framed_vec ..
theorem fdivBf16 (x0 x1 x2 x3 x4) : Framed (.fdivBf16 x0 x1 x2 x3 x4) := fun _ _ _ => framed_vec ..
theorem frcpBf16 (x0 x1 x2 x3) : Framed (.frcpBf16 x0 x1 x2 x3) := fun _ _ _ => framed_vec ..
theorem frsqBf16 (x0 x1 x2 x3) : Framed (.frsqBf16 x0 x1 x2 x3) := fun _ _ _ => framed_vec ..
theorem fsqrtBf16 (x0 x1 x2 x3) : Framed (.fsqrtBf16 x0 x1 x2 x3) := fun _ _ _ => framed_vec ..
theorem fexp2Bf16 (x0 x1 x2 x3) : Framed (.fexp2Bf16 x0 x1 x2 x3) := fun _ _ _ => framed_vec ..
theorem flog2Bf16 (x0 x1 x2 x3) : Framed (.flog2Bf16 x0 x1 x2 x3) := fun _ _ _ => framed_vec ..
theorem fsinBf16 (x0 x1 x2 x3) : Framed (.fsinBf16 x0 x1 x2 x3) := fun _ _ _ => framed_vec ..
theorem fcosBf16 (x0 x1 x2 x3) : Framed (.fcosBf16 x0 x1 x2 x3) := fun _ _ _ => framed_vec ..
theorem ffloorBf16 (x0 x1 x2 x3) : Framed (.ffloorBf16 x0 x1 x2 x3) := fun _ _ _ => framed_vec ..
theorem fceilBf16 (x0 x1 x2 x3) : Framed (.fceilBf16 x0 x1 x2 x3) := fun _ _ _ => framed_vec ..
theorem frndBf16 (x0 x1 x2 x3) : Framed (.frndBf16 x0 x1 x2 x3) := fun _ _ _ => framed_vec ..
theorem ffracBf16 (x0 x1 x2 x3) : Framed (.ffracBf16 x0 x1 x2 x3) := fun _ _ _ => framed_vec ..
theorem faddF16x2 (x0 x1 x2 x3 x4) : Framed (.faddF16x2 x0 x1 x2 x3 x4) := fun _ _ _ => framed_vec ..
theorem fsubF16x2 (x0 x1 x2 x3 x4) : Framed (.fsubF16x2 x0 x1 x2 x3 x4) := fun _ _ _ => framed_vec ..
theorem fmulF16x2 (x0 x1 x2 x3 x4) : Framed (.fmulF16x2 x0 x1 x2 x3 x4) := fun _ _ _ => framed_vec ..
theorem fminF16x2 (x0 x1 x2 x3 x4) : Framed (.fminF16x2 x0 x1 x2 x3 x4) := fun _ _ _ => framed_vec ..
theorem fmaxF16x2 (x0 x1 x2 x3 x4) : Framed (.fmaxF16x2 x0 x1 x2 x3 x4) := fun _ _ _ => framed_vec ..
theorem fabsF16x2 (x0 x1 x2 x3) : Framed (.fabsF16x2 x0 x1 x2 x3) := fun _ _ _ => framed_vec ..
theorem fnegF16x2 (x0 x1 x2 x3) : Framed (.fnegF16x2 x0 x1 x2 x3) := fun _ _ _ => framed_vec ..
theorem fdivF16x2 (x0 x1 x2 x3 x4) : Framed (.fdivF16x2 x0 x1 x2 x3 x4) := fun _ _ _ => framed_vec ..
theorem frcpF16x2 (x0 x1 x2 x3) : Framed (.frcpF16x2 x0 x1 x2 x3) := fun _ _ _ => framed_vec ..
theorem frsqF16x2 (x0 x1 x2 x3) : Framed (.frsqF16x2 x0 x1 x2 x3) := fun _ _ _ => framed_vec ..
theorem fsqrtF16x2 (x0 x1 x2 x3) : Framed (.fsqrtF16x2 x0 x1 x2 x3) := fun _ _ _ => framed_vec ..
theorem fexp2F16x2 (x0 x1 x2 x3) : Framed (.fexp2F16x2 x0 x1 x2 x3) := fun _ _ _ => framed_vec ..
theorem flog2F16x2 (x0 x1 x2 x3) : Framed (.flog2F16x2 x0 x1 x2 x3) := fun _ _ _ => framed_vec ..
theorem fsinF16x2 (x0 x1 x2 x3) : Framed (.fsinF16x2 x0 x1 x2 x3) := fun _ _ _ => framed_vec ..
theorem fcosF16x2 (x0 x1 x2 x3) : Framed (.fcosF16x2 x0 x1 x2 x3) := fun _ _ _ => framed_vec ..
theorem ffloorF16x2 (x0 x1 x2 x3) : Framed (.ffloorF16x2 x0 x1 x2 x3) := fun _ _ _ => framed_vec ..
theorem fceilF16x2 (x0 x1 x2 x3) : Framed (.fceilF16x2 x0 x1 x2 x3) := fun _ _ _ => framed_vec ..
theorem frndF16x2 (x0 x1 x2 x3) : Framed (.frndF16x2 x0 x1 x2 x3) := fun _ _ _ => framed_vec ..
theorem ffracF16x2 (x0 x1 x2 x3) : Framed (.ffracF16x2 x0 x1 x2 x3) := fun _ _ _ => framed_vec ..
theorem fcmp (x0 x1 x2 x3 x4 x5) : Framed (.fcmp x0 x1 x2 x3 x4 x5) := fun _ _ _ => framed_quiet ..
theorem cvt (x0 x1 x2 x3 x4 x5) : Framed (.cvt x0 x1 x2 x3 x4 x5) := fun _ _ _ => framed_vec ..
theorem dseedF32 (x0 x1 x2 x3 x4) : Framed (.dseedF32 x0 x1 x2 x3 x4) := fun _ _ _ => framed_vec ..
theorem dseedF64 (x0 x1 x2 x3 x4) : Framed (.dseedF64 x0 x1 x2 x3 x4) := fun _ _ _ => framed_vec ..
theorem dzero (x0 x1 x2 x3) : Framed (.dzero x0 x1 x2 x3) := fun _ _ _ => framed_vec ..
theorem dzero64 (x0 x1 x2 x3) : Framed (.dzero64 x0 x1 x2 x3) := fun _ _ _ => framed_vec ..
theorem dgetF32 (x0 x1 x2 x3 x4) : Framed (.dgetF32 x0 x1 x2 x3 x4) := fun _ _ _ => framed_vec ..
theorem dgetF64 (x0 x1 x2 x3 x4) : Framed (.dgetF64 x0 x1 x2 x3 x4) := fun _ _ _ => framed_vec ..
theorem dputF32 (x0 x1 x2 x3) : Framed (.dputF32 x0 x1 x2 x3) := fun _ _ _ => framed_vec ..
theorem dputF64 (x0 x1 x2 x3) : Framed (.dputF64 x0 x1 x2 x3) := fun _ _ _ => framed_vec ..
theorem deval (x0 x1 x2 x3 x4 x5) : Framed (.deval x0 x1 x2 x3 x4 x5) := fun _ _ _ => framed_vec ..
theorem pcmp (x0 x1 x2 x3 x4 x5 x6) : Framed (.pcmp x0 x1 x2 x3 x4 x5 x6) := fun _ _ _ => framed_quiet ..
theorem pset (x0 x1 x2 x3) : Framed (.pset x0 x1 x2 x3) := fun _ _ _ => framed_quiet ..
theorem pand (x0 x1 x2 x3) : Framed (.pand x0 x1 x2 x3) := fun _ _ _ => framed_quiet ..
theorem por (x0 x1 x2 x3) : Framed (.por x0 x1 x2 x3) := fun _ _ _ => framed_quiet ..
theorem pnot (x0 x1 x2) : Framed (.pnot x0 x1 x2) := fun _ _ _ => framed_quiet ..
theorem pget (x0 x1 x2 x3) : Framed (.pget x0 x1 x2 x3) := fun _ _ _ => framed_vec ..
theorem pgetW (x0 x1 x2 x3) : Framed (.pgetW x0 x1 x2 x3) := fun _ _ _ => framed_vec ..
theorem pput (x0 x1 x2 x3) : Framed (.pput x0 x1 x2 x3) := fun _ _ _ => framed_quiet ..
theorem pcoll (x0 x1 x2) : Framed (.pcoll x0 x1 x2) := fun _ _ _ => framed_draw ..
theorem pblend (x0 x1 x2 x3 x4 x5 x6) : Framed (.pblend x0 x1 x2 x3 x4 x5 x6) := fun _ _ _ => framed_vec ..
theorem psel (x0 x1 x2 x3 x4 x5 x6) : Framed (.psel x0 x1 x2 x3 x4 x5 x6) := fun _ _ _ => framed_vec ..
theorem rkey (x0 x1 x2) : Framed (.rkey x0 x1 x2) := fun _ _ _ => framed_quiet ..
theorem rnextU32 (x0 x1 x2) : Framed (.rnextU32 x0 x1 x2) := fun _ _ _ => framed_draw ..
theorem rnextU64 (x0 x1 x2) : Framed (.rnextU64 x0 x1 x2) := fun _ _ _ => framed_draw ..
theorem rnextF32 (x0 x1 x2) : Framed (.rnextF32 x0 x1 x2) := fun _ _ _ => framed_draw ..
theorem ld (x0 x1 x2 x3 x4) : Framed (.ld x0 x1 x2 x3 x4) := fun _ _ _ => framed_mem ..
theorem st (x0 x1 x2 x3 x4) : Framed (.st x0 x1 x2 x3 x4) := fun _ _ _ => framed_mem ..
theorem ldt (x0 x1 x2 x3 x4 x5) : Framed (.ldt x0 x1 x2 x3 x4 x5) := fun _ _ s => by
  show FramedAs _ s (execLdt x0 x1 x2 x3 x4 x5 s)
  unfold execLdt
  exact framed_mem ..
theorem stt (x0 x1 x2 x3 x4 x5) : Framed (.stt x0 x1 x2 x3 x4 x5) := fun _ _ _ => framed_mem ..
theorem ldd (x0 x1 x2 x3 x4) : Framed (.ldd x0 x1 x2 x3 x4) := fun _ _ s => by
  show FramedAs _ s (execLdd x0 x1 x2 x3 x4 s)
  unfold execLdd
  exact framed_mem ..
theorem std (x0 x1 x2 x3 x4) : Framed (.std x0 x1 x2 x3 x4) := fun _ _ _ => framed_mem ..
theorem lds (x0 x1 x2 x3 x4) : Framed (.lds x0 x1 x2 x3 x4) := fun _ _ _ => framed_frame ..
theorem sts (x0 x1 x2 x3 x4) : Framed (.sts x0 x1 x2 x3 x4) := fun _ _ _ => framed_frame ..
theorem bhdrRd (x0 x1 x2) : Framed (.bhdrRd x0 x1 x2) := fun _ _ _ => framed_mem ..
theorem bhdrWr (x0 x1 x2) : Framed (.bhdrWr x0 x1 x2) := fun _ _ _ => framed_mem ..
theorem pref (x0 x1 x2) : Framed (.pref x0 x1 x2) := fun _ _ s => by
  show FramedAs _ s (execPref x0 x1 x2 s)
  unfold execPref
  exact framed_frame ..
theorem tset (x0 x1 x2) : Framed (.tset x0 x1 x2) := fun _ _ _ => framed_frame ..
theorem tsetClr (x0 x1) : Framed (.tsetClr x0 x1) := fun _ _ _ => framed_frame ..
theorem tstat (x0 x1 x2 x3) : Framed (.tstat x0 x1 x2 x3) := fun _ _ _ => framed_vec ..
theorem atom (x0 x1 x2 x3 x4 x5 x6) : Framed (.atom x0 x1 x2 x3 x4 x5 x6) := fun _ _ _ => framed_frame ..
theorem atomFadd (x0 x1 x2 x3 x4 x5) : Framed (.atomFadd x0 x1 x2 x3 x4 x5) := fun _ _ _ => framed_frame ..
theorem atoms (x0 x1 x2 x3 x4 x5 x6) : Framed (.atoms x0 x1 x2 x3 x4 x5 x6) := fun _ _ _ => framed_frame ..
theorem atomsFadd (x0 x1 x2 x3 x4 x5) : Framed (.atomsFadd x0 x1 x2 x3 x4 x5) := fun _ _ _ => framed_frame ..
theorem acq (x0 x1 x2) : Framed (.acq x0 x1 x2) := fun _ _ _ => framed_frame ..
theorem rel (x0 x1 x2) : Framed (.rel x0 x1 x2) := fun _ _ _ => framed_frame ..
theorem fence (x0) : Framed (.fence x0) := fun _ _ s => by
  show FramedAs _ s (execFence x0 s)
  unfold execFence
  exact framed_frame ..
theorem bind (x0 x1 x2 x3) : Framed (.bind x0 x1 x2 x3) := fun _ _ _ => framed_frame ..
theorem bindClr (x0 x1 x2) : Framed (.bindClr x0 x1 x2) := fun _ _ _ => framed_frame ..
theorem mwait (x0 x1 x2 x3 x4 x5) : Framed (.mwait x0 x1 x2 x3 x4 x5) := fun _ _ _ => framed_frame ..
theorem barArv (x0 x1 x2 x3 x4) : Framed (.barArv x0 x1 x2 x3 x4) := fun _ _ s => by
  show FramedAs _ s (execBarArv x0 x1 x2 x3 x4 s)
  unfold execBarArv
  exact framed_frame ..
theorem barWt (x0 x1) : Framed (.barWt x0 x1) := fun _ _ _ => framed_frame ..
theorem barSyn (x0 x1) : Framed (.barSyn x0 x1) := fun _ _ _ => framed_frame ..
theorem gbar (x0) : Framed (.gbar x0) := fun _ _ _ => framed_frame ..
theorem mbput (x0 x1) : Framed (.mbput x0 x1) := fun _ _ _ => framed_frame ..
theorem mbtake (x0 x1) : Framed (.mbtake x0 x1) := fun _ _ _ => framed_frame ..
theorem bra (x0) : Framed (.bra x0) := fun _ _ _ => framed_frame ..
theorem call (x0) : Framed (.call x0) := fun _ _ _ => framed_frame ..
theorem brq (x0 x1 x2) : Framed (.brq x0 x1 x2) := fun _ _ _ => framed_frame ..
theorem nop (x0) : Framed (.nop x0) := fun _ _ s => by
  show FramedAs _ s (execNop x0 s)
  unfold execNop
  exact framed_frame ..
theorem brx (x0) : Framed (.brx x0) := fun _ _ _ => framed_frame ..
theorem callx (x0) : Framed (.callx x0) := fun _ _ _ => framed_frame ..
theorem ret : Framed (.ret) := fun _ _ _ => framed_frame ..
theorem callj (x0 x1 x2) : Framed (.callj x0 x1 x2) := fun _ _ _ => framed_frame ..
theorem regroup (x0 x1) : Framed (.regroup x0 x1) := fun _ _ _ => framed_frame ..
theorem join (x0 x1) : Framed (.join x0 x1) := fun _ _ s => by
  show FramedAs _ s (execJoin x0 x1 s)
  unfold execJoin
  exact framed_frame ..
theorem leave (x0 x1) : Framed (.leave x0 x1) := fun _ _ s => by
  show FramedAs _ s (execLeave x0 x1 s)
  unfold execLeave
  exact framed_frame ..
theorem waitm (x0) : Framed (.waitm x0) := fun _ _ _ => framed_frame ..
theorem region (x0 x1 x2) : Framed (.region x0 x1 x2) := fun _ _ s => by
  show FramedAs _ s (execRegion x0 x1 x2 s)
  unfold execRegion
  exact framed_frame ..
theorem exit : Framed (.exit) := fun _ _ _ => framed_frame ..
theorem xq (x0) : Framed (.xq x0) := fun _ _ _ => framed_frame ..
theorem xqn (x0) : Framed (.xqn x0) := fun _ _ _ => framed_frame ..
theorem elect (x0 x1) : Framed (.elect x0 x1) := fun _ _ _ => framed_quiet ..
theorem mmissue (x0) : Framed (.mmissue x0) := fun _ _ _ => framed_frame ..
theorem accsv (x0 x1 x2) : Framed (.accsv x0 x1 x2) := fun _ _ _ => framed_frame ..
theorem accld (x0 x1 x2) : Framed (.accld x0 x1 x2) := fun _ _ _ => framed_frame ..
theorem electU (x0 x1 x2) : Framed (.electU x0 x1 x2) := fun _ _ s => by
  show FramedAs _ s (execElectU x0 x1 x2 s)
  unfold execElectU
  exact framed_frame ..
theorem trace (x0 x1 x2) : Framed (.trace x0 x1 x2) := fun _ _ _ => framed_frame ..
theorem tracep (x0 x1 x2) : Framed (.tracep x0 x1 x2) := fun _ _ _ => framed_frame ..
theorem xpair (x0) : Framed (.xpair x0) := fun _ _ _ => framed_frame ..
theorem tres (x0 x1 x2) : Framed (.tres x0 x1 x2) := fun _ _ _ => framed_frame ..
theorem tresAcc (x0 x1 x2) : Framed (.tresAcc x0 x1 x2) := fun _ _ _ => framed_frame ..
theorem tresTerm (x0 x1 x2) : Framed (.tresTerm x0 x1 x2) := fun _ _ _ => framed_frame ..
theorem reproj (x0) : Framed (.reproj x0) := fun _ _ _ => framed_frame ..
theorem fetchw (x0 x1 x2) : Framed (.fetchw x0 x1 x2) := fun _ _ _ => framed_frame ..
theorem launch (x0 x1 x2) : Framed (.launch x0 x1 x2) := fun _ _ _ => framed_frame ..
theorem trap (x0) : Framed (.trap x0) := fun _ _ _ => framed_frame ..
theorem eret : Framed (.eret) := fun _ _ _ => framed_frame ..
theorem gets (x0 x1 x2) : Framed (.gets x0 x1 x2) := fun _ _ s => by
  show FramedAs _ s (execGets x0 x1 x2 s)
  unfold execGets
  exact framed_frame ..
theorem sets (x0 x1 x2) : Framed (.sets x0 x1 x2) := fun _ _ s => by
  show FramedAs _ s (execSets x0 x1 x2 s)
  unfold execSets
  exact framed_frame ..
theorem himm (x0) : Framed (.himm x0) := fun _ h => nomatch h
theorem hsel (x0 x1) : Framed (.hsel x0 x1) := fun _ h => nomatch h
theorem hgrd (x0 x1) : Framed (.hgrd x0 x1) := fun _ h => nomatch h
theorem hrnd (x0) : Framed (.hrnd x0) := fun _ h => nomatch h
theorem hscp (x0) : Framed (.hscp x0) := fun _ h => nomatch h
theorem hcch (x0) : Framed (.hcch x0) := fun _ h => nomatch h
theorem hsch (x0) : Framed (.hsch x0) := fun _ h => nomatch h
theorem pickGroup (x0 x1) : Framed (.pickGroup x0 x1) := fun h => nomatch h
theorem loadDataArrival (x0) : Framed (.loadDataArrival x0) := fun h => nomatch h
theorem faultResolved (x0 x1) : Framed (.faultResolved x0 x1) := fun h => nomatch h
theorem faultUnresolvable (x0 x1 x2) : Framed (.faultUnresolvable x0 x1 x2) := fun h => nomatch h
theorem windowAccessApply (x0 x1) : Framed (.windowAccessApply x0 x1) := fun h => nomatch h
theorem monitorWake (x0 x1) : Framed (.monitorWake x0 x1) := fun h => nomatch h
theorem mailboxWaitMet (x0 x1) : Framed (.mailboxWaitMet x0 x1) := fun h => nomatch h
theorem gangBarrierComplete (x0 x1 x2) : Framed (.gangBarrierComplete x0 x1 x2) := fun h => nomatch h
theorem joinerBatchClose (x0) : Framed (.joinerBatchClose x0) := fun h => nomatch h
theorem joinerMovesComplete (x0) : Framed (.joinerMovesComplete x0) := fun h => nomatch h
theorem preemptRequest (x0) : Framed (.preemptRequest x0) := fun h => nomatch h
theorem preemptTimeout (x0) : Framed (.preemptTimeout x0) := fun h => nomatch h
theorem crewResume (x0) : Framed (.crewResume x0) := fun h => nomatch h
theorem saveAreaSupply (x0 x1) : Framed (.saveAreaSupply x0 x1) := fun h => nomatch h
theorem trapHeld (x0 x1) : Framed (.trapHeld x0 x1) := fun h => nomatch h
theorem trapResume (x0 x1) : Framed (.trapResume x0 x1) := fun h => nomatch h
theorem trapEnter (x0 x1 x2) : Framed (.trapEnter x0 x1 x2) := fun h => nomatch h
theorem trapEnd (x0 x1) : Framed (.trapEnd x0 x1) := fun h => nomatch h
theorem trapAbort (x0 x1) : Framed (.trapAbort x0 x1) := fun h => nomatch h
theorem copyTake (x0) : Framed (.copyTake x0) := fun h => nomatch h
theorem copyComplete (x0 x1) : Framed (.copyComplete x0 x1) := fun h => nomatch h
theorem matrixMma (x0) : Framed (.matrixMma x0) := fun h => nomatch h
theorem matrixWload (x0) : Framed (.matrixWload x0) := fun h => nomatch h
theorem matrixFin (x0) : Framed (.matrixFin x0) := fun h => nomatch h
theorem matrixClr (x0) : Framed (.matrixClr x0) := fun h => nomatch h
theorem accEntryExecute (x0) : Framed (.accEntryExecute x0) := fun h => nomatch h
theorem matrixPassGrant (x0) : Framed (.matrixPassGrant x0) := fun h => nomatch h
theorem multiplierMismatch (x0) : Framed (.multiplierMismatch x0) := fun h => nomatch h
theorem rayEndOrSuspend (x0) : Framed (.rayEndOrSuspend x0) := fun h => nomatch h
theorem rayFaultStop (x0) : Framed (.rayFaultStop x0) := fun h => nomatch h
theorem rayReenter (x0) : Framed (.rayReenter x0) := fun h => nomatch h
theorem xpairComplete (x0) : Framed (.xpairComplete x0) := fun h => nomatch h
theorem reprojOperation (x0) : Framed (.reprojOperation x0) := fun h => nomatch h
theorem fetchwWake (x0 x1) : Framed (.fetchwWake x0 x1) := fun h => nomatch h
theorem doorbell (x0 x1 x2) : Framed (.doorbell x0 x1 x2) := fun h => nomatch h
theorem regw (x0 x1) : Framed (.regw x0 x1) := fun h => nomatch h
theorem regstRead (x0) : Framed (.regstRead x0) := fun h => nomatch h
theorem bar0ReservedWrite (x0 x1 x2) : Framed (.bar0ReservedWrite x0 x1 x2) := fun h => nomatch h
theorem queueDescriptorWrite (x0 x1) : Framed (.queueDescriptorWrite x0 x1) := fun h => nomatch h
theorem packetTake (x0) : Framed (.packetTake x0) := fun h => nomatch h
theorem distributeGang (x0) : Framed (.distributeGang x0) := fun h => nomatch h
theorem placeGang (x0) : Framed (.placeGang x0) := fun h => nomatch h
theorem gridComplete (x0) : Framed (.gridComplete x0) := fun h => nomatch h
theorem graphStart (x0) : Framed (.graphStart x0) := fun h => nomatch h
theorem graphNodeStart (x0 x1) : Framed (.graphNodeStart x0 x1) := fun h => nomatch h
theorem graphMatrixNode (x0 x1) : Framed (.graphMatrixNode x0 x1) := fun h => nomatch h
theorem graphNodeComplete (x0 x1) : Framed (.graphNodeComplete x0 x1) := fun h => nomatch h
theorem remotePayloadReceive (x0 x1 x2 x3) : Framed (.remotePayloadReceive x0 x1 x2 x3) := fun h => nomatch h
theorem peerRegistration (x0 x1) : Framed (.peerRegistration x0 x1) := fun h => nomatch h
theorem peerWake (x0 x1 x2) : Framed (.peerWake x0 x1 x2) := fun h => nomatch h
theorem transportFailure (x0) : Framed (.transportFailure x0) := fun h => nomatch h
theorem collectiveDoorbell (x0 x1) : Framed (.collectiveDoorbell x0 x1) := fun h => nomatch h
theorem collectiveSum (x0) : Framed (.collectiveSum x0) := fun h => nomatch h
theorem collectiveMin (x0) : Framed (.collectiveMin x0) := fun h => nomatch h
theorem collectiveMax (x0) : Framed (.collectiveMax x0) := fun h => nomatch h
theorem collectiveMessage (x0 x1 x2 x3) : Framed (.collectiveMessage x0 x1 x2 x3) := fun h => nomatch h
theorem collectiveCommit (x0) : Framed (.collectiveCommit x0) := fun h => nomatch h
theorem collectiveTimeout (x0 x1) : Framed (.collectiveTimeout x0 x1) := fun h => nomatch h
theorem checkpoint (x0 x1) : Framed (.checkpoint x0 x1) := fun h => nomatch h
theorem checkpointRestore (x0 x1) : Framed (.checkpointRestore x0 x1) := fun h => nomatch h
theorem coldStart (x0 x1) : Framed (.coldStart x0 x1) := fun h => nomatch h
theorem warmStart (x0 x1 x2) : Framed (.warmStart x0 x1 x2) := fun h => nomatch h
theorem startTimeout : Framed (.startTimeout) := fun h => nomatch h
theorem reset : Framed (.reset) := fun h => nomatch h
theorem recover : Framed (.recover) := fun h => nomatch h
theorem softErrorCorrected (x0 x1 x2) : Framed (.softErrorCorrected x0 x1 x2) := fun h => nomatch h
theorem uncorrectableError (x0) : Framed (.uncorrectableError x0) := fun h => nomatch h
theorem attestationRequest (x0 x1) : Framed (.attestationRequest x0 x1) := fun h => nomatch h
theorem powerThermalThrottle : Framed (.powerThermalThrottle) := fun h => nomatch h
theorem clockRestore : Framed (.clockRestore) := fun h => nomatch h
theorem thermalTrip : Framed (.thermalTrip) := fun h => nomatch h
theorem unassignedWord (x0) : Framed (.unassignedWord x0) := fun h => nomatch h
theorem hostDeviceMemoryAccess (x0 x1 x2 x3) : Framed (.hostDeviceMemoryAccess x0 x1 x2 x3) := fun h => nomatch h
theorem gridRemoval (x0) : Framed (.gridRemoval x0) := fun h => nomatch h

end Framed

theorem exec_framed (i : Instr) : Framed i := by
  cases i with
  | iadd x0 x1 x2 x3 x4 => exact Framed.iadd x0 x1 x2 x3 x4
  | isub x0 x1 x2 x3 x4 => exact Framed.isub x0 x1 x2 x3 x4
  | imul x0 x1 x2 x3 x4 => exact Framed.imul x0 x1 x2 x3 x4
  | imulh x0 x1 x2 x3 x4 => exact Framed.imulh x0 x1 x2 x3 x4
  | imulhU x0 x1 x2 x3 x4 => exact Framed.imulhU x0 x1 x2 x3 x4
  | ineg x0 x1 x2 x3 => exact Framed.ineg x0 x1 x2 x3
  | iabs x0 x1 x2 x3 => exact Framed.iabs x0 x1 x2 x3
  | imin x0 x1 x2 x3 x4 => exact Framed.imin x0 x1 x2 x3 x4
  | iminU x0 x1 x2 x3 x4 => exact Framed.iminU x0 x1 x2 x3 x4
  | imax x0 x1 x2 x3 x4 => exact Framed.imax x0 x1 x2 x3 x4
  | imaxU x0 x1 x2 x3 x4 => exact Framed.imaxU x0 x1 x2 x3 x4
  | land x0 x1 x2 x3 x4 => exact Framed.land x0 x1 x2 x3 x4
  | lor x0 x1 x2 x3 x4 => exact Framed.lor x0 x1 x2 x3 x4
  | lxor x0 x1 x2 x3 x4 => exact Framed.lxor x0 x1 x2 x3 x4
  | lnot x0 x1 x2 x3 => exact Framed.lnot x0 x1 x2 x3
  | shl x0 x1 x2 x3 x4 => exact Framed.shl x0 x1 x2 x3 x4
  | shr x0 x1 x2 x3 x4 => exact Framed.shr x0 x1 x2 x3 x4
  | sar x0 x1 x2 x3 x4 => exact Framed.sar x0 x1 x2 x3 x4
  | rot x0 x1 x2 x3 x4 => exact Framed.rot x0 x1 x2 x3 x4
  | popc x0 x1 x2 x3 => exact Framed.popc x0 x1 x2 x3
  | clz x0 x1 x2 x3 => exact Framed.clz x0 x1 x2 x3
  | ctz x0 x1 x2 x3 => exact Framed.ctz x0 x1 x2 x3
  | brev x0 x1 x2 x3 => exact Framed.brev x0 x1 x2 x3
  | mov x0 x1 x2 x3 => exact Framed.mov x0 x1 x2 x3
  | iaddSat x0 x1 x2 x3 x4 => exact Framed.iaddSat x0 x1 x2 x3 x4
  | isubSat x0 x1 x2 x3 x4 => exact Framed.isubSat x0 x1 x2 x3 x4
  | iaddUsat x0 x1 x2 x3 x4 => exact Framed.iaddUsat x0 x1 x2 x3 x4
  | isubUsat x0 x1 x2 x3 x4 => exact Framed.isubUsat x0 x1 x2 x3 x4
  | iadd64 x0 x1 x2 x3 x4 => exact Framed.iadd64 x0 x1 x2 x3 x4
  | isub64 x0 x1 x2 x3 x4 => exact Framed.isub64 x0 x1 x2 x3 x4
  | imul64 x0 x1 x2 x3 x4 => exact Framed.imul64 x0 x1 x2 x3 x4
  | imulh64 x0 x1 x2 x3 x4 => exact Framed.imulh64 x0 x1 x2 x3 x4
  | imulhU64 x0 x1 x2 x3 x4 => exact Framed.imulhU64 x0 x1 x2 x3 x4
  | ineg64 x0 x1 x2 x3 => exact Framed.ineg64 x0 x1 x2 x3
  | iabs64 x0 x1 x2 x3 => exact Framed.iabs64 x0 x1 x2 x3
  | imin64 x0 x1 x2 x3 x4 => exact Framed.imin64 x0 x1 x2 x3 x4
  | iminU64 x0 x1 x2 x3 x4 => exact Framed.iminU64 x0 x1 x2 x3 x4
  | imax64 x0 x1 x2 x3 x4 => exact Framed.imax64 x0 x1 x2 x3 x4
  | imaxU64 x0 x1 x2 x3 x4 => exact Framed.imaxU64 x0 x1 x2 x3 x4
  | land64 x0 x1 x2 x3 x4 => exact Framed.land64 x0 x1 x2 x3 x4
  | lor64 x0 x1 x2 x3 x4 => exact Framed.lor64 x0 x1 x2 x3 x4
  | lxor64 x0 x1 x2 x3 x4 => exact Framed.lxor64 x0 x1 x2 x3 x4
  | lnot64 x0 x1 x2 x3 => exact Framed.lnot64 x0 x1 x2 x3
  | shl64 x0 x1 x2 x3 x4 => exact Framed.shl64 x0 x1 x2 x3 x4
  | shr64 x0 x1 x2 x3 x4 => exact Framed.shr64 x0 x1 x2 x3 x4
  | sar64 x0 x1 x2 x3 x4 => exact Framed.sar64 x0 x1 x2 x3 x4
  | rot64 x0 x1 x2 x3 x4 => exact Framed.rot64 x0 x1 x2 x3 x4
  | popc64 x0 x1 x2 x3 => exact Framed.popc64 x0 x1 x2 x3
  | clz64 x0 x1 x2 x3 => exact Framed.clz64 x0 x1 x2 x3
  | ctz64 x0 x1 x2 x3 => exact Framed.ctz64 x0 x1 x2 x3
  | brev64 x0 x1 x2 x3 => exact Framed.brev64 x0 x1 x2 x3
  | mov64 x0 x1 x2 x3 => exact Framed.mov64 x0 x1 x2 x3
  | iaddSat64 x0 x1 x2 x3 x4 => exact Framed.iaddSat64 x0 x1 x2 x3 x4
  | isubSat64 x0 x1 x2 x3 x4 => exact Framed.isubSat64 x0 x1 x2 x3 x4
  | iaddUsat64 x0 x1 x2 x3 x4 => exact Framed.iaddUsat64 x0 x1 x2 x3 x4
  | isubUsat64 x0 x1 x2 x3 x4 => exact Framed.isubUsat64 x0 x1 x2 x3 x4
  | imad x0 x1 x2 x3 x4 x5 => exact Framed.imad x0 x1 x2 x3 x4 x5
  | imad64 x0 x1 x2 x3 x4 x5 => exact Framed.imad64 x0 x1 x2 x3 x4 x5
  | movi x0 x1 x2 x3 => exact Framed.movi x0 x1 x2 x3
  | lea x0 x1 x2 x3 x4 => exact Framed.lea x0 x1 x2 x3 x4
  | icmp x0 x1 x2 x3 x4 x5 => exact Framed.icmp x0 x1 x2 x3 x4 x5
  | bfi x0 x1 x2 x3 x4 x5 => exact Framed.bfi x0 x1 x2 x3 x4 x5
  | bfxU x0 x1 x2 x3 x4 => exact Framed.bfxU x0 x1 x2 x3 x4
  | bfxS x0 x1 x2 x3 x4 => exact Framed.bfxS x0 x1 x2 x3 x4
  | bffs x0 x1 x2 x3 => exact Framed.bffs x0 x1 x2 x3
  | bffsIdx x0 x1 x2 x3 => exact Framed.bffsIdx x0 x1 x2 x3
  | bfpl x0 x1 x2 x3 x4 => exact Framed.bfpl x0 x1 x2 x3 x4
  | qxchX x0 x1 x2 x3 => exact Framed.qxchX x0 x1 x2 x3
  | qxchY x0 x1 x2 x3 => exact Framed.qxchY x0 x1 x2 x3
  | qxchXy x0 x1 x2 x3 => exact Framed.qxchXy x0 x1 x2 x3
  | qxchBc x0 x1 x2 x3 x4 => exact Framed.qxchBc x0 x1 x2 x3 x4
  | gshuf x0 x1 x2 x3 x4 => exact Framed.gshuf x0 x1 x2 x3 x4
  | gshufXor x0 x1 x2 x3 x4 => exact Framed.gshufXor x0 x1 x2 x3 x4
  | qxchX64 x0 x1 x2 x3 => exact Framed.qxchX64 x0 x1 x2 x3
  | qxchY64 x0 x1 x2 x3 => exact Framed.qxchY64 x0 x1 x2 x3
  | qxchXy64 x0 x1 x2 x3 => exact Framed.qxchXy64 x0 x1 x2 x3
  | qxchBc64 x0 x1 x2 x3 x4 => exact Framed.qxchBc64 x0 x1 x2 x3 x4
  | gshuf64 x0 x1 x2 x3 x4 => exact Framed.gshuf64 x0 x1 x2 x3 x4
  | gshufXor64 x0 x1 x2 x3 x4 => exact Framed.gshufXor64 x0 x1 x2 x3 x4
  | umov x0 x1 x2 => exact Framed.umov x0 x1 x2
  | uadd x0 x1 x2 x3 => exact Framed.uadd x0 x1 x2 x3
  | usub x0 x1 x2 x3 => exact Framed.usub x0 x1 x2 x3
  | umul x0 x1 x2 x3 => exact Framed.umul x0 x1 x2 x3
  | uand x0 x1 x2 x3 => exact Framed.uand x0 x1 x2 x3
  | uor x0 x1 x2 x3 => exact Framed.uor x0 x1 x2 x3
  | uxor x0 x1 x2 x3 => exact Framed.uxor x0 x1 x2 x3
  | ushl x0 x1 x2 x3 => exact Framed.ushl x0 x1 x2 x3
  | ushr x0 x1 x2 x3 => exact Framed.ushr x0 x1 x2 x3
  | usar x0 x1 x2 x3 => exact Framed.usar x0 x1 x2 x3
  | umin x0 x1 x2 x3 => exact Framed.umin x0 x1 x2 x3
  | umax x0 x1 x2 x3 => exact Framed.umax x0 x1 x2 x3
  | umovv x0 x1 x2 => exact Framed.umovv x0 x1 x2
  | umovv64 x0 x1 x2 => exact Framed.umovv64 x0 x1 x2
  | ffmaF32 x0 x1 x2 x3 x4 x5 => exact Framed.ffmaF32 x0 x1 x2 x3 x4 x5
  | ffmaF64 x0 x1 x2 x3 x4 x5 => exact Framed.ffmaF64 x0 x1 x2 x3 x4 x5
  | ffmaF16 x0 x1 x2 x3 x4 x5 => exact Framed.ffmaF16 x0 x1 x2 x3 x4 x5
  | ffmaBf16 x0 x1 x2 x3 x4 x5 => exact Framed.ffmaBf16 x0 x1 x2 x3 x4 x5
  | ffmaF16x2 x0 x1 x2 x3 x4 x5 => exact Framed.ffmaF16x2 x0 x1 x2 x3 x4 x5
  | faddF32 x0 x1 x2 x3 x4 => exact Framed.faddF32 x0 x1 x2 x3 x4
  | fsubF32 x0 x1 x2 x3 x4 => exact Framed.fsubF32 x0 x1 x2 x3 x4
  | fmulF32 x0 x1 x2 x3 x4 => exact Framed.fmulF32 x0 x1 x2 x3 x4
  | fminF32 x0 x1 x2 x3 x4 => exact Framed.fminF32 x0 x1 x2 x3 x4
  | fmaxF32 x0 x1 x2 x3 x4 => exact Framed.fmaxF32 x0 x1 x2 x3 x4
  | fabsF32 x0 x1 x2 x3 => exact Framed.fabsF32 x0 x1 x2 x3
  | fnegF32 x0 x1 x2 x3 => exact Framed.fnegF32 x0 x1 x2 x3
  | fdivF32 x0 x1 x2 x3 x4 => exact Framed.fdivF32 x0 x1 x2 x3 x4
  | frcpF32 x0 x1 x2 x3 => exact Framed.frcpF32 x0 x1 x2 x3
  | frsqF32 x0 x1 x2 x3 => exact Framed.frsqF32 x0 x1 x2 x3
  | fsqrtF32 x0 x1 x2 x3 => exact Framed.fsqrtF32 x0 x1 x2 x3
  | fexp2F32 x0 x1 x2 x3 => exact Framed.fexp2F32 x0 x1 x2 x3
  | flog2F32 x0 x1 x2 x3 => exact Framed.flog2F32 x0 x1 x2 x3
  | fsinF32 x0 x1 x2 x3 => exact Framed.fsinF32 x0 x1 x2 x3
  | fcosF32 x0 x1 x2 x3 => exact Framed.fcosF32 x0 x1 x2 x3
  | ffloorF32 x0 x1 x2 x3 => exact Framed.ffloorF32 x0 x1 x2 x3
  | fceilF32 x0 x1 x2 x3 => exact Framed.fceilF32 x0 x1 x2 x3
  | frndF32 x0 x1 x2 x3 => exact Framed.frndF32 x0 x1 x2 x3
  | ffracF32 x0 x1 x2 x3 => exact Framed.ffracF32 x0 x1 x2 x3
  | faddF64 x0 x1 x2 x3 x4 => exact Framed.faddF64 x0 x1 x2 x3 x4
  | fsubF64 x0 x1 x2 x3 x4 => exact Framed.fsubF64 x0 x1 x2 x3 x4
  | fmulF64 x0 x1 x2 x3 x4 => exact Framed.fmulF64 x0 x1 x2 x3 x4
  | fminF64 x0 x1 x2 x3 x4 => exact Framed.fminF64 x0 x1 x2 x3 x4
  | fmaxF64 x0 x1 x2 x3 x4 => exact Framed.fmaxF64 x0 x1 x2 x3 x4
  | fabsF64 x0 x1 x2 x3 => exact Framed.fabsF64 x0 x1 x2 x3
  | fnegF64 x0 x1 x2 x3 => exact Framed.fnegF64 x0 x1 x2 x3
  | fdivF64 x0 x1 x2 x3 x4 => exact Framed.fdivF64 x0 x1 x2 x3 x4
  | frcpF64 x0 x1 x2 x3 => exact Framed.frcpF64 x0 x1 x2 x3
  | frsqF64 x0 x1 x2 x3 => exact Framed.frsqF64 x0 x1 x2 x3
  | fsqrtF64 x0 x1 x2 x3 => exact Framed.fsqrtF64 x0 x1 x2 x3
  | fexp2F64 x0 x1 x2 x3 => exact Framed.fexp2F64 x0 x1 x2 x3
  | flog2F64 x0 x1 x2 x3 => exact Framed.flog2F64 x0 x1 x2 x3
  | fsinF64 x0 x1 x2 x3 => exact Framed.fsinF64 x0 x1 x2 x3
  | fcosF64 x0 x1 x2 x3 => exact Framed.fcosF64 x0 x1 x2 x3
  | ffloorF64 x0 x1 x2 x3 => exact Framed.ffloorF64 x0 x1 x2 x3
  | fceilF64 x0 x1 x2 x3 => exact Framed.fceilF64 x0 x1 x2 x3
  | frndF64 x0 x1 x2 x3 => exact Framed.frndF64 x0 x1 x2 x3
  | ffracF64 x0 x1 x2 x3 => exact Framed.ffracF64 x0 x1 x2 x3
  | faddF16 x0 x1 x2 x3 x4 => exact Framed.faddF16 x0 x1 x2 x3 x4
  | fsubF16 x0 x1 x2 x3 x4 => exact Framed.fsubF16 x0 x1 x2 x3 x4
  | fmulF16 x0 x1 x2 x3 x4 => exact Framed.fmulF16 x0 x1 x2 x3 x4
  | fminF16 x0 x1 x2 x3 x4 => exact Framed.fminF16 x0 x1 x2 x3 x4
  | fmaxF16 x0 x1 x2 x3 x4 => exact Framed.fmaxF16 x0 x1 x2 x3 x4
  | fabsF16 x0 x1 x2 x3 => exact Framed.fabsF16 x0 x1 x2 x3
  | fnegF16 x0 x1 x2 x3 => exact Framed.fnegF16 x0 x1 x2 x3
  | fdivF16 x0 x1 x2 x3 x4 => exact Framed.fdivF16 x0 x1 x2 x3 x4
  | frcpF16 x0 x1 x2 x3 => exact Framed.frcpF16 x0 x1 x2 x3
  | frsqF16 x0 x1 x2 x3 => exact Framed.frsqF16 x0 x1 x2 x3
  | fsqrtF16 x0 x1 x2 x3 => exact Framed.fsqrtF16 x0 x1 x2 x3
  | fexp2F16 x0 x1 x2 x3 => exact Framed.fexp2F16 x0 x1 x2 x3
  | flog2F16 x0 x1 x2 x3 => exact Framed.flog2F16 x0 x1 x2 x3
  | fsinF16 x0 x1 x2 x3 => exact Framed.fsinF16 x0 x1 x2 x3
  | fcosF16 x0 x1 x2 x3 => exact Framed.fcosF16 x0 x1 x2 x3
  | ffloorF16 x0 x1 x2 x3 => exact Framed.ffloorF16 x0 x1 x2 x3
  | fceilF16 x0 x1 x2 x3 => exact Framed.fceilF16 x0 x1 x2 x3
  | frndF16 x0 x1 x2 x3 => exact Framed.frndF16 x0 x1 x2 x3
  | ffracF16 x0 x1 x2 x3 => exact Framed.ffracF16 x0 x1 x2 x3
  | faddBf16 x0 x1 x2 x3 x4 => exact Framed.faddBf16 x0 x1 x2 x3 x4
  | fsubBf16 x0 x1 x2 x3 x4 => exact Framed.fsubBf16 x0 x1 x2 x3 x4
  | fmulBf16 x0 x1 x2 x3 x4 => exact Framed.fmulBf16 x0 x1 x2 x3 x4
  | fminBf16 x0 x1 x2 x3 x4 => exact Framed.fminBf16 x0 x1 x2 x3 x4
  | fmaxBf16 x0 x1 x2 x3 x4 => exact Framed.fmaxBf16 x0 x1 x2 x3 x4
  | fabsBf16 x0 x1 x2 x3 => exact Framed.fabsBf16 x0 x1 x2 x3
  | fnegBf16 x0 x1 x2 x3 => exact Framed.fnegBf16 x0 x1 x2 x3
  | fdivBf16 x0 x1 x2 x3 x4 => exact Framed.fdivBf16 x0 x1 x2 x3 x4
  | frcpBf16 x0 x1 x2 x3 => exact Framed.frcpBf16 x0 x1 x2 x3
  | frsqBf16 x0 x1 x2 x3 => exact Framed.frsqBf16 x0 x1 x2 x3
  | fsqrtBf16 x0 x1 x2 x3 => exact Framed.fsqrtBf16 x0 x1 x2 x3
  | fexp2Bf16 x0 x1 x2 x3 => exact Framed.fexp2Bf16 x0 x1 x2 x3
  | flog2Bf16 x0 x1 x2 x3 => exact Framed.flog2Bf16 x0 x1 x2 x3
  | fsinBf16 x0 x1 x2 x3 => exact Framed.fsinBf16 x0 x1 x2 x3
  | fcosBf16 x0 x1 x2 x3 => exact Framed.fcosBf16 x0 x1 x2 x3
  | ffloorBf16 x0 x1 x2 x3 => exact Framed.ffloorBf16 x0 x1 x2 x3
  | fceilBf16 x0 x1 x2 x3 => exact Framed.fceilBf16 x0 x1 x2 x3
  | frndBf16 x0 x1 x2 x3 => exact Framed.frndBf16 x0 x1 x2 x3
  | ffracBf16 x0 x1 x2 x3 => exact Framed.ffracBf16 x0 x1 x2 x3
  | faddF16x2 x0 x1 x2 x3 x4 => exact Framed.faddF16x2 x0 x1 x2 x3 x4
  | fsubF16x2 x0 x1 x2 x3 x4 => exact Framed.fsubF16x2 x0 x1 x2 x3 x4
  | fmulF16x2 x0 x1 x2 x3 x4 => exact Framed.fmulF16x2 x0 x1 x2 x3 x4
  | fminF16x2 x0 x1 x2 x3 x4 => exact Framed.fminF16x2 x0 x1 x2 x3 x4
  | fmaxF16x2 x0 x1 x2 x3 x4 => exact Framed.fmaxF16x2 x0 x1 x2 x3 x4
  | fabsF16x2 x0 x1 x2 x3 => exact Framed.fabsF16x2 x0 x1 x2 x3
  | fnegF16x2 x0 x1 x2 x3 => exact Framed.fnegF16x2 x0 x1 x2 x3
  | fdivF16x2 x0 x1 x2 x3 x4 => exact Framed.fdivF16x2 x0 x1 x2 x3 x4
  | frcpF16x2 x0 x1 x2 x3 => exact Framed.frcpF16x2 x0 x1 x2 x3
  | frsqF16x2 x0 x1 x2 x3 => exact Framed.frsqF16x2 x0 x1 x2 x3
  | fsqrtF16x2 x0 x1 x2 x3 => exact Framed.fsqrtF16x2 x0 x1 x2 x3
  | fexp2F16x2 x0 x1 x2 x3 => exact Framed.fexp2F16x2 x0 x1 x2 x3
  | flog2F16x2 x0 x1 x2 x3 => exact Framed.flog2F16x2 x0 x1 x2 x3
  | fsinF16x2 x0 x1 x2 x3 => exact Framed.fsinF16x2 x0 x1 x2 x3
  | fcosF16x2 x0 x1 x2 x3 => exact Framed.fcosF16x2 x0 x1 x2 x3
  | ffloorF16x2 x0 x1 x2 x3 => exact Framed.ffloorF16x2 x0 x1 x2 x3
  | fceilF16x2 x0 x1 x2 x3 => exact Framed.fceilF16x2 x0 x1 x2 x3
  | frndF16x2 x0 x1 x2 x3 => exact Framed.frndF16x2 x0 x1 x2 x3
  | ffracF16x2 x0 x1 x2 x3 => exact Framed.ffracF16x2 x0 x1 x2 x3
  | fcmp x0 x1 x2 x3 x4 x5 => exact Framed.fcmp x0 x1 x2 x3 x4 x5
  | cvt x0 x1 x2 x3 x4 x5 => exact Framed.cvt x0 x1 x2 x3 x4 x5
  | dseedF32 x0 x1 x2 x3 x4 => exact Framed.dseedF32 x0 x1 x2 x3 x4
  | dseedF64 x0 x1 x2 x3 x4 => exact Framed.dseedF64 x0 x1 x2 x3 x4
  | dzero x0 x1 x2 x3 => exact Framed.dzero x0 x1 x2 x3
  | dzero64 x0 x1 x2 x3 => exact Framed.dzero64 x0 x1 x2 x3
  | dgetF32 x0 x1 x2 x3 x4 => exact Framed.dgetF32 x0 x1 x2 x3 x4
  | dgetF64 x0 x1 x2 x3 x4 => exact Framed.dgetF64 x0 x1 x2 x3 x4
  | dputF32 x0 x1 x2 x3 => exact Framed.dputF32 x0 x1 x2 x3
  | dputF64 x0 x1 x2 x3 => exact Framed.dputF64 x0 x1 x2 x3
  | deval x0 x1 x2 x3 x4 x5 => exact Framed.deval x0 x1 x2 x3 x4 x5
  | pcmp x0 x1 x2 x3 x4 x5 x6 => exact Framed.pcmp x0 x1 x2 x3 x4 x5 x6
  | pset x0 x1 x2 x3 => exact Framed.pset x0 x1 x2 x3
  | pand x0 x1 x2 x3 => exact Framed.pand x0 x1 x2 x3
  | por x0 x1 x2 x3 => exact Framed.por x0 x1 x2 x3
  | pnot x0 x1 x2 => exact Framed.pnot x0 x1 x2
  | pget x0 x1 x2 x3 => exact Framed.pget x0 x1 x2 x3
  | pgetW x0 x1 x2 x3 => exact Framed.pgetW x0 x1 x2 x3
  | pput x0 x1 x2 x3 => exact Framed.pput x0 x1 x2 x3
  | pcoll x0 x1 x2 => exact Framed.pcoll x0 x1 x2
  | pblend x0 x1 x2 x3 x4 x5 x6 => exact Framed.pblend x0 x1 x2 x3 x4 x5 x6
  | psel x0 x1 x2 x3 x4 x5 x6 => exact Framed.psel x0 x1 x2 x3 x4 x5 x6
  | rkey x0 x1 x2 => exact Framed.rkey x0 x1 x2
  | rnextU32 x0 x1 x2 => exact Framed.rnextU32 x0 x1 x2
  | rnextU64 x0 x1 x2 => exact Framed.rnextU64 x0 x1 x2
  | rnextF32 x0 x1 x2 => exact Framed.rnextF32 x0 x1 x2
  | ld x0 x1 x2 x3 x4 => exact Framed.ld x0 x1 x2 x3 x4
  | st x0 x1 x2 x3 x4 => exact Framed.st x0 x1 x2 x3 x4
  | ldt x0 x1 x2 x3 x4 x5 => exact Framed.ldt x0 x1 x2 x3 x4 x5
  | stt x0 x1 x2 x3 x4 x5 => exact Framed.stt x0 x1 x2 x3 x4 x5
  | ldd x0 x1 x2 x3 x4 => exact Framed.ldd x0 x1 x2 x3 x4
  | std x0 x1 x2 x3 x4 => exact Framed.std x0 x1 x2 x3 x4
  | lds x0 x1 x2 x3 x4 => exact Framed.lds x0 x1 x2 x3 x4
  | sts x0 x1 x2 x3 x4 => exact Framed.sts x0 x1 x2 x3 x4
  | bhdrRd x0 x1 x2 => exact Framed.bhdrRd x0 x1 x2
  | bhdrWr x0 x1 x2 => exact Framed.bhdrWr x0 x1 x2
  | pref x0 x1 x2 => exact Framed.pref x0 x1 x2
  | tset x0 x1 x2 => exact Framed.tset x0 x1 x2
  | tsetClr x0 x1 => exact Framed.tsetClr x0 x1
  | tstat x0 x1 x2 x3 => exact Framed.tstat x0 x1 x2 x3
  | atom x0 x1 x2 x3 x4 x5 x6 => exact Framed.atom x0 x1 x2 x3 x4 x5 x6
  | atomFadd x0 x1 x2 x3 x4 x5 => exact Framed.atomFadd x0 x1 x2 x3 x4 x5
  | atoms x0 x1 x2 x3 x4 x5 x6 => exact Framed.atoms x0 x1 x2 x3 x4 x5 x6
  | atomsFadd x0 x1 x2 x3 x4 x5 => exact Framed.atomsFadd x0 x1 x2 x3 x4 x5
  | acq x0 x1 x2 => exact Framed.acq x0 x1 x2
  | rel x0 x1 x2 => exact Framed.rel x0 x1 x2
  | fence x0 => exact Framed.fence x0
  | bind x0 x1 x2 x3 => exact Framed.bind x0 x1 x2 x3
  | bindClr x0 x1 x2 => exact Framed.bindClr x0 x1 x2
  | mwait x0 x1 x2 x3 x4 x5 => exact Framed.mwait x0 x1 x2 x3 x4 x5
  | barArv x0 x1 x2 x3 x4 => exact Framed.barArv x0 x1 x2 x3 x4
  | barWt x0 x1 => exact Framed.barWt x0 x1
  | barSyn x0 x1 => exact Framed.barSyn x0 x1
  | gbar x0 => exact Framed.gbar x0
  | mbput x0 x1 => exact Framed.mbput x0 x1
  | mbtake x0 x1 => exact Framed.mbtake x0 x1
  | bra x0 => exact Framed.bra x0
  | call x0 => exact Framed.call x0
  | brq x0 x1 x2 => exact Framed.brq x0 x1 x2
  | nop x0 => exact Framed.nop x0
  | brx x0 => exact Framed.brx x0
  | callx x0 => exact Framed.callx x0
  | ret => exact Framed.ret
  | callj x0 x1 x2 => exact Framed.callj x0 x1 x2
  | regroup x0 x1 => exact Framed.regroup x0 x1
  | join x0 x1 => exact Framed.join x0 x1
  | leave x0 x1 => exact Framed.leave x0 x1
  | waitm x0 => exact Framed.waitm x0
  | region x0 x1 x2 => exact Framed.region x0 x1 x2
  | exit => exact Framed.exit
  | xq x0 => exact Framed.xq x0
  | xqn x0 => exact Framed.xqn x0
  | elect x0 x1 => exact Framed.elect x0 x1
  | mmissue x0 => exact Framed.mmissue x0
  | accsv x0 x1 x2 => exact Framed.accsv x0 x1 x2
  | accld x0 x1 x2 => exact Framed.accld x0 x1 x2
  | electU x0 x1 x2 => exact Framed.electU x0 x1 x2
  | trace x0 x1 x2 => exact Framed.trace x0 x1 x2
  | tracep x0 x1 x2 => exact Framed.tracep x0 x1 x2
  | xpair x0 => exact Framed.xpair x0
  | tres x0 x1 x2 => exact Framed.tres x0 x1 x2
  | tresAcc x0 x1 x2 => exact Framed.tresAcc x0 x1 x2
  | tresTerm x0 x1 x2 => exact Framed.tresTerm x0 x1 x2
  | reproj x0 => exact Framed.reproj x0
  | fetchw x0 x1 x2 => exact Framed.fetchw x0 x1 x2
  | launch x0 x1 x2 => exact Framed.launch x0 x1 x2
  | trap x0 => exact Framed.trap x0
  | eret => exact Framed.eret
  | gets x0 x1 x2 => exact Framed.gets x0 x1 x2
  | sets x0 x1 x2 => exact Framed.sets x0 x1 x2
  | himm x0 => exact Framed.himm x0
  | hsel x0 x1 => exact Framed.hsel x0 x1
  | hgrd x0 x1 => exact Framed.hgrd x0 x1
  | hrnd x0 => exact Framed.hrnd x0
  | hscp x0 => exact Framed.hscp x0
  | hcch x0 => exact Framed.hcch x0
  | hsch x0 => exact Framed.hsch x0
  | pickGroup x0 x1 => exact Framed.pickGroup x0 x1
  | loadDataArrival x0 => exact Framed.loadDataArrival x0
  | faultResolved x0 x1 => exact Framed.faultResolved x0 x1
  | faultUnresolvable x0 x1 x2 => exact Framed.faultUnresolvable x0 x1 x2
  | windowAccessApply x0 x1 => exact Framed.windowAccessApply x0 x1
  | monitorWake x0 x1 => exact Framed.monitorWake x0 x1
  | mailboxWaitMet x0 x1 => exact Framed.mailboxWaitMet x0 x1
  | gangBarrierComplete x0 x1 x2 => exact Framed.gangBarrierComplete x0 x1 x2
  | joinerBatchClose x0 => exact Framed.joinerBatchClose x0
  | joinerMovesComplete x0 => exact Framed.joinerMovesComplete x0
  | preemptRequest x0 => exact Framed.preemptRequest x0
  | preemptTimeout x0 => exact Framed.preemptTimeout x0
  | crewResume x0 => exact Framed.crewResume x0
  | saveAreaSupply x0 x1 => exact Framed.saveAreaSupply x0 x1
  | trapHeld x0 x1 => exact Framed.trapHeld x0 x1
  | trapResume x0 x1 => exact Framed.trapResume x0 x1
  | trapEnter x0 x1 x2 => exact Framed.trapEnter x0 x1 x2
  | trapEnd x0 x1 => exact Framed.trapEnd x0 x1
  | trapAbort x0 x1 => exact Framed.trapAbort x0 x1
  | copyTake x0 => exact Framed.copyTake x0
  | copyComplete x0 x1 => exact Framed.copyComplete x0 x1
  | matrixMma x0 => exact Framed.matrixMma x0
  | matrixWload x0 => exact Framed.matrixWload x0
  | matrixFin x0 => exact Framed.matrixFin x0
  | matrixClr x0 => exact Framed.matrixClr x0
  | accEntryExecute x0 => exact Framed.accEntryExecute x0
  | matrixPassGrant x0 => exact Framed.matrixPassGrant x0
  | multiplierMismatch x0 => exact Framed.multiplierMismatch x0
  | rayEndOrSuspend x0 => exact Framed.rayEndOrSuspend x0
  | rayFaultStop x0 => exact Framed.rayFaultStop x0
  | rayReenter x0 => exact Framed.rayReenter x0
  | xpairComplete x0 => exact Framed.xpairComplete x0
  | reprojOperation x0 => exact Framed.reprojOperation x0
  | fetchwWake x0 x1 => exact Framed.fetchwWake x0 x1
  | doorbell x0 x1 x2 => exact Framed.doorbell x0 x1 x2
  | regw x0 x1 => exact Framed.regw x0 x1
  | regstRead x0 => exact Framed.regstRead x0
  | bar0ReservedWrite x0 x1 x2 => exact Framed.bar0ReservedWrite x0 x1 x2
  | queueDescriptorWrite x0 x1 => exact Framed.queueDescriptorWrite x0 x1
  | packetTake x0 => exact Framed.packetTake x0
  | distributeGang x0 => exact Framed.distributeGang x0
  | placeGang x0 => exact Framed.placeGang x0
  | gridComplete x0 => exact Framed.gridComplete x0
  | graphStart x0 => exact Framed.graphStart x0
  | graphNodeStart x0 x1 => exact Framed.graphNodeStart x0 x1
  | graphMatrixNode x0 x1 => exact Framed.graphMatrixNode x0 x1
  | graphNodeComplete x0 x1 => exact Framed.graphNodeComplete x0 x1
  | remotePayloadReceive x0 x1 x2 x3 => exact Framed.remotePayloadReceive x0 x1 x2 x3
  | peerRegistration x0 x1 => exact Framed.peerRegistration x0 x1
  | peerWake x0 x1 x2 => exact Framed.peerWake x0 x1 x2
  | transportFailure x0 => exact Framed.transportFailure x0
  | collectiveDoorbell x0 x1 => exact Framed.collectiveDoorbell x0 x1
  | collectiveSum x0 => exact Framed.collectiveSum x0
  | collectiveMin x0 => exact Framed.collectiveMin x0
  | collectiveMax x0 => exact Framed.collectiveMax x0
  | collectiveMessage x0 x1 x2 x3 => exact Framed.collectiveMessage x0 x1 x2 x3
  | collectiveCommit x0 => exact Framed.collectiveCommit x0
  | collectiveTimeout x0 x1 => exact Framed.collectiveTimeout x0 x1
  | checkpoint x0 x1 => exact Framed.checkpoint x0 x1
  | checkpointRestore x0 x1 => exact Framed.checkpointRestore x0 x1
  | coldStart x0 x1 => exact Framed.coldStart x0 x1
  | warmStart x0 x1 x2 => exact Framed.warmStart x0 x1 x2
  | startTimeout => exact Framed.startTimeout
  | reset => exact Framed.reset
  | recover => exact Framed.recover
  | softErrorCorrected x0 x1 x2 => exact Framed.softErrorCorrected x0 x1 x2
  | uncorrectableError x0 => exact Framed.uncorrectableError x0
  | attestationRequest x0 x1 => exact Framed.attestationRequest x0 x1
  | powerThermalThrottle => exact Framed.powerThermalThrottle
  | clockRestore => exact Framed.clockRestore
  | thermalTrip => exact Framed.thermalTrip
  | unassignedWord x0 => exact Framed.unassignedWord x0
  | hostDeviceMemoryAccess x0 x1 x2 x3 => exact Framed.hostDeviceMemoryAccess x0 x1 x2 x3
  | gridRemoval x0 => exact Framed.gridRemoval x0

end Sys2Proof.Machine
end

