-- ==== Sys2Proof/Laws/InCrew.lean ====
section
/-!
SUPPORT. What a word leaves alone that changes its crew and its issue slot only.
-/

namespace Sys2Proof.Machine

open Sys2Proof

/-- From `s` to `t`, the crew of the word `c` and its core have changed, and nothing else; the slot still holds a group
of that crew, or none. -/
structure InCrew (c : Ctx) (s t : State) : Prop where
  rest : t = { s with crews := t.crews, cores := t.cores }
  crews : ∀ i, i ≠ c.ci → t.crews[i]? = s.crews[i]?
  cores : ∀ k, k ≠ c.core → t.cores[k]? = s.cores[k]?
  group : ∀ k g, t.cores[c.core]? = some k → k.slots[c.slot]? = some (some g) → g.crew = c.ci
  cur : t.cur = (c.core, c.slot)

theorem modify_ne {α : Type} (l : List α) (f : α → α) {i j : Nat} (h : i ≠ j) : (l.modify j f)[i]? = l[i]? := by
  rw [List.getElem?_modify]
  simp [Ne.symm h]

namespace InCrew

variable {c : Ctx} {s t : State}

theorem refl (h : s.ctx? = some c) : InCrew c s s := by
  refine ⟨rfl, fun _ _ => rfl, fun _ _ => rfl, fun k g hk hg => ?_, (ctx_some h).1⟩
  obtain ⟨k', hk', hg'⟩ := ctx_slot h
  rw [hk] at hk'
  cases hk'
  rw [hg] at hg'
  cases hg'
  rfl

theorem updCrew (h : InCrew c s t) (f : Crew → Crew) : InCrew c s (t.updCrew c.ci f) :=
  ⟨by rw [h.rest]; rfl, fun i hi => (modify_ne _ _ hi).trans (h.crews i hi), h.cores, h.group, h.cur⟩

theorem mapLanes (h : InCrew c s t) (f : Nat → Lane → Lane) : InCrew c s (t.mapLanes c.ci f) := h.updCrew _

theorem updThread (h : InCrew c s t) (p : Nat) (f : Thread → Thread) : InCrew c s (t.updThread c.ci p f) := h.updCrew _

theorem setPcs (h : InCrew c s t) : InCrew c s (setPcs c t) := h.mapLanes _

/-- A change of the word's slot that puts no other crew's group there. -/
theorem updSlot (h : InCrew c s t) (f : Core → Core)
    (hf : ∀ k g, (f k).slots[c.slot]? = some (some g) → ∃ g', k.slots[c.slot]? = some (some g') ∧ g.crew = g'.crew) :
    InCrew c s (t.updCore c.core f) := by
  refine ⟨by rw [h.rest]; rfl, h.crews, fun k hk => (modify_ne _ _ hk).trans (h.cores k hk), fun k g hk hg => ?_, h.cur⟩
  have hk' : (t.cores.modify c.core f)[c.core]? = some k := hk
  rw [List.getElem?_modify] at hk'
  cases hc : t.cores[c.core]? with
  | none => simp [hc] at hk'
  | some k0 =>
    simp [hc] at hk'
    subst hk'
    obtain ⟨g', h1, h2⟩ := hf k0 g hg
    rw [h2]
    exact h.group k0 g' hc h1

theorem updGroup (h : InCrew c s t) (f : Group → Group) (hf : ∀ g, (f g).crew = g.crew) :
    InCrew c s (t.updGroup c.core c.slot f) := by
  refine h.updSlot _ fun k g hg => ?_
  simp only [List.getElem?_modify, if_true] at hg
  cases hs : k.slots[c.slot]? with
  | none => simp [hs] at hg
  | some o =>
    cases o with
    | none => simp [hs] at hg
    | some g' =>
      simp [hs] at hg
      exact ⟨g', rfl, by rw [← hg, hf]⟩

theorem clearSlot (h : InCrew c s t) : InCrew c s (t.clearSlot c.core c.slot) := by
  refine h.updSlot _ fun k g hg => ?_
  simp only [List.getElem?_set, if_true] at hg
  split at hg <;> simp at hg

/-- The group in the current slot is of the crew. -/
theorem curGroup (h : InCrew c s t) {g : Group} (hg : t.curGroup? = some g) : g.crew = c.ci := by
  simp only [State.curGroup?, h.cur, State.group?, State.core] at hg
  cases hk : t.cores[c.core]? with
  | none =>
    have : t.cores.getD c.core Core.reset = Core.reset := by simp [List.getD, hk]
    rw [this] at hg
    exfalso
    revert hg
    simp only [Core.reset, List.getElem?_replicate]
    split <;> simp
  | some k =>
    have : t.cores.getD c.core Core.reset = k := by simp [List.getD, hk]
    rw [this] at hg
    cases hs : k.slots[c.slot]? with
    | none => simp [hs] at hg
    | some o => simp [hs] at hg; exact h.group k g hk (by rw [hs, hg])

theorem leave (h : InCrew c s t) (u : Nat) : InCrew c s (t.leave u) := by
  unfold State.leave
  rw [h.cur]
  exact h.updGroup _ fun _ => rfl

theorem trapLane (h : InCrew c s t) (u : Nat) (tr : Trap) (a pc : BitVec 56) : InCrew c s (t.trapLane u tr a pc) := by
  unfold State.trapLane
  cases hg : t.curGroup? with
  | none => exact h
  | some g =>
    simp only
    rw [h.curGroup hg]
    split
    · exact h
    · exact (h.updThread _ _).leave _

theorem parkLane (h : InCrew c s t) (u : Nat) (p : Park) (pc cont : BitVec 56) : InCrew c s (t.parkLane u p pc cont) := by
  unfold State.parkLane
  cases hg : t.curGroup? with
  | none => exact h
  | some g =>
    simp only
    rw [h.curGroup hg]
    split
    · exact h
    · exact (h.updThread _ _).leave _

theorem trapAll (h : InCrew c s t) (tr : Trap) (pc : BitVec 56) : InCrew c s (trapAll c tr pc t) := (h.mapLanes _).clearSlot

theorem commit (h : InCrew c s t) (n : Bool) (d : Code) (wide pushes : Bool) (f : Nat → LaneOut) :
    InCrew c s (commit n d wide pushes f c t) := (h.mapLanes _).updGroup _ fun _ => rfl

theorem steer (h : InCrew c s t) (f : Ctx → Nat → Thread → Thread × Bool) : InCrew c s (steer f c t) :=
  (h.mapLanes _).updGroup _ fun _ => rfl

/-- A word taken lane by lane. -/
theorem eachLane (h : InCrew c s t) (p : Nat → Bool) (f : State → Nat → State)
    (hf : ∀ x u, InCrew c s x → InCrew c s (f x u)) : InCrew c s (eachLane p f t) := by
  unfold Machine.eachLane
  generalize (List.range 16).filter p = us
  induction us generalizing t with
  | nil => exact h
  | cons u us ih => exact ih (hf t u h)

theorem endRun (h : InCrew c s t) : InCrew c s (endRun t) := by
  unfold Machine.endRun
  split
  · exact h
  · rename_i c' hc
    obtain ⟨h1, h2, _⟩ := ctx_some hc
    have e1 : c'.core = c.core ∧ c'.slot = c.slot := by
      have := h.cur
      rw [h1] at this
      exact ⟨congrArg Prod.fst this, congrArg Prod.snd this⟩
    have e2 : c'.ci = c.ci := h.curGroup (by rw [State.curGroup?, h1]; exact h2)
    rw [e2, e1.1, e1.2]
    exact (h.mapLanes _).clearSlot

theorem finish (h : InCrew c s t) (last : Bool) : InCrew c s (finish last t) := by
  unfold Machine.finish
  split
  · exact h
  · split
    · exact h.endRun
    · split
      · rw [h.cur]; exact h.updGroup _ fun _ => rfl
      · rw [h.cur]; exact h.clearSlot

end InCrew

/-- A word whose effect stays in its crew and its slot, whatever becomes of it. -/
theorem frameWith_inCrew {i : WordInfo} {s t : State} {c : Ctx} {short : Ctx → Bool} {eff : Ctx → State → State}
    (h : s.ctx? = some c) (he : ∀ x, InCrew c s x → InCrew c s (eff c x)) (ho : frameWith i s short eff = .next t) :
    InCrew c s t := by
  have hr := InCrew.refl h
  unfold frameWith at ho
  simp only [h] at ho
  split at ho
  · cases ho; exact hr.trapAll _ _
  · split at ho
    · cases ho; exact hr
    · cases ho
      refine (he _ ?_).finish _
      split
      · exact hr.setPcs
      · exact hr

end Sys2Proof.Machine
end

