-- ==== Sys2Proof/Laws/Lanes.lean ====
section
/-!
SUPPORT. Words that take effect lane by lane: the fold over the lanes, what it keeps, and the small facts about the
state that every lane meets.
-/

namespace Sys2Proof.Machine

/-! ### The fold -/

theorem range_filter_succ (p : Nat → Bool) (t : Nat) :
    (List.range (t + 1)).filter p = (List.range t).filter p ++ if p t then [t] else [] := by
  rw [List.range_succ, List.filter_append]
  cases h : p t <;> simp [h]

theorem metBy_succ (c : Ctx) (last : Bool) (p : Nat → Bool) (put : Nat → State → State) (s : State) (t : Nat) :
    metBy c last p put s (t + 1) = if p t then put t (metBy c last p put s t) else metBy c last p put s t := by
  simp only [metBy, range_filter_succ, List.foldl_append]
  cases p t <;> rfl

@[simp] theorem metBy_zero (c : Ctx) (last : Bool) (p : Nat → Bool) (put : Nat → State → State) (s : State) :
    metBy c last p put s 0 = if last then setPcs c s else s := rfl

/-- What every lane keeps of a state, all of them keep. -/
theorem metBy_keeps {c : Ctx} {last : Bool} {p : Nat → Bool} {put : Nat → State → State} {s : State} (P : State → Prop)
    (h0 : P (if last then setPcs c s else s)) (hp : ∀ t s', p t = true → P s' → P (put t s')) (t : Nat) :
    P (metBy c last p put s t) := by
  induction t with
  | zero => exact h0
  | succ t ih =>
    rw [metBy_succ]
    cases h : p t with
    | true => exact hp t _ h ih
    | false => exact ih

/-- What a lane's turn does need be known only in the state that the lane meets; lanes outside `p` do nothing. -/
theorem eachLane_met {c : Ctx} {last : Bool} {p q : Nat → Bool} {put : Nat → State → State} {f : State → Nat → State}
    {s : State} (hf : ∀ t < 16, q t = true →
      f (metBy c last p put s t) t = if p t then put t (metBy c last p put s t) else metBy c last p put s t)
    (hq : ∀ t, p t = true → q t = true) :
    eachLane q f (if last then setPcs c s else s) = metBy c last p put s 16 := by
  have key (n : Nat) (hn : n ≤ 16) :
      ((List.range n).filter q).foldl f (if last then setPcs c s else s) = metBy c last p put s n := by
    induction n with
    | zero => rfl
    | succ t ih =>
      rw [range_filter_succ, List.foldl_append, ih (by omega), metBy_succ]
      cases hqt : q t with
      | true =>
        simp only [if_true, List.foldl_cons, List.foldl_nil]
        exact hf t (by omega) hqt
      | false =>
        cases hpt : p t with
        | true => simp [hq t hpt] at hqt
        | false => rfl
  exact key 16 (Nat.le_refl 16)

/-- A lane-by-lane word, once each lane's turn is known. -/
theorem frameWith_lanes {i : WordInfo} {s : State} {c : Ctx} {short : Ctx → Bool}
    {q : Ctx → Nat → Bool} {p : Nat → Bool} {f : Ctx → State → State → Nat → State} {put : Nat → State → State}
    (h : s.ctx? = some c) (ht : wordTrap i c = none) (hs : stalls i s c = false) (hp : short c = false)
    (hf : ∀ t < 16, q c t = true → f c (if i.last then setPcs c s else s) (metBy c i.last p put s t) t =
      if p t then put t (metBy c i.last p put s t) else metBy c i.last p put s t)
    (hq : ∀ t, p t = true → q c t = true) :
    frameWith i s short (fun k s => eachLane (q k) (f k s) s) = .next (byLanes c i.last p put s) := by
  rw [frameWith_of_ready h ht hs hp, byLanes, eachLane_met hf hq]

/-! ### What moving the program counters keeps -/

section
variable (c : Ctx) (last : Bool) (s : State)

@[simp] theorem moved_mem : (if last then setPcs c s else s).mem = s.mem := by cases last <;> rfl
@[simp] theorem moved_desc : (if last then setPcs c s else s).desc = s.desc := by cases last <;> rfl
@[simp] theorem moved_poison : (if last then setPcs c s else s).poison = s.poison := by cases last <;> rfl
@[simp] theorem moved_parts : (if last then setPcs c s else s).parts = s.parts := by cases last <;> rfl
@[simp] theorem moved_cores : (if last then setPcs c s else s).cores = s.cores := by cases last <;> rfl
@[simp] theorem moved_cur : (if last then setPcs c s else s).cur = s.cur := by cases last <;> rfl
@[simp] theorem moved_gangs : (if last then setPcs c s else s).gangs = s.gangs := by cases last <;> rfl

/-- The crew, its lanes' program counters aside. -/
theorem moved_crew {cr : Crew} (h : s.crews[c.ci]? = some cr) :
    ∃ ls : List Lane, (if last then setPcs c s else s).crews[c.ci]? = some { cr with lanes := ls } ∧
      ls.length = cr.lanes.length ∧
      ∀ p : Nat, (ls[p]?.bind Lane.thread?).map (fun th => th.held) = (cr.lanes[p]?.bind Lane.thread?).map (fun th => th.held) := by
  cases last with
  | false => exact ⟨cr.lanes, h, rfl, fun _ => rfl⟩
  | true =>
    refine ⟨cr.lanes.mapIdx fun p l =>
      match c.laneOf p with
      | some t => if c.takesPart t then l.updThread fun th => { th with pc := c.next } else l
      | none => l, ?_, by simp, ?_⟩
    · simp only [if_true, setPcs, State.mapLanes, State.updCrew, List.getElem?_modify, h]
      rfl
    · intro p
      simp only [List.getElem?_mapIdx]
      cases cr.lanes[p]? with
      | none => rfl
      | some l =>
        simp only [Option.map_some, Option.bind_some]
        split
        · split
          · cases l with
            | mk v q k x o => cases o <;> rfl
          · rfl
        · rfl
end

/-! ### What a load's lanes leave for the lanes after them -/

/-- From `s` to `s'`, the lanes of the word's crew may have changed, but for their held accesses, and results may be on
their way; everything that an access reads is as it was. -/
structure SameAccess (s : State) (c : Ctx) (s' : State) : Prop where
  crew : ∃ ls : List Lane, s'.crews[c.ci]? = some { c.cr with lanes := ls } ∧
    ∀ p : Nat, (ls[p]?.bind Lane.thread?).map (fun th => th.held) = (c.cr.lanes[p]?.bind Lane.thread?).map (fun th => th.held)
  cores : s'.cores = s.cores
  mem : s'.mem = s.mem
  desc : s'.desc = s.desc
  poison : s'.poison = s.poison
  parts : s'.parts = s.parts

theorem sameAccess_base {s : State} {c : Ctx} (h : s.ctx? = some c) (last : Bool) :
    SameAccess s c (if last then setPcs c s else s) := by
  obtain ⟨ls, h1, _, h2⟩ := moved_crew c last s (ctx_some h).2.2.1
  exact ⟨⟨ls, h1, h2⟩, by simp, by simp, by simp, by simp, by simp⟩

theorem sameAccess_held {s : State} {c : Ctx} {s' : State} (m : SameAccess s c s') (t : Nat) :
    (s'.thread? c.ci (c.place t)).map (fun th => th.held) = (c.lane t).thread?.map fun th => th.held := by
  obtain ⟨ls, h1, h2⟩ := m.crew
  simp only [State.thread?, State.lane?, h1, Option.bind_some]
  rw [h2]
  simp only [Ctx.lane, Ctx.laneAt, List.getD_eq_getElem?_getD]
  cases c.cr.lanes[c.place t]? <;> rfl

theorem modify_self {α : Type} (l : List α) (i : Nat) (f : α → α) (h : ∀ x, l[i]? = some x → f x = x) :
    l.modify i f = l := by
  apply List.ext_getElem?
  intro j
  rw [List.getElem?_modify]
  split
  · rename_i hj
    subst hj
    cases hk : l[i]? with
    | none => rfl
    | some x => simp [h x hk]
  · simp

end Sys2Proof.Machine
end

