-- ==== Sys2Proof/Laws/Memory.lean ====
section
/-!
SUPPORT. Memory: reading after writing, and that every operation that stores keeps the canonical form.
-/

namespace Sys2Proof.Machine

open Sys2Proof

/-! ### Sparse memories -/

theorem Sparse.wf_cons {w : Nat} (a : Nat) (v : BitVec w) (r : Sparse w) :
    Sparse.wf ((a, v) :: r) = true ↔ v ≠ Sparse.unlisted w ∧ (∀ x ∈ r, a < x.1) ∧ Sparse.wf r = true := by
  simp [Sparse.wf, List.all_eq_true, and_assoc]

theorem Sparse.mem_set {w : Nat} (m : Sparse w) (a : Nat) (v : BitVec w) :
    ∀ x ∈ Sparse.set m a v, x = (a, v) ∨ x ∈ m := by
  induction m with
  | nil =>
    intro x
    simp only [Sparse.set]
    split <;> simp_all
  | cons y r ih =>
    intro x
    obtain ⟨b, z⟩ := y
    simp only [Sparse.set]
    split
    · split <;> simp_all
    · split
      · split
        · intro h; exact .inr (List.mem_cons_of_mem _ h)
        · simp only [List.mem_cons]; rintro (h | h) <;> simp_all
      · simp only [List.mem_cons]
        rintro (h | h)
        · exact .inr (.inl h)
        · rcases ih x h with h | h
          · exact .inl h
          · exact .inr (.inr h)

theorem Sparse.set_wf {w : Nat} (m : Sparse w) (a : Nat) (v : BitVec w) (h : Sparse.wf m = true) :
    Sparse.wf (Sparse.set m a v) = true := by
  induction m with
  | nil => simp only [Sparse.set]; split <;> simp_all [Sparse.wf]
  | cons y r ih =>
    obtain ⟨b, z⟩ := y
    rw [Sparse.wf_cons] at h
    obtain ⟨h1, h2, h3⟩ := h
    simp only [Sparse.set]
    split
    · split
      · exact (Sparse.wf_cons b z r).mpr ⟨h1, h2, h3⟩
      · rename_i hab hv
        refine (Sparse.wf_cons a v _).mpr ⟨hv, ?_, (Sparse.wf_cons b z r).mpr ⟨h1, h2, h3⟩⟩
        intro x hx
        rcases List.mem_cons.mp hx with rfl | hx
        · exact hab
        · exact Nat.lt_trans hab (h2 x hx)
    · split
      · rename_i hab
        subst hab
        split
        · exact h3
        · rename_i hv
          exact (Sparse.wf_cons a v r).mpr ⟨hv, h2, h3⟩
      · rename_i hab hne
        refine (Sparse.wf_cons b z _).mpr ⟨h1, ?_, ih h3⟩
        intro x hx
        rcases Sparse.mem_set r a v x hx with rfl | hx
        · exact Nat.lt_of_le_of_ne (Nat.le_of_not_lt hab) (Ne.symm hne)
        · exact h2 x hx

/-- Below the first listed place nothing is listed. -/
theorem Sparse.get_below {w : Nat} (m : Sparse w) (b : Nat) (h : ∀ x ∈ m, b < x.1) : Sparse.get m b = Sparse.unlisted w := by
  cases m with
  | nil => rfl
  | cons y r =>
    obtain ⟨a, v⟩ := y
    have := h (a, v) (List.mem_cons_self ..)
    simp only at this
    simp [Sparse.get, this, Nat.ne_of_lt this]

theorem Sparse.get_set {w : Nat} (m : Sparse w) (a b : Nat) (v : BitVec w) (h : Sparse.wf m = true) :
    Sparse.get (Sparse.set m a v) b = if b = a then v else Sparse.get m b := by
  induction m with
  | nil =>
    simp only [Sparse.set]
    split
    · rename_i hv
      simp only [Sparse.get]
      split
      · exact hv.symm
      · rfl
    · simp only [Sparse.get]
      split
      · rfl
      · split <;> rfl
  | cons y r ih =>
    obtain ⟨c, z⟩ := y
    obtain ⟨h1, h2, h3⟩ := (Sparse.wf_cons c z r).mp h
    simp only [Sparse.set]
    split
    · rename_i hac
      split
      · rename_i hv
        by_cases hb : b = a
        · subst hb
          simp [Sparse.get, Nat.ne_of_lt hac, hac, hv]
        · simp [hb]
      · by_cases hb : b = a
        · simp [Sparse.get, hb]
        · by_cases hlt : b < a
          · simp [Sparse.get, hb, hlt, Nat.lt_trans hlt hac, Nat.ne_of_lt (Nat.lt_trans hlt hac)]
          · simp [Sparse.get, hb, hlt]
    · split
      · rename_i hac
        subst hac
        split
        · rename_i hv
          by_cases hb : b = a
          · subst hb
            simp only [if_true]
            rw [Sparse.get_below r b h2, hv]
          · by_cases hlt : b < a
            · simp [Sparse.get, hb, hlt, Sparse.get_below r b fun x hx => Nat.lt_trans hlt (h2 x hx)]
            · simp [Sparse.get, hb, hlt]
        · by_cases hb : b = a <;> simp [Sparse.get, hb]
      · rename_i hac hne
        by_cases hb : b = c
        · subst hb
          simp [Sparse.get, Ne.symm hne]
        · by_cases hlt : b < c
          · simp only [Sparse.get, hb, hlt, if_true, if_false]
            have : b ≠ a := fun e => hac (e ▸ hlt)
            simp [this]
          · simp only [Sparse.get, hb, hlt, if_false]
            exact ih h3

theorem Sparse.filter_wf {w : Nat} (m : Sparse w) (p : Nat × BitVec w → Bool) (h : Sparse.wf m = true) :
    Sparse.wf (m.filter p) = true := by
  induction m with
  | nil => rfl
  | cons y r ih =>
    obtain ⟨a, v⟩ := y
    obtain ⟨h1, h2, h3⟩ := (Sparse.wf_cons a v r).mp h
    rw [List.filter_cons]
    split
    · exact (Sparse.wf_cons a v _).mpr ⟨h1, fun x hx => h2 x (List.mem_filter.mp hx).1, ih h3⟩
    · exact ih h3

theorem Sparse.sets_wf {w : Nat} (xs : List (Nat × BitVec w)) (m : Sparse w) (h : Sparse.wf m = true) :
    Sparse.wf (xs.foldl (fun m x => Sparse.set m x.1 x.2) m) = true := by
  induction xs generalizing m with
  | nil => exact h
  | cons x xs ih => exact ih _ (Sparse.set_wf m x.1 x.2 h)

theorem mergeSparse_wf {w : Nat} (p : Nat → Bool) (old new : Sparse w) (h : Sparse.wf old = true) :
    Sparse.wf (mergeSparse p old new) = true :=
  Sparse.sets_wf _ _ (Sparse.filter_wf _ _ h)

/-! ### Byte memory -/

@[simp] theorem Memory.write_nil (m : Memory) (a : Nat) : m.write a [] = m := rfl

theorem Memory.write_wf (m : Memory) (a : Nat) (bs : List Byte) (h : m.wf = true) : (m.write a bs).wf = true := by
  induction bs generalizing m a with
  | nil => exact h
  | cons b bs ih => exact ih _ _ (Sparse.set_wf m a b h)

/-- A byte after a store. -/
theorem Memory.byte_write (m : Memory) (a : Nat) (bs : List Byte) (z : Nat) (h : m.wf = true) :
    (m.write a bs).byte z = if a ≤ z ∧ z < a + bs.length then bs.getD (z - a) 0 else m.byte z := by
  induction bs generalizing m a with
  | nil =>
    rw [if_neg (by simp only [List.length_nil]; omega)]
    rfl
  | cons b bs ih =>
    simp only [Memory.write]
    rw [ih (m.setByte a b) _ (Sparse.set_wf m a b h)]
    have hg : (m.setByte a b).byte z = if z = a then b else m.byte z := Sparse.get_set m a z b h
    rw [hg]
    by_cases hz : z = a
    · subst hz
      simp
    · by_cases h1 : a + 1 ≤ z ∧ z < a + 1 + bs.length
      · have h2 : a ≤ z ∧ z < a + (b :: bs).length := by simp only [List.length_cons]; omega
        have h3 : z - a = z - (a + 1) + 1 := by omega
        rw [if_pos h1, if_pos h2, h3, List.getD_cons_succ]
      · have h2 : ¬ (a ≤ z ∧ z < a + (b :: bs).length) := by simp only [List.length_cons]; omega
        rw [if_neg h1, if_neg h2, if_neg hz]

/-- Bytes outside a store stay. -/
theorem Memory.byte_write_outside (m : Memory) (a : Nat) (bs : List Byte) (z : Nat) (h : m.wf = true)
    (hz : z < a ∨ a + bs.length ≤ z) : (m.write a bs).byte z = m.byte z := by
  rw [Memory.byte_write m a bs z h, if_neg (by omega)]

theorem Memory.read_length (m : Memory) (a n : Nat) : (m.read a n).length = n := by
  induction n generalizing a with
  | zero => rfl
  | succ n ih => simp [Memory.read, ih]

theorem Memory.read_getD (m : Memory) (a n i : Nat) (h : i < n) : (m.read a n).getD i 0 = m.byte (a + i) := by
  induction n generalizing a i with
  | zero => omega
  | succ n ih =>
    cases i with
    | zero => rfl
    | succ i =>
      simp only [Memory.read, List.getD_cons_succ]
      rw [ih (a + 1) i (by omega)]
      congr 1
      omega

/-- What was stored is what is read. -/
theorem Memory.read_write (m : Memory) (a : Nat) (bs : List Byte) (h : m.wf = true) :
    (m.write a bs).read a bs.length = bs := by
  apply List.ext_getElem (by simp [Memory.read_length])
  intro i h1 h2
  have hr := Memory.read_getD (m.write a bs) a bs.length i h2
  rw [Memory.byte_write m a bs (a + i) h, if_pos (by omega)] at hr
  have e : a + i - a = i := by omega
  rw [e] at hr
  simpa [List.getD_eq_getElem?_getD, List.getElem?_eq_getElem h1, List.getElem?_eq_getElem h2] using hr

/-! ### The state's memory -/

namespace State

theorem reset_formed : State.reset.formed := ⟨rfl, rfl⟩

theorem physStore_formed (s : State) (pa : Nat) (bs : List Byte) (h : s.formed) : (s.physStore pa bs).formed :=
  ⟨Memory.write_wf _ _ _ h.1, h.2⟩

theorem physWrite_formed (s : State) (g : Page) (bs : List Byte) (h : s.formed) : (s.physWrite g bs).formed := by
  unfold physWrite
  split
  · generalize List.range Config.dies = ds
    induction ds generalizing s with
    | nil => exact h
    | cons d ds ih => exact ih _ (physStore_formed s _ bs h)
  · exact physStore_formed s _ bs h

theorem setDesc_formed (s : State) (g : Page) (d : BitVec 16) (h : s.formed) : (s.setDesc g d).formed :=
  ⟨h.1, Sparse.set_wf _ _ _ h.2⟩

theorem scratchStore_formed (s : State) (ci off : Nat) (bs : List Byte) (h : s.formed) : (s.scratchStore ci off bs).formed := by
  unfold scratchStore
  split
  · exact h
  · exact h

theorem vStore_formed (p : Nat) (q : Ask) (fuel : Nat) (s : State) (va : Nat) (bs : List Byte) (h : s.formed) :
    (vStore s p q fuel va bs).formed := by
  induction fuel generalizing s va bs with
  | zero => exact h
  | succ fuel ih =>
    unfold vStore
    split
    · exact h
    · simp only
      split
      · exact ih _ _ _ (physWrite_formed s _ _ h)
      · exact ih _ _ _ h

theorem writeG_formed (s s' : State) (p va : Nat) (bs : List Byte) (device : Bool) (h : s.formed)
    (hw : s.writeG p va bs device = .ok s') : s'.formed := by
  unfold writeG at hw
  simp only at hw
  cases ha : s.vWritable p { write := true, device := device } (pages bs.length) va bs.length with
  | ok u =>
    rw [ha] at hw
    simp only [Acc.bind, Acc.ok.injEq] at hw
    subst hw
    exact vStore_formed _ _ _ _ _ _ h
  | _ => rw [ha] at hw; simp [Acc.bind] at hw

theorem devWrite_formed (s : State) (p va : Nat) (bs : List Byte) (h : s.formed) : (s.devWrite p va bs).formed := by
  unfold devWrite
  split
  · rename_i s' hw
    exact writeG_formed s s' p va bs true h hw
  · exact h

theorem ctxSet_formed (s : State) (p byte n v : Nat) (h : s.formed) : (s.ctxSet p byte n v).formed :=
  physStore_formed _ _ _ h

/-- Newly typed pages lose descriptors and nothing else (R191). -/
theorem freshTyped_formed (before s : State) (h : s.formed) : (before.freshTyped s).formed := by
  unfold freshTyped
  split
  · exact h
  · exact ⟨h.1, Sparse.filter_wf _ _ h.2⟩

/-- The marks of a release on the device's own lists leave memory and descriptors as they are. -/
theorem ringWhere_mem (s : State) (p : Nat) (here : Nat → Bool) :
    (s.ringWhere p here).mem = s.mem ∧ (s.ringWhere p here).desc = s.desc := by
  unfold ringWhere
  split <;> exact ⟨rfl, rfl⟩

theorem ringTails_mem (s : State) (p : Nat) : (s.ringTails p).mem = s.mem ∧ (s.ringTails p).desc = s.desc :=
  ringWhere_mem s p _

theorem wrote_mem (s : State) (p scope va n : Nat) : (s.wrote p scope va n).mem = s.mem ∧ (s.wrote p scope va n).desc = s.desc := by
  unfold wrote
  split
  · exact ⟨rfl, rfl⟩
  · split
    · exact ⟨rfl, rfl⟩
    · exact ringWhere_mem s p _

theorem performed_mem (s : State) (p scope : Nat) : (s.performed p scope).mem = s.mem ∧ (s.performed p scope).desc = s.desc := by
  unfold performed
  split
  · exact ⟨rfl, rfl⟩
  · split
    · exact ringTails_mem s.publish p
    · exact ringTails_mem s p

theorem fireAt_mem (s : State) (p pa : Nat) : (s.fireAt p pa).mem = s.mem ∧ (s.fireAt p pa).desc = s.desc := by
  unfold fireAt
  simp only
  split <;> exact ⟨rfl, rfl⟩

theorem fireWaiters_mem (s : State) (p va scope : Nat) :
    (s.fireWaiters p va scope).mem = s.mem ∧ (s.fireWaiters p va scope).desc = s.desc := by
  have h := performed_mem s p scope
  unfold fireWaiters
  simp only
  split
  · exact h
  · split
    · exact ⟨(fireAt_mem _ p _).1.trans h.1, (fireAt_mem _ p _).2.trans h.2⟩
    · exact h

theorem formed_of_mem {s s' : State} (h : s.formed) (hm : s'.mem = s.mem ∧ s'.desc = s.desc) : s'.formed :=
  ⟨hm.1 ▸ h.1, hm.2 ▸ h.2⟩

theorem fireWaiters_formed (s : State) (p va scope : Nat) (h : s.formed) : (s.fireWaiters p va scope).formed :=
  formed_of_mem h (fireWaiters_mem s p va scope)

theorem hostStore_formed (s : State) (pa : Nat) (bs : List Byte) (h : s.formed) : (s.hostStore pa bs).formed :=
  physStore_formed s pa bs h

/-- The code image that later launches fetch keeps its canonical form. -/
theorem hostStore_code_wf (s : State) (pa : Nat) (bs : List Byte) (h : s.codeMem.wf = true) :
    (s.hostStore pa bs).codeMem.wf = true := Memory.write_wf _ _ _ h

theorem publish_code_wf (s : State) (h : s.formed) : s.publish.codeMem.wf = true := h.1

end State

end Sys2Proof.Machine
end

