-- ==== Sys2Proof/Laws/PerInstr.lean ====
section
/-!
SUPPORT. The round trip of each instruction's word at the level of its fields, one lemma per constructor.
-/

namespace Sys2Proof.Laws

/-- Two neighbouring slices of a vector are one. -/
theorem join_parts {w k n : Nat} (x : BitVec w) (a : Nat) :
    x.extractLsb' (a + k) n ++ x.extractLsb' a k = x.extractLsb' a (n + k) := by
  apply BitVec.eq_of_getLsbD_eq
  intro i hi
  simp only [BitVec.getLsbD_append, BitVec.getLsbD_extractLsb', hi, decide_true, Bool.true_and]
  by_cases h : i < k
  · simp [h]
  · have h2 : i - k < n := by omega
    have h3 : a + k + (i - k) = a + i := by omega
    simp [h, h2, h3]

theorem whole_slice {w : Nat} (x : BitVec w) : x.extractLsb' 0 w = x := by
  apply BitVec.eq_of_getLsbD_eq
  intro i hi
  simp [hi]

theorem top_bit (x : BitVec 1) : BitVec.ofBool (x == 1#1) = x := by
  revert x
  decide

theorem two_sixes (x : BitVec 12) : x.extractLsb' 6 6 ++ x.extractLsb' 0 6 = x :=
  (join_parts x 0 (k := 6)).trans (whole_slice x)

theorem three_sixes (x : BitVec 18) : x.extractLsb' 12 6 ++ x.extractLsb' 6 6 ++ x.extractLsb' 0 6 = x := by
  rw [join_parts x 6 (k := 6), join_parts x 0 (k := 6)]
  exact whole_slice x

theorem four_sixes (x : BitVec 24) :
    x.extractLsb' 18 6 ++ x.extractLsb' 12 6 ++ x.extractLsb' 6 6 ++ x.extractLsb' 0 6 = x := by
  rw [join_parts x 12 (k := 6), join_parts x 6 (k := 6), join_parts x 0 (k := 6)]
  exact whole_slice x

theorem bit_and_sixes (x : BitVec 25) :
    BitVec.ofBool (x.extractLsb' 24 1 == 1#1) ++ x.extractLsb' 18 6 ++ x.extractLsb' 12 6 ++ x.extractLsb' 6 6 ++
      x.extractLsb' 0 6 = x := by
  rw [top_bit, join_parts x 18 (k := 6), join_parts x 12 (k := 6), join_parts x 6 (k := 6), join_parts x 0 (k := 6)]
  exact whole_slice x

theorem marker_parts (x : BitVec 14) : x.extractLsb' 8 6 ++ x.extractLsb' 2 6 ++ x.extractLsb' 0 2 = x := by
  rw [join_parts x 2 (k := 6), join_parts x 0 (k := 2)]
  exact whole_slice x

theorem estimate_parts (x : BitVec 8) : x.extractLsb' 6 2 ++ x.extractLsb' 0 6 = x :=
  (join_parts x 0 (k := 6)).trans (whole_slice x)

/-- A well-formed instruction's fields decode to it. -/
def RoundTrip.Statement (i : Instr) : Prop :=
  i.wf = true → ∃ f, encodeFields i = some f ∧ decodeFields f = some i

namespace RoundTrip

theorem iadd (b n d a c) : Statement (.iadd b n d a c) := fun _ => ⟨_, rfl, rfl⟩
theorem isub (b n d a c) : Statement (.isub b n d a c) := fun _ => ⟨_, rfl, rfl⟩
theorem imul (b n d a c) : Statement (.imul b n d a c) := fun _ => ⟨_, rfl, rfl⟩
theorem imulh (b n d a c) : Statement (.imulh b n d a c) := fun _ => ⟨_, rfl, rfl⟩
theorem imulhU (b n d a c) : Statement (.imulhU b n d a c) := fun _ => ⟨_, rfl, rfl⟩
theorem ineg (b n d a) : Statement (.ineg b n d a) := fun _ => ⟨_, rfl, rfl⟩
theorem iabs (b n d a) : Statement (.iabs b n d a) := fun _ => ⟨_, rfl, rfl⟩
theorem imin (b n d a c) : Statement (.imin b n d a c) := fun _ => ⟨_, rfl, rfl⟩
theorem iminU (b n d a c) : Statement (.iminU b n d a c) := fun _ => ⟨_, rfl, rfl⟩
theorem imax (b n d a c) : Statement (.imax b n d a c) := fun _ => ⟨_, rfl, rfl⟩
theorem imaxU (b n d a c) : Statement (.imaxU b n d a c) := fun _ => ⟨_, rfl, rfl⟩
theorem land (b n d a c) : Statement (.land b n d a c) := fun _ => ⟨_, rfl, rfl⟩
theorem lor (b n d a c) : Statement (.lor b n d a c) := fun _ => ⟨_, rfl, rfl⟩
theorem lxor (b n d a c) : Statement (.lxor b n d a c) := fun _ => ⟨_, rfl, rfl⟩
theorem lnot (b n d a) : Statement (.lnot b n d a) := fun _ => ⟨_, rfl, rfl⟩
theorem shl (b n d a c) : Statement (.shl b n d a c) := fun _ => ⟨_, rfl, rfl⟩
theorem shr (b n d a c) : Statement (.shr b n d a c) := fun _ => ⟨_, rfl, rfl⟩
theorem sar (b n d a c) : Statement (.sar b n d a c) := fun _ => ⟨_, rfl, rfl⟩
theorem rot (b n d a c) : Statement (.rot b n d a c) := fun _ => ⟨_, rfl, rfl⟩
theorem popc (b n d a) : Statement (.popc b n d a) := fun _ => ⟨_, rfl, rfl⟩
theorem clz (b n d a) : Statement (.clz b n d a) := fun _ => ⟨_, rfl, rfl⟩
theorem ctz (b n d a) : Statement (.ctz b n d a) := fun _ => ⟨_, rfl, rfl⟩
theorem brev (b n d a) : Statement (.brev b n d a) := fun _ => ⟨_, rfl, rfl⟩
theorem mov (b n d a) : Statement (.mov b n d a) := fun _ => ⟨_, rfl, rfl⟩
theorem iaddSat (b n d a c) : Statement (.iaddSat b n d a c) := fun _ => ⟨_, rfl, rfl⟩
theorem isubSat (b n d a c) : Statement (.isubSat b n d a c) := fun _ => ⟨_, rfl, rfl⟩
theorem iaddUsat (b n d a c) : Statement (.iaddUsat b n d a c) := fun _ => ⟨_, rfl, rfl⟩
theorem isubUsat (b n d a c) : Statement (.isubUsat b n d a c) := fun _ => ⟨_, rfl, rfl⟩
theorem iadd64 (b n d a c) : Statement (.iadd64 b n d a c) := fun _ => ⟨_, rfl, rfl⟩
theorem isub64 (b n d a c) : Statement (.isub64 b n d a c) := fun _ => ⟨_, rfl, rfl⟩
theorem imul64 (b n d a c) : Statement (.imul64 b n d a c) := fun _ => ⟨_, rfl, rfl⟩
theorem imulh64 (b n d a c) : Statement (.imulh64 b n d a c) := fun _ => ⟨_, rfl, rfl⟩
theorem imulhU64 (b n d a c) : Statement (.imulhU64 b n d a c) := fun _ => ⟨_, rfl, rfl⟩
theorem ineg64 (b n d a) : Statement (.ineg64 b n d a) := fun _ => ⟨_, rfl, rfl⟩
theorem iabs64 (b n d a) : Statement (.iabs64 b n d a) := fun _ => ⟨_, rfl, rfl⟩
theorem imin64 (b n d a c) : Statement (.imin64 b n d a c) := fun _ => ⟨_, rfl, rfl⟩
theorem iminU64 (b n d a c) : Statement (.iminU64 b n d a c) := fun _ => ⟨_, rfl, rfl⟩
theorem imax64 (b n d a c) : Statement (.imax64 b n d a c) := fun _ => ⟨_, rfl, rfl⟩
theorem imaxU64 (b n d a c) : Statement (.imaxU64 b n d a c) := fun _ => ⟨_, rfl, rfl⟩
theorem land64 (b n d a c) : Statement (.land64 b n d a c) := fun _ => ⟨_, rfl, rfl⟩
theorem lor64 (b n d a c) : Statement (.lor64 b n d a c) := fun _ => ⟨_, rfl, rfl⟩
theorem lxor64 (b n d a c) : Statement (.lxor64 b n d a c) := fun _ => ⟨_, rfl, rfl⟩
theorem lnot64 (b n d a) : Statement (.lnot64 b n d a) := fun _ => ⟨_, rfl, rfl⟩
theorem shl64 (b n d a c) : Statement (.shl64 b n d a c) := fun _ => ⟨_, rfl, rfl⟩
theorem shr64 (b n d a c) : Statement (.shr64 b n d a c) := fun _ => ⟨_, rfl, rfl⟩
theorem sar64 (b n d a c) : Statement (.sar64 b n d a c) := fun _ => ⟨_, rfl, rfl⟩
theorem rot64 (b n d a c) : Statement (.rot64 b n d a c) := fun _ => ⟨_, rfl, rfl⟩
theorem popc64 (b n d a) : Statement (.popc64 b n d a) := fun _ => ⟨_, rfl, rfl⟩
theorem clz64 (b n d a) : Statement (.clz64 b n d a) := fun _ => ⟨_, rfl, rfl⟩
theorem ctz64 (b n d a) : Statement (.ctz64 b n d a) := fun _ => ⟨_, rfl, rfl⟩
theorem brev64 (b n d a) : Statement (.brev64 b n d a) := fun _ => ⟨_, rfl, rfl⟩
theorem mov64 (b n d a) : Statement (.mov64 b n d a) := fun _ => ⟨_, rfl, rfl⟩
theorem iaddSat64 (b n d a c) : Statement (.iaddSat64 b n d a c) := fun _ => ⟨_, rfl, rfl⟩
theorem isubSat64 (b n d a c) : Statement (.isubSat64 b n d a c) := fun _ => ⟨_, rfl, rfl⟩
theorem iaddUsat64 (b n d a c) : Statement (.iaddUsat64 b n d a c) := fun _ => ⟨_, rfl, rfl⟩
theorem isubUsat64 (b n d a c) : Statement (.isubUsat64 b n d a c) := fun _ => ⟨_, rfl, rfl⟩
theorem imad (b n d a c e) : Statement (.imad b n d a c e) := fun _ => ⟨_, rfl, rfl⟩
theorem imad64 (b n d a c e) : Statement (.imad64 b n d a c e) := fun _ => ⟨_, rfl, rfl⟩
theorem movi (b : Bool) (n : Bool) (d : BitVec 6) (i : BitVec 12) : Statement (.movi b n d i) := fun _ => ⟨_, rfl, by
  simp [decodeFields, need, two_sixes]⟩
theorem lea (b : Bool) (n : Bool) (d : BitVec 6) (a : BitVec 6) (i : BitVec 12) :
    Statement (.lea b n d a i) := fun _ => ⟨_, rfl, by
  simp [decodeFields, two_sixes]⟩
theorem icmp (b : Bool) (d : BitVec 6) (a : BitVec 6) (c : BitVec 6) (w : BitVec 1) (k : BitVec 4) :
    Statement (.icmp b d a c w k) := fun _ => ⟨_, rfl, by
  have slices : ∀ (w : BitVec 1) (k : BitVec 4), 
      (0#1 ++ w ++ k : BitVec 6).extractLsb' 0 4 = k ∧
      (0#1 ++ w ++ k : BitVec 6).extractLsb' 4 1 = w ∧
      (0#1 ++ w ++ k : BitVec 6).extractLsb' 5 1 = 0#1 := by decide
  simp [decodeFields, need, slices w k]⟩
theorem bfi (b n d a c e) : Statement (.bfi b n d a c e) := fun _ => ⟨_, rfl, rfl⟩
theorem bfxU (b n d a c) : Statement (.bfxU b n d a c) := fun _ => ⟨_, rfl, rfl⟩
theorem bfxS (b n d a c) : Statement (.bfxS b n d a c) := fun _ => ⟨_, rfl, rfl⟩
theorem bffs (b n d a) : Statement (.bffs b n d a) := fun _ => ⟨_, rfl, rfl⟩
theorem bffsIdx (b n d a) : Statement (.bffsIdx b n d a) := fun _ => ⟨_, rfl, rfl⟩
theorem bfpl (b n d a c) : Statement (.bfpl b n d a c) := fun _ => ⟨_, rfl, rfl⟩
theorem qxchX (b n d a) : Statement (.qxchX b n d a) := fun _ => ⟨_, rfl, rfl⟩
theorem qxchY (b n d a) : Statement (.qxchY b n d a) := fun _ => ⟨_, rfl, rfl⟩
theorem qxchXy (b n d a) : Statement (.qxchXy b n d a) := fun _ => ⟨_, rfl, rfl⟩
theorem qxchBc (b n d a c) : Statement (.qxchBc b n d a c) := fun _ => ⟨_, rfl, rfl⟩
theorem gshuf (b n d a c) : Statement (.gshuf b n d a c) := fun _ => ⟨_, rfl, rfl⟩
theorem gshufXor (b n d a c) : Statement (.gshufXor b n d a c) := fun _ => ⟨_, rfl, rfl⟩
theorem qxchX64 (b n d a) : Statement (.qxchX64 b n d a) := fun _ => ⟨_, rfl, rfl⟩
theorem qxchY64 (b n d a) : Statement (.qxchY64 b n d a) := fun _ => ⟨_, rfl, rfl⟩
theorem qxchXy64 (b n d a) : Statement (.qxchXy64 b n d a) := fun _ => ⟨_, rfl, rfl⟩
theorem qxchBc64 (b n d a c) : Statement (.qxchBc64 b n d a c) := fun _ => ⟨_, rfl, rfl⟩
theorem gshuf64 (b n d a c) : Statement (.gshuf64 b n d a c) := fun _ => ⟨_, rfl, rfl⟩
theorem gshufXor64 (b n d a c) : Statement (.gshufXor64 b n d a c) := fun _ => ⟨_, rfl, rfl⟩
theorem umov (b d a) : Statement (.umov b d a) := fun _ => ⟨_, rfl, rfl⟩
theorem uadd (b d a c) : Statement (.uadd b d a c) := fun _ => ⟨_, rfl, rfl⟩
theorem usub (b d a c) : Statement (.usub b d a c) := fun _ => ⟨_, rfl, rfl⟩
theorem umul (b d a c) : Statement (.umul b d a c) := fun _ => ⟨_, rfl, rfl⟩
theorem uand (b d a c) : Statement (.uand b d a c) := fun _ => ⟨_, rfl, rfl⟩
theorem uor (b d a c) : Statement (.uor b d a c) := fun _ => ⟨_, rfl, rfl⟩
theorem uxor (b d a c) : Statement (.uxor b d a c) := fun _ => ⟨_, rfl, rfl⟩
theorem ushl (b d a c) : Statement (.ushl b d a c) := fun _ => ⟨_, rfl, rfl⟩
theorem ushr (b d a c) : Statement (.ushr b d a c) := fun _ => ⟨_, rfl, rfl⟩
theorem usar (b d a c) : Statement (.usar b d a c) := fun _ => ⟨_, rfl, rfl⟩
theorem umin (b d a c) : Statement (.umin b d a c) := fun _ => ⟨_, rfl, rfl⟩
theorem umax (b d a c) : Statement (.umax b d a c) := fun _ => ⟨_, rfl, rfl⟩
theorem umovv (b d a) : Statement (.umovv b d a) := fun _ => ⟨_, rfl, rfl⟩
theorem umovv64 (b d a) : Statement (.umovv64 b d a) := fun _ => ⟨_, rfl, rfl⟩
theorem ffmaF32 (b n d a c e) : Statement (.ffmaF32 b n d a c e) := fun _ => ⟨_, rfl, rfl⟩
theorem ffmaF64 (b n d a c e) : Statement (.ffmaF64 b n d a c e) := fun _ => ⟨_, rfl, rfl⟩
theorem ffmaF16 (b n d a c e) : Statement (.ffmaF16 b n d a c e) := fun _ => ⟨_, rfl, rfl⟩
theorem ffmaBf16 (b n d a c e) : Statement (.ffmaBf16 b n d a c e) := fun _ => ⟨_, rfl, rfl⟩
theorem ffmaF16x2 (b n d a c e) : Statement (.ffmaF16x2 b n d a c e) := fun _ => ⟨_, rfl, rfl⟩
theorem faddF32 (b n d a c) : Statement (.faddF32 b n d a c) := fun _ => ⟨_, rfl, rfl⟩
theorem fsubF32 (b n d a c) : Statement (.fsubF32 b n d a c) := fun _ => ⟨_, rfl, rfl⟩
theorem fmulF32 (b n d a c) : Statement (.fmulF32 b n d a c) := fun _ => ⟨_, rfl, rfl⟩
theorem fminF32 (b n d a c) : Statement (.fminF32 b n d a c) := fun _ => ⟨_, rfl, rfl⟩
theorem fmaxF32 (b n d a c) : Statement (.fmaxF32 b n d a c) := fun _ => ⟨_, rfl, rfl⟩
theorem fabsF32 (b n d a) : Statement (.fabsF32 b n d a) := fun _ => ⟨_, rfl, rfl⟩
theorem fnegF32 (b n d a) : Statement (.fnegF32 b n d a) := fun _ => ⟨_, rfl, rfl⟩
theorem fdivF32 (b n d a c) : Statement (.fdivF32 b n d a c) := fun _ => ⟨_, rfl, rfl⟩
theorem frcpF32 (b n d a) : Statement (.frcpF32 b n d a) := fun _ => ⟨_, rfl, rfl⟩
theorem frsqF32 (b n d a) : Statement (.frsqF32 b n d a) := fun _ => ⟨_, rfl, rfl⟩
theorem fsqrtF32 (b n d a) : Statement (.fsqrtF32 b n d a) := fun _ => ⟨_, rfl, rfl⟩
theorem fexp2F32 (b n d a) : Statement (.fexp2F32 b n d a) := fun _ => ⟨_, rfl, rfl⟩
theorem flog2F32 (b n d a) : Statement (.flog2F32 b n d a) := fun _ => ⟨_, rfl, rfl⟩
theorem fsinF32 (b n d a) : Statement (.fsinF32 b n d a) := fun _ => ⟨_, rfl, rfl⟩
theorem fcosF32 (b n d a) : Statement (.fcosF32 b n d a) := fun _ => ⟨_, rfl, rfl⟩
theorem ffloorF32 (b n d a) : Statement (.ffloorF32 b n d a) := fun _ => ⟨_, rfl, rfl⟩
theorem fceilF32 (b n d a) : Statement (.fceilF32 b n d a) := fun _ => ⟨_, rfl, rfl⟩
theorem frndF32 (b n d a) : Statement (.frndF32 b n d a) := fun _ => ⟨_, rfl, rfl⟩
theorem ffracF32 (b n d a) : Statement (.ffracF32 b n d a) := fun _ => ⟨_, rfl, rfl⟩
theorem faddF64 (b n d a c) : Statement (.faddF64 b n d a c) := fun _ => ⟨_, rfl, rfl⟩
theorem fsubF64 (b n d a c) : Statement (.fsubF64 b n d a c) := fun _ => ⟨_, rfl, rfl⟩
theorem fmulF64 (b n d a c) : Statement (.fmulF64 b n d a c) := fun _ => ⟨_, rfl, rfl⟩
theorem fminF64 (b n d a c) : Statement (.fminF64 b n d a c) := fun _ => ⟨_, rfl, rfl⟩
theorem fmaxF64 (b n d a c) : Statement (.fmaxF64 b n d a c) := fun _ => ⟨_, rfl, rfl⟩
theorem fabsF64 (b n d a) : Statement (.fabsF64 b n d a) := fun _ => ⟨_, rfl, rfl⟩
theorem fnegF64 (b n d a) : Statement (.fnegF64 b n d a) := fun _ => ⟨_, rfl, rfl⟩
theorem fdivF64 (b n d a c) : Statement (.fdivF64 b n d a c) := fun _ => ⟨_, rfl, rfl⟩
theorem frcpF64 (b n d a) : Statement (.frcpF64 b n d a) := fun _ => ⟨_, rfl, rfl⟩
theorem frsqF64 (b n d a) : Statement (.frsqF64 b n d a) := fun _ => ⟨_, rfl, rfl⟩
theorem fsqrtF64 (b n d a) : Statement (.fsqrtF64 b n d a) := fun _ => ⟨_, rfl, rfl⟩
theorem fexp2F64 (b n d a) : Statement (.fexp2F64 b n d a) := fun _ => ⟨_, rfl, rfl⟩
theorem flog2F64 (b n d a) : Statement (.flog2F64 b n d a) := fun _ => ⟨_, rfl, rfl⟩
theorem fsinF64 (b n d a) : Statement (.fsinF64 b n d a) := fun _ => ⟨_, rfl, rfl⟩
theorem fcosF64 (b n d a) : Statement (.fcosF64 b n d a) := fun _ => ⟨_, rfl, rfl⟩
theorem ffloorF64 (b n d a) : Statement (.ffloorF64 b n d a) := fun _ => ⟨_, rfl, rfl⟩
theorem fceilF64 (b n d a) : Statement (.fceilF64 b n d a) := fun _ => ⟨_, rfl, rfl⟩
theorem frndF64 (b n d a) : Statement (.frndF64 b n d a) := fun _ => ⟨_, rfl, rfl⟩
theorem ffracF64 (b n d a) : Statement (.ffracF64 b n d a) := fun _ => ⟨_, rfl, rfl⟩
theorem faddF16 (b n d a c) : Statement (.faddF16 b n d a c) := fun _ => ⟨_, rfl, rfl⟩
theorem fsubF16 (b n d a c) : Statement (.fsubF16 b n d a c) := fun _ => ⟨_, rfl, rfl⟩
theorem fmulF16 (b n d a c) : Statement (.fmulF16 b n d a c) := fun _ => ⟨_, rfl, rfl⟩
theorem fminF16 (b n d a c) : Statement (.fminF16 b n d a c) := fun _ => ⟨_, rfl, rfl⟩
theorem fmaxF16 (b n d a c) : Statement (.fmaxF16 b n d a c) := fun _ => ⟨_, rfl, rfl⟩
theorem fabsF16 (b n d a) : Statement (.fabsF16 b n d a) := fun _ => ⟨_, rfl, rfl⟩
theorem fnegF16 (b n d a) : Statement (.fnegF16 b n d a) := fun _ => ⟨_, rfl, rfl⟩
theorem fdivF16 (b n d a c) : Statement (.fdivF16 b n d a c) := fun _ => ⟨_, rfl, rfl⟩
theorem frcpF16 (b n d a) : Statement (.frcpF16 b n d a) := fun _ => ⟨_, rfl, rfl⟩
theorem frsqF16 (b n d a) : Statement (.frsqF16 b n d a) := fun _ => ⟨_, rfl, rfl⟩
theorem fsqrtF16 (b n d a) : Statement (.fsqrtF16 b n d a) := fun _ => ⟨_, rfl, rfl⟩
theorem fexp2F16 (b n d a) : Statement (.fexp2F16 b n d a) := fun _ => ⟨_, rfl, rfl⟩
theorem flog2F16 (b n d a) : Statement (.flog2F16 b n d a) := fun _ => ⟨_, rfl, rfl⟩
theorem fsinF16 (b n d a) : Statement (.fsinF16 b n d a) := fun _ => ⟨_, rfl, rfl⟩
theorem fcosF16 (b n d a) : Statement (.fcosF16 b n d a) := fun _ => ⟨_, rfl, rfl⟩
theorem ffloorF16 (b n d a) : Statement (.ffloorF16 b n d a) := fun _ => ⟨_, rfl, rfl⟩
theorem fceilF16 (b n d a) : Statement (.fceilF16 b n d a) := fun _ => ⟨_, rfl, rfl⟩
theorem frndF16 (b n d a) : Statement (.frndF16 b n d a) := fun _ => ⟨_, rfl, rfl⟩
theorem ffracF16 (b n d a) : Statement (.ffracF16 b n d a) := fun _ => ⟨_, rfl, rfl⟩
theorem faddBf16 (b n d a c) : Statement (.faddBf16 b n d a c) := fun _ => ⟨_, rfl, rfl⟩
theorem fsubBf16 (b n d a c) : Statement (.fsubBf16 b n d a c) := fun _ => ⟨_, rfl, rfl⟩
theorem fmulBf16 (b n d a c) : Statement (.fmulBf16 b n d a c) := fun _ => ⟨_, rfl, rfl⟩
theorem fminBf16 (b n d a c) : Statement (.fminBf16 b n d a c) := fun _ => ⟨_, rfl, rfl⟩
theorem fmaxBf16 (b n d a c) : Statement (.fmaxBf16 b n d a c) := fun _ => ⟨_, rfl, rfl⟩
theorem fabsBf16 (b n d a) : Statement (.fabsBf16 b n d a) := fun _ => ⟨_, rfl, rfl⟩
theorem fnegBf16 (b n d a) : Statement (.fnegBf16 b n d a) := fun _ => ⟨_, rfl, rfl⟩
theorem fdivBf16 (b n d a c) : Statement (.fdivBf16 b n d a c) := fun _ => ⟨_, rfl, rfl⟩
theorem frcpBf16 (b n d a) : Statement (.frcpBf16 b n d a) := fun _ => ⟨_, rfl, rfl⟩
theorem frsqBf16 (b n d a) : Statement (.frsqBf16 b n d a) := fun _ => ⟨_, rfl, rfl⟩
theorem fsqrtBf16 (b n d a) : Statement (.fsqrtBf16 b n d a) := fun _ => ⟨_, rfl, rfl⟩
theorem fexp2Bf16 (b n d a) : Statement (.fexp2Bf16 b n d a) := fun _ => ⟨_, rfl, rfl⟩
theorem flog2Bf16 (b n d a) : Statement (.flog2Bf16 b n d a) := fun _ => ⟨_, rfl, rfl⟩
theorem fsinBf16 (b n d a) : Statement (.fsinBf16 b n d a) := fun _ => ⟨_, rfl, rfl⟩
theorem fcosBf16 (b n d a) : Statement (.fcosBf16 b n d a) := fun _ => ⟨_, rfl, rfl⟩
theorem ffloorBf16 (b n d a) : Statement (.ffloorBf16 b n d a) := fun _ => ⟨_, rfl, rfl⟩
theorem fceilBf16 (b n d a) : Statement (.fceilBf16 b n d a) := fun _ => ⟨_, rfl, rfl⟩
theorem frndBf16 (b n d a) : Statement (.frndBf16 b n d a) := fun _ => ⟨_, rfl, rfl⟩
theorem ffracBf16 (b n d a) : Statement (.ffracBf16 b n d a) := fun _ => ⟨_, rfl, rfl⟩
theorem faddF16x2 (b n d a c) : Statement (.faddF16x2 b n d a c) := fun _ => ⟨_, rfl, rfl⟩
theorem fsubF16x2 (b n d a c) : Statement (.fsubF16x2 b n d a c) := fun _ => ⟨_, rfl, rfl⟩
theorem fmulF16x2 (b n d a c) : Statement (.fmulF16x2 b n d a c) := fun _ => ⟨_, rfl, rfl⟩
theorem fminF16x2 (b n d a c) : Statement (.fminF16x2 b n d a c) := fun _ => ⟨_, rfl, rfl⟩
theorem fmaxF16x2 (b n d a c) : Statement (.fmaxF16x2 b n d a c) := fun _ => ⟨_, rfl, rfl⟩
theorem fabsF16x2 (b n d a) : Statement (.fabsF16x2 b n d a) := fun _ => ⟨_, rfl, rfl⟩
theorem fnegF16x2 (b n d a) : Statement (.fnegF16x2 b n d a) := fun _ => ⟨_, rfl, rfl⟩
theorem fdivF16x2 (b n d a c) : Statement (.fdivF16x2 b n d a c) := fun _ => ⟨_, rfl, rfl⟩
theorem frcpF16x2 (b n d a) : Statement (.frcpF16x2 b n d a) := fun _ => ⟨_, rfl, rfl⟩
theorem frsqF16x2 (b n d a) : Statement (.frsqF16x2 b n d a) := fun _ => ⟨_, rfl, rfl⟩
theorem fsqrtF16x2 (b n d a) : Statement (.fsqrtF16x2 b n d a) := fun _ => ⟨_, rfl, rfl⟩
theorem fexp2F16x2 (b n d a) : Statement (.fexp2F16x2 b n d a) := fun _ => ⟨_, rfl, rfl⟩
theorem flog2F16x2 (b n d a) : Statement (.flog2F16x2 b n d a) := fun _ => ⟨_, rfl, rfl⟩
theorem fsinF16x2 (b n d a) : Statement (.fsinF16x2 b n d a) := fun _ => ⟨_, rfl, rfl⟩
theorem fcosF16x2 (b n d a) : Statement (.fcosF16x2 b n d a) := fun _ => ⟨_, rfl, rfl⟩
theorem ffloorF16x2 (b n d a) : Statement (.ffloorF16x2 b n d a) := fun _ => ⟨_, rfl, rfl⟩
theorem fceilF16x2 (b n d a) : Statement (.fceilF16x2 b n d a) := fun _ => ⟨_, rfl, rfl⟩
theorem frndF16x2 (b n d a) : Statement (.frndF16x2 b n d a) := fun _ => ⟨_, rfl, rfl⟩
theorem ffracF16x2 (b n d a) : Statement (.ffracF16x2 b n d a) := fun _ => ⟨_, rfl, rfl⟩
theorem fcmp (b : Bool) (d : BitVec 6) (a : BitVec 6) (c : BitVec 6) (t : BitVec 2) (k : BitVec 3) :
    Statement (.fcmp b d a c t k) := fun _ => ⟨_, rfl, by
  have slices : ∀ (t : BitVec 2) (k : BitVec 3), 
      (0#1 ++ t ++ k : BitVec 6).extractLsb' 0 3 = k ∧
      (0#1 ++ t ++ k : BitVec 6).extractLsb' 3 2 = t ∧
      (0#1 ++ t ++ k : BitVec 6).extractLsb' 5 1 = 0#1 := by decide
  simp [decodeFields, need, slices t k]⟩
theorem cvt (b : Bool) (n : Bool) (d : BitVec 6) (a : BitVec 6) (x : BitVec 3) (y : BitVec 3) :
    Statement (.cvt b n d a x y) := fun _ => ⟨_, rfl, by
  have slices : ∀ (x : BitVec 3) (y : BitVec 3), 
      (x ++ y : BitVec 6).extractLsb' 0 3 = y ∧
      (x ++ y : BitVec 6).extractLsb' 3 3 = x := by decide
  simp [decodeFields, need, slices x y]⟩
theorem dseedF32 (b n d a k) : Statement (.dseedF32 b n d a k) := fun _ => ⟨_, rfl, rfl⟩
theorem dseedF64 (b n d a k) : Statement (.dseedF64 b n d a k) := fun _ => ⟨_, rfl, rfl⟩
theorem dzero (b n d a) : Statement (.dzero b n d a) := fun _ => ⟨_, rfl, rfl⟩
theorem dzero64 (b n d a) : Statement (.dzero64 b n d a) := fun _ => ⟨_, rfl, rfl⟩
theorem dgetF32 (b n d a k) : Statement (.dgetF32 b n d a k) := fun _ => ⟨_, rfl, rfl⟩
theorem dgetF64 (b n d a k) : Statement (.dgetF64 b n d a k) := fun _ => ⟨_, rfl, rfl⟩
theorem dputF32 (b d a k) : Statement (.dputF32 b d a k) := fun _ => ⟨_, rfl, rfl⟩
theorem dputF64 (b d a k) : Statement (.dputF64 b d a k) := fun _ => ⟨_, rfl, rfl⟩
theorem deval (b : Bool) (n : Bool) (d : BitVec 6) (a : BitVec 6) (u : BitVec 6) (t : BitVec 2) :
    Statement (.deval b n d a u t) := fun _ => ⟨_, rfl, by
  have slices : ∀ (t : BitVec 2), 
      (0#4 ++ t : BitVec 6).extractLsb' 0 2 = t ∧
      (0#4 ++ t : BitVec 6).extractLsb' 2 4 = 0#4 := by decide
  simp [decodeFields, need, slices t]⟩
theorem pcmp (b : Bool) (d : BitVec 6) (a : BitVec 6) (c : BitVec 6) (g : BitVec 1) (s : BitVec 3) (t : BitVec 2) :
    Statement (.pcmp b d a c g s t) := fun _ => ⟨_, rfl, by
  have slices : ∀ (g : BitVec 1) (s : BitVec 3) (t : BitVec 2), 
      (g ++ s ++ t : BitVec 6).extractLsb' 0 2 = t ∧
      (g ++ s ++ t : BitVec 6).extractLsb' 2 3 = s ∧
      (g ++ s ++ t : BitVec 6).extractLsb' 5 1 = g := by decide
  simp [decodeFields, need, slices g s t]⟩
theorem pset (b d a c) : Statement (.pset b d a c) := fun _ => ⟨_, rfl, rfl⟩
theorem pand (b d a c) : Statement (.pand b d a c) := fun _ => ⟨_, rfl, rfl⟩
theorem por (b d a c) : Statement (.por b d a c) := fun _ => ⟨_, rfl, rfl⟩
theorem pnot (b d a) : Statement (.pnot b d a) := fun _ => ⟨_, rfl, rfl⟩
theorem pget (b n d a) : Statement (.pget b n d a) := fun _ => ⟨_, rfl, rfl⟩
theorem pgetW (b n d a) : Statement (.pgetW b n d a) := fun _ => ⟨_, rfl, rfl⟩
theorem pput (b d a c) : Statement (.pput b d a c) := fun _ => ⟨_, rfl, rfl⟩
theorem pcoll (b d a) : Statement (.pcoll b d a) := fun _ => ⟨_, rfl, rfl⟩
theorem pblend (b : Bool) (n : Bool) (d : BitVec 6) (t : BitVec 2) (q : BitVec 3) (c : BitVec 6) (e : BitVec 6) :
    Statement (.pblend b n d t q c e) := fun _ => ⟨_, rfl, by
  have slices : ∀ (t : BitVec 2) (q : BitVec 3), 
      (t ++ 0#1 ++ q : BitVec 6).extractLsb' 0 3 = q ∧
      (t ++ 0#1 ++ q : BitVec 6).extractLsb' 3 1 = 0#1 ∧
      (t ++ 0#1 ++ q : BitVec 6).extractLsb' 4 2 = t := by decide
  simp [decodeFields, need, slices t q]⟩
theorem psel (b : Bool) (n : Bool) (d : BitVec 6) (a : BitVec 6) (c : BitVec 6) (w : BitVec 1) (q : BitVec 3) :
    Statement (.psel b n d a c w q) := fun _ => ⟨_, rfl, by
  have slices : ∀ (w : BitVec 1) (q : BitVec 3), 
      (0#1 ++ w ++ 0#1 ++ q : BitVec 6).extractLsb' 0 3 = q ∧
      (0#1 ++ w ++ 0#1 ++ q : BitVec 6).extractLsb' 3 1 = 0#1 ∧
      (0#1 ++ w ++ 0#1 ++ q : BitVec 6).extractLsb' 4 1 = w ∧
      (0#1 ++ w ++ 0#1 ++ q : BitVec 6).extractLsb' 5 1 = 0#1 ∧
      ¬ (0#1 ++ w ++ 0#1 ++ q : BitVec 6) = 32#6 ∧
      ¬ (0#1 ++ w ++ 0#1 ++ q : BitVec 6) = 33#6 ∧
      ¬ (0#1 ++ w ++ 0#1 ++ q : BitVec 6) = 34#6 ∧
      ¬ (0#1 ++ w ++ 0#1 ++ q : BitVec 6) = 35#6 := by decide
  simp [decodeFields, need, decode27, slices w q]⟩
theorem rkey (b : Bool) (a : BitVec 6) (c : BitVec 6) : Statement (.rkey b a c) := fun _ => ⟨_, rfl, by
  simp [decodeFields, need, decode27]⟩
theorem rnextU32 (b : Bool) (n : Bool) (d : BitVec 6) : Statement (.rnextU32 b n d) := fun _ => ⟨_, rfl, by
  simp [decodeFields, need, decode27]⟩
theorem rnextU64 (b : Bool) (n : Bool) (d : BitVec 6) : Statement (.rnextU64 b n d) := fun _ => ⟨_, rfl, by
  simp [decodeFields, need, decode27]⟩
theorem rnextF32 (b : Bool) (n : Bool) (d : BitVec 6) : Statement (.rnextF32 b n d) := fun _ => ⟨_, rfl, by
  simp [decodeFields, need, decode27]⟩
theorem ld (b : Bool) (d : BitVec 6) (a : BitVec 6) (c : BitVec 6) (w : BitVec 3) :
    Statement (.ld b d a c w) := fun _ => ⟨_, rfl, by
  have slices : ∀ (w : BitVec 3), 
      (w ++ 0#3 : BitVec 6).extractLsb' 0 3 = 0#3 ∧
      (w ++ 0#3 : BitVec 6).extractLsb' 3 3 = w := by decide
  simp [decodeFields, need, slices w]⟩
theorem st (b : Bool) (d : BitVec 6) (a : BitVec 6) (c : BitVec 6) (w : BitVec 3) :
    Statement (.st b d a c w) := fun _ => ⟨_, rfl, by
  have slices : ∀ (w : BitVec 3), 
      (w ++ 0#3 : BitVec 6).extractLsb' 0 3 = 0#3 ∧
      (w ++ 0#3 : BitVec 6).extractLsb' 3 3 = w := by decide
  simp [decodeFields, need, slices w]⟩
theorem ldt (b : Bool) (d : BitVec 6) (a : BitVec 6) (c : BitVec 6) (u : BitVec 1) (t : BitVec 2) :
    Statement (.ldt b d a c u t) := fun _ => ⟨_, rfl, by
  have slices : ∀ (u : BitVec 1) (t : BitVec 2), 
      (0#1 ++ u ++ t ++ 0#2 : BitVec 6).extractLsb' 0 2 = 0#2 ∧
      (0#1 ++ u ++ t ++ 0#2 : BitVec 6).extractLsb' 2 2 = t ∧
      (0#1 ++ u ++ t ++ 0#2 : BitVec 6).extractLsb' 4 1 = u ∧
      (0#1 ++ u ++ t ++ 0#2 : BitVec 6).extractLsb' 5 1 = 0#1 := by decide
  simp [decodeFields, need, decode2A, slices u t]⟩
theorem stt (b : Bool) (d : BitVec 6) (a : BitVec 6) (c : BitVec 6) (u : BitVec 1) (t : BitVec 1) :
    Statement (.stt b d a c u t) := fun _ => ⟨_, rfl, by
  have slices : ∀ (u : BitVec 1) (t : BitVec 1), 
      (1#1 ++ u ++ 0#1 ++ t ++ 0#2 : BitVec 6).extractLsb' 0 2 = 0#2 ∧
      (1#1 ++ u ++ 0#1 ++ t ++ 0#2 : BitVec 6).extractLsb' 2 1 = t ∧
      (1#1 ++ u ++ 0#1 ++ t ++ 0#2 : BitVec 6).extractLsb' 2 2 = 0#1 ++ t ∧
      (1#1 ++ u ++ 0#1 ++ t ++ 0#2 : BitVec 6).extractLsb' 3 1 = 0#1 ∧
      (1#1 ++ u ++ 0#1 ++ t ++ 0#2 : BitVec 6).extractLsb' 4 1 = u ∧
      (1#1 ++ u ++ 0#1 ++ t ++ 0#2 : BitVec 6).extractLsb' 5 1 = 1#1 := by decide
  simp [decodeFields, need, decode2A, slices u t]⟩
theorem ldd (b : Bool) (d : BitVec 6) (a : BitVec 6) (c : BitVec 6) (f : BitVec 1) :
    Statement (.ldd b d a c f) := fun _ => ⟨_, rfl, by
  have slices : ∀ (f : BitVec 1), 
      (0#5 ++ f : BitVec 6).extractLsb' 0 1 = f ∧
      (0#5 ++ f : BitVec 6).extractLsb' 1 5 = 0#5 := by decide
  simp [decodeFields, need, decode2B, slices f]⟩
theorem std (b : Bool) (d : BitVec 6) (a : BitVec 6) (c : BitVec 6) (f : BitVec 1) :
    Statement (.std b d a c f) := fun _ => ⟨_, rfl, by
  have slices : ∀ (f : BitVec 1), 
      (16#5 ++ f : BitVec 6).extractLsb' 0 1 = f ∧
      (16#5 ++ f : BitVec 6).extractLsb' 1 5 = 16#5 := by decide
  simp [decodeFields, need, decode2B, slices f]⟩
theorem lds (b : Bool) (d : BitVec 6) (a : BitVec 6) (c : BitVec 6) (w : BitVec 3) :
    Statement (.lds b d a c w) := fun _ => ⟨_, rfl, by
  have slices : ∀ (w : BitVec 3), 
      (w ++ 0#3 : BitVec 6).extractLsb' 0 3 = 0#3 ∧
      (w ++ 0#3 : BitVec 6).extractLsb' 3 3 = w := by decide
  simp [decodeFields, need, slices w]⟩
theorem sts (b : Bool) (d : BitVec 6) (a : BitVec 6) (c : BitVec 6) (w : BitVec 3) :
    Statement (.sts b d a c w) := fun _ => ⟨_, rfl, by
  have slices : ∀ (w : BitVec 3), 
      (w ++ 0#3 : BitVec 6).extractLsb' 0 3 = 0#3 ∧
      (w ++ 0#3 : BitVec 6).extractLsb' 3 3 = w := by decide
  simp [decodeFields, need, slices w]⟩
theorem bhdrRd (b d a) : Statement (.bhdrRd b d a) := fun _ => ⟨_, rfl, rfl⟩
theorem bhdrWr (b d a) : Statement (.bhdrWr b d a) := fun _ => ⟨_, rfl, rfl⟩
theorem pref (b a c) : Statement (.pref b a c) := fun _ => ⟨_, rfl, rfl⟩
theorem tset (b a c) : Statement (.tset b a c) := fun _ => ⟨_, rfl, rfl⟩
theorem tsetClr (b a) : Statement (.tsetClr b a) := fun _ => ⟨_, rfl, rfl⟩
theorem tstat (b n d a) : Statement (.tstat b n d a) := fun _ => ⟨_, rfl, rfl⟩
theorem atom (b : Bool) (d : BitVec 6) (a : BitVec 6) (c : BitVec 6) (o : BitVec 2) (p : BitVec 3) (w : BitVec 1) :
    Statement (.atom b d a c o p w) := fun hw => ⟨_, rfl, by
  have o3 : ¬ o = 3#2 := by simpa [Instr.wf, Instr.legal] using (Bool.and_eq_true_iff.mp (Bool.and_eq_true_iff.mp hw).1).2
  have slices : ∀ (o : BitVec 2) (p : BitVec 3) (w : BitVec 1), 
      (o ++ p ++ w : BitVec 6).extractLsb' 0 1 = w ∧
      (o ++ p ++ w : BitVec 6).extractLsb' 1 3 = p ∧
      (o ++ p ++ w : BitVec 6).extractLsb' 4 2 = o := by decide
  simp [decodeFields, need, decode30, o3, slices o p w]⟩
theorem atomFadd (b : Bool) (d : BitVec 6) (a : BitVec 6) (c : BitVec 6) (o : BitVec 2) (w : BitVec 1) :
    Statement (.atomFadd b d a c o w) := fun _ => ⟨_, rfl, by
  have slices : ∀ (o : BitVec 2) (w : BitVec 1), 
      (6#3 ++ o ++ w : BitVec 6).extractLsb' 0 1 = w ∧
      (6#3 ++ o ++ w : BitVec 6).extractLsb' 1 2 = o ∧
      (6#3 ++ o ++ w : BitVec 6).extractLsb' 3 3 = 6#3 ∧
      (6#3 ++ o ++ w : BitVec 6).extractLsb' 4 2 = 3#2 := by decide
  simp [decodeFields, need, decode30, slices o w]⟩
theorem atoms (b : Bool) (d : BitVec 6) (a : BitVec 6) (c : BitVec 6) (o : BitVec 2) (p : BitVec 3) (w : BitVec 1) :
    Statement (.atoms b d a c o p w) := fun hw => ⟨_, rfl, by
  have o3 : ¬ o = 3#2 := by simpa [Instr.wf, Instr.legal] using (Bool.and_eq_true_iff.mp (Bool.and_eq_true_iff.mp hw).1).2
  have slices : ∀ (o : BitVec 2) (p : BitVec 3) (w : BitVec 1), 
      (o ++ p ++ w : BitVec 6).extractLsb' 0 1 = w ∧
      (o ++ p ++ w : BitVec 6).extractLsb' 1 3 = p ∧
      (o ++ p ++ w : BitVec 6).extractLsb' 4 2 = o := by decide
  simp [decodeFields, need, decode31, o3, slices o p w]⟩
theorem atomsFadd (b : Bool) (d : BitVec 6) (a : BitVec 6) (c : BitVec 6) (o : BitVec 2) (w : BitVec 1) :
    Statement (.atomsFadd b d a c o w) := fun _ => ⟨_, rfl, by
  have slices : ∀ (o : BitVec 2) (w : BitVec 1), 
      (6#3 ++ o ++ w : BitVec 6).extractLsb' 0 1 = w ∧
      (6#3 ++ o ++ w : BitVec 6).extractLsb' 1 2 = o ∧
      (6#3 ++ o ++ w : BitVec 6).extractLsb' 3 3 = 6#3 ∧
      (6#3 ++ o ++ w : BitVec 6).extractLsb' 4 2 = 3#2 := by decide
  simp [decodeFields, need, decode31, slices o w]⟩
theorem acq (b d a) : Statement (.acq b d a) := fun _ => ⟨_, rfl, rfl⟩
theorem rel (b a c) : Statement (.rel b a c) := fun _ => ⟨_, rfl, rfl⟩
theorem fence (b) : Statement (.fence b) := fun _ => ⟨_, rfl, rfl⟩
theorem bind (b d a c) : Statement (.bind b d a c) := fun _ => ⟨_, rfl, rfl⟩
theorem bindClr (b d a) : Statement (.bindClr b d a) := fun _ => ⟨_, rfl, rfl⟩
theorem mwait (d : BitVec 6) (a : BitVec 6) (c : BitVec 6) (q : BitVec 1) (y : BitVec 1) (w : BitVec 1) :
    Statement (.mwait d a c q y w) := fun _ => ⟨_, rfl, by
  have slices : ∀ (q : BitVec 1) (y : BitVec 1) (w : BitVec 1), 
      (0#3 ++ q ++ y ++ w : BitVec 6).extractLsb' 0 1 = w ∧
      (0#3 ++ q ++ y ++ w : BitVec 6).extractLsb' 1 1 = y ∧
      (0#3 ++ q ++ y ++ w : BitVec 6).extractLsb' 2 1 = q ∧
      (0#3 ++ q ++ y ++ w : BitVec 6).extractLsb' 3 3 = 0#3 := by decide
  simp [decodeFields, need, slices q y w]⟩
theorem barArv (b n d a c) : Statement (.barArv b n d a c) := fun _ => ⟨_, rfl, rfl⟩
theorem barWt (a c) : Statement (.barWt a c) := fun _ => ⟨_, rfl, rfl⟩
theorem barSyn (a c) : Statement (.barSyn a c) := fun _ => ⟨_, rfl, rfl⟩
theorem gbar (c) : Statement (.gbar c) := fun _ => ⟨_, rfl, rfl⟩
theorem mbput (d a) : Statement (.mbput d a) := fun _ => ⟨_, rfl, rfl⟩
theorem mbtake (d a) : Statement (.mbtake d a) := fun _ => ⟨_, rfl, rfl⟩
theorem bra (o : BitVec 25) : Statement (.bra o) := fun _ => ⟨_, rfl, by
  simp [decodeFields, need, bit_and_sixes]⟩
theorem call (o : BitVec 25) : Statement (.call o) := fun _ => ⟨_, rfl, by
  simp [decodeFields, need, bit_and_sixes]⟩
theorem brq (g : BitVec 1) (q : BitVec 3) (o : BitVec 18) : Statement (.brq g q o) := fun _ => ⟨_, rfl, by
  have slices : ∀ (g : BitVec 1) (q : BitVec 3), 
      (0#2 ++ g ++ q : BitVec 6).extractLsb' 0 3 = q ∧
      (0#2 ++ g ++ q : BitVec 6).extractLsb' 3 1 = g ∧
      (0#2 ++ g ++ q : BitVec 6).extractLsb' 4 2 = 0#2 := by decide
  simp [decodeFields, need, three_sixes, slices g q]⟩
theorem nop (b) : Statement (.nop b) := fun _ => ⟨_, rfl, rfl⟩
theorem brx (a) : Statement (.brx a) := fun _ => ⟨_, rfl, rfl⟩
theorem callx (a) : Statement (.callx a) := fun _ => ⟨_, rfl, rfl⟩
theorem ret : Statement (.ret) := fun _ => ⟨_, rfl, rfl⟩
theorem callj (l a c) : Statement (.callj l a c) := fun _ => ⟨_, rfl, rfl⟩
theorem regroup (l a) : Statement (.regroup l a) := fun _ => ⟨_, rfl, rfl⟩
theorem join (b k) : Statement (.join b k) := fun _ => ⟨_, rfl, rfl⟩
theorem leave (b k) : Statement (.leave b k) := fun _ => ⟨_, rfl, rfl⟩
theorem waitm (k) : Statement (.waitm k) := fun _ => ⟨_, rfl, rfl⟩
theorem region (b : Bool) (v : BitVec 14) (q : BitVec 4) : Statement (.region b v q) := fun _ => ⟨_, rfl, by
  have slices : ∀ (y : BitVec 2) (q : BitVec 4), 
      (y ++ q : BitVec 6).extractLsb' 0 4 = q ∧
      (y ++ q : BitVec 6).extractLsb' 4 2 = y := by decide
  simp [decodeFields, need, decode39, marker_parts, slices (v.extractLsb' 0 2) q]⟩
theorem exit : Statement (.exit) := fun _ => ⟨_, rfl, rfl⟩
theorem xq (a) : Statement (.xq a) := fun _ => ⟨_, rfl, rfl⟩
theorem xqn (a) : Statement (.xqn a) := fun _ => ⟨_, rfl, rfl⟩
theorem elect (b d) : Statement (.elect b d) := fun _ => ⟨_, rfl, rfl⟩
theorem mmissue (a) : Statement (.mmissue a) := fun _ => ⟨_, rfl, rfl⟩
theorem accsv (d a c) : Statement (.accsv d a c) := fun _ => ⟨_, rfl, rfl⟩
theorem accld (d a c) : Statement (.accld d a c) := fun _ => ⟨_, rfl, rfl⟩
theorem electU (b d u) : Statement (.electU b d u) := fun _ => ⟨_, rfl, rfl⟩
theorem trace (d a c) : Statement (.trace d a c) := fun _ => ⟨_, rfl, rfl⟩
theorem tracep (d a c) : Statement (.tracep d a c) := fun _ => ⟨_, rfl, rfl⟩
theorem xpair (a) : Statement (.xpair a) := fun _ => ⟨_, rfl, rfl⟩
theorem tres (d a c) : Statement (.tres d a c) := fun _ => ⟨_, rfl, rfl⟩
theorem tresAcc (d a c) : Statement (.tresAcc d a c) := fun _ => ⟨_, rfl, rfl⟩
theorem tresTerm (d a c) : Statement (.tresTerm d a c) := fun _ => ⟨_, rfl, rfl⟩
theorem reproj (a) : Statement (.reproj a) := fun _ => ⟨_, rfl, rfl⟩
theorem fetchw (d a c) : Statement (.fetchw d a c) := fun _ => ⟨_, rfl, rfl⟩
theorem launch (d a c) : Statement (.launch d a c) := fun _ => ⟨_, rfl, rfl⟩
theorem trap (i : BitVec 12) : Statement (.trap i) := fun _ => ⟨_, rfl, by
  simp [decodeFields, need, decode3E, two_sixes]⟩
theorem eret : Statement (.eret) := fun _ => ⟨_, rfl, rfl⟩
theorem gets (b d a) : Statement (.gets b d a) := fun _ => ⟨_, rfl, rfl⟩
theorem sets (b d a) : Statement (.sets b d a) := fun _ => ⟨_, rfl, rfl⟩
theorem himm (i : BitVec 24) : Statement (.himm i) := fun _ => ⟨_, rfl, by
  simp [decodeFields, need, decode3F, four_sixes]⟩
theorem hsel (h : BitVec 1) (u : BitVec 5) : Statement (.hsel h u) := fun _ => ⟨_, rfl, by
  have slices : ∀ (h : BitVec 1) (u : BitVec 5), 
      (h ++ u : BitVec 6).extractLsb' 0 5 = u ∧
      (h ++ u : BitVec 6).extractLsb' 5 1 = h := by decide
  simp [decodeFields, need, decode3F, slices h u]⟩
theorem hgrd (g : BitVec 1) (q : BitVec 3) : Statement (.hgrd g q) := fun _ => ⟨_, rfl, by
  have slices : ∀ (g : BitVec 1) (q : BitVec 3), 
      (0#2 ++ g ++ q : BitVec 6).extractLsb' 0 3 = q ∧
      (0#2 ++ g ++ q : BitVec 6).extractLsb' 3 1 = g ∧
      (0#2 ++ g ++ q : BitVec 6).extractLsb' 4 2 = 0#2 := by decide
  simp [decodeFields, need, decode3F, slices g q]⟩
theorem hrnd (m : BitVec 2) : Statement (.hrnd m) := fun _ => ⟨_, rfl, by
  have slices : ∀ (m : BitVec 2), 
      (0#4 ++ m : BitVec 6).extractLsb' 0 2 = m ∧
      (0#4 ++ m : BitVec 6).extractLsb' 2 4 = 0#4 := by decide
  simp [decodeFields, need, decode3F, slices m]⟩
theorem hscp (s : BitVec 2) : Statement (.hscp s) := fun _ => ⟨_, rfl, by
  have slices : ∀ (s : BitVec 2), 
      (0#4 ++ s : BitVec 6).extractLsb' 0 2 = s ∧
      (0#4 ++ s : BitVec 6).extractLsb' 2 4 = 0#4 := by decide
  simp [decodeFields, need, decode3F, slices s]⟩
theorem hcch (p : BitVec 2) : Statement (.hcch p) := fun _ => ⟨_, rfl, by
  have slices : ∀ (p : BitVec 2), 
      (0#4 ++ p : BitVec 6).extractLsb' 0 2 = p ∧
      (0#4 ++ p : BitVec 6).extractLsb' 2 4 = 0#4 := by decide
  simp [decodeFields, need, decode3F, slices p]⟩
theorem hsch (s : BitVec 8) : Statement (.hsch s) := fun _ => ⟨_, rfl, by
  have slices : ∀ y : BitVec 2, 
      (0#4 ++ y : BitVec 6).extractLsb' 0 2 = y ∧
      (0#4 ++ y : BitVec 6).extractLsb' 2 4 = 0#4 := by decide
  simp [decodeFields, need, decode3F, estimate_parts, slices (s.extractLsb' 6 2)]⟩
theorem pickGroup (x0 x1) : Statement (.pickGroup x0 x1) := fun h => nomatch h
theorem loadDataArrival (x0) : Statement (.loadDataArrival x0) := fun h => nomatch h
theorem faultResolved (x0 x1) : Statement (.faultResolved x0 x1) := fun h => nomatch h
theorem faultUnresolvable (x0 x1 x2) : Statement (.faultUnresolvable x0 x1 x2) := fun h => nomatch h
theorem windowAccessApply (x0 x1) : Statement (.windowAccessApply x0 x1) := fun h => nomatch h
theorem monitorWake (x0 x1) : Statement (.monitorWake x0 x1) := fun h => nomatch h
theorem mailboxWaitMet (x0 x1) : Statement (.mailboxWaitMet x0 x1) := fun h => nomatch h
theorem gangBarrierComplete (x0 x1 x2) : Statement (.gangBarrierComplete x0 x1 x2) := fun h => nomatch h
theorem joinerBatchClose (x0) : Statement (.joinerBatchClose x0) := fun h => nomatch h
theorem joinerMovesComplete (x0) : Statement (.joinerMovesComplete x0) := fun h => nomatch h
theorem preemptRequest (x0) : Statement (.preemptRequest x0) := fun h => nomatch h
theorem preemptTimeout (x0) : Statement (.preemptTimeout x0) := fun h => nomatch h
theorem crewResume (x0) : Statement (.crewResume x0) := fun h => nomatch h
theorem saveAreaSupply (x0 x1) : Statement (.saveAreaSupply x0 x1) := fun h => nomatch h
theorem trapHeld (x0 x1) : Statement (.trapHeld x0 x1) := fun h => nomatch h
theorem trapResume (x0 x1) : Statement (.trapResume x0 x1) := fun h => nomatch h
theorem trapEnter (x0 x1 x2) : Statement (.trapEnter x0 x1 x2) := fun h => nomatch h
theorem trapEnd (x0 x1) : Statement (.trapEnd x0 x1) := fun h => nomatch h
theorem trapAbort (x0 x1) : Statement (.trapAbort x0 x1) := fun h => nomatch h
theorem copyTake (x0) : Statement (.copyTake x0) := fun h => nomatch h
theorem copyComplete (x0 x1) : Statement (.copyComplete x0 x1) := fun h => nomatch h
theorem matrixMma (x0) : Statement (.matrixMma x0) := fun h => nomatch h
theorem matrixWload (x0) : Statement (.matrixWload x0) := fun h => nomatch h
theorem matrixFin (x0) : Statement (.matrixFin x0) := fun h => nomatch h
theorem matrixClr (x0) : Statement (.matrixClr x0) := fun h => nomatch h
theorem accEntryExecute (x0) : Statement (.accEntryExecute x0) := fun h => nomatch h
theorem matrixPassGrant (x0) : Statement (.matrixPassGrant x0) := fun h => nomatch h
theorem multiplierMismatch (x0) : Statement (.multiplierMismatch x0) := fun h => nomatch h
theorem rayEndOrSuspend (x0) : Statement (.rayEndOrSuspend x0) := fun h => nomatch h
theorem rayFaultStop (x0) : Statement (.rayFaultStop x0) := fun h => nomatch h
theorem rayReenter (x0) : Statement (.rayReenter x0) := fun h => nomatch h
theorem xpairComplete (x0) : Statement (.xpairComplete x0) := fun h => nomatch h
theorem reprojOperation (x0) : Statement (.reprojOperation x0) := fun h => nomatch h
theorem fetchwWake (x0 x1) : Statement (.fetchwWake x0 x1) := fun h => nomatch h
theorem doorbell (x0 x1 x2) : Statement (.doorbell x0 x1 x2) := fun h => nomatch h
theorem regw (x0 x1) : Statement (.regw x0 x1) := fun h => nomatch h
theorem regstRead (x0) : Statement (.regstRead x0) := fun h => nomatch h
theorem bar0ReservedWrite (x0 x1 x2) : Statement (.bar0ReservedWrite x0 x1 x2) := fun h => nomatch h
theorem queueDescriptorWrite (x0 x1) : Statement (.queueDescriptorWrite x0 x1) := fun h => nomatch h
theorem packetTake (x0) : Statement (.packetTake x0) := fun h => nomatch h
theorem distributeGang (x0) : Statement (.distributeGang x0) := fun h => nomatch h
theorem placeGang (x0) : Statement (.placeGang x0) := fun h => nomatch h
theorem gridComplete (x0) : Statement (.gridComplete x0) := fun h => nomatch h
theorem graphStart (x0) : Statement (.graphStart x0) := fun h => nomatch h
theorem graphNodeStart (x0 x1) : Statement (.graphNodeStart x0 x1) := fun h => nomatch h
theorem graphMatrixNode (x0 x1) : Statement (.graphMatrixNode x0 x1) := fun h => nomatch h
theorem graphNodeComplete (x0 x1) : Statement (.graphNodeComplete x0 x1) := fun h => nomatch h
theorem remotePayloadReceive (x0 x1 x2 x3) : Statement (.remotePayloadReceive x0 x1 x2 x3) := fun h => nomatch h
theorem peerRegistration (x0 x1) : Statement (.peerRegistration x0 x1) := fun h => nomatch h
theorem peerWake (x0 x1 x2) : Statement (.peerWake x0 x1 x2) := fun h => nomatch h
theorem transportFailure (x0) : Statement (.transportFailure x0) := fun h => nomatch h
theorem collectiveDoorbell (x0 x1) : Statement (.collectiveDoorbell x0 x1) := fun h => nomatch h
theorem collectiveSum (x0) : Statement (.collectiveSum x0) := fun h => nomatch h
theorem collectiveMin (x0) : Statement (.collectiveMin x0) := fun h => nomatch h
theorem collectiveMax (x0) : Statement (.collectiveMax x0) := fun h => nomatch h
theorem collectiveMessage (x0 x1 x2 x3) : Statement (.collectiveMessage x0 x1 x2 x3) := fun h => nomatch h
theorem collectiveCommit (x0) : Statement (.collectiveCommit x0) := fun h => nomatch h
theorem collectiveTimeout (x0 x1) : Statement (.collectiveTimeout x0 x1) := fun h => nomatch h
theorem checkpoint (x0 x1) : Statement (.checkpoint x0 x1) := fun h => nomatch h
theorem checkpointRestore (x0 x1) : Statement (.checkpointRestore x0 x1) := fun h => nomatch h
theorem coldStart (x0 x1) : Statement (.coldStart x0 x1) := fun h => nomatch h
theorem warmStart (x0 x1 x2) : Statement (.warmStart x0 x1 x2) := fun h => nomatch h
theorem startTimeout : Statement (.startTimeout) := fun h => nomatch h
theorem reset : Statement (.reset) := fun h => nomatch h
theorem recover : Statement (.recover) := fun h => nomatch h
theorem softErrorCorrected (x0 x1 x2) : Statement (.softErrorCorrected x0 x1 x2) := fun h => nomatch h
theorem uncorrectableError (x0) : Statement (.uncorrectableError x0) := fun h => nomatch h
theorem attestationRequest (x0 x1) : Statement (.attestationRequest x0 x1) := fun h => nomatch h
theorem powerThermalThrottle : Statement (.powerThermalThrottle) := fun h => nomatch h
theorem clockRestore : Statement (.clockRestore) := fun h => nomatch h
theorem thermalTrip : Statement (.thermalTrip) := fun h => nomatch h
theorem unassignedWord (x0) : Statement (.unassignedWord x0) := fun h => nomatch h
theorem hostDeviceMemoryAccess (x0 x1 x2 x3) : Statement (.hostDeviceMemoryAccess x0 x1 x2 x3) := fun h => nomatch h
theorem gridRemoval (x0) : Statement (.gridRemoval x0) := fun h => nomatch h

end RoundTrip

end Sys2Proof.Laws
end

