-- ==== Sys2Proof/Laws/State.lean ====
section
/-!
SUPPORT. What each update of the state changes, field by field.
-/

namespace Sys2Proof.Machine.State

open Sys2Proof

variable (s : State)

/-! ### updCore -/

@[simp] theorem updCore_agenda (c : Nat) (f : Core → Core) : (s.updCore c f).agenda = s.agenda := rfl
@[simp] theorem updCore_cur (c : Nat) (f : Core → Core) : (s.updCore c f).cur = s.cur := rfl
@[simp] theorem updCore_cores (c : Nat) (f : Core → Core) : (s.updCore c f).cores = s.cores.modify c f := rfl
@[simp] theorem updCore_clusters (c : Nat) (f : Core → Core) : (s.updCore c f).clusters = s.clusters := rfl
@[simp] theorem updCore_crews (c : Nat) (f : Core → Core) : (s.updCore c f).crews = s.crews := rfl
@[simp] theorem updCore_gangs (c : Nat) (f : Core → Core) : (s.updCore c f).gangs = s.gangs := rfl
@[simp] theorem updCore_grids (c : Nat) (f : Core → Core) : (s.updCore c f).grids = s.grids := rfl
@[simp] theorem updCore_graphs (c : Nat) (f : Core → Core) : (s.updCore c f).graphs = s.graphs := rfl
@[simp] theorem updCore_arrivals (c : Nat) (f : Core → Core) : (s.updCore c f).arrivals = s.arrivals := rfl
@[simp] theorem updCore_copies (c : Nat) (f : Core → Core) : (s.updCore c f).copies = s.copies := rfl
@[simp] theorem updCore_rays (c : Nat) (f : Core → Core) : (s.updCore c f).rays = s.rays := rfl
@[simp] theorem updCore_xpairs (c : Nat) (f : Core → Core) : (s.updCore c f).xpairs = s.xpairs := rfl
@[simp] theorem updCore_monitors (c : Nat) (f : Core → Core) : (s.updCore c f).monitors = s.monitors := rfl
@[simp] theorem updCore_colls (c : Nat) (f : Core → Core) : (s.updCore c f).colls = s.colls := rfl
@[simp] theorem updCore_regWrites (c : Nat) (f : Core → Core) : (s.updCore c f).regWrites = s.regWrites := rfl
@[simp] theorem updCore_moves (c : Nat) (f : Core → Core) : (s.updCore c f).moves = s.moves := rfl
@[simp] theorem updCore_trapActions (c : Nat) (f : Core → Core) : (s.updCore c f).trapActions = s.trapActions := rfl
@[simp] theorem updCore_codeMem (c : Nat) (f : Core → Core) : (s.updCore c f).codeMem = s.codeMem := rfl
@[simp] theorem updCore_collSeqs (c : Nat) (f : Core → Core) : (s.updCore c f).collSeqs = s.collSeqs := rfl
@[simp] theorem updCore_collEarly (c : Nat) (f : Core → Core) : (s.updCore c f).collEarly = s.collEarly := rfl
@[simp] theorem updCore_rung (c : Nat) (f : Core → Core) : (s.updCore c f).rung = s.rung := rfl
@[simp] theorem updCore_tails (c : Nat) (f : Core → Core) : (s.updCore c f).tails = s.tails := rfl
@[simp] theorem updCore_retiring (c : Nat) (f : Core → Core) : (s.updCore c f).retiring = s.retiring := rfl
@[simp] theorem updCore_mem (c : Nat) (f : Core → Core) : (s.updCore c f).mem = s.mem := rfl
@[simp] theorem updCore_desc (c : Nat) (f : Core → Core) : (s.updCore c f).desc = s.desc := rfl
@[simp] theorem updCore_poison (c : Nat) (f : Core → Core) : (s.updCore c f).poison = s.poison := rfl
@[simp] theorem updCore_gens (c : Nat) (f : Core → Core) : (s.updCore c f).gens = s.gens := rfl
@[simp] theorem updCore_queues (c : Nat) (f : Core → Core) : (s.updCore c f).queues = s.queues := rfl
@[simp] theorem updCore_robin (c : Nat) (f : Core → Core) : (s.updCore c f).robin = s.robin := rfl
@[simp] theorem updCore_orderNext (c : Nat) (f : Core → Core) : (s.updCore c f).orderNext = s.orderNext := rfl
@[simp] theorem updCore_parts (c : Nat) (f : Core → Core) : (s.updCore c f).parts = s.parts := rfl
@[simp] theorem updCore_vfs (c : Nat) (f : Core → Core) : (s.updCore c f).vfs = s.vfs := rfl
@[simp] theorem updCore_module (c : Nat) (f : Core → Core) : (s.updCore c f).module = s.module := rfl
@[simp] theorem updCore_tiers (c : Nat) (f : Core → Core) : (s.updCore c f).tiers = s.tiers := rfl
@[simp] theorem updCore_out (c : Nat) (f : Core → Core) : (s.updCore c f).out = s.out := rfl
@[simp] theorem updCore_free (c : Nat) (f : Core → Core) : (s.updCore c f).free = s.free := rfl

/-! ### updCluster -/

@[simp] theorem updCluster_agenda (k : Nat) (f : Cluster → Cluster) : (s.updCluster k f).agenda = s.agenda := rfl
@[simp] theorem updCluster_cur (k : Nat) (f : Cluster → Cluster) : (s.updCluster k f).cur = s.cur := rfl
@[simp] theorem updCluster_cores (k : Nat) (f : Cluster → Cluster) : (s.updCluster k f).cores = s.cores := rfl
@[simp] theorem updCluster_clusters (k : Nat) (f : Cluster → Cluster) :
    (s.updCluster k f).clusters =
      s.clusters.modify k f := rfl
@[simp] theorem updCluster_crews (k : Nat) (f : Cluster → Cluster) : (s.updCluster k f).crews = s.crews := rfl
@[simp] theorem updCluster_gangs (k : Nat) (f : Cluster → Cluster) : (s.updCluster k f).gangs = s.gangs := rfl
@[simp] theorem updCluster_grids (k : Nat) (f : Cluster → Cluster) : (s.updCluster k f).grids = s.grids := rfl
@[simp] theorem updCluster_graphs (k : Nat) (f : Cluster → Cluster) : (s.updCluster k f).graphs = s.graphs := rfl
@[simp] theorem updCluster_arrivals (k : Nat) (f : Cluster → Cluster) : (s.updCluster k f).arrivals = s.arrivals := rfl
@[simp] theorem updCluster_copies (k : Nat) (f : Cluster → Cluster) : (s.updCluster k f).copies = s.copies := rfl
@[simp] theorem updCluster_rays (k : Nat) (f : Cluster → Cluster) : (s.updCluster k f).rays = s.rays := rfl
@[simp] theorem updCluster_xpairs (k : Nat) (f : Cluster → Cluster) : (s.updCluster k f).xpairs = s.xpairs := rfl
@[simp] theorem updCluster_monitors (k : Nat) (f : Cluster → Cluster) : (s.updCluster k f).monitors = s.monitors := rfl
@[simp] theorem updCluster_colls (k : Nat) (f : Cluster → Cluster) : (s.updCluster k f).colls = s.colls := rfl
@[simp] theorem updCluster_regWrites (k : Nat) (f : Cluster → Cluster) : (s.updCluster k f).regWrites = s.regWrites := rfl
@[simp] theorem updCluster_moves (k : Nat) (f : Cluster → Cluster) : (s.updCluster k f).moves = s.moves := rfl
@[simp] theorem updCluster_trapActions (k : Nat) (f : Cluster → Cluster) : (s.updCluster k f).trapActions = s.trapActions := rfl
@[simp] theorem updCluster_codeMem (k : Nat) (f : Cluster → Cluster) : (s.updCluster k f).codeMem = s.codeMem := rfl
@[simp] theorem updCluster_collSeqs (k : Nat) (f : Cluster → Cluster) : (s.updCluster k f).collSeqs = s.collSeqs := rfl
@[simp] theorem updCluster_collEarly (k : Nat) (f : Cluster → Cluster) : (s.updCluster k f).collEarly = s.collEarly := rfl
@[simp] theorem updCluster_rung (k : Nat) (f : Cluster → Cluster) : (s.updCluster k f).rung = s.rung := rfl
@[simp] theorem updCluster_tails (k : Nat) (f : Cluster → Cluster) : (s.updCluster k f).tails = s.tails := rfl
@[simp] theorem updCluster_retiring (k : Nat) (f : Cluster → Cluster) : (s.updCluster k f).retiring = s.retiring := rfl
@[simp] theorem updCluster_mem (k : Nat) (f : Cluster → Cluster) : (s.updCluster k f).mem = s.mem := rfl
@[simp] theorem updCluster_desc (k : Nat) (f : Cluster → Cluster) : (s.updCluster k f).desc = s.desc := rfl
@[simp] theorem updCluster_poison (k : Nat) (f : Cluster → Cluster) : (s.updCluster k f).poison = s.poison := rfl
@[simp] theorem updCluster_gens (k : Nat) (f : Cluster → Cluster) : (s.updCluster k f).gens = s.gens := rfl
@[simp] theorem updCluster_queues (k : Nat) (f : Cluster → Cluster) : (s.updCluster k f).queues = s.queues := rfl
@[simp] theorem updCluster_robin (k : Nat) (f : Cluster → Cluster) : (s.updCluster k f).robin = s.robin := rfl
@[simp] theorem updCluster_orderNext (k : Nat) (f : Cluster → Cluster) :
    (s.updCluster k f).orderNext =
      s.orderNext := rfl
@[simp] theorem updCluster_parts (k : Nat) (f : Cluster → Cluster) : (s.updCluster k f).parts = s.parts := rfl
@[simp] theorem updCluster_vfs (k : Nat) (f : Cluster → Cluster) : (s.updCluster k f).vfs = s.vfs := rfl
@[simp] theorem updCluster_module (k : Nat) (f : Cluster → Cluster) : (s.updCluster k f).module = s.module := rfl
@[simp] theorem updCluster_tiers (k : Nat) (f : Cluster → Cluster) : (s.updCluster k f).tiers = s.tiers := rfl
@[simp] theorem updCluster_out (k : Nat) (f : Cluster → Cluster) : (s.updCluster k f).out = s.out := rfl
@[simp] theorem updCluster_free (k : Nat) (f : Cluster → Cluster) : (s.updCluster k f).free = s.free := rfl

/-! ### updCrew -/

@[simp] theorem updCrew_agenda (i : Nat) (f : Crew → Crew) : (s.updCrew i f).agenda = s.agenda := rfl
@[simp] theorem updCrew_cur (i : Nat) (f : Crew → Crew) : (s.updCrew i f).cur = s.cur := rfl
@[simp] theorem updCrew_cores (i : Nat) (f : Crew → Crew) : (s.updCrew i f).cores = s.cores := rfl
@[simp] theorem updCrew_clusters (i : Nat) (f : Crew → Crew) : (s.updCrew i f).clusters = s.clusters := rfl
@[simp] theorem updCrew_crews (i : Nat) (f : Crew → Crew) : (s.updCrew i f).crews = s.crews.modify i f := rfl
@[simp] theorem updCrew_gangs (i : Nat) (f : Crew → Crew) : (s.updCrew i f).gangs = s.gangs := rfl
@[simp] theorem updCrew_grids (i : Nat) (f : Crew → Crew) : (s.updCrew i f).grids = s.grids := rfl
@[simp] theorem updCrew_graphs (i : Nat) (f : Crew → Crew) : (s.updCrew i f).graphs = s.graphs := rfl
@[simp] theorem updCrew_arrivals (i : Nat) (f : Crew → Crew) : (s.updCrew i f).arrivals = s.arrivals := rfl
@[simp] theorem updCrew_copies (i : Nat) (f : Crew → Crew) : (s.updCrew i f).copies = s.copies := rfl
@[simp] theorem updCrew_rays (i : Nat) (f : Crew → Crew) : (s.updCrew i f).rays = s.rays := rfl
@[simp] theorem updCrew_xpairs (i : Nat) (f : Crew → Crew) : (s.updCrew i f).xpairs = s.xpairs := rfl
@[simp] theorem updCrew_monitors (i : Nat) (f : Crew → Crew) : (s.updCrew i f).monitors = s.monitors := rfl
@[simp] theorem updCrew_colls (i : Nat) (f : Crew → Crew) : (s.updCrew i f).colls = s.colls := rfl
@[simp] theorem updCrew_regWrites (i : Nat) (f : Crew → Crew) : (s.updCrew i f).regWrites = s.regWrites := rfl
@[simp] theorem updCrew_moves (i : Nat) (f : Crew → Crew) : (s.updCrew i f).moves = s.moves := rfl
@[simp] theorem updCrew_trapActions (i : Nat) (f : Crew → Crew) : (s.updCrew i f).trapActions = s.trapActions := rfl
@[simp] theorem updCrew_codeMem (i : Nat) (f : Crew → Crew) : (s.updCrew i f).codeMem = s.codeMem := rfl
@[simp] theorem updCrew_collSeqs (i : Nat) (f : Crew → Crew) : (s.updCrew i f).collSeqs = s.collSeqs := rfl
@[simp] theorem updCrew_collEarly (i : Nat) (f : Crew → Crew) : (s.updCrew i f).collEarly = s.collEarly := rfl
@[simp] theorem updCrew_rung (i : Nat) (f : Crew → Crew) : (s.updCrew i f).rung = s.rung := rfl
@[simp] theorem updCrew_tails (i : Nat) (f : Crew → Crew) : (s.updCrew i f).tails = s.tails := rfl
@[simp] theorem updCrew_retiring (i : Nat) (f : Crew → Crew) : (s.updCrew i f).retiring = s.retiring := rfl
@[simp] theorem updCrew_mem (i : Nat) (f : Crew → Crew) : (s.updCrew i f).mem = s.mem := rfl
@[simp] theorem updCrew_desc (i : Nat) (f : Crew → Crew) : (s.updCrew i f).desc = s.desc := rfl
@[simp] theorem updCrew_poison (i : Nat) (f : Crew → Crew) : (s.updCrew i f).poison = s.poison := rfl
@[simp] theorem updCrew_gens (i : Nat) (f : Crew → Crew) : (s.updCrew i f).gens = s.gens := rfl
@[simp] theorem updCrew_queues (i : Nat) (f : Crew → Crew) : (s.updCrew i f).queues = s.queues := rfl
@[simp] theorem updCrew_robin (i : Nat) (f : Crew → Crew) : (s.updCrew i f).robin = s.robin := rfl
@[simp] theorem updCrew_orderNext (i : Nat) (f : Crew → Crew) : (s.updCrew i f).orderNext = s.orderNext := rfl
@[simp] theorem updCrew_parts (i : Nat) (f : Crew → Crew) : (s.updCrew i f).parts = s.parts := rfl
@[simp] theorem updCrew_vfs (i : Nat) (f : Crew → Crew) : (s.updCrew i f).vfs = s.vfs := rfl
@[simp] theorem updCrew_module (i : Nat) (f : Crew → Crew) : (s.updCrew i f).module = s.module := rfl
@[simp] theorem updCrew_tiers (i : Nat) (f : Crew → Crew) : (s.updCrew i f).tiers = s.tiers := rfl
@[simp] theorem updCrew_out (i : Nat) (f : Crew → Crew) : (s.updCrew i f).out = s.out := rfl
@[simp] theorem updCrew_free (i : Nat) (f : Crew → Crew) : (s.updCrew i f).free = s.free := rfl

/-! ### updPart -/

@[simp] theorem updPart_agenda (i : Nat) (f : Partition → Partition) : (s.updPart i f).agenda = s.agenda := rfl
@[simp] theorem updPart_cur (i : Nat) (f : Partition → Partition) : (s.updPart i f).cur = s.cur := rfl
@[simp] theorem updPart_cores (i : Nat) (f : Partition → Partition) : (s.updPart i f).cores = s.cores := rfl
@[simp] theorem updPart_clusters (i : Nat) (f : Partition → Partition) : (s.updPart i f).clusters = s.clusters := rfl
@[simp] theorem updPart_crews (i : Nat) (f : Partition → Partition) : (s.updPart i f).crews = s.crews := rfl
@[simp] theorem updPart_gangs (i : Nat) (f : Partition → Partition) : (s.updPart i f).gangs = s.gangs := rfl
@[simp] theorem updPart_grids (i : Nat) (f : Partition → Partition) : (s.updPart i f).grids = s.grids := rfl
@[simp] theorem updPart_graphs (i : Nat) (f : Partition → Partition) : (s.updPart i f).graphs = s.graphs := rfl
@[simp] theorem updPart_arrivals (i : Nat) (f : Partition → Partition) : (s.updPart i f).arrivals = s.arrivals := rfl
@[simp] theorem updPart_copies (i : Nat) (f : Partition → Partition) : (s.updPart i f).copies = s.copies := rfl
@[simp] theorem updPart_rays (i : Nat) (f : Partition → Partition) : (s.updPart i f).rays = s.rays := rfl
@[simp] theorem updPart_xpairs (i : Nat) (f : Partition → Partition) : (s.updPart i f).xpairs = s.xpairs := rfl
@[simp] theorem updPart_monitors (i : Nat) (f : Partition → Partition) : (s.updPart i f).monitors = s.monitors := rfl
@[simp] theorem updPart_colls (i : Nat) (f : Partition → Partition) : (s.updPart i f).colls = s.colls := rfl
@[simp] theorem updPart_regWrites (i : Nat) (f : Partition → Partition) : (s.updPart i f).regWrites = s.regWrites := rfl
@[simp] theorem updPart_moves (i : Nat) (f : Partition → Partition) : (s.updPart i f).moves = s.moves := rfl
@[simp] theorem updPart_trapActions (i : Nat) (f : Partition → Partition) : (s.updPart i f).trapActions = s.trapActions := rfl
@[simp] theorem updPart_codeMem (i : Nat) (f : Partition → Partition) : (s.updPart i f).codeMem = s.codeMem := rfl
@[simp] theorem updPart_collSeqs (i : Nat) (f : Partition → Partition) : (s.updPart i f).collSeqs = s.collSeqs := rfl
@[simp] theorem updPart_collEarly (i : Nat) (f : Partition → Partition) : (s.updPart i f).collEarly = s.collEarly := rfl
@[simp] theorem updPart_rung (i : Nat) (f : Partition → Partition) : (s.updPart i f).rung = s.rung := rfl
@[simp] theorem updPart_tails (i : Nat) (f : Partition → Partition) : (s.updPart i f).tails = s.tails := rfl
@[simp] theorem updPart_retiring (i : Nat) (f : Partition → Partition) : (s.updPart i f).retiring = s.retiring := rfl
@[simp] theorem updPart_mem (i : Nat) (f : Partition → Partition) : (s.updPart i f).mem = s.mem := rfl
@[simp] theorem updPart_desc (i : Nat) (f : Partition → Partition) : (s.updPart i f).desc = s.desc := rfl
@[simp] theorem updPart_poison (i : Nat) (f : Partition → Partition) : (s.updPart i f).poison = s.poison := rfl
@[simp] theorem updPart_gens (i : Nat) (f : Partition → Partition) : (s.updPart i f).gens = s.gens := rfl
@[simp] theorem updPart_queues (i : Nat) (f : Partition → Partition) : (s.updPart i f).queues = s.queues := rfl
@[simp] theorem updPart_robin (i : Nat) (f : Partition → Partition) : (s.updPart i f).robin = s.robin := rfl
@[simp] theorem updPart_orderNext (i : Nat) (f : Partition → Partition) : (s.updPart i f).orderNext = s.orderNext := rfl
@[simp] theorem updPart_parts (i : Nat) (f : Partition → Partition) : (s.updPart i f).parts = s.parts.modify i f := rfl
@[simp] theorem updPart_vfs (i : Nat) (f : Partition → Partition) : (s.updPart i f).vfs = s.vfs := rfl
@[simp] theorem updPart_module (i : Nat) (f : Partition → Partition) : (s.updPart i f).module = s.module := rfl
@[simp] theorem updPart_tiers (i : Nat) (f : Partition → Partition) : (s.updPart i f).tiers = s.tiers := rfl
@[simp] theorem updPart_out (i : Nat) (f : Partition → Partition) : (s.updPart i f).out = s.out := rfl
@[simp] theorem updPart_free (i : Nat) (f : Partition → Partition) : (s.updPart i f).free = s.free := rfl

/-! ### updGrid -/

@[simp] theorem updGrid_agenda (i : Nat) (f : Grid → Grid) : (s.updGrid i f).agenda = s.agenda := rfl
@[simp] theorem updGrid_cur (i : Nat) (f : Grid → Grid) : (s.updGrid i f).cur = s.cur := rfl
@[simp] theorem updGrid_cores (i : Nat) (f : Grid → Grid) : (s.updGrid i f).cores = s.cores := rfl
@[simp] theorem updGrid_clusters (i : Nat) (f : Grid → Grid) : (s.updGrid i f).clusters = s.clusters := rfl
@[simp] theorem updGrid_crews (i : Nat) (f : Grid → Grid) : (s.updGrid i f).crews = s.crews := rfl
@[simp] theorem updGrid_gangs (i : Nat) (f : Grid → Grid) : (s.updGrid i f).gangs = s.gangs := rfl
@[simp] theorem updGrid_grids (i : Nat) (f : Grid → Grid) : (s.updGrid i f).grids = s.grids.modify i f := rfl
@[simp] theorem updGrid_graphs (i : Nat) (f : Grid → Grid) : (s.updGrid i f).graphs = s.graphs := rfl
@[simp] theorem updGrid_arrivals (i : Nat) (f : Grid → Grid) : (s.updGrid i f).arrivals = s.arrivals := rfl
@[simp] theorem updGrid_copies (i : Nat) (f : Grid → Grid) : (s.updGrid i f).copies = s.copies := rfl
@[simp] theorem updGrid_rays (i : Nat) (f : Grid → Grid) : (s.updGrid i f).rays = s.rays := rfl
@[simp] theorem updGrid_xpairs (i : Nat) (f : Grid → Grid) : (s.updGrid i f).xpairs = s.xpairs := rfl
@[simp] theorem updGrid_monitors (i : Nat) (f : Grid → Grid) : (s.updGrid i f).monitors = s.monitors := rfl
@[simp] theorem updGrid_colls (i : Nat) (f : Grid → Grid) : (s.updGrid i f).colls = s.colls := rfl
@[simp] theorem updGrid_regWrites (i : Nat) (f : Grid → Grid) : (s.updGrid i f).regWrites = s.regWrites := rfl
@[simp] theorem updGrid_moves (i : Nat) (f : Grid → Grid) : (s.updGrid i f).moves = s.moves := rfl
@[simp] theorem updGrid_trapActions (i : Nat) (f : Grid → Grid) : (s.updGrid i f).trapActions = s.trapActions := rfl
@[simp] theorem updGrid_codeMem (i : Nat) (f : Grid → Grid) : (s.updGrid i f).codeMem = s.codeMem := rfl
@[simp] theorem updGrid_collSeqs (i : Nat) (f : Grid → Grid) : (s.updGrid i f).collSeqs = s.collSeqs := rfl
@[simp] theorem updGrid_collEarly (i : Nat) (f : Grid → Grid) : (s.updGrid i f).collEarly = s.collEarly := rfl
@[simp] theorem updGrid_rung (i : Nat) (f : Grid → Grid) : (s.updGrid i f).rung = s.rung := rfl
@[simp] theorem updGrid_tails (i : Nat) (f : Grid → Grid) : (s.updGrid i f).tails = s.tails := rfl
@[simp] theorem updGrid_retiring (i : Nat) (f : Grid → Grid) : (s.updGrid i f).retiring = s.retiring := rfl
@[simp] theorem updGrid_mem (i : Nat) (f : Grid → Grid) : (s.updGrid i f).mem = s.mem := rfl
@[simp] theorem updGrid_desc (i : Nat) (f : Grid → Grid) : (s.updGrid i f).desc = s.desc := rfl
@[simp] theorem updGrid_poison (i : Nat) (f : Grid → Grid) : (s.updGrid i f).poison = s.poison := rfl
@[simp] theorem updGrid_gens (i : Nat) (f : Grid → Grid) : (s.updGrid i f).gens = s.gens := rfl
@[simp] theorem updGrid_queues (i : Nat) (f : Grid → Grid) : (s.updGrid i f).queues = s.queues := rfl
@[simp] theorem updGrid_robin (i : Nat) (f : Grid → Grid) : (s.updGrid i f).robin = s.robin := rfl
@[simp] theorem updGrid_orderNext (i : Nat) (f : Grid → Grid) : (s.updGrid i f).orderNext = s.orderNext := rfl
@[simp] theorem updGrid_parts (i : Nat) (f : Grid → Grid) : (s.updGrid i f).parts = s.parts := rfl
@[simp] theorem updGrid_vfs (i : Nat) (f : Grid → Grid) : (s.updGrid i f).vfs = s.vfs := rfl
@[simp] theorem updGrid_module (i : Nat) (f : Grid → Grid) : (s.updGrid i f).module = s.module := rfl
@[simp] theorem updGrid_tiers (i : Nat) (f : Grid → Grid) : (s.updGrid i f).tiers = s.tiers := rfl
@[simp] theorem updGrid_out (i : Nat) (f : Grid → Grid) : (s.updGrid i f).out = s.out := rfl
@[simp] theorem updGrid_free (i : Nat) (f : Grid → Grid) : (s.updGrid i f).free = s.free := rfl

/-! ### updGang -/

@[simp] theorem updGang_agenda (i : Nat) (f : Gang → Gang) : (s.updGang i f).agenda = s.agenda := rfl
@[simp] theorem updGang_cur (i : Nat) (f : Gang → Gang) : (s.updGang i f).cur = s.cur := rfl
@[simp] theorem updGang_cores (i : Nat) (f : Gang → Gang) : (s.updGang i f).cores = s.cores := rfl
@[simp] theorem updGang_clusters (i : Nat) (f : Gang → Gang) : (s.updGang i f).clusters = s.clusters := rfl
@[simp] theorem updGang_crews (i : Nat) (f : Gang → Gang) : (s.updGang i f).crews = s.crews := rfl
@[simp] theorem updGang_gangs (i : Nat) (f : Gang → Gang) : (s.updGang i f).gangs = s.gangs.modify i f := rfl
@[simp] theorem updGang_grids (i : Nat) (f : Gang → Gang) : (s.updGang i f).grids = s.grids := rfl
@[simp] theorem updGang_graphs (i : Nat) (f : Gang → Gang) : (s.updGang i f).graphs = s.graphs := rfl
@[simp] theorem updGang_arrivals (i : Nat) (f : Gang → Gang) : (s.updGang i f).arrivals = s.arrivals := rfl
@[simp] theorem updGang_copies (i : Nat) (f : Gang → Gang) : (s.updGang i f).copies = s.copies := rfl
@[simp] theorem updGang_rays (i : Nat) (f : Gang → Gang) : (s.updGang i f).rays = s.rays := rfl
@[simp] theorem updGang_xpairs (i : Nat) (f : Gang → Gang) : (s.updGang i f).xpairs = s.xpairs := rfl
@[simp] theorem updGang_monitors (i : Nat) (f : Gang → Gang) : (s.updGang i f).monitors = s.monitors := rfl
@[simp] theorem updGang_colls (i : Nat) (f : Gang → Gang) : (s.updGang i f).colls = s.colls := rfl
@[simp] theorem updGang_regWrites (i : Nat) (f : Gang → Gang) : (s.updGang i f).regWrites = s.regWrites := rfl
@[simp] theorem updGang_moves (i : Nat) (f : Gang → Gang) : (s.updGang i f).moves = s.moves := rfl
@[simp] theorem updGang_trapActions (i : Nat) (f : Gang → Gang) : (s.updGang i f).trapActions = s.trapActions := rfl
@[simp] theorem updGang_codeMem (i : Nat) (f : Gang → Gang) : (s.updGang i f).codeMem = s.codeMem := rfl
@[simp] theorem updGang_collSeqs (i : Nat) (f : Gang → Gang) : (s.updGang i f).collSeqs = s.collSeqs := rfl
@[simp] theorem updGang_collEarly (i : Nat) (f : Gang → Gang) : (s.updGang i f).collEarly = s.collEarly := rfl
@[simp] theorem updGang_rung (i : Nat) (f : Gang → Gang) : (s.updGang i f).rung = s.rung := rfl
@[simp] theorem updGang_tails (i : Nat) (f : Gang → Gang) : (s.updGang i f).tails = s.tails := rfl
@[simp] theorem updGang_retiring (i : Nat) (f : Gang → Gang) : (s.updGang i f).retiring = s.retiring := rfl
@[simp] theorem updGang_mem (i : Nat) (f : Gang → Gang) : (s.updGang i f).mem = s.mem := rfl
@[simp] theorem updGang_desc (i : Nat) (f : Gang → Gang) : (s.updGang i f).desc = s.desc := rfl
@[simp] theorem updGang_poison (i : Nat) (f : Gang → Gang) : (s.updGang i f).poison = s.poison := rfl
@[simp] theorem updGang_gens (i : Nat) (f : Gang → Gang) : (s.updGang i f).gens = s.gens := rfl
@[simp] theorem updGang_queues (i : Nat) (f : Gang → Gang) : (s.updGang i f).queues = s.queues := rfl
@[simp] theorem updGang_robin (i : Nat) (f : Gang → Gang) : (s.updGang i f).robin = s.robin := rfl
@[simp] theorem updGang_orderNext (i : Nat) (f : Gang → Gang) : (s.updGang i f).orderNext = s.orderNext := rfl
@[simp] theorem updGang_parts (i : Nat) (f : Gang → Gang) : (s.updGang i f).parts = s.parts := rfl
@[simp] theorem updGang_vfs (i : Nat) (f : Gang → Gang) : (s.updGang i f).vfs = s.vfs := rfl
@[simp] theorem updGang_module (i : Nat) (f : Gang → Gang) : (s.updGang i f).module = s.module := rfl
@[simp] theorem updGang_tiers (i : Nat) (f : Gang → Gang) : (s.updGang i f).tiers = s.tiers := rfl
@[simp] theorem updGang_out (i : Nat) (f : Gang → Gang) : (s.updGang i f).out = s.out := rfl
@[simp] theorem updGang_free (i : Nat) (f : Gang → Gang) : (s.updGang i f).free = s.free := rfl

/-! ### updGraph -/

@[simp] theorem updGraph_agenda (i : Nat) (f : Graph → Graph) : (s.updGraph i f).agenda = s.agenda := rfl
@[simp] theorem updGraph_cur (i : Nat) (f : Graph → Graph) : (s.updGraph i f).cur = s.cur := rfl
@[simp] theorem updGraph_cores (i : Nat) (f : Graph → Graph) : (s.updGraph i f).cores = s.cores := rfl
@[simp] theorem updGraph_clusters (i : Nat) (f : Graph → Graph) : (s.updGraph i f).clusters = s.clusters := rfl
@[simp] theorem updGraph_crews (i : Nat) (f : Graph → Graph) : (s.updGraph i f).crews = s.crews := rfl
@[simp] theorem updGraph_gangs (i : Nat) (f : Graph → Graph) : (s.updGraph i f).gangs = s.gangs := rfl
@[simp] theorem updGraph_grids (i : Nat) (f : Graph → Graph) : (s.updGraph i f).grids = s.grids := rfl
@[simp] theorem updGraph_graphs (i : Nat) (f : Graph → Graph) : (s.updGraph i f).graphs = s.graphs.modify i f := rfl
@[simp] theorem updGraph_arrivals (i : Nat) (f : Graph → Graph) : (s.updGraph i f).arrivals = s.arrivals := rfl
@[simp] theorem updGraph_copies (i : Nat) (f : Graph → Graph) : (s.updGraph i f).copies = s.copies := rfl
@[simp] theorem updGraph_rays (i : Nat) (f : Graph → Graph) : (s.updGraph i f).rays = s.rays := rfl
@[simp] theorem updGraph_xpairs (i : Nat) (f : Graph → Graph) : (s.updGraph i f).xpairs = s.xpairs := rfl
@[simp] theorem updGraph_monitors (i : Nat) (f : Graph → Graph) : (s.updGraph i f).monitors = s.monitors := rfl
@[simp] theorem updGraph_colls (i : Nat) (f : Graph → Graph) : (s.updGraph i f).colls = s.colls := rfl
@[simp] theorem updGraph_regWrites (i : Nat) (f : Graph → Graph) : (s.updGraph i f).regWrites = s.regWrites := rfl
@[simp] theorem updGraph_moves (i : Nat) (f : Graph → Graph) : (s.updGraph i f).moves = s.moves := rfl
@[simp] theorem updGraph_trapActions (i : Nat) (f : Graph → Graph) : (s.updGraph i f).trapActions = s.trapActions := rfl
@[simp] theorem updGraph_codeMem (i : Nat) (f : Graph → Graph) : (s.updGraph i f).codeMem = s.codeMem := rfl
@[simp] theorem updGraph_collSeqs (i : Nat) (f : Graph → Graph) : (s.updGraph i f).collSeqs = s.collSeqs := rfl
@[simp] theorem updGraph_collEarly (i : Nat) (f : Graph → Graph) : (s.updGraph i f).collEarly = s.collEarly := rfl
@[simp] theorem updGraph_rung (i : Nat) (f : Graph → Graph) : (s.updGraph i f).rung = s.rung := rfl
@[simp] theorem updGraph_tails (i : Nat) (f : Graph → Graph) : (s.updGraph i f).tails = s.tails := rfl
@[simp] theorem updGraph_retiring (i : Nat) (f : Graph → Graph) : (s.updGraph i f).retiring = s.retiring := rfl
@[simp] theorem updGraph_mem (i : Nat) (f : Graph → Graph) : (s.updGraph i f).mem = s.mem := rfl
@[simp] theorem updGraph_desc (i : Nat) (f : Graph → Graph) : (s.updGraph i f).desc = s.desc := rfl
@[simp] theorem updGraph_poison (i : Nat) (f : Graph → Graph) : (s.updGraph i f).poison = s.poison := rfl
@[simp] theorem updGraph_gens (i : Nat) (f : Graph → Graph) : (s.updGraph i f).gens = s.gens := rfl
@[simp] theorem updGraph_queues (i : Nat) (f : Graph → Graph) : (s.updGraph i f).queues = s.queues := rfl
@[simp] theorem updGraph_robin (i : Nat) (f : Graph → Graph) : (s.updGraph i f).robin = s.robin := rfl
@[simp] theorem updGraph_orderNext (i : Nat) (f : Graph → Graph) : (s.updGraph i f).orderNext = s.orderNext := rfl
@[simp] theorem updGraph_parts (i : Nat) (f : Graph → Graph) : (s.updGraph i f).parts = s.parts := rfl
@[simp] theorem updGraph_vfs (i : Nat) (f : Graph → Graph) : (s.updGraph i f).vfs = s.vfs := rfl
@[simp] theorem updGraph_module (i : Nat) (f : Graph → Graph) : (s.updGraph i f).module = s.module := rfl
@[simp] theorem updGraph_tiers (i : Nat) (f : Graph → Graph) : (s.updGraph i f).tiers = s.tiers := rfl
@[simp] theorem updGraph_out (i : Nat) (f : Graph → Graph) : (s.updGraph i f).out = s.out := rfl
@[simp] theorem updGraph_free (i : Nat) (f : Graph → Graph) : (s.updGraph i f).free = s.free := rfl

/-! ### emit -/

@[simp] theorem emit_agenda (o : Output) : (s.emit o).agenda = s.agenda := rfl
@[simp] theorem emit_cur (o : Output) : (s.emit o).cur = s.cur := rfl
@[simp] theorem emit_cores (o : Output) : (s.emit o).cores = s.cores := rfl
@[simp] theorem emit_clusters (o : Output) : (s.emit o).clusters = s.clusters := rfl
@[simp] theorem emit_crews (o : Output) : (s.emit o).crews = s.crews := rfl
@[simp] theorem emit_gangs (o : Output) : (s.emit o).gangs = s.gangs := rfl
@[simp] theorem emit_grids (o : Output) : (s.emit o).grids = s.grids := rfl
@[simp] theorem emit_graphs (o : Output) : (s.emit o).graphs = s.graphs := rfl
@[simp] theorem emit_arrivals (o : Output) : (s.emit o).arrivals = s.arrivals := rfl
@[simp] theorem emit_copies (o : Output) : (s.emit o).copies = s.copies := rfl
@[simp] theorem emit_rays (o : Output) : (s.emit o).rays = s.rays := rfl
@[simp] theorem emit_xpairs (o : Output) : (s.emit o).xpairs = s.xpairs := rfl
@[simp] theorem emit_monitors (o : Output) : (s.emit o).monitors = s.monitors := rfl
@[simp] theorem emit_colls (o : Output) : (s.emit o).colls = s.colls := rfl
@[simp] theorem emit_regWrites (o : Output) : (s.emit o).regWrites = s.regWrites := rfl
@[simp] theorem emit_moves (o : Output) : (s.emit o).moves = s.moves := rfl
@[simp] theorem emit_trapActions (o : Output) : (s.emit o).trapActions = s.trapActions := rfl
@[simp] theorem emit_codeMem (o : Output) : (s.emit o).codeMem = s.codeMem := rfl
@[simp] theorem emit_collSeqs (o : Output) : (s.emit o).collSeqs = s.collSeqs := rfl
@[simp] theorem emit_collEarly (o : Output) : (s.emit o).collEarly = s.collEarly := rfl
@[simp] theorem emit_rung (o : Output) : (s.emit o).rung = s.rung := rfl
@[simp] theorem emit_tails (o : Output) : (s.emit o).tails = s.tails := rfl
@[simp] theorem emit_retiring (o : Output) : (s.emit o).retiring = s.retiring := rfl
@[simp] theorem emit_mem (o : Output) : (s.emit o).mem = s.mem := rfl
@[simp] theorem emit_desc (o : Output) : (s.emit o).desc = s.desc := rfl
@[simp] theorem emit_poison (o : Output) : (s.emit o).poison = s.poison := rfl
@[simp] theorem emit_gens (o : Output) : (s.emit o).gens = s.gens := rfl
@[simp] theorem emit_queues (o : Output) : (s.emit o).queues = s.queues := rfl
@[simp] theorem emit_robin (o : Output) : (s.emit o).robin = s.robin := rfl
@[simp] theorem emit_orderNext (o : Output) : (s.emit o).orderNext = s.orderNext := rfl
@[simp] theorem emit_parts (o : Output) : (s.emit o).parts = s.parts := rfl
@[simp] theorem emit_vfs (o : Output) : (s.emit o).vfs = s.vfs := rfl
@[simp] theorem emit_module (o : Output) : (s.emit o).module = s.module := rfl
@[simp] theorem emit_tiers (o : Output) : (s.emit o).tiers = s.tiers := rfl
@[simp] theorem emit_out (o : Output) : (s.emit o).out = o :: s.out := rfl
@[simp] theorem emit_free (o : Output) : (s.emit o).free = s.free := rfl

/-! ### updLane -/

@[simp] theorem updLane_agenda (c l : Nat) (f : Lane → Lane) : (s.updLane c l f).agenda = s.agenda := rfl
@[simp] theorem updLane_cur (c l : Nat) (f : Lane → Lane) : (s.updLane c l f).cur = s.cur := rfl
@[simp] theorem updLane_cores (c l : Nat) (f : Lane → Lane) : (s.updLane c l f).cores = s.cores := rfl
@[simp] theorem updLane_clusters (c l : Nat) (f : Lane → Lane) : (s.updLane c l f).clusters = s.clusters := rfl
@[simp] theorem updLane_crews (c l : Nat) (f : Lane → Lane) :
    (s.updLane c l f).crews =
      s.crews.modify c fun cr => { cr with lanes := cr.lanes.modify l f } := rfl
@[simp] theorem updLane_gangs (c l : Nat) (f : Lane → Lane) : (s.updLane c l f).gangs = s.gangs := rfl
@[simp] theorem updLane_grids (c l : Nat) (f : Lane → Lane) : (s.updLane c l f).grids = s.grids := rfl
@[simp] theorem updLane_graphs (c l : Nat) (f : Lane → Lane) : (s.updLane c l f).graphs = s.graphs := rfl
@[simp] theorem updLane_arrivals (c l : Nat) (f : Lane → Lane) : (s.updLane c l f).arrivals = s.arrivals := rfl
@[simp] theorem updLane_copies (c l : Nat) (f : Lane → Lane) : (s.updLane c l f).copies = s.copies := rfl
@[simp] theorem updLane_rays (c l : Nat) (f : Lane → Lane) : (s.updLane c l f).rays = s.rays := rfl
@[simp] theorem updLane_xpairs (c l : Nat) (f : Lane → Lane) : (s.updLane c l f).xpairs = s.xpairs := rfl
@[simp] theorem updLane_monitors (c l : Nat) (f : Lane → Lane) : (s.updLane c l f).monitors = s.monitors := rfl
@[simp] theorem updLane_colls (c l : Nat) (f : Lane → Lane) : (s.updLane c l f).colls = s.colls := rfl
@[simp] theorem updLane_regWrites (c l : Nat) (f : Lane → Lane) : (s.updLane c l f).regWrites = s.regWrites := rfl
@[simp] theorem updLane_moves (c l : Nat) (f : Lane → Lane) : (s.updLane c l f).moves = s.moves := rfl
@[simp] theorem updLane_trapActions (c l : Nat) (f : Lane → Lane) : (s.updLane c l f).trapActions = s.trapActions := rfl
@[simp] theorem updLane_codeMem (c l : Nat) (f : Lane → Lane) : (s.updLane c l f).codeMem = s.codeMem := rfl
@[simp] theorem updLane_collSeqs (c l : Nat) (f : Lane → Lane) : (s.updLane c l f).collSeqs = s.collSeqs := rfl
@[simp] theorem updLane_collEarly (c l : Nat) (f : Lane → Lane) : (s.updLane c l f).collEarly = s.collEarly := rfl
@[simp] theorem updLane_rung (c l : Nat) (f : Lane → Lane) : (s.updLane c l f).rung = s.rung := rfl
@[simp] theorem updLane_tails (c l : Nat) (f : Lane → Lane) : (s.updLane c l f).tails = s.tails := rfl
@[simp] theorem updLane_retiring (c l : Nat) (f : Lane → Lane) : (s.updLane c l f).retiring = s.retiring := rfl
@[simp] theorem updLane_mem (c l : Nat) (f : Lane → Lane) : (s.updLane c l f).mem = s.mem := rfl
@[simp] theorem updLane_desc (c l : Nat) (f : Lane → Lane) : (s.updLane c l f).desc = s.desc := rfl
@[simp] theorem updLane_poison (c l : Nat) (f : Lane → Lane) : (s.updLane c l f).poison = s.poison := rfl
@[simp] theorem updLane_gens (c l : Nat) (f : Lane → Lane) : (s.updLane c l f).gens = s.gens := rfl
@[simp] theorem updLane_queues (c l : Nat) (f : Lane → Lane) : (s.updLane c l f).queues = s.queues := rfl
@[simp] theorem updLane_robin (c l : Nat) (f : Lane → Lane) : (s.updLane c l f).robin = s.robin := rfl
@[simp] theorem updLane_orderNext (c l : Nat) (f : Lane → Lane) : (s.updLane c l f).orderNext = s.orderNext := rfl
@[simp] theorem updLane_parts (c l : Nat) (f : Lane → Lane) : (s.updLane c l f).parts = s.parts := rfl
@[simp] theorem updLane_vfs (c l : Nat) (f : Lane → Lane) : (s.updLane c l f).vfs = s.vfs := rfl
@[simp] theorem updLane_module (c l : Nat) (f : Lane → Lane) : (s.updLane c l f).module = s.module := rfl
@[simp] theorem updLane_tiers (c l : Nat) (f : Lane → Lane) : (s.updLane c l f).tiers = s.tiers := rfl
@[simp] theorem updLane_out (c l : Nat) (f : Lane → Lane) : (s.updLane c l f).out = s.out := rfl
@[simp] theorem updLane_free (c l : Nat) (f : Lane → Lane) : (s.updLane c l f).free = s.free := rfl

/-! ### updThread -/

@[simp] theorem updThread_agenda (c l : Nat) (f : Thread → Thread) : (s.updThread c l f).agenda = s.agenda := rfl
@[simp] theorem updThread_cur (c l : Nat) (f : Thread → Thread) : (s.updThread c l f).cur = s.cur := rfl
@[simp] theorem updThread_cores (c l : Nat) (f : Thread → Thread) : (s.updThread c l f).cores = s.cores := rfl
@[simp] theorem updThread_clusters (c l : Nat) (f : Thread → Thread) : (s.updThread c l f).clusters = s.clusters := rfl
@[simp] theorem updThread_crews (c l : Nat) (f : Thread → Thread) :
    (s.updThread c l f).crews =
      s.crews.modify c fun cr => { cr with lanes := cr.lanes.modify l fun x => x.updThread f } := rfl
@[simp] theorem updThread_gangs (c l : Nat) (f : Thread → Thread) : (s.updThread c l f).gangs = s.gangs := rfl
@[simp] theorem updThread_grids (c l : Nat) (f : Thread → Thread) : (s.updThread c l f).grids = s.grids := rfl
@[simp] theorem updThread_graphs (c l : Nat) (f : Thread → Thread) : (s.updThread c l f).graphs = s.graphs := rfl
@[simp] theorem updThread_arrivals (c l : Nat) (f : Thread → Thread) : (s.updThread c l f).arrivals = s.arrivals := rfl
@[simp] theorem updThread_copies (c l : Nat) (f : Thread → Thread) : (s.updThread c l f).copies = s.copies := rfl
@[simp] theorem updThread_rays (c l : Nat) (f : Thread → Thread) : (s.updThread c l f).rays = s.rays := rfl
@[simp] theorem updThread_xpairs (c l : Nat) (f : Thread → Thread) : (s.updThread c l f).xpairs = s.xpairs := rfl
@[simp] theorem updThread_monitors (c l : Nat) (f : Thread → Thread) : (s.updThread c l f).monitors = s.monitors := rfl
@[simp] theorem updThread_colls (c l : Nat) (f : Thread → Thread) : (s.updThread c l f).colls = s.colls := rfl
@[simp] theorem updThread_regWrites (c l : Nat) (f : Thread → Thread) : (s.updThread c l f).regWrites = s.regWrites := rfl
@[simp] theorem updThread_moves (c l : Nat) (f : Thread → Thread) : (s.updThread c l f).moves = s.moves := rfl
@[simp] theorem updThread_trapActions (c l : Nat) (f : Thread → Thread) : (s.updThread c l f).trapActions = s.trapActions := rfl
@[simp] theorem updThread_codeMem (c l : Nat) (f : Thread → Thread) : (s.updThread c l f).codeMem = s.codeMem := rfl
@[simp] theorem updThread_collSeqs (c l : Nat) (f : Thread → Thread) : (s.updThread c l f).collSeqs = s.collSeqs := rfl
@[simp] theorem updThread_collEarly (c l : Nat) (f : Thread → Thread) : (s.updThread c l f).collEarly = s.collEarly := rfl
@[simp] theorem updThread_rung (c l : Nat) (f : Thread → Thread) : (s.updThread c l f).rung = s.rung := rfl
@[simp] theorem updThread_tails (c l : Nat) (f : Thread → Thread) : (s.updThread c l f).tails = s.tails := rfl
@[simp] theorem updThread_retiring (c l : Nat) (f : Thread → Thread) : (s.updThread c l f).retiring = s.retiring := rfl
@[simp] theorem updThread_mem (c l : Nat) (f : Thread → Thread) : (s.updThread c l f).mem = s.mem := rfl
@[simp] theorem updThread_desc (c l : Nat) (f : Thread → Thread) : (s.updThread c l f).desc = s.desc := rfl
@[simp] theorem updThread_poison (c l : Nat) (f : Thread → Thread) : (s.updThread c l f).poison = s.poison := rfl
@[simp] theorem updThread_gens (c l : Nat) (f : Thread → Thread) : (s.updThread c l f).gens = s.gens := rfl
@[simp] theorem updThread_queues (c l : Nat) (f : Thread → Thread) : (s.updThread c l f).queues = s.queues := rfl
@[simp] theorem updThread_robin (c l : Nat) (f : Thread → Thread) : (s.updThread c l f).robin = s.robin := rfl
@[simp] theorem updThread_orderNext (c l : Nat) (f : Thread → Thread) :
    (s.updThread c l f).orderNext =
      s.orderNext := rfl
@[simp] theorem updThread_parts (c l : Nat) (f : Thread → Thread) : (s.updThread c l f).parts = s.parts := rfl
@[simp] theorem updThread_vfs (c l : Nat) (f : Thread → Thread) : (s.updThread c l f).vfs = s.vfs := rfl
@[simp] theorem updThread_module (c l : Nat) (f : Thread → Thread) : (s.updThread c l f).module = s.module := rfl
@[simp] theorem updThread_tiers (c l : Nat) (f : Thread → Thread) : (s.updThread c l f).tiers = s.tiers := rfl
@[simp] theorem updThread_out (c l : Nat) (f : Thread → Thread) : (s.updThread c l f).out = s.out := rfl
@[simp] theorem updThread_free (c l : Nat) (f : Thread → Thread) : (s.updThread c l f).free = s.free := rfl

/-! ### mapLanes -/

@[simp] theorem mapLanes_agenda (c : Nat) (f : Nat → Lane → Lane) : (s.mapLanes c f).agenda = s.agenda := rfl
@[simp] theorem mapLanes_cur (c : Nat) (f : Nat → Lane → Lane) : (s.mapLanes c f).cur = s.cur := rfl
@[simp] theorem mapLanes_cores (c : Nat) (f : Nat → Lane → Lane) : (s.mapLanes c f).cores = s.cores := rfl
@[simp] theorem mapLanes_clusters (c : Nat) (f : Nat → Lane → Lane) : (s.mapLanes c f).clusters = s.clusters := rfl
@[simp] theorem mapLanes_crews (c : Nat) (f : Nat → Lane → Lane) :
    (s.mapLanes c f).crews =
      s.crews.modify c fun cr => { cr with lanes := cr.lanes.mapIdx f } := rfl
@[simp] theorem mapLanes_gangs (c : Nat) (f : Nat → Lane → Lane) : (s.mapLanes c f).gangs = s.gangs := rfl
@[simp] theorem mapLanes_grids (c : Nat) (f : Nat → Lane → Lane) : (s.mapLanes c f).grids = s.grids := rfl
@[simp] theorem mapLanes_graphs (c : Nat) (f : Nat → Lane → Lane) : (s.mapLanes c f).graphs = s.graphs := rfl
@[simp] theorem mapLanes_arrivals (c : Nat) (f : Nat → Lane → Lane) : (s.mapLanes c f).arrivals = s.arrivals := rfl
@[simp] theorem mapLanes_copies (c : Nat) (f : Nat → Lane → Lane) : (s.mapLanes c f).copies = s.copies := rfl
@[simp] theorem mapLanes_rays (c : Nat) (f : Nat → Lane → Lane) : (s.mapLanes c f).rays = s.rays := rfl
@[simp] theorem mapLanes_xpairs (c : Nat) (f : Nat → Lane → Lane) : (s.mapLanes c f).xpairs = s.xpairs := rfl
@[simp] theorem mapLanes_monitors (c : Nat) (f : Nat → Lane → Lane) : (s.mapLanes c f).monitors = s.monitors := rfl
@[simp] theorem mapLanes_colls (c : Nat) (f : Nat → Lane → Lane) : (s.mapLanes c f).colls = s.colls := rfl
@[simp] theorem mapLanes_regWrites (c : Nat) (f : Nat → Lane → Lane) : (s.mapLanes c f).regWrites = s.regWrites := rfl
@[simp] theorem mapLanes_moves (c : Nat) (f : Nat → Lane → Lane) : (s.mapLanes c f).moves = s.moves := rfl
@[simp] theorem mapLanes_trapActions (c : Nat) (f : Nat → Lane → Lane) : (s.mapLanes c f).trapActions = s.trapActions := rfl
@[simp] theorem mapLanes_codeMem (c : Nat) (f : Nat → Lane → Lane) : (s.mapLanes c f).codeMem = s.codeMem := rfl
@[simp] theorem mapLanes_collSeqs (c : Nat) (f : Nat → Lane → Lane) : (s.mapLanes c f).collSeqs = s.collSeqs := rfl
@[simp] theorem mapLanes_collEarly (c : Nat) (f : Nat → Lane → Lane) : (s.mapLanes c f).collEarly = s.collEarly := rfl
@[simp] theorem mapLanes_rung (c : Nat) (f : Nat → Lane → Lane) : (s.mapLanes c f).rung = s.rung := rfl
@[simp] theorem mapLanes_tails (c : Nat) (f : Nat → Lane → Lane) : (s.mapLanes c f).tails = s.tails := rfl
@[simp] theorem mapLanes_retiring (c : Nat) (f : Nat → Lane → Lane) : (s.mapLanes c f).retiring = s.retiring := rfl
@[simp] theorem mapLanes_mem (c : Nat) (f : Nat → Lane → Lane) : (s.mapLanes c f).mem = s.mem := rfl
@[simp] theorem mapLanes_desc (c : Nat) (f : Nat → Lane → Lane) : (s.mapLanes c f).desc = s.desc := rfl
@[simp] theorem mapLanes_poison (c : Nat) (f : Nat → Lane → Lane) : (s.mapLanes c f).poison = s.poison := rfl
@[simp] theorem mapLanes_gens (c : Nat) (f : Nat → Lane → Lane) : (s.mapLanes c f).gens = s.gens := rfl
@[simp] theorem mapLanes_queues (c : Nat) (f : Nat → Lane → Lane) : (s.mapLanes c f).queues = s.queues := rfl
@[simp] theorem mapLanes_robin (c : Nat) (f : Nat → Lane → Lane) : (s.mapLanes c f).robin = s.robin := rfl
@[simp] theorem mapLanes_orderNext (c : Nat) (f : Nat → Lane → Lane) : (s.mapLanes c f).orderNext = s.orderNext := rfl
@[simp] theorem mapLanes_parts (c : Nat) (f : Nat → Lane → Lane) : (s.mapLanes c f).parts = s.parts := rfl
@[simp] theorem mapLanes_vfs (c : Nat) (f : Nat → Lane → Lane) : (s.mapLanes c f).vfs = s.vfs := rfl
@[simp] theorem mapLanes_module (c : Nat) (f : Nat → Lane → Lane) : (s.mapLanes c f).module = s.module := rfl
@[simp] theorem mapLanes_tiers (c : Nat) (f : Nat → Lane → Lane) : (s.mapLanes c f).tiers = s.tiers := rfl
@[simp] theorem mapLanes_out (c : Nat) (f : Nat → Lane → Lane) : (s.mapLanes c f).out = s.out := rfl
@[simp] theorem mapLanes_free (c : Nat) (f : Nat → Lane → Lane) : (s.mapLanes c f).free = s.free := rfl

/-! ### updGroup -/

@[simp] theorem updGroup_agenda (c k : Nat) (f : Group → Group) : (s.updGroup c k f).agenda = s.agenda := rfl
@[simp] theorem updGroup_cur (c k : Nat) (f : Group → Group) : (s.updGroup c k f).cur = s.cur := rfl
@[simp] theorem updGroup_cores (c k : Nat) (f : Group → Group) :
    (s.updGroup c k f).cores =
      s.cores.modify c fun co => { co with slots := co.slots.modify k (Option.map f) } := rfl
@[simp] theorem updGroup_clusters (c k : Nat) (f : Group → Group) : (s.updGroup c k f).clusters = s.clusters := rfl
@[simp] theorem updGroup_crews (c k : Nat) (f : Group → Group) : (s.updGroup c k f).crews = s.crews := rfl
@[simp] theorem updGroup_gangs (c k : Nat) (f : Group → Group) : (s.updGroup c k f).gangs = s.gangs := rfl
@[simp] theorem updGroup_grids (c k : Nat) (f : Group → Group) : (s.updGroup c k f).grids = s.grids := rfl
@[simp] theorem updGroup_graphs (c k : Nat) (f : Group → Group) : (s.updGroup c k f).graphs = s.graphs := rfl
@[simp] theorem updGroup_arrivals (c k : Nat) (f : Group → Group) : (s.updGroup c k f).arrivals = s.arrivals := rfl
@[simp] theorem updGroup_copies (c k : Nat) (f : Group → Group) : (s.updGroup c k f).copies = s.copies := rfl
@[simp] theorem updGroup_rays (c k : Nat) (f : Group → Group) : (s.updGroup c k f).rays = s.rays := rfl
@[simp] theorem updGroup_xpairs (c k : Nat) (f : Group → Group) : (s.updGroup c k f).xpairs = s.xpairs := rfl
@[simp] theorem updGroup_monitors (c k : Nat) (f : Group → Group) : (s.updGroup c k f).monitors = s.monitors := rfl
@[simp] theorem updGroup_colls (c k : Nat) (f : Group → Group) : (s.updGroup c k f).colls = s.colls := rfl
@[simp] theorem updGroup_regWrites (c k : Nat) (f : Group → Group) : (s.updGroup c k f).regWrites = s.regWrites := rfl
@[simp] theorem updGroup_moves (c k : Nat) (f : Group → Group) : (s.updGroup c k f).moves = s.moves := rfl
@[simp] theorem updGroup_trapActions (c k : Nat) (f : Group → Group) : (s.updGroup c k f).trapActions = s.trapActions := rfl
@[simp] theorem updGroup_codeMem (c k : Nat) (f : Group → Group) : (s.updGroup c k f).codeMem = s.codeMem := rfl
@[simp] theorem updGroup_collSeqs (c k : Nat) (f : Group → Group) : (s.updGroup c k f).collSeqs = s.collSeqs := rfl
@[simp] theorem updGroup_collEarly (c k : Nat) (f : Group → Group) : (s.updGroup c k f).collEarly = s.collEarly := rfl
@[simp] theorem updGroup_rung (c k : Nat) (f : Group → Group) : (s.updGroup c k f).rung = s.rung := rfl
@[simp] theorem updGroup_tails (c k : Nat) (f : Group → Group) : (s.updGroup c k f).tails = s.tails := rfl
@[simp] theorem updGroup_retiring (c k : Nat) (f : Group → Group) : (s.updGroup c k f).retiring = s.retiring := rfl
@[simp] theorem updGroup_mem (c k : Nat) (f : Group → Group) : (s.updGroup c k f).mem = s.mem := rfl
@[simp] theorem updGroup_desc (c k : Nat) (f : Group → Group) : (s.updGroup c k f).desc = s.desc := rfl
@[simp] theorem updGroup_poison (c k : Nat) (f : Group → Group) : (s.updGroup c k f).poison = s.poison := rfl
@[simp] theorem updGroup_gens (c k : Nat) (f : Group → Group) : (s.updGroup c k f).gens = s.gens := rfl
@[simp] theorem updGroup_queues (c k : Nat) (f : Group → Group) : (s.updGroup c k f).queues = s.queues := rfl
@[simp] theorem updGroup_robin (c k : Nat) (f : Group → Group) : (s.updGroup c k f).robin = s.robin := rfl
@[simp] theorem updGroup_orderNext (c k : Nat) (f : Group → Group) : (s.updGroup c k f).orderNext = s.orderNext := rfl
@[simp] theorem updGroup_parts (c k : Nat) (f : Group → Group) : (s.updGroup c k f).parts = s.parts := rfl
@[simp] theorem updGroup_vfs (c k : Nat) (f : Group → Group) : (s.updGroup c k f).vfs = s.vfs := rfl
@[simp] theorem updGroup_module (c k : Nat) (f : Group → Group) : (s.updGroup c k f).module = s.module := rfl
@[simp] theorem updGroup_tiers (c k : Nat) (f : Group → Group) : (s.updGroup c k f).tiers = s.tiers := rfl
@[simp] theorem updGroup_out (c k : Nat) (f : Group → Group) : (s.updGroup c k f).out = s.out := rfl
@[simp] theorem updGroup_free (c k : Nat) (f : Group → Group) : (s.updGroup c k f).free = s.free := rfl

/-! ### clearSlot -/

@[simp] theorem clearSlot_agenda (c k : Nat) : (s.clearSlot c k).agenda = s.agenda := rfl
@[simp] theorem clearSlot_cur (c k : Nat) : (s.clearSlot c k).cur = s.cur := rfl
@[simp] theorem clearSlot_cores (c k : Nat) :
    (s.clearSlot c k).cores =
      s.cores.modify c fun co => { co with slots := co.slots.set k none } := rfl
@[simp] theorem clearSlot_clusters (c k : Nat) : (s.clearSlot c k).clusters = s.clusters := rfl
@[simp] theorem clearSlot_crews (c k : Nat) : (s.clearSlot c k).crews = s.crews := rfl
@[simp] theorem clearSlot_gangs (c k : Nat) : (s.clearSlot c k).gangs = s.gangs := rfl
@[simp] theorem clearSlot_grids (c k : Nat) : (s.clearSlot c k).grids = s.grids := rfl
@[simp] theorem clearSlot_graphs (c k : Nat) : (s.clearSlot c k).graphs = s.graphs := rfl
@[simp] theorem clearSlot_arrivals (c k : Nat) : (s.clearSlot c k).arrivals = s.arrivals := rfl
@[simp] theorem clearSlot_copies (c k : Nat) : (s.clearSlot c k).copies = s.copies := rfl
@[simp] theorem clearSlot_rays (c k : Nat) : (s.clearSlot c k).rays = s.rays := rfl
@[simp] theorem clearSlot_xpairs (c k : Nat) : (s.clearSlot c k).xpairs = s.xpairs := rfl
@[simp] theorem clearSlot_monitors (c k : Nat) : (s.clearSlot c k).monitors = s.monitors := rfl
@[simp] theorem clearSlot_colls (c k : Nat) : (s.clearSlot c k).colls = s.colls := rfl
@[simp] theorem clearSlot_regWrites (c k : Nat) : (s.clearSlot c k).regWrites = s.regWrites := rfl
@[simp] theorem clearSlot_moves (c k : Nat) : (s.clearSlot c k).moves = s.moves := rfl
@[simp] theorem clearSlot_trapActions (c k : Nat) : (s.clearSlot c k).trapActions = s.trapActions := rfl
@[simp] theorem clearSlot_codeMem (c k : Nat) : (s.clearSlot c k).codeMem = s.codeMem := rfl
@[simp] theorem clearSlot_collSeqs (c k : Nat) : (s.clearSlot c k).collSeqs = s.collSeqs := rfl
@[simp] theorem clearSlot_collEarly (c k : Nat) : (s.clearSlot c k).collEarly = s.collEarly := rfl
@[simp] theorem clearSlot_rung (c k : Nat) : (s.clearSlot c k).rung = s.rung := rfl
@[simp] theorem clearSlot_tails (c k : Nat) : (s.clearSlot c k).tails = s.tails := rfl
@[simp] theorem clearSlot_retiring (c k : Nat) : (s.clearSlot c k).retiring = s.retiring := rfl
@[simp] theorem clearSlot_mem (c k : Nat) : (s.clearSlot c k).mem = s.mem := rfl
@[simp] theorem clearSlot_desc (c k : Nat) : (s.clearSlot c k).desc = s.desc := rfl
@[simp] theorem clearSlot_poison (c k : Nat) : (s.clearSlot c k).poison = s.poison := rfl
@[simp] theorem clearSlot_gens (c k : Nat) : (s.clearSlot c k).gens = s.gens := rfl
@[simp] theorem clearSlot_queues (c k : Nat) : (s.clearSlot c k).queues = s.queues := rfl
@[simp] theorem clearSlot_robin (c k : Nat) : (s.clearSlot c k).robin = s.robin := rfl
@[simp] theorem clearSlot_orderNext (c k : Nat) : (s.clearSlot c k).orderNext = s.orderNext := rfl
@[simp] theorem clearSlot_parts (c k : Nat) : (s.clearSlot c k).parts = s.parts := rfl
@[simp] theorem clearSlot_vfs (c k : Nat) : (s.clearSlot c k).vfs = s.vfs := rfl
@[simp] theorem clearSlot_module (c k : Nat) : (s.clearSlot c k).module = s.module := rfl
@[simp] theorem clearSlot_tiers (c k : Nat) : (s.clearSlot c k).tiers = s.tiers := rfl
@[simp] theorem clearSlot_out (c k : Nat) : (s.clearSlot c k).out = s.out := rfl
@[simp] theorem clearSlot_free (c k : Nat) : (s.clearSlot c k).free = s.free := rfl

/-! ### setQueue -/

@[simp] theorem setQueue_agenda (q : Nat) (d : BitVec 512) : (s.setQueue q d).agenda = s.agenda := rfl
@[simp] theorem setQueue_cur (q : Nat) (d : BitVec 512) : (s.setQueue q d).cur = s.cur := rfl
@[simp] theorem setQueue_cores (q : Nat) (d : BitVec 512) : (s.setQueue q d).cores = s.cores := rfl
@[simp] theorem setQueue_clusters (q : Nat) (d : BitVec 512) : (s.setQueue q d).clusters = s.clusters := rfl
@[simp] theorem setQueue_crews (q : Nat) (d : BitVec 512) : (s.setQueue q d).crews = s.crews := rfl
@[simp] theorem setQueue_gangs (q : Nat) (d : BitVec 512) : (s.setQueue q d).gangs = s.gangs := rfl
@[simp] theorem setQueue_grids (q : Nat) (d : BitVec 512) : (s.setQueue q d).grids = s.grids := rfl
@[simp] theorem setQueue_graphs (q : Nat) (d : BitVec 512) : (s.setQueue q d).graphs = s.graphs := rfl
@[simp] theorem setQueue_arrivals (q : Nat) (d : BitVec 512) : (s.setQueue q d).arrivals = s.arrivals := rfl
@[simp] theorem setQueue_copies (q : Nat) (d : BitVec 512) : (s.setQueue q d).copies = s.copies := rfl
@[simp] theorem setQueue_rays (q : Nat) (d : BitVec 512) : (s.setQueue q d).rays = s.rays := rfl
@[simp] theorem setQueue_xpairs (q : Nat) (d : BitVec 512) : (s.setQueue q d).xpairs = s.xpairs := rfl
@[simp] theorem setQueue_monitors (q : Nat) (d : BitVec 512) : (s.setQueue q d).monitors = s.monitors := rfl
@[simp] theorem setQueue_colls (q : Nat) (d : BitVec 512) : (s.setQueue q d).colls = s.colls := rfl
@[simp] theorem setQueue_regWrites (q : Nat) (d : BitVec 512) : (s.setQueue q d).regWrites = s.regWrites := rfl
@[simp] theorem setQueue_moves (q : Nat) (d : BitVec 512) : (s.setQueue q d).moves = s.moves := rfl
@[simp] theorem setQueue_trapActions (q : Nat) (d : BitVec 512) : (s.setQueue q d).trapActions = s.trapActions := rfl
@[simp] theorem setQueue_codeMem (q : Nat) (d : BitVec 512) : (s.setQueue q d).codeMem = s.codeMem := rfl
@[simp] theorem setQueue_collSeqs (q : Nat) (d : BitVec 512) : (s.setQueue q d).collSeqs = s.collSeqs := rfl
@[simp] theorem setQueue_collEarly (q : Nat) (d : BitVec 512) : (s.setQueue q d).collEarly = s.collEarly := rfl
@[simp] theorem setQueue_rung (q : Nat) (d : BitVec 512) : (s.setQueue q d).rung = s.rung := rfl
@[simp] theorem setQueue_tails (q : Nat) (d : BitVec 512) : (s.setQueue q d).tails = s.tails := rfl
@[simp] theorem setQueue_retiring (q : Nat) (d : BitVec 512) : (s.setQueue q d).retiring = s.retiring := rfl
@[simp] theorem setQueue_mem (q : Nat) (d : BitVec 512) : (s.setQueue q d).mem = s.mem := rfl
@[simp] theorem setQueue_desc (q : Nat) (d : BitVec 512) : (s.setQueue q d).desc = s.desc := rfl
@[simp] theorem setQueue_poison (q : Nat) (d : BitVec 512) : (s.setQueue q d).poison = s.poison := rfl
@[simp] theorem setQueue_gens (q : Nat) (d : BitVec 512) : (s.setQueue q d).gens = s.gens := rfl
@[simp] theorem setQueue_queues (q : Nat) (d : BitVec 512) : (s.setQueue q d).queues = Sparse.set s.queues q d := rfl
@[simp] theorem setQueue_robin (q : Nat) (d : BitVec 512) : (s.setQueue q d).robin = s.robin := rfl
@[simp] theorem setQueue_orderNext (q : Nat) (d : BitVec 512) : (s.setQueue q d).orderNext = s.orderNext := rfl
@[simp] theorem setQueue_parts (q : Nat) (d : BitVec 512) : (s.setQueue q d).parts = s.parts := rfl
@[simp] theorem setQueue_vfs (q : Nat) (d : BitVec 512) : (s.setQueue q d).vfs = s.vfs := rfl
@[simp] theorem setQueue_module (q : Nat) (d : BitVec 512) : (s.setQueue q d).module = s.module := rfl
@[simp] theorem setQueue_tiers (q : Nat) (d : BitVec 512) : (s.setQueue q d).tiers = s.tiers := rfl
@[simp] theorem setQueue_out (q : Nat) (d : BitVec 512) : (s.setQueue q d).out = s.out := rfl
@[simp] theorem setQueue_free (q : Nat) (d : BitVec 512) : (s.setQueue q d).free = s.free := rfl

end Sys2Proof.Machine.State
end

