-- ==== Sys2Proof/Tests/Slice0.lean ====
section
/-!
SUPPORT. Tests: ill-formed words, words written out from the spec's encodings, one step of single words, and for every
claim with hypotheses a state and operands that meet them.
-/

set_option maxRecDepth 20000
set_option Elab.async false

namespace Sys2Proof.Tests

open Sys2Proof Sys2Proof.Machine

/-! ### Ill-formed words: one for each check -/

theorem test_wf_source_code : (Instr.iadd false false 3 63 2).wf = false := by decide +kernel
theorem test_wf_source_pair : (Instr.iadd64 false false 4 3 2).wf = false := by decide +kernel
theorem test_wf_discard_names : (Instr.iadd false true 3 1 2).wf = false := by decide +kernel
theorem test_wf_destination : (Instr.iadd false false 56 1 2).wf = false := by decide +kernel
theorem test_wf_destination_pair : (Instr.iadd64 false false 3 2 4).wf = false := by decide +kernel
theorem test_wf_block : (Instr.xq 4).wf = false ∧ (Instr.xq 8).wf = true := by decide +kernel
theorem test_wf_q_index : (Instr.pand false 8 1 2).wf = false := by decide +kernel
theorem test_wf_uniform : (Instr.uadd false 32 1 2).wf = false := by decide +kernel
theorem test_wf_uniform_source : (Instr.uadd false 1 62 2).wf = false ∧ (Instr.uadd false 1 60 61).wf = true := by
  decide +kernel
theorem test_wf_barrier : (Instr.barSyn 60 63).wf = true ∧ (Instr.barWt 60 63).wf = true := by decide +kernel
theorem test_wf_tangent : (Instr.dgetF32 false false 2 1 8).wf = false := by decide +kernel
theorem test_wf_deltas : (Instr.deval false false 2 1 32 0).wf = false := by decide +kernel
theorem test_wf_live : (Instr.regroup 15 1).wf = false := by decide +kernel
theorem test_wf_system_value : (Instr.sets false 5 1).wf = false := by decide +kernel
theorem test_wf_event_is_no_word : Instr.reset.wf = false := by decide +kernel
/-! ### Words written out from the opcode table: the fixed bits of a row, with operands in its fields -/

theorem test_decode_01_a :
    decode 0x02404180 = some (.iadd false false 16 4 6) ∧ decode 0x02404181 = some (.isub false false 16 4 6) ∧
    decode 0x02404182 = some (.imul false false 16 4 6) ∧ decode 0x02404183 = some (.imulh false false 16 4 6) ∧
    decode 0x02404184 = some (.imulhU false false 16 4 6) ∧ decode 0x02404005 = some (.ineg false false 16 4) ∧
    decode 0x02404006 = some (.iabs false false 16 4) ∧ decode 0x02404187 = some (.imin false false 16 4 6) ∧
    decode 0x02404188 = some (.iminU false false 16 4 6) ∧ decode 0x02404189 = some (.imax false false 16 4 6) ∧
    decode 0x0240418A = some (.imaxU false false 16 4 6) ∧ decode 0x0240418B = some (.land false false 16 4 6) ∧
    decode 0x0240418C = some (.lor false false 16 4 6) ∧ decode 0x0240418D = some (.lxor false false 16 4 6) ∧
    decode 0x0240400E = some (.lnot false false 16 4) ∧ decode 0x0240418F = some (.shl false false 16 4 6) ∧
    decode 0x02404190 = some (.shr false false 16 4 6) ∧ decode 0x02404191 = some (.sar false false 16 4 6) ∧
    decode 0x02404192 = some (.rot false false 16 4 6) ∧ decode 0x02404013 = some (.popc false false 16 4) ∧
    decode 0x02404014 = some (.clz false false 16 4) ∧ decode 0x02404015 = some (.ctz false false 16 4) ∧
    decode 0x02404016 = some (.brev false false 16 4) ∧ decode 0x02404017 = some (.mov false false 16 4) :=
  ⟨rfl, rfl, rfl, rfl, rfl, rfl, rfl, rfl, rfl, rfl, rfl, rfl, rfl, rfl, rfl, rfl, rfl, rfl, rfl, rfl, rfl, rfl, rfl, rfl⟩

theorem test_decode_01_b :
    decode 0x02404198 = some (.iaddSat false false 16 4 6) ∧ decode 0x02404199 = some (.isubSat false false 16 4 6) ∧
    decode 0x0240419A = some (.iaddUsat false false 16 4 6) ∧ decode 0x0240419B = some (.isubUsat false false 16 4 6) :=
  ⟨rfl, rfl, rfl, rfl⟩

theorem test_decode_02_a :
    decode 0x04404180 = some (.iadd64 false false 16 4 6) ∧ decode 0x04404181 = some (.isub64 false false 16 4 6) ∧
    decode 0x04404182 = some (.imul64 false false 16 4 6) ∧ decode 0x04404183 = some (.imulh64 false false 16 4 6) ∧
    decode 0x04404184 = some (.imulhU64 false false 16 4 6) ∧ decode 0x04404005 = some (.ineg64 false false 16 4) ∧
    decode 0x04404006 = some (.iabs64 false false 16 4) ∧ decode 0x04404187 = some (.imin64 false false 16 4 6) ∧
    decode 0x04404188 = some (.iminU64 false false 16 4 6) ∧ decode 0x04404189 = some (.imax64 false false 16 4 6) ∧
    decode 0x0440418A = some (.imaxU64 false false 16 4 6) ∧ decode 0x0440418B = some (.land64 false false 16 4 6) ∧
    decode 0x0440418C = some (.lor64 false false 16 4 6) ∧ decode 0x0440418D = some (.lxor64 false false 16 4 6) ∧
    decode 0x0440400E = some (.lnot64 false false 16 4) ∧ decode 0x0440418F = some (.shl64 false false 16 4 6) ∧
    decode 0x04404190 = some (.shr64 false false 16 4 6) ∧ decode 0x04404191 = some (.sar64 false false 16 4 6) ∧
    decode 0x04404192 = some (.rot64 false false 16 4 6) ∧ decode 0x04404013 = some (.popc64 false false 16 4) ∧
    decode 0x04404014 = some (.clz64 false false 16 4) ∧ decode 0x04404015 = some (.ctz64 false false 16 4) ∧
    decode 0x04404016 = some (.brev64 false false 16 4) ∧ decode 0x04404017 = some (.mov64 false false 16 4) :=
  ⟨rfl, rfl, rfl, rfl, rfl, rfl, rfl, rfl, rfl, rfl, rfl, rfl, rfl, rfl, rfl, rfl, rfl, rfl, rfl, rfl, rfl, rfl, rfl, rfl⟩

theorem test_decode_02_b :
    decode 0x04404198 = some (.iaddSat64 false false 16 4 6) ∧
    decode 0x04404199 = some (.isubSat64 false false 16 4 6) ∧
    decode 0x0440419A = some (.iaddUsat64 false false 16 4 6) ∧
    decode 0x0440419B = some (.isubUsat64 false false 16 4 6) :=
  ⟨rfl, rfl, rfl, rfl⟩

theorem test_decode_03 :
    decode 0x0640418A = some (.imad false false 16 4 6 10) :=
  rfl

theorem test_decode_04 :
    decode 0x0840418A = some (.imad64 false false 16 4 6 10) :=
  rfl

theorem test_decode_05 :
    decode 0x0A400015 = some (.movi false false 16 21) :=
  rfl

theorem test_decode_06 :
    decode 0x0C404015 = some (.lea false false 16 4 21) :=
  rfl

theorem test_decode_07 :
    decode 0x0E0C4184 = some (.icmp false 3 4 6 0 4) :=
  rfl

theorem test_decode_08 :
    decode 0x1040418A = some (.bfi false false 16 4 6 10) :=
  rfl

theorem test_decode_09 :
    decode 0x12404180 = some (.bfxU false false 16 4 6) ∧ decode 0x12404181 = some (.bfxS false false 16 4 6) ∧
    decode 0x12404002 = some (.bffs false false 16 4) ∧ decode 0x12404003 = some (.bffsIdx false false 16 4) ∧
    decode 0x12404184 = some (.bfpl false false 16 4 6) :=
  ⟨rfl, rfl, rfl, rfl, rfl⟩

theorem test_decode_0a :
    decode 0x14404000 = some (.qxchX false false 16 4) ∧ decode 0x14404001 = some (.qxchY false false 16 4) ∧
    decode 0x14404002 = some (.qxchXy false false 16 4) ∧ decode 0x14404043 = some (.qxchBc false false 16 4 1) ∧
    decode 0x14404188 = some (.gshuf false false 16 4 6) ∧ decode 0x14404189 = some (.gshufXor false false 16 4 6) ∧
    decode 0x14404010 = some (.qxchX64 false false 16 4) ∧ decode 0x14404011 = some (.qxchY64 false false 16 4) ∧
    decode 0x14404012 = some (.qxchXy64 false false 16 4) ∧ decode 0x14404053 = some (.qxchBc64 false false 16 4 1) ∧
    decode 0x14404198 = some (.gshuf64 false false 16 4 6) ∧ decode 0x14404199 = some (.gshufXor64 false false 16 4 6) :=
  ⟨rfl, rfl, rfl, rfl, rfl, rfl, rfl, rfl, rfl, rfl, rfl, rfl⟩

theorem test_decode_10 :
    decode 0x2040418A = some (.ffmaF32 false false 16 4 6 10) :=
  rfl

theorem test_decode_11 :
    decode 0x2240418A = some (.ffmaF64 false false 16 4 6 10) :=
  rfl

theorem test_decode_12 :
    decode 0x2440418A = some (.ffmaF16 false false 16 4 6 10) :=
  rfl

theorem test_decode_13 :
    decode 0x2640418A = some (.ffmaBf16 false false 16 4 6 10) :=
  rfl

theorem test_decode_14 :
    decode 0x2840418A = some (.ffmaF16x2 false false 16 4 6 10) :=
  rfl

theorem test_decode_15 :
    decode 0x2A404180 = some (.faddF32 false false 16 4 6) ∧ decode 0x2A404181 = some (.fsubF32 false false 16 4 6) ∧
    decode 0x2A404182 = some (.fmulF32 false false 16 4 6) ∧ decode 0x2A404183 = some (.fminF32 false false 16 4 6) ∧
    decode 0x2A404184 = some (.fmaxF32 false false 16 4 6) ∧ decode 0x2A404005 = some (.fabsF32 false false 16 4) ∧
    decode 0x2A404006 = some (.fnegF32 false false 16 4) ∧ decode 0x2A404187 = some (.fdivF32 false false 16 4 6) ∧
    decode 0x2A404008 = some (.frcpF32 false false 16 4) ∧ decode 0x2A404009 = some (.frsqF32 false false 16 4) ∧
    decode 0x2A40400A = some (.fsqrtF32 false false 16 4) ∧ decode 0x2A40400B = some (.fexp2F32 false false 16 4) ∧
    decode 0x2A40400C = some (.flog2F32 false false 16 4) ∧ decode 0x2A40400D = some (.fsinF32 false false 16 4) ∧
    decode 0x2A40400E = some (.fcosF32 false false 16 4) ∧ decode 0x2A40400F = some (.ffloorF32 false false 16 4) ∧
    decode 0x2A404010 = some (.fceilF32 false false 16 4) ∧ decode 0x2A404011 = some (.frndF32 false false 16 4) ∧
    decode 0x2A404012 = some (.ffracF32 false false 16 4) :=
  ⟨rfl, rfl, rfl, rfl, rfl, rfl, rfl, rfl, rfl, rfl, rfl, rfl, rfl, rfl, rfl, rfl, rfl, rfl, rfl⟩

theorem test_decode_16 :
    decode 0x2C404180 = some (.faddF64 false false 16 4 6) ∧ decode 0x2C404181 = some (.fsubF64 false false 16 4 6) ∧
    decode 0x2C404182 = some (.fmulF64 false false 16 4 6) ∧ decode 0x2C404183 = some (.fminF64 false false 16 4 6) ∧
    decode 0x2C404184 = some (.fmaxF64 false false 16 4 6) ∧ decode 0x2C404005 = some (.fabsF64 false false 16 4) ∧
    decode 0x2C404006 = some (.fnegF64 false false 16 4) ∧ decode 0x2C404187 = some (.fdivF64 false false 16 4 6) ∧
    decode 0x2C404008 = some (.frcpF64 false false 16 4) ∧ decode 0x2C404009 = some (.frsqF64 false false 16 4) ∧
    decode 0x2C40400A = some (.fsqrtF64 false false 16 4) ∧ decode 0x2C40400B = some (.fexp2F64 false false 16 4) ∧
    decode 0x2C40400C = some (.flog2F64 false false 16 4) ∧ decode 0x2C40400D = some (.fsinF64 false false 16 4) ∧
    decode 0x2C40400E = some (.fcosF64 false false 16 4) ∧ decode 0x2C40400F = some (.ffloorF64 false false 16 4) ∧
    decode 0x2C404010 = some (.fceilF64 false false 16 4) ∧ decode 0x2C404011 = some (.frndF64 false false 16 4) ∧
    decode 0x2C404012 = some (.ffracF64 false false 16 4) :=
  ⟨rfl, rfl, rfl, rfl, rfl, rfl, rfl, rfl, rfl, rfl, rfl, rfl, rfl, rfl, rfl, rfl, rfl, rfl, rfl⟩

theorem test_decode_17 :
    decode 0x2E404180 = some (.faddF16 false false 16 4 6) ∧ decode 0x2E404181 = some (.fsubF16 false false 16 4 6) ∧
    decode 0x2E404182 = some (.fmulF16 false false 16 4 6) ∧ decode 0x2E404183 = some (.fminF16 false false 16 4 6) ∧
    decode 0x2E404184 = some (.fmaxF16 false false 16 4 6) ∧ decode 0x2E404005 = some (.fabsF16 false false 16 4) ∧
    decode 0x2E404006 = some (.fnegF16 false false 16 4) ∧ decode 0x2E404187 = some (.fdivF16 false false 16 4 6) ∧
    decode 0x2E404008 = some (.frcpF16 false false 16 4) ∧ decode 0x2E404009 = some (.frsqF16 false false 16 4) ∧
    decode 0x2E40400A = some (.fsqrtF16 false false 16 4) ∧ decode 0x2E40400B = some (.fexp2F16 false false 16 4) ∧
    decode 0x2E40400C = some (.flog2F16 false false 16 4) ∧ decode 0x2E40400D = some (.fsinF16 false false 16 4) ∧
    decode 0x2E40400E = some (.fcosF16 false false 16 4) ∧ decode 0x2E40400F = some (.ffloorF16 false false 16 4) ∧
    decode 0x2E404010 = some (.fceilF16 false false 16 4) ∧ decode 0x2E404011 = some (.frndF16 false false 16 4) ∧
    decode 0x2E404012 = some (.ffracF16 false false 16 4) :=
  ⟨rfl, rfl, rfl, rfl, rfl, rfl, rfl, rfl, rfl, rfl, rfl, rfl, rfl, rfl, rfl, rfl, rfl, rfl, rfl⟩

theorem test_decode_18 :
    decode 0x30404180 = some (.faddBf16 false false 16 4 6) ∧
    decode 0x30404181 = some (.fsubBf16 false false 16 4 6) ∧
    decode 0x30404182 = some (.fmulBf16 false false 16 4 6) ∧
    decode 0x30404183 = some (.fminBf16 false false 16 4 6) ∧
    decode 0x30404184 = some (.fmaxBf16 false false 16 4 6) ∧ decode 0x30404005 = some (.fabsBf16 false false 16 4) ∧
    decode 0x30404006 = some (.fnegBf16 false false 16 4) ∧ decode 0x30404187 = some (.fdivBf16 false false 16 4 6) ∧
    decode 0x30404008 = some (.frcpBf16 false false 16 4) ∧ decode 0x30404009 = some (.frsqBf16 false false 16 4) ∧
    decode 0x3040400A = some (.fsqrtBf16 false false 16 4) ∧ decode 0x3040400B = some (.fexp2Bf16 false false 16 4) ∧
    decode 0x3040400C = some (.flog2Bf16 false false 16 4) ∧ decode 0x3040400D = some (.fsinBf16 false false 16 4) ∧
    decode 0x3040400E = some (.fcosBf16 false false 16 4) ∧ decode 0x3040400F = some (.ffloorBf16 false false 16 4) ∧
    decode 0x30404010 = some (.fceilBf16 false false 16 4) ∧ decode 0x30404011 = some (.frndBf16 false false 16 4) ∧
    decode 0x30404012 = some (.ffracBf16 false false 16 4) :=
  ⟨rfl, rfl, rfl, rfl, rfl, rfl, rfl, rfl, rfl, rfl, rfl, rfl, rfl, rfl, rfl, rfl, rfl, rfl, rfl⟩

theorem test_decode_19 :
    decode 0x32404180 = some (.faddF16x2 false false 16 4 6) ∧
    decode 0x32404181 = some (.fsubF16x2 false false 16 4 6) ∧
    decode 0x32404182 = some (.fmulF16x2 false false 16 4 6) ∧
    decode 0x32404183 = some (.fminF16x2 false false 16 4 6) ∧
    decode 0x32404184 = some (.fmaxF16x2 false false 16 4 6) ∧
    decode 0x32404005 = some (.fabsF16x2 false false 16 4) ∧ decode 0x32404006 = some (.fnegF16x2 false false 16 4) ∧
    decode 0x32404187 = some (.fdivF16x2 false false 16 4 6) ∧
    decode 0x32404008 = some (.frcpF16x2 false false 16 4) ∧ decode 0x32404009 = some (.frsqF16x2 false false 16 4) ∧
    decode 0x3240400A = some (.fsqrtF16x2 false false 16 4) ∧
    decode 0x3240400B = some (.fexp2F16x2 false false 16 4) ∧
    decode 0x3240400C = some (.flog2F16x2 false false 16 4) ∧ decode 0x3240400D = some (.fsinF16x2 false false 16 4) ∧
    decode 0x3240400E = some (.fcosF16x2 false false 16 4) ∧
    decode 0x3240400F = some (.ffloorF16x2 false false 16 4) ∧
    decode 0x32404010 = some (.fceilF16x2 false false 16 4) ∧ decode 0x32404011 = some (.frndF16x2 false false 16 4) ∧
    decode 0x32404012 = some (.ffracF16x2 false false 16 4) :=
  ⟨rfl, rfl, rfl, rfl, rfl, rfl, rfl, rfl, rfl, rfl, rfl, rfl, rfl, rfl, rfl, rfl, rfl, rfl, rfl⟩

theorem test_decode_1a :
    decode 0x340C418C = some (.fcmp false 3 4 6 1 4) :=
  rfl

theorem test_decode_1b :
    decode 0x36404023 = some (.cvt false false 16 4 4 3) :=
  rfl

theorem test_decode_20 :
    decode 0x40404000 = some (.dseedF32 false false 16 4 0) ∧
    decode 0x40404001 = some (.dseedF64 false false 16 4 0) ∧ decode 0x40404002 = some (.dzero false false 16 4) ∧
    decode 0x40404003 = some (.dzero64 false false 16 4) ∧ decode 0x40404004 = some (.dgetF32 false false 16 4 0) ∧
    decode 0x40404005 = some (.dgetF64 false false 16 4 0) ∧ decode 0x40404006 = some (.dputF32 false 16 4 0) ∧
    decode 0x40404007 = some (.dputF64 false 16 4 0) :=
  ⟨rfl, rfl, rfl, rfl, rfl, rfl, rfl, rfl⟩

theorem test_decode_21 :
    decode 0x424040C1 = some (.deval false false 16 4 3 1) :=
  rfl

theorem test_decode_24 :
    decode 0x480C41A5 = some (.pcmp false 3 4 6 1 1 1) :=
  rfl

theorem test_decode_25 :
    decode 0x4A0C4240 = some (.pset false 3 4 9) ∧ decode 0x4A0C1081 = some (.pand false 3 1 2) ∧
    decode 0x4A0C1082 = some (.por false 3 1 2) ∧ decode 0x4A0C1003 = some (.pnot false 3 1) ∧
    decode 0x4A401004 = some (.pget false false 16 1) ∧ decode 0x4A401005 = some (.pgetW false false 16 1) ∧
    decode 0x4A0C4186 = some (.pput false 3 4 6) ∧ decode 0x4A0C1007 = some (.pcoll false 3 1) :=
  ⟨rfl, rfl, rfl, rfl, rfl, rfl, rfl, rfl⟩

theorem test_decode_26 :
    decode 0x4C41118A = some (.pblend false false 16 1 1 6 10) :=
  rfl

theorem test_decode_27 :
    decode 0x4E404191 = some (.psel false false 16 4 6 1 1) ∧ decode 0x4E0041A0 = some (.rkey false 4 6) ∧
    decode 0x4E400021 = some (.rnextU32 false false 16) ∧ decode 0x4E400022 = some (.rnextU64 false false 16) ∧
    decode 0x4E400023 = some (.rnextF32 false false 16) :=
  ⟨rfl, rfl, rfl, rfl, rfl⟩

theorem test_decode_28 :
    decode 0x504041A0 = some (.ld false 16 4 6 4) :=
  rfl

theorem test_decode_29 :
    decode 0x52404190 = some (.st false 16 4 6 2) :=
  rfl

theorem test_decode_2a :
    decode 0x54404180 = some (.ldt false 16 4 6 0 0) ∧ decode 0x544041A4 = some (.stt false 16 4 6 0 1) :=
  ⟨rfl, rfl⟩

theorem test_decode_2b :
    decode 0x56404181 = some (.ldd false 16 4 6 1) ∧ decode 0x564041A1 = some (.std false 16 4 6 1) :=
  ⟨rfl, rfl⟩

theorem test_decode_2c :
    decode 0x584041A0 = some (.lds false 16 4 6 4) :=
  rfl

theorem test_decode_2d :
    decode 0x5A404190 = some (.sts false 16 4 6 2) :=
  rfl

theorem test_decode_2e :
    decode 0x5C404000 = some (.bhdrRd false 16 4) ∧ decode 0x5C404001 = some (.bhdrWr false 16 4) ∧
    decode 0x5C004182 = some (.pref false 4 6) :=
  ⟨rfl, rfl, rfl⟩

theorem test_decode_2f :
    decode 0x5E004180 = some (.tset false 4 6) ∧ decode 0x5E004001 = some (.tsetClr false 4) ∧
    decode 0x5E404002 = some (.tstat false false 16 4) :=
  ⟨rfl, rfl, rfl⟩

theorem test_decode_30 :
    decode 0x60404193 = some (.atom false 16 4 6 1 1 1) ∧ decode 0x604041B3 = some (.atomFadd false 16 4 6 1 1) :=
  ⟨rfl, rfl⟩

theorem test_decode_31 :
    decode 0x62404193 = some (.atoms false 16 4 6 1 1 1) ∧ decode 0x624041B3 = some (.atomsFadd false 16 4 6 1 1) :=
  ⟨rfl, rfl⟩

theorem test_decode_32 :
    decode 0x64404000 = some (.acq false 16 4) ∧ decode 0x64004181 = some (.rel false 4 6) ∧
    decode 0x64000002 = some (.fence false) ∧ decode 0x64404183 = some (.bind false 16 4 6) ∧
    decode 0x64404004 = some (.bindClr false 16 4) :=
  ⟨rfl, rfl, rfl, rfl, rfl⟩

theorem test_decode_33 :
    decode 0xE6404187 = some (.mwait 16 4 6 1 1 1) :=
  rfl

theorem test_decode_34 :
    decode 0x684040C0 = some (.barArv false false 16 4 3) ∧ decode 0xE80040C1 = some (.barWt 4 3) ∧
    decode 0xE80040C2 = some (.barSyn 4 3) ∧ decode 0xE80000C3 = some (.gbar 3) :=
  ⟨rfl, rfl, rfl, rfl⟩

theorem test_decode_35 :
    decode 0xEA404000 = some (.mbput 16 4) ∧ decode 0xEA404001 = some (.mbtake 16 4) :=
  ⟨rfl, rfl⟩

theorem test_decode_36 :
    decode 0xEC000015 = some (.bra 21) :=
  rfl

theorem test_decode_37 :
    decode 0xEE000015 = some (.call 21) :=
  rfl

theorem test_decode_38 :
    decode 0xF0240015 = some (.brq 1 1 21) :=
  rfl

theorem test_decode_39 :
    decode 0x72000000 = some (.nop false) ∧ decode 0xF2004001 = some (.brx 4) ∧ decode 0xF2004002 = some (.callx 4) ∧
    decode 0xF2000003 = some .ret ∧ decode 0xF2084184 = some (.callj 2 4 6) ∧
    decode 0xF2084005 = some (.regroup 2 4) ∧ decode 0x72080006 = some (.join false 2) ∧
    decode 0x72080007 = some (.leave false 2) ∧ decode 0xF2080008 = some (.waitm 2) ∧
    decode 0x72005449 = some (.region false 21 1) ∧ decode 0xF200000A = some .exit :=
  ⟨rfl, rfl, rfl, rfl, rfl, rfl, rfl, rfl, rfl, rfl, rfl⟩

theorem test_decode_3a :
    decode 0xF4008000 = some (.xq 8) ∧ decode 0xF4008001 = some (.xqn 8) :=
  ⟨rfl, rfl⟩

theorem test_decode_3b :
    decode 0x760C0000 = some (.elect false 3) ∧ decode 0xF6004001 = some (.mmissue 4) ∧
    decode 0xF6404182 = some (.accsv 16 4 6) ∧ decode 0xF6404183 = some (.accld 16 4 6) ∧
    decode 0x760C00C4 = some (.electU false 3 3) :=
  ⟨rfl, rfl, rfl, rfl, rfl⟩

theorem test_decode_3c :
    decode 0xF8404180 = some (.trace 16 4 6) ∧ decode 0xF8404181 = some (.tracep 16 4 6) ∧
    decode 0xF8004002 = some (.xpair 4) ∧ decode 0xF8404183 = some (.tres 16 4 6) ∧
    decode 0xF8404184 = some (.tresAcc 16 4 6) ∧ decode 0xF8404185 = some (.tresTerm 16 4 6) ∧
    decode 0xF8004006 = some (.reproj 4) :=
  ⟨rfl, rfl, rfl, rfl, rfl, rfl, rfl⟩

theorem test_decode_3d :
    decode 0x7A144000 = some (.umov false 5 4) ∧ decode 0x7A144181 = some (.uadd false 5 4 6) ∧
    decode 0x7A144182 = some (.usub false 5 4 6) ∧ decode 0x7A144183 = some (.umul false 5 4 6) ∧
    decode 0x7A144184 = some (.uand false 5 4 6) ∧ decode 0x7A144185 = some (.uor false 5 4 6) ∧
    decode 0x7A144186 = some (.uxor false 5 4 6) ∧ decode 0x7A144187 = some (.ushl false 5 4 6) ∧
    decode 0x7A144188 = some (.ushr false 5 4 6) ∧ decode 0x7A144189 = some (.usar false 5 4 6) ∧
    decode 0x7A14418A = some (.umin false 5 4 6) ∧ decode 0x7A14418B = some (.umax false 5 4 6) ∧
    decode 0x7A144010 = some (.umovv false 5 4) ∧ decode 0x7A144011 = some (.umovv64 false 5 4) :=
  ⟨rfl, rfl, rfl, rfl, rfl, rfl, rfl, rfl, rfl, rfl, rfl, rfl, rfl, rfl⟩

theorem test_decode_3e :
    decode 0xFC404050 = some (.fetchw 16 4 1) ∧ decode 0xFC404191 = some (.launch 16 4 6) ∧
    decode 0xFC000540 = some (.trap 21) ∧ decode 0xFC000001 = some .eret ∧
    decode 0x7C406002 = some (.gets false 16 6) ∧ decode 0x7C204003 = some (.sets false 8 4) :=
  ⟨rfl, rfl, rfl, rfl, rfl, rfl⟩

theorem test_decode_3f :
    decode 0x7E000015 = some (.himm 21) ∧ decode 0x7F000021 = some (.hsel 1 1) ∧
    decode 0x7F100009 = some (.hgrd 1 1) ∧ decode 0x7F200001 = some (.hrnd 1) ∧ decode 0x7F300001 = some (.hscp 1) ∧
    decode 0x7F400001 = some (.hcch 1) ∧ decode 0x7F500015 = some (.hsch 21) :=
  ⟨rfl, rfl, rfl, rfl, rfl, rfl, rfl⟩


/-! ### A machine with one word to execute

The machine that `withFetchWord` gives, at the word's turn: one thread in lane 0, helpers in lanes 1-3, the other lanes
empty, every register zero, T 1, and virtual 0 to 2 MiB mapped to the physical 2 MiB at 0x200000. -/

def base : State := atSlot 0 0 { State.reset.withFetchWord 32 0 with agenda := [] }

/-- `base` with its group and its crew changed. -/
def stateOf (G : Group → Group) (C : Crew → Crew) : State := (base.updGroup 0 0 G).updCrew 0 C

def baseCtx : Ctx :=
  base.ctx?.getD ⟨0, 0, ⟨0, 0, 0, [], [], Bundle.empty⟩, State.newCrew ⟨0, 0, 0, 0, none, .live, 1, []⟩ 0 0 0 0, 3⟩

def ctxOf (s : State) : Ctx := s.ctx?.getD baseCtx

/-- `WordReady` as a test. -/
def ready (s : State) (i : Instr) : Bool :=
  s.ctx?.isSome && decide (wordTrap i.info (ctxOf s) = none) && !stalls i.info s (ctxOf s)

theorem wordReady_of {s : State} {i : Instr} (h : ready s i = true) : WordReady i s (ctxOf s) := by
  simp only [ready, Bool.and_eq_true, decide_eq_true_eq, Bool.not_eq_true', Option.isSome_iff_exists] at h
  obtain ⟨⟨⟨c, hc⟩, h2⟩, h3⟩ := h
  exact ⟨by simp [ctxOf, hc], h2, h3⟩

theorem all_ready {s : State} {l : List Instr} (h : l.all (ready s) = true) : ∀ i ∈ l, WordReady i s (ctxOf s) :=
  fun i hi => wordReady_of (List.all_eq_true.1 h i hi)
/-! ### Words that are ready on `base`: what the claims that ask for no more than `WordReady` assume -/

theorem witness_ready_01 : ∀ i ∈ ([.iadd false false 16 4 6, .isub false false 16 4 6, .imul false false 16 4 6,
    .imulh false false 16 4 6, .imulhU false false 16 4 6, .ineg false false 16 4, .iabs false false 16 4,
    .imin false false 16 4 6, .iminU false false 16 4 6, .imax false false 16 4 6, .imaxU false false 16 4 6,
    .land false false 16 4 6, .lor false false 16 4 6, .lxor false false 16 4 6, .lnot false false 16 4,
    .shl false false 16 4 6, .shr false false 16 4 6, .sar false false 16 4 6, .rot false false 16 4 6,
    .popc false false 16 4, .clz false false 16 4, .ctz false false 16 4, .brev false false 16 4,
    .mov false false 16 4] : List Instr),
    WordReady i base (ctxOf base) := all_ready (by decide +kernel)

theorem witness_ready_01_24 : ∀ i ∈ ([.iaddSat false false 16 4 6, .isubSat false false 16 4 6,
    .iaddUsat false false 16 4 6, .isubUsat false false 16 4 6, .iadd64 false false 16 4 6,
    .isub64 false false 16 4 6, .imul64 false false 16 4 6, .imulh64 false false 16 4 6,
    .imulhU64 false false 16 4 6, .ineg64 false false 16 4, .iabs64 false false 16 4, .imin64 false false 16 4 6,
    .iminU64 false false 16 4 6, .imax64 false false 16 4 6, .imaxU64 false false 16 4 6, .land64 false false 16 4 6,
    .lor64 false false 16 4 6, .lxor64 false false 16 4 6, .lnot64 false false 16 4, .shl64 false false 16 4 6,
    .shr64 false false 16 4 6, .sar64 false false 16 4 6, .rot64 false false 16 4 6,
    .popc64 false false 16 4] : List Instr),
    WordReady i base (ctxOf base) := all_ready (by decide +kernel)

theorem witness_ready_02_20 : ∀ i ∈ ([.clz64 false false 16 4, .ctz64 false false 16 4, .brev64 false false 16 4,
    .mov64 false false 16 4, .iaddSat64 false false 16 4 6, .isubSat64 false false 16 4 6,
    .iaddUsat64 false false 16 4 6, .isubUsat64 false false 16 4 6, .imad false false 16 4 6 10,
    .imad64 false false 16 4 6 10, .movi false false 16 21, .lea false false 16 4 21, .icmp false 3 4 6 0 4,
    .bfi false false 16 4 6 10, .bfxU false false 16 4 6, .bfxS false false 16 4 6, .bffs false false 16 4,
    .bffsIdx false false 16 4, .bfpl false false 16 4 6, .qxchX false false 16 4, .qxchY false false 16 4,
    .qxchXy false false 16 4, .qxchBc false false 16 4 1, .gshuf false false 16 4 6] : List Instr),
    WordReady i base (ctxOf base) := all_ready (by decide +kernel)

theorem witness_ready_0a_5 : ∀ i ∈ ([.gshufXor false false 16 4 6, .qxchX64 false false 16 4,
    .qxchY64 false false 16 4, .qxchXy64 false false 16 4, .qxchBc64 false false 16 4 1, .gshuf64 false false 16 4 6,
    .gshufXor64 false false 16 4 6, .ffmaF32 false false 16 4 6 10, .ffmaF64 false false 16 4 6 10,
    .ffmaF16 false false 16 4 6 10, .ffmaBf16 false false 16 4 6 10, .ffmaF16x2 false false 16 4 6 10,
    .faddF32 false false 16 4 6, .fsubF32 false false 16 4 6, .fmulF32 false false 16 4 6,
    .fminF32 false false 16 4 6, .fmaxF32 false false 16 4 6, .fabsF32 false false 16 4, .fnegF32 false false 16 4,
    .fdivF32 false false 16 4 6, .frcpF32 false false 16 4, .frsqF32 false false 16 4, .fsqrtF32 false false 16 4,
    .fexp2F32 false false 16 4] : List Instr),
    WordReady i base (ctxOf base) := all_ready (by decide +kernel)

theorem witness_ready_15_12 : ∀ i ∈ ([.flog2F32 false false 16 4, .fsinF32 false false 16 4,
    .fcosF32 false false 16 4, .ffloorF32 false false 16 4, .fceilF32 false false 16 4, .frndF32 false false 16 4,
    .ffracF32 false false 16 4, .faddF64 false false 16 4 6, .fsubF64 false false 16 4 6,
    .fmulF64 false false 16 4 6, .fminF64 false false 16 4 6, .fmaxF64 false false 16 4 6, .fabsF64 false false 16 4,
    .fnegF64 false false 16 4, .fdivF64 false false 16 4 6, .frcpF64 false false 16 4, .frsqF64 false false 16 4,
    .fsqrtF64 false false 16 4, .fexp2F64 false false 16 4, .flog2F64 false false 16 4, .fsinF64 false false 16 4,
    .fcosF64 false false 16 4, .ffloorF64 false false 16 4, .fceilF64 false false 16 4] : List Instr),
    WordReady i base (ctxOf base) := all_ready (by decide +kernel)

theorem witness_ready_16_17 : ∀ i ∈ ([.frndF64 false false 16 4, .ffracF64 false false 16 4,
    .faddF16 false false 16 4 6, .fsubF16 false false 16 4 6, .fmulF16 false false 16 4 6,
    .fminF16 false false 16 4 6, .fmaxF16 false false 16 4 6, .fabsF16 false false 16 4, .fnegF16 false false 16 4,
    .fdivF16 false false 16 4 6, .frcpF16 false false 16 4, .frsqF16 false false 16 4, .fsqrtF16 false false 16 4,
    .fexp2F16 false false 16 4, .flog2F16 false false 16 4, .fsinF16 false false 16 4, .fcosF16 false false 16 4,
    .ffloorF16 false false 16 4, .fceilF16 false false 16 4, .frndF16 false false 16 4, .ffracF16 false false 16 4,
    .faddBf16 false false 16 4 6, .fsubBf16 false false 16 4 6, .fmulBf16 false false 16 4 6] : List Instr),
    WordReady i base (ctxOf base) := all_ready (by decide +kernel)

theorem witness_ready_18_3 : ∀ i ∈ ([.fminBf16 false false 16 4 6, .fmaxBf16 false false 16 4 6,
    .fabsBf16 false false 16 4, .fnegBf16 false false 16 4, .fdivBf16 false false 16 4 6, .frcpBf16 false false 16 4,
    .frsqBf16 false false 16 4, .fsqrtBf16 false false 16 4, .fexp2Bf16 false false 16 4,
    .flog2Bf16 false false 16 4, .fsinBf16 false false 16 4, .fcosBf16 false false 16 4,
    .ffloorBf16 false false 16 4, .fceilBf16 false false 16 4, .frndBf16 false false 16 4,
    .ffracBf16 false false 16 4, .faddF16x2 false false 16 4 6, .fsubF16x2 false false 16 4 6,
    .fmulF16x2 false false 16 4 6, .fminF16x2 false false 16 4 6, .fmaxF16x2 false false 16 4 6,
    .fabsF16x2 false false 16 4, .fnegF16x2 false false 16 4, .fdivF16x2 false false 16 4 6] : List Instr),
    WordReady i base (ctxOf base) := all_ready (by decide +kernel)

theorem witness_ready_19_8 : ∀ i ∈ ([.frcpF16x2 false false 16 4, .frsqF16x2 false false 16 4,
    .fsqrtF16x2 false false 16 4, .fexp2F16x2 false false 16 4, .flog2F16x2 false false 16 4,
    .fsinF16x2 false false 16 4, .fcosF16x2 false false 16 4, .ffloorF16x2 false false 16 4,
    .fceilF16x2 false false 16 4, .frndF16x2 false false 16 4, .ffracF16x2 false false 16 4, .fcmp false 3 4 6 1 4,
    .cvt false false 16 4 4 3, .dseedF32 false false 16 4 0, .dseedF64 false false 16 4 0, .dzero false false 16 4,
    .dzero64 false false 16 4, .dgetF32 false false 16 4 0, .dgetF64 false false 16 4 0, .dputF32 false 16 4 0,
    .dputF64 false 16 4 0, .deval false false 16 4 3 1, .pcmp false 3 4 6 1 1 1, .pset false 3 4 9] : List Instr),
    WordReady i base (ctxOf base) := all_ready (by decide +kernel)

theorem witness_ready_25_1 : ∀ i ∈ ([.pand false 3 1 2, .por false 3 1 2, .pnot false 3 1, .pget false false 16 1,
    .pgetW false false 16 1, .pput false 3 4 6, .pcoll false 3 1, .pblend false false 16 1 1 6 10,
    .psel false false 16 4 6 1 1, .rkey false 4 6, .rnextU32 false false 16, .rnextU64 false false 16,
    .rnextF32 false false 16, .ld false 16 4 6 4, .st false 16 4 6 2, .ldt false 16 4 6 0 0, .stt false 16 4 6 0 1,
    .ldd false 16 4 6 1, .std false 16 4 6 1, .lds false 16 4 6 4, .sts false 16 4 6 2, .bhdrRd false 16 4,
    .bhdrWr false 16 4, .pref false 4 6] : List Instr),
    WordReady i base (ctxOf base) := all_ready (by decide +kernel)

theorem witness_ready_2f : ∀ i ∈ ([.tset false 4 6, .tsetClr false 4, .tstat false false 16 4,
    .atom false 16 4 6 1 1 1, .atomFadd false 16 4 6 1 1, .atoms false 16 4 6 1 1 1, .atomsFadd false 16 4 6 1 1,
    .acq false 16 4, .rel false 4 6, .fence false, .bind false 16 4 6, .bindClr false 16 4, .mwait 16 4 6 1 1 1,
    .barArv false false 16 4 3, .barWt 4 3, .barSyn 4 3, .gbar 3, .mbput 16 4, .mbtake 16 4, .bra 21, .call 21,
    .brq 1 1 21, .nop false, .brx 4] : List Instr),
    WordReady i base (ctxOf base) := all_ready (by decide +kernel)

theorem witness_ready_39_2 : ∀ i ∈ ([.callx 4, .ret, .callj 2 4 6, .regroup 2 4, .join false 2, .leave false 2,
    .waitm 2, .region false 21 1, .exit, .xq 8, .xqn 8, .elect false 3, .mmissue 4, .accsv 16 4 6, .accld 16 4 6,
    .electU false 3 3, .trace 16 4 6, .tracep 16 4 6, .xpair 4, .tres 16 4 6, .tresAcc 16 4 6, .tresTerm 16 4 6,
    .reproj 4, .umov false 5 4] : List Instr),
    WordReady i base (ctxOf base) := all_ready (by decide +kernel)

theorem witness_ready_3d_1 : ∀ i ∈ ([.uadd false 5 4 6, .usub false 5 4 6, .umul false 5 4 6, .uand false 5 4 6,
    .uor false 5 4 6, .uxor false 5 4 6, .ushl false 5 4 6, .ushr false 5 4 6, .usar false 5 4 6, .umin false 5 4 6,
    .umax false 5 4 6, .umovv false 5 4, .umovv64 false 5 4, .fetchw 16 4 1, .launch 16 4 6, .trap 21, .eret,
    .gets false 16 6, .sets false 8 4] : List Instr),
    WordReady i base (ctxOf base) := all_ready (by decide +kernel)


/-! ### States with one thing changed -/

/-- The lane of the one thread changed. -/
def withLane (f : Lane → Lane) : State := stateOf id fun cr => { cr with lanes := cr.lanes.modify 0 f }
def withThread (f : Thread → Thread) : State := withLane fun l => l.updThread f
/-- V registers of the one thread. -/
def withRegs (ws : List (Nat × Word)) : State := withLane fun l => ws.foldl (fun l w => l.setV w.1 ⟨w.2, [0]⟩) l
def withBundle (f : Bundle → Bundle) : State := stateOf (fun g => { g with bundle := f g.bundle }) id
/-- No lane is active: the guard turns them all off. -/
def guarded : State := withBundle fun b => { b with grd := some (false, 0) }
/-- One active lane and no helper. -/
def alone (f : Crew → Crew) : State :=
  stateOf (fun g => { g with lanes := ⟨.active, 0⟩ :: List.replicate 15 ⟨.empty, 0⟩ }) f
def aloneRegs (ws : List (Nat × Word)) : State :=
  alone fun cr => { cr with lanes := cr.lanes.modify 0 fun l => ws.foldl (fun l w => l.setV w.1 ⟨w.2, [0]⟩) l }

theorem active_bound {c : Ctx} {P : Nat → Prop} (hl : c.g.lanes.length ≤ 16) (h : ∀ t < 16, c.active t = true → P t) :
    ∀ t, c.active t = true → P t := by
  intro t ht
  refine h t (Nat.lt_of_not_le fun hn => ?_) ht
  simp [Ctx.active, Ctx.kind, List.getElem?_eq_none (Nat.le_trans hl hn)] at ht

theorem active_thread {c : Ctx} {P : Thread → Prop} [DecidablePred P] (hl : c.g.lanes.length ≤ 16)
    (h : ∀ t < 16, c.active t = true → ((c.lane t).thread?.all fun th => decide (P th)) = true) :
    ∀ t, c.active t = true → ∀ th, (c.lane t).thread? = some th → P th := by
  intro t ht th hth
  have h1 := active_bound (P := fun t => ((c.lane t).thread?.all fun th => decide (P th)) = true) hl h t ht
  simpa [hth] using h1

theorem stack_has {c : Ctx} {p : Nat → Prop} [DecidablePred p] (hl : c.g.lanes.length ≤ 16)
    (h : ∀ t < 16, c.active t = true → ((c.lane t).thread?.all fun th => decide (p th.depth)) = true) : c.stackHas p :=
  active_thread (P := fun th => p th.depth) hl h

/-! ### Claims about words that work in their lanes -/

theorem witness_integer_orders : WordReady (.icmp false 3 4 6 1 9) base (ctxOf base) := wordReady_of (by decide +kernel)

/-- BitFieldResults: the bounds of its clauses about bits are met at their ends. -/
theorem witness_bit_counts : (1 : Dword) ≠ 0 ∧ (1 <<< 63 : Dword) ≠ 0 ∧ ctz (1 <<< 63 : Dword) = 63 ∧ clz (1 : Dword) = 63 ∧
    popc (fillTo 64 0) = 64 ∧ popc (fillTo 0 0) = 0 := by decide +kernel

/-- BitFieldResults, CompareResults: a bit of the fields' and fills' range; the last order at either width, and the last
condition of two numbers and of a NaN. -/
theorem witness_bit_bounds : (31 : Nat) < 32 ∧ (63 : Nat) < 64 ∧ bfx true (0x80000000 : Word) 0x011F = 0xFFFFFFFF ∧
    bfx true (0x80000000 : Word) 0x011E = 0 ∧ fillTo 3 (5 : Dword) = 7 := by decide +kernel
theorem witness_orders : WordReady (.icmp false 3 4 6 0 9) base (ctxOf base) ∧
    WordReady (.fcmp false 3 4 6 1 7) base (ctxOf base) ∧ (7 : Nat) < 8 ∧ (Num.XR.nan = .nan ∨ Num.XR.one = .nan) :=
  ⟨wordReady_of (by decide +kernel), wordReady_of (by decide +kernel), by decide, .inl rfl⟩

/-- FloatResults: its clauses about one value of each kind: numbers on both sides of zero and zero, a NaN, an infinity, and
their tangents. -/
def numFOp (n : Bool) (q : Rat) (tan : Rat) : Num.FOp := ⟨0, .fin n q, false, [.fin (decide (tan < 0)) tan]⟩
theorem witness_float_clauses : ∀ q ∈ ([-1, 0, 1, 3] : List Rat), let a := numFOp (decide (q < 0)) q (-2)
    a.snan = false ∧ a.x = .fin (decide (q < 0)) q ∧ a.t 0 = .fin true (-2) ∧ a.x ≠ .nan ∧ a.enc < 2 ^ Num.fp32.width ∧
    a.x.isZero = decide (q = 0) := by decide +kernel
theorem witness_float_ends : let a : Num.FOp := ⟨0x7FC00000, .nan, false, [.nan]⟩
    let b : Num.FOp := ⟨0x7F800000, .inf false, false, [.inf true]⟩
    a.x = .nan ∧ b.x = .inf false ∧ b.x ≠ .nan ∧ b.snan = false ∧ Num.fp32.hasInf = true ∧ 0 < Num.fp32.width ∧
    b.enc < 2 ^ Num.fp32.width ∧ Num.FFun.frac ∈ [Num.FFun.sin, .cos, .frac] := by decide +kernel

/-- ExchangeResults: a lane is active, or none is. -/
theorem witness_uniform_active : WordReady (.uadd false 5 4 6) base (ctxOf base) ∧ (ctxOf base).someActive = true :=
  ⟨wordReady_of (by decide +kernel), by decide +kernel⟩
theorem witness_uniform_guarded :
    WordReady (.uadd false 5 4 6) guarded (ctxOf guarded) ∧ (ctxOf guarded).someActive = false :=
  ⟨wordReady_of (by decide +kernel), by decide +kernel⟩

/-- ConversionResults: the ends of its three ranges of type codes. -/
theorem witness_conversions :
    ∀ i ∈ [Instr.cvt false false 16 4 3 0, .cvt false false 16 4 0 3, .cvt false false 16 4 4 0, .cvt false false 16 4 7 3,
      .cvt false false 16 4 0 4, .cvt false false 16 4 3 7], WordReady i base (ctxOf base) := all_ready (by decide +kernel)

/-- PredicateCombination. -/
theorem witness_predicate_combination : WordReady (.pand false 3 1 2) base (ctxOf base) ∧
    WordReady (.por false 3 1 2) base (ctxOf base) ∧ (ctxOf base).distinct = true :=
  ⟨wordReady_of (by decide +kernel), wordReady_of (by decide +kernel), by decide +kernel⟩

/-- PredicateMovesAndElections: the lowest active lane is lane 0, or none is active; the uniform register is zero, or not. -/
theorem witness_elect : WordReady (.elect false 3) base (ctxOf base) ∧ (0 : Nat) < 16 ∧ (ctxOf base).active 0 = true ∧
    ∀ u < 0, (ctxOf base).active u = false :=
  ⟨wordReady_of (by decide +kernel), by decide, by decide +kernel, by decide +kernel⟩
theorem witness_elect_none : WordReady (.elect false 3) guarded (ctxOf guarded) ∧
    ∀ u < 16, (ctxOf guarded).active u = false := ⟨wordReady_of (by decide +kernel), by decide +kernel⟩
theorem witness_elect_u : WordReady (.electU false 3 31) base (ctxOf base) ∧ (ctxOf base).cr.u[31]? = some 0 ∧
    (ctxOf base).active 0 = true := ⟨wordReady_of (by decide +kernel), by decide +kernel, by decide +kernel⟩
def electedState : State := stateOf id fun cr => { cr with u := cr.u.set 31 1 }
theorem witness_elect_u_taken : WordReady (.electU false 3 31) electedState (ctxOf electedState) ∧
    (ctxOf electedState).cr.u[31]? = some 1 ∧ (1 : Dword) ≠ 0 :=
  ⟨wordReady_of (by decide +kernel), by decide +kernel, by decide⟩

/-- SoftPredicates: the temperature is zero, or it is 1. -/
theorem witness_temperature_zero : WordReady (.pcmp false 3 4 6 1 7 0) base (ctxOf base) ∧
    (Num.decodeF Num.fp32 (ctxOf base).cr.tempOld.toNat).isZero = true :=
  ⟨wordReady_of (by decide +kernel), by decide +kernel⟩
def warmState : State := stateOf id fun cr => { cr with temp := 0x3F800000, tempOld := 0x3F800000 }
theorem witness_temperature_one : WordReady (.pcmp false 3 4 6 1 7 0) warmState (ctxOf warmState) ∧
    (Num.decodeF Num.fp32 (ctxOf warmState).cr.tempOld.toNat).isZero = false :=
  ⟨wordReady_of (by decide +kernel), by decide +kernel⟩

/-! ### Claims about control flow -/

/-- A thread that calls to a target in V4:V5 at a call depth. -/
def callState (lo hi : Word) (depth : Nat) : State := withLane fun l =>
  ((l.setV 4 ⟨lo, [0]⟩).setV 5 ⟨hi, [0]⟩).updThread fun th => { th with depth := depth }

/-- Transfers: the highest good target; a call at depth 15, and a return at 1 and at 16. -/
theorem witness_transfer_good : let s := callState 0xFFFFFFFC 0x00FFFFFF 15
    WordReady (.brx 4) s (ctxOf s) ∧ WordReady (.callx 4) s (ctxOf s) ∧ WordReady (.call (-1)) s (ctxOf s) ∧
    (∀ t, (ctxOf s).active t = true → goodTarget ((ctxOf s).prim t .i64 4)) ∧ (ctxOf s).stackHas (fun d => d < 16) :=
  ⟨wordReady_of (by decide +kernel), wordReady_of (by decide +kernel), wordReady_of (by decide +kernel),
    active_bound (by decide +kernel) (by unfold goodTarget; decide +kernel), stack_has (by decide +kernel) (by decide +kernel)⟩
theorem witness_return : let s := callState 0 0 1
    WordReady .ret s (ctxOf s) ∧ (ctxOf s).stackHas (fun d => 0 < d) :=
  ⟨wordReady_of (by decide +kernel), stack_has (by decide +kernel) (by decide +kernel)⟩
theorem witness_return_full : let s := callState 0 0 16
    WordReady .ret s (ctxOf s) ∧ (ctxOf s).stackHas (fun d => 0 < d) ∧ WordReady (.call 1) s (ctxOf s) ∧
    (ctxOf s).distinct = true ∧ (ctxOf s).stackHas (fun d => 16 ≤ d) :=
  ⟨wordReady_of (by decide +kernel), stack_has (by decide +kernel) (by decide +kernel), wordReady_of (by decide +kernel),
    by decide +kernel, stack_has (by decide +kernel) (by decide +kernel)⟩
theorem witness_return_empty : let s := callState 0 0 0
    WordReady .ret s (ctxOf s) ∧ (ctxOf s).distinct = true ∧ (ctxOf s).stackHas (fun d => d = 0) :=
  ⟨wordReady_of (by decide +kernel), by decide +kernel, stack_has (by decide +kernel) (by decide +kernel)⟩
theorem witness_target_misaligned : let s := callState 1 0xFFFFFFFF 0
    WordReady (.brx 4) s (ctxOf s) ∧ (ctxOf s).distinct = true ∧
    ∀ t, (ctxOf s).active t = true → bitsOf ((ctxOf s).prim t .i64 4) 1 0 ≠ 0 :=
  ⟨wordReady_of (by decide +kernel), by decide +kernel, active_bound (by decide +kernel) (by decide +kernel)⟩
theorem witness_target_beyond : let s := callState 0 0x01000000 0
    WordReady (.brx 4) s (ctxOf s) ∧ (ctxOf s).distinct = true ∧
    ∀ t, (ctxOf s).active t = true →
      bitsOf ((ctxOf s).prim t .i64 4) 1 0 = 0 ∧ bitsOf ((ctxOf s).prim t .i64 4) 63 56 ≠ 0 :=
  ⟨wordReady_of (by decide +kernel), by decide +kernel, active_bound (by decide +kernel) (by decide +kernel)⟩

/-- The thread of `base`. -/
def baseThread : Thread := (((ctxOf base).lane 0).thread?).getD ⟨0, 0, 0, 0, [], 0, .held, none, none, none, [], 0, 0, [], none⟩
theorem witness_call_stack : baseThread.stack.length = 16 ∧ baseThread.depth < 16 ∧ baseThread.depth = 0 ∧
    16 ≤ ({ baseThread with depth := 16 }).depth := by decide +kernel

/-- JoinerPoints: a batch of 255 threads has room for one more, and no batch for all. -/
def batchState : State := stateOf id fun cr => { cr with batch := some ⟨0, List.replicate 255 ⟨1, 0, 0, 0⟩⟩ }
theorem witness_joiner_points :
    (ctxOf batchState).distinct = true ∧ (ctxOf batchState).someActive = true ∧ (ctxOf batchState).allThreads = true ∧
    (((ctxOf batchState).cr.batch.map fun b => b.threads.length).getD 0) +
      ((List.range 16).filter (ctxOf batchState).active).length ≤ 256 ∧
    WordReady (.callj 14 4 6) batchState (ctxOf batchState) ∧
    (∀ t, (ctxOf batchState).active t = true → goodTarget ((ctxOf batchState).prim t .i64 4)) ∧
    (ctxOf batchState).stackHas (fun d => d < 16) ∧ WordReady (.regroup 0 6) batchState (ctxOf batchState) ∧
    bitsOf (ctxOf batchState).next 1 0 = 0 :=
  ⟨by decide +kernel, by decide +kernel, by decide +kernel, by decide +kernel, wordReady_of (by decide +kernel),
    active_bound (by decide +kernel) (by unfold goodTarget; decide +kernel), stack_has (by decide +kernel) (by decide +kernel),
    wordReady_of (by decide +kernel), by decide +kernel⟩

/-- MaskAndRegionWords. -/
theorem witness_waitm : WordReady (.waitm 11) base (ctxOf base) ∧ (ctxOf base).distinct = true ∧ (ctxOf base).allThreads = true :=
  ⟨wordReady_of (by decide +kernel), by decide +kernel, by decide +kernel⟩
theorem witness_mask_write : (11 : Nat) < 12 ∧ 11 < (ctxOf base).cr.masks.length ∧ (15 : Nat) < 16 := by decide +kernel
theorem witness_region_record : ((ctxOf base).lane 0).occ = .thread baseThread ∧
    ({ baseThread with region := some ⟨0x1000, 1, 1, 2, 3, 4⟩ }).region = some ⟨0x1000, 1, 1, 2, 3, 4⟩ := by decide +kernel
def secondWord : State := stateOf (fun g => { g with count := 1 }) id
theorem witness_region_not_first : secondWord.ctx? = some (ctxOf secondWord) ∧ (ctxOf secondWord).g.count ≠ 0 :=
  ⟨(wordReady_of (i := .nop false) (by decide +kernel)).here, by decide +kernel⟩

/-- ExitAndTrapWords. -/
theorem witness_exit : WordReady .exit base (ctxOf base) ∧ WordReady (.trap 0xFFF) base (ctxOf base) ∧
    (ctxOf base).distinct = true ∧ (ctxOf base).allThreads = true ∧
    ∀ t, (ctxOf base).active t = true → (ctxOf base).place t < (ctxOf base).cr.lanes.length :=
  ⟨wordReady_of (by decide +kernel), wordReady_of (by decide +kernel), by decide +kernel, by decide +kernel,
    active_bound (by decide +kernel) (by decide +kernel)⟩

/-- EretWord: a trap routine with an entry to pop, one with none, and no routine. -/
def routineState (depth : Nat) : State :=
  withThread fun th => { th with trap := some ⟨0xB, 0, false, false, 5⟩, depth := depth }
theorem witness_eret : ∀ s ∈ [routineState 1, routineState 16, routineState 0, base],
    WordReady .eret s (ctxOf s) ∧ (ctxOf s).distinct = true ∧ (ctxOf s).allThreads = true := by
  intro s hs
  simp only [List.mem_cons, List.not_mem_nil, or_false] at hs
  obtain rfl | rfl | rfl | rfl := hs <;> exact ⟨wordReady_of (by decide +kernel), by decide +kernel, by decide +kernel⟩

/-- SystemWords: a narrow and a wide system value; a temperature from the highest active lane. -/
theorem witness_system_values : WordReady (.gets false 16 0) base (ctxOf base) ∧ sysWide 0 = some false ∧
    WordReady (.gets false 16 0x0E) base (ctxOf base) ∧ sysWide 0x0E = some true ∧
    ((ctxOf base).lane 0).thread? = some baseThread :=
  ⟨wordReady_of (by decide +kernel), by decide +kernel, wordReady_of (by decide +kernel), by decide +kernel, by decide +kernel⟩
theorem witness_sets_temperature : WordReady (.sets false 9 4) base (ctxOf base) ∧ (ctxOf base).active 0 = true ∧
    (∀ t < 16, 0 < t → (ctxOf base).active t = false) ∧
    ∀ t, (ctxOf base).active t = true → tempBad (((ctxOf base).prim t .f32 4).truncate 32) = false :=
  ⟨wordReady_of (by decide +kernel), by decide +kernel, by decide +kernel, active_bound (by decide +kernel) (by decide +kernel)⟩

/-- HintWords: a bundle's first and second immediate, at the last place that a hint may take; and hints that break the
rules. -/
def hintState (count : Nat) (f : Bundle → Bundle) : State :=
  stateOf (fun g => { g with count := count, bundle := f g.bundle }) id
theorem witness_hints : let s := hintState 22 id
    s.ctx? = some (ctxOf s) ∧ (ctxOf s).g.count + 1 < 24 ∧ (ctxOf s).g.bundle = Bundle.empty := by decide +kernel
theorem witness_second_himm : let s := hintState 22 fun b => { b with himm := [5], himmLast := true }
    s.ctx? = some (ctxOf s) ∧ (ctxOf s).g.count + 1 < 24 ∧ (ctxOf s).g.bundle.himm.length = 1 ∧
    (ctxOf s).g.bundle.himmLast = true := by decide +kernel
theorem witness_hint_last : let s := hintState 23 id
    s.ctx? = some (ctxOf s) ∧ Instr.isHint (.himm 1) = true ∧ 24 ≤ (ctxOf s).g.count + 1 := by decide +kernel
theorem witness_hint_twice : let s := hintState 1 fun b => { b with
      rnd := some 3, sel := some (true, 1), grd := some (false, 0), scp := some 1, cch := some 1, sch := some 1 }
    let b := (ctxOf s).g.bundle
    s.ctx? = some (ctxOf s) ∧ b.rnd.isSome = true ∧ b.sel.isSome = true ∧ b.grd.isSome = true ∧ b.scp.isSome = true ∧
    b.cch.isSome = true ∧ b.sch.isSome = true := by decide +kernel
/-- A third immediate, and a second one that does not follow the first. -/
theorem witness_himm_wrong : let s := hintState 2 fun b => { b with himm := [5, 6], himmLast := true }
    let s' := hintState 2 fun b => { b with himm := [5], himmLast := false, rnd := some 3 }
    s.ctx? = some (ctxOf s) ∧ 2 ≤ (ctxOf s).g.bundle.himm.length ∧ s'.ctx? = some (ctxOf s') ∧
    (ctxOf s').g.bundle.himm ≠ [] ∧ (ctxOf s').g.bundle.himmLast = false := by decide +kernel

/-! ### Claims about memory -/

/-- Only lane 0 is in the set. -/
theorem only_lane0 {p : Nat → Bool} {P : Nat → Prop} (h : ∀ t < 16, p t = true → t = 0) (h0 : P 0) :
    ∀ t < 16, p t = true → P t := fun t ht he => (h t ht he) ▸ h0

/-- What an access that goes well gives. -/
def okOf {α : Type} : Acc α → Option α
  | .ok x => some x
  | _ => none

theorem ok_of {α : Type} {r : Acc α} {x : α} (h : okOf r = some x) : r = .ok x := by
  cases r <;> simp_all [okOf]

/-- The page that an access of partition 0 meets. -/
def pageIn (s : State) (q : Ask) (va : Nat) : Page := (okOf (s.xlat 0 va q)).getD ⟨0, false, false, none, false, false, false, false⟩

/-- `reaches` as a test. -/
def reachesB (s : State) (c : Ctx) (a size : Nat) (q : Ask) (g : Page) : Bool :=
  decide (a % size = 0 ∧ a < 2 ^ 56 ∧ isWindow a = false) && decide (okOf (s.xlat c.cr.part a q) = some g)

theorem reaches_of {s : State} {c : Ctx} {a size : Nat} {q : Ask} {g : Page} (h : reachesB s c a size q g = true) :
    reaches s c a size q g := by
  simp only [reachesB, Bool.and_eq_true, decide_eq_true_eq] at h
  exact ⟨h.1.1, h.1.2.1, h.1.2.2, ok_of h.2⟩

/-- `PlainAccess` as a test. -/
def plainB (s : State) (c : Ctx) : Bool :=
  decide (c.g.lanes.length ≤ 16) && decide (bitsOf c.cr.mode 4 3 = 0) && decide ((s.core c.cr.core).faults = []) &&
  (c.cr.lanes.all fun l => l.thread?.all fun th => decide (th.held = []))

theorem plain_of {s : State} {c : Ctx} (h : plainB s c = true) : PlainAccess s c := by
  simp only [plainB, Bool.and_eq_true, decide_eq_true_eq] at h
  refine ⟨h.1.1.2, h.1.2, fun t th hth => ?_⟩
  have h2 := h.2
  rw [List.all_eq_true] at h2
  by_cases hp : c.place t < c.cr.lanes.length
  · have h3 := h2 (c.lane t) (by
      simp only [Ctx.lane, Ctx.laneAt, List.getD_eq_getElem?_getD, List.getElem?_eq_getElem hp, Option.getD_some]
      exact List.getElem_mem hp)
    simpa [hth] using h3
  · simp [Ctx.lane, Ctx.laneAt, List.getD_eq_getElem?_getD, List.getElem?_eq_none (Nat.le_of_not_lt hp),
      Lane.thread?] at hth

/-- The entry of the page at 0 replaced, with these registers. -/
def paged (entry : Nat) (ws : List (Nat × Word)) : State :=
  let s := aloneRegs ws
  { s with mem := s.mem.write 0x40000 (leBytes 8 entry) }
def plainEntry : Nat := 0x20001B
def typedEntry : Nat := 0x20001B + 2 ^ 62
def dualEntry : Nat := 0x20001B + 2 ^ 61 + 7 * 2 ^ 8
def sharedEntry : Nat := 0x20001B + 2 ^ 63

/-- Loads: the last doubleword of the mapped 2 MiB; the last bytes of the scratchpad. -/
theorem witness_load : let s := aloneRegs [(4, 0x1FFFF8)]
    let c := ctxOf s
    let g : Nat → Page := fun t => pageIn s {} (c.ea t 4 60)
    WordReady (.ld false 16 4 60 5) s c ∧ PlainAccess s c ∧ poolShort s c (fun t => oneBlock (c.ea t 4 60)) = false ∧
    ∀ put, ∀ t < 16, c.exec t = true → reaches (metBy c false c.exec put s t) c (c.ea t 4 60) 8 {} (g t) ∧
      s.poisonedOn (dieOf c.core) (g t) 8 = false := by
  intro s c g
  refine ⟨wordReady_of (by decide +kernel), plain_of (by decide +kernel), by decide +kernel,
    fun put => only_lane0 (by decide +kernel) ⟨reaches_of (s := s) (by decide +kernel), by decide +kernel⟩⟩

theorem witness_scratch_load : let s := aloneRegs [(4, 0x11000 - 16)]
    let c := ctxOf s
    WordReady (.lds false 16 4 60 6) s c ∧
    ∀ t < 16, c.exec t = true → c.soff t 4 60 % 16 = 0 ∧ c.soff t 4 60 + 16 ≤ c.cr.alloc :=
  ⟨wordReady_of (by decide +kernel), by decide +kernel⟩

theorem witness_store : let s := aloneRegs [(4, 0x1FFFF8)]
    let c := ctxOf s
    let g : Nat → Page := fun t => pageIn s { write := true } (c.ea t 4 60)
    WordReady (.st false 16 4 60 5) s c ∧ PlainAccess s c ∧ poolShort s c (fun t => oneBlock (c.ea t 4 60)) = false ∧
    s.formed ∧ ∀ put, ∀ t < 16, c.stores t = true →
      reaches (metBy c false c.stores put s t) c (c.ea t 4 60) 8 { write := true } (g t) := by
  intro s c g
  refine ⟨wordReady_of (by decide +kernel), plain_of (by decide +kernel), by decide +kernel,
    ⟨by decide +kernel, by decide +kernel⟩,
    fun put => only_lane0 (by decide +kernel) (reaches_of (s := s) (by decide +kernel))⟩

/-- The last byte below the copy queue's area. -/
theorem witness_scratch_store : let s := aloneRegs [(4, 65535)]
    let c := ctxOf s
    WordReady (.sts false 16 4 60 0) s c ∧
    ∀ t < 16, c.stores t = true → c.soff t 4 60 % 1 = 0 ∧ c.soff t 4 60 + 1 ≤ c.cr.alloc ∧
      c.cr.meetsQueue (c.soff t 4 60) 1 = false :=
  ⟨wordReady_of (by decide +kernel), by decide +kernel⟩

/-- DualAndTypedLoads: LDD of a dual page and of a plain one. -/
theorem witness_dual_load : let s := paged dualEntry []
    let c := ctxOf s
    let xs : Nat → List Nat := fun t => (okOf (lddRead s c (c.place t) (c.ea t 4 60) 4)).getD []
    WordReady (.ldd false 16 4 60 0) s c ∧ PlainAccess s c ∧
    poolShort s c (fun t => (lddParts s c (c.place t) (c.ea t 4 60) c.t).map fun y => y / 64) = false ∧
    ∀ t < 16, c.exec t = true → c.ea t 4 60 % 4 = 0 ∧ isWindow (c.ea t 4 60) = false ∧
      lddRead s c (c.place t) (c.ea t 4 60) 4 = .ok (xs t) := by
  intro s c xs
  exact ⟨wordReady_of (by decide +kernel), plain_of (by decide +kernel), by decide +kernel,
    only_lane0 (by decide +kernel) ⟨by decide +kernel, by decide +kernel, ok_of (r := lddRead s c _ _ _) (by decide +kernel)⟩⟩

theorem witness_plain_part : let s := aloneRegs []
    let c := ctxOf s
    s.crews[c.ci]? = some c.cr ∧ (s.core c.cr.core).faults = [] ∧ reaches s c 8 8 {} (pageIn s {} 8) ∧
    (pageIn s {} 8).dual = none ∧ (pageIn s {} 8).typed = false ∧ s.poisonedOn (dieOf c.core) (pageIn s {} 8) 8 = false :=
  ⟨by decide +kernel, by decide +kernel, reaches_of (by decide +kernel), by decide +kernel, by decide +kernel, by decide +kernel⟩

theorem witness_plain_dual_word : let s := aloneRegs []
    let c := ctxOf s
    let g : Nat → Page := fun t => pageIn s {} (c.ea t 4 60)
    WordReady (.ldd false 16 4 60 1) s c ∧ PlainAccess s c ∧
    poolShort s c (fun t => (lddParts s c (c.place t) (c.ea t 4 60) c.t).map fun y => y / 64) = false ∧
    ∀ t < 16, c.exec t = true → reaches s c (c.ea t 4 60) 8 {} (g t) ∧ (g t).dual = none ∧ (g t).typed = false ∧
      s.poisonedOn (dieOf c.core) (g t) 8 = false := by
  intro s c g
  exact ⟨wordReady_of (by decide +kernel), plain_of (by decide +kernel), by decide +kernel,
    only_lane0 (by decide +kernel) ⟨reaches_of (s := s) (by decide +kernel), by decide +kernel, by decide +kernel,
      by decide +kernel⟩⟩

theorem witness_dual_part : ∀ q ∈ [false, true], let s := paged dualEntry []
    let c := ctxOf s
    let ask : Ask := { write := q }
    let g := pageIn s ask 0x1000
    let gs : Nat → Page := fun k => pageIn s ask (0x1000 + (k + 1) * 2 ^ 16)
    s.crews[c.ci]? = some c.cr ∧ (s.core c.cr.core).faults = [] ∧ reaches s c 0x1000 8 ask g ∧ g.dual = some (16, 8) ∧
    g.typed = false ∧ s.poisonedOn (dieOf c.core) g 8 = false ∧
    ∀ k < 8, reaches s c (0x1000 + (k + 1) * 2 ^ 16) 8 ask (gs k) ∧ (gs k).typed = false ∧ s.poisonedOn (dieOf c.core) (gs k) 8 = false := by
  intro q hq s c ask g gs
  simp only [List.mem_cons, List.not_mem_nil, or_false] at hq
  obtain rfl | rfl := hq
  all_goals
    refine ⟨by decide +kernel, by decide +kernel, reaches_of (by decide +kernel), by decide +kernel, by decide +kernel,
      by decide +kernel, fun k hk => ?_⟩
    have h : ∀ k < 8, reachesB s c (0x1000 + (k + 1) * 2 ^ 16) 8 ask (gs k) = true ∧ (gs k).typed = false ∧
      s.poisonedOn (dieOf c.core) (gs k) 8 = false := by decide +kernel
    exact ⟨reaches_of (h k hk).1, (h k hk).2⟩

theorem witness_descriptor_load : ∀ e ∈ [plainEntry, typedEntry], let s := paged e []
    let c := ctxOf s
    let g : Nat → Page := fun t => pageIn s {} (c.prim t .i64 4).toNat
    WordReady (.bhdrRd false 16 4) s c ∧ PlainAccess s c ∧
    poolShort s c (fun t => oneBlock (c.prim t .i64 4).toNat) = false ∧
    ∀ t < 16, c.exec t = true → reaches s c (c.prim t .i64 4).toNat 64 {} (g t) := by
  intro e he
  simp only [List.mem_cons, List.not_mem_nil, or_false] at he
  obtain rfl | rfl := he <;>
    exact ⟨wordReady_of (by decide +kernel), plain_of (by decide +kernel), by decide +kernel,
      only_lane0 (by decide +kernel) (reaches_of (s := paged _ []) (by decide +kernel))⟩

theorem witness_typed_load : ∀ e ∈ [plainEntry, typedEntry], let s := paged e []
    let c := ctxOf s
    let y : Nat → Nat × Num.Flags × List Nat := fun t =>
      (okOf (ldtRead s c (c.place t) (c.prim t .i64 4).toNat (c.r32 t 6).toNat false 0)).getD (1, {}, [])
    WordReady (.ldt false 16 4 6 0 0) s c ∧ PlainAccess s c ∧
    poolShort s c (fun t => (typedParts s c (c.place t) (c.prim t .i64 4).toNat c.t false).map fun z => z / 64) = false ∧
    ∀ t < 16, c.exec t = true → (c.prim t .i64 4).toNat % 64 = 0 ∧ isWindow (c.prim t .i64 4).toNat = false ∧
      ldtRead s c (c.place t) (c.prim t .i64 4).toNat (c.r32 t 6).toNat false 0 = .ok (y t) := by
  intro e he
  simp only [List.mem_cons, List.not_mem_nil, or_false] at he
  obtain rfl | rfl := he <;>
    exact ⟨wordReady_of (by decide +kernel), plain_of (by decide +kernel), by decide +kernel,
      only_lane0 (by decide +kernel) ⟨by decide +kernel, by decide +kernel,
        ok_of (r := ldtRead (paged _ []) _ _ _ _ _ _) (by decide +kernel)⟩⟩

/-- Element 15 of a raw block and of a typed one; 15 is the last FP32 element of a raw block. -/
def elementOf (g : Page) (s : State) (c : Ctx) (i : Nat) : Except Nat (Nat × Num.Flags) :=
  eltRead (if g.typed then (Sparse.get s.desc (g.pa / 64)).toNat else 0) (s.physRead (dieOf c.cr.core) g 64) i 0
    (if (0 : BitVec 2) == 1#2 then Num.fp64 else Num.fp32) c.mode
theorem witness_element : let s := paged typedEntry []
    let c := ctxOf s
    let g := pageIn s {} 0
    s.crews[c.ci]? = some c.cr ∧ (s.core c.cr.core).faults = [] ∧ reaches s c 0 64 {} g ∧ s.poisonedOn (dieOf c.core) g 64 = false ∧
    elementOf g s c 15 = .ok (0, {}) ∧ (match elementOf g s c 16 with
      | .error k => k == 7
      | _ => false) = true := by
  intro s c g
  refine ⟨by decide +kernel, by decide +kernel, reaches_of (by decide +kernel), by decide +kernel, by decide +kernel,
    by decide +kernel⟩
/-- A dual page of blocks: the primal's and the tangent's element. -/
theorem witness_dual_element : let s := paged (dualEntry + 2 ^ 62) []
    let c := ctxOf s
    let g := pageIn s {} 0x1000
    let g1 := pageIn s {} (0x1000 + 2 ^ 16)
    reaches s c 0x1000 64 {} g ∧ g.dual = some (16, 8) ∧ min c.t 8 = 1 ∧ reaches s c (0x1000 + 2 ^ 16) 64 {} g1 ∧
    elementOf g s c 0 = .ok (0, {}) ∧ elementOf g1 s c 0 = .ok (0, {}) := by
  intro s c g g1
  exact ⟨reaches_of (by decide +kernel), by decide +kernel, by decide +kernel, reaches_of (by decide +kernel),
    by decide +kernel, by decide +kernel⟩
theorem witness_block_formats : (0x0A02 % 256 : Nat) = 0x02 ∧ 0x0A < 0x0B % 256 ∧ (63 : Nat) < 512 / 8 ∧ (64 : Nat) = 512 / 8 := by
  decide

/-- DualStores. -/
theorem witness_dual_store : let s := paged dualEntry []
    let c := ctxOf s
    let ps : Nat → List (Nat × Page) := fun t => (okOf (stdPages s c (c.place t) (c.ea t 4 60))).getD []
    WordReady (.std false 16 4 60 0) s c ∧ PlainAccess s c ∧ (∀ u < 16, c.stores u = decide (u = 0)) ∧
    poolShort s c (fun t => (lddParts s c (c.place t) (c.ea t 4 60) 8).map fun y => y / 64) = false ∧ s.formed ∧
    ∀ put, ∀ t < 16, c.stores t = true → c.ea t 4 60 % 4 = 0 ∧
      stdPages (metBy c false c.stores put s t) c (c.place t) (c.ea t 4 60) = .ok (ps t) := by
  intro s c ps
  exact ⟨wordReady_of (by decide +kernel), plain_of (by decide +kernel), by decide +kernel, by decide +kernel,
    ⟨by decide +kernel, by decide +kernel⟩, fun put =>
      only_lane0 (by decide +kernel) ⟨by decide +kernel, ok_of (r := stdPages s c _ _) (by decide +kernel)⟩⟩

theorem witness_descriptor_store : let s := paged typedEntry [(16, 0xFF0A)]
    let c := ctxOf s
    let g : Nat → Page := fun t => pageIn s { write := true } (c.prim t .i64 4).toNat
    let v : Nat → Nat := fun t => (c.r32 t 16).toNat % 2 ^ 16
    WordReady (.bhdrWr false 16 4) s c ∧ PlainAccess s c ∧
    poolShort s c (fun t => oneBlock (c.prim t .i64 4).toNat) = false ∧
    ∀ t < 16, c.stores t = true → v t % 256 ≤ 0x0A ∧
      reaches s c (c.prim t .i64 4).toNat 64 { write := true } (g t) ∧ (g t).typed = true :=
  ⟨wordReady_of (by decide +kernel), plain_of (by decide +kernel), by decide +kernel,
    only_lane0 (by decide +kernel) ⟨by decide +kernel, reaches_of (s := paged typedEntry [(16, 0xFF0A)]) (by decide +kernel),
      by decide +kernel⟩⟩

theorem witness_typed_store : let s := paged typedEntry [(6, 0x0A)]
    let c := ctxOf s
    let ps : Nat → List (Nat × Page) := fun t => (okOf (sttPages s c (c.place t) (c.prim t .i64 4).toNat false)).getD []
    WordReady (.stt false 16 4 6 0 1) s c ∧ PlainAccess s c ∧ (∀ u < 16, c.stores u = decide (u = 0)) ∧
    poolShort s c (fun t => (typedParts s c (c.place t) (c.prim t .i64 4).toNat 8 false).map fun z => z / 64) = false ∧ s.formed ∧
    reaches s c (c.prim 0 .i64 4).toNat 64 { write := true } (pageIn s { write := true } 0) ∧
    (pageIn s { write := true } 0).typed = true ∧
    ∀ put, ∀ t < 16, c.stores t = true → (c.prim t .i64 4).toNat % 64 = 0 ∧ (c.r32 t 16).toNat % 8 = 0 ∧
      0 < (c.r32 t 6).toNat % 256 ∧ (c.r32 t 6).toNat % 256 ≤ 0x0A ∧
      (c.r32 t 16).toNat + 1 * ((Num.eltOf ((c.r32 t 6).toNat % 256)).map Num.Elt.perBlock).getD 0 * 8 ≤ c.cr.alloc ∧
      sttPages (metBy c false c.stores put s t) c (c.place t) (c.prim t .i64 4).toNat false = .ok (ps t) := by
  intro s c ps
  exact ⟨wordReady_of (by decide +kernel), plain_of (by decide +kernel), by decide +kernel, by decide +kernel,
    ⟨by decide +kernel, by decide +kernel⟩, reaches_of (by decide +kernel), by decide +kernel,
    fun put => only_lane0 (by decide +kernel)
      ⟨by decide +kernel, by decide +kernel, by decide +kernel, by decide +kernel, by decide +kernel,
        ok_of (r := sttPages s c _ _ _) (by decide +kernel)⟩⟩
theorem witness_block_refused : (pageIn (paged plainEntry []) { write := true } 0).typed = false ∧
    (pageIn (paged typedEntry []) { write := true } 0).dual = none ∧
    (pageIn (paged (dualEntry + 2 ^ 62) []) { write := true } 0).dual = some (16, 8) ∧
    (pageIn (paged (dualEntry + 2 ^ 62) []) { write := true } 0).typed = true := by decide +kernel
/-- A block of 64 FP8 values of 1, and one of zeros. -/
theorem witness_pack : Num.eltOf 0x01 = some (.flt Num.e4m3) ∧ (Num.Elt.flt Num.e4m3) ≠ .raw ∧
    (List.replicate 64 (Num.XR.fin false 1)).length = (Num.Elt.flt Num.e4m3).perBlock ∧
    (List.replicate 64 (Num.XR.fin false 0)).all (fun x => !x.isFin || x.isZero) = true ∧
    (List.replicate 64 (Num.XR.fin false 1)).any (fun x => x.isFin && !x.isZero) = true := by decide +kernel

/-- AccessTraps. -/
theorem witness_misaligned : let s := aloneRegs [(4, 7)]
    let c := ctxOf s
    WordReady (.ld false 16 4 60 5) s c ∧ WordReady (.st false 16 4 60 5) s c ∧
    poolShort s c (fun t => oneBlock (c.ea t 4 60)) = false ∧
    (∀ t < 16, c.exec t = true → (c.lane t).thread?.isSome = true ∧ c.ea t 4 60 % widthBytes 5 ≠ 0) :=
  ⟨wordReady_of (by decide +kernel), wordReady_of (by decide +kernel), by decide +kernel, by decide +kernel⟩

/-- How an access fares: the cause and the address of a trap, or the address and the kind of a fault. -/
def refusal : Acc Page → Option (Nat × Nat)
  | .trap (.fault n) a => some (n, a)
  | _ => none
def miss : Acc Page → Option (Nat × Bool)
  | .fault a w => some (a, w)
  | _ => none
/-- A privileged page, and an address beyond 2^56; an address that no entry maps, and a page that admits no write. -/
theorem witness_refused : let s := paged 0x20003B [(4, 8)]
    let far := aloneRegs [(5, 0x1000000)]
    let c := ctxOf s
    (WordReady (.ld false 16 4 60 5) s c ∧ WordReady (.st false 16 4 60 5) s c ∧ PlainAccess s c ∧
      poolShort s c (fun t => oneBlock (c.ea t 4 60)) = false) ∧
    (WordReady (.ld false 16 4 60 5) far (ctxOf far) ∧ WordReady (.st false 16 4 60 5) far (ctxOf far) ∧ PlainAccess far (ctxOf far) ∧
      poolShort far (ctxOf far) (fun t => oneBlock ((ctxOf far).ea t 4 60)) = false) ∧
    (∀ t < 16, c.exec t = true → (c.lane t).thread?.isSome = true ∧ c.ea t 4 60 % widthBytes 5 = 0 ∧ c.ea t 4 60 < 2 ^ 56 ∧
      isWindow (c.ea t 4 60) = false ∧ refusal (s.xlat c.cr.part (c.ea t 4 60) {}) = some (1, 8) ∧
      refusal (s.xlat c.cr.part (c.ea t 4 60) { write := true }) = some (1, 8)) ∧
    (∀ t < 16, (ctxOf far).exec t = true → ((ctxOf far).lane t).thread?.isSome = true ∧
      (ctxOf far).ea t 4 60 % widthBytes 5 = 0 ∧ 2 ^ 56 ≤ (ctxOf far).ea t 4 60) :=
  ⟨⟨wordReady_of (by decide +kernel), wordReady_of (by decide +kernel), plain_of (by decide +kernel), by decide +kernel⟩,
    ⟨wordReady_of (by decide +kernel), wordReady_of (by decide +kernel), plain_of (by decide +kernel), by decide +kernel⟩,
    by decide +kernel, by decide +kernel⟩
theorem witness_missing : let s := aloneRegs [(4, 0x200000)]
    let ro := paged 0x200003 [(4, 8)]
    let c := ctxOf s
    let c' := ctxOf ro
    (WordReady (.ld false 16 4 60 5) s c ∧ WordReady (.st false 16 4 60 5) s c ∧ PlainAccess s c ∧
      poolShort s c (fun t => oneBlock (c.ea t 4 60)) = false) ∧
    (WordReady (.st false 16 4 60 5) ro c' ∧ PlainAccess ro c' ∧ poolShort ro c' (fun t => oneBlock (c'.ea t 4 60)) = false) ∧
    (∀ t < 16, c.exec t = true → (c.lane t).thread?.isSome = true ∧ c.ea t 4 60 % widthBytes 5 = 0 ∧ c.ea t 4 60 < 2 ^ 56 ∧
      isWindow (c.ea t 4 60) = false ∧ miss (s.xlat c.cr.part (c.ea t 4 60) {}) = some (0x200000, false) ∧
      miss (s.xlat c.cr.part (c.ea t 4 60) { write := true }) = some (0x200000, true)) ∧
    (∀ t < 16, c'.exec t = true → (c'.lane t).thread?.isSome = true ∧ c'.ea t 4 60 = 8 ∧
      miss (ro.xlat c'.cr.part 8 { write := true }) = some (8, true)) :=
  ⟨⟨wordReady_of (by decide +kernel), wordReady_of (by decide +kernel), plain_of (by decide +kernel), by decide +kernel⟩,
    ⟨wordReady_of (by decide +kernel), plain_of (by decide +kernel), by decide +kernel⟩, by decide +kernel, by decide +kernel⟩

theorem witness_walks :
    walk base.mem 0x200000 levels (base.part 0).root = .miss ∧
    walk (paged (2 ^ 62 + 2 ^ 63 + 3) []).mem 0 levels ((paged (2 ^ 62 + 2 ^ 63 + 3) []).part 0).root = .bad ∧
    (∃ g, walk (paged 0x200023 []).mem 0 levels ((paged 0x200023 []).part 0).root = .page g ∧ g.priv = true) ∧
    (∃ g, walk (paged 0x200003 []).mem 0 levels ((paged 0x200003 []).part 0).root = .page g ∧ g.priv = false ∧ g.w = false) :=
  ⟨by decide +kernel, by decide +kernel, ⟨⟨0x200000, false, false, none, false, false, true, true⟩, by decide +kernel⟩,
    ⟨⟨0x200000, false, false, none, false, false, false, true⟩, by decide +kernel⟩⟩

theorem witness_fails_or_parks : let s := aloneRegs []
    let c := ctxOf s
    s.ctx? = some c ∧ 0 < c.g.lanes.length ∧ c.place 0 < c.cr.lanes.length ∧ (c.lane 0).thread?.isSome = true ∧
    ((c.lane 0).thread?.all fun th => decide (th.region = none)) = true ∧
    (s.core c.cr.core).faults.length < Config.faultEntries ∧ c.cr.core < s.cores.length := by decide +kernel

/-! ### Claims about tiles, atomics, waits and engines -/

theorem getD_of {α : Type} {o : Option α} (d : α) (h : o.isSome = true) : o = some (o.getD d) := by
  cases o <;> simp_all

theorem okOf_getD {α : Type} {r : Acc α} (d : α) (h : (okOf r).isSome = true) : r = .ok ((okOf r).getD d) :=
  ok_of (getD_of d h)

theorem all_of {α : Type} {o : Option α} {p : α → Prop} [DecidablePred p] (h : (o.all fun x => decide (p x)) = true) :
    ∀ x, o = some x → p x := by
  intro x hx
  simpa [hx] using h

/-- One active lane with these registers, and bytes in its crew's scratchpad. -/
def padded (pad : List (Nat × List Byte)) (ws : List (Nat × Word)) : State :=
  alone fun cr => { cr with
    scratch := pad.foldl (fun m x => m.write x.1 x.2) cr.scratch
    lanes := cr.lanes.modify 0 fun l => ws.foldl (fun l w => l.setV w.1 ⟨w.2, [0]⟩) l }

/-- TileWords: the last tile, one block that ends with the allocation; and the tile that is written. -/
def tileEntry (base nblk fmt : Nat) : Nat := 2 * 2 ^ 62 + fmt * 2 ^ 52 + nblk * 2 ^ 39 + base * 2 ^ 16
theorem witness_tile_set : let s := padded [] [(4, 7), (6, BitVec.ofNat 32 (tileEntry 0x10FC0 1 0)),
      (7, BitVec.ofNat 32 (tileEntry 0x10FC0 1 0 / 2 ^ 32))]
    let c := ctxOf s
    let idx : Nat → Nat := fun t => (c.r32 t 4).toNat
    let e : Nat → Nat := fun t => (c.prim t .i64 6).toNat
    WordReady (.tset false 4 6) s c ∧ WordReady (.tsetClr false 4) s c ∧
    ∀ t < 16, c.stores t = true → idx t < pktTiles c.cr.packet ∧ fld (e t) 63 62 = 2 ∧ fld (e t) 61 60 = 0 ∧
      fld (e t) 59 52 ≤ 0x0A ∧ fld (e t) 51 39 ≠ 0 ∧ fld (e t) 38 35 = 0 ∧ fld (e t) 34 16 % 64 = 0 ∧
      fld (e t) 34 16 + 64 * fld (e t) 51 39 + (if fld (e t) 59 52 = 0 then 0 else roundUp (2 * fld (e t) 51 39) 64) ≤ c.cr.alloc ∧
      (bitsOf (c.cr.tiles.getD (idx t) 0) 63 62 = 0 ∨ bitsOf (c.cr.tiles.getD (idx t) 0) 63 62 = 2) :=
  ⟨wordReady_of (by decide +kernel), wordReady_of (by decide +kernel), by decide +kernel⟩

theorem witness_tile_status : let s := padded [] [(4, 7)]
    let c := ctxOf s
    WordReady (.tstat false false 16 4) s c ∧ ∀ t < 16, c.exec t = true → (c.r32 t 4).toNat < pktTiles c.cr.packet :=
  ⟨wordReady_of (by decide +kernel), by decide +kernel⟩

/-- AtomicWords: .acq, .rel and relaxed forms of a doubleword at the end of the mapped 2 MiB. -/
theorem witness_atomics : let s := aloneRegs [(4, 0x1FFFF8)]
    let c := ctxOf s
    let g : Nat → Page := fun t => pageIn s { write := true } (c.adr 4 t)
    (∀ i ∈ [Instr.atom false 16 4 6 0 0 1, .atom false 16 4 6 1 7 1, .atom false 16 4 6 2 3 1, .atomFadd false 16 4 6 0 1,
      .atomFadd false 16 4 6 2 1], WordReady i s c) ∧ PlainAccess s c ∧ s.formed ∧
    ∀ put, ∀ t < 16, c.active t = true → reaches (metBy c false c.active put s t) c (c.adr 4 t) 8 { write := true } (g t) ∧
      s.poisonedOn (dieOf c.core) (g t) 8 = false := by
  intro s c g
  exact ⟨all_ready (by decide +kernel), plain_of (by decide +kernel), ⟨by decide +kernel, by decide +kernel⟩, fun put =>
    only_lane0 (by decide +kernel) ⟨reaches_of (s := s) (by decide +kernel), by decide +kernel⟩⟩

theorem witness_scratch_atomics : let s := aloneRegs [(4, 65528)]
    let c := ctxOf s
    (∀ i ∈ [Instr.atoms false 16 4 6 0 0 1, .atoms false 16 4 6 2 7 1, .atomsFadd false 16 4 6 1 1], WordReady i s c) ∧
    ∀ t < 16, c.active t = true → (c.prim t .i32 4).toNat % 8 = 0 ∧ (c.prim t .i32 4).toNat + 8 ≤ c.cr.alloc ∧
      c.cr.meetsQueue (c.prim t .i32 4).toNat 8 = false :=
  ⟨all_ready (by decide +kernel), by decide +kernel⟩

theorem witness_atomic_operands : ((4 : Nat) = 4 ∨ (4 : Nat) = 8) ∧ 2 ^ 32 - 1 < 2 ^ (8 * 4) ∧ 2 ^ 64 - 1 < 2 ^ (8 * 8) := by
  decide

/-- OrderAndBindWords. -/
theorem witness_acquire_release : let s := aloneRegs [(4, 0x1FFFF8)]
    let c := ctxOf s
    let g : Nat → Page := fun t => pageIn s {} (c.adr 4 t)
    let h : Nat → Page := fun t => pageIn s { write := true } (c.adr 4 t)
    WordReady (.acq false 16 4) s c ∧ WordReady (.rel false 4 6) s c ∧ PlainAccess s c ∧ s.formed ∧
    ∀ put, ∀ t < 16, c.active t = true → reaches (metBy c false c.active put s t) c (c.adr 4 t) 8 {} (g t) ∧
      s.poisonedOn (dieOf c.core) (g t) 8 = false ∧ reaches (metBy c false c.active put s t) c (c.adr 4 t) 8 { write := true } (h t) := by
  intro s c g h
  exact ⟨wordReady_of (by decide +kernel), wordReady_of (by decide +kernel), plain_of (by decide +kernel),
    ⟨by decide +kernel, by decide +kernel⟩, fun put => only_lane0 (by decide +kernel)
      ⟨reaches_of (s := s) (by decide +kernel), by decide +kernel, reaches_of (s := s) (by decide +kernel)⟩⟩

/-- A partition's table with these bindings, and a thread that binds 64 bytes of object 0 at 0x1000. -/
def boundState (bs : List Binding) : State := (aloneRegs [(4, 0x1000), (6, 64)]).setBindings 0 bs

theorem witness_bind : ∀ bs ∈ [[], [⟨64, 0x1040, 64, 0⟩, ⟨64, 0xFC0, 64, 0⟩]], let s := boundState bs
    let c := ctxOf s
    WordReady (.bind false 16 4 6) s c ∧
    ∀ put, ∀ t < 16, c.active t = true → c.adr 16 t % 64 = 0 ∧ c.adr 4 t % 64 = 0 ∧ (c.prim t .i32 6).toNat % 64 = 0 ∧
      (c.prim t .i32 6).toNat ≠ 0 ∧
      (∀ e ∈ ((metBy c false c.active put s t).part c.cr.part).bindings,
        c.adr 4 t + (c.prim t .i32 6).toNat ≤ e.base ∨ e.base + e.len ≤ c.adr 4 t) ∧
      ((metBy c false c.active put s t).part c.cr.part).bindings.length < Config.bindings := by
  intro bs hb
  simp only [List.mem_cons, List.not_mem_nil, or_false] at hb
  obtain rfl | rfl := hb <;>
    exact ⟨wordReady_of (by decide +kernel), fun put => only_lane0 (by decide +kernel)
      (show _ ∧ _ ∧ _ ∧ _ ∧ (∀ e ∈ ((boundState _).part _).bindings, _) ∧ ((boundState _).part _).bindings.length < _ by
        decide +kernel)⟩

theorem witness_bind_again : let s := boundState [⟨0, 0x1000, 64, 0⟩]
    let c := ctxOf s
    WordReady (.bind false 16 4 6) s c ∧
    ∀ t < 16, c.active t = true → c.adr 16 t % 64 = 0 ∧ c.adr 4 t % 64 = 0 ∧ (c.prim t .i32 6).toNat % 64 = 0 ∧
      (c.prim t .i32 6).toNat ≠ 0 ∧ ∃ e ∈ (s.part c.cr.part).bindings, e.object = c.adr 16 t ∧ e.base = c.adr 4 t ∧
        e.len = (c.prim t .i32 6).toNat :=
  ⟨wordReady_of (by decide +kernel), by decide +kernel⟩

/-- It overlaps the last byte before 0x1040. -/
theorem witness_bind_overlap : let s := boundState [⟨64, 0x103F, 64, 0⟩]
    let c := ctxOf s
    WordReady (.bind false 16 4 6) s c ∧
    ∀ t < 16, c.active t = true → c.adr 16 t % 64 = 0 ∧ c.adr 4 t % 64 = 0 ∧ (c.prim t .i32 6).toNat % 64 = 0 ∧
      (c.prim t .i32 6).toNat ≠ 0 ∧
      (∀ e ∈ (s.part c.cr.part).bindings, ¬ (e.object = c.adr 16 t ∧ e.base = c.adr 4 t ∧ e.len = (c.prim t .i32 6).toNat)) ∧
      ∃ e ∈ (s.part c.cr.part).bindings, c.adr 4 t < e.base + e.len ∧ e.base < c.adr 4 t + (c.prim t .i32 6).toNat :=
  ⟨wordReady_of (by decide +kernel), by decide +kernel⟩

/-- MonitorWaits: a word that differs from the expected value; one that equals it; one whose any change is awaited. -/
theorem witness_monitor_differs : let s := aloneRegs [(4, 0x1FFFF8), (6, 1)]
    let c := ctxOf s
    let g : Nat → Page := fun t => pageIn s {} (c.adr 4 t)
    WordReady (.mwait 16 4 6 0 0 1) s c ∧ PlainAccess s c ∧
    ∀ put, ∀ t < 16, c.active t = true → reaches (metBy c true c.active put s t) c (c.adr 4 t) 8 {} (g t) ∧
      s.poisonedOn (dieOf c.core) (g t) 8 = false ∧ (s.watched c.ci).length < pktMon c.cr.packet ∧
      BitVec.ofNat 64 (leNat (s.physRead (dieOf c.core) (g t) 8)) ≠ c.prim t .i64 6 := by
  intro s c g
  exact ⟨wordReady_of (by decide +kernel), plain_of (by decide +kernel), fun put => only_lane0 (by decide +kernel)
    ⟨reaches_of (s := setPcs c s) (by decide +kernel), by decide +kernel, by decide +kernel, by decide +kernel⟩⟩

theorem witness_monitor_parks : ∀ x ∈ [((0 : BitVec 1), (0 : Word)), (1, 1)], let s := aloneRegs [(4, 0x1FFFF8), (6, x.2)]
    let c := ctxOf s
    let g : Nat → Page := fun t => pageIn s {} (c.adr 4 t)
    WordReady (.mwait 16 4 6 0 x.1 1) s c ∧ PlainAccess s c ∧
    ∀ put, ∀ t < 16, c.active t = true → reaches (metBy c true c.active put s t) c (c.adr 4 t) 8 {} (g t) ∧
      s.poisonedOn (dieOf c.core) (g t) 8 = false ∧
      (x.1 == 1#1 || BitVec.ofNat 64 (leNat (s.physRead (dieOf c.core) (g t) 8)) == c.prim t .i64 6) = true ∧
      ((metBy c true c.active put s t).watched c.ci).length < pktMon c.cr.packet := by
  intro x hx
  simp only [List.mem_cons, List.not_mem_nil, or_false] at hx
  obtain rfl | rfl := hx
  · let s := aloneRegs [(4, 0x1FFFF8), (6, 0)]
    exact ⟨wordReady_of (by decide +kernel), plain_of (by decide +kernel), fun put => only_lane0 (by decide +kernel)
      ⟨reaches_of (s := setPcs (ctxOf s) s) (by decide +kernel), by decide +kernel, by decide +kernel,
        (by decide +kernel : ((setPcs (ctxOf s) s).watched (ctxOf s).ci).length < pktMon (ctxOf s).cr.packet)⟩⟩
  · let s := aloneRegs [(4, 0x1FFFF8), (6, 1)]
    exact ⟨wordReady_of (by decide +kernel), plain_of (by decide +kernel), fun put => only_lane0 (by decide +kernel)
      ⟨reaches_of (s := setPcs (ctxOf s) s) (by decide +kernel), by decide +kernel, by decide +kernel,
        (by decide +kernel : ((setPcs (ctxOf s) s).watched (ctxOf s).ci).length < pktMon (ctxOf s).cr.packet)⟩⟩

/-- A monitor that a write of its block's last byte wakes, one that a write of the next block does not reach, and one whose
word is unchanged. -/
theorem witness_monitor_notice : let w : Monitor := ⟨0, 0, none, 0x1000, true, false, false, 0, 16, 0x1000, 0, none⟩
    w.pad = none ∧ w.got = none ∧ (0x103F / 64 ≤ w.place / 64 ∧ w.place / 64 ≤ (0x103F + 1 - 1) / 64) ∧
    (({ w with any := true }).any = true) ∧ w.place / 64 < 0x1040 / 64 ∧ w.any = false ∧
    BitVec.ofNat 64 (Memory.nat [] w.place 8) = w.expect := by decide +kernel

/-- BarrierWords: the first arrival of a phase with the largest count, and a later one with the same. -/
def barState (b : Option Barrier) (k : Nat) (ws : List (Nat × Word)) : State :=
  alone fun cr => { cr with
    bars := (b.map fun x => cr.bars.set k x).getD cr.bars
    lanes := cr.lanes.modify 0 fun l => ws.foldl (fun l w => l.setV w.1 ⟨w.2, [0]⟩) l }

theorem witness_barrier_arrivals :
    ∀ b ∈ [none, some (⟨0, 5, some 1024, false⟩ : Barrier)], let s := barState b 63 [(4, 1024)]
    let c := ctxOf s
    let bar : State → Barrier := fun s' => ((s'.crews[c.ci]?).map fun cr => cr.bar 63).getD ⟨0, 0, none, false⟩
    WordReady (.barArv true false 16 4 63) s c ∧ WordReady (.barSyn 4 63) s c ∧ c.distinct = true ∧
    (∀ t th, c.active t = true → (c.lane t).thread? = some th → th.pendWait = none) ∧
    ∀ put, ∀ t < 16, c.active t = true → (c.prim t .i32 4).toNat ≤ 1024 ∧ ((bar (metBy c true c.active put s t)).cnt = none ∨
      (bar (metBy c true c.active put s t)).cnt = some (c.prim t .i32 4).toNat ∧
        (bar (metBy c true c.active put s t)).gang = false) := by
  intro b hb
  simp only [List.mem_cons, List.not_mem_nil, or_false] at hb
  obtain rfl | rfl := hb
  · let s := barState none 63 [(4, 1024)]
    exact ⟨wordReady_of (by decide +kernel), wordReady_of (by decide +kernel), by decide +kernel,
      fun t th ha => active_thread (P := fun th => th.pendWait = none) (by decide +kernel) (by decide +kernel) t ha th,
      fun put => only_lane0 (by decide +kernel) ⟨by decide +kernel, .inl (by
        show ((((setPcs (ctxOf s) s).crews[_]?).map fun (cr : Crew) => cr.bar 63).getD _).cnt = none
        decide +kernel)⟩⟩
  · let s := barState (some ⟨0, 5, some 1024, false⟩) 63 [(4, 1024)]
    exact ⟨wordReady_of (by decide +kernel), wordReady_of (by decide +kernel), by decide +kernel,
      fun t th ha => active_thread (P := fun th => th.pendWait = none) (by decide +kernel) (by decide +kernel) t ha th,
      fun put => only_lane0 (by decide +kernel) ⟨by decide +kernel, .inr (by
        show ((((setPcs (ctxOf s) s).crews[_]?).map fun (cr : Crew) => cr.bar 63).getD _).cnt = some _ ∧
          ((((setPcs (ctxOf s) s).crews[_]?).map fun (cr : Crew) => cr.bar 63).getD _).gang = false
        decide +kernel)⟩⟩

theorem witness_gang_barrier : let s := barState (some ⟨0, 5, some 0, true⟩) 0 []
    let c := ctxOf s
    let bar : State → Barrier := fun s' => ((s'.crews[c.ci]?).map fun cr => cr.bar 0).getD ⟨0, 0, none, false⟩
    WordReady (.gbar 0) s c ∧ c.distinct = true ∧
    (∀ t th, c.active t = true → (c.lane t).thread? = some th → th.pendWait = none) ∧
    ∀ put, ∀ t < 16, c.active t = true → (bar (metBy c true c.active put s t)).cnt = some 0 ∧
      (bar (metBy c true c.active put s t)).gang = true := by
  intro s c bar
  exact ⟨wordReady_of (by decide +kernel), by decide +kernel,
    fun t th ha => active_thread (P := fun th => th.pendWait = none) (by decide +kernel) (by decide +kernel) t ha th,
    fun put => only_lane0 (by decide +kernel) (by
      show ((((setPcs c s).crews[_]?).map fun (cr : Crew) => cr.bar 0).getD _).cnt = some 0 ∧
        ((((setPcs c s).crews[_]?).map fun (cr : Crew) => cr.bar 0).getD _).gang = true
      decide +kernel)⟩

theorem witness_barrier_waits : let s := aloneRegs [(4, 1)]
    let r := aloneRegs []
    WordReady (.barWt 4 63) s (ctxOf s) ∧ (∀ t < 16, (ctxOf s).active t = true → (ctxOf s).r32 t 4 ≠ ((ctxOf s).cr.bar 63).phase) ∧
    WordReady (.barWt 4 63) r (ctxOf r) ∧ (∀ t < 16, (ctxOf r).active t = true → (ctxOf r).r32 t 4 = ((ctxOf r).cr.bar 63).phase) :=
  ⟨wordReady_of (by decide +kernel), by decide +kernel, wordReady_of (by decide +kernel), by decide +kernel⟩

/-- A crew that declares three barriers names the fourth. -/
theorem witness_barrier_absent : let s := alone fun cr => { cr with packet := setBits cr.packet 158 152 3 }
    let c := ctxOf s
    s.ctx? = some c ∧ pktBars c.cr.packet ≤ (3 : BitVec 6).toNat ∧ c.g.count < Config.runWords ∧
    (∀ u ∈ (Instr.barSyn 4 3).uses, Use.badOperand c u = false) ∧ (∀ u ∈ (Instr.gbar 3).uses, Use.badOperand c u = false) := by
  decide +kernel

/-- MailboxWords: a mailbox of one slot at offset 0, whose slot awaits a put, a take, or neither. -/
def mboxState (seq : Nat) : State := padded [(0, leBytes 4 1), (24, leBytes 4 seq)] [(5, 0x00F80000)]
def mboxCtx (seq : Nat) : Ctx := ctxOf (mboxState seq)
theorem witness_mailbox_put : let s := mboxState 0
    let c := mboxCtx 0
    let x : Nat → State := fun t => (drawTicket true ⟨0, 0⟩ (setPcs c s)).2.closes c t
    WordReady (.mbput 16 4) s c ∧ c.distinct = true ∧
    (∀ t th, c.active t = true → (c.lane t).thread? = some th → th.pendWait = none) ∧
    ∀ put, ∀ t < 16, c.active t = true → mboxAt (metBy c true c.active put s t) c.ci (c.adr 4 t) = .ok ⟨0, 0⟩ ∧
      mboxTry c.ci (c.adr 4 t) (drawTicket true ⟨0, 0⟩ (metBy c true c.active put s t)).1 true (c.prim t .i64 16)
        ((drawTicket true ⟨0, 0⟩ (metBy c true c.active put s t)).2.closes c t) =
        some ((mboxTry 0 (c.adr 4 t) 0 true (c.prim t .i64 16) (x t)).getD (s, 0)) := by
  intro s c x
  exact ⟨wordReady_of (by decide +kernel), by decide +kernel,
    fun t th ha => active_thread (P := fun th => th.pendWait = none) (by decide +kernel) (by decide +kernel) t ha th,
    fun put => only_lane0 (by decide +kernel) ⟨ok_of (r := mboxAt (setPcs c s) _ _) (by decide +kernel),
      getD_of (o := mboxTry 0 (c.adr 4 0) 0 true (c.prim 0 .i64 16) (x 0)) (s, 0) (by decide +kernel)⟩⟩
theorem witness_mailbox_take : let s := mboxState 1
    let c := mboxCtx 1
    let x : Nat → State := fun t => (drawTicket false ⟨0, 0⟩ (setPcs c s)).2.closes c t
    WordReady (.mbtake 16 4) s c ∧
    ∀ put, ∀ t < 16, c.active t = true → mboxAt (metBy c true c.active put s t) c.ci (c.adr 4 t) = .ok ⟨0, 0⟩ ∧
      mboxTry c.ci (c.adr 4 t) (drawTicket false ⟨0, 0⟩ (metBy c true c.active put s t)).1 false 0
        ((drawTicket false ⟨0, 0⟩ (metBy c true c.active put s t)).2.closes c t) =
        some ((mboxTry 0 (c.adr 4 t) 0 false 0 (x t)).getD (s, 0)) := by
  intro s c x
  exact ⟨wordReady_of (by decide +kernel), fun put => only_lane0 (by decide +kernel)
    ⟨ok_of (r := mboxAt (setPcs c s) _ _) (by decide +kernel),
      getD_of (o := mboxTry 0 (c.adr 4 0) 0 false 0 (x 0)) (s, 0) (by decide +kernel)⟩⟩
theorem witness_mailbox_parks : let s := mboxState 5
    let c := mboxCtx 5
    WordReady (.mbput 16 4) s c ∧ WordReady (.mbtake 16 4) s c ∧
    ∀ put, ∀ p ∈ [true, false], ∀ t < 16, c.active t = true →
      mboxAt (metBy c true c.active put s t) c.ci (c.adr 4 t) = .ok ⟨0, 0⟩ ∧
      mboxTry c.ci (c.adr 4 t) (drawTicket p ⟨0, 0⟩ (metBy c true c.active put s t)).1 p 0
        ((drawTicket p ⟨0, 0⟩ (metBy c true c.active put s t)).2.closes c t) = none := by
  intro s c
  refine ⟨wordReady_of (by decide +kernel), wordReady_of (by decide +kernel), fun put p hp => only_lane0 (by decide +kernel)
    ⟨ok_of (r := mboxAt (setPcs c s) _ _) (by decide +kernel), ?_⟩⟩
  show mboxTry _ _ (drawTicket p ⟨0, 0⟩ (setPcs c s)).1 p 0 ((drawTicket p ⟨0, 0⟩ (setPcs c s)).2.closes c 0) = none
  revert p
  decide +kernel
theorem witness_mailbox_ticket : let s := mboxState 0
    s.crews[0]? = some (mboxCtx 0).cr ∧ (mboxCtx 0).cr.scratch.wf = true ∧ (∀ cr ∈ s.crews, cr.scratch.wf = true) ∧
    (mboxTry 0 0xF8000000000000 0 true 7 s).isSome = true := by decide +kernel

/-- CopyWords: a queue with one slot left, and a command of zeros. -/
theorem witness_copy_commit : let s := padded [(65540, leBytes 4 3)] []
    let c := ctxOf s
    (∀ i ∈ [Instr.xq 8, .xqn 8], WordReady i s c) ∧ c.distinct = true ∧ c.allThreads = true ∧ pktQN c.cr.packet ≠ 0 ∧
    ∀ put, ∀ t < 16, c.active t = true → cmdStamp 0 % 8 = 0 ∧ ¬ (isWindow (cmdStamp 0) = true ∧ fld (cmdStamp 0) 50 48 ≠ 0) ∧
      ((List.range 8).all fun i => ((c.lane t).getV (8 + i)).prim == 0) = true ∧
      ∀ cr, (metBy c true c.active put s t).crews[c.ci]? = some cr → cr.queued ≠ pktQN cr.packet := by
  intro s c
  exact ⟨all_ready (by decide +kernel), by decide +kernel, by decide +kernel, by decide +kernel, fun put =>
    only_lane0 (by decide +kernel) ⟨by decide +kernel, by decide +kernel, by decide +kernel,
      all_of (o := (setPcs c s).crews[c.ci]?) (p := fun (cr : Crew) => cr.queued ≠ pktQN cr.packet) (by decide +kernel)⟩⟩

/-- A command from tile 0, valid, to tile 7, empty or valid; and one from an empty tile. -/
def tilesCrew (src dst : Dword) : Crew := { (ctxOf base).cr with tiles := [src, 0, 0, 0, 0, 0, 0, dst] }
def tileCommand : BitVec 256 := BitVec.ofNat 256 (2 ^ 127 + 2 ^ 120 + 7 * 2 ^ 64 + 2 ^ 56)
def commitFits (cr : Crew) : Bool :=
  decide (cr.tileNamed (cmdSk tileCommand) (cmdSrc tileCommand) = some 0 ∧
    cr.tileNamed (cmdDk tileCommand) (cmdDst tileCommand) = some 7 ∧ bitsOf (cr.tiles.getD 0 0) 63 62 = 2 ∧
    (bitsOf (cr.tiles.getD 7 0) 63 62 = 0 ∨ bitsOf (cr.tiles.getD 7 0) 63 62 = 2) ∧ 0 < cr.tiles.length ∧ 7 < cr.tiles.length)
theorem witness_commit : commitFits (tilesCrew 0x8000000000000000 0) = true ∧
    commitFits (tilesCrew 0x8000000000000000 0x8000000000000000) = true := by decide +kernel
theorem witness_commit_refused : let cr := tilesCrew 0 0
    cr.tileNamed (cmdSk tileCommand) (cmdSrc tileCommand) = some 0 ∧ bitsOf (cr.tiles.getD 0 0) 63 62 ≠ 2 := by decide +kernel

/-- MatrixWords: a block that clears one line, and all sixteen lines saved or loaded. -/
def tileReady : TileTest → Bool
  | .ready => true
  | _ => false
theorem tileReady_of {x : TileTest} (h : tileReady x = true) : x = .ready := by cases x <;> simp_all [tileReady]
theorem witness_matrix_issue : let s := padded [(7, [0x30])] []
    let c := ctxOf s
    let p : Nat → BitVec 512 := fun t => BitVec.ofNat 512 (c.cr.scratch.nat (c.prim t .i32 4).toNat 64)
    WordReady (.mmissue 4) s c ∧ c.distinct = true ∧ c.allThreads = true ∧
    ∀ put, ∀ t < 16, c.active t = true → (c.prim t .i32 4).toNat % 64 = 0 ∧ (c.prim t .i32 4).toNat + 64 ≤ c.cr.alloc ∧
      mmCheck c.cr (p t) = none ∧ tileTest c.cr (p t) = .ready ∧
      ((metBy c true c.active put s t).cluster (clusterOf c.core)).entries.length < Config.matrixEntries := by
  intro s c p
  exact ⟨wordReady_of (by decide +kernel), by decide +kernel, by decide +kernel, fun put => only_lane0 (by decide +kernel)
    ⟨by decide +kernel, by decide +kernel, by decide +kernel, tileReady_of (by decide +kernel),
      (by decide +kernel : ((setPcs c s).cluster (clusterOf c.core)).entries.length < Config.matrixEntries)⟩⟩
theorem witness_accumulators : let s := aloneRegs [(4, 14), (6, 2)]
    let c := ctxOf s
    (∀ i ∈ [Instr.accsv 16 4 6, .accld 16 4 6], WordReady i s c) ∧ c.distinct = true ∧ c.allThreads = true ∧
    ∀ put, ∀ t < 16, c.active t = true → (c.prim t .i32 4).toNat % 2 = 0 ∧ (c.prim t .i32 6).toNat % 2 = 0 ∧
      (c.prim t .i32 6).toNat ≠ 0 ∧ (c.prim t .i32 4).toNat + (c.prim t .i32 6).toNat ≤ pktAccum c.cr.packet ∧
      c.adr 16 t % 64 = 0 ∧ c.adr 16 t < 2 ^ 56 ∧ isWindow (c.adr 16 t) = false ∧
      ((metBy c true c.active put s t).cluster (clusterOf c.core)).entries.length < Config.matrixEntries := by
  intro s c
  exact ⟨all_ready (by decide +kernel), by decide +kernel, by decide +kernel, fun put => only_lane0 (by decide +kernel)
    (show _ ∧ _ ∧ _ ∧ _ ∧ _ ∧ _ ∧ _ ∧ ((setPcs c s).cluster _).entries.length < _ by decide +kernel)⟩
theorem witness_accumulators_refused : ∀ x ∈ [((15 : Word), (2 : Word)), (14, 0)], let s := aloneRegs [(4, x.1), (6, x.2)]
    let c := ctxOf s
    (∀ i ∈ [Instr.accsv 16 4 6, .accld 16 4 6], WordReady i s c) ∧ c.allThreads = true ∧
    ∀ t < 16, c.active t = true → (c.prim t .i32 4).toNat % 2 = 1 ∨ (c.prim t .i32 6).toNat = 0 := by
  intro x hx
  simp only [List.mem_cons, List.not_mem_nil, or_false] at hx
  obtain rfl | rfl := hx <;> exact ⟨all_ready (by decide +kernel), by decide +kernel, by decide +kernel⟩

/-- RayAndPairWords: the last record below the copy queue, with a direction; its status is that of a new ray, or of one that
TRES goes on with. -/
def rayState (n : Nat) (ws : List (Nat × Word)) : State :=
  padded ((List.range n).map fun i => (65536 - 128 * n + 128 * i + 24, leBytes 4 0x3F800000)) ws
theorem witness_trace : let s := rayState 1 [(4, 65408)]
    let c := ctxOf s
    let r : Nat → BitVec 1024 := fun t => BitVec.ofNat 1024 (c.cr.scratch.nat (c.r32 t 4).toNat 128)
    WordReady (.trace 16 4 6) s c ∧
    ∀ put, ∀ t < 16, c.active t = true → let s' := dropGrant c (metBy c true c.active put s t) t
      (c.r32 t 4).toNat % 128 = 0 ∧ (c.r32 t 4).toNat + 128 ≤ c.cr.alloc ∧ c.cr.meetsQueue (c.r32 t 4).toNat 128 = false ∧
      s'.rayFlying c.ci (c.r32 t 4).toNat = false ∧ rayBad (r t) = false ∧ (rayLogs (r t) || rayReplays (r t)) = false ∧
      0 < s'.freeSlots c.core := by
  intro s c r
  exact ⟨wordReady_of (by decide +kernel), fun put => only_lane0 (by decide +kernel)
    (show _ ∧ _ ∧ _ ∧ (dropGrant c (setPcs c s) 0).rayFlying _ _ = false ∧ _ ∧ _ ∧
      0 < (dropGrant c (setPcs c s) 0).freeSlots _ by decide +kernel)⟩
theorem witness_ray_status : let r (st : Nat) := rayCtlSet (BitVec.ofNat 1024 (0x3F800000 * 2 ^ 192)) 7 0 st
    (∀ st ∈ [0x10, 0x11, 0x12, 0x13], rayBad (r st) = false ∧ isSuspension (rayStatus (r st)) = true) ∧
    rayStatus (r 0x10) = 0x10 ∧ rayStatus (r 0x11) = 0x11 := by decide +kernel
theorem witness_trace_packet : let s := rayState 1 [(4, 65408), (6, 1)]
    let c := ctxOf s
    let off : Nat → Nat := fun t => (c.r32 t 4).toNat
    let r : Nat → Nat → BitVec 1024 := fun t i => BitVec.ofNat 1024 (c.cr.scratch.nat (off t + 128 * i) 128)
    WordReady (.tracep 16 4 6) s c ∧
    ∀ put, ∀ t < 16, c.active t = true → let s' := dropGrant c (metBy c true c.active put s t) t
      off t % 128 = 0 ∧ 1 ≤ (c.r32 t 6).toNat ∧ (c.r32 t 6).toNat ≤ 64 ∧ off t + 128 * (c.r32 t 6).toNat ≤ c.cr.alloc ∧
      c.cr.meetsQueue (off t) (128 * (c.r32 t 6).toNat) = false ∧ (c.r32 t 6).toNat ≤ s'.freeSlots c.core ∧
      ∀ i < (c.r32 t 6).toNat, s'.rayFlying c.ci (off t + 128 * i) = false ∧ rayBad (r t i) = false ∧ rayLogs (r t i) = false ∧
        rayReplays (r t i) = false ∧ packetKey (r t i) = packetKey (r t 0) := by
  intro s c off r
  exact ⟨wordReady_of (by decide +kernel), fun put => only_lane0 (by decide +kernel)
    (show _ ∧ _ ∧ _ ∧ _ ∧ _ ∧ _ ≤ (dropGrant c (setPcs c s) 0).freeSlots _ ∧
      ∀ i < (c.r32 0 6).toNat, (dropGrant c (setPcs c s) 0).rayFlying _ (off 0 + 128 * i) = false ∧ rayBad (r 0 i) = false ∧
        rayLogs (r 0 i) = false ∧ rayReplays (r 0 i) = false ∧ packetKey (r 0 i) = packetKey (r 0 0) by decide +kernel)⟩
theorem witness_trace_misaligned : let s := rayState 1 [(4, 127)]
    let c := ctxOf s
    (∀ i ∈ [Instr.trace 16 4 6, .tres 16 4 6], WordReady i s c) ∧ c.allThreads = true ∧ (s.core c.core).unitQueue = [] ∧
    ∀ t < 16, c.active t = true → (c.r32 t 4).toNat % 128 ≠ 0 :=
  ⟨all_ready (by decide +kernel), by decide +kernel, by decide +kernel, by decide +kernel⟩
theorem witness_pair : let s := padded [] [(4, 65408)]
    let c := ctxOf s
    let r : Nat → BitVec 1024 := fun t => BitVec.ofNat 1024 (c.cr.scratch.nat (c.r32 t 4).toNat 128)
    WordReady (.xpair 4) s c ∧ c.distinct = true ∧ c.allThreads = true ∧
    ∀ put, ∀ t < 16, c.active t = true → (c.r32 t 4).toNat % 128 = 0 ∧ (c.r32 t 4).toNat + 128 ≤ c.cr.alloc ∧
      c.cr.meetsQueue (c.r32 t 4).toNat 128 = false ∧ pairStamp (r t) % 8 = 0 ∧
      0 < (dropGrant c (metBy c true c.active put s t) t).freeSlots c.core := by
  intro s c r
  exact ⟨wordReady_of (by decide +kernel), by decide +kernel, by decide +kernel, fun put => only_lane0 (by decide +kernel)
    (show _ ∧ _ ∧ _ ∧ _ ∧ 0 < (dropGrant c (setPcs c s) 0).freeSlots _ by decide +kernel)⟩
theorem witness_reprojection : let s := padded [] [(4, 0x11000 - 64)]
    let c := ctxOf s
    let p : Nat → BitVec 512 := fun t => BitVec.ofNat 512 (c.cr.scratch.nat (c.r32 t 4).toNat 64)
    let k := clusterOf c.core
    let own (t : Nat) (s' : State) : State := s'.updCluster k fun K =>
      { K with reprojQueue := K.reprojQueue.filter fun w => !(w.granted && w.crew == c.ci && w.lane == c.place t) }
    WordReady (.reproj 4) s c ∧ c.distinct = true ∧ c.allThreads = true ∧
    ∀ put, ∀ t < 16, c.active t = true → (c.r32 t 4).toNat % 64 = 0 ∧ (c.r32 t 4).toNat + 64 ≤ c.cr.alloc ∧
      rpStamp (p t) % 8 = 0 ∧ (own t (metBy c true c.active put s t)).reprojRoom k = true := by
  intro s c p k own
  exact ⟨wordReady_of (by decide +kernel), by decide +kernel, by decide +kernel, fun put => only_lane0 (by decide +kernel)
    (show _ ∧ _ ∧ _ ∧ (own 0 (setPcs c s)).reprojRoom k = true by decide +kernel)⟩

/-- LaunchWords: a dispenser with one item, given or still to come; and an open queue that is empty. -/
def dispenserState (d : Nat) : State :=
  let s := aloneRegs []
  { s with mem := s.mem.write 0x200000 (leBytes 64 d) }
def indexSpace (next : Nat) : Nat := next * 2 ^ 64 + 2 ^ 128 + 2 ^ 160 + 2 ^ 192
theorem witness_fetch : ∀ d ∈ [indexSpace 0, indexSpace 1, 1 + 0x100000 * 2 ^ 256], let s := dispenserState d
    let c := ctxOf s
    let r : Nat → Fetched := fun t => (okOf (geyser (setPcs c s) c.ci (c.place t) (c.adr 4 t))).getD (.dry [])
    WordReady (.fetchw 16 4 1) s c ∧ PlainAccess s c ∧
    ∀ put, ∀ t < 16, c.active t = true → c.adr 4 t % 64 = 0 ∧ geyser (metBy c true c.active put s t) c.ci (c.place t) (c.adr 4 t) = .ok (r t) := by
  intro d hd
  simp only [List.mem_cons, List.not_mem_nil, or_false] at hd
  obtain rfl | rfl | rfl := hd <;>
    exact ⟨wordReady_of (by decide +kernel), plain_of (by decide +kernel), fun put => only_lane0 (by decide +kernel)
      ⟨by decide +kernel, okOf_getD (r := geyser (setPcs (ctxOf (dispenserState _)) (dispenserState _)) _ _ _) (.dry [])
        (by decide +kernel)⟩⟩
theorem witness_items : ∀ n ∈ [0, 1], let s := dispenserState (indexSpace n)
    let g := pageIn s { write := true, kindOk := plainPage } 0
    let x := leNat (s.physRead (dieOf (s.coreOf 0)) g 64)
    s.globalPage 0 0 0 { write := true, kindOk := plainPage } = .ok g ∧ s.poisonedOn (dieOf (s.coreOf 0)) g 64 = false ∧ dispBad x = false ∧
    dispKind x = 0 ∧ (n = 0 → dispNext x < dispX x * dispY x * dispZ x) ∧
    (n = 1 → dispX x * dispY x * dispZ x ≤ dispNext x) := by
  intro n hn
  simp only [List.mem_cons, List.not_mem_nil, or_false] at hn
  obtain rfl | rfl := hn <;> exact ⟨ok_of (by decide +kernel), by decide +kernel, by decide +kernel, by decide +kernel,
    by decide +kernel, by decide +kernel⟩

/-- A device-writable queue of two packets at 0x2000, one of them free. -/
def queueDescriptor : BitVec 512 := BitVec.ofNat 512 (0x2000 + 2 ^ 64 + 3 * 2 ^ 88 + 2 ^ 96)
def launchState : State := { aloneRegs [(6, 1023)] with queues := [(1023, queueDescriptor)] }
theorem witness_launch : let s := launchState
    let c := ctxOf s
    let Q := queueDescriptor
    let slot := qdBase Q + 64 * (qdWptr Q % 2 ^ qdLcap Q)
    let g : Page := (okOf ((setPcs c s).xlat 0 slot { write := true, device := true })).getD ⟨0, false, false, none, true, true, false, true⟩
    WordReady (.launch 16 4 6) s c ∧ PlainAccess s c ∧ (∀ u < 16, c.active u = decide (u = 0)) ∧
    ∀ put, ∀ t < 16, c.active t = true → (c.r32 t 4).toNat % 64 = 0 ∧ (c.r32 t 4).toNat + 64 ≤ c.cr.alloc ∧
      (c.r32 t 6).toNat < Config.queues ∧ (metBy c true c.active put s t).queue (c.r32 t 6).toNat = Q ∧ qdEn Q = true ∧
      qdDevw Q = true ∧ qdErr Q = false ∧ qdPart Q = c.cr.part ∧ qdAhead Q ≠ 2 ^ qdLcap Q ∧
      (metBy c true c.active put s t).xlat c.cr.part slot { write := true, device := true } = .ok g := by
  intro s c Q slot g
  exact ⟨wordReady_of (by decide +kernel), plain_of (by decide +kernel), by decide +kernel, fun put => only_lane0 (by decide +kernel)
    ⟨by decide +kernel, by decide +kernel, by decide +kernel, (by decide +kernel : (setPcs c s).queue (c.r32 0 6).toNat = Q),
      by decide +kernel, by decide +kernel, by decide +kernel, by decide +kernel, by decide +kernel,
      okOf_getD (r := (setPcs c s).xlat 0 slot { write := true, device := true }) _ (by decide +kernel)⟩⟩

/-! ### Claims about what happens between words -/

/-- PickerAndArrivals: one ready thread and a free slot; no ready thread; a result on its way. -/
def readyState : State := withThread fun th => { th with run := .ready 7 }
theorem witness_pick : oldest (readyOn readyState 0) = some ⟨7, 0, 0, 0x1000⟩ ∧
    readyState.crews[0]? = some (readyState.crews.headD (ctxOf base).cr) ∧ 0 < readyState.cores.length ∧
    (readyState.core 0).slots[7]? = some none ∧ readyState.works = true ∧ readyOn base 0 = [] := by decide +kernel
def arrival : Arrival := ⟨0, 0, [(55, ⟨5, [0]⟩)], 1, 1, []⟩
theorem witness_arrival : let s : State := { withThread (fun th => { th with run := .waiting }) with arrivals := [arrival] }
    s.arrivals[0]? = some arrival ∧ s.lane? 0 0 = some ((ctxOf s).lane 0) ∧
    ((ctxOf s).lane 0).thread? = some { baseThread with run := .waiting } ∧ 54 + 2 ≤ ((ctxOf s).lane 0).v.length := by
  decide +kernel

/-- WaitsMet. -/
def noticed : Monitor := ⟨0, 0, none, 0x200000, true, false, false, 1, 16, 0, 0, some 0⟩
theorem witness_monitor_wake :
    let s : State := { withThread (fun th => { th with run := .parked .monitor }) with monitors := [noticed] }
    s.monitors.findIdx? (fun m => m.crew == 0 && m.lane == 0 && m.got.isSome) = some 0 ∧ s.monitors[0]? = some noticed ∧
    noticed.got = some 0 ∧ noticed.acq = false ∧ s.crews[0]? = some (ctxOf s).cr ∧
    ((s.thread? 0 0).map Thread.run) = some (.parked .monitor) ∧ s.thread? 0 0 = ((ctxOf s).lane 0).thread? := by decide +kernel
def mboxParked (seq : Nat) (put : Bool) : State :=
  padded [(0, leBytes 4 1), (24, leBytes 4 seq)] [] |>.updThread 0 0 fun th =>
    { th with run := .parked (.mailbox 0xF8000000000000 0 put 7 16 0) }
theorem witness_mailbox_met :
    (((mboxParked 0 true).thread? 0 0).map Thread.run) = some (.parked (.mailbox 0xF8000000000000 0 true 7 16 0)) ∧
    (mboxTry 0 0xF8000000000000 0 true 7 (mboxParked 0 true)).isSome = true ∧
    (((mboxParked 1 false).thread? 0 0).map Thread.run) = some (.parked (.mailbox 0xF8000000000000 0 false 7 16 0)) ∧
    (mboxTry 0 0xF8000000000000 0 false 7 (mboxParked 1 false)).isSome = true ∧ (mboxParked 1 false).crews[0]?.isSome = true := by
  decide +kernel
theorem witness_gang_due : let s := barState (some ⟨0, 1, some 0, true⟩) 63 []
    let g : Gang := s.gangs.headD ⟨0, 0, [], 0, 0, 0, true, true⟩
    s.gangs.find? (fun g => g.grid == 0 && g.index == 0) = some g ∧ gangDue s g 63 = true ∧ g.crews.Nodup ∧ 0 ∈ g.crews ∧
    s.crews[0]? = some (ctxOf s).cr ∧ 63 < (ctxOf s).cr.bars.length := by decide +kernel
/-- A held access to the last doubleword of the scratchpad below the copy queue, by the crew's rank in its gang. -/
def windowHeld (write : Bool) : State := withThread fun th =>
  { th with run := .parked .window, held := [⟨0xF800000000FFF8, write, 5, none, false, 0⟩] }
theorem witness_window_access : ∀ w ∈ [true, false], let s := windowHeld w
    (s.thread? 0 0).map (fun th => (th.run, th.held)) =
      some (.parked .window, [⟨0xF800000000FFF8, w, 5, none, false, 0⟩]) ∧
    (okOf (s.windowWrite 0 0xF800000000FFF8 8 5)).isSome = true ∧ (okOf (s.windowRead 0 0xF800000000FFF8 8)).isSome = true := by
  decide +kernel

/-- FaultAndTrapEvents. -/
def faulted (run : RunState) (depth : Nat) : State :=
  (withThread fun th => { th with run := run, depth := depth, trap := some ⟨3, 0, false, true, 0⟩ }).updCore 0 fun co =>
    { co with faults := [⟨0, 0, 32, false, [⟨0, 8, false⟩], none⟩] }
theorem witness_fault_resolved : let s := faulted (.parked (.fault 8 false)) 0
    let e : FaultEntry := ⟨0, 0, 32, false, [⟨0, 8, false⟩], none⟩
    0 < s.cores.length ∧ (s.core 0).faults[0]? = some e ∧ s.crews[0]? = some (ctxOf s).cr ∧ e.fill = none ∧
    (okOf (s.xlat (ctxOf s).cr.part (65536 * e.page) { write := e.write, device := true })).isSome = true ∧
    (s.thread? 0 0).map Thread.run = some (.parked (.fault 8 false)) ∧ e.waiters = [⟨0, 8, false⟩] ∧ (s.core 0).faultQueue = [] := by
  decide +kernel
theorem witness_trap_held : let s := faulted .trapping 0
    (s.thread? 0 0).map (fun th => (th.run, th.trap)) = some (.trapping, some ⟨3, 0, false, true, 0⟩) ∧
    s.crews[0]? = some (ctxOf s).cr ∧ s.outstanding 0 0 = false := by decide +kernel
theorem witness_trap_answers : ∀ d ∈ [15, 16], let s := faulted .held d
    (s.thread? 0 0).map (fun th => (th.run, th.depth)) = some (.held, d) ∧ s.crews[0]? = some (ctxOf s).cr ∧
    (ctxOf s).cr.status = .resident ∧ (ctxOf s).cr.preempt = none ∧ (ctxOf s).cr.grid = 0 := by decide +kernel

/-- JoinerBatches: a full batch, and one that is 64 cycles old; two threads that move. -/
def batchOf (opened n : Nat) : Batch := ⟨opened, List.replicate n ⟨0, 0x1000, 0, 1⟩⟩
theorem witness_batch_closes :
    (let s := stateOf id fun cr => { cr with batch := some (batchOf 0 256) }
     s.crews[0]?.map Crew.batch = some (some (batchOf 0 256)) ∧ 256 ≤ (batchOf 0 256).threads.length) ∧
    (let s : State := (stateOf id fun cr => { cr with batch := some (batchOf 0 1) }).updCore 0 fun co => { co with lclk := 64 }
     s.crews[0]?.map Crew.batch = some (some (batchOf 0 1)) ∧ (batchOf 0 1).opened + 64 ≤ (s.core 0).lclk.toNat) := by
  decide +kernel
def movingBatch : Batch := ⟨0, [⟨0, 0x2000, 1, 14⟩, ⟨1, 0x1000, 0, 1⟩]⟩
def movingState : State := stateOf id fun cr => { cr with
  moving := [movingBatch]
  lanes := (cr.lanes.modify 0 fun l => l.updThread fun th => { th with run := .parked .joiner }).modify 1 fun l =>
    { l with occ := .thread { baseThread with tid := 1, run := .parked .joiner } } }
theorem witness_moves : let s := movingState
    s.crews[0]?.map Crew.moving = some [movingBatch] ∧ (∀ g ∈ movingBatch.threads, s.outstanding 0 g.lane = false) ∧
    (movingBatch.threads.map fun (g : Gathered) => g.lane).Nodup ∧
    ∀ g ∈ movingBatch.threads, ((s.lane? 0 g.lane).bind Lane.thread?).isSome = true := by decide +kernel

/-- PreemptionAndReturn. -/
def preempted (asked discard : Bool) (area : Option (BitVec 56)) : State :=
  stateOf id fun cr => { cr with preempt := some ⟨0, area, false, false, asked, discard⟩ }
theorem witness_area_due : (preempted true false none).crews[0]?.map Crew.preempt = some (some ⟨0, none, false, false, true, false⟩) := by
  decide +kernel
/-- A list of one save-area slot at 0x3000, empty. -/
def areaState : State := base.updPart 0 fun P => P.setAt 56 7 0x3000
theorem witness_empty_slot : emptySlot areaState 0 = some 0x3000 := by decide +kernel
/-- A crew of 8 registers, without scratchpad or lines, whose saved threads' records hold nothing. -/
def smallPacket : BitVec 512 := BitVec.ofNat 512 (2 ^ 60 + wordVa)
def resumingState : State :=
  let s := stateOf id fun cr => { cr with packet := smallPacket, status := .resuming, saveArea := some 0x8000 }
  { s with mem := (s.mem.write 0x208000 [3]).write 0x208008 (leBytes 64 smallPacket.toNat) }
theorem witness_resume : let s := resumingState
    s.crews[0]?.map (fun cr => (cr.status, cr.saveArea, cr.packet)) = some (.resuming, some 0x8000, smallPacket) ∧
    ((okOf (s.readG 0 0 0x8000 (areaSize smallPacket) true)).any fun bs => !areaBad smallPacket bs) = true := by decide +kernel
theorem witness_region_saves : let t := { baseThread with run := .ready 0, region := some ⟨0x1000, 1, 1, 0, 0, 0⟩ }
    t.run = .ready 0 ∧ t.region.isSome = true ∧ ({ t with run := .waking none }).run = .waking none := by decide +kernel
def savedLane (t : Thread) : Lane := { (ctxOf base).lane 0 with occ := .thread t }
theorem witness_saved_record : let t : Thread := { baseThread with
      run := .saved, depth := 16, cont := baseThread.pc, pendWait := some (.tracep 64 0xFFFFFFFF), trap := some ⟨3, 0, true, true, 9⟩ }
    let l := savedLane t
    l.occ = .thread t ∧ l.v.length = pktC wordPacket ∧ l.q.length = 8 ∧ (∀ x ∈ l.v ++ l.q, x.tan.length = pktT wordPacket) ∧
    t.tid < 2 ^ 10 ∧ t.depth ≤ 16 ∧ t.stack.length = 16 ∧ t.cont = t.pc ∧ t.region = none ∧ t.held = [] ∧
    t.acquired = [] ∧ t.pendPair = none ∧ 64 < 2 ^ 8 ∧ 0xFFFFFFFF < 2 ^ 32 := by decide +kernel

/-! ### Claims about engines -/

/-- CopyEvents: a command of the crew is queued; 64 copies are in flight; a command that moves no word; one that moves one
word, under way or sent. -/
def copyOf (cmd : Nat) (sent : Option (BitVec 6)) : CopyOp :=
  ⟨0, 0, some 0, none, BitVec.ofNat 256 cmd, ⟨false, false, 0, 0, 0, 0, 0⟩, false, false, sent, none, 0⟩
def copying (cmd : Nat) (sent : Option (BitVec 6)) : State := { base with copies := [copyOf cmd sent] }
def oneWord : Nat := 2 ^ 200 + 0x100 * 2 ^ 64
theorem witness_copy_turn : let s := padded [(65540, [1])] []
    s.copyTurn 0 = some 0 ∧ s.crews[0]? = some (ctxOf s).cr ∧ 0 < s.clusters.length ∧ (ctxOf s).cr.scratch.wf = true := by
  decide +kernel
theorem witness_copy_full : ({ base with copies := List.replicate 64 (copyOf 0 none) }).copiesOf 0 none = 64 ∧
    base.copyTurn 0 = none := by decide +kernel
theorem witness_copy_checked : (copying 0 none).copies[0]? = some (copyOf 0 none) ∧
    (copying 0 none).copyCheck (copyOf 0 none) = some 2 ∧ cmdNw (copyOf 0 none).cmd = 0 ∧ (copyOf 0 none).outcome = none ∧
    (copyOf 0 none).sent = none := by decide +kernel
theorem witness_copy_moves : (copying oneWord none).copies[0]? = some (copyOf oneWord none) ∧
    (copying oneWord none).copyCheck (copyOf oneWord none) = none ∧
    ((copying oneWord none).transfer 0 (copyOf oneWord none)).isSome = true ∧ (copyOf oneWord none).outcome = none ∧
    (copying oneWord (some 1)).copies[0]? = some (copyOf oneWord (some 1)) ∧ (copyOf oneWord (some 1)).sent = some 1 := by
  decide +kernel
theorem witness_stamp_fields : 2 ^ 32 - 1 < 2 ^ 32 ∧ 2 ^ 8 - 1 < 2 ^ 8 := by decide

/-- MatrixEvents: an entry of each kind, granted or waiting. -/
def entryOf (block : Nat) (kind : MKind) : MEntry :=
  { blockEntry base 0 (ctxOf base).cr (BitVec.ofNat 512 block) none 0 0 0 with
    kind := kind, count := 2, lane := if kind = .accsv ∨ kind = .accld then some 0 else none }
def matrixState (granted : Option Nat) (e : MEntry) : State :=
  base.updCluster 0 fun K => { K with entries := [e], entryNext := 1, granted := granted }
/-- One row and one column, BF16 operands from tiles 0 and 1, K 16. -/
def mmaBlock : Nat := 7 * 2 ^ 304 + 2 ^ 272 + 7 * 2 ^ 368 + 2 ^ 336 + 2 ^ 320
theorem witness_matrix_grant : let s := matrixState none (entryOf (3 * 2 ^ 60) .clr)
    0 < s.clusters.length ∧ (s.cluster 0).granted = none ∧ s.grantable 0 ≠ [] := by decide +kernel
def runsWhenGranted (e : MEntry) : Bool :=
  decide ((matrixState (some 0) e).grantedEntry 0 = some e) && ((matrixState (some 0) e).runEntry 0 e).isSome
theorem witness_matrix_mma : let e := entryOf mmaBlock .mma
    runsWhenGranted e = true ∧ e.kind = .mma ∧ e.passes < e.passCount ∧ mbFin e.block = false := by decide +kernel
theorem witness_matrix_kinds : runsWhenGranted (entryOf (2 ^ 60 + 2 ^ 382) .wload) = true ∧
    runsWhenGranted (entryOf (2 * 2 ^ 60) .fin) = true ∧ runsWhenGranted (entryOf (3 * 2 ^ 60) .clr) = true := by decide +kernel
/-- Accumulator lines from an address whose fault was declared unresolvable. -/
theorem witness_matrix_accumulators :
    runsWhenGranted { entryOf 0 .accld with addr := 0x200000, refused := true } = true := by decide +kernel
theorem witness_multiplier : let s := base.updCluster 63 fun K => { K with spares := 7 }
    63 < s.clusters.length ∧ (s.cluster 63).withdrawn = false ∧ (s.cluster 63).spares < Config.spareColumns := by decide +kernel

/-- RayEvents: a ray that meets a poisoned node, one whose node faults, one that waits outside the unit. -/
def rayOf (root : Nat) (inUnit : Bool) : Ray :=
  ⟨0, 0, 0, BitVec.ofNat 1024 (0x3F800000 * 2 ^ 192 + root * 2 ^ 512), 0, inUnit, none, none, false, .start, 0, 0⟩
def raysOf (y : Ray) : State :=
  { padded [(24, leBytes 4 0x3F800000)] [] |>.updThread 0 0 fun th => { th with run := .parked (.trace 16) } with
    rays := [y], poison := [0x200000 / 64] }
def endsStopped : WalkEnd → Bool
  | .stopped _ _ _ _ => true
  | _ => false
def endsHeld : WalkEnd → Bool
  | .held _ _ _ _ _ => true
  | _ => false
/-- A ray record whose ROOT lies beyond the mapped 2 MiB. -/
def farRay : Ray := rayOf 0x200000 true
theorem witness_ray_stops : let y := rayOf 0 true
    (raysOf y).rays[0]? = some y ∧ y.inUnit = true ∧ endsStopped (rayWalk raySteps (raysOf y) y (some y.key)) = true := by
  decide +kernel
theorem witness_ray_held : (raysOf farRay).rays[0]? = some farRay ∧ farRay.inUnit = true ∧
    endsHeld (rayWalk raySteps (raysOf farRay) farRay (some farRay.key)) = true := by decide +kernel
theorem witness_ray_reenters : let y := rayOf 0 false
    let s := raysOf y
    s.rays[0]? = some y ∧ y.inUnit = false ∧ y.failed = none ∧ (s.thread? 0 0).map Thread.run = some (.parked (.trace 16)) ∧
    rayWaits s y = false ∧ 0 < s.freeSlots (s.coreOf y.crew) ∧ rayBad (s.recordAt y.crew y.off) = false := by decide +kernel
theorem witness_pair_runs : ∀ u ∈ [true, false], let op : XPairOp := ⟨0, 0, 0, u, false, false, false, none, false, 0, 0, 0, 0⟩
    let s : State := { base with xpairs := [op] }
    s.xpairs[0]? = some op ∧ (op.inUnit = true ∨ 0 < s.freeSlots (s.coreOf op.crew)) := by decide +kernel
theorem witness_reprojection_runs : let op : ReprojOp := ⟨0, BitVec.ofNat 512 1, false, none, 0, 0, 0, 0⟩
    let s := base.updCluster 0 fun K => { K with reproj := [op] }
    ((s.cluster 0).reproj.zipIdx.findSome? fun x => s.runReproj 0 x.2 x.1).isSome = true := by decide +kernel
def fetching (d : Nat) : State := (dispenserState d).updThread 0 0 fun th => { th with run := .parked (.geyser 0) }
def fetchedWaits : Fetched → Bool
  | .wait _ => true
  | _ => false
theorem witness_fetch_wakes : ((fetching (indexSpace 0)).thread? 0 0).map Thread.run = some (.parked (.geyser 0)) ∧
    ((okOf (geyser (fetching (indexSpace 0)) 0 0 0)).any fun r => !fetchedWaits r) = true ∧
    ((fetching (1 + 0x100000 * 2 ^ 256)).thread? 0 0).map Thread.run = some (.parked (.geyser 0)) ∧
    ((okOf (geyser (fetching (1 + 0x100000 * 2 ^ 256)) 0 0 0)).any fetchedWaits) = true := by decide +kernel

/-! ### Claims about launches, graphs, the host and the module -/

/-- QueueEvents: a packet of either kind waits at 0x2000 in queue 0. -/
def queuedState (p : Nat) : State :=
  { base with queues := [(0, queueDescriptor)], mem := base.mem.write 0x202000 (leBytes 64 p) }
theorem witness_packets : ∀ p ∈ [wordPacket.toNat, 2 * 2 ^ 60 + 0x4000], let s := queuedState p
    let d := s.queue 0
    let s1 := (s.setQueue 0 (setBits d 159 128 (qdRptr d + 1))).wakeLaunches 0
    s.works = true ∧ qdEn d = true ∧ qdErr d = false ∧ qdAhead d ≠ 0 ∧ (s.part (qdPart d)).up = true ∧
    s.devNat (qdPart d) (qdBase d + 64 * (qdRptr d % 2 ^ qdLcap d)) 64 = some p ∧
    s1.packetCheck (qdPart d) (BitVec.ofNat 512 p) = none := by decide +kernel
theorem witness_packet_kinds : pktKind wordPacket = 1 ∧ pktKind (BitVec.ofNat 512 (2 * 2 ^ 60 + 0x4000)) = 2 ∧
    pktKind (BitVec.ofNat 512 0) ≠ 1 ∧ pktKind (BitVec.ofNat 512 0) ≠ 2 ∧ 1023 < Config.queues := by decide +kernel
/-- A grid whose one thread has exited, live or removed. -/
def gridDone (st : GridStatus) : State := ((base.endThread 0 0).clearSlot 0 0).updGrid 0 fun g => { g with status := st }
def stampGoes : State.Stamped → Bool
  | .written _ => true
  | _ => false
theorem witness_grid_over : ∀ st ∈ [GridStatus.live, .removed], let s := (gridDone st).releaseOver
    s.grids[0]?.map (fun g => (g.status, g.node)) = some (st, none) ∧ s.gridOver 0 = true ∧
    (st = .live → (s.grids[0]?.any fun g => s.undistributed 0 g) = false) ∧
    (s.grids[0]?.any fun g => stampGoes (s.packetStamp g.part g.packet (if g.status = .removed then 0x13 else 1))) = true := by
  decide +kernel

/-- Placement: a grid that waits for the distributor; the state that it leaves, for the placement unit. -/
def waitingState : State := { base with
  crews := [], gangs := [], grids := [⟨wordPacket, 0, 0, 0, none, .waiting, 0, []⟩], queues := [(0, queueDescriptor)] }
def waitingGrid : Grid := ⟨wordPacket, 0, 0, 0, none, .waiting, 0, []⟩
theorem witness_distribute : let s := waitingState
    s.distributorQueue = some 0 ∧ s.grids.findIdx? (fun g => g.queue == 0 && s.mayDistribute (s.grids.idxOf g) g) = some 0 ∧
    s.grids[0]? = some waitingGrid ∧ s.works = true ∧ s.dieOk 0 waitingGrid 0 = true ∧ 0 < (s.nextGang 0 waitingGrid).length := by
  decide +kernel
def distributed : State :=
  { waitingState with
    crews := [State.newCrew waitingGrid 0 0 0 0], gangs := [⟨0, 0, [0], 0, 0, 0, false, false⟩]
    grids := [{ waitingGrid with status := .live, nextCrew := 1 }] }
theorem witness_place : let s := distributed
    s.releaseOver.waitingGangs 0 = [0] ∧ (s.releaseOver.gangFit 0).isSome = true ∧ s.works = true ∧
    (s.releaseOver.gangs[0]?).isSome = true ∧ s.crews[0]?.map Crew.saveArea = some none ∧ Sparse.wf s.gens = true := by
  decide +kernel

/-- GraphEvents: a graph of two nodes at 0x4000, whose first node is of a kind; nodes as they stand. -/
def graphOf (started : Bool) (nodes : List NodeState) : Graph :=
  ⟨BitVec.ofNat 512 (2 * 2 ^ 60 + 0x4000), 0, 0, 0, 0, started, nodes, none, false⟩
def emptySuccessors : Nat := 2 ^ 384 - 2 ^ 256
def graphState (n0 n1 : Nat) (g : Graph) : State :=
  { base with
    graphs := [g]
    mem := ((base.mem.write 0x204000 [2]).write 0x204040 (leBytes 128 n0)).write 0x2040C0 (leBytes 128 n1) }
theorem witness_graph_starts : let g := graphOf false []
    let s := graphState emptySuccessors emptySuccessors g
    s.works = true ∧ s.activeGraph 0 = none ∧ s.nextGraph 0 = some 0 ∧ s.graphs[0]? = some g ∧
    s.walkerRead g (State.graphHeader g) 64 = some (some 2) ∧ 0 < fld 2 31 0 ∧ fld 2 31 0 ≤ 65535 ∧ fld 2 63 32 = 0 ∧
    fld 2 511 96 = 0 ∧ s.graphNodes g 2 = some ([emptySuccessors, emptySuccessors].map some) ∧
    graphBad [emptySuccessors, emptySuccessors] = false ∧ g.failed = none ∧
    startable [emptySuccessors, emptySuccessors] [.idle, .idle] 0 = true := by decide +kernel
/-- A graph whose one node is a COND in its own body; one without nodes; and one whose header, or whose first node, is
poisoned. -/
def selfNode : Nat := emptySuccessors + 5 + 2 ^ 144
theorem witness_graph_ends_at_start : let g := graphOf false []
    let s0 := graphState 0 0 g
    let s : State := { s0 with mem := (s0.mem.write 0x204000 [1]).write 0x204040 (leBytes 128 selfNode) }
    let s1 := (s.devWrite g.part (State.graphHeader g + 8) (leBytes 4 0xFFFF)).updGraph 0 fun G =>
      { G with started := true, nodes := List.replicate 1 .idle }
    let none0 : State := { s0 with mem := s0.mem.write 0x204000 [0] }
    let lost : State := { s0 with poison := [0x204000 / 64] }
    s.walkerRead g (State.graphHeader g) 64 = some (some 1) ∧ s.graphNodes g 1 = some ([selfNode].map some) ∧
    graphBad [selfNode] = false ∧ startable [selfNode] [.idle] 0 = false ∧ pktStamp g.packet % 8 = 0 ∧
    isWindow (pktStamp g.packet) = false ∧ pktRsc g.packet < 2 ∧
    (okOf (s1.xlat g.part (pktStamp g.packet) { write := true })).isSome = true ∧
    none0.walkerRead g (State.graphHeader g) 64 = some (some 0) ∧ lost.walkerRead g (State.graphHeader g) 64 = some none ∧
    (∀ x ∈ [none0, lost], x.works = true ∧ x.activeGraph 0 = none ∧ x.nextGraph 0 = some 0 ∧ x.graphs[0]? = some g ∧
      (okOf (x.xlat g.part (pktStamp g.packet) { write := true })).isSome = true) := by decide +kernel
theorem witness_graph_node_lost : let g := graphOf true [.idle, .idle]
    let s : State := { graphState emptySuccessors emptySuccessors g with poison := [0x204040 / 64] }
    s.works = true ∧ s.graphNow 0 = some (0, g, [State.lostNode, emptySuccessors]) ∧ g.failed = none ∧
    s.walkerBusy 0 < Config.walkerNodes ∧ g.nodes[0]? = some .idle ∧ s.nodeLost g 0 = true := by decide +kernel
theorem witness_graph_node_starts : let g := graphOf true [.done, .idle]
    let ns := [emptySuccessors, emptySuccessors]
    let s := graphState emptySuccessors emptySuccessors g
    s.works = true ∧ s.graphNow 0 = some (0, g, ns) ∧ g.failed = none ∧ 1 < ns.length ∧ startable ns g.nodes 1 = true ∧
    (∀ j < 1, startable ns g.nodes j = false) ∧ (∀ j < ns.length, s.nodeLost g j = false) ∧ s.walkerBusy 0 < Config.walkerNodes ∧
    (s.startNode 0 1 g (ns.getD 1 0)).isSome = true ∧ gnKind (ns.getD 1 0) = 0 := by decide +kernel
theorem witness_graph_condition : let n := 5 + 0x1000 * 2 ^ 64
    let g := graphOf true [.idle, .idle]
    let s := graphState n emptySuccessors g
    gnKind n = 5 ∧ isWindow (gnCw n) = false ∧ (okOf (s.readG g.part g.die (gnCw n) 8)).isSome = true := by decide +kernel
/-- A matrix node that clears a line of crew 0 of the grid that node 1 launched. -/
def matrixNode : Nat := 3 + 2 ^ 160 + (3 * 2 ^ 60) * 2 ^ 512
theorem witness_graph_matrix : let g := graphOf true [.waitCrew, .running]
    let ns := [matrixNode, 1]
    let s0 := graphState matrixNode 1 g
    let s := s0.updGrid 0 fun x => { x with node := some (0, 1) }
    s.graphNow 0 = some (0, g, ns) ∧ g.nodes.getD 0 .idle = .waitCrew ∧ s.nodeLost g 0 = false ∧ matrixCrew s 0 ns (ns.getD 0 0) = some (some 0) ∧
    s.crews[0]? = some (ctxOf base).cr ∧ mmCheck (ctxOf base).cr (gnPay (ns.getD 0 0)) = none ∧
    tileReady (tileTest (ctxOf base).cr (gnPay (ns.getD 0 0))) = true ∧ s.tableFull (clusterOf (ctxOf base).cr.core) = false := by
  decide +kernel
theorem witness_graph_results : ∀ st ∈ [1, 3], let g := graphOf true [.ended st, .idle]
    let ns := [emptySuccessors, emptySuccessors]
    let s := graphState emptySuccessors emptySuccessors g
    s.graphNow 0 = some (0, g, ns) ∧ g.nodes.getD 0 .idle = .ended st ∧ g.failed = none ∧
    ((s.nodeResult 0 0 g ns).any fun s1 => (s1.endGraph 0 ns).isSome) = true := by decide +kernel

/-- HostEvents: a virtual function with room for one more waiter, or none; the last bytes of a die's memory. -/
def hostState (waiters : Nat) : State :=
  { base with vfs := [⟨0, some 0, List.replicate waiters (8, 0), false, [1023]⟩], queues := [(1023, queueDescriptor)] }
theorem witness_host : ∀ n ∈ [255, 256], let s := hostState n
    vfOf s 0 = some (0, ⟨0, some 0, List.replicate n (8, 0), false, [1023]⟩) ∧ s.works = true ∧ qdPart (s.queue 1023) = 0 ∧
    qdEn (s.queue 1023) = true ∧ qdErr (s.queue 1023) = false ∧ 1023 < Config.queues ∧
    bitsOf (BitVec.ofNat 64 (63 * 2 ^ 56 + 0x10)) 2 0 = 0 ∧ bitsOf (BitVec.ofNat 64 (63 * 2 ^ 56 + 0x10)) 63 56 ≤ 63 := by
  decide +kernel
theorem witness_host_memory : physOk (7 * Config.dieStride + Config.dieBytes - 64) 64 = true ∧ physOk 0 0 = true := by
  decide +kernel

/-- PeerAndCollectiveEvents: payloads of two bytes, counted in the last doubleword of the mapped 2 MiB. -/
theorem witness_remote_payload : base.partOf 0 = some 0 ∧ (okOf (base.writeG 0 0x1000 [1, 2])).isSome = true ∧
    ((okOf (base.writeG 0 0x1000 [1, 2])).any fun s1 => (okOf ((s1.performed 0 3).readG 0 0 0x1FFFF8 8)).any fun bs =>
      (okOf ((s1.performed 0 3).writeG 0 0x1FFFF8 (leBytes 8 (leNat bs + 1)))).isSome) = true ∧ (0x1FFFF8 : BitVec 56) ≠ 0 ∧
    (okOf (base.xlat 0 0x1FFFE { write := true })).isSome = true ∧ 0x1FFFE % 65536 + 2 ≤ 65536 ∧ (base.part 0).at 97 1 = 0 ∧
    ((okOf (base.readG 0 0 0x1000 2)).any fun old => (okOf (base.writeG 0 0x1000 (tornBytes base.free old [1, 2]))).isSome) = true := by
  decide +kernel
theorem witness_torn : [(0 : Byte), 1, 2, 3, 4].length = [(5 : Byte), 6, 7, 8, 9].length ∧ (3 : Nat) / 4 = 0 / 4 := by decide
/-- Send queue 1 of the partition, at 0x5040, is a control queue to the peer 7. -/
def peerState : State :=
  let s := base.updPart 0 fun P => P.setAt 72 7 0x5000
  { s with mem := s.mem.write 0x205040 [2, 0, 1, 0, 7] }
theorem witness_registration :
    registrationBad peerState 0 7 (BitVec.ofNat 256 (0x1FFFF8 + 2 ^ 128 + 2 ^ 144)) = false ∧ peerState.partOf 0 = some 0 ∧
    0 < peerState.parts.length ∧ registrationBad peerState 0 7 0 = true ∧
    registrationBad peerState 0 8 (BitVec.ofNat 256 (0x1FFFF8 + 2 ^ 128 + 2 ^ 144)) = true := by decide +kernel
theorem witness_peer_wake : base.partOf 0 = some 0 ∧ (okOf (base.writeG 0 0x1FFFF8 (leBytes 8 1))).isSome = true ∧
    0x1FFFF8 % 8 = 0 ∧ (okOf (base.xlat 0 0x1FFFF8 { write := true })).isSome = true ∧ (base.part 0).at 97 1 = 0 ∧
    (base.part 0).peerRegs = [] ∧ (base.vfs.all fun f => f.waiters.isEmpty) = true := by decide +kernel
/-- One ring at 0x6000, of one command, whose TAIL was written. -/
def ringState (tail : Byte) : State :=
  let s := base.updPart 0 fun P => (P.setAt 88 7 0x5800).setAt 97 1 1
  { s with mem := (s.mem.write 0x205801 [0x60]).write 0x206000 [tail], rung := [(0, 0)] }
theorem witness_ring : ∀ tail ∈ [1, 2], let s := ringState tail
    let h := tail.toNat
    s.works = true ∧ (s.part 0).up = true ∧ 0 < (s.part 0).at 97 1 ∧ (0, 0) ∈ s.rung ∧ s.ringHeader 0 0 = 0x6000 ∧
    s.devNat 0 (s.ringHeader 0 0) 64 = some h ∧ BitVec.ofNat 64 h ≠ Sparse.get s.tails 0 ∧ fld h 143 136 = 0 ∧ fld h 135 128 ≤ 12 ∧ fld h 511 144 = 0 ∧
    (fld h 63 0 + 2 ^ 64 - fld h 127 64) % 2 ^ 64 = h ∧ 2 ^ fld h 135 128 = 1 := by decide +kernel
theorem witness_ring_quiet : (0, 0) ∉ base.rung ∧ (ringState 1).devNat 0 (0x6000 + 8) 8 = some 0 ∧
    (ringState 1).devNat 0 (0x6000 + 64) 64 = some 0 := by decide +kernel
/-- A sum, minimum or maximum of one FP32 element from 0 to 0x10000 over communicator 0, at 0x5C00, whose staging area
is 0x7000 and whose PEERS table, at 0x5D00, names send queue 1 for rank 0. -/
def collCommand (kind : Nat) : BitVec 512 := BitVec.ofNat 512 (0x10000 * 2 ^ 64 + 2 ^ 192 + kind * 2 ^ 272)
def commState (rank ranks : Nat) : State :=
  let s := base.updPart 0 fun P => (P.setAt 80 7 0x5C00).setAt 72 7 0x5000
  let d := ranks + rank * 2 ^ 32 + 0x5D00 * 2 ^ 64 + 0x7000 * 2 ^ 128 + 0x10000 * 2 ^ 192 + 2 ^ 256
  { s with mem := ((s.mem.write 0x205C00 (leBytes 64 d)).write 0x205D00 [1]).write 0x205040 [0, 0, 1] }
def collOf (kind rank ranks : Nat) (sent : Bool) (root : Option (List Word)) (inbox : List (Nat × CollMsg)) : CollOp :=
  ⟨0, 0, collCommand kind, 0, rank, ranks, inbox, none, 0, sent, root, [], none, false, 0⟩
def collState (op : CollOp) : State := { commState op.rank op.ranks with colls := [op], collSeqs := [(0, 1)] }
theorem witness_command : ccReject (commState 0 1) 0 (collCommand 0) = false ∧
    communicator (commState 0 1) 0 0 = some ⟨1, 0, 0x5D00, 0x7000, 0x10000, 1⟩ ∧ (commState 0 1).collEarly = [] := by decide +kernel
theorem witness_node_values : Num.decodeF Num.fp32 0x3F800000 = .fin false 1 ∧ Num.decodeF Num.fp32 0x40000000 = .fin false 2 ∧
    Num.decodeF Num.bf16 0x7FC0 = .nan ∧ Num.decodeF Num.bf16 0 = .fin false 0 ∧ (1 : Rat) + 2 ≠ 0 ∧ (1 : Rat) < 2 := by
  decide +kernel
/-- Rank 0 of two has the child 1; rank 1 of two has the parent 0. -/
def twoRanks (kind : Nat) : CollOp := collOf kind 0 2 false none [(1, .node 1 kind 0 [0x3F800000] 0)]
theorem witness_collective_reduces : ∀ kind ∈ [0, 1, 2], ∀ op ∈ [twoRanks kind, collOf kind 1 2 false none []],
    let s := collState op
    kind ≤ 2 ∧ s.colls[0]? = some op ∧ ccOp op.cmd = kind ∧ op.sent = false ∧ op.outcome = none ∧ s.collFirst 0 op = true ∧
    ((okOf (s.readG op.part 0 (ccSrc op.cmd) (4 * ccCount op.cmd))).any fun bs =>
      (op.fold op.children (contribution (ccWire op.cmd) bs)).isSome) = true ∧
    (okOf (s.writeG op.part (((communicator s op.part (ccComm op.cmd)).map Comm.stage).getD 0)
      ((List.range (2 * ccCount op.cmd * wireBytes (ccWire op.cmd))).map fun j => Config.stageByte (s.free + j)))).isSome = true ∧
    (op.children.all fun r => (op.nodeFrom r).isSome) = true ∧ 0 < ccCount op.cmd ∧
    ccSrc op.cmd % 65536 + 4 * ccCount op.cmd ≤ 65536 ∧ (okOf (s.xlat op.part (ccSrc op.cmd) {})).any (fun g => !s.poisonedOn 0 g 4) = true ∧
    (communicator s op.part (ccComm op.cmd)).any (fun d => decide (d.stage % 65536 + 8 ≤ 65536) &&
      (okOf (s.xlat op.part d.stage { write := true })).isSome) = true := by decide +kernel
theorem witness_collective_messages : let op := collOf 0 1 2 true (some [0]) [(0, .commit)]
    let w := collOf 0 1 2 true none []
    (collState op).partOf 0 = some 0 ∧ collAt (collState op) 0 0 0 = some 0 ∧ (collState op).colls[0]? = some op ∧
    op.outcome = none ∧ op.rank ≠ 0 ∧ w.has 0 .commit = false ∧ collAt (collState op) 0 0 1 = none ∧
    collsTaken (collState op) 0 0 = 1 ∧ (0 : Nat) < op.ranks ∧ 0 ≠ op.rank ∧
    rankRoute (collState op) 0 0 0 = some ⟨1, 0, 0⟩ ∧ (collState op).devNat 0 0x5D00 2 = some 1 ∧
    ((collState op).sendQueue 0 1).isSome = true := by decide +kernel
theorem witness_collective_ends : let op := collOf 0 1 2 true (some [0]) [(0, .commit)]
    let w := collOf 0 1 2 true none []
    let s := collState op
    let bs := [(0 : Word)].flatMap fun v => leBytes (wireBytes (ccWire op.cmd)) v.toNat
    s.colls[0]? = some op ∧ op.outcome = none ∧ op.root = some [0] ∧ op.has 0 .commit = true ∧
    (okOf (s.writeG op.part (ccDst op.cmd) bs)).isSome = true ∧ ccDst op.cmd % 65536 + bs.length ≤ 65536 ∧
    (okOf (s.xlat op.part (ccDst op.cmd) { write := true })).any (fun g =>
      (okOf ((s.physWrite g bs).xlat op.part (ccStamp op.cmd) { write := true })).isSome) = true ∧
    isWindow (ccStamp op.cmd) = false ∧ ccStamp op.cmd % 8 = 0 ∧ ccRsc op.cmd < 2 ∧ w.outcome = none ∧ w.root = none ∧
    w.waitsFor 0 = true ∧ (collState w).collFirst 0 w = true ∧
    (communicator (collState w) 0 0).any (fun d => decide (d.timeout < 2)) = true := by decide +kernel
theorem witness_tree_ranks : (1 : Nat) ≤ 4096 ∧ (4095 : Nat) < 4096 ∧ (0 : Nat) < 1 ∧ 2 ^ 11 < 4096 ∧ 4096 ≤ 2 ^ (11 + 1) := by decide

/-- Starts: a module after reset, or with a training record, starts with images that the fuses' key signed; one start
earlier failed three times. -/
def goodImage : Image := ⟨Config.agoicoKey, 1, Config.imageSig Config.agoicoKey 1⟩
def goodPart : PartSetup := ⟨BitVec.ofNat 1024 (2 ^ 64 + 2 ^ 192 + 0xFFFF * 2 ^ 896), goodImage, none, true, 3, [(255, [1023])]⟩
def goodSetup : StartSetup := ⟨List.replicate 8 goodImage, 9, [goodPart]⟩
theorem goodImage_ok : imageOk none goodImage = true := by simp [imageOk, goodImage, Config.verifies]
theorem witness_start : mayStart goodSetup State.reset = true ∧ failsAt none goodSetup = none ∧
    mustBeCold State.reset.module = false ∧ recordHolds true State.reset.module = false ∧
    rejects [goodPart] 0 goodPart = false := by
  refine ⟨by decide +kernel, ?_, by decide +kernel, by decide +kernel, by decide +kernel⟩
  simp [failsAt, goodSetup, goodImage_ok]
theorem witness_warm_start : let m : Module := { Module.reset with record := some ⟨9, Config.recordSig 9⟩ }
    mayStart goodSetup { State.reset with module := m } = true ∧ mustBeCold m = false ∧ recordHolds true m = true :=
  ⟨by decide +kernel, by decide +kernel, by simp [recordHolds]⟩
theorem witness_failed_starts : mustBeCold { Module.reset with sf := 3 } = true ∧ failsAt none { goodSetup with firmware := [] } ≠ none ∧
    mayStart { goodSetup with firmware := [] } State.reset = true ∧ State.reset.module.record = none ∧
    State.reset.module.state = .starting ∧ State.reset.module.underWay = none ∧ (6 : Nat) < 7 ∧
    ({ Module.reset with underWay := some false }).underWay = some false ∧
    ({ Module.reset with underWay := some true }).state = .starting ∧ base.module.state ≠ .failed ∧
    ({ State.reset with module := { Module.reset with state := .failed } }).module.state = .failed := by
  refine ⟨by decide +kernel, by simp [failsAt], by decide +kernel, rfl, rfl, rfl, by decide, rfl, rfl, by decide +kernel, rfl⟩
theorem witness_partition : [goodPart][0]? = some goodPart ∧ (255, [1023]) ∈ goodPart.vfs ∧
    bitsOf goodPart.ctx 127 64 &&& bitsOf goodPart.ctx 127 64 ≠ 0 ∧ bitsOf (0 : BitVec 1024) 127 64 = 0 ∧
    ∀ i ≤ 32, bitsOf (0 : BitVec 1024) 223 192 ≠ 2 ^ i := ⟨rfl, by simp [goodPart], by decide +kernel, by decide +kernel, fun i _ => by
      have h : bitsOf (0 : BitVec 1024) 223 192 = 0 := by decide +kernel
      have := Nat.two_pow_pos i
      omega⟩

/-- ErrorEvents: a first error, the ninth in a window, and the third at an address. -/
def counted (n addr : Nat) : List SoftCount := [⟨.memoryBlock 0x10000, 0, n, List.replicate 2 addr⟩]
theorem witness_soft_errors : (countSoft [] (.memoryBlock 0x10000) 5 0).2 = false ∧
    (countSoft (counted 8 9) (.memoryBlock 0x10000) 5 (2 ^ 30 - 1)).2 = true ∧
    (countSoft (counted 2 5) (.memoryBlock 0x10000) 5 0).2 = true ∧ 0x10000 / 65536 ∉ base.module.pagesDue ∧
    0x10000 / 65536 ∉ base.module.pagesOut ∧ (counted 8 9).find? (fun c => c.unit == .memoryBlock 0x10000 &&
      c.window == (2 ^ 30 - 1) / 2 ^ 30) = some ⟨.memoryBlock 0x10000, 0, 8, [9, 9]⟩ := by decide +kernel
theorem witness_core_withdrawn : let s := base.updCore 0 fun co => { co with withdrawn := true }
    s.crews[0]? = some (ctxOf s).cr ∧ (ctxOf s).cr.status = .resident ∧ (s.core (ctxOf s).cr.core).withdrawn = true := by
  decide +kernel
theorem witness_clock : ∀ n ∈ [1, 16], 1 ≤ ({ Module.reset with clock := n }).clock ∧ ({ Module.reset with clock := n }).clock ≤ 16 := by
  decide

/-- Checkpoints: nothing runs after reset; a tier that holds a byte. -/
def tierState : State := { State.reset with tiers := [⟨7, none, [(5, 1)], [], [], [], [], [], [], []⟩] }
theorem witness_checkpoint : quiet tierState none = true ∧
    tierState.tiers.find? (fun t => t.tier == 7 && t.part == none) = some ⟨7, none, [(5, 1)], [], [], [], [], [], [], []⟩ ∧
    tierState.mem.wf = true ∧ Memory.wf [(5, 1)] = true := by decide +kernel
theorem witness_health : Module.reset.sf < 16 ∧ ({ Module.reset with sf := 15, cf := 15 }).cf < 16 := by decide

/-! ### Claims about the machine as a whole -/

def isNext (o : Out) : Bool :=
  match o with
  | .next _ => true
  | _ => false
/-- The state of `base` before the turn of its word. -/
def wordState (w : Nat) : State := State.reset.withFetchWord 32 w
theorem isNext_of {o : Out} (h : isNext o = true) : ∃ t, o = .next t := by
  cases o <;> simp_all [isNext]

/-- StepRunsDecodedWord: a NOP is fetched and decoded; zero is no instruction; an event; a cycle's end; no turn given. -/
theorem witness_step_word : ∀ w ∈ [0x72000000, 0], let s := wordState w
    let s1 := atSlot 0 0 { s with agenda := [] }
    s.agenda = [.word 0 0] ∧ s.works = true ∧ s1.ctx? = some (ctxOf s1) ∧ okOf (fetchWord s1 (ctxOf s1)) = some w ∧
    (s1.core 0).faults = [] ∧ (s.core 0).lastSlot = none := by decide +kernel
theorem witness_step_decodes : decode (BitVec.ofNat 32 0x72000000) = some (.nop false) ∧ decode (BitVec.ofNat 32 0) = none :=
  ⟨rfl, rfl⟩
theorem witness_step_event : Instr.isWord .reset = false ∧ (∀ w, Instr.reset ≠ .unassignedWord w) ∧
    ({ base with agenda := [.event .reset] }).agenda = [.event .reset] := ⟨rfl, by intro w; simp, rfl⟩
theorem witness_own_turn : base.agenda = [] ∧ ownTurn base = some (.endCycle 0) ∧ ownTurn State.reset = none ∧
    State.reset.agenda = [] ∧ ({ base with agenda := [.endCycle 0] }).works = true := by decide +kernel

/-- FetchReadsMemory: at the last word of the mapped 2 MiB, and in a window. -/
def fetchState (a : BitVec 56) : State := stateOf (fun g => { g with addr := a }) id
theorem witness_fetch_memory : let s := fetchState 0x1FFFFC
    let c := ctxOf s
    isWindow c.addr.toNat = false ∧ s.fillFor c.ci (c.place c.lead) c.addr.toNat false = none ∧
    s.xlat c.cr.part c.addr.toNat { fetch := true } = .ok (pageIn s { fetch := true } 0x1FFFFC) ∧
    s.poisonedOn (dieOf (ctxOf s).core) (pageIn s { fetch := true } 0x1FFFFC) 4 = false :=
  ⟨by decide +kernel, by decide +kernel, ok_of (by decide +kernel), by decide +kernel⟩
theorem witness_fetch_window : isWindow (ctxOf (fetchState 0xF0000000000000)).addr.toNat = true := by decide +kernel

/-- WordTraps: conditions 1 to 4 of R99, a stall, and the fates of words that are no instruction. -/
theorem witness_word_traps :
    (let s := hintState 24 id
     s.ctx? = some (ctxOf s) ∧ wordTrap (Instr.nop false).info (ctxOf s) = some .illegalInstruction) ∧
    base.ctx? = some (ctxOf base) ∧ wordTrap (Instr.iadd false false 16 61 6).info (ctxOf base) = some .illegalOperand ∧
    (let s := alone fun cr => { cr with packet := smallPacket }
     wordTrap (Instr.iadd false false 16 4 6).info (ctxOf s) = some .resource) ∧
    wordTrap (Instr.iadd false false 16 56 6).info (ctxOf base) = some .staleLatch := by decide +kernel
theorem witness_word_stalls : let s : State := { base with arrivals := [⟨0, 0, [(6, ⟨0, [0]⟩)], 0, 1, []⟩] }
    s.ctx? = some (ctxOf s) ∧ wordTrap (Instr.iadd false false 16 4 6).info (ctxOf s) = none ∧
    stalls (Instr.iadd false false 16 4 6).info s (ctxOf s) = true ∧ Instr.isWord (.iadd false false 16 4 6) = true ∧
    Instr.isHint (.iadd false false 16 4 6) = false := by decide +kernel
theorem witness_unassigned : (0 : Word).extractLsb' 25 6 ≠ 0x26#6 ∧ (0 : Word).extractLsb' 25 6 ≠ 0x3F#6 ∧
    (0x7FF00000 : Word).extractLsb' 25 6 = 0x3F#6 ∧ (0x4C008000 : Word).extractLsb' 25 6 = 0x26#6 ∧
    (0x4C008000 : Word).getLsbD 15 = true ∧ (0x4C008000 : Word).getLsbD 24 = false ∧ (hintState 23 id).curGroup?.isSome = true := by
  decide +kernel

/-- DecodeEncode and EncodeDecode: well-formed instructions, decoded words, and an event. -/
theorem witness_well_formed : Instr.wf (.iadd true false 55 59 62) = true ∧ Instr.wf (.bra (-1)) = true ∧
    Instr.isWord .thermalTrip = false := by decide +kernel

/-- DecodeSamples: words of an unassigned major opcode, and a hint of SUB 6. -/
theorem witness_unassigned_opcode : (0x16000000 : Word).extractLsb' 25 6 = 0x0B#6 ∧ (0x7F600000 : Word).getLsbD 24 = true ∧
    6 ≤ ((0x7F600000 : Word).extractLsb' 20 4).toNat := by decide

/-- StepKeepsMemoryForm: the step of a word. -/
theorem runWord_ok {core slot w : Nat} {i : Instr} {s : State} {c : Ctx} (hw : s.works = true)
    (hc : (atSlot core slot s).ctx? = some c) (hn : c.g.count < 24) (hf : fetchWord (atSlot core slot s) c = .ok w)
    (hd : decode (BitVec.ofNat 32 w) = some i) :
    runWord core slot s = exec i (fetched c (atSlot core slot s)) := by
  have hn' : ¬ Config.runWords ≤ c.g.count := by simp only [Config.runWords]; omega
  simp only [runWord, hw, hc, hn', hf, runDecoded, hd, Bool.not_true, Bool.false_eq_true, if_false]
def quietState : State := { wordState 0x72000000 with agenda := [] }
theorem quiet_next : isNext (exec (.nop false) (fetched (ctxOf (atSlot 0 0 quietState)) (atSlot 0 0 quietState))) = true := by
  decide +kernel
theorem witness_step_formed : (wordState 0x72000000).formed ∧ ∃ t, step (wordState 0x72000000) = .next t := by
  refine ⟨⟨by decide +kernel, by decide +kernel⟩, isNext_of ?_⟩
  rw [show step (wordState 0x72000000) = runWord 0 0 quietState from rfl,
    runWord_ok (by decide +kernel) (c := ctxOf (atSlot 0 0 quietState)) (by decide +kernel) (by decide +kernel) (ok_of (by decide +kernel))
      witness_step_decodes.1]
  exact quiet_next

/-- LaneWordsKeepMemory. -/
theorem witness_lane_word : Instr.inLanes (.nop false) = true ∧ base.ctx? = some (ctxOf base) ∧
    ∃ t, exec (.nop false) base = .next t := ⟨by decide +kernel, by decide +kernel, isNext_of (by decide +kernel)⟩

/-- RegisterFrames: a wide result, a result in Q3, and a block result, each of a word of its lanes. -/
theorem witness_register_frames : ∀ x ∈ [(Instr.iadd64 false false 16 4 6, Use.dst true false 16), (.pand false 3 1 2, .idx 8 3),
      (.gets false 16 0, .block 1 1 16)],
    x.1.inLanes = true ∧ x.1.uses.head? = some x.2 ∧ ready base x.1 = true ∧
    isNext (exec x.1 base) = true ∧ (ctxOf base).cr.lanes[0]? = some ((ctxOf base).lane 0) := by
  decide +kernel

/-! ### More about engines, launches, queues and rays: one state for each clause not met above -/

/-- The page at 0 is one of 2 MiB. -/
theorem witness_big_page : base.crews[0]? = some (ctxOf base).cr ∧
    walk base.mem 0x1FFFFF levels (base.part 0).root = .page ⟨0x3FFFFF, false, false, none, true, true, false, true⟩ := by
  decide +kernel

/-- TileWords: PREF of the last byte that is mapped, and of one that is not. -/
theorem witness_prefetch : let s := aloneRegs [(4, 0x1FFFFF)]
    let c := ctxOf s
    let u := aloneRegs [(4, 0x200000)]
    let g : Nat → Page := fun t => pageIn s {} (c.ea t 4 60)
    WordReady (.pref false 4 60) s c ∧ PlainAccess s c ∧ poolShort s c (fun t => oneBlock (c.ea t 4 60)) = false ∧
    (∀ t < 16, c.exec t = true → reaches s c (c.ea t 4 60) 1 {} (g t)) ∧ WordReady (.pref false 4 60) u (ctxOf u) ∧
    ∀ t < 16, (ctxOf u).exec t = true →
      (okOf (u.globalPage (ctxOf u).ci ((ctxOf u).place t) ((ctxOf u).ea t 4 60) {})).isNone = true := by
  intro s c u g
  exact ⟨wordReady_of (by decide +kernel), plain_of (by decide +kernel), by decide +kernel,
    only_lane0 (by decide +kernel) (reaches_of (s := s) (by decide +kernel)), wordReady_of (by decide +kernel), by decide +kernel⟩

/-- MonitorWaits: a crew without monitor entries. -/
theorem witness_no_monitors : let s := alone fun cr => { cr with packet := setBits cr.packet 151 143 0 }
    WordReady (.mwait 16 4 6 1 1 1) s (ctxOf s) ∧ pktMon (ctxOf s).cr.packet = 0 ∧ (ctxOf s).distinct = true ∧
    (ctxOf s).allThreads = true := ⟨wordReady_of (by decide +kernel), by decide +kernel, by decide +kernel, by decide +kernel⟩

/-- MailboxWords: the one slot of the mailbox awaits the put, or the take. -/
theorem witness_mailbox_single : ∀ p ∈ [true, false], let s := mboxState (if p then 0 else 1)
    let c := mboxCtx (if p then 0 else 1)
    let cr := c.cr
    (∀ u < 16, c.active u = decide (u = 0)) ∧ c.adr 4 0 % 16 = 0 ∧ c.adr 4 0 < 2 ^ 56 ∧ isWindow (c.adr 4 0) = true ∧
    okOf (s.window c.ci (c.adr 4 0)) = some ⟨0, 0, 0⟩ ∧ s.crews[0]? = some cr ∧ cr.scratch.wf = true ∧
    cr.scratch.nat 0 4 = 2 ^ 0 ∧ cr.scratch.nat 12 4 = 0 ∧ 0 + 16 + 16 * 2 ^ 0 ≤ cr.alloc ∧
    cr.meetsQueue 0 (16 + 16 * 2 ^ 0) = false ∧ cr.scratch.nat (if p then 4 else 8) 4 = 0 ∧
    cr.meetsQueue 16 16 = false ∧ BitVec.ofNat 32 (cr.scratch.nat 24 4) = (if p then (0 : Word) else 0 + 1) := by decide +kernel

/-- RayAndPairWords: 256 rays are in the unit. -/
theorem witness_trace_parks : let s : State := { rayState 1 [(4, 65408)] with rays := (List.range 256).map fun i =>
      ⟨0, 1, 128 * i, 0, 0, true, none, none, false, .walk, 0, 0⟩ }
    let c := ctxOf s
    WordReady (.trace 16 4 6) s c ∧
    ∀ put, ∀ t < 16, c.active t = true → let s' := dropGrant c (metBy c true c.active put s t) t
      s'.rayFlying c.ci (c.r32 t 4).toNat = false ∧ s'.freeSlots c.core = 0 := by
  intro s c
  exact ⟨wordReady_of (by decide +kernel), fun put => only_lane0 (by decide +kernel)
    (show (dropGrant c (setPcs c s) 0).rayFlying _ _ = false ∧ (dropGrant c (setPcs c s) 0).freeSlots _ = 0 by decide +kernel)⟩

/-- LaunchWords: a queue of one record at 0x100000. -/
def recordState : State :=
  let s := dispenserState (1 + 0x100000 * 2 ^ 256)
  { s with mem := s.mem.write 0x300000 [1] }
theorem witness_record : let s := recordState
    let h := pageIn s { write := true } 0x100000
    let y := leNat (s.physRead (dieOf (s.coreOf 0)) h 64)
    s.globalPage 0 0 0x100000 { write := true } = .ok h ∧ s.poisonedOn (dieOf (s.coreOf 0)) h 64 = false ∧ recordQueueBad y = false ∧ fld y 127 64 < fld y 63 0 ∧
    (okOf (geyserRead s 0 0 (0x100000 + 64 + 16 * (fld y 127 64 % 2 ^ fld y 135 128)) 16)).isSome = true ∧
    dispKind (leNat (s.physRead (dieOf (s.coreOf 0)) (pageIn s { write := true, kindOk := plainPage } 0) 64)) = 1 := by
  intro s h y
  exact ⟨ok_of (by decide +kernel), by decide +kernel, by decide +kernel, by decide +kernel, by decide +kernel⟩
theorem witness_fetch_single : let s := dispenserState (indexSpace 0)
    let c := ctxOf s
    WordReady (.fetchw 16 4 1) s c ∧ (∀ u < 16, c.active u = decide (u = 0)) ∧
    reaches s c (c.adr 4 0) 64 { write := true, kindOk := plainPage } (pageIn s { write := true, kindOk := plainPage } 0) :=
  ⟨wordReady_of (by decide +kernel), by decide +kernel, reaches_of (by decide +kernel)⟩

/-- PickerAndArrivals: one ready thread, at the start of a cycle, whose lowest free slot is 1; no ready thread; a cycle
under way; a slot that is not the lowest free one; a result on its way. -/
theorem witness_pick1 : let s := readyState.updCore 0 fun co => { co with lastSlot := none }
    oldest (readyOn s 0) = some ⟨7, 0, 0, 0x1000⟩ ∧ s.crews[0]? = some (s.crews.headD (ctxOf base).cr) ∧ 0 < s.cores.length ∧
    (s.core 0).slots[1]? = some none ∧ s.works = true ∧ (s.core 0).lastSlot = none ∧ (s.core 0).slots[0]? ≠ some none ∧
    readyOn base 0 = [] ∧ (base.core 0).lastSlot.isSome = true ∧ (base.core 0).slots[1]? = some none := by decide +kernel

/-- WaitsMet: the one slot of a mailbox; accesses of the last accumulator slot, and of V0 in a lane that runs nothing. -/
theorem witness_mailbox_slot : let s := mboxParked 0 true
    let x := (ctxOf s).cr
    isWindow 0xF8000000000000 = true ∧ okOf (s.window 0 0xF8000000000000) = some ⟨0, 0, 0⟩ ∧ s.crews[0]? = some x ∧
    0 < x.scratch.nat 0 4 % 2 ^ 13 ∧ 0 + 16 + 16 * (0 % 1) + 16 ≤ x.alloc ∧ x.meetsQueue 16 16 = false := by decide +kernel
def heldAt (addr : Nat) (write : Bool) : State := withThread fun th =>
  { th with run := .parked .window, held := [⟨addr, write, 5, none, false, 0⟩] }
theorem witness_window_slot : ∀ w ∈ [true, false], let a : Nat := 0xFB000000000000 + 15 * 2048 + 2040
    let s := heldAt a w
    okOf (s.window 0 a) = some ⟨3, 0, 15 * 2048 + 2040⟩ ∧ fld a 50 48 = 3 ∧ s.crews[0]? = some (ctxOf s).cr ∧
    (15 * 2048 + 2040) / 2048 < pktAccum (ctxOf s).cr.packet ∧ s.lineInFlight 0 15 = false ∧
    (s.thread? 0 0).map Thread.run = some (.parked .window) := by decide +kernel
theorem witness_window_register : let a : Nat := 0xF9000000000000 + 60
    let s := heldAt a true
    okOf (s.window 0 a) = some ⟨1, 0, 60⟩ ∧ fld a 50 48 = 1 ∧ kind1Place (ctxOf s).cr 60 = some (15, 0, 0) ∧
    s.inGroup 0 15 = false := by decide +kernel

/-- FaultAndTrapEvents: a block that a fill brings, and a trapped thread whose crew is being pre-empted. -/
theorem witness_fill : let s := faulted (.parked (.fault 8 false)) 0
    (okOf (s.xlat (ctxOf s).cr.part (64 * (8 / 64)) { device := true })).any (fun g => !s.poisonedOn (dieOf (ctxOf s).core) g 64) = true := by
  decide +kernel
theorem witness_action_waits : let s := (faulted .held 0).updCrew 0 fun cr => { cr with preempt := some ⟨0, none, false, false, false, false⟩ }
    s.crews[0]?.map (fun cr => (cr.status, cr.preempt.map Preempt.asked)) = some (.resident, some false) ∧
    (s.thread? 0 0).map (fun th => (th.run, th.trap.map TrapRec.held)) = some (.held, some true) ∧ s.trapActions = [] := by
  decide +kernel

/-- JoinerBatches: no later slot of the cycle is occupied; and a batch that stays open; and a cycle that is not at its end. -/
theorem witness_cycle_end : (base.core 0).lastSlot = some 0 ∧ ((base.core 0).slots.drop 1).all Option.isNone = true ∧
    (let s := stateOf id fun cr => { cr with batch := some (batchOf 0 1) }
     (batchOf 0 1).threads.length < 256 ∧ (s.core 0).lclk.toNat < (batchOf 0 1).opened + 64 ∧
     (ctxOf s).cr.preempt = none ∧ ((ctxOf s).cr.lanes.any fun l => l.thread?.any fun th => th.run == .running) = true) ∧
    (State.reset.core 0).lastSlot = none := by decide +kernel

/-- PreemptionAndReturn: a crew under pre-emption, whose thread runs, or is saved. -/
def preemptee (run : RunState) : State := (alone fun cr => { cr with
    packet := smallPacket, preempt := some ⟨0, some 0x8000, false, false, false, false⟩ }).updThread 0 0 fun th => { th with run := run }
theorem witness_preemption : let s := preemptee .running
    s.crews[0]?.map (fun cr => (cr.status, cr.preempt)) = some (.resident, some ⟨0, some 0x8000, false, false, false, false⟩) ∧
    s.xpairs = [] ∧ s.rays = [] ∧ s.monitors = [] ∧ (s.thread? 0 0).isSome = true ∧ gangCrews s 0 = [0] ∧
    readyToLeave s 0 = false := by decide +kernel
theorem witness_save_done : let s := preemptee .saved
    gangCrews s 0 = [0] ∧ (s.crews[0]?).any (fun cr => allSaved s 0 cr && (writeArea cr.part 0x8000 cr.sections s).isSome) = true ∧
    s.trapActions = [] ∧ s.regWrites = [] := by decide +kernel
/-- The crew's area holds zeros but for its version, or a STATE that is reserved. -/
theorem witness_resume_gang : ∀ v ∈ [3, 4], let s0 := resumingState
    let s : State := { s0 with mem := s0.mem.write 0x208000 [v] }
    (s.gangs[(ctxOf s).cr.gang]?).map Gang.crews = some [0] ∧ (s.crews[0]?).map Crew.regions = some [] ∧
    resumingCrews s 0 = [0] ∧ (areasOf s (resumingCrews s 0)).any (fun l => l.any fun x => areaBad smallPacket x.2) = decide (v = 4) := by
  decide +kernel
theorem witness_save_points : let s := preemptee .running
    let t (run : RunState) : Thread := { baseThread with run := run }
    (∀ r ∈ [RunState.ready 0, .parked .monitor], (t r).run ≠ .running ∧ (t r).run ≠ .trapping ∧ (t r).run ≠ .held ∧
      (t r).run ≠ .saved) ∧ (t (.ready 0)).region = none ∧ s.outstanding 0 0 = false ∧
    ({ baseThread with region := some ⟨0x1000, 1, 1, 0, 0, 0⟩ } : Thread).region.isSome = true := by decide +kernel

/-- CopyEvents: a word of the scratchpad to the next; a word of memory to another; a payload for send queue 1. -/
def padCommand : Nat := 2 ^ 200 + 2 * 2 ^ 120 + 4 * 2 ^ 64 + 2 * 2 ^ 56
theorem witness_copy_turns : let s := padded [(65540, [1])] []
    (ctxOf s).cr.status = .resident ∧ clusterOf (ctxOf s).cr.core = 0 ∧ 0 < (ctxOf s).cr.queued ∧ pktQN (ctxOf s).cr.packet ≠ 0 ∧
    s.copiesOf 0 (some 0) < 8 ∧ s.copiesOf 0 none < 64 ∧ (s.cluster 0).copyNext = 0 := by decide +kernel
theorem witness_copy_pad : let op := copyOf padCommand none
    let c := op.cmd
    let s := copying padCommand none
    let cr := (ctxOf base).cr
    s.copies[0]? = some op ∧ op.outcome = none ∧ op.sent = none ∧ op.node = none ∧ op.crew = some 0 ∧ s.crews[0]? = some cr ∧
    op.info.xqn = false ∧ op.info.refusedTile = false ∧ cmdSk c = 2 ∧ cmdDk c = 2 ∧ cmdXf c = 0 ∧ bitsOf c 126 123 = 0 ∧
    bitsOf c 63 59 = 0 ∧ cmdNw c = 1 ∧ cmdFmt c = 0 ∧ cmdSrc c = 0 ∧ cmdDst c = 4 ∧ 4 + 4 * 1 ≤ cr.alloc ∧
    cr.meetsQueue 0 4 = false ∧ cr.meetsQueue 4 4 = false ∧ pktQN cr.packet ≠ 0 ∧ s.moves.drop op.since = [] ∧
    cr.scratch.wf = true ∧ bitsOf cr.mode 4 3 = 0 ∧ isWindow (cmdStamp c) = false ∧ cmdStamp c % 8 = 0 ∧ cmdRsc c < 2 ∧
    (okOf (s.xlat op.part (cmdStamp c) { write := true })).isSome = true := by decide +kernel
theorem witness_copy_memory : let op := copyOf oneWord none
    let c := op.cmd
    let s := copying oneWord none
    op.info.xqn = false ∧ cmdSk c = 0 ∧ cmdDk c = 0 ∧ cmdXf c = 0 ∧ isWindow (cmdSrc c) = false ∧ isWindow (cmdDst c) = false ∧
    s.moves.drop op.since = [] ∧ s.mem.wf = true ∧ cmdNw c = 1 ∧
    (okOf (s.xlat op.part (cmdSrc c) {})).any (fun f => !s.poisonedOn op.die f 4 && !f.typed && !f.replicated &&
      f.pa == 0x200000) = true ∧
    (okOf (s.xlat op.part (cmdDst c) { write := true })).any (fun g => !g.replicated && g.pa == 0x200100) = true := by
  decide +kernel
theorem witness_expand : Num.eltOf (Num.descFmt 1) = some (.flt Num.e4m3) ∧ (Num.Elt.flt Num.e4m3) ≠ .raw ∧
    (expandBlock .rne 1 (List.replicate 16 0)).isSome = true ∧ Num.descFmt 0x0100 = 0 := by decide +kernel
theorem witness_payload : let op := { copyOf (2 ^ 200 + 3 * 2 ^ 120 + (2 ^ 48 + 12) * 2 ^ 64 + 2 * 2 ^ 56) none with
      info := ⟨true, false, 0, 0, 0, 0, 0⟩ }
    let s0 := base.updPart 0 fun P => P.setAt 72 7 0x5000
    let s : State := { s0 with mem := s0.mem.write 0x205040 (leBytes 64 (2 ^ 16 + 16 * 2 ^ 192)), copies := [op] }
    s.copies[0]? = some op ∧ op.info.xqn = true ∧ cmdSk op.cmd = 2 ∧ cmdXf op.cmd = 0 ∧ s.sendWaits 0 op = false ∧
    s.sendQueue op.part (fld (cmdDst op.cmd) 55 48) = some (2 ^ 16 + 16 * 2 ^ 192) ∧ fld (2 ^ 16 + 16 * 2 ^ 192) 7 0 ≠ 2 ∧
    fld (cmdDst op.cmd) 47 0 + 4 * cmdNw op.cmd ≤ fld (2 ^ 16 + 16 * 2 ^ 192) 255 192 := by decide +kernel
theorem witness_words_out : ∀ x ∈ [(⟨none, .mem 0x200000 false, 7⟩ : WordOut)], x.place = .mem 0x200000 false := by decide

/-- MatrixEvents: an MMA of two passes whose first clears its line; FIN of a line of FP32 elements; residues. -/
def mmaLong : Nat := mmaBlock + 31 + 2 ^ 51
theorem witness_mma_pass : let e := entryOf mmaLong .mma
    (matrixState (some 0) e).grantedEntry 0 = some e ∧ e.kind = .mma ∧ (matrixState (some 0) e).crews[e.crew]? = some (ctxOf base).cr ∧
    e.passes < e.passCount ∧ hdrSrc (mbOpb e.block) = 0 ∧ bitsOf e.tileA 59 52 = 0 ∧ bitsOf e.tileB 59 52 = 0 ∧
    pairing (hdrFmt (mbOpa e.block)) (hdrFmt (mbOpb e.block)) = some 1 ∧ e.passes = 0 ∧
    (mmaBegin (ctxOf base).cr e.block 1).isSome = true ∧ e.passes + 1 < e.passCount ∧ mbLpr e.block = 1 ∧ mbM e.block = 1 ∧
    mbN e.block = 1 := by decide +kernel
def lined (line : Dword) : Crew := { (ctxOf base).cr with accMeta := [(0, line)] }
theorem witness_lines : (lined 0x4000000000000000).lineMode 0 = 1 ∧ mbClr (BitVec.ofNat 512 mmaBlock) = false ∧
    mbC0 (BitVec.ofNat 512 mmaBlock) = 0 ∧ (lined 0x8000000000000000).lineMode 0 = 2 ∧ pairing 1 1 = some 2 ∧ pairing 7 7 = some 1 ∧
    Sparse.wf (lined 0x4000000000000000).accMeta = true ∧ Sparse.wf (lined 0x4000000000000000).accSlots = true :=
  ⟨by decide +kernel, by decide +kernel, by decide +kernel, by decide +kernel, by decide +kernel, by decide +kernel,
    by decide +kernel, by decide +kernel⟩
theorem witness_fin : let p := 2 * 2 ^ 60 + 2 * 2 ^ 248
    let e := entryOf p .fin
    let s := (matrixState (some 0) e).updCrew 0 fun _ => lined 0x4000000000000000
    s.grantedEntry 0 = some e ∧ e.kind = .fin ∧ s.crews[e.crew]? = some (lined 0x4000000000000000) ∧ mbM e.block = 1 ∧ mbOfmt e.block = 0 ∧
    mbDk e.block = 2 ∧ mbAdr e.block % 4 = 0 ∧ mbC0 e.block + 1 ≤ pktAccum (lined 0x4000000000000000).packet ∧ s.moves.drop e.since = [] ∧
    (lined 0x4000000000000000).scratch.wf = true := by decide +kernel
theorem witness_wload : let e := entryOf (2 ^ 60 + 2 * 2 ^ 248 + 2 ^ 382) .wload
    (matrixState (some 0) e).grantedEntry 0 = some e ∧ e.kind = .wload ∧ mbDk e.block = 2 := by decide +kernel
theorem leNat_zeros (n : Nat) : leNat (List.replicate n 0#8) = 0 := by
  induction n with
  | zero => rfl
  | succ n ih => simp [List.replicate_succ, leNat, ih]
/-- A save form of zeros is in canonical form. -/
theorem formOk_zeros (n : Nat) : formOk (List.replicate n 0#8) = true := by
  simp [formOk, leNat_zeros, fld, resOk]
theorem witness_accld : let e := entryOf 0 .accld
    let s := matrixState (some 0) e
    s.grantedEntry 0 = some e ∧ e.addr = 0 ∧ e.count / 2 = 1 ∧ isWindow 0 = false ∧ (ctxOf s).cr.part = 0 ∧
    dieOf (ctxOf s).cr.core = 0 := by decide +kernel
theorem accld_zeros : (okOf ((matrixState (some 0) (entryOf 0 .accld)).readG 0 0 0 4160)).any (fun bs =>
    bs.length == 4160 && bs.all fun b => b == 0#8) = true := by decide +kernel
theorem witness_accld_forms : ∃ bs, okOf ((matrixState (some 0) (entryOf 0 .accld)).readG 0 0 0 4160) = some bs ∧
    formOk bs = true := by
  have h := accld_zeros
  rw [Option.any_eq_true] at h
  obtain ⟨bs, hb, hz⟩ := h
  refine ⟨bs, hb, ?_⟩
  simp only [Bool.and_eq_true, List.all_eq_true, beq_iff_eq] at hz
  rw [(List.eq_replicate_iff.mpr hz : bs = _)]
  exact formOk_zeros 4160
theorem witness_entry_stamp : let e := entryOf (3 * 2 ^ 60) .clr
    isWindow (mbStamp e.block) = false ∧ mbStamp e.block % 8 = 0 ∧ mbRsc e.block < 2 ∧ bitsOf (ctxOf base).cr.mode 4 3 = 0 ∧
    e.node = none ∧ (okOf ((matrixState none e).xlat 0 (mbStamp e.block) { write := true })).isSome = true := by decide +kernel
theorem witness_residues : 65534 < 65535 ∧ 65535 < 65536 ∧ 65536 < 65537 ∧ resOpen 0 = false ∧
    [((7 : Nat), List.replicate 64 (1 : Byte))].all (fun b => decide (b.1 < 2 ^ 16 ∧ b.2.length = 64)) = true := by decide +kernel

def okW {α : Type} : Walked α → Option α
  | .ok x => some x
  | _ => none
def heldW {α : Type} : Walked α → Bool
  | .held _ _ _ => true
  | _ => false
/-- A node at 0 whose exponents are those of 1, with children of these CHILD bytes, whose boxes reach from 0 to 1. -/
def nodeState (kids : List Byte) : State :=
  let s := padded [] []
  { s with mem := ((((s.mem.write 0x20000C [127, 127, 127]).write 0x200010 kids).write 0x200014 [1, 1, 1, 1]).write 0x200020
      ((List.range 4).flatMap fun _ => [0, 0, 0, 1, 1, 1])) }
/-- A ray from the origin along x, up to 1, that asks for children of mask 1. -/
def rayX (j : Nat) (ent : Bool) : Ray := ⟨0, 0, 0, BitVec.ofNat 1024 (0x3F800000 * 2 ^ 192 + 0x3F800000 * 2 ^ 448 + 2 ^ 744 +
  j * 2 ^ 640 + (if ent then 2 ^ 730 else 0)), 0, true, none, none, false, .start, 0, 0⟩
/-- A walk from a root without children, and from a root that no entry maps. -/
theorem witness_walk_begins : let s := nodeState [0, 0, 0, 0]
    let y := rayX 0 false
    s.crews[y.crew]?.map (fun cr => bitsOf cr.mode 4 3) = some 0 ∧ rayLogs y.record = false ∧ rayReplays y.record = false ∧
    rayPrec y.record = false ∧ (okW (nodeAt s 0 (some y.key) false (rayRoot y.record))).map List.length = some 0 ∧
    heldW (nodeAt s farRay.crew (some farRay.key) (rayPrec farRay.record) (rayRoot farRay.record)) = true ∧
    farRay.begin = .start ∧ farRay.faultAt = none := by decide +kernel
theorem witness_node_read : let s := nodeState [0, 0, 0, 0]
    0 % 64 = 0 ∧ isWindow 0 = false ∧ (s.core 0).faults = [] ∧ (okOf (s.readG 0 0 0 64)).isSome = true := by decide +kernel
theorem witness_ray_over : let y := rayX 0 false
    let s : State := { (nodeState []).updThread 0 0 fun th => { th with run := .parked (.trace 16), pendWait := some (.trace 0) } with
      rays := [y] }
    (s.core 0).unitQueue = [] ∧ (s.core 0).faults = [] ∧ y.faultAt = none ∧
    (s.thread? 0 0).map (fun th => (th.run, th.pendWait)) = some (.parked (.trace 16), some (.trace y.off)) := by decide +kernel
/-- Children of every kind: nodes, triangles and procedural records; and past the last of them. -/
def kindAt (s : State) (y : Ray) (j : Nat) : Option Nat :=
  (okW (rayLists s y none)).bind fun ls => (ls.getD 0 [])[j]?.map Entry.kind
theorem witness_entries : let s := nodeState [0x41, 0x82, 0xC3, 0]
    (∀ j < 4, kindAt s (rayX j false) j = [some 1, some 2, some 3, none].getD j none ∧
      rayTrail (rayX j true).record 0 = j ∧ rayEnt (rayX j true).record = true ∧ rayEnt (rayX j false).record = false) ∧
    rayDepth (rayX 0 false).record = 0 ∧ (rayF (rayX 0 false).record 56).lt (.ofRat 0) = false ∧
    (rayF (rayX 0 false).record 56).lt (.ofRat 2) = true := by decide +kernel
/-- A triangle that the ray meets half way, as record 0 of the leaf at 0x80, and one of zeros. -/
def hitState : State :=
  let s := nodeState [0x41, 0x82, 0xC3, 0]
  { s with mem := s.mem.write 0x200080 ([0x3F000000, 0xBF800000, 0xBF800000, 0x3F000000, 0x40000000, 0xBF800000,
      0x3F000000, 0xBF800000, 0x40000000].flatMap fun x => leBytes 4 x) }
def hitsAt (s : State) : Option Bool :=
  (okW (leafRecord s 0 none false true 0x80 0)).map fun p => (triTest (rayX 1 true).record p).isSome
theorem witness_leaf_records : hitsAt hitState = some true ∧ hitsAt (nodeState [0x41, 0x82, 0xC3, 0]) = some false ∧
    (okW (leafRecord hitState 0 none false false 0xC0 0)).isSome = true := by decide +kernel
theorem witness_slot_again : let y := rayOf 0 false
    let s := raysOf y
    y.failed = none ∧ (16 : Nat) < 64 ∧ (s.core (s.coreOf y.crew)).unitQueue = [] ∧ s.coreOf y.crew < s.cores.length ∧
    y.off < 2 ^ 26 ∧ (s.crews.all fun cr => decide (cr.lanes.length ≤ 1024)) = true := by decide +kernel

/-- A dual traversal of the node at 0 with itself, whose queue of one record lies at 0x1000. -/
def pairOp (dep : Nat) : XPairOp := ⟨0, 0, BitVec.ofNat 1024 (0x1000 * 2 ^ 128 + dep * 2 ^ 264 + 2 ^ 272 + 2 ^ 280),
  true, false, true, false, none, false, 0, 0, 0, 0⟩
def pairFetch (s : State) (a : Nat) : Walked (List Child) := nodeAt s 0 none false a
theorem witness_pair_empty : let s := nodeState [0, 0, 0, 0]
    let op := pairOp 0
    op.started = true ∧ op.outcome = none ∧ pairDepth op.record = 0 ∧ pairPrec op.record = false ∧
    (okW (pairList (pairFetch s) op.record (.root (pairRootA op.record)) (.root (pairRootB op.record)))).map List.length = some 0 := by
  decide +kernel
/-- What the walk looks at: the kinds and the depth of the pair, and what becomes of an emission. -/
def pairNow (s : State) (dep : Nat) : Option (Nat × Nat × Nat) :=
  let r := (pairOp dep).record
  (okW (pairPath (pairFetch s) r dep 0 (.root 0) (.root 0))).bind fun ls =>
    (ls.getD dep [])[pairTrail r dep]?.map fun x => (x.1.kind, x.2.kind, x.1.depth)
def leafPair : PairRef × PairRef := (⟨2, 0x80, [], [], 1⟩, ⟨2, 0x80, [], [], 1⟩)
def emits (s : State) : Option Bool := (okW (pairEmission s (pairOp 0) leafPair.1 leafPair.2)).map Prod.snd
def queueAt (tail : Byte) : State :=
  let s := nodeState [0x82, 0, 0, 0]
  { s with mem := s.mem.write 0x201000 [tail] }
theorem witness_pair_leaves : pairNow (queueAt 0) 0 = some (2, 2, 1) ∧ emits (queueAt 0) = some true ∧
    emits (queueAt 1) = some false := by decide +kernel
/-- A node that is its own child, 32 levels down. -/
theorem witness_pair_deep : pairNow (nodeState [0x40, 0, 0, 0]) 31 = some (1, 1, 32) := by decide +kernel
theorem witness_pair_record : let a := leafPair.1
    a.kind < 4 ∧ a.addr < 2 ^ 56 := by decide +kernel

/-- A reprojection of one pixel: its sources at 0 and 0x40, its target and list at 0x80 and 0xC0; the pixel is empty, or moves
to itself, or by a NaN. -/
def rpBlock : BitVec 512 := BitVec.ofNat 512 (0xC0 * 2 ^ 448 + 0x80 * 2 ^ 384 + 0x40 * 2 ^ 320 + 2 ^ 192 + 0x100 * 2 ^ 128)
theorem witness_reprojection_whole : let op : ReprojOp := ⟨0, rpBlock, false, none, 0, 0, 0, 0⟩
    let s := base.updCluster 0 fun K => { K with reproj := [op] }
    (s.cluster 0).reproj = [op] ∧ s.crews[0]? = some (ctxOf base).cr ∧ bitsOf (ctxOf base).cr.mode 4 3 = 0 ∧ rpReject rpBlock = false ∧
    rpN rpBlock = 1 ∧ ((okOf (s.engineRead (some 0) 0 0 (rpSrc rpBlock) 8)).any fun src =>
      (okOf (s.engineRead (some 0) 0 0 (rpMv rpBlock) 16)).any fun mv =>
        let x := reproject rpBlock src mv
        (okOf (s.outcomeOf (s.outWords (some 0) 0 0 (rpDst rpBlock) 4 x.1 ++ s.outWords (some 0) 0 0 (rpList rpBlock) 4 x.2.1)).2).isSome) = true := by
  decide +kernel
theorem witness_splats : let num (l : List Byte) (a : Nat) : Nat := leNat ((l.drop a).take 4)
    let z : List Byte := List.replicate 16 0
    num (List.replicate 8 255) 4 = 0xFFFFFFFF ∧ num z 4 ≠ 0xFFFFFFFF ∧
    (Num.decodeF Num.fp32 (num z 0)).isFin = true ∧ (Num.decodeF Num.fp32 (num (List.replicate 16 255) 0)).isFin = false ∧
    Num.roundInt .rne 0 = 0 ∧ 0 < rpW rpBlock ∧ 0 < rpH rpBlock := by decide +kernel

/-- QueueEvents: a packet of kind 0; one with more lines than an engine has; one that a device without cores cannot hold. -/
theorem witness_packet_refused : let s := queuedState 0
    let d := s.queue 0
    let s1 := (s.setQueue 0 (setBits d 159 128 (qdRptr d + 1))).wakeLaunches 0
    s1.packetCheck (qdPart d) 0 = some 2 ∧ pktStamp 0 % 8 = 0 ∧ isWindow (pktStamp 0) = false ∧ pktRsc 0 < 2 ∧
    (okOf (s1.xlat (qdPart d) (pktStamp 0) { write := true })).isSome = true := by decide +kernel
theorem witness_packet_sizes : let p := setBits wordPacket 142 130 4098
    let s : State := { base with module := { base.module with state := .degraded }
                                 cores := base.cores.map fun (c : Core) => { c with withdrawn := true } }
    pktKind p = 1 ∧ packetBad p = false ∧ 4096 < pktAccum p ∧ packetBad wordPacket = false ∧ packetTooBig wordPacket = false ∧
    s.canHold 0 true wordPacket = true ∧ s.module.state = .degraded ∧ s.canHold 0 false wordPacket = false := by decide +kernel
theorem witness_grid_stamp : ∀ st ∈ [GridStatus.live, .removed, .nofit], let r := (gridDone st).releaseOver
    (r.crews.all fun cr => decide (cr.grid = 0) && decide (cr.status = .released)) = true ∧
    (r.grids[0]?.any fun G => decide (G.status = st) && G.node.isNone && (decide (st ≠ .live) || !r.undistributed 0 G) &&
      decide (pktStamp G.packet % 8 = 0) && !isWindow (pktStamp G.packet) && decide (pktRsc G.packet < 2) &&
      (okOf (r.xlat G.part (pktStamp G.packet) { write := true })).isSome) = true := by decide +kernel

/-- Placement: a grid of which nothing has started; a core with a free slot. -/
theorem witness_fix_code : distributed.grids[0]? = some { waitingGrid with status := .live, nextCrew := 1 } ∧
    (distributed.gangs.all fun x => !x.started) = true ∧ waitingState.dropUnfit = waitingState ∧
    (base.crews.all fun cr => decide (¬ (cr.core = 0 ∧ cr.cslot = 7))) = true ∧ 7 < Config.groupSlots := by decide +kernel

/-- GraphEvents: another node still runs, or every other one is done. -/
theorem witness_graph_completes : ∀ x ∈ [NodeState.running, .done], let g := graphOf true [.ended 1, x]
    let ns := [emptySuccessors, emptySuccessors]
    let s := graphState emptySuccessors emptySuccessors g
    s.graphNow 0 = some (0, g, ns) ∧ g.failed = none ∧ 1 < ns.length ∧ (g.nodes.getD 1 .idle).busy = (x == .running) ∧
    pktStamp g.packet % 8 = 0 ∧ isWindow (pktStamp g.packet) = false ∧ pktRsc g.packet < 2 ∧
    (okOf (s.xlat g.part (pktStamp g.packet) { write := true })).isSome = true := by decide +kernel

/-- HostEvents: slot 0 of the function has a queue, slot 1 none; a word that a waiter is registered on. -/
theorem witness_doorbell : let f : Vf := ⟨0, some 0, List.replicate 1 (8, 0), false, [1023]⟩
    vfOf (hostState 1) 0 = some (0, f) ∧ f.slots[0]? = some 1023 ∧ f.slots[1]? = none ∧ 0 < Config.queues ∧ f.part ≠ none ∧
    (hostState 1).devPa 0 8 = some 0x200008 ∧ isWindow 8 = false ∧
    ((hostState 1).devPa 0 (8 : BitVec 56).toNat).any (fun x => x / 8 == 0x20000C / 8) = true := by decide +kernel
theorem witness_context_kept : base.parts.length = 1 ∧ physOk 0x200000 64 = true ∧
    ¬ (0x200000 < Config.contextAt 0 + 128 ∧ Config.contextAt 0 < 0x200000 + 64) := by decide +kernel

/-- ErrorEvents: an idle core, and one whose cycle is under way. -/
theorem witness_core_retires : base.cores[200]? = some Core.reset ∧ Core.reset.lastSlot = none ∧ Core.reset.withdrawn = false ∧
    Core.reset.retired = false ∧ (base.crews.all fun cr => decide (cr.core ≠ 200)) = true ∧ (base.core 0).lastSlot ≠ none ∧
    (ctxOf base).cr.onCore = true ∧ (ctxOf base).cr.core = 0 ∧ clusterOf 0 = 0 := by decide +kernel

/-- Checkpoints: a collective stands. -/
theorem witness_checkpoint_collective : let op := collOf 0 1 2 true none []
    let s : State := { State.reset with colls := [op] }
    coveredCrews s none = [] ∧ s.colls = [op] ∧ covers none op.part = true ∧ op.outcome = none ∧ quiet State.reset none = true ∧
    reportImages State.reset none = some [] ∧ vfOf State.reset 255 = some (255, ⟨255, none, [], false, []⟩) ∧
    State.reset.cores.length = 256 ∧ State.reset.clusters.length = 64 := by decide +kernel

/-- Stores and releases: the ring's TAIL has moved and not rung; the bytes at it, before it and after it.  Atomics and fences
perform at the scopes of `witness_scopes`. -/
theorem witness_tail_written : let s : State := { ringState 1 with rung := [] }
    s.devPa 0 0x6000 = some 0x206000 ∧ s.devPa 0 0x6008 = some 0x206008 ∧ s.devPa 0 0x5FF8 = some 0x205FF8 ∧ isWindow 0x6000 = false ∧
    0 < min 16 ((s.part 0).at 97 1) ∧ s.devPa 0 (s.ringHeader 0 0) = some 0x206000 ∧ s.devNat 0 (s.ringHeader 0 0) 8 = some 1 ∧
    (1 : Dword) ≠ Sparse.get s.tails 0 ∧ (0, 0) ∉ s.rung := by decide +kernel
theorem witness_scopes : ∀ x ∈ [(some (0 : BitVec 2), (0, 0)), (some 3, (3, 3)), (none, (0, 2))],
    let c := ctxOf (withBundle fun b => { b with scp := x.1 })
    c.g.bundle.scp = x.1 ∧ c.scopeOr 0 = x.2.1 ∧ c.scopeOr 2 = x.2.2 := by decide +kernel

/-- BarrierWords: 2,046 and 2,047 arrivals. -/
theorem witness_pend : pendNext 2046 = 2047 ∧ ¬ (2047 < 2047) := by decide +kernel

/-- LaunchWords: a record queue of 2^25 slots, and one with a reserved bit set. -/
theorem witness_record_queue_bad : ∀ x ∈ [(16, (25 : Byte)), (17, 2)], let s : State := { recordState with mem := recordState.mem.write (0x300000 + x.1) [x.2] }
    recordQueueBad (leNat (s.physRead (dieOf (s.coreOf 0)) (pageIn s { write := true } 0x100000) 64)) = true := by decide +kernel

/-- PickerAndArrivals: a thread outside every region of a crew that is being pre-empted is ready, and one inside is not. -/
theorem witness_ready_preempted : let ask (r : Option Region) : State := ((readyState.updThread 0 0 fun th => { th with region := r }).updCrew 0
      fun cr => { cr with preempt := some ⟨0, none, false, false, false, false⟩ })
    (readyOn (ask none) 0).length = 1 ∧ readyOn (ask (some ⟨0x1000, 0, 0, 0, 0, 0⟩)) 0 = [] := by decide +kernel

/-- MatrixEvents: a stale raw window, for the stamps of the four kinds; a tile whose blocks hold other formats than its
header says; a header that names no region; forms of accumulator lines with a bad line. -/
def staleWindow : Nat := 0xF0000500000000
theorem witness_stale_stamps : ∀ x ∈ [(mmaBlock, MKind.mma), (2 ^ 60 + 2 ^ 382, .wload), (2 * 2 ^ 60, .fin), (3 * 2 ^ 60, .clr)],
    let old := entryOf (x.1 + staleWindow * 2 ^ 128) x.2
    let e := entryOf x.1 x.2
    (matrixState (some 0) old).grantedEntry 0 = some old ∧ (matrixState (some 0) old).staleStamp old.crew (mbStamp old.block) = true ∧
    (matrixState (some 0) e).grantedEntry 0 = some e ∧ (matrixState (some 0) e).staleStamp e.crew (mbStamp e.block) = false := by
  decide +kernel
theorem witness_mma_ends : let old := { entryOf mmaBlock .mma with tileA := 1 <<< 52 }
    let e := entryOf (mmaBlock + 2 ^ 382) .mma
    let bad (e : MEntry) : Bool := descsBad (mbOpa e.block) (shapeA e.block) e.tileA
      (tileDescs (ctxOf base).cr e.tileA (extent (mbOpa e.block) (shapeA e.block)))
    bad old = true ∧ bad e = false ∧ hdrSrc (mbOpb e.block) = 1 ∧ (regionFor (ctxOf base).cr e.block).isNone = true ∧
    e.passes = 0 ∧ 0 < e.passCount ∧ old.passes = 0 ∧ 0 < old.passCount := by decide +kernel
theorem witness_accld_bad : let e := entryOf 0 .accld
    let s0 := matrixState (some 0) e
    let s : State := { s0 with mem := s0.mem.write 0x200005 [8] }
    s.grantedEntry 0 = some e ∧ s.staleStamp e.crew (mbStamp e.block) = false ∧ bitsOf (ctxOf s).cr.mode 4 3 = 0 ∧
    ((okOf (s.readG 0 0 0 4160)).any fun bs => !formOk bs) = true := by decide +kernel

/-- QueueEvents: a descriptor with a reserved bit set, and one without. -/
theorem witness_descriptors : qdBad 0x2001 = true ∧ qdBad queueDescriptor = false := by decide +kernel

/-- HostEvents: BAR of the context of partition 0, which a start would take, becomes 0, which it takes, or 17, which it rejects. -/
theorem witness_context_met : ∀ x ∈ [((0 : Byte), false), (17, true)],
    let a := Config.contextAt 0 + 97
    let s : State := { base with mem := ((base.mem.write (a - 89) [1]).write (a - 73) [1]).write (a + 15) [0xFF, 0xFF] }
    let P := s.part 0
    s.parts[0]? = some P ∧ physOk a 1 = true ∧ a < Config.contextAt 0 + 128 ∧ Config.contextAt 0 < a + 1 ∧
    contextBad (vfsOf s.vfs 0) (({ P with ctx := BitVec.ofNat 1024 ((s.mem.write a [x.1]).nat (Config.contextAt 0) 128) } :
      Partition).setAt 8 8 (P.at 8 8)) = x.2 := by decide +kernel

/-- PeerAndCollectiveEvents: what rank 1 writes at DST, in either wire format, and where its stamp goes. -/
theorem witness_collective_put : ∀ wire ∈ [0, 1], let op := { collOf 0 1 2 true (some [0]) [(0, .commit)] with
      cmd := setBits (collCommand 0) 287 280 wire }
    let s := collState op
    isWindow (ccDst op.cmd) = false ∧ ccDst op.cmd % 4 = 0 ∧ ccDst op.cmd % 65536 + 4 ≤ 65536 ∧ s.mem.wf = true ∧
    ((okOf (s.xlat op.part (ccDst op.cmd) { write := true })).any fun g => !g.replicated) = true ∧ s.moves.drop op.since = [] ∧
    (okOf (collPut s op [0])).isSome = true ∧ isWindow (ccStamp op.cmd) = false ∧ ccStamp op.cmd % 8 = 0 ∧ ccRsc op.cmd < 2 ∧
    (okOf (s.xlat op.part (ccStamp op.cmd) { write := true })).isSome = true := by decide +kernel

/-- ErrorEvents: the last core and the last cluster, in service. -/
theorem witness_withdrawn : base.cores[255]?.map Core.withdrawn = some false ∧ base.clusters[63]?.map Cluster.withdrawn = some false := by
  decide +kernel

/-- Checkpoints: a binding comes back to its partition. -/
theorem witness_bindings_back : let c : Tier := ⟨7, some 0, [], [], [(ctxOf base).cr], [], [], [], [], [[⟨64, 64, 64, 0⟩]]⟩
    let s : State := { State.reset with tiers := [c], parts := base.parts }
    s.tiers.find? (fun t => t.tier == 7 && t.part == some 0) = some c ∧ quiet s (some 0) = true ∧ s.mem.wf = true ∧
    covers c.part 0 = true ∧ c.crews[0]? = some (ctxOf base).cr ∧ covers c.part (ctxOf base).cr.part = true := by decide +kernel

/-- StepRunsDecodedWord: a turn that leaves the state as it was. -/
theorem witness_typed_out : base.desc = [] ∧ ∃ t, typedOut base (.next base) = .next t := ⟨rfl, _, rfl⟩

/-- StepRunsDecodedWord: after 24 words of a run. FetchReadsMemory: a crew and its grid. -/
theorem witness_run_over : let s := hintState 24 id
    s.ctx? = some (ctxOf s) ∧ 24 ≤ (ctxOf s).g.count ∧ base.crews[0]? = some (ctxOf base).cr ∧
    (base.grids[(ctxOf base).cr.grid]?).isSome = true := by decide +kernel

/-! ### One step of single instructions

Each expected value comes from the rule that the test names, or from arithmetic by hand on it. -/

def laneOf (o : Out) : Option Lane :=
  match o with
  | .next t => t.crews[0]?.bind fun cr => cr.lanes[0]?
  | _ => none
/-- V register `d` of lane 0 after an instruction, from these V registers. -/
def vAfter (i : Instr) (d : Nat) (ws : List (Nat × Word)) : Option Word :=
  (laneOf (exec i (aloneRegs ws))).map fun l => (l.v.getD d ⟨0, []⟩).prim
/-- The pair at `d`. -/
def pairOf (i : Instr) (d : Nat) (ws : List (Nat × Word)) : Option (Word × Word) :=
  (laneOf (exec i (aloneRegs ws))).map fun l => ((l.v.getD d ⟨0, []⟩).prim, (l.v.getD (d + 1) ⟨0, []⟩).prim)
/-- Q register `d`. -/
def qAfter (i : Instr) (d : Nat) (ws : List (Nat × Word)) : Option Word :=
  (laneOf (exec i (aloneRegs ws))).map fun l => (l.q.getD d ⟨0, []⟩).prim
/-- The flags of the thread. -/
def flagsOf (i : Instr) (ws : List (Nat × Word)) : Option (BitVec 6) :=
  (laneOf (exec i (aloneRegs ws))).bind fun l => l.thread?.map fun th => th.flags
/-- Bytes of physical memory. -/
def bytesOf (i : Instr) (a n : Nat) (ws : List (Nat × Word)) : Option (List Byte) :=
  match exec i (aloneRegs ws) with
  | .next t => some ((List.range n).map fun k => t.mem.byte (a + k))
  | _ => none
/-- The thread's program counter, once its run is over, and its depth. -/
def pcOf (i : Instr) : Option (BitVec 56 × Nat) :=
  (laneOf (exec i (aloneRegs []))).bind fun l => l.thread?.map fun th => (th.pc, th.depth)

/-- R111: a wrap; both high halves of a product; shifts by 32; a rotation by 33. -/
theorem test_integer :
    vAfter (.iadd false false 16 4 6) 16 [(4, 0xFFFFFFFF), (6, 2)] = some 1 ∧
    vAfter (.isub false false 4 4 6) 4 [(4, 0), (6, 1)] = some 0xFFFFFFFF ∧
    vAfter (.imulhU false false 16 4 6) 16 [(4, 0xFFFFFFFF), (6, 0xFFFFFFFF)] = some 0xFFFFFFFE ∧
    vAfter (.imulh false false 16 4 6) 16 [(4, 0xFFFFFFFF), (6, 2)] = some 0xFFFFFFFF ∧
    vAfter (.sar false false 16 4 6) 16 [(4, 0x80000000), (6, 32)] = some 0xFFFFFFFF ∧
    vAfter (.shl false false 16 4 6) 16 [(4, 1), (6, 32)] = some 0 ∧
    vAfter (.rot false false 16 4 6) 16 [(4, 0x80000001), (6, 33)] = some 3 ∧
    vAfter (.iminU false false 16 4 6) 16 [(4, 0xFFFFFFFF), (6, 2)] = some 2 ∧
    vAfter (.imin false false 16 4 6) 16 [(4, 0xFFFFFFFF), (6, 2)] = some 0xFFFFFFFF := by decide +kernel
/-- R111 on pairs: a carry between the words, and the pair of a source that is also the destination. -/
theorem test_integer_pairs :
    pairOf (.iadd64 false false 4 4 6) 4 [(4, 0xFFFFFFFF), (5, 1), (6, 1), (7, 0)] = some (0, 2) ∧
    pairOf (.imulhU64 false false 16 4 6) 16 [(4, 0xFFFFFFFF), (5, 0xFFFFFFFF), (6, 0xFFFFFFFF), (7, 0xFFFFFFFF)] =
      some (0xFFFFFFFE, 0xFFFFFFFF) ∧
    pairOf (.sar64 false false 16 4 6) 16 [(4, 0), (5, 0x80000000), (6, 4)] = some (0, 0xF8000000) ∧
    vAfter (.clz64 false false 16 4) 16 [(4, 1), (5, 0)] = some 63 := by decide +kernel
/-- R113: a sum beyond 0x7FFFFFFF is clamped and raises saturation, bit 5 of %flags (R369). -/
theorem test_saturation :
    vAfter (.iaddSat false false 16 4 6) 16 [(4, 0x7FFFFFFF), (6, 1)] = some 0x7FFFFFFF ∧
    flagsOf (.iaddSat false false 16 4 6) [(4, 0x7FFFFFFF), (6, 1)] = some 0x20 ∧
    flagsOf (.iaddSat false false 16 4 6) [(4, 0x7FFFFFFE), (6, 1)] = some 0 ∧
    vAfter (.isubUsat false false 16 4 6) 16 [(4, 1), (6, 2)] = some 0 := by decide +kernel
/-- R115, R116, R119: the manual's field of BFX; a full map; sign extension of the immediates. -/
theorem test_fields :
    vAfter (.bfxU false false 16 4 6) 16 [(4, 0xDEADBEEF), (6, 0x0808)] = some 0xBE ∧
    vAfter (.bfxS false false 16 4 6) 16 [(4, 0xDEADBEEF), (6, 0x0808)] = some 0xFFFFFFBE ∧
    vAfter (.bffsIdx false false 16 4) 16 [(4, 0xFFFFFFFF), (5, 0xFFFFFFFF)] = some 64 ∧
    pairOf (.bffs false false 16 4) 16 [(4, 0xFFFFFFFF), (5, 0)] = some (0xFFFFFFFF, 1) ∧
    vAfter (.movi false false 16 0x800) 16 [] = some 0xFFFFF800 ∧
    pairOf (.lea false false 16 4 0xFFF) 16 [(4, 0), (5, 1)] = some (0xFFFFFFFF, 0) := by decide +kernel
/-- R117: −1 is below 1 as a signed number and above it as an unsigned one; a hard predicate is 0x8000 or 0. -/
theorem test_icmp : qAfter (.icmp false 3 4 6 0 2) 3 [(4, 0xFFFFFFFF), (6, 1)] = some 0x8000 ∧
    qAfter (.icmp false 3 4 6 0 6) 3 [(4, 0xFFFFFFFF), (6, 1)] = some 0 := by decide +kernel

/-- R57, R132, R135: 1 + 1; 1·2 + 3; 1/3 and √2, rounded to nearest. -/
theorem test_fp32 :
    vAfter (.faddF32 false false 16 4 6) 16 [(4, 0x3F800000), (6, 0x3F800000)] = some 0x40000000 ∧
    vAfter (.ffmaF32 false false 16 4 6 8) 16 [(4, 0x3F800000), (6, 0x40000000), (8, 0x40400000)] = some 0x40A00000 ∧
    vAfter (.fdivF32 false false 16 4 6) 16 [(4, 0x3F800000), (6, 0x40400000)] = some 0x3EAAAAAB ∧
    vAfter (.fsqrtF32 false false 16 4) 16 [(4, 0x40000000)] = some 0x3FB504F3 := by decide +kernel
/-- R58, R52: 1/0 gives ∞ and division by zero (bit 1), 0/0 the canonical NaN and invalid (bit 0), and an overflow
raises inexact with it (bits 2 and 4). -/
theorem test_fp_flags :
    vAfter (.fdivF32 false false 16 4 6) 16 [(4, 0x3F800000), (6, 0)] = some 0x7F800000 ∧
    flagsOf (.fdivF32 false false 16 4 6) [(4, 0x3F800000), (6, 0)] = some 2 ∧
    vAfter (.fdivF32 false false 16 4 6) 16 [(4, 0), (6, 0)] = some 0x7FC00000 ∧
    flagsOf (.fdivF32 false false 16 4 6) [(4, 0), (6, 0)] = some 1 ∧
    flagsOf (.faddF32 false false 16 4 6) [(4, 0x7F7FFFFF), (6, 0x7F7FFFFF)] = some 0x14 := by decide +kernel
/-- R135: FP64, FP16 and BF16 of the same sum 1 + 1. -/
theorem test_fp_formats :
    pairOf (.faddF64 false false 16 4 6) 16 [(5, 0x3FF00000), (7, 0x3FF00000)] = some (0, 0x40000000) ∧
    vAfter (.faddF16 false false 16 4 6) 16 [(4, 0x3C00), (6, 0x3C00)] = some 0x4000 ∧
    vAfter (.faddBf16 false false 16 4 6) 16 [(4, 0x3F80), (6, 0x3F80)] = some 0x4000 ∧
    vAfter (.faddF16x2 false false 16 4 6) 16 [(4, 0x3C003C00), (6, 0x3C000000)] = some 0x40003C00 := by decide +kernel
/-- R59, R140: −1.5 rounds to −2, to even; the manual's 3·10^9 clamps, with saturation and invalid. -/
theorem test_cvt :
    vAfter (.cvt false false 16 4 4 0) 16 [(4, 0xBFC00000)] = some 0xFFFFFFFE ∧
    vAfter (.cvt false false 16 4 4 0) 16 [(4, 0x4F32D05E)] = some 0x7FFFFFFF ∧
    flagsOf (.cvt false false 16 4 4 0) [(4, 0x4F32D05E)] = some 0x21 ∧
    vAfter (.cvt false false 16 4 0 5) 16 [(4, 0xFFFFFFFF)] = some 0x4F800000 := by decide +kernel
/-- R136: the floor of −0.5 is −1; the lesser of 1 and −1. -/
theorem test_floor_min : vAfter (.ffloorF32 false false 16 4) 16 [(4, 0xBF000000)] = some 0xBF800000 ∧
    vAfter (.fminF32 false false 16 4 6) 16 [(4, 0x3F800000), (6, 0xBF800000)] = some 0xBF800000 := by decide +kernel

/-- Q register 3, from the fractions 0.5 in Q1 and 0.25 in Q2. -/
def q3After (i : Instr) : Option Word :=
  (laneOf (exec i (alone fun cr => { cr with lanes := cr.lanes.modify 0 (fun l =>
    (l.setQ 1 ⟨0x4000, [0]⟩).setQ 2 ⟨0x2000, [0]⟩) }))).map fun l => (l.getQ 3).prim
/-- R154: 0.5 and 0.5 give 0.25; their disjunction 0.75; the complement of 0.25. R156: 0.5 as a fraction, tagged 2. -/
theorem test_pand : q3After (.pand false 3 1 1) = some 0x2000 := by decide +kernel
theorem test_por : q3After (.por false 3 1 1) = some 0x6000 := by decide +kernel
theorem test_pnot : q3After (.pnot false 3 2) = some 0x6000 := by decide +kernel
theorem test_pset : qAfter (.pset false 3 4 10) 3 [(4, 0x3F000000)] = some 0x44000 := by decide +kernel

/-- R208: bytes in little-endian order at an address of page 0, physical 0x200000 (R190); a negative offset. -/
theorem test_store :
    bytesOf (.st false 16 4 6 4) 0x200FFC 4 [(4, 0x1000), (6, 0xFFFFFFFC), (16, 0x11223344)] =
      some [0x44, 0x33, 0x22, 0x11] ∧
    bytesOf (.st false 16 4 60 0) 0x201000 2 [(4, 0x1000), (16, 0x11223344)] = some [0x44, 0] := by decide +kernel
/-- R242, R243: a negative word is the signed minimum; ATOM.add wraps. -/
theorem test_atom :
    bytesOf (.atom false 16 4 6 0 0 0) 0x201000 4 [(4, 0x1000), (6, 0xFFFFFFFF)] = some [0xFF, 0xFF, 0xFF, 0xFF] ∧
    bytesOf (.atom false 16 4 6 0 1 0) 0x201000 4 [(4, 0x1000), (6, 0x80000000)] = some [0, 0, 0, 0x80] ∧
    bytesOf (.atom false 16 4 6 0 2 0) 0x201000 4 [(4, 0x1000), (6, 0x80000000)] = some [0, 0, 0, 0] := by decide +kernel
/-- R170, R173: the word stands at 0x1000, and a displacement counts words from its own address. -/
theorem test_branches : pcOf (.bra (-1)) = some (0xFFC, 0) ∧ pcOf (.call 4) = some (0x1010, 1) := by decide +kernel
/-- R361: TRAP records BREAKPOINT. R42: EXIT ends the thread. -/
theorem test_ends :
    (laneOf (exec (.trap 5) (aloneRegs []))).bind (fun l => l.thread?.map fun th => th.run) = some .trapping ∧
    (laneOf (exec .exit (aloneRegs []))).map (fun l => l.thread?.isNone) = some true := by decide +kernel

end Sys2Proof.Tests
end

