-- ==== Sys2Proof/Proofs/Errors.lean ====
section
/-!
PROOFS. Errors, retirement, the clock and the thermal trip (R21, R395-R397, R400), and the state after reset (R391).
-/

namespace Sys2Proof.Machine

open Sys2Proof

/-! ### The events of errors, power and heat -/

@[simp] theorem exec_softErrorCorrected (unit : HwUnit) (addrs : List Nat) (counter : Nat) (s : State) :
    exec (.softErrorCorrected unit addrs counter) s = execSoftErrorCorrected unit addrs counter s := rfl
@[simp] theorem exec_uncorrectableError (place : ErrPlace) (s : State) :
    exec (.uncorrectableError place) s = execUncorrectableError place s := rfl
@[simp] theorem exec_powerThermalThrottle (s : State) : exec .powerThermalThrottle s = execPowerThermalThrottle s := rfl
@[simp] theorem exec_clockRestore (s : State) : exec .clockRestore s = execClockRestore s := rfl
@[simp] theorem exec_thermalTrip (s : State) : exec .thermalTrip s = execThermalTrip s := rfl

/-! ### Counting corrected errors (R395) -/

/-- The state once a corrected error of a unit is counted. -/
def softCounted (unit : HwUnit) (addr counter : Nat) (s : State) : State :=
  { s with module := { s.module with
      soft := s.module.soft + 1
      counts := (countSoft s.module.counts unit addr counter).1 } }

theorem countError_eq (unit : HwUnit) (counter : Nat) (s : State) (lasting : Bool) (addr : Nat) :
    countError unit counter (s, lasting) addr =
      (softCounted unit addr counter s, lasting || (countSoft s.module.counts unit addr counter).2) := rfl

/-- The second of two addresses stands after the first in ascending order, whichever came first. -/
theorem sortBy_pair {a b : Nat} (h : a ≤ b) :
    sortBy (fun a b => decide (a < b)) [a, b] = [a, b] ∧ sortBy (fun a b => decide (a < b)) [b, a] = [a, b] := by
  constructor
  · simp [sortBy, insertSorted, Nat.not_lt.mpr h]
  · rcases Nat.eq_or_lt_of_le h with rfl | hlt
    · simp [sortBy, insertSorted]
    · simp [sortBy, insertSorted, hlt]

theorem execSoftErrorCorrected_single (unit : HwUnit) (addr counter : Nat) (s : State) :
    execSoftErrorCorrected unit [addr] counter s =
      .next (if (countSoft s.module.counts unit addr counter).2 then retireAtEnd unit (softCounted unit addr counter s)
        else softCounted unit addr counter s) := by
  simp [execSoftErrorCorrected, sortBy, insertSorted, countError_eq]

theorem execSoftErrorCorrected_swap (unit : HwUnit) {a b : Nat} (counter : Nat) (s : State) (h : a ≤ b) :
    execSoftErrorCorrected unit [b, a] counter s = execSoftErrorCorrected unit [a, b] counter s := by
  obtain ⟨hab, hba⟩ := sortBy_pair h
  simp only [execSoftErrorCorrected, hab, hba]

/-- A first error that is not lasting leaves the second to decide, in the counts that the first left. -/
theorem execSoftErrorCorrected_pair (unit : HwUnit) {a b : Nat} (counter : Nat) (s : State) (h : a ≤ b)
    (hfirst : (countSoft s.module.counts unit a counter).2 = false) :
    execSoftErrorCorrected unit [a, b] counter s =
      execSoftErrorCorrected unit [b] counter (softCounted unit a counter s) := by
  rw [execSoftErrorCorrected_single]
  simp [execSoftErrorCorrected, (sortBy_pair h).1, countError_eq, hfirst]

/-- The counter that stands for a unit in the window becomes the newest, with the error and its address; the ninth
error of the window and the third at the address are lasting. -/
theorem countSoft_of_counted {cs : List SoftCount} {unit : HwUnit} {addr counter : Nat} {c : SoftCount}
    (h : cs.find? (fun c => c.unit == unit && c.window == counter / 2 ^ 30) = some c) :
    countSoft cs unit addr counter =
      (⟨unit, counter / 2 ^ 30, c.count + 1, addr :: c.addrs⟩ :: cs.filter (fun c => c.unit != unit),
        c.count + 1 == 9 || c.addrs.count addr + 1 == 3) := by
  simp [countSoft, h, -Nat.reducePow]

/-- In a window in which nothing of the unit was counted, its counter starts anew. -/
theorem countSoft_of_uncounted {cs : List SoftCount} {unit : HwUnit} {addr counter : Nat}
    (h : cs.find? (fun c => c.unit == unit && c.window == counter / 2 ^ 30) = none) :
    countSoft cs unit addr counter =
      (⟨unit, counter / 2 ^ 30, 1, [addr]⟩ :: cs.filter (fun c => c.unit != unit), false) := by
  simp [countSoft, h, -Nat.reducePow]

/-! ### Degrading the module (R21, R391, R398) -/

section
variable (s : State)

/-- The module asks for service, and says so the first time. -/
theorem enterDegraded_eq : enterDegraded s = { s with
    module := { s.module with
      svc := true, state := if s.module.state = .operational then .degraded else s.module.state }
    out := if s.module.svc then s.out else .service :: s.out } := by
  cases h : s.module.svc <;> simp [enterDegraded, State.emit, h]

@[simp] theorem enterDegraded_module : (enterDegraded s).module = { s.module with
    svc := true, state := if s.module.state = .operational then .degraded else s.module.state } := by rw [enterDegraded_eq]
@[simp] theorem enterDegraded_cores : (enterDegraded s).cores = s.cores := by rw [enterDegraded_eq]
@[simp] theorem enterDegraded_crews : (enterDegraded s).crews = s.crews := by rw [enterDegraded_eq]
@[simp] theorem enterDegraded_mem : (enterDegraded s).mem = s.mem := by rw [enterDegraded_eq]
@[simp] theorem enterDegraded_poison : (enterDegraded s).poison = s.poison := by rw [enterDegraded_eq]

@[simp] theorem countRetired_module :
    (countRetired s).module = { s.module with retired := s.module.retired + 1 } := rfl
@[simp] theorem countRetired_cores : (countRetired s).cores = s.cores := rfl
@[simp] theorem countRetired_crews : (countRetired s).crews = s.crews := rfl
@[simp] theorem countRetired_mem : (countRetired s).mem = s.mem := rfl
@[simp] theorem countRetired_poison : (countRetired s).poison = s.poison := rfl

@[simp] theorem degrade_module : (degrade s).module = { s.module with
    svc := true, state := if s.module.state = .operational then .degraded else s.module.state
    retired := s.module.retired + 1 } := by simp [degrade]
@[simp] theorem degrade_crews : (degrade s).crews = s.crews := by simp [degrade]
@[simp] theorem degrade_mem : (degrade s).mem = s.mem := by simp [degrade]
@[simp] theorem degrade_poison : (degrade s).poison = s.poison := by simp [degrade]

end

/-! ### Withdrawing a core or a cluster (R390, R396) -/

theorem core_of_getElem {s : State} {c : Nat} {K : Core} (h : s.cores[c]? = some K) : s.core c = K := by
  simp [State.core, List.getD, h]

theorem cluster_of_getElem {s : State} {k : Nat} {K : Cluster} (h : s.clusters[k]? = some K) : s.cluster k = K := by
  simp [State.cluster, List.getD, h]

/-- Changing an entry that stands is setting it. -/
theorem modify_eq_set {α : Type} {l : List α} {i : Nat} {x : α} (f : α → α) (h : l[i]? = some x) :
    l.modify i f = l.set i (f x) := by
  rw [List.modify_eq_set_getElem?, h]
  rfl

theorem withdrawCore_of_inService {c : Nat} {s : State} {K : Core} (h : s.cores[c]? = some K) (hw : K.withdrawn = false) :
    withdrawCore c s = retireCore c (forcePreempt
      (enterDegraded { s with cores := s.cores.set c { K with withdrawn := true } }) (crewsOn s fun x => x == c)) := by
  simp [withdrawCore, core_of_getElem h, hw, State.updCore, modify_eq_set _ h]

theorem withdrawCluster_of_inService {k : Nat} {s : State} {K : Cluster} (h : s.clusters[k]? = some K)
    (hw : K.withdrawn = false) :
    withdrawCluster k s = retireCluster k (forcePreempt
      (enterDegraded { s with clusters := s.clusters.set k { K with withdrawn := true } })
      (crewsOn s fun x => clusterOf x == k)) := by
  simp [withdrawCluster, cluster_of_getElem h, hw, State.updCluster, modify_eq_set _ h]

/-- No crew to pre-empt: nothing changes. -/
@[simp] theorem forcePreempt_nil (s : State) : forcePreempt s [] = s := by
  simp [forcePreempt, unplace, takeAreas]

/-- A core that no crew is on. -/
def coreFree (s : State) (c : Nat) : Prop := ∀ cr ∈ s.crews, cr.onCore = true → cr.core ≠ c

theorem crewsOn_of_coreFree {s : State} {c : Nat} (h : coreFree s c) : crewsOn s (fun x => x == c) = [] := by
  simp only [crewsOn, List.filter_eq_nil_iff, List.mem_range]
  intro ci hci
  simpa [List.getElem?_eq_getElem hci] using h _ (List.getElem_mem hci)

theorem anyOn_of_coreFree {s : State} {c : Nat} (h : coreFree s c) : anyOn s (fun x => x == c) = false := by
  simpa [anyOn, coreFree] using h

theorem retireCore_of_coreFree {s : State} {c : Nat} {K : Core} (h : s.cores[c]? = some K) (hw : K.withdrawn = true)
    (hr : K.retired = false) (hfree : coreFree s c) :
    retireCore c s = countRetired { s with cores := s.cores.set c { K with retired := true } } := by
  simp [retireCore, core_of_getElem h, hw, hr, anyOn_of_coreFree hfree, State.updCore, modify_eq_set _ h]

/-- A core in service that no crew is on is withdrawn and retired at once. -/
theorem withdrawCore_of_coreFree {s : State} {c : Nat} {K : Core} (h : s.cores[c]? = some K) (hw : K.withdrawn = false)
    (hr : K.retired = false) (hfree : coreFree s c) :
    withdrawCore c s =
      let s1 := enterDegraded { s with cores := s.cores.set c { K with withdrawn := true } }
      countRetired { s1 with cores := s.cores.set c { K with withdrawn := true, retired := true } } := by
  have hc : c < s.cores.length := (List.getElem?_eq_some_iff.mp h).1
  rw [withdrawCore_of_inService h hw, crewsOn_of_coreFree hfree, forcePreempt_nil,
    retireCore_of_coreFree (K := { K with withdrawn := true }) (by simp [hc]) rfl hr (by simpa [coreFree] using hfree)]
  simp

theorem retireAtEnd_core_idle {s : State} {c : Nat} {K : Core} (part : CorePart) (h : s.cores[c]? = some K)
    (hs : K.lastSlot = none) : retireAtEnd (.core c part) s = withdrawCore c s := by
  simp [retireAtEnd, core_of_getElem h, hs, retire]

theorem retireAtEnd_core_busy {s : State} {c : Nat} {K : Core} (part : CorePart) (h : s.cores[c]? = some K)
    (hs : K.lastSlot ≠ none) : retireAtEnd (.core c part) s = { s with retiring := s.retiring ++ [.core c part] } := by
  simp [retireAtEnd, core_of_getElem h, Option.isSome_iff_ne_none.mpr hs]

/-! ### Retiring a unit outside the cores (R396) -/

theorem retireAtEnd_l2Slice (d i : Nat) (s : State) : retireAtEnd (.l2Slice d i) s =
    if (d, i) ∈ s.module.slicesOut then s
    else degrade { s with module := { s.module with
      l2MB := s.module.l2MB - 2, slicesOut := (d, i) :: s.module.slicesOut } } := by
  simp [retireAtEnd, retire]

theorem retireAtEnd_scribe (d : Nat) (s : State) : retireAtEnd (.scribe d) s =
    if d ∈ s.module.scribesOut then s
    else degrade { s with module := { s.module with scribesOut := d :: s.module.scribesOut } } := by
  simp [retireAtEnd, retire]

theorem retireAtEnd_memoryBlock (pa : Nat) (s : State) : retireAtEnd (.memoryBlock pa) s =
    if pa / 65536 ∈ s.module.pagesDue ∨ pa / 65536 ∈ s.module.pagesOut then s
    else degrade { s with module := { s.module with pagesDue := pa / 65536 :: s.module.pagesDue } } := by
  simp [retireAtEnd, retire]

/-- The retirement of what holds memory, a block of it or a slice of L2, is noted in the module alone. -/
theorem retireAtEnd_memory_frame {unit : HwUnit} {pa : Nat} (s : State)
    (h : unit = .memoryBlock pa ∨ ∃ d i, unit = .l2Slice d i) :
    (retireAtEnd unit s).poison = s.poison ∧ (retireAtEnd unit s).mem = s.mem ∧ (retireAtEnd unit s).crews = s.crews := by
  obtain rfl | ⟨d, i, rfl⟩ := h
  · rw [retireAtEnd_memoryBlock]
    split <;> simp
  · rw [retireAtEnd_l2Slice]
    split <;> simp

/-! ### Uncorrectable errors (R397) -/

theorem mem_insertBlock (b x : Nat) (l : List Nat) : x ∈ insertBlock b l ↔ x = b ∨ x ∈ l := by
  induction l with
  | nil => simp [insertBlock]
  | cons y ys ih =>
    simp only [insertBlock]
    split
    · simp
    · split
      · next h => simp [h]
      · simp only [List.mem_cons, ih]
        tauto

@[simp] theorem execUncorrectableError_other (unit : HwUnit) (s : State) :
    execUncorrectableError ⟨unit, .other⟩ s = .next (retireAtEnd unit s) := rfl

@[simp] theorem execUncorrectableError_memory (unit : HwUnit) (pa : Nat) (s : State) :
    execUncorrectableError ⟨unit, .memory pa⟩ s =
      .next (retireAtEnd unit { s with poison := insertBlock (pa / 64) s.poison }) := rfl

theorem execUncorrectableError_crewState {s : State} {ci : Nat} {cr : Crew} (unit : HwUnit) (h : s.crews[ci]? = some cr) :
    execUncorrectableError ⟨unit, .crewState ci⟩ s =
      .next (if holdsState cr unit = true then retireAtEnd unit (s.removeGrid cr.grid) else s) := by
  simp only [execUncorrectableError, h]
  split <;> rfl

/-- An error in memory poisons its block and no other, and neither memory nor a crew changes. -/
theorem execUncorrectableError_memory_spec {unit : HwUnit} {pa : Nat} (s : State)
    (h : unit = .memoryBlock pa ∨ ∃ d i, unit = .l2Slice d i) :
    ∃ t, execUncorrectableError ⟨unit, .memory pa⟩ s = .next t ∧ (∀ b, b ∈ t.poison ↔ b = pa / 64 ∨ b ∈ s.poison) ∧
      t.mem = s.mem ∧ t.crews = s.crews := by
  obtain ⟨hpoison, hmem, hcrews⟩ := retireAtEnd_memory_frame { s with poison := insertBlock (pa / 64) s.poison } h
  exact ⟨_, rfl, fun b => by rw [hpoison]; exact mem_insertBlock _ b _, hmem, hcrews⟩

/-! ### The clock and the trip (R400) -/

/-- Between its first and its last step the clock moves by one; at its end it stays. -/
theorem clock_steps {n : Nat} (h1 : 1 ≤ n) (h16 : n ≤ Config.clockSteps) :
    max 1 (n - 1) = (if n = 1 then 1 else n - 1) ∧ min Config.clockSteps (n + 1) = if n = 16 then 16 else n + 1 := by
  rw [Config.clockSteps] at *
  constructor <;> split <;> omega

/-! ### The state after reset (R391) -/

theorem Vf.length_unassigned : Vf.unassigned.length = 256 := by
  rw [Vf.unassigned, List.length_map, List.length_range]

/-- A module that is starting takes no work. -/
theorem works_of_starting {s : State} (h : s.module.state = .starting) : s.works = false := by
  simp [State.works, h]

/-- A device that takes no work, with nothing asked of it, stands still. -/
theorem step_of_idle {s : State} (ha : s.agenda = []) (hw : s.works = false) : step s = .next s := by
  simp [step, ha, ownTurn, hw]

end Sys2Proof.Machine

open Sys2Proof Sys2Proof.Machine

/-- Settles O48: the counts by R395 (`countSoft`), then each unit's retirement, each target of an uncorrectable error,
and the clock. -/
theorem errorEvents : Obligations.ErrorEvents := by
  refine ⟨fun unit addr counter s hfew => ?notLasting, fun unit a b counter s h => ?order, fun unit a b counter s h hfew => ?two,
    fun unit addr counter s hlast => ?lasting, fun pa addr counter s hlast hdue hout => ?page,
    fun cs unit addr counter c hc => ?counted, fun cs unit addr counter hc => ?uncounted,
    fun c part s K hK hslot hw hr hfree => ?coreIdle, fun c s K hK hw => withdrawCore_of_inService hK hw,
    fun k s K hK hw => withdrawCluster_of_inService hK hw, enterDegraded_module,
    fun c part s K hK hslot => ?coreBusy, fun d i s => ?slice, fun d s => ?scribe, fun unit pa s hunit => ?poison,
    fun unit ci s cr hcr => execUncorrectableError_crewState unit hcr, fun cr c k part part' hon hc hk => ?holds,
    fun s h1 h16 => ?clock, fun s => ?trip⟩
  case notLasting => simp [execSoftErrorCorrected_single, hfew, softCounted]
  case order => exact execSoftErrorCorrected_swap unit counter s h
  case two => exact execSoftErrorCorrected_pair unit counter s h hfew
  case lasting => simp [execSoftErrorCorrected_single, hlast, softCounted]
  case page =>
    refine ⟨_, by rw [exec_softErrorCorrected, execSoftErrorCorrected_single, if_pos hlast, retireAtEnd_memoryBlock], ?_⟩
    simp [softCounted, hdue, hout]
  case counted =>
    rw [countSoft_of_counted hc]
    exact ⟨by simp, _, List.mem_cons_self, rfl⟩
  case uncounted =>
    rw [countSoft_of_uncounted hc]
    exact ⟨rfl, List.mem_cons_self⟩
  case coreIdle =>
    refine ⟨_, by rw [exec_uncorrectableError, execUncorrectableError_other, retireAtEnd_core_idle part hK hslot,
      withdrawCore_of_coreFree hK hw hr hfree], ?_⟩
    simp
  case coreBusy => simp [retireAtEnd_core_busy part hK hslot]
  case slice => simp [retireAtEnd_l2Slice]
  case scribe => simp [retireAtEnd_scribe]
  case poison =>
    obtain ⟨t, hexec, hpoison, hmem, hcrews⟩ := execUncorrectableError_memory_spec s hunit
    exact ⟨t, hexec, (hpoison _).mpr (.inl rfl), fun b hb => (hpoison b).mpr (.inr hb), fun b => (hpoison b).mp, hmem, hcrews⟩
  case holds =>
    subst hc hk
    simp [holdsState, hon]
  case clock =>
    obtain ⟨hdown, hup⟩ := clock_steps h1 h16
    simp only [exec_powerThermalThrottle, exec_clockRestore, execPowerThermalThrottle, execClockRestore, hdown, hup, and_self]
  case trip =>
    refine ⟨_, rfl, rfl, ?_, rfl, rfl, rfl, rfl, rfl⟩
    simp [State.works]

/-- Settles O57: the fields of `State.reset`, and `step_of_idle`. -/
theorem resetState : Obligations.ResetState := by
  have hworks : State.reset.works = false := works_of_starting rfl
  refine ⟨State.reset_formed, rfl, rfl, rfl, rfl, hworks, rfl, rfl, List.length_replicate, List.length_replicate,
    Vf.length_unassigned, ?cores, fun _ => rfl, step_of_idle rfl hworks⟩
  case cores =>
    intro k hk
    rw [List.eq_of_mem_replicate hk]
    exact ⟨rfl, rfl⟩
end

section
/-!
PROOFS. Words that trap, wait, or are no instruction (R31, R95, R98, R99).
-/

namespace Sys2Proof.Machine

open Sys2Proof

/-- A word that is no hint and meets a condition of R99 traps in every active lane. -/
theorem exec_of_wordTrap {i : Instr} {s : State} {c : Ctx} {tr : Trap} (hw : i.isWord = true) (hh : i.isHint = false)
    (hc : s.ctx? = some c) (ht : wordTrap i.info c = some tr) : exec i s = .next (trapAll c tr c.start s) := by
  obtain ⟨short, eff, heq⟩ := exec_framed i hw hh s
  rw [heq, frameWith_of_trap hc ht]

/-- A word that waits for a register changes nothing. -/
theorem exec_of_stalls {i : Instr} {s : State} {c : Ctx} (hw : i.isWord = true) (hh : i.isHint = false)
    (hc : s.ctx? = some c) (ht : wordTrap i.info c = none) (hs : stalls i.info s c = true) : exec i s = .next s := by
  obtain ⟨short, eff, heq⟩ := exec_framed i hw hh s
  rw [heq, frameWith_of_stall hc ht (by rw [hs, Bool.true_or])]

/-- The fate of a word that is no instruction: which trap, and where it is recorded. -/
theorem exec_unassignedWord {s : State} {c : Ctx} (w : Word) (hc : s.ctx? = some c) :
    exec (.unassignedWord w) s = .next (trapAll c
      (if w.extractLsb' 25 6 == 0x26#6 && w.getLsbD 15 && !(w.getLsbD 24 && w.extractLsb' 18 6 != 0#6) &&
        decide (c.g.count < Config.runWords) then .illegalOperand else .illegalInstruction)
      (if w.extractLsb' 25 6 == 0x3F#6 then c.addr else c.start) s) := by
  show execUnassignedWord w s = _
  simp only [execUnassignedWord, hc]

end Sys2Proof.Machine

open Sys2Proof Sys2Proof.Machine

/-- Settles O52: through the frame of R102 (`exec_framed`), and the cases of a word that is no instruction by its
opcode. -/
theorem wordTraps : Obligations.WordTraps := by
  refine ⟨fun i s c tr hw hh hc ht => exec_of_wordTrap hw hh hc ht,
    fun i s c hw hh hc ht hs => exec_of_stalls hw hh hc ht hs,
    fun w s c hc hblend hhint => ?other, fun w s c hc hhint => ?hint, fun w s c hc hblend h15 h24 hcount => ?blend,
    fun c tr pc s => rfl, fun th tr a pc => rfl⟩
  case other => simp [exec_unassignedWord w hc, hblend, hhint]
  case hint => simp [exec_unassignedWord w hc, hhint]
  case blend =>
    rw [exec_unassignedWord w hc, hblend, h15, h24]
    simp [Config.runWords, hcount]
end

section
/-!
PROOFS. One step of the device: the turn that it takes, and the word that the turn executes (R29, R31, R61, R82, R191,
log 2).
-/

namespace Sys2Proof.Machine

open Sys2Proof

/-! ### The turn that a step takes -/

theorem step_of_agenda {s : State} {t : Turn} {r : List Turn} (h : s.agenda = t :: r) :
    step s = turn t { s with agenda := r } := by
  simp only [step, h]

theorem withAgenda_self {s : State} {l : List Turn} (h : s.agenda = l) : { s with agenda := l } = s := by
  subst h
  rfl

theorem step_of_ownTurn {s : State} {t : Turn} (ha : s.agenda = []) (ht : ownTurn s = some t) : step s = turn t s := by
  simp only [step, ha, ht]

theorem turn_word (core slot : Nat) (s : State) : turn (.word core slot) s = typedOut s (runWord core slot s) := rfl

theorem turn_endCycle (core : Nat) (s : State) (hw : s.works = true) :
    turn (.endCycle core) s = typedOut s (.next (endCycle core s)) := by
  simp only [turn, Turn.restores, runTurn, hw, Bool.false_eq_true, if_false, if_true]

/-- An event is a step of the device that no word encodes. -/
theorem runEvent_of_event {i : Instr} (s : State) (hw : i.isWord = false) (hu : ∀ w, i ≠ .unassignedWord w) :
    runEvent i s = exec i s := by
  unfold runEvent
  split
  · exact absurd rfl (hu _)
  · rw [hw, if_neg Bool.false_ne_true]

theorem turn_event {i : Instr} (s : State) (hw : i.isWord = false) (hu : ∀ w, i ≠ .unassignedWord w)
    (hr : ∀ p t, i ≠ .checkpointRestore p t) : turn (.event i) s = typedOut s (exec i s) := by
  have hres : Turn.restores (.event i) = false := by
    unfold Turn.restores
    split
    · next h => exact absurd (Turn.event.inj h) (hr _ _)
    · rfl
  rw [turn, hres, if_neg Bool.false_ne_true, runTurn, runEvent_of_event s hw hu]

theorem turn_restore (p : Option Nat) (t : Dword) (s : State) :
    turn (.event (.checkpointRestore p t)) s = exec (.checkpointRestore p t) s := rfl

/-! ### The word of a slot -/

/-- A placed word is the next turn; the other partitions, the queues and what left the device stay. -/
theorem withFetchWord_spec (s : State) (nbits w : Nat) :
    (s.withFetchWord nbits w).agenda = .word 0 0 :: s.agenda ∧
    (s.withFetchWord nbits w).parts.drop 1 = s.parts.drop 1 ∧ (s.withFetchWord nbits w).queues = s.queues ∧
    (s.withFetchWord nbits w).out = s.out := by
  simp only [State.withFetchWord, loadWord, List.drop_succ_cons, List.drop_zero, and_self]

/-- Within its 24 words, a group whose fetch goes well executes what it fetched. -/
theorem runWord_of_fetched {core slot : Nat} {s s1 : State} {c : Ctx} {w : Nat}
    (hs : atSlot core slot s = s1) (hw : s.works = true) (hc : s1.ctx? = some c) (hn : c.g.count < 24)
    (hf : fetchWord s1 c = .ok w) :
    runWord core slot s = runDecoded (BitVec.ofNat 32 w) (fetched c s1) := by
  simp only [runWord, hw, hs, hc, hf, Config.runWords, Bool.not_true, Bool.false_eq_true, if_false, Nat.not_le.mpr hn]

/-- R29: after 24 words of a run nothing is fetched. -/
theorem runWord_of_full {core slot : Nat} {s s1 : State} {c : Ctx} (hs : atSlot core slot s = s1) (hw : s.works = true)
    (hc : s1.ctx? = some c) (hn : 24 ≤ c.g.count) :
    runWord core slot s = .next (trapAll c .illegalInstruction c.addr s1) := by
  simp only [runWord, hw, hs, hc, Config.runWords, Bool.not_true, Bool.false_eq_true, if_false, if_pos hn]

theorem runDecoded_of_some {w : Word} {i : Instr} (s : State) (h : decode w = some i) : runDecoded w s = exec i s := by
  simp only [runDecoded, h]

theorem runDecoded_of_none {w : Word} (s : State) (h : decode w = none) :
    runDecoded w s = exec (.unassignedWord w) s := by
  simp only [runDecoded, h]
  rfl

/-- Within a cycle that has executed no word, a turn at a slot makes the slot the current one. -/
theorem atSlot_of_idle {core : Nat} (slot : Nat) {s : State} (h : (s.core core).lastSlot = none) :
    atSlot core slot s = { s with
      cur := (core, slot)
      cores := s.cores.modify core fun k => { k with lastSlot := some slot } } := by
  have h' : (({ s with cur := (core, slot) } : State).core core).lastSlot = none := h
  simp only [atSlot, h', Option.any_none, Bool.false_eq_true, if_false]
  rfl

theorem fetched_of_no_faults {c : Ctx} {s : State} (h : (s.core c.core).faults = []) : fetched c s = s := by
  simp only [fetched, h, List.isEmpty_nil, if_true]

/-! ### Pages that a turn makes typed (R61, R191) -/

theorem freshTyped_of_no_desc {b t : State} (h : t.desc = []) : b.freshTyped t = t := by
  simp only [State.freshTyped, h, List.isEmpty_nil, if_true]

/-- Where no frame is newly typed, every descriptor stays. -/
theorem freshTyped_of_same_typed {b t : State} (h : b.typedNow = t.typedNow) : b.freshTyped t = t := by
  unfold State.freshTyped
  split
  · rfl
  · have hall : t.desc.filter (fun x => b.typedNow.contains (x.1 / 1024) || !t.typedNow.contains (x.1 / 1024)) = t.desc :=
      List.filter_eq_self.mpr fun x _ => by rw [h, Bool.or_not_self]
    simp only [hall]

theorem freshTyped_desc (b t : State) : b.freshTyped t = { t with desc := (b.freshTyped t).desc } := by
  unfold State.freshTyped
  split <;> rfl

theorem mem_freshTyped_desc (b t : State) (x : Nat × BitVec 16) :
    x ∈ (b.freshTyped t).desc ↔ x ∈ t.desc ∧ (x.1 / 1024 ∈ b.typedNow ∨ x.1 / 1024 ∉ t.typedNow) := by
  unfold State.freshTyped
  split
  · next h => simp [List.isEmpty_iff.mp h]
  · simp

/-- A turn that ends well ended well before its newly typed pages lost their descriptors. -/
theorem typedOut_next {b t : State} {r : Out} (h : typedOut b r = .next t) :
    ∃ t', r = .next t' ∧ t = b.freshTyped t' := by
  cases r with
  | next t' => exact ⟨t', rfl, (Host.Outcome.next.inj h).symm⟩
  | fault f => cases h
  | refused f => cases h

end Sys2Proof.Machine

open Sys2Proof Sys2Proof.Machine

/-- Settles O50: each kind of turn by its own equation (`turn_word`, `turn_endCycle`, `turn_event`, `turn_restore`), and
the word of a slot by `runWord_of_fetched` and `runWord_of_full`. -/
theorem stepRunsDecodedWord : Obligations.StepRunsDecodedWord := by
  refine ⟨fun core slot r s s1 c w i ha hw hs hc hn hf hd => ?word,
    fun core slot r s s1 c w ha hw hs hc hn hf hd => ?none,
    fun core slot r s s1 c ha hw hs hc hn => ?full,
    fun b t r => ⟨rfl, fun _ => rfl, fun h => ?typed⟩,
    fun b t h => congrArg _ (freshTyped_of_no_desc h), fun b t h => congrArg _ (freshTyped_of_same_typed h),
    fun core slot s h => atSlot_of_idle slot h, fun c s h => fetched_of_no_faults h,
    fun i r s ha hw hu => ⟨fun hr => ?event, ?restore⟩, fun core r s ha hw => ?cycle, fun s t ha ht => ?own,
    fun s ha ht => ?still, fun nbits w s => ⟨_, rfl, withFetchWord_spec s nbits w⟩⟩
  case word => rw [step_of_agenda ha, turn_word, runWord_of_fetched hs hw hc hn hf, runDecoded_of_some _ hd]
  case none => rw [step_of_agenda ha, turn_word, runWord_of_fetched hs hw hc hn hf, runDecoded_of_none _ hd]
  case full => rw [step_of_agenda ha, turn_word, runWord_of_full hs hw hc hn]
  case typed =>
    obtain ⟨t', hr, rfl⟩ := typedOut_next h
    exact ⟨t', hr, freshTyped_desc b t', mem_freshTyped_desc b t'⟩
  case event => rw [step_of_agenda ha, turn_event _ hw hu hr]
  case restore =>
    rintro ⟨p, t, rfl⟩
    rw [step_of_agenda ha, turn_restore]
  case cycle => rw [step_of_agenda ha, turn_endCycle core { s with agenda := r } hw]
  case own => rw [step_of_ownTurn ha ht, step_of_agenda rfl, withAgenda_self ha]
  case still => simp only [step, ha, ht]
end

section
/-!
PROOFS. Results that arrive (R31, R34, R202).
-/

namespace Sys2Proof.Machine

open Sys2Proof

@[simp] theorem exec_loadDataArrival (i : Nat) (s : State) : exec (.loadDataArrival i) s = execLoadDataArrival i s := rfl

theorem updLane_lane (s : State) (ci li : Nat) (f : Lane → Lane) :
    (s.updLane ci li f).lane? ci li = (s.lane? ci li).map f := by
  cases h : s.crews[ci]? <;> simp [State.lane?, h]

theorem thread_updThread (l : Lane) (f : Thread → Thread) : (l.updThread f).thread? = l.thread?.map f := by
  cases h : l.occ <;> simp [Lane.updThread, Lane.thread?, h]

theorem updThread_thread (s : State) (ci li : Nat) (f : Thread → Thread) :
    (s.updThread ci li f).thread? ci li = (s.thread? ci li).map f := by
  rw [State.updThread, State.thread?, updLane_lane, State.thread?]
  cases s.lane? ci li with
  | none => rfl
  | some l => exact thread_updThread l f

/-- Registers written to a lane leave its occupant alone. -/
theorem occ_setRegs (l : Lane) (ws : List (Nat × Reg)) : (l.setRegs ws).occ = l.occ := by
  unfold Lane.setRegs
  induction ws generalizing l with
  | nil => rfl
  | cons w ws ih => exact ih (l.setV w.1 w.2)

/-- A result that reaches its lane leaves the thread's run state alone. -/
theorem run_setFlags_setRegs (l : Lane) (ws : List (Nat × Reg)) (f : BitVec 6) :
    ((l.setRegs ws).setFlags f).thread?.map Thread.run = l.thread?.map Thread.run := by
  have hthread : (l.setRegs ws).thread? = l.thread? := by rw [Lane.thread?, occ_setRegs, Lane.thread?]
  rw [Lane.setFlags, thread_updThread, hthread, Option.map_map]
  rfl

/-- What is still owed to a lane is the writes of results on their way: a prefetch, which writes no register (R202), does
not count.  A waiting thread to which nothing is owed after an arrival becomes ready when the cycle ends. -/
theorem loadDataArrival_wakes {i : Nat} {s : State} {a : Arrival} (ha : s.arrivals[i]? = some a)
    (hrun : (s.thread? a.crew a.lane).map Thread.run = some .waiting)
    (howed : (s.arrivals.eraseIdx i).any (fun x => x.crew == a.crew && x.lane == a.lane && !x.writes.isEmpty) = false) :
    ∃ t, exec (.loadDataArrival i) s = .next t ∧ (t.thread? a.crew a.lane).map Thread.run = some (.waking none) := by
  let s1 : State := { s.updLane a.crew a.lane fun l => (l.setRegs a.writes).setFlags a.flags with
    arrivals := s.arrivals.eraseIdx i }
  have hsettle : settle s1 a.crew a.lane = s1.updThread a.crew a.lane fun t =>
      if t.run = .waiting then { t with run := .waking none } else t := if_neg (by simp [State.outstanding, s1, howed])
  have hrun1 : (s1.thread? a.crew a.lane).map Thread.run = some .waiting := by
    have hlane : s1.lane? a.crew a.lane = (s.lane? a.crew a.lane).map fun l => (l.setRegs a.writes).setFlags a.flags :=
      updLane_lane s a.crew a.lane _
    rw [← hrun, State.thread?, hlane, State.thread?]
    cases s.lane? a.crew a.lane with
    | none => rfl
    | some l => exact run_setFlags_setRegs l a.writes a.flags
  refine ⟨settle s1 a.crew a.lane, by simp [execLoadDataArrival, ha, s1], ?_⟩
  rw [hsettle, updThread_thread]
  obtain ⟨th, hth, hwait⟩ := Option.map_eq_some_iff.mp hrun1
  simp [hth, hwait]

/-- A thread that waits for a load of V0, with a prefetch of its own on its way as well. -/
def loadAndPrefetch : State :=
  { ((State.reset.withFetchWord 32 0).clearSlot 0 0).updThread 0 0 fun t => { t with run := .waiting } with
    arrivals := [⟨0, 0, [(0, ⟨1, [0]⟩)], 0, 0, [0x8000]⟩, ⟨0, 0, [], 0, 1, [0x8001]⟩] }

theorem loadAndPrefetch_waits : (loadAndPrefetch.thread? 0 0).map Thread.run = some .waiting := by decide +kernel

end Sys2Proof.Machine

open Sys2Proof Sys2Proof.Machine

/-- Refutes O34: its sixth clause lets every request on its way keep a thread waiting.  A prefetch writes no register and
is no result (R202, R34), so in `loadAndPrefetch` the thread becomes ready once its load has arrived, while the
prefetch is still on its way; the clause says that it goes on waiting. -/
theorem not_pickerAndArrivals : ¬ Obligations.PickerAndArrivals := by
  rintro ⟨-, -, -, -, -, harrival, -⟩
  obtain ⟨t, hexec, hwakes⟩ := loadDataArrival_wakes (i := 0) (s := loadAndPrefetch) rfl loadAndPrefetch_waits rfl
  obtain ⟨th, hthread, hwait⟩ := Option.map_eq_some_iff.mp loadAndPrefetch_waits
  obtain ⟨l, hlane, hl⟩ := Option.bind_eq_some_iff.mp hthread
  obtain ⟨t', l', hexec', -, hlane', -, -, -, hclaim⟩ := harrival 0 loadAndPrefetch _ l rfl hlane
  obtain ⟨th', hth', -, -, hrun⟩ := hclaim th hl
  obtain rfl : t' = t := Host.Outcome.next.inj (hexec'.symm.trans hexec)
  have hwaits : (t'.thread? 0 0).map Thread.run = some .waiting := by
    rw [State.thread?, hlane']
    simpa [hth', hwait, loadAndPrefetch] using hrun
  exact absurd (hwaits.symm.trans hwakes) (by decide)
end

section
/-!
PROOFS. The bytes of a thread record in a save area: what was written is what is read (R355, R356, R361).
-/

namespace Sys2Proof.Machine

open Sys2Proof

/-! ### Numbers as bytes -/

@[simp] theorem leBytes_length (n w : Nat) : (leBytes n w).length = n := by
  induction n generalizing w with
  | zero => rfl
  | succ n ih => simp [leBytes, ih]

theorem leNat_leBytes (n w : Nat) : leNat (leBytes n w) = w % 256 ^ n := by
  induction n generalizing w with
  | zero => simp [leBytes, leNat, Nat.mod_one]
  | succ n ih =>
    have hlow : (BitVec.ofNat 8 w).toNat = w % 256 := BitVec.toNat_ofNat w 8
    rw [leBytes, leNat, ih, hlow, Nat.pow_succ', Nat.mod_mul]

theorem bytesOf_cons (k x : Nat) (xs : List Nat) : bytesOf k (x :: xs) = leBytes k x ++ bytesOf k xs := rfl

theorem bytesOf_append (k : Nat) (xs ys : List Nat) : bytesOf k (xs ++ ys) = bytesOf k xs ++ bytesOf k ys :=
  List.flatMap_append ..

@[simp] theorem bytesOf_length (k : Nat) (xs : List Nat) : (bytesOf k xs).length = k * xs.length := by
  induction xs with
  | nil => rfl
  | cons x xs ih => rw [bytesOf_cons, List.length_append, leBytes_length, ih, List.length_cons, Nat.mul_succ, Nat.add_comm]

/-- Number `i` of a list of numbers, read back from their bytes. -/
theorem numAt_bytesOf {k : Nat} {xs : List Nat} (rest : List Byte) {i x : Nat} (h : xs[i]? = some x) (hx : x < 256 ^ k) :
    numAt (bytesOf k xs ++ rest) (k * i) k = x := by
  induction xs generalizing i with
  | nil => simp at h
  | cons y ys ih =>
    rw [bytesOf_cons, List.append_assoc]
    cases i with
    | zero =>
      obtain rfl : y = x := by simpa using h
      rw [numAt, Nat.mul_zero, List.drop_zero, List.take_left' (leBytes_length k y), leNat_leBytes, Nat.mod_eq_of_lt hx]
    | succ i =>
      rw [← ih (by simpa using h), numAt, numAt, Nat.mul_succ, Nat.add_comm, ← List.drop_drop,
        List.drop_left' (leBytes_length k y)]

/-- Entry `r * m + j` of lists of `m` entries each, one after another, is entry `j` of list `r`. -/
theorem getElem?_flatMap_block {α β : Type} {m : Nat} {f : α → List β} {xs : List α} (hlen : ∀ x ∈ xs, (f x).length = m)
    {r j : Nat} {x : α} (hr : xs[r]? = some x) (hj : j < m) : (xs.flatMap f)[r * m + j]? = (f x)[j]? := by
  induction xs generalizing r with
  | nil => simp at hr
  | cons y ys ih =>
    have hy : (f y).length = m := hlen y List.mem_cons_self
    rw [List.flatMap_cons]
    cases r with
    | zero =>
      obtain rfl : y = x := by simpa using hr
      rw [Nat.zero_mul, Nat.zero_add, List.getElem?_append_left (by omega)]
    | succ r =>
      rw [List.getElem?_append_right (by rw [hy, Nat.succ_mul]; omega), hy,
        show (r + 1) * m + j - m = r * m + j by rw [Nat.succ_mul]; omega]
      exact ih (fun x hx => hlen x (List.mem_cons_of_mem _ hx)) (by simpa using hr)

/-! ### Registers -/

/-- The words of a register: its primal, then its tangents. -/
def Reg.words (x : Reg) : List Nat := x.prim.toNat :: x.tan.map BitVec.toNat

theorem Lane.words_eq (l : Lane) : l.words = (l.v ++ l.q).flatMap Reg.words := rfl

/-- Registers of `t` tangents, read back from their words. -/
theorem regsOf_words {t : Nat} {rs : List Reg} (rest : List Byte) (ht : ∀ x ∈ rs, x.tan.length = t) :
    regsOf rs.length t (bytesOf 4 (rs.flatMap Reg.words) ++ rest) = rs := by
  have hlen : ∀ x ∈ rs, (Reg.words x).length = 1 + t := fun x hx => by simp [Reg.words, ht x hx, Nat.add_comm]
  have hword : ∀ (r j : Nat) (x : Reg) (w : Word), rs[r]? = some x → (Reg.words x)[j]? = some w.toNat →
      BitVec.ofNat 32 (numAt (bytesOf 4 (rs.flatMap Reg.words) ++ rest) (4 * (r * (1 + t) + j)) 4) = w := by
    intro r j x w hr hj
    have hjlt : j < 1 + t := hlen x (List.mem_of_getElem? hr) ▸ (List.getElem?_eq_some_iff.mp hj).1
    rw [numAt_bytesOf rest ((getElem?_flatMap_block hlen hr hjlt).trans hj) w.isLt, BitVec.ofNat_toNat, BitVec.setWidth_eq]
  apply List.ext_getElem (by simp [regsOf])
  intro r h1 h2
  have hr : rs[r]? = some rs[r] := List.getElem?_eq_getElem h2
  have htan : rs[r].tan.length = t := ht _ (List.getElem_mem h2)
  simp only [regsOf, List.getElem_map, List.getElem_range]
  generalize hx : rs[r] = x at hr htan
  obtain ⟨prim, tan⟩ := x
  congr 1
  · simpa using hword r 0 _ prim hr rfl
  · apply List.ext_getElem (by simpa using htan.symm)
    intro j hj1 hj2
    simp only [List.getElem_map, List.getElem_range]
    exact hword r (j + 1) _ tan[j] hr (by simp [Reg.words, hj2])

/-! ### The records of a trap and of a wait -/

theorem fld_eq (w hi lo : Nat) : fld w hi lo = w / 2 ^ lo % 2 ^ (hi + 1 - lo) := by
  rw [fld, Nat.shiftRight_eq_div_pow]

theorem TrapRec.word_lt (r : TrapRec) : r.word < 2 ^ 64 := by
  have hcause := r.cause.isLt
  have hcode := r.code.isLt
  have hnest := r.nest.toNat_le
  have hheld := r.held.toNat_le
  simp only [TrapRec.word]
  omega

theorem TrapRec.ofWords_word (r : TrapRec) : TrapRec.ofWords r.word r.addr.toNat = some r := by
  obtain ⟨code, cause, nest, held, addr⟩ := r
  have hcause := cause.isLt
  have hcode := code.isLt
  have hnest := nest.toNat_le
  have hheld := held.toNat_le
  generalize hw : TrapRec.word ⟨code, cause, nest, held, addr⟩ = w
  simp only [TrapRec.word] at hw
  have hvalid : fld w 63 56 ≠ 0 := by rw [fld_eq]; omega
  have hcodeAt : fld w 51 48 = code.toNat := by rw [fld_eq]; omega
  have hcauseAt : fld w 55 52 = cause.toNat := by rw [fld_eq]; omega
  have hnestAt : bitAt w 32 = nest := by
    rw [bitAt, Nat.testBit_eq_decide_div_mod_eq]
    cases nest <;> simp at hw ⊢ <;> omega
  have hheldAt : decide (fld w 31 0 ≠ 0) = held := by
    rw [fld_eq]
    cases held <;> simp at hw ⊢ <;> omega
  simp only [TrapRec.ofWords, if_neg hvalid, hcodeAt, hcauseAt, hnestAt, hheldAt, BitVec.ofNat_toNat, BitVec.setWidth_eq]

/-- A pending wait whose numbers fit the fields of PW (R355). -/
def PendWait.fits : PendWait → Prop
  | .barSyn b _ => b < 2 ^ 8
  | .gbar b _ => b < 2 ^ 8
  | .mbPut _ _ => True
  | .mbTake _ _ => True
  | .trace o => o < 2 ^ 32
  | .tracep n o => n < 2 ^ 8 ∧ o < 2 ^ 32

/-- What PW puts together: the form, the barrier or count, and the low half. -/
def PendWait.parts : PendWait → Nat × Nat × Nat
  | .barSyn b k => (1, b, k.toNat)
  | .gbar b k => (2, b, k.toNat)
  | .mbPut _ k => (3, 0, k.toNat)
  | .mbTake _ k => (4, 0, k.toNat)
  | .trace o => (5, 0, o)
  | .tracep n o => (6, n, o)

theorem PendWait.words_eq (w : PendWait) : w.words.1 = w.parts.1 * 2 ^ 56 + w.parts.2.1 * 2 ^ 48 + w.parts.2.2 := by
  cases w <;> simp only [PendWait.words, PendWait.parts] <;> omega

theorem PendWait.parts_lt {w : PendWait} (h : w.fits) : w.parts.1 < 2 ^ 8 ∧ w.parts.2.1 < 2 ^ 8 ∧ w.parts.2.2 < 2 ^ 32 := by
  cases w <;> simp only [PendWait.fits, PendWait.parts] at h ⊢ <;> omega

theorem PendWait.words_lt {w : PendWait} (h : w.fits) : w.words.1 < 2 ^ 64 ∧ w.words.2 < 2 ^ 64 := by
  obtain ⟨hform, hb, hk⟩ := parts_lt h
  refine ⟨by rw [words_eq]; omega, ?_⟩
  cases w <;> simp only [PendWait.words] <;> omega

theorem PendWait.ofWords_words {w : PendWait} (h : w.fits) : PendWait.ofWords w.words.1 w.words.2 = some w := by
  obtain ⟨hform, hb, hk⟩ := parts_lt h
  have hformAt : fld w.words.1 63 56 = w.parts.1 := by rw [words_eq, fld_eq]; omega
  have hbAt : fld w.words.1 55 48 = w.parts.2.1 := by rw [words_eq, fld_eq]; omega
  have hkAt : fld w.words.1 31 0 = w.parts.2.2 := by rw [words_eq, fld_eq]; omega
  simp only [PendWait.ofWords, hformAt, hbAt, hkAt]
  cases w <;> simp only [PendWait.parts, PendWait.words, BitVec.ofNat_toNat, BitVec.setWidth_eq]

/-! ### The record of a saved thread -/

/-- The 32 words of 8 bytes before the registers in the record of a thread that was saved in full (R355). -/
def Thread.recordHead (t : Thread) (key ctr : Dword) : List Nat :=
  let w := (t.pendWait.map PendWait.words).getD (0, 0)
  [3 * 2 ^ 60 + t.pc.toNat, key.toNat, ctr.toNat, 0, t.flags.toNat + t.depth * 2 ^ 32, w.1, w.2, t.tid] ++
    t.stack.map BitVec.toNat ++
    [(t.trap.map TrapRec.word).getD 0, (t.trap.map fun r => r.addr.toNat).getD 0] ++ List.replicate 6 0

theorem record_of_saved (p : BitVec 512) {l : Lane} {t : Thread} (hocc : l.occ = .thread t) (hregion : t.region = none) :
    l.record p = padTo (recSize p) (bytesOf 8 (t.recordHead l.key l.ctr) ++ bytesOf 4 l.words) := by
  have hzeros : bytesOf 8 (List.replicate 6 0) = List.replicate 48 0 := by decide
  simp only [Lane.record, hocc, hregion, Thread.recordHead, bytesOf_append, hzeros, Option.isSome_none,
    Bool.false_eq_true, if_false]

/-- What a thread must be like for its record to hold all of it. -/
structure Thread.Recordable (t : Thread) : Prop where
  tid : t.tid < 2 ^ 10
  depth : t.depth ≤ 16
  stack : t.stack.length = 16
  wait : ∀ w, t.pendWait = some w → w.fits

section
variable {t : Thread} {key ctr : Dword}

theorem Thread.length_recordHead (h : t.Recordable) : (t.recordHead key ctr).length = 32 := by
  simp [Thread.recordHead, h.stack]

/-- The words of the wait and of the trap, where there is none as where there is one. -/
theorem Thread.waitWords_lt (h : t.Recordable) :
    ((t.pendWait.map PendWait.words).getD (0, 0)).1 < 2 ^ 64 ∧ ((t.pendWait.map PendWait.words).getD (0, 0)).2 < 2 ^ 64 := by
  cases hw : t.pendWait with
  | none => decide
  | some w => exact PendWait.words_lt (h.wait w hw)

theorem Thread.trapWords_lt (t : Thread) :
    (t.trap.map TrapRec.word).getD 0 < 2 ^ 64 ∧ (t.trap.map fun r => r.addr.toNat).getD 0 < 2 ^ 64 := by
  cases t.trap with
  | none => decide
  | some r => exact ⟨r.word_lt, Nat.lt_trans r.addr.isLt (by decide)⟩

theorem Thread.recordHead_lt (h : t.Recordable) : ∀ x ∈ t.recordHead key ctr, x < 2 ^ 64 := by
  obtain ⟨hw1, hw2⟩ := waitWords_lt h
  obtain ⟨ht1, ht2⟩ := t.trapWords_lt
  have hpc := t.pc.isLt
  have hflags := t.flags.isLt
  have hdepth := h.depth
  have htid := h.tid
  have hstack : ∀ x ∈ t.stack.map BitVec.toNat, x < 2 ^ 64 := by
    intro x hx
    obtain ⟨w, -, rfl⟩ := List.mem_map.mp hx
    exact w.isLt
  have hkey := key.isLt
  have hctr := ctr.isLt
  simp only [Thread.recordHead, List.forall_mem_append, List.forall_mem_cons, List.not_mem_nil, false_imp_iff,
    implies_true, and_true]
  refine ⟨⟨⟨⟨?_, hkey, hctr, by decide, ?_, hw1, hw2, ?_⟩, hstack⟩, ht1, ht2⟩, ?_⟩
  · omega
  · omega
  · omega
  · intro x hx
    rw [List.eq_of_mem_replicate hx]
    decide

theorem Thread.recordHead_stack (h : t.Recordable) {i : Nat} {w : Dword} (hw : t.stack[i]? = some w) :
    (t.recordHead key ctr)[8 + i]? = some w.toNat := by
  have hi : i < 16 := h.stack ▸ (List.getElem?_eq_some_iff.mp hw).1
  rw [Thread.recordHead, List.append_assoc, List.append_assoc, List.getElem?_append_right (by simp)]
  rw [List.getElem?_append_left (by simp [h.stack, hi])]
  simp [hw]

theorem Thread.recordHead_trap (h : t.Recordable) :
    (t.recordHead key ctr)[24]? = some ((t.trap.map TrapRec.word).getD 0) ∧
    (t.recordHead key ctr)[25]? = some ((t.trap.map fun r => r.addr.toNat).getD 0) := by
  simp [Thread.recordHead, h.stack]

end

/-- A word of the head of a record, where it stands. -/
theorem numAt_record {p : BitVec 512} {l : Lane} {t : Thread} (hocc : l.occ = .thread t) (hregion : t.region = none)
    (h : t.Recordable) {a i x : Nat} (hx : (t.recordHead l.key l.ctr)[i]? = some x) (ha : a = 8 * i) :
    numAt (l.record p) a 8 = x := by
  rw [record_of_saved p hocc hregion, padTo, List.append_assoc, ha]
  exact numAt_bytesOf _ hx (Thread.recordHead_lt h x (List.mem_of_getElem? hx))

/-- The registers in a record, behind its head. -/
theorem regsOf_record {p : BitVec 512} {l : Lane} {t : Thread} (hocc : l.occ = .thread t) (hregion : t.region = none)
    (h : t.Recordable) (hlen : (l.v ++ l.q).length = pktC p + 8) (htan : ∀ x ∈ l.v ++ l.q, x.tan.length = pktT p) :
    regsOf (pktC p + 8) (pktT p) ((l.record p).drop 256) = l.v ++ l.q := by
  have hhead : (bytesOf 8 (t.recordHead l.key l.ctr)).length = 256 := by rw [bytesOf_length, Thread.length_recordHead h]
  rw [record_of_saved p hocc hregion, padTo, List.append_assoc, List.drop_left' hhead, ← hlen, Lane.words_eq]
  exact regsOf_words _ htan

/-- The word of a trap in a record, read back. -/
theorem TrapRec.ofWords_of_trap (trap : Option TrapRec) :
    TrapRec.ofWords ((trap.map TrapRec.word).getD 0) ((trap.map fun r => r.addr.toNat).getD 0) = trap := by
  cases trap with
  | none => rfl
  | some r => exact r.ofWords_word

/-- The words of a wait in a record, read back. -/
theorem PendWait.ofWords_of_wait {wait : Option PendWait} (h : ∀ w, wait = some w → w.fits) :
    PendWait.ofWords ((wait.map PendWait.words).getD (0, 0)).1 ((wait.map PendWait.words).getD (0, 0)).2 = wait := by
  cases wait with
  | none => rfl
  | some w => exact PendWait.ofWords_words (h w rfl)

/-- The call stack in a record, read back. -/
theorem stack_record {p : BitVec 512} {l : Lane} {t : Thread} (hocc : l.occ = .thread t) (hregion : t.region = none)
    (h : t.Recordable) :
    (List.range Config.callDepth).map (fun i => BitVec.ofNat 64 (numAt (l.record p) (64 + 8 * i) 8)) = t.stack := by
  apply List.ext_getElem (by simp [h.stack, Config.callDepth])
  intro i _ hi
  have hw : numAt (l.record p) (64 + 8 * i) 8 = t.stack[i].toNat :=
    numAt_record hocc hregion h (Thread.recordHead_stack h (List.getElem?_eq_getElem hi)) (by omega)
  simp [hw]

/-- PCST: the state above the program counter (R355). -/
theorem pcst_fields (pc : BitVec 56) :
    fld (3 * 2 ^ 60 + pc.toNat) 63 60 = 3 ∧ fld (3 * 2 ^ 60 + pc.toNat) 55 0 = pc.toNat := by
  have hpc := pc.isLt
  simp only [fld_eq]
  omega

/-- The call depth above the flags (R355). -/
theorem depthWord_fields (flags : BitVec 6) {depth : Nat} (h : depth ≤ 16) :
    fld (flags.toNat + depth * 2 ^ 32) 36 32 = depth ∧ BitVec.ofNat 6 (flags.toNat + depth * 2 ^ 32) = flags := by
  have hflags := flags.isLt
  constructor
  · rw [fld_eq]
    omega
  · apply BitVec.eq_of_toNat_eq
    rw [BitVec.toNat_ofNat]
    omega

theorem tid_field {tid : Nat} (h : tid < 2 ^ 10) : fld tid 9 0 = tid := by
  rw [fld_eq]
  omega

/-- R356: a thread that was saved in full comes back as it was, with its registers and stream; it is held where its trap
record says so, and otherwise waits to become ready. -/
theorem laneOf_record {p : BitVec 512} {l : Lane} {t : Thread} (hocc : l.occ = .thread t) (hv : l.v.length = pktC p)
    (hq : l.q.length = 8) (htan : ∀ x ∈ l.v ++ l.q, x.tan.length = pktT p) (h : t.Recordable) (hcont : t.cont = t.pc)
    (hregion : t.region = none) (hheld : t.held = []) (hwindows : t.windows = 0) (hacquired : t.acquired = [])
    (hpair : t.pendPair = none) :
    laneOf p l (l.record p) = { l with occ := .thread { t with
      run := if (t.trap.map fun r => r.held).getD false then .held else .waking none } } := by
  have hword {a i x : Nat} := @numAt_record p l t hocc hregion h a i x
  have hpcst : numAt (l.record p) 0 8 = 3 * 2 ^ 60 + t.pc.toNat := hword (i := 0) rfl rfl
  have hkey : numAt (l.record p) 8 8 = l.key.toNat := hword (i := 1) rfl rfl
  have hctr : numAt (l.record p) 16 8 = l.ctr.toNat := hword (i := 2) rfl rfl
  have hdepth : numAt (l.record p) 32 8 = t.flags.toNat + t.depth * 2 ^ 32 := hword (i := 4) rfl rfl
  have hpw : numAt (l.record p) 40 8 = ((t.pendWait.map PendWait.words).getD (0, 0)).1 := hword (i := 5) rfl rfl
  have hpwa : numAt (l.record p) 48 8 = ((t.pendWait.map PendWait.words).getD (0, 0)).2 := hword (i := 6) rfl rfl
  have htid : numAt (l.record p) 56 8 = t.tid := hword (i := 7) rfl rfl
  have htrw := hword (Thread.recordHead_trap h).1 (show 192 = 8 * 24 by rfl)
  have htra := hword (Thread.recordHead_trap h).2 (show 200 = 8 * 25 by rfl)
  have hregs := regsOf_record (p := p) hocc hregion h (by rw [List.length_append, hv, hq]) htan
  have hinterval : (l.thread?.map fun x => x.interval).getD 0 = t.interval := by simp [Lane.thread?, hocc]
  simp only [laneOf, hpcst, hkey, hctr, hdepth, hpw, hpwa, htid, htrw, htra, hregs, hinterval, stack_record hocc hregion h,
    (pcst_fields t.pc).1, (pcst_fields t.pc).2, (depthWord_fields t.flags h.depth).1, (depthWord_fields t.flags h.depth).2,
    tid_field h.tid, TrapRec.ofWords_of_trap, PendWait.ofWords_of_wait h.wait, BitVec.ofNat_toNat, BitVec.setWidth_eq,
    List.take_left' hv, List.drop_left' hv]
  simp only [← hcont, ← hregion, ← hheld, ← hwindows, ← hacquired, ← hpair]

end Sys2Proof.Machine
end

section
/-!
PROOFS. Saving the threads of a crew under pre-emption, and the end of the pre-emption (R26, R40, R41, R234, R390).
-/

namespace Sys2Proof.Machine

open Sys2Proof

/-! ### How a thread is saved now (R41) -/

section
variable {s : State} {ci li : Nat} {cr : Crew} {p : Preempt} {t : Thread}

/-- A thread inside a region is saved at its marker, wherever it stands between words. -/
theorem saveNow_of_region (h1 : t.run ≠ .running) (h2 : t.run ≠ .trapping) (h3 : t.run ≠ .held) (h4 : t.run ≠ .saved)
    (hr : t.region.isSome = true) : saveNow s ci li cr p t = .region := by
  unfold saveNow
  cases h : t.run <;> simp_all

theorem saveNow_of_busy (h : t.run = .running ∨ t.run = .trapping ∨ t.run = .saved) : saveNow s ci li cr p t = .no := by
  obtain h | h | h := h <;> simp [saveNow, h]

theorem saveNow_of_held (h : t.run = .held) : saveNow s ci li cr p t = .full := by
  simp [saveNow, h]

theorem saveNow_of_parked {w : Park} (h : t.run = .parked w) (hr : t.region = none) (ho : s.outstanding ci li = false) :
    saveNow s ci li cr p t = .full := by
  simp [saveNow, h, hr, ho]

/-- Between runs and outside every region, a marker that the thread stands at decides. -/
theorem saveNow_at_marker {n : Nat} {b : Option Nat} {v : BitVec 14} {q : BitVec 4}
    (h : t.run = .ready n ∨ t.run = .waking b) (hr : t.region = none) (ho : s.outstanding ci li = false)
    (hm : markerAt s ci cr t.pc = some (v, q)) : saveNow s ci li cr p t = .marker v q := by
  obtain h | h := h <;> simp [saveNow, h, hr, ho, hm]

/-- Where it stands at none, it is saved in full once the 4,096 cycles have passed. -/
theorem saveNow_off_marker {n : Nat} {b : Option Nat} (h : t.run = .ready n ∨ t.run = .waking b) (hr : t.region = none)
    (ho : s.outstanding ci li = false) (hm : markerAt s ci cr t.pc = none) :
    saveNow s ci li cr p t = if p.timedOut then .full else .no := by
  obtain h | h := h <;> simp [saveNow, h, hr, ho, hm]

end

/-! ### What a save keeps -/

/-- A region save goes back to the marker: its program counter, call depth and stream state, and the live-in registers;
the others are zero. -/
theorem regionSave_of_region {l : Lane} {t : Thread} {r : Region} (hocc : l.occ = .thread t) (hr : t.region = some r) :
    l.regionSave =
      { v := l.v.mapIdx fun i x => if liveIn r i then x else Reg.zero x.tan.length
        q := l.q.mapIdx fun i x => if r.qp.getLsbD (i / 2) then x else Reg.zero x.tan.length
        key := r.key
        ctr := r.ctr
        occ := .thread { t with pc := r.marker, depth := r.depth, run := .saved, pendWait := none, held := [],
                                acquired := [], pendPair := none } } := by
  simp only [Lane.regionSave, hocc, hr]

/-! ### One lane of a crew under pre-emption -/

theorem wakeMonitor_of_no_monitor {ci li : Nat} {s : State}
    (h : ∀ m ∈ s.monitors, ¬(m.crew = ci ∧ m.lane = li ∧ m.got.isSome = true)) : wakeMonitor ci li s = s := by
  have hnone : s.monitors.findIdx? (fun m => m.crew == ci && m.lane == li && m.got.isSome) = none := by
    rw [List.findIdx?_eq_none_iff]
    intro m hm
    have := h m hm
    grind
  simp only [wakeMonitor, hnone]

section
variable {s : State} {ci li : Nat} {cr : Crew} {p : Preempt} {t : Thread}

/-- A lane with no ray in flight whose thread waits on no write that has come. -/
structure Undisturbed (s : State) (ci li : Nat) (cr : Crew) (t : Thread) : Prop where
  crew : s.crews[ci]? = some cr
  thread : s.thread? ci li = some t
  rays : s.rays = []
  monitors : ∀ m ∈ s.monitors, ¬(m.crew = ci ∧ m.lane = li ∧ m.got.isSome = true)

theorem saveLane_no (h : Undisturbed s ci li cr t) (hn : saveNow s ci li cr p t = .no) : saveLane ci p s li = s := by
  simp only [saveLane, wakeMonitor_of_no_monitor h.monitors, h.crew, h.thread, hn]

theorem saveLane_region (h : Undisturbed s ci li cr t) (hn : saveNow s ci li cr p t = .region) :
    saveLane ci p s li = ((forget ci li s).updLane ci li Lane.regionSave).performed cr.part 2 := by
  have hgone : ({ s with rays := s.rays.filter fun (y : Ray) => !(y.crew == ci && y.lane == li) } : State) = s := by
    rw [h.rays, List.filter_nil, ← h.rays]
  simp only [saveLane, wakeMonitor_of_no_monitor h.monitors, h.crew, h.thread, hn]
  rw [show stopRays ci li s.rays.length s = s by rw [h.rays]; rfl, hgone]

theorem saveLane_marker {v : BitVec 14} {q : BitVec 4} (h : Undisturbed s ci li cr t)
    (hn : saveNow s ci li cr p t = .marker v q) :
    saveLane ci p s li =
      ((forget ci li s).updLane ci li fun l => (l.openRegion t.pc v q).regionSave).performed cr.part 2 := by
  simp only [saveLane, wakeMonitor_of_no_monitor h.monitors, h.crew, h.thread, hn]

theorem saveLane_full (h : Undisturbed s ci li cr t) (hn : saveNow s ci li cr p t = .full) :
    saveLane ci p s li = ((forget ci li s).updThread ci li Thread.fullSave).performed cr.part 2 := by
  simp only [saveLane, wakeMonitor_of_no_monitor h.monitors, h.crew, h.thread, hn]
  rw [show stopRays ci li s.rays.length s = s by rw [h.rays]; rfl, h.thread, Option.map_some, if_pos rfl]
  rfl

end

/-! ### What a write of the device to memory leaves alone -/

/-- From `s` to `t`, no crew and no action on a held thread has changed. -/
structure SameCrews (s t : State) : Prop where
  crews : t.crews = s.crews
  actions : t.trapActions = s.trapActions

theorem SameCrews.refl (s : State) : SameCrews s s := ⟨rfl, rfl⟩

theorem SameCrews.trans {s t u : State} (h1 : SameCrews s t) (h2 : SameCrews t u) : SameCrews s u :=
  ⟨h2.crews.trans h1.crews, h2.actions.trans h1.actions⟩

theorem physWrite_sameCrews (s : State) (g : Page) (bs : List Byte) : SameCrews s (s.physWrite g bs) := by
  unfold State.physWrite
  split
  · induction List.range Config.dies generalizing s with
    | nil => exact .refl s
    | cons d ds ih =>
      have hstore : SameCrews s (s.physStore (g.pa + d * Config.dieStride) bs) := ⟨rfl, rfl⟩
      exact hstore.trans (ih _)
  · exact ⟨rfl, rfl⟩

theorem vStore_sameCrews (p : Nat) (q : Ask) (fuel : Nat) (s : State) (va : Nat) (bs : List Byte) :
    SameCrews s (State.vStore s p q fuel va bs) := by
  induction fuel generalizing s va bs with
  | zero => exact .refl s
  | succ fuel ih =>
    unfold State.vStore
    split
    · exact .refl s
    · simp only
      split
      · exact (physWrite_sameCrews s _ _).trans (ih _ _ _)
      · exact ih _ _ _

theorem writeG_sameCrews {s s' : State} {p va : Nat} {bs : List Byte} {device : Bool}
    (h : s.writeG p va bs device = .ok s') : SameCrews s s' := by
  unfold State.writeG at h
  simp only at h
  cases ha : s.vWritable p { write := true, device := device } (State.pages bs.length) va bs.length with
  | ok u =>
    rw [ha] at h
    cases h
    exact vStore_sameCrews ..
  | _ => rw [ha] at h; cases h

theorem writeArea_sameCrews {part area : Nat} {xs : List (Nat × List Byte)} {s s' : State}
    (h : writeArea part area xs s = some s') : SameCrews s s' := by
  induction xs generalizing s with
  | nil =>
    cases h
    exact .refl _
  | cons x xs ih =>
    unfold writeArea at h
    split at h
    · next s1 hs1 => exact (writeG_sameCrews hs1).trans (ih h)
    · cases h

/-! ### The end of a pre-emption (R26, R41) -/

theorem applyRegWrites_of_none {s : State} (core : Nat) (h : s.regWrites = []) : State.applyRegWrites core s = s := by
  unfold State.applyRegWrites
  simp only [h, List.filter_nil, List.foldl_nil]
  rw [← h]

theorem takeActions_of_none {s : State} (ci : Nat) (h : s.trapActions = []) : takeActions ci s = s := by
  unfold takeActions
  simp only [h, List.filter_nil, List.foldl_nil]
  rw [← h]

theorem retireCore_sameCrews (c : Nat) (s : State) : SameCrews s (retireCore c s) := by
  unfold retireCore
  split <;> exact ⟨rfl, rfl⟩

theorem retireCluster_sameCrews (k : Nat) (s : State) : SameCrews s (retireCluster k s) := by
  unfold retireCluster
  split <;> exact ⟨rfl, rfl⟩

theorem retireLeft_sameCrews (core : Nat) (s : State) : SameCrews s (retireLeft core s) :=
  (retireCore_sameCrews core s).trans (retireCluster_sameCrews _ _)

/-- A crew that leaves its core with its state in an area waits for a place again. -/
theorem leaveCore_crew {s : State} {ci : Nat} {cr : Crew} (a : BitVec 56) (hcr : s.crews[ci]? = some cr)
    (hactions : s.trapActions = []) : (leaveCore ci (some a) s).crews[ci]? =
      some { cr with status := .distributed, saveArea := some a, preempt := none } := by
  let s1 := s.updCrew ci fun cr => { cr with status := .distributed, saveArea := some a, preempt := none }
  have hleft : ∃ s3, leaveCore ci (some a) s = takeActions ci (retireLeft (s.coreOf ci) s3) ∧ SameCrews s1 s3 := by
    refine ⟨_, rfl, ?_⟩
    simp only [Option.isSome_some, if_true]
    split
    · exact .refl s1
    · split
      · exact .refl s1
      · exact ⟨rfl, rfl⟩
  obtain ⟨s3, hleave, hsame⟩ := hleft
  have hall : SameCrews s1 (retireLeft (s.coreOf ci) s3) := hsame.trans (retireLeft_sameCrews _ _)
  rw [hleave, takeActions_of_none ci (hall.actions.trans hactions), hall.crews]
  simp [s1, hcr]

/-- A pre-emption whose crew is its whole gang ends once all of its threads are saved: its area is written, and it waits
for a place again. -/
theorem finishSave_of_saved {s s1 : State} {ci : Nat} {cr : Crew} {p : Preempt} {a : BitVec 56}
    (hcr : s.crews[ci]? = some cr) (hgang : gangCrews s ci = [ci]) (hp : cr.preempt = some p) (hasked : p.asked = false)
    (hdiscard : p.discard = false) (harea : p.area = some a) (hsaved : allSaved s ci cr = true)
    (hactions : s.trapActions = []) (hwrites : s.regWrites = [])
    (hwrite : writeArea cr.part a.toNat cr.sections s = some s1) :
    (finishSave ci s).crews[ci]? = some { cr with status := .distributed, saveArea := some a, preempt := none } := by
  have hready : readyToLeave s ci = true := by simp [readyToLeave, hcr, hp, hasked, harea, hsaved]
  have hsame : SameCrews s s1 := writeArea_sameCrews hwrite
  have hcr1 : s1.crews[ci]? = some cr := by rw [hsame.crews, hcr]
  have hcrews : writeCrews [ci] s = some s1 := by simp [writeCrews, writeCrew, hcr, hp, hdiscard, harea, hwrite]
  have hleave : leave ci s1 = leaveCore ci (some a) s1 := by simp [leave, hcr1, hp, hdiscard, harea]
  have hfinish : finishSave ci s = leave ci s1 := by
    simp [finishSave, hgang, hready, applyRegWrites_of_none _ hwrites, hcrews]
  rw [hfinish, hleave]
  exact leaveCore_crew a hcr1 (hsame.actions.trans hactions)

/-- While a crew of the gang is not ready to leave, nothing ends. -/
theorem finishSave_of_unready {s : State} {ci c : Nat} (hc : c ∈ gangCrews s ci) (hr : readyToLeave s c = false) :
    finishSave ci s = s := by
  have hall : (gangCrews s ci).all (readyToLeave s) = false := List.all_eq_false.mpr ⟨c, hc, by simp [hr]⟩
  simp [finishSave, hall]

/-! ### Requests (R390) -/

/-- A request waits until each of its crews has an area, or needs none. -/
theorem startRequest_of_waiting {s : State} {crews : List Nat} {c : Nat} {cr : Crew} {p : Preempt} (hc : c ∈ crews)
    (hcr : s.crews[c]? = some cr) (hp : cr.preempt = some p) (harea : p.area = none) (hdiscard : p.discard = false) :
    startRequest s crews = s := by
  unfold startRequest
  refine if_neg fun hall => ?_
  have := List.all_eq_true.mp hall c hc
  simp [hcr, hp, harea, hdiscard] at this

/-- The record of a pre-emption once the counter of its core has been looked at: 4,096 cycles may have passed (R41). -/
def Preempt.clocked (p : Preempt) (now : Nat) : Preempt :=
  { p with timedOut := p.timedOut || decide (p.since + 4096 ≤ now) }

theorem Preempt.clocked_eq (p : Preempt) (now : Nat) :
    (if p.since + Config.preemptCycles ≤ now then { p with timedOut := true } else p) = p.clocked now := by
  rw [Preempt.clocked, Config.preemptCycles]
  by_cases h : p.since + 4096 ≤ now
  · rw [if_pos h, decide_eq_true h, Bool.or_true]
  · rw [if_neg h, decide_eq_false h, Bool.or_false]

/-- Without a dual traversal under way, a crew under pre-emption has its lanes saved, unless the Joiner holds threads of
it (R41, R180). -/
theorem savePass_of_no_xpairs {s : State} {ci : Nat} {cr : Crew} {p : Preempt} (hcr : s.crews[ci]? = some cr)
    (hp : cr.preempt = some p) (hstatus : cr.status = .resident) (hasked : p.asked = false) (hx : s.xpairs = []) :
    savePass ci s =
      let p1 := p.clocked (s.core cr.core).lclk.toNat
      let s1 := s.updCrew ci fun c => { c with preempt := some p1 }
      finishSave ci (if cr.joining then s1 else (List.range cr.lanes.length).foldl (saveLane ci p1) s1) := by
  have hgo : (!cr.resident || p.asked) = false := by simp [Crew.resident, hstatus, hasked]
  have hpairs (f : Crew → Crew) :
      pausePairs ci (s.updCrew ci f).xpairs.length (s.updCrew ci f) = s.updCrew ci f := by
    rw [State.updCrew_xpairs, hx]
    rfl
  simp only [savePass, hcr, hp, hgo, Preempt.clocked_eq, hpairs, Bool.false_eq_true, if_false]

end Sys2Proof.Machine
end

section
/-!
PROOFS. Crews that come back from their save areas (R42, R354-R356), and pre-emption as a whole.
-/

namespace Sys2Proof.Machine

open Sys2Proof

/-! ### A crew's area (R354) -/

theorem record_mem_sections {cr : Crew} {li : Nat} {l : Lane} (h : cr.lanes[li]? = some l) :
    (areaRec cr.packet li, l.record cr.packet) ∈ cr.sections := by
  have hlane : (l, li) ∈ cr.lanes.zipIdx := List.mem_zipIdx_iff_getElem?.mpr h
  exact List.mem_append_left _ (List.mem_append_right _
    (List.mem_map_of_mem (f := fun x => (areaRec cr.packet x.2, x.1.record cr.packet)) hlane))

theorem loadForm_lines (cr : Crew) (j : Nat) (bs : List Byte) :
    ∃ m a, cr.loadForm j bs = { cr with accMeta := m, accSlots := a } := ⟨_, _, rfl⟩

/-- Reading accumulator lines back changes their metadata and slots alone. -/
theorem foldl_loadForm (f : Nat → List Byte) (js : List Nat) (cr : Crew) :
    ∃ m a, js.foldl (fun c j => c.loadForm j (f j)) cr = { cr with accMeta := m, accSlots := a } := by
  induction js generalizing cr with
  | nil => exact ⟨cr.accMeta, cr.accSlots, rfl⟩
  | cons j js ih =>
    obtain ⟨m, a, hj⟩ := loadForm_lines cr j (f j)
    rw [List.foldl_cons, hj]
    exact ih _

/-- What a crew is after it was restored from its area, its accumulator lines aside (R356). -/
structure RestoredFrom (cr : Crew) (bs : List Byte) (cr' : Crew) : Prop where
  status : cr'.status = .resident
  preempt : cr'.preempt = none
  saveArea : cr'.saveArea = none
  packet : cr'.packet = cr.packet
  lanes : cr'.lanes = cr.lanes.mapIdx fun li was =>
    restoredLane cr li was ((bs.drop (areaRec cr.packet li)).take (recSize cr.packet))
  u : cr'.u = (List.range (pktUC cr.packet)).map fun i => BitVec.ofNat 64 (numAt bs (256 + 8 * i) 8)
  tiles : cr'.tiles = (List.range (pktTiles cr.packet)).map fun i =>
    BitVec.ofNat 64 (numAt bs (areaTiles cr.packet + 8 * i) 8)
  masks : cr'.masks = (List.range (12 * pktH cr.packet)).map fun k =>
    BitVec.ofNat 16 (numAt bs (areaMasks cr.packet + 32 * (k / 12) + 2 * (k % 12)) 2)
  temp : cr'.temp = BitVec.ofNat 32 (numAt bs 80 4)
  mode : cr'.mode = BitVec.ofNat 8 (numAt bs 84 1)

theorem restore_spec (cr : Crew) (bs : List Byte) : RestoredFrom cr bs (cr.restore bs) := by
  obtain ⟨m, a, h⟩ := foldl_loadForm (fun j => (bs.drop (areaAccs cr.packet + 4160 * j)).take 4160)
    (List.range (pktAccum cr.packet / 2)) _
  unfold Crew.restore
  simp only
  rw [h]
  exact ⟨rfl, rfl, rfl, rfl, rfl, rfl, rfl, rfl, rfl, rfl⟩

theorem restore_mask {cr : Crew} {bs : List Byte} {h k : Nat} (hh : h < pktH cr.packet) (hk : k < 12) :
    (cr.restore bs).masks[12 * h + k]? = some (BitVec.ofNat 16 (numAt bs (areaMasks cr.packet + 32 * h + 2 * k) 2)) := by
  have hlt : 12 * h + k < 12 * pktH cr.packet := by omega
  have hdiv : (12 * h + k) / 12 = h := by omega
  have hmod : (12 * h + k) % 12 = k := by omega
  simp [(restore_spec cr bs).masks, hlt, hdiv, hmod]

/-! ### Resumption (R42, R356) -/

/-- A gang comes back once the areas of all of its crews that wait can be read, and none is bad. -/
theorem execCrewResume_of_good {s : State} {crew : Nat} {areas : List (Nat × List Byte)}
    (hmem : crew ∈ resumingCrews s crew) (hareas : areasOf s (resumingCrews s crew) = some areas)
    (hgood : ∀ x ∈ areas, ∀ cr, s.crews[x.1]? = some cr → areaBad cr.packet x.2 = false) :
    execCrewResume crew s =
      let regions : List (Nat × WRegion) := (resumingCrews s crew).flatMap fun c =>
        ((s.crews[c]?).map fun cr => cr.regions.reverse.map fun w => (c, w)).getD []
      .next ((resumingCrews s crew).foldl resumeThreads
        (regions.foldl (fun s' x => reloadRegion x.1 s' x.2) (areas.foldl restoreCrew s))) := by
  have hin : (resumingCrews s crew).contains crew = true := List.contains_iff_mem.mpr hmem
  have hnone : areas.any (fun x => (s.crews[x.1]?).any fun cr => areaBad cr.packet x.2) = false := by
    rw [List.any_eq_false]
    intro x hx
    cases hcr : s.crews[x.1]? with
    | none => simp
    | some cr => simp [hgood x hx cr hcr]
  simp only [execCrewResume, hin, hareas, hnone, Bool.not_true, Bool.false_eq_true, if_false]

/-- An area that is bad removes the grid. -/
theorem execCrewResume_of_bad {s : State} {crew : Nat} {cr c : Crew} {areas : List (Nat × List Byte)}
    {x : Nat × List Byte} (hcr : s.crews[crew]? = some cr) (hmem : crew ∈ resumingCrews s crew)
    (hareas : areasOf s (resumingCrews s crew) = some areas) (hx : x ∈ areas) (hc : s.crews[x.1]? = some c)
    (hbad : areaBad c.packet x.2 = true) : execCrewResume crew s = .next (s.removeGrid cr.grid) := by
  have hin : (resumingCrews s crew).contains crew = true := List.contains_iff_mem.mpr hmem
  have hany : areas.any (fun x => (s.crews[x.1]?).any fun cr => areaBad cr.packet x.2) = true :=
    List.any_eq_true.mpr ⟨x, hx, by simp [hc, hbad]⟩
  simp only [execCrewResume, hin, hareas, hany, hcr, Bool.not_true, Bool.false_eq_true, if_false, if_true, Option.map_some,
    Option.getD_some]

theorem resumingCrews_of_single {s : State} {crew : Nat} {cr : Crew} {g : Gang} (hcr : s.crews[crew]? = some cr)
    (hg : s.gangs[cr.gang]? = some g) (hone : g.crews = [crew]) (hstatus : cr.status = .resuming) :
    resumingCrews s crew = [crew] := by
  simp [resumingCrews, hcr, hg, hone, hstatus]

theorem areasOf_single {s : State} {crew : Nat} {cr : Crew} {a : BitVec 56} {bs : List Byte} (hcr : s.crews[crew]? = some cr)
    (ha : cr.saveArea = some a)
    (hread : s.readG cr.part (dieOf cr.core) a.toNat (areaSize cr.packet) true = .ok bs) :
    areasOf s [crew] = some [(crew, bs)] := by
  simp [areasOf, areaOf, hcr, ha, hread]

/-- A restored crew has as many lanes as before. -/
theorem resumeThreads_restored {s : State} {crew : Nat} {cr : Crew} (bs : List Byte) (hcr : s.crews[crew]? = some cr) :
    resumeThreads (restoreCrew s (crew, bs)) crew = takeActions crew ((List.range cr.lanes.length).foldl (resumeTrace crew)
      (s.updCrew crew fun c => { c.restore bs with regions := [] })) := by
  have hlen : (((restoreCrew s (crew, bs)).crews[crew]?).map fun c => c.lanes.length).getD 0 = cr.lanes.length := by
    simp [restoreCrew, hcr, (restore_spec cr bs).lanes]
  rw [resumeThreads, hlen, restoreCrew]

end Sys2Proof.Machine

open Sys2Proof Sys2Proof.Machine

/-- Settles O38: requests and saves by `savePass_of_no_xpairs`, `saveNow` and `saveLane` case by case, the end by
`finishSave_of_saved`, the return by `execCrewResume_of_good` and `restore_spec`, and a saved thread's record by
`laneOf_record`. -/
theorem preemptionAndReturn : Obligations.PreemptionAndReturn := by
  refine ⟨fun crew s => rfl, fun s crews ⟨c, hc, cr, p, hcr, hp, ha, hd⟩ => startRequest_of_waiting hc hcr hp ha hd,
    fun crew s cr p hcr hp hstatus hasked hx => congrArg _ (savePass_of_no_xpairs hcr hp hstatus hasked hx),
    fun s ci li cr p t hcr ht hrays hmon => ?save,
    fun s ci cr p a hcr hgang hp hasked hd ha hsaved hact hregs s1 hw =>
      ⟨_, finishSave_of_saved hcr hgang hp hasked hd ha hsaved hact hregs hw, rfl, rfl, rfl⟩,
    fun s ci ⟨c, hc, hr⟩ => finishSave_of_unready hc hr, fun cr li l h => record_mem_sections h,
    fun part addr s a ha => ?supply,
    fun crew s cr g a bs hcr hg hone hstatus ha hregions hread hgood => ?single,
    fun crew s areas hmem hareas hgood => execCrewResume_of_good hmem hareas hgood,
    fun crew s cr areas x c hcr hmem hareas hx hc hbad => execCrewResume_of_bad hcr hmem hareas hx hc hbad,
    fun cr bs => ?restore, fun cr li was bs => rfl,
    fun s ci li cr p t h1 h2 h3 h4 hr => saveNow_of_region h1 h2 h3 h4 hr, fun s ci li cr p t h => saveNow_of_busy h,
    fun s ci li cr p t h => saveNow_of_held h, fun s ci li cr p t w h hr ho => saveNow_of_parked h hr ho,
    fun s ci li cr p t n b h hr ho => ?between, fun t => ⟨rfl, rfl, rfl, rfl, rfl, rfl, rfl, rfl⟩,
    fun l t r hocc hr => ?region,
    fun p l t hocc hv hq htan htid hdepth hstack hcont hrun hregion hheld hwindows hacq hpair hwait =>
      laneOf_record hocc hv hq htan ⟨htid, hdepth, hstack, fun w hw => ?wait⟩ hcont hregion hheld hwindows hacq hpair⟩
  case save =>
    have h : Undisturbed s ci li cr t := ⟨hcr, ht, hrays, hmon⟩
    cases hn : saveNow s ci li cr p t with
    | no => exact saveLane_no h hn
    | region => exact saveLane_region h hn
    | marker v q => exact saveLane_marker h hn
    | full => exact saveLane_full h hn
  case supply =>
    show execSaveAreaSupply part addr s = _
    simp only [execSaveAreaSupply, ha]
  case single =>
    have hcrews := resumingCrews_of_single hcr hg hone hstatus
    have hareas := areasOf_single hcr ha hread
    have hresume := execCrewResume_of_good (s := s) (crew := crew) (areas := [(crew, bs)]) (by simp [hcrews])
      (by rw [hcrews, hareas]) (by simp [hcr, hgood])
    refine Eq.trans hresume ?_
    simp [hcrews, hcr, hregions, resumeThreads_restored bs hcr]
  case restore =>
    have h := restore_spec cr bs
    refine ⟨h.status, h.preempt, h.saveArea, h.packet, fun li was hwas => ?_, fun i hi => ?_, fun i hi => ?_,
      fun hg hh k hk => restore_mask hh hk, h.temp, h.mode⟩
    · simp [h.lanes, hwas]
    · simp [h.u, hi]
    · simp [h.tiles, hi]
  case between =>
    cases hm : markerAt s ci cr t.pc with
    | none => exact saveNow_off_marker h hr ho hm
    | some m => exact saveNow_at_marker h hr ho hm
  case region =>
    rw [regionSave_of_region hocc hr]
    refine ⟨_, rfl, rfl, rfl, rfl, rfl, fun n x hx => ?_, fun n x hx => ?_⟩
    · rw [List.getElem?_mapIdx, hx]
      rfl
    · rw [List.getElem?_mapIdx, hx]
      rfl
  case wait =>
    have hfits := hwait w hw
    cases w <;> exact hfits
end

section
/-!
PROOFS. Rounding to an integer: the exponent of a magnitude, and which integers a rounded magnitude exceeds (R55, R59).
-/

namespace Sys2Proof.Num

open Sys2Proof

/-! ### Powers of two, and the exponent of a magnitude -/

theorem pow2_eq_zpow (e : Int) : pow2 e = (2 : Rat) ^ e := by
  unfold pow2
  split
  case isTrue h =>
    obtain ⟨n, rfl⟩ := Int.eq_ofNat_of_zero_le h
    simp
  case isFalse h =>
    obtain ⟨n, hn⟩ := Int.eq_ofNat_of_zero_le (a := -e) (by omega)
    rw [hn, Int.toNat_natCast, Rat.mkRat_eq_div, show e = -(n : Int) by omega, zpow_neg, zpow_natCast]
    simp

theorem two_zpow_pos (e : Int) : (0 : Rat) < 2 ^ e := zpow_pos (by norm_num) e

theorem two_zpow_add_nat (x : Int) (n : Nat) : (2 : Rat) ^ (x + n) = 2 ^ x * 2 ^ n := by
  rw [zpow_add₀ two_ne_zero, zpow_natCast]

theorem two_zpow_le {x y : Int} (h : x ≤ y) : (2 : Rat) ^ x ≤ 2 ^ y := zpow_le_zpow_right₀ (by norm_num) h

/-- A positive rational lies within one binade of the quotient of the binades of its numerator and denominator. -/
theorem log2_quotient_bounds {a : Rat} (ha : 0 < a) :
    let e : Int := (Nat.log2 a.num.toNat : Int) - (Nat.log2 a.den : Int)
    (2 : Rat) ^ (e - 1) < a ∧ a < 2 ^ (e + 1) := by
  intro e
  have hnum : a.num.toNat ≠ 0 := by have := Rat.num_pos.mpr ha; omega
  have hden : (0 : Rat) < a.den := by exact_mod_cast a.den_pos
  have hval : a * a.den = (a.num.toNat : Rat) := by
    rw [Rat.mul_den_eq_num]
    exact_mod_cast (Int.toNat_of_nonneg (Rat.num_nonneg.mpr ha.le)).symm
  have n1 : (2 : Rat) ^ Nat.log2 a.num.toNat ≤ a.num.toNat := by exact_mod_cast Nat.log2_self_le hnum
  have n2 : (a.num.toNat : Rat) < 2 ^ (Nat.log2 a.num.toNat + 1) := by exact_mod_cast Nat.lt_log2_self
  have d1 : (2 : Rat) ^ Nat.log2 a.den ≤ a.den := by exact_mod_cast Nat.log2_self_le a.den_nz
  have d2 : (a.den : Rat) < 2 ^ (Nat.log2 a.den + 1) := by exact_mod_cast Nat.lt_log2_self
  have split1 : (2 : Rat) ^ (e - 1) * 2 ^ (Nat.log2 a.den + 1) = 2 ^ Nat.log2 a.num.toNat := by
    rw [← zpow_natCast, ← zpow_natCast, ← zpow_add₀ two_ne_zero]
    congr 1
    push_cast
    omega
  have split2 : (2 : Rat) ^ (e + 1) * 2 ^ Nat.log2 a.den = 2 ^ (Nat.log2 a.num.toNat + 1) := by
    rw [← zpow_natCast, ← zpow_natCast, ← zpow_add₀ two_ne_zero]
    congr 1
    push_cast
    omega
  constructor
  · refine lt_of_mul_lt_mul_right ?_ hden.le
    calc (2 : Rat) ^ (e - 1) * a.den < 2 ^ (e - 1) * 2 ^ (Nat.log2 a.den + 1) := mul_lt_mul_of_pos_left d2 (two_zpow_pos _)
      _ ≤ a * a.den := by rw [split1, hval]; exact n1
  · refine lt_of_mul_lt_mul_right ?_ hden.le
    calc a * a.den < 2 ^ (e + 1) * 2 ^ Nat.log2 a.den := by rw [split2, hval]; exact n2
      _ ≤ 2 ^ (e + 1) * a.den := mul_le_mul_of_nonneg_left d1 (two_zpow_pos _).le

/-- `ilog2` is the exponent of the binade. -/
theorem ilog2_bounds {a : Rat} (ha : 0 < a) : (2 : Rat) ^ ilog2 a ≤ a ∧ a < 2 ^ (ilog2 a + 1) := by
  obtain ⟨hlo, hhi⟩ := log2_quotient_bounds ha
  simp only [ilog2, pow2_eq_zpow]
  split
  case isTrue h => exact ⟨hlo.le, by simpa using h⟩
  case isFalse h => exact ⟨not_lt.mp h, hhi⟩

/-! ### A magnitude rounded to an integer (R55) -/

/-- What a mode does to the magnitude of a value of that sign: `.rz` cuts, `.ru` goes up. -/
def Mode.onMag (mode : Mode) (neg : Bool) : Mode :=
  match mode with
  | .rne => .rne
  | .rz => .rz
  | .ru => if neg then .rz else .ru
  | .rd => if neg then .ru else .rz

theorem Mode.onMag_ne_rd (mode : Mode) (neg : Bool) : mode.onMag neg ≠ .rd := by
  cases mode <;> cases neg <;> decide

theorem Mode.eq_rne_of_onMag {mode : Mode} {neg : Bool} (h : mode.onMag neg = .rne) : mode = .rne := by
  revert h
  cases mode <;> cases neg <;> decide

/-- The magnitudes that round past `K`, by what the mode does to a magnitude. -/
def RoundsPast (d : Mode) (K : Nat) (b : Rat) : Prop :=
  match d with
  | .rne => (K : Rat) + 1 / 2 < b ∨ (b = K + 1 / 2 ∧ K % 2 = 1)
  | .rz => (K : Rat) + 1 ≤ b
  | .ru | .rd => (K : Rat) < b

theorem roundsPast_of_le {d : Mode} {K : Nat} {b : Rat} (h : (K : Rat) + 1 ≤ b) : RoundsPast d K b := by
  cases d
  case rne => exact .inl (by linarith)
  case rz => exact h
  case ru | rd => exact lt_of_lt_of_le (by linarith) h

theorem not_roundsPast_of_le {d : Mode} {K : Nat} {b : Rat} (h : b ≤ K) : ¬ RoundsPast d K b := by
  cases d
  case rne => exact not_or.mpr ⟨by linarith, fun hb => by linarith [hb.1]⟩
  case rz => exact not_le.mpr (by linarith)
  case ru | rd => exact not_lt.mpr h

/-- Rounding twice as finely rounds past less. -/
theorem roundsPast_of_double {d : Mode} {K : Nat} {b : Rat} (h : RoundsPast d (2 * K + 1) (2 * b)) : RoundsPast d K b := by
  cases d <;> simp only [RoundsPast, Nat.cast_add, Nat.cast_mul, Nat.cast_ofNat, Nat.cast_one] at h ⊢
  case rne =>
    rcases h with h | ⟨h, -⟩
    · exact .inl (by linarith)
    · exact .inl (by linarith)
  all_goals linarith

/-- The remainder past the integer part, as a fraction. -/
theorem fract_eq_div {b : Rat} (hb : 0 ≤ b) :
    (b.num.toNat / b.den : Nat) = ⌊b⌋₊ ∧ b - (⌊b⌋₊ : Rat) = ((b.num.toNat % b.den : Nat) : Rat) / b.den := by
  have hden : (b.den : Rat) ≠ 0 := by exact_mod_cast b.den_nz
  have hnum : (b.num.toNat : Rat) = b * b.den := by
    rw [Rat.mul_den_eq_num]
    exact_mod_cast Int.toNat_of_nonneg (Rat.num_nonneg.mpr hb)
  have hfloor : b.num.toNat / b.den = ⌊b⌋₊ := by
    rw [← Nat.floor_div_eq_div (K := Rat), hnum, mul_div_cancel_right₀ _ hden]
  refine ⟨hfloor, ?_⟩
  have h := Nat.div_add_mod b.num.toNat b.den
  rw [hfloor] at h
  have hq : (b.den : Rat) * ⌊b⌋₊ + ((b.num.toNat % b.den : Nat) : Rat) = b * b.den := by rw [← hnum]; exact_mod_cast h
  field_simp
  linarith

theorem roundMag_snd {mode : Mode} {neg : Bool} {b : Rat} (hb : 0 ≤ b) :
    (roundMag mode neg b).2 = decide (b = ⌊b⌋₊) := by
  obtain ⟨-, hfract⟩ := fract_eq_div hb
  have hden : (b.den : Rat) ≠ 0 := by exact_mod_cast b.den_nz
  have : b = ⌊b⌋₊ ↔ b.num.toNat % b.den = 0 := by
    rw [← sub_eq_zero, hfract, div_eq_zero_iff, Nat.cast_eq_zero]
    simp [hden]
  by_cases h : b.num.toNat % b.den = 0 <;> simp [roundMag, this, h]

/-- The mode goes up from the integer part exactly where the value rounds past it. -/
theorem roundsUp_iff {mode : Mode} {neg : Bool} {b : Rat} (hb : 0 ≤ b) :
    roundsUp mode neg ⌊b⌋₊ (b.num.toNat % b.den) b.den = true ↔ RoundsPast (mode.onMag neg) ⌊b⌋₊ b := by
  obtain ⟨-, hfract⟩ := fract_eq_div hb
  have hden : (0 : Rat) < b.den := by exact_mod_cast b.den_pos
  have hlt : b < ⌊b⌋₊ + 1 := Nat.lt_floor_add_one b
  generalize b.num.toNat % b.den = r at *
  have hpos : (⌊b⌋₊ : Rat) < b ↔ r ≠ 0 := by
    rw [← sub_pos, hfract, div_pos_iff_of_pos_right hden, Nat.cast_pos, Nat.pos_iff_ne_zero]
  have hhalf : (⌊b⌋₊ : Rat) + 1 / 2 < b ↔ b.den < 2 * r := by
    rw [← lt_sub_iff_add_lt', hfract, lt_div_iff₀ hden, ← Nat.cast_lt (α := Rat)]
    push_cast
    constructor <;> intro h <;> linarith
  have htie : b = ⌊b⌋₊ + 1 / 2 ↔ 2 * r = b.den := by
    rw [← sub_eq_iff_eq_add', hfract, div_eq_iff hden.ne', ← Nat.cast_inj (R := Rat)]
    push_cast
    constructor <;> intro h <;> linarith
  cases mode
  case rne => simp [roundsUp, RoundsPast, Mode.onMag, ← hhalf, ← htie]
  case rz => simp [roundsUp, RoundsPast, Mode.onMag, hlt]
  case ru => cases neg <;> simp [roundsUp, RoundsPast, Mode.onMag, hlt, hpos]
  case rd => cases neg <;> simp [roundsUp, RoundsPast, Mode.onMag, hlt, hpos]

/-- The whole of a rounded magnitude: which integers it exceeds. -/
theorem lt_roundMag_iff {mode : Mode} {neg : Bool} {b : Rat} (hb : 0 ≤ b) (K : Nat) :
    K < (roundMag mode neg b).1 ↔ RoundsPast (mode.onMag neg) K b := by
  have hfst : (roundMag mode neg b).1 =
      if roundsUp mode neg ⌊b⌋₊ (b.num.toNat % b.den) b.den then ⌊b⌋₊ + 1 else ⌊b⌋₊ := by
    simp only [roundMag, (fract_eq_div hb).1]
  have hle : (⌊b⌋₊ : Rat) ≤ b := Nat.floor_le hb
  have hlt : b < ⌊b⌋₊ + 1 := Nat.lt_floor_add_one b
  rcases lt_trichotomy K ⌊b⌋₊ with h | rfl | h
  · have hK : (K : Rat) + 1 ≤ ⌊b⌋₊ := by exact_mod_cast h
    exact iff_of_true (by rw [hfst]; split <;> omega) (roundsPast_of_le (hK.trans hle))
  · rw [hfst, ← roundsUp_iff hb]
    split <;> simp_all
  · have hK : (⌊b⌋₊ : Rat) + 1 ≤ K := by exact_mod_cast h
    exact iff_of_false (by rw [hfst]; split <;> omega) (not_roundsPast_of_le (hlt.le.trans hK))

/-- What lies beyond an integer rounds to at least that integer. -/
theorem le_roundMag {mode : Mode} {neg : Bool} {b : Rat} {K : Nat} (h : (K : Rat) ≤ b) : K ≤ (roundMag mode neg b).1 := by
  have hb : 0 ≤ b := le_trans (by positivity) h
  cases K with
  | zero => exact Nat.zero_le _
  | succ K =>
    rw [Nat.succ_le_iff, lt_roundMag_iff hb]
    exact roundsPast_of_le (by exact_mod_cast h)

theorem roundMag_le {mode : Mode} {neg : Bool} {b : Rat} {K : Nat} (hb : 0 ≤ b) (h : b ≤ K) :
    (roundMag mode neg b).1 ≤ K := by
  rw [← not_lt, lt_roundMag_iff hb]
  exact not_roundsPast_of_le h

/-- The rounded magnitude is one of the two integers about the value. -/
theorem roundMag_near {mode : Mode} {neg : Bool} {b : Rat} (hb : 0 ≤ b) :
    (roundMag mode neg b).1 = ⌊b⌋₊ ∨ (roundMag mode neg b).1 = ⌊b⌋₊ + 1 := by
  have hlo := le_roundMag (mode := mode) (neg := neg) (Nat.floor_le hb)
  have hhi := roundMag_le (mode := mode) (neg := neg) (K := ⌊b⌋₊ + 1) hb (by
    push_cast
    exact (Nat.lt_floor_add_one b).le)
  omega

/-- A magnitude is exact where it is left as it is. -/
theorem roundMag_exact_iff {mode : Mode} {neg : Bool} {b : Rat} (hb : 0 ≤ b) :
    (roundMag mode neg b).2 = true ↔ ((roundMag mode neg b).1 : Rat) = b := by
  rw [roundMag_snd hb, decide_eq_true_iff]
  constructor
  · intro h
    have hlo := le_roundMag (mode := mode) (neg := neg) h.ge
    have hhi := roundMag_le (mode := mode) (neg := neg) hb h.le
    rw [le_antisymm hhi hlo, ← h]
  · intro h
    rw [← h, Nat.floor_natCast]

/-- Where the mode cuts. -/
theorem roundMag_of_cut {mode : Mode} {neg : Bool} {b : Rat} (hb : 0 ≤ b) (h : mode.onMag neg = .rz) :
    (roundMag mode neg b).1 = ⌊b⌋₊ := by
  refine eq_of_forall_lt_iff fun K => ?_
  rw [lt_roundMag_iff hb, h, ← Nat.succ_le_iff, Nat.le_floor_iff hb]
  simp [RoundsPast]

/-- Where the mode goes up. -/
theorem roundMag_of_up {mode : Mode} {neg : Bool} {b : Rat} (hb : 0 ≤ b) (h : mode.onMag neg = .ru) :
    (roundMag mode neg b).1 = ⌈b⌉₊ := by
  refine eq_of_forall_lt_iff fun K => ?_
  rw [lt_roundMag_iff hb, h, Nat.lt_ceil]
  simp [RoundsPast]

/-- Where the mode takes the nearest. -/
theorem roundMag_of_nearest {neg : Bool} {b : Rat} (hb : 0 ≤ b) :
    |b - (roundMag .rne neg b).1| ≤ 1 / 2 ∧ (|b - (roundMag .rne neg b).1| = 1 / 2 → (roundMag .rne neg b).1 % 2 = 0) := by
  have hpast := lt_roundMag_iff (mode := .rne) (neg := neg) hb ⌊b⌋₊
  have hle : (⌊b⌋₊ : Rat) ≤ b := Nat.floor_le hb
  have hlt : b < ⌊b⌋₊ + 1 := Nat.lt_floor_add_one b
  rcases roundMag_near (mode := .rne) (neg := neg) hb with h | h
  · rw [h] at hpast ⊢
    simp only [lt_irrefl, Mode.onMag, RoundsPast, false_iff, not_or, not_and, not_lt] at hpast
    rw [abs_of_nonneg (by linarith)]
    refine ⟨by linarith [hpast.1], fun htie => ?_⟩
    have := hpast.2 (by linarith)
    omega
  · rw [h] at hpast ⊢
    simp only [Nat.lt_succ_self, Mode.onMag, RoundsPast, true_iff] at hpast
    rw [abs_of_nonpos (by push_cast; linarith)]
    push_cast
    rcases hpast with hgt | ⟨heq, hodd⟩
    · exact ⟨by linarith, fun htie => by linarith⟩
    · exact ⟨by linarith, fun _ => by omega⟩

/-! ### A rational rounded to an integer (R59) -/

theorem roundInt_of_neg {mode : Mode} {q : Rat} (h : q < 0) : roundInt mode q = -((roundMag mode true (-q)).1 : Int) :=
  if_pos h

theorem roundInt_of_nonneg {mode : Mode} {q : Rat} (h : 0 ≤ q) : roundInt mode q = ((roundMag mode false q).1 : Int) :=
  if_neg (not_lt.mpr h)

theorem roundInt_rd (q : Rat) : roundInt .rd q = ⌊q⌋ := by
  rcases lt_or_ge q 0 with h | h
  · have hq : (0 : Rat) ≤ -q := by linarith
    rw [roundInt_of_neg h, roundMag_of_up hq rfl, Int.natCast_ceil_eq_ceil hq, Int.ceil_neg, neg_neg]
  · rw [roundInt_of_nonneg h, roundMag_of_cut h rfl, Int.natCast_floor_eq_floor h]

theorem roundInt_ru (q : Rat) : roundInt .ru q = ⌈q⌉ := by
  rcases lt_or_ge q 0 with h | h
  · have hq : (0 : Rat) ≤ -q := by linarith
    rw [roundInt_of_neg h, roundMag_of_cut hq rfl, Int.natCast_floor_eq_floor hq, Int.floor_neg, neg_neg]
  · rw [roundInt_of_nonneg h, roundMag_of_up h rfl, Int.natCast_ceil_eq_ceil h]

theorem roundInt_rz (q : Rat) : roundInt .rz q = if 0 ≤ q then ⌊q⌋ else ⌈q⌉ := by
  split
  case isTrue h => rw [roundInt_of_nonneg h, roundMag_of_cut h rfl, Int.natCast_floor_eq_floor h]
  case isFalse h =>
    have hq : (0 : Rat) ≤ -q := by linarith
    rw [roundInt_of_neg (not_le.mp h), roundMag_of_cut hq rfl, Int.natCast_floor_eq_floor hq, Int.floor_neg, neg_neg]

/-- To the nearest integer, a tie to the even one. -/
theorem roundInt_rne (q : Rat) :
    |q - roundInt .rne q| ≤ 1 / 2 ∧ (|q - roundInt .rne q| = 1 / 2 → roundInt .rne q % 2 = 0) := by
  rcases lt_or_ge q 0 with h | h
  · obtain ⟨hnear, heven⟩ := roundMag_of_nearest (neg := true) (b := -q) (by linarith)
    have hsym : |q - roundInt .rne q| = |-q - ((roundMag .rne true (-q)).1 : Rat)| := by
      rw [roundInt_of_neg h, ← abs_neg]
      congr 1
      push_cast
      ring
    rw [hsym]
    refine ⟨hnear, fun htie => ?_⟩
    have := heven htie
    rw [roundInt_of_neg h]
    omega
  · obtain ⟨hnear, heven⟩ := roundMag_of_nearest (neg := false) h
    rw [roundInt_of_nonneg h, Int.cast_natCast]
    exact ⟨hnear, fun htie => by have := heven htie; omega⟩

end Sys2Proof.Num
end

section
/-!
PROOFS. The value of an encoding, and the grid of a format's magnitudes (R48-R50).
-/

namespace Sys2Proof.Num

open Sys2Proof

/-! ### The value of an encoding (R49, R50) -/

/-- The bounds of a format that the laws of its encodings use. -/
structure Fmt.Regular (F : Fmt) : Prop where
  two_le_ew : 2 ≤ F.ew
  two_le_fw : 2 ≤ F.fw

/-- The five formats of R48 and R50. -/
theorem regular_of_mem {F : Fmt} (h : F ∈ [fp64, fp32, fp16, bf16, e4m3]) : F.Regular := by
  simp only [List.mem_cons, List.not_mem_nil, or_false] at h
  rcases h with rfl | rfl | rfl | rfl | rfl <;> exact ⟨by decide, by decide⟩

/-- The value of a sign, an exponent field and a fraction field. -/
def decodeParts (F : Fmt) (s : Bool) (e m : Nat) : XR :=
  if e = 2 ^ F.ew - 1 && F.hasInf then (if m = 0 then .inf s else .nan)
  else if e = 2 ^ F.ew - 1 && m = 2 ^ F.fw - 1 then .nan
  else if e = 0 then .fin s (if s then -((m : Rat) * pow2 F.minExp) else (m : Rat) * pow2 F.minExp)
  else .fin s (if s then -(((2 ^ F.fw + m : Nat) : Rat) * pow2 (F.minExp + (e : Int) - 1))
    else ((2 ^ F.fw + m : Nat) : Rat) * pow2 (F.minExp + (e : Int) - 1))

theorem decodeF_eq_parts {F : Fmt} (hF : F.Regular) (w : Nat) :
    decodeF F w = decodeParts F (w.testBit (F.ew + F.fw)) (w / 2 ^ F.fw % 2 ^ F.ew) (w % 2 ^ F.fw) := by
  have hew := hF.two_le_ew
  have hfld : fld w (F.ew + F.fw - 1) F.fw = w / 2 ^ F.fw % 2 ^ F.ew := by
    rw [fld, Nat.shiftRight_eq_div_pow, show F.ew + F.fw - 1 + 1 - F.fw = F.ew by omega]
  simp only [decodeF, hfld]
  rfl

section
variable {F : Fmt} {n : Nat}

theorem testBit_signBit_add (s : Bool) (hn : n < 2 ^ (F.ew + F.fw)) :
    (signBit F s + n).testBit (F.ew + F.fw) = s := by
  cases s
  · simp [signBit, Nat.testBit_lt_two_pow hn]
  · simp [signBit, Nat.testBit_two_pow_add_eq, Nat.testBit_lt_two_pow hn]

theorem signBit_add_div (s : Bool) : (signBit F s + n) / 2 ^ F.fw % 2 ^ F.ew = n / 2 ^ F.fw % 2 ^ F.ew := by
  cases s
  · simp [signBit]
  · rw [signBit, if_pos rfl, pow_add, Nat.mul_comm, Nat.mul_add_div (by positivity), Nat.add_mod_left]

theorem signBit_add_mod (s : Bool) : (signBit F s + n) % 2 ^ F.fw = n % 2 ^ F.fw := by
  cases s
  · simp [signBit]
  · rw [signBit, if_pos rfl, pow_add, Nat.mul_comm, Nat.mul_add_mod]

theorem signBit_even (hF : F.Regular) (s : Bool) : signBit F s % 2 = 0 := by
  have hew := hF.two_le_ew
  cases s
  · rfl
  · rw [signBit, if_pos rfl, show F.ew + F.fw = F.ew + F.fw - 1 + 1 by omega, pow_succ, Nat.mul_mod_left]

theorem decodeF_signBit_add (hF : F.Regular) (s : Bool) (hn : n < 2 ^ (F.ew + F.fw)) :
    decodeF F (signBit F s + n) = decodeParts F s (n / 2 ^ F.fw) (n % 2 ^ F.fw) := by
  have hdiv : n / 2 ^ F.fw < 2 ^ F.ew := by rw [Nat.div_lt_iff_lt_mul (by positivity), ← pow_add]; exact hn
  rw [decodeF_eq_parts hF, testBit_signBit_add s hn, signBit_add_div, signBit_add_mod, Nat.mod_eq_of_lt hdiv]

end

/-- The value of the encoding with the fields `s`, `e` and `m`. -/
theorem decodeF_fields {F : Fmt} (hF : F.Regular) (s : Bool) {e m : Nat} (he : e < 2 ^ F.ew) (hm : m < 2 ^ F.fw) :
    decodeF F (signBit F s + (e * 2 ^ F.fw + m)) = decodeParts F s e m := by
  have hn : e * 2 ^ F.fw + m < 2 ^ (F.ew + F.fw) := by
    calc e * 2 ^ F.fw + m < (e + 1) * 2 ^ F.fw := by rw [Nat.succ_mul]; omega
      _ ≤ 2 ^ F.ew * 2 ^ F.fw := Nat.mul_le_mul_right _ he
      _ = 2 ^ (F.ew + F.fw) := (pow_add ..).symm
  rw [decodeF_signBit_add hF s hn, Nat.mul_add_mod_of_lt hm, Nat.add_comm, Nat.add_mul_div_right _ _ (by positivity),
    Nat.div_eq_of_lt hm, Nat.zero_add]

/-! ### Magnitudes on a format's grid -/

section
variable (F : Fmt) (n : Nat)

/-- The significand of a magnitude's encoding. -/
def sig : Nat := if n / 2 ^ F.fw = 0 then n % 2 ^ F.fw else 2 ^ F.fw + n % 2 ^ F.fw
/-- The exponent of its last bit. -/
def lastBit : Int := F.minExp + ((n / 2 ^ F.fw - 1 : Nat) : Int)
/-- Its value. -/
def magVal : Rat := sig F n * 2 ^ lastBit F n

end

section
variable {F : Fmt} {n : Nat}

theorem sig_lt : sig F n < 2 ^ (F.fw + 1) := by
  have := Nat.mod_lt n (y := 2 ^ F.fw) (by positivity)
  rw [sig, pow_succ]
  split <;> omega

theorem minExp_le_lastBit : F.minExp ≤ lastBit F n := by simp [lastBit]

theorem magVal_nonneg : 0 ≤ magVal F n := mul_nonneg (Nat.cast_nonneg _) (two_zpow_pos _).le

@[simp] theorem magVal_zero : magVal F 0 = 0 := by simp [magVal, sig]

/-- From one encoding to the next is one unit in the last place. -/
theorem magVal_succ : magVal F (n + 1) = magVal F n + 2 ^ lastBit F n := by
  have hpos : 0 < 2 ^ F.fw := by positivity
  have hdm := Nat.div_add_mod n (2 ^ F.fw)
  have hlt := Nat.mod_lt n hpos
  by_cases hm : n % 2 ^ F.fw + 1 < 2 ^ F.fw
  · have hn : n + 1 = n % 2 ^ F.fw + 1 + 2 ^ F.fw * (n / 2 ^ F.fw) := by omega
    have hdiv : (n + 1) / 2 ^ F.fw = n / 2 ^ F.fw := by
      rw [hn, Nat.add_mul_div_left _ _ hpos, Nat.div_eq_of_lt hm, Nat.zero_add]
    have hmod : (n + 1) % 2 ^ F.fw = n % 2 ^ F.fw + 1 := by rw [hn, Nat.add_mul_mod_self_left, Nat.mod_eq_of_lt hm]
    have hsig : sig F (n + 1) = sig F n + 1 := by
      simp only [sig, hdiv, hmod]
      split <;> omega
    simp only [magVal, lastBit, hsig, hdiv]
    push_cast
    ring
  · have hn : n + 1 = 2 ^ F.fw * (n / 2 ^ F.fw + 1) := by rw [Nat.mul_add]; omega
    have hdiv : (n + 1) / 2 ^ F.fw = n / 2 ^ F.fw + 1 := by rw [hn, Nat.mul_div_cancel_left _ hpos]
    have hmod : (n + 1) % 2 ^ F.fw = 0 := by rw [hn, Nat.mul_mod_right]
    have hnext : sig F (n + 1) = 2 ^ F.fw := by simp [sig, hdiv, hmod]
    have hunit : lastBit F (n + 1) = F.minExp + (n / 2 ^ F.fw : Nat) := by simp [lastBit, hdiv]
    rcases Nat.eq_zero_or_pos (n / 2 ^ F.fw) with h0 | h0
    · have hsig : sig F n + 1 = 2 ^ F.fw := by rw [sig, if_pos h0]; omega
      have hq : ((sig F n : Nat) : Rat) + 1 = 2 ^ F.fw := by exact_mod_cast hsig
      have hx : lastBit F n = F.minExp := by simp [lastBit, h0]
      rw [magVal, hnext, hunit, magVal, hx, h0, Nat.cast_zero, add_zero]
      push_cast
      linear_combination (-(2 : Rat) ^ F.minExp) * hq
    · have hsig : sig F n + 1 = 2 * 2 ^ F.fw := by rw [sig, if_neg (by omega)]; omega
      have hq : ((sig F n : Nat) : Rat) + 1 = 2 * 2 ^ F.fw := by exact_mod_cast hsig
      have hx : F.minExp + ((n / 2 ^ F.fw : Nat) : Int) = lastBit F n + (1 : Nat) := by
        rw [lastBit]
        omega
      rw [magVal, hnext, hunit, hx, two_zpow_add_nat, magVal]
      push_cast
      linear_combination (-(2 : Rat) ^ lastBit F n) * hq

theorem magVal_strictMono (F : Fmt) : StrictMono (magVal F) :=
  strictMono_nat_of_lt_succ fun n => by
    rw [magVal_succ]
    linarith [two_zpow_pos (lastBit F n)]

/-- The least normal is where the significands become whole. -/
theorem magVal_le_of_sig_lt {x : Int} (h : lastBit F n < x) : magVal F n ≤ 2 ^ F.fw * 2 ^ x := by
  have hs : (sig F n : Rat) ≤ 2 ^ F.fw * 2 := by
    rw [← pow_succ]
    exact_mod_cast sig_lt.le
  calc magVal F n ≤ 2 ^ F.fw * 2 * 2 ^ lastBit F n := mul_le_mul_of_nonneg_right hs (two_zpow_pos _).le
    _ = 2 ^ F.fw * 2 ^ (lastBit F n + (1 : Nat)) := by rw [two_zpow_add_nat]; ring
    _ ≤ 2 ^ F.fw * 2 ^ x := mul_le_mul_of_nonneg_left (two_zpow_le (by push_cast; omega)) (by positivity)

/-- No value of the format lies strictly between two neighbours of a grid that is as fine as the format's own there. -/
theorem magVal_off_gap {k : Nat} {x : Int} (hk : x = F.minExp ∨ 2 ^ F.fw ≤ k) :
    magVal F n ≤ k * 2 ^ x ∨ (k + 1 : Rat) * 2 ^ x ≤ magVal F n := by
  have hpos := two_zpow_pos x
  rcases lt_or_ge (lastBit F n) x with h | h
  · have hfw : 2 ^ F.fw ≤ k := hk.resolve_left (by have := minExp_le_lastBit (F := F) (n := n); omega)
    have hq : (2 : Rat) ^ F.fw ≤ k := by exact_mod_cast hfw
    exact .inl ((magVal_le_of_sig_lt h).trans (mul_le_mul_of_nonneg_right hq hpos.le))
  · obtain ⟨d, hd⟩ := Int.eq_ofNat_of_zero_le (sub_nonneg.mpr h)
    have hval : magVal F n = ((sig F n * 2 ^ d : Nat) : Rat) * 2 ^ x := by
      rw [magVal, show lastBit F n = x + d by omega, two_zpow_add_nat]
      push_cast
      ring
    rw [hval]
    rcases Nat.lt_or_ge k (sig F n * 2 ^ d) with hs | hs
    · exact .inr (mul_le_mul_of_nonneg_right (by exact_mod_cast hs) hpos.le)
    · exact .inl (mul_le_mul_of_nonneg_right (by exact_mod_cast hs) hpos.le)

end

/-- The encoding of `k` last bits of exponent `x`: its value, and its parity. -/
theorem encMag_spec {F : Fmt} (hF : F.Regular) {k : Nat} {x : Int} (hk : k ≤ 2 ^ (F.fw + 1)) (hx : F.minExp ≤ x)
    (hsub : k < 2 ^ F.fw → x = F.minExp) :
    magVal F (encMag F k x) = k * 2 ^ x ∧ (k % 2 = 0 → encMag F k x % 2 = 0) := by
  have hpos : 0 < 2 ^ F.fw := by positivity
  have heven : 2 ^ F.fw % 2 = 0 := by
    obtain ⟨d, hd⟩ := Nat.exists_eq_add_of_le hF.two_le_fw
    rw [hd, pow_add]
    omega
  -- the encoding of a whole significand
  have whole : ∀ {k : Nat} {x : Int}, 2 ^ F.fw ≤ k → k < 2 ^ (F.fw + 1) → F.minExp ≤ x →
      let n := (x - F.minExp + 1).toNat * 2 ^ F.fw + (k - 2 ^ F.fw)
      magVal F n = k * 2 ^ x ∧ (k % 2 = 0 → n % 2 = 0) := by
    intro k x h1 h2 h3 n
    rw [pow_succ] at h2
    have hdiv : n / 2 ^ F.fw = (x - F.minExp + 1).toNat := by
      rw [show n = _ from Nat.add_comm _ _, Nat.add_mul_div_right _ _ hpos, Nat.div_eq_of_lt (by omega), Nat.zero_add]
    have hmod : n % 2 ^ F.fw = k - 2 ^ F.fw := Nat.mul_add_mod_of_lt (by omega)
    refine ⟨?_, fun hkeven => ?_⟩
    · rw [magVal, sig, lastBit, hdiv, hmod, if_neg (by omega), Nat.add_sub_cancel' h1]
      congr 2
      omega
    · have : (x - F.minExp + 1).toNat * 2 ^ F.fw % 2 = 0 := by rw [Nat.mul_mod, heven]; simp
      omega
  unfold encMag
  by_cases hcarry : k = 2 ^ (F.fw + 1)
  · have hlt : 2 ^ F.fw < 2 ^ (F.fw + 1) := by rw [pow_succ]; omega
    obtain ⟨hval, hpar⟩ := whole (x := x + 1) le_rfl hlt (by omega)
    simp only [hcarry, if_true, lt_irrefl, if_false]
    refine ⟨hval.trans ?_, fun _ => hpar heven⟩
    rw [zpow_add_one₀ two_ne_zero]
    push_cast
    ring
  · simp only [hcarry, if_false]
    split
    case isTrue hlt =>
      refine ⟨?_, id⟩
      rw [magVal, sig, lastBit, Nat.div_eq_of_lt hlt, Nat.mod_eq_of_lt hlt, hsub hlt]
      simp
    case isFalse hge => exact whole (not_lt.mp hge) (by omega) hx

/-! ### The finite encodings, and the largest -/

/-- Whether the magnitude of an encoding is that of a finite value. -/
def MagFinite (F : Fmt) (n : Nat) : Prop :=
  n < 2 ^ (F.ew + F.fw) ∧ ¬ (n / 2 ^ F.fw = 2 ^ F.ew - 1 ∧ (F.hasInf = true ∨ n % 2 ^ F.fw = 2 ^ F.fw - 1))

section
variable {F : Fmt} {n : Nat} (hF : F.Regular)
include hF

omit hF in
theorem decodeParts_of_finite (s : Bool) (hn : MagFinite F n) :
    decodeParts F s (n / 2 ^ F.fw) (n % 2 ^ F.fw) = .fin s (if s then -magVal F n else magVal F n) := by
  have htop : ¬ ((decide (n / 2 ^ F.fw = 2 ^ F.ew - 1) && F.hasInf) = true) := by
    simp only [Bool.and_eq_true, decide_eq_true_iff]
    exact fun h => hn.2 ⟨h.1, .inl h.2⟩
  have hnan : ¬ ((decide (n / 2 ^ F.fw = 2 ^ F.ew - 1) && decide (n % 2 ^ F.fw = 2 ^ F.fw - 1)) = true) := by
    simp only [Bool.and_eq_true, decide_eq_true_iff]
    exact fun h => hn.2 ⟨h.1, .inr h.2⟩
  rw [decodeParts, if_neg htop, if_neg hnan]
  by_cases h0 : n / 2 ^ F.fw = 0
  · simp only [h0, if_true, magVal, sig, lastBit, pow2_eq_zpow]
    simp
  · simp only [h0, if_false, magVal, sig, lastBit, pow2_eq_zpow]
    generalize n / 2 ^ F.fw = e at *
    rw [show F.minExp + (e : Int) - 1 = F.minExp + ((e - 1 : Nat) : Int) by omega]

theorem magFinite_iff_le_maxEnc : MagFinite F n ↔ n ≤ maxEnc F false := by
  have hew : 2 ^ 2 ≤ 2 ^ F.ew := Nat.pow_le_pow_right two_pos hF.two_le_ew
  have hfw : 2 ^ 2 ≤ 2 ^ F.fw := Nat.pow_le_pow_right two_pos hF.two_le_fw
  have hdm := Nat.div_add_mod n (2 ^ F.fw)
  have hlt := Nat.mod_lt n (y := 2 ^ F.fw) (by positivity)
  simp only [MagFinite, maxEnc, signBit, pow_add, Bool.false_eq_true, if_false, Nat.zero_add]
  generalize n / 2 ^ F.fw = e at *
  generalize n % 2 ^ F.fw = m at *
  generalize 2 ^ F.fw = P at *
  generalize 2 ^ F.ew = E at *
  obtain ⟨D, rfl⟩ : ∃ D, E = D + 1 := ⟨E - 1, by omega⟩
  rw [Nat.add_sub_cancel, Nat.add_mul, Nat.one_mul]
  subst hdm
  rw [Nat.mul_comm P e]
  have below : e < D → e * P + P ≤ D * P := fun h => by
    rw [← Nat.succ_mul]
    exact Nat.mul_le_mul_right _ h
  have above : D < e → D * P + P ≤ e * P := fun h => by
    rw [← Nat.succ_mul]
    exact Nat.mul_le_mul_right _ h
  rcases lt_trichotomy e D with h | rfl | h
  case inl =>
    have := below h
    cases F.hasInf <;> simp only [Bool.false_eq_true, false_or, true_or, and_true, if_true, if_false, not_and_or] <;> omega
  case inr.inl =>
    have : 0 < e * P := Nat.mul_pos (by omega) (by omega)
    cases F.hasInf <;> simp only [Bool.false_eq_true, false_or, true_or, if_true, if_false, true_and, not_true_eq_false,
      and_false, false_iff] <;> omega
  case inr.inr =>
    have := above h
    cases F.hasInf <;> simp only [Bool.false_eq_true, false_or, true_or, and_true, if_true, if_false, not_and_or] <;> omega

/-- The value of a signed magnitude up to the largest. -/
theorem decodeF_of_le_maxEnc (s : Bool) (hn : n ≤ maxEnc F false) :
    decodeF F (signBit F s + n) = .fin s (if s then -magVal F n else magVal F n) := by
  have hfin := (magFinite_iff_le_maxEnc hF).mpr hn
  rw [decodeF_signBit_add hF s hfin.1, decodeParts_of_finite s hfin]

/-- Every finite value is that of a signed magnitude up to the largest. -/
theorem decodeF_eq_fin {w : Nat} {s : Bool} {u : Rat} (h : decodeF F w = .fin s u) :
    ∃ n ≤ maxEnc F false, u = if s then -magVal F n else magVal F n := by
  let n := w / 2 ^ F.fw % 2 ^ F.ew * 2 ^ F.fw + w % 2 ^ F.fw
  have hm : w % 2 ^ F.fw < 2 ^ F.fw := Nat.mod_lt _ (by positivity)
  have he : w / 2 ^ F.fw % 2 ^ F.ew < 2 ^ F.ew := Nat.mod_lt _ (by positivity)
  have hmod : n % 2 ^ F.fw = w % 2 ^ F.fw := Nat.mul_add_mod_of_lt hm
  have hdiv : n / 2 ^ F.fw = w / 2 ^ F.fw % 2 ^ F.ew := by
    rw [show n = _ from Nat.add_comm _ _, Nat.add_mul_div_right _ _ (by positivity), Nat.div_eq_of_lt hm, Nat.zero_add]
  have hn : n < 2 ^ (F.ew + F.fw) := by
    rw [pow_add, ← Nat.div_lt_iff_lt_mul (by positivity), hdiv]
    exact he
  rw [decodeF_eq_parts hF, ← hdiv, ← hmod] at h
  by_cases hfin : MagFinite F n
  · rw [decodeParts_of_finite _ hfin] at h
    obtain ⟨rfl, rfl⟩ := XR.fin.inj h
    exact ⟨n, (magFinite_iff_le_maxEnc hF).mp hfin, rfl⟩
  · simp only [MagFinite, hn, true_and, not_not] at hfin
    obtain ⟨htop, hinf | hnan⟩ := hfin
    · rw [decodeParts, if_pos (by simp [htop, hinf])] at h
      split at h <;> cases h
    · rw [decodeParts] at h
      simp only [htop, hnan, decide_true, Bool.true_and, if_true] at h
      split at h
      · split at h <;> cases h
      · cases h

theorem rat_decodeF (hn : n ≤ maxEnc F false) : (decodeF F n).rat = magVal F n := by
  have h := decodeF_of_le_maxEnc hF false hn
  rw [signBit, if_neg Bool.false_ne_true, Nat.zero_add] at h
  simp [h, XR.rat]

theorem maxFinite_eq_magVal : maxFinite F = magVal F (maxEnc F false) := rat_decodeF hF le_rfl

/-- The largest magnitude, in last bits of its binade: its parity, and the value before it. -/
theorem maxFinite_spec : ∃ (K : Nat) (X : Int), maxFinite F = K * 2 ^ X ∧
    maxFinite F - (decodeF F (maxEnc F false - 1)).rat = 2 ^ X ∧ 2 ^ F.fw ≤ K ∧ K + 1 ≤ 2 ^ (F.fw + 1) ∧
    (K % 2 = 1 ↔ F.hasInf = true) ∧ F.minExp ≤ X := by
  have hew : 2 ^ 2 ≤ 2 ^ F.ew := Nat.pow_le_pow_right two_pos hF.two_le_ew
  obtain ⟨d, hd⟩ := Nat.exists_eq_add_of_le hF.two_le_fw
  have hfw : 2 ^ F.fw = 4 * 2 ^ d := by
    rw [hd, pow_add]
    rfl
  have hd : 0 < 2 ^ d := by positivity
  obtain ⟨e, m, hm, hmax, hpar, he⟩ : ∃ e m, m + 1 < 2 ^ F.fw ∧ maxEnc F false = e * 2 ^ F.fw + (m + 1) ∧
      ((m + 1) % 2 = 1 ↔ F.hasInf = true) ∧ 0 < e := by
    cases hinf : F.hasInf
    · refine ⟨2 ^ F.ew - 1, 2 ^ F.fw - 3, by omega, ?_, by simp; omega, by omega⟩
      have : 2 ^ F.fw ≤ 2 ^ F.ew * 2 ^ F.fw := Nat.le_mul_of_pos_left _ (by positivity)
      simp only [maxEnc, signBit, hinf, Bool.false_eq_true, if_false, Nat.zero_add, pow_add, Nat.sub_mul, Nat.one_mul]
      omega
    · refine ⟨2 ^ F.ew - 2, 2 ^ F.fw - 2, by omega, ?_, by simp; omega, by omega⟩
      have : 4 * 2 ^ F.fw ≤ 2 ^ F.ew * 2 ^ F.fw := Nat.mul_le_mul_right _ hew
      simp only [maxEnc, signBit, hinf, Bool.false_eq_true, if_false, if_true, Nat.zero_add, Nat.sub_mul, Nat.one_mul]
      omega
  have fields : ∀ k < 2 ^ F.fw, sig F (e * 2 ^ F.fw + k) = 2 ^ F.fw + k ∧ lastBit F (e * 2 ^ F.fw + k) = F.minExp + (e - 1 : Nat) := by
    intro k hk
    have hdiv : (e * 2 ^ F.fw + k) / 2 ^ F.fw = e := by
      rw [Nat.add_comm, Nat.add_mul_div_right _ _ (by positivity), Nat.div_eq_of_lt hk, Nat.zero_add]
    rw [sig, lastBit, hdiv, if_neg he.ne', Nat.mul_add_mod_of_lt hk]
    exact ⟨rfl, rfl⟩
  refine ⟨2 ^ F.fw + (m + 1), F.minExp + (e - 1 : Nat), ?_, ?_, by omega, by rw [pow_succ]; omega, by rw [← hpar]; omega, by omega⟩
  · rw [maxFinite_eq_magVal hF, hmax, magVal, (fields _ hm).1, (fields _ hm).2]
  · rw [maxFinite_eq_magVal hF, rat_decodeF hF (Nat.sub_le ..), hmax, ← Nat.add_assoc, Nat.add_sub_cancel, magVal_succ,
      (fields m (by omega)).2]
    ring

end

end Sys2Proof.Num
end

section
/-!
PROOFS. A magnitude rounded once to a format: overflow, the nearest value, underflow (R55, R58, R59).
-/

namespace Sys2Proof.Num

open Sys2Proof

/-! ### A magnitude rounded to a format (R55, R59) -/

/-- The exponent of the last bit of a magnitude whose significand is whole, in an unbounded exponent range. -/
def wholeExp (F : Fmt) (a : Rat) : Int := ilog2 a - F.fw
/-- The exponent of its last bit on the format's grid. -/
def gridExp (F : Fmt) (a : Rat) : Int := if wholeExp F a < F.minExp then F.minExp else wholeExp F a
/-- A magnitude rounded to a whole number of bits of exponent `x`. -/
def roundAt (mode : Mode) (neg : Bool) (a : Rat) (x : Int) : Nat := (roundMag mode neg (a * 2 ^ (-x))).1

/-- What a value past the largest becomes (R59). -/
def overflowed (F : Fmt) (mode : Mode) (neg : Bool) : Nat × Flags :=
  if F.hasInf then (if mode.onMag neg = .rz then maxEnc F neg else infEnc F neg, { ovf := true, inx := true })
  else (maxEnc F neg, { ovf := true, inx := true, sat := true })

theorem roundRat_eq {F : Fmt} {mode : Mode} {q : Rat} (hq : q ≠ 0) :
    let neg := decide (q < 0)
    let whole : Rat := roundAt mode neg |q| (wholeExp F |q|) * 2 ^ wholeExp F |q|
    let exact : Bool := (roundMag mode neg (|q| * 2 ^ (-gridExp F |q|))).2
    roundRat F mode q = if maxFinite F < whole then overflowed F mode neg
      else (signBit F neg + encMag F (roundAt mode neg |q| (gridExp F |q|)) (gridExp F |q|),
        { inx := !exact, unf := !exact && decide (whole < minNormal F) }) := by
  have habs : (if decide (q < 0) = true then -q else q) = |q| := by
    by_cases h : q < 0
    · simp [h, abs_of_neg h]
    · simp [h, abs_of_nonneg (not_lt.mp h)]
  simp only [roundRat, if_neg hq, habs, pow2_eq_zpow, overflowed]
  refine if_congr Iff.rfl (if_congr Iff.rfl ?_ rfl) rfl
  cases mode <;> by_cases h : q < 0 <;> simp [Mode.onMag, h]

section
variable {F : Fmt} (hF : F.Regular) {mode : Mode} {neg : Bool} {a : Rat} (ha : 0 < a)

theorem mul_zpow_neg_cancel (b : Rat) (x : Int) : b * 2 ^ (-x) * 2 ^ x = b := by
  rw [mul_assoc, ← zpow_add₀ two_ne_zero, neg_add_cancel, zpow_zero, mul_one]

theorem le_mul_zpow_neg {b c : Rat} {x : Int} : c ≤ b * 2 ^ (-x) ↔ c * 2 ^ x ≤ b := by
  rw [← mul_le_mul_iff_left₀ (two_zpow_pos x), mul_zpow_neg_cancel]

theorem lt_mul_zpow_neg {b c : Rat} {x : Int} : c < b * 2 ^ (-x) ↔ c * 2 ^ x < b := by
  rw [← mul_lt_mul_iff_left₀ (two_zpow_pos x), mul_zpow_neg_cancel]

theorem mul_zpow_neg_le {b c : Rat} {x : Int} : b * 2 ^ (-x) ≤ c ↔ b ≤ c * 2 ^ x := by
  rw [← mul_le_mul_iff_left₀ (two_zpow_pos x), mul_zpow_neg_cancel]

theorem mul_zpow_neg_eq {b c : Rat} {x : Int} : b * 2 ^ (-x) = c ↔ b = c * 2 ^ x := by
  rw [← mul_left_inj' (two_zpow_pos x).ne', mul_zpow_neg_cancel]

include ha in
theorem mul_zpow_neg_nonneg (x : Int) : 0 ≤ a * 2 ^ (-x) := (mul_pos ha (two_zpow_pos _)).le

include ha in
theorem lt_roundAt_iff (K : Nat) (x : Int) : K < roundAt mode neg a x ↔ RoundsPast (mode.onMag neg) K (a * 2 ^ (-x)) :=
  lt_roundMag_iff (mul_zpow_neg_nonneg ha x) K

theorem le_roundAt {K : Nat} {x : Int} (h : (K : Rat) * 2 ^ x ≤ a) : K ≤ roundAt mode neg a x :=
  le_roundMag (le_mul_zpow_neg.mpr h)

include ha in
theorem roundAt_le {K : Nat} {x : Int} (h : a ≤ (K : Rat) * 2 ^ x) : roundAt mode neg a x ≤ K :=
  roundMag_le (mul_zpow_neg_nonneg ha x) (mul_zpow_neg_le.mpr h)

/-- At its own exponent a magnitude has a whole significand. -/
theorem wholeExp_bounds (F : Fmt) {a : Rat} (ha : 0 < a) :
    (2 : Rat) ^ F.fw * 2 ^ wholeExp F a ≤ a ∧ a < 2 ^ (F.fw + 1) * 2 ^ wholeExp F a := by
  have h := ilog2_bounds ha
  rw [show ilog2 a = wholeExp F a + (F.fw : Nat) by simp [wholeExp], two_zpow_add_nat, mul_comm] at h
  rw [show wholeExp F a + (F.fw : Nat) + 1 = wholeExp F a + (F.fw + 1 : Nat) by push_cast; ring, two_zpow_add_nat,
    mul_comm _ ((2 : Rat) ^ (F.fw + 1))] at h
  exact h

include ha in
theorem whole_significand : 2 ^ F.fw ≤ roundAt mode neg a (wholeExp F a) ∧ roundAt mode neg a (wholeExp F a) ≤ 2 ^ (F.fw + 1) := by
  obtain ⟨hlo, hhi⟩ := wholeExp_bounds F ha
  exact ⟨le_roundAt (by push_cast; exact hlo), roundAt_le ha (by push_cast; exact hhi.le)⟩

theorem gridExp_of_whole (h : F.minExp ≤ wholeExp F a) : gridExp F a = wholeExp F a := if_neg (not_lt.mpr h)
theorem gridExp_of_sub (h : wholeExp F a < F.minExp) : gridExp F a = F.minExp := if_pos h
theorem minExp_le_gridExp : F.minExp ≤ gridExp F a := by
  rw [gridExp]
  split <;> omega

/-- `2^fw` units of a lower exponent are at most half as many of a higher one. -/
theorem two_pow_mul_zpow_le (n : Nat) {x y : Int} (h : x < y) : (2 : Rat) ^ (n + 1) * 2 ^ x ≤ 2 ^ n * 2 ^ y := by
  have hy : (2 : Rat) ^ (x + (1 : Nat)) ≤ 2 ^ y := two_zpow_le (by push_cast; omega)
  rw [two_zpow_add_nat, pow_one] at hy
  rw [pow_succ]
  calc (2 : Rat) ^ n * 2 * 2 ^ x = 2 ^ n * (2 ^ x * 2) := by ring
    _ ≤ 2 ^ n * 2 ^ y := mul_le_mul_of_nonneg_left hy (by positivity)

include ha in
/-- A magnitude overflows where it rounds past the largest, in the last bits of the largest. -/
theorem overflow_iff {K : Nat} {X : Int} (hlo : 2 ^ F.fw ≤ K) (hhi : K + 1 ≤ 2 ^ (F.fw + 1)) :
    (K : Rat) * 2 ^ X < (roundAt mode neg a (wholeExp F a) : Rat) * 2 ^ wholeExp F a ↔
      RoundsPast (mode.onMag neg) K (a * 2 ^ (-X)) := by
  obtain ⟨halo, hahi⟩ := wholeExp_bounds F ha
  obtain ⟨hklo, hkhi⟩ := whole_significand (F := F) (mode := mode) (neg := neg) ha
  have qlo : (2 : Rat) ^ F.fw ≤ K := by exact_mod_cast hlo
  have qhi : (K : Rat) + 1 ≤ 2 ^ (F.fw + 1) := by exact_mod_cast hhi
  have qklo : (2 : Rat) ^ F.fw ≤ roundAt mode neg a (wholeExp F a) := by exact_mod_cast hklo
  have qkhi : (roundAt mode neg a (wholeExp F a) : Rat) ≤ 2 ^ (F.fw + 1) := by exact_mod_cast hkhi
  rcases lt_trichotomy (wholeExp F a) X with h | rfl | h
  · have hstep := (two_pow_mul_zpow_le F.fw h).trans (mul_le_mul_of_nonneg_right qlo (two_zpow_pos X).le)
    refine iff_of_false (not_lt.mpr ?_) (not_roundsPast_of_le (mul_zpow_neg_le.mpr (hahi.le.trans hstep)))
    exact (mul_le_mul_of_nonneg_right qkhi (two_zpow_pos _).le).trans hstep
  · rw [mul_lt_mul_iff_left₀ (two_zpow_pos _), Nat.cast_lt, lt_roundAt_iff ha]
  · have hstep := (mul_le_mul_of_nonneg_right qhi (two_zpow_pos X).le).trans (two_pow_mul_zpow_le F.fw h)
    refine iff_of_true ?_ (roundsPast_of_le (le_mul_zpow_neg.mpr (hstep.trans halo)))
    calc (K : Rat) * 2 ^ X < (K + 1) * 2 ^ X := by linarith [two_zpow_pos X]
      _ ≤ 2 ^ F.fw * 2 ^ wholeExp F a := hstep
      _ ≤ _ := mul_le_mul_of_nonneg_right qklo (two_zpow_pos _).le

include ha in
/-- On the format's grid the significand fits, and is whole above the subnormals. -/
theorem grid_significand : roundAt mode neg a (gridExp F a) ≤ 2 ^ (F.fw + 1) ∧
    (roundAt mode neg a (gridExp F a) < 2 ^ F.fw → gridExp F a = F.minExp) ∧
    (gridExp F a = F.minExp ∨ 2 ^ F.fw ≤ ⌊a * 2 ^ (-gridExp F a)⌋₊) := by
  obtain ⟨halo, hahi⟩ := wholeExp_bounds F ha
  rcases lt_or_ge (wholeExp F a) F.minExp with h | h
  · rw [gridExp_of_sub h]
    refine ⟨roundAt_le ha ?_, fun _ => rfl, .inl rfl⟩
    push_cast
    exact hahi.le.trans (mul_le_mul_of_nonneg_left (two_zpow_le h.le) (by positivity))
  · rw [gridExp_of_whole h]
    obtain ⟨hklo, hkhi⟩ := whole_significand (F := F) (mode := mode) (neg := neg) ha
    exact ⟨hkhi, fun hlt => absurd hklo (not_le.mpr hlt), .inr (Nat.le_floor (by push_cast; exact le_mul_zpow_neg.mpr halo))⟩

/-- The encoding of the rounded magnitude. -/
def magEnc (F : Fmt) (mode : Mode) (neg : Bool) (a : Rat) : Nat := encMag F (roundAt mode neg a (gridExp F a)) (gridExp F a)

include hF ha

theorem magVal_magEnc : magVal F (magEnc F mode neg a) = roundAt mode neg a (gridExp F a) * 2 ^ gridExp F a :=
  (encMag_spec hF (grid_significand ha).1 minExp_le_gridExp (grid_significand ha).2.1).1

theorem magEnc_even (h : roundAt mode neg a (gridExp F a) % 2 = 0) : magEnc F mode neg a % 2 = 0 :=
  (encMag_spec hF (grid_significand ha).1 minExp_le_gridExp (grid_significand ha).2.1).2 h

/-- What it is for a magnitude to be another rounded to the format, by what the mode does to magnitudes (R55). -/
def RoundedTo (F : Fmt) (d : Mode) (a : Rat) (n : Nat) : Prop :=
  match d with
  | .rne => ∀ m, |a - magVal F n| ≤ |a - magVal F m| ∧
      (magVal F m ≠ magVal F n → |a - magVal F n| = |a - magVal F m| → n % 2 = 0)
  | .rz => ∀ m, magVal F n ≤ a ∧ (magVal F m ≤ a → magVal F m ≤ magVal F n)
  | .ru | .rd => ∀ m, a ≤ magVal F n ∧ (a ≤ magVal F m → magVal F n ≤ magVal F m)

omit hF ha in
/-- The nearer of two neighbours is nearest among the values outside the gap between them. -/
theorem nearest_of_gap {lo hi b v u : Rat} {even : Prop} (hb : hi = lo + b) (hlo : lo ≤ a) (hhi : a < hi)
    (hside : v = lo ∨ v = hi) (hhalf : |a - v| ≤ b / 2) (htie : |a - v| = b / 2 → even) (hgap : u ≤ lo ∨ hi ≤ u) :
    |a - v| ≤ |a - u| ∧ (u ≠ v → |a - v| = |a - u| → even) := by
  rcases hside with rfl | rfl <;> rcases hgap with h | h
  · rw [abs_of_nonneg (sub_nonneg.mpr hlo), abs_of_nonneg (by linarith)]
    exact ⟨by linarith, fun hne heq => absurd (by linarith) hne⟩
  · rw [abs_of_nonneg (sub_nonneg.mpr hlo)] at hhalf htie ⊢
    rw [abs_of_nonpos (by linarith)]
    exact ⟨by linarith, fun _ heq => htie (by linarith)⟩
  · rw [abs_of_nonpos (by linarith)] at hhalf htie ⊢
    rw [abs_of_nonneg (by linarith)]
    exact ⟨by linarith, fun _ heq => htie (by linarith)⟩
  · rw [abs_of_nonpos (by linarith), abs_of_nonpos (by linarith)]
    exact ⟨by linarith, fun hne heq => absurd (by linarith) hne⟩

omit hF in
/-- The grid's points about a magnitude, between which no value of the format lies. -/
theorem grid_gap (m : Nat) :
    let x := gridExp F a
    let f := ⌊a * 2 ^ (-x)⌋₊
    ((f : Rat) * 2 ^ x ≤ a ∧ a < (f + 1) * 2 ^ x) ∧ (magVal F m ≤ f * 2 ^ x ∨ ((f : Rat) + 1) * 2 ^ x ≤ magVal F m) := by
  intro x f
  have hb := mul_zpow_neg_nonneg ha x
  refine ⟨⟨le_mul_zpow_neg.mp (Nat.floor_le hb), ?_⟩, magVal_off_gap (grid_significand (mode := .rz) (neg := false) ha).2.2⟩
  rw [← not_le, ← le_mul_zpow_neg, not_le]
  exact Nat.lt_floor_add_one _

theorem magEnc_roundedTo : RoundedTo F (mode.onMag neg) a (magEnc F mode neg a) := by
  have hb := mul_zpow_neg_nonneg ha (gridExp F a)
  have hval := magVal_magEnc (mode := mode) (neg := neg) hF ha
  have hpos := two_zpow_pos (gridExp F a)
  cases hd : mode.onMag neg <;> intro m <;> obtain ⟨⟨hlo, hhi⟩, hgap⟩ := grid_gap (F := F) ha m
  case rz =>
    rw [roundAt, roundMag_of_cut hb hd] at hval
    rw [hval]
    exact ⟨hlo, fun hle => hgap.resolve_right (by linarith)⟩
  case ru =>
    rw [roundAt, roundMag_of_up hb hd] at hval
    rw [hval]
    refine ⟨mul_zpow_neg_le.mp (Nat.le_ceil _), fun hle => ?_⟩
    rcases hgap with h | h
    · exact (mul_le_mul_of_nonneg_right (Nat.cast_le.mpr (Nat.ceil_le.mpr (mul_zpow_neg_le.mpr (hle.trans h)))) hpos.le).trans
        (hlo.trans hle)
    · refine le_trans (mul_le_mul_of_nonneg_right ?_ hpos.le) h
      exact_mod_cast Nat.ceil_le_floor_add_one _
  case rd => exact absurd hd (mode.onMag_ne_rd neg)
  case rne =>
    obtain rfl := Mode.eq_rne_of_onMag hd
    obtain ⟨hnear, heven⟩ := roundMag_of_nearest (neg := neg) hb
    have hk := roundMag_near (mode := .rne) (neg := neg) hb
    have hpar := magEnc_even (mode := .rne) (neg := neg) hF ha
    rw [← roundAt] at hnear heven hk
    have hdiff : |a - magVal F (magEnc F .rne neg a)| =
        |a * 2 ^ (-gridExp F a) - roundAt .rne neg a (gridExp F a)| * 2 ^ gridExp F a := by
      rw [hval, ← abs_of_pos hpos, ← abs_mul, abs_of_pos hpos, sub_mul, mul_zpow_neg_cancel]
    have hhalf : |a - magVal F (magEnc F .rne neg a)| ≤ 2 ^ gridExp F a / 2 := by
      rw [hdiff]
      linarith [mul_le_mul_of_nonneg_right hnear hpos.le]
    have htie : |a - magVal F (magEnc F .rne neg a)| = 2 ^ gridExp F a / 2 → magEnc F .rne neg a % 2 = 0 := fun h => by
      refine hpar (heven (mul_right_cancel₀ hpos.ne' (b := (2 : Rat) ^ gridExp F a) ?_))
      rw [← hdiff, h]
      ring
    have hside : magVal F (magEnc F .rne neg a) = ⌊a * 2 ^ (-gridExp F a)⌋₊ * 2 ^ gridExp F a ∨
        magVal F (magEnc F .rne neg a) = ((⌊a * 2 ^ (-gridExp F a)⌋₊ : Rat) + 1) * 2 ^ gridExp F a := by
      rw [hval]
      exact hk.imp (fun h => by rw [h]) (fun h => by rw [h]; push_cast; rfl)
    exact nearest_of_gap (by ring) hlo hhi hside hhalf htie hgap

theorem magEnc_le_maxEnc (h : ¬ maxFinite F < roundAt mode neg a (wholeExp F a) * 2 ^ wholeExp F a) :
    magEnc F mode neg a ≤ maxEnc F false := by
  rw [← (magVal_strictMono F).le_iff_le, magVal_magEnc hF ha, ← maxFinite_eq_magVal hF]
  rcases lt_or_ge (wholeExp F a) F.minExp with hx | hx
  · obtain ⟨K, X, hmax, -, hlo, -, -, hX⟩ := maxFinite_spec hF
    have hk : roundAt mode neg a (gridExp F a) ≤ 2 ^ F.fw := roundAt_le ha (by
      rw [gridExp_of_sub hx]
      push_cast
      exact (wholeExp_bounds F ha).2.le.trans (two_pow_mul_zpow_le F.fw hx))
    rw [gridExp_of_sub hx, hmax]
    rw [gridExp_of_sub hx] at hk
    exact mul_le_mul (by exact_mod_cast hk.trans hlo) (two_zpow_le hX) (two_zpow_pos _).le (by positivity)
  · rw [gridExp_of_whole hx]
    exact not_lt.mp h

omit hF ha in
/-- The least normal is `2^fw` units of the least exponent. -/
theorem minNormal_eq : minNormal F = 2 ^ F.fw * 2 ^ F.minExp := by
  rw [minNormal, pow2_eq_zpow, two_zpow_add_nat, mul_comm]

omit hF in
/-- A magnitude below the least normal after an unbounded rounding was below it. -/
theorem lt_minNormal_of_whole (h : roundAt mode neg a (wholeExp F a) * 2 ^ wholeExp F a < minNormal F) : a < minNormal F := by
  obtain ⟨halo, hahi⟩ := wholeExp_bounds F ha
  have hk : (2 : Rat) ^ F.fw ≤ roundAt mode neg a (wholeExp F a) := by exact_mod_cast (whole_significand ha).1
  rw [minNormal_eq] at h ⊢
  have hx : wholeExp F a < F.minExp := by
    by_contra hge
    exact absurd h (not_lt.mpr (mul_le_mul hk (two_zpow_le (not_lt.mp hge)) (two_zpow_pos _).le (by positivity)))
  exact hahi.trans_le (two_pow_mul_zpow_le F.fw hx)

/-- A magnitude that rounds below the least normal on the format's grid does so in an unbounded exponent range. -/
theorem whole_lt_minNormal (h : magVal F (magEnc F mode neg a) < minNormal F) :
    roundAt mode neg a (wholeExp F a) * 2 ^ wholeExp F a < minNormal F := by
  rw [magVal_magEnc hF ha, minNormal_eq] at h
  rw [minNormal_eq]
  have hpos := two_zpow_pos F.minExp
  rcases lt_trichotomy (wholeExp F a + 1) F.minExp with hx | hx | hx
  · have hk : (roundAt mode neg a (wholeExp F a) : Rat) ≤ 2 ^ (F.fw + 1) := by exact_mod_cast (whole_significand ha).2
    calc _ ≤ (2 : Rat) ^ (F.fw + 1) * 2 ^ wholeExp F a := mul_le_mul_of_nonneg_right hk (two_zpow_pos _).le
      _ ≤ 2 ^ F.fw * 2 ^ (wholeExp F a + 1) := two_pow_mul_zpow_le F.fw (lt_add_one _)
      _ < 2 ^ F.fw * 2 ^ F.minExp := mul_lt_mul_of_pos_left (zpow_lt_zpow_right₀ (by norm_num) hx) (by positivity)
  · -- one binade below the least normal: the grid's units are twice as large
    obtain ⟨K, hK⟩ : ∃ K, 2 ^ F.fw = K + 1 := ⟨2 ^ F.fw - 1, (Nat.sub_add_cancel Nat.one_le_two_pow).symm⟩
    have hKq : (2 : Rat) ^ F.fw = (K + 1 : Nat) := by exact_mod_cast hK
    have hsmall : ¬ RoundsPast (mode.onMag neg) K (a * 2 ^ (-F.minExp)) := by
      rw [gridExp_of_sub (by omega), hKq, mul_lt_mul_iff_left₀ hpos, Nat.cast_lt] at h
      rw [← lt_roundAt_iff ha]
      omega
    have hdouble : a * 2 ^ (-wholeExp F a) = 2 * (a * 2 ^ (-F.minExp)) := by
      rw [show -wholeExp F a = -F.minExp + 1 by omega, zpow_add_one₀ two_ne_zero]
      ring
    have hwhole : roundAt mode neg a (wholeExp F a) < 2 * K + 2 := by
      have := mt (fun h => roundsPast_of_double (hdouble ▸ (lt_roundAt_iff ha (2 * K + 1) (wholeExp F a)).mp h)) hsmall
      omega
    have hq : (roundAt mode neg a (wholeExp F a) : Rat) < 2 * (K + 1) := by exact_mod_cast hwhole
    rw [← hx, zpow_add_one₀ two_ne_zero, hKq]
    push_cast
    linarith [mul_lt_mul_of_pos_right hq (two_zpow_pos (wholeExp F a))]
  · rwa [gridExp_of_whole (by omega)] at h

end

end Sys2Proof.Num
end

section
/-!
PROOFS. Numbers rounded to a format, to an integer type and to a probability fraction (R49-R55, R58, R59).
-/

namespace Sys2Proof.Num

open Sys2Proof

/-! ### A number rounded to a format (R55, R58, R59) -/

/-- A magnitude with a sign. -/
def withSign (neg : Bool) (x : Rat) : Rat := if neg then -x else x

theorem withSign_abs (q : Rat) : withSign (decide (q < 0)) |q| = q := by
  by_cases h : q < 0
  · simp [withSign, h, abs_of_neg h]
  · simp [withSign, h, abs_of_nonneg (not_lt.mp h)]

theorem withSign_inj (neg : Bool) {x y : Rat} : withSign neg x = withSign neg y ↔ x = y := by
  cases neg <;> simp [withSign]

theorem withSign_eq_zero (neg : Bool) {x : Rat} : withSign neg x = 0 ↔ x = 0 := by
  cases neg <;> simp [withSign]

theorem abs_withSign (neg : Bool) {x : Rat} (hx : 0 ≤ x) : |withSign neg x| = x := by
  cases neg <;> simp [withSign, abs_of_nonneg hx]

section
variable {F : Fmt} (hF : F.Regular) {mode : Mode} {q : Rat} (hq : q ≠ 0)
include hF hq

omit hF in
/-- A number whose magnitude rounds past the largest overflows. -/
theorem roundRat_of_overflow {K : Nat} {X : Int} (hmax : maxFinite F = K * 2 ^ X) (hlo : 2 ^ F.fw ≤ K)
    (hhi : K + 1 ≤ 2 ^ (F.fw + 1)) (h : RoundsPast (mode.onMag (decide (q < 0))) K (|q| * 2 ^ (-X))) :
    roundRat F mode q = overflowed F mode (decide (q < 0)) := by
  have ha := abs_pos.mpr hq
  have := roundRat_eq (F := F) (mode := mode) hq
  simp only at this
  rw [this, if_pos (by rw [hmax]; exact (overflow_iff ha hlo hhi).mpr h)]

/-- Any other has the encoding of its rounded magnitude, and the flags of what was lost. -/
theorem roundRat_of_finite {K : Nat} {X : Int} (hmax : maxFinite F = K * 2 ^ X) (hlo : 2 ^ F.fw ≤ K)
    (hhi : K + 1 ≤ 2 ^ (F.fw + 1)) (h : ¬ RoundsPast (mode.onMag (decide (q < 0))) K (|q| * 2 ^ (-X))) :
    let neg := decide (q < 0)
    let n := magEnc F mode neg |q|
    let v := withSign neg (magVal F n)
    let r := roundRat F mode q
    r.1 = signBit F neg + n ∧ decodeF F r.1 = .fin neg v ∧ r.2 = { inx := decide (v ≠ q), unf := r.2.unf } ∧
      (r.2.unf = true → v ≠ q ∧ |q| < minNormal F) ∧ (v ≠ q → v ≠ 0 → |v| < minNormal F → r.2.unf = true) := by
  intro neg n v r
  have ha := abs_pos.mpr hq
  have hfit : ¬ maxFinite F < roundAt mode neg |q| (wholeExp F |q|) * 2 ^ wholeExp F |q| := by
    rw [hmax, overflow_iff ha hlo hhi]
    exact h
  have hr : r = _ := (roundRat_eq (F := F) (mode := mode) hq).trans (if_neg hfit)
  have hn : n ≤ maxEnc F false := magEnc_le_maxEnc hF ha hfit
  have hexact : (roundMag mode neg (|q| * 2 ^ (-gridExp F |q|))).2 = decide (v = q) := by
    have hv : v = q ↔ magVal F n = |q| := by
      conv_lhs => rw [← withSign_abs q]
      exact withSign_inj neg
    rw [Bool.eq_iff_iff, roundMag_exact_iff (mul_zpow_neg_nonneg ha _), decide_eq_true_iff, hv, magVal_magEnc hF ha, eq_comm,
      mul_zpow_neg_eq, eq_comm]
    rfl
  rw [hexact] at hr
  have hunf : r.2.unf = true ↔ v ≠ q ∧ roundAt mode neg |q| (wholeExp F |q|) * 2 ^ wholeExp F |q| < minNormal F := by
    rw [hr]
    simp [neg]
  refine ⟨by rw [hr]; rfl, ?_, by rw [hr]; simp, fun hu => ?_, fun hne _ hlt => hunf.mpr ⟨hne, whole_lt_minNormal hF ha ?_⟩⟩
  · rw [hr]
    exact decodeF_of_le_maxEnc hF neg hn
  · obtain ⟨hne, hlt⟩ := hunf.mp hu
    exact ⟨hne, lt_minNormal_of_whole ha hlt⟩
  · rwa [abs_withSign neg magVal_nonneg] at hlt

end

section
variable {F : Fmt} {q : Rat} {n : Nat}

/-- Down is to cut a positive magnitude and to raise a negative one. -/
theorem roundedTo_down (h : RoundedTo F (if q < 0 then .ru else .rz) |q| n) (s : Bool) (m : Nat) :
    let v := withSign (decide (q < 0)) (magVal F n)
    v ≤ q ∧ (withSign s (magVal F m) ≤ q → withSign s (magVal F m) ≤ v) := by
  have hm : 0 ≤ magVal F m := magVal_nonneg
  have hn : 0 ≤ magVal F n := magVal_nonneg
  by_cases hneg : q < 0
  · rw [if_pos hneg, abs_of_neg hneg] at h
    obtain ⟨hup, hleast⟩ := h m
    cases s <;> simp only [withSign, hneg, decide_true, if_true, Bool.false_eq_true, if_false]
    · exact ⟨by linarith, fun hle => by linarith⟩
    · exact ⟨by linarith, fun hle => neg_le_neg (hleast (by linarith))⟩
  · rw [if_neg hneg, abs_of_nonneg (not_lt.mp hneg)] at h
    obtain ⟨hcut, hgreatest⟩ := h m
    cases s <;> simp only [withSign, hneg, decide_false, if_true, Bool.false_eq_true, if_false]
    · exact ⟨hcut, hgreatest⟩
    · exact ⟨hcut, fun _ => by linarith⟩

/-- Up is to raise a positive magnitude and to cut a negative one. -/
theorem roundedTo_up (hq : q ≠ 0) (h : RoundedTo F (if q < 0 then .rz else .ru) |q| n) (s : Bool) (m : Nat) :
    let v := withSign (decide (q < 0)) (magVal F n)
    q ≤ v ∧ (q ≤ withSign s (magVal F m) → v ≤ withSign s (magVal F m)) := by
  have hm : 0 ≤ magVal F m := magVal_nonneg
  have hn : 0 ≤ magVal F n := magVal_nonneg
  by_cases hneg : q < 0
  · rw [if_pos hneg, abs_of_neg hneg] at h
    obtain ⟨hcut, hgreatest⟩ := h m
    cases s <;> simp only [withSign, hneg, decide_true, if_true, Bool.false_eq_true, if_false]
    · exact ⟨by linarith, fun _ => by linarith⟩
    · exact ⟨by linarith, fun hle => neg_le_neg (hgreatest (by linarith))⟩
  · have hpos : 0 < q := lt_of_le_of_ne (not_lt.mp hneg) hq.symm
    rw [if_neg hneg, abs_of_pos hpos] at h
    obtain ⟨hup, hleast⟩ := h m
    cases s <;> simp only [withSign, hneg, decide_false, if_true, Bool.false_eq_true, if_false]
    · exact ⟨hup, hleast⟩
    · exact ⟨hup, fun hle => by linarith⟩

/-- The distance between two signed magnitudes. -/
theorem abs_withSign_sub (neg s : Bool) (x y : Rat) : |withSign neg x - withSign s y| = |x - withSign (neg ^^ s) y| := by
  cases neg
  · simp [withSign]
  · cases s
    · rw [← abs_neg]
      simp [withSign, add_comm]
    · rw [← abs_neg]
      simp [withSign, ← sub_eq_neg_add]

/-- The nearest magnitude is nearest among the values of both signs. -/
theorem roundedTo_nearest (h : RoundedTo F .rne |q| n) (s : Bool) (m : Nat) :
    let v := withSign (decide (q < 0)) (magVal F n)
    let u := withSign s (magVal F m)
    |q - v| ≤ |q - u| ∧ (u ≠ v → |q - v| = |q - u| → n % 2 = 0) := by
  intro v u
  have hm : 0 ≤ magVal F m := magVal_nonneg
  have hv : |q - v| = |(|q| - magVal F n)| := by
    conv_lhs => rw [← withSign_abs q]
    rw [abs_withSign_sub, Bool.xor_self]
    rfl
  have hu : |q - u| = |(|q| - withSign (decide (q < 0) ^^ s) (magVal F m))| := by
    conv_lhs => rw [← withSign_abs q]
    rw [abs_withSign_sub]
  rw [hv, hu]
  by_cases hs : decide (q < 0) = s
  · obtain ⟨hnear, heven⟩ := h m
    rw [hs, Bool.xor_self]
    exact ⟨hnear, fun hne => heven fun heq => hne (by simp only [u, v, hs, heq])⟩
  · -- a value of the other sign is no nearer than zero
    have hflip : (decide (q < 0) ^^ s) = true := by simpa using hs
    obtain ⟨hnear, heven⟩ := h 0
    rw [magVal_zero, sub_zero, abs_abs] at hnear heven
    have hfar : |(|q| - withSign true (magVal F m))| = |q| + magVal F m := by
      rw [withSign, if_pos rfl, sub_neg_eq_add, abs_of_nonneg (by positivity)]
    rw [hflip, hfar]
    refine ⟨by linarith, fun hne heq => ?_⟩
    have h0 : magVal F m = 0 := by linarith
    refine heven (fun hz => hne ?_) (by linarith)
    exact ((withSign_eq_zero s).mpr h0).trans ((withSign_eq_zero _).mpr hz.symm).symm

/-- What the rounded magnitude is among all the values of the format. -/
theorem roundedTo_signed {mode : Mode} (hq : q ≠ 0) (h : RoundedTo F (mode.onMag (decide (q < 0))) |q| n) (s : Bool) (m : Nat) :
    let v := withSign (decide (q < 0)) (magVal F n)
    let u := withSign s (magVal F m)
    (mode = .rd ∨ (mode = .rz ∧ 0 < q) → v ≤ q ∧ (u ≤ q → u ≤ v)) ∧
    (mode = .ru ∨ (mode = .rz ∧ q < 0) → q ≤ v ∧ (q ≤ u → v ≤ u)) ∧
    (mode = .rne → |q - v| ≤ |q - u| ∧ (u ≠ v → |q - v| = |q - u| → n % 2 = 0)) := by
  refine ⟨fun hmode => roundedTo_down ?_ s m, fun hmode => roundedTo_up hq ?_ s m, fun hmode => roundedTo_nearest ?_ s m⟩
  · rcases hmode with rfl | ⟨rfl, hpos⟩
    · simpa [Mode.onMag] using h
    · simpa [Mode.onMag, not_lt.mpr hpos.le] using h
  · rcases hmode with rfl | ⟨rfl, hneg⟩
    · simpa [Mode.onMag] using h
    · simpa [Mode.onMag, hneg] using h
  · subst hmode
    exact h

end

/-! ### Integers clamped to their type, and probability fractions (R53, R54, R59) -/

/-- The highest bit of a number. -/
theorem testBit_top {m k : Nat} (h : m < 2 ^ (k + 1)) : m.testBit k = decide (2 ^ k ≤ m) := by
  by_cases hle : 2 ^ k ≤ m
  · rw [decide_eq_true hle, Nat.testBit_of_two_pow_le_and_two_pow_add_one_gt hle h]
  · rw [decide_eq_false hle, Nat.testBit_lt_two_pow (not_le.mp hle)]

/-- An integer in the range of its type is the value of its encoding. -/
theorem ITy.val_enc {t : ITy} (hw : 0 < t.w) {i : Int} (hlo : t.lo ≤ i) (hhi : i ≤ t.hi) : t.val (t.enc i) = i := by
  obtain ⟨k, hk⟩ : ∃ k, t.w = k + 1 := ⟨t.w - 1, by omega⟩
  have hpow : (2 : Nat) ^ t.w = 2 * 2 ^ k := by rw [hk, pow_succ, Nat.mul_comm]
  have hpos : 0 < 2 ^ k := by positivity
  have hbit : ∀ m < 2 * 2 ^ k, m.testBit (t.w - 1) = decide (2 ^ k ≤ m) := fun m hm => by
    rw [hk, Nat.add_sub_cancel, testBit_top (by rw [pow_succ]; omega)]
  simp only [lo, hi, hk, Nat.add_sub_cancel, pow_succ] at hlo hhi
  generalize 2 ^ k = P at *
  have hrange : -(P : Int) ≤ i ∧ i < 2 * P ∧ (t.signed = true → i < P) ∧ (t.signed = false → 0 ≤ i) := by
    cases ht : t.signed <;> simp only [ht, if_true, Bool.false_eq_true, if_false] at hlo hhi <;> simp <;> omega
  obtain ⟨hneg, hlt, hsigned, hunsigned⟩ := hrange
  rcases lt_or_ge i 0 with h | h
  · have henc : (t.enc i : Int) = i + 2 * P := by
      rw [enc, hpow, ← Int.add_emod_right, Int.emod_eq_of_lt (by omega) (by omega)]
      omega
    have hs : t.signed = true := by
      by_contra hs
      exact absurd (hunsigned (by simpa using hs)) (not_le.mpr h)
    rw [val, hpow, Nat.mod_eq_of_lt (by omega), hbit _ (by omega), hs, decide_eq_true (by omega)]
    simp only [Bool.and_self, if_true]
    omega
  · have henc : (t.enc i : Int) = i := by
      rw [enc, hpow, Int.emod_eq_of_lt h (by omega)]
      omega
    rw [val, hpow, Nat.mod_eq_of_lt (by omega), hbit _ (by omega)]
    cases hs : t.signed
    · simp [henc]
    · have := hsigned hs
      rw [decide_eq_false (by omega)]
      simp [henc]

/-- The ends of a type's range, without casts. -/
theorem ITy.lo_eq (t : ITy) : t.lo = if t.signed then -2 ^ (t.w - 1) else 0 := by
  simp [ITy.lo]

theorem ITy.hi_eq (t : ITy) : t.hi = if t.signed then 2 ^ (t.w - 1) - 1 else 2 ^ t.w - 1 := by
  simp [ITy.hi]

theorem ITy.lo_le_hi (t : ITy) : t.lo ≤ t.hi := by
  have h1 : (0 : Int) < 2 ^ (t.w - 1) := by positivity
  have h2 : (0 : Int) < 2 ^ t.w := by positivity
  rw [lo_eq, hi_eq]
  split <;> omega

section
variable {t : ITy} (hw : 0 < t.w) (mode : Mode) (n : Bool) (q : Rat)

include hw in
/-- A number rounded to an integer of a type is clamped to the type's range. -/
theorem val_toInteger_fin : t.val (toInteger t mode (.fin n q)).1 = max t.lo (min t.hi (roundInt mode q)) := by
  have hlohi := t.lo_le_hi
  simp only [toInteger]
  split
  case isTrue h => rw [ITy.val_enc hw le_rfl hlohi, min_eq_right (by omega), max_eq_left h.le]
  case isFalse h =>
    split
    case isTrue h' => rw [ITy.val_enc hw hlohi le_rfl, min_eq_left h'.le, max_eq_right hlohi]
    case isFalse h' => rw [ITy.val_enc hw (not_lt.mp h) (not_lt.mp h'), min_eq_right (not_lt.mp h'), max_eq_right (not_lt.mp h)]

theorem toInteger_fin_of_mem (hlo : t.lo ≤ roundInt mode q) (hhi : roundInt mode q ≤ t.hi) :
    (toInteger t mode (.fin n q)).2 = { inx := decide ((roundInt mode q : Rat) ≠ q) } := by
  simp [toInteger, not_lt.mpr hlo, not_lt.mpr hhi]

theorem toInteger_fin_of_not_mem (h : roundInt mode q < t.lo ∨ t.hi < roundInt mode q) :
    (toInteger t mode (.fin n q)).2 = { sat := true, inv := true } := by
  simp only [toInteger]
  split
  case isTrue => rfl
  case isFalse hlo => rw [if_pos (h.resolve_left hlo)]

include hw in
theorem val_toInteger_inf : t.val (toInteger t mode (.inf n)).1 = if n then t.lo else t.hi := by
  cases n
  · exact ITy.val_enc hw t.lo_le_hi le_rfl
  · exact ITy.val_enc hw le_rfl t.lo_le_hi

end

theorem q15_fin (n : Bool) (q : Rat) : (q15 (.fin n q) : Int) = max 0 (min 0x8000 (roundInt .rne (q * 32768))) := by
  simp only [q15]
  split
  · omega
  · split <;> omega

/-! ### Reading the model's laws off its fields -/

/-- The value of an encoding by its fields (R49, R50). -/
theorem encoding_value {F : Fmt} (hF : F.Regular) (s : Bool) {e m : Nat} (he : e < 2 ^ F.ew) (hm : m < 2 ^ F.fw) :
    let w := (if s then 2 ^ (F.ew + F.fw) else 0) + e * 2 ^ F.fw + m
    let signed (q : Rat) : XR := .fin s (if s then -q else q)
    (e = 0 → decodeF F w = signed (m * (2 : Rat) ^ (1 - (F.bias : Int) - F.fw))) ∧
    (0 < e → e < 2 ^ F.ew - 1 ∨ (F.hasInf = false ∧ m ≠ 2 ^ F.fw - 1) →
      decodeF F w = signed ((2 ^ F.fw + m) * (2 : Rat) ^ ((e : Int) - F.bias - F.fw))) ∧
    (e = 2 ^ F.ew - 1 → F.hasInf = true → decodeF F w = if m = 0 then .inf s else .nan) ∧
    (e = 2 ^ F.ew - 1 → F.hasInf = false → m = 2 ^ F.fw - 1 → decodeF F w = .nan) ∧
    (isSNaN F w = true ↔ decodeF F w = .nan ∧ F.hasInf = true ∧ m < 2 ^ (F.fw - 1)) := by
  intro w signed
  have hdec : decodeF F w = decodeParts F s e m := by
    rw [show w = signBit F s + (e * 2 ^ F.fw + m) from Nat.add_assoc .., decodeF_fields hF s he hm]
  have hew : 2 ^ 2 ≤ 2 ^ F.ew := Nat.pow_le_pow_right two_pos hF.two_le_ew
  refine ⟨fun h0 => ?zero, fun hpos hfin => ?finite, fun htop hinf => ?infinite, fun htop hinf hm => ?nan, ?signalling⟩
  case zero =>
    have htop : e ≠ 2 ^ F.ew - 1 := by omega
    rw [hdec, decodeParts]
    simp [htop, ← h0, signed, pow2_eq_zpow, Fmt.minExp]
  case finite =>
    have hexp : F.minExp + (e : Int) - 1 = e - F.bias - F.fw := by
      rw [Fmt.minExp]
      omega
    rw [hdec, decodeParts, hexp]
    rcases hfin with hlt | ⟨hinf, hm⟩
    · simp [hlt.ne, hpos.ne', signed, pow2_eq_zpow]
    · simp [hinf, hm, hpos.ne', signed, pow2_eq_zpow]
  case infinite => simp [hdec, decodeParts, htop, hinf]
  case nan => simp [hdec, decodeParts, htop, hinf, hm]
  case signalling =>
    have hnan : (decodeF F w).isNaN = true ↔ decodeF F w = .nan := by cases decodeF F w <;> simp [XR.isNaN]
    have hfw : F.fw - 1 + 1 = F.fw := Nat.sub_add_cancel (one_le_two.trans hF.two_le_fw)
    have hmod : w % 2 ^ F.fw = m := by
      rw [show w = signBit F s + (e * 2 ^ F.fw + m) from Nat.add_assoc .., signBit_add_mod, Nat.mul_add_mod_of_lt hm]
    have hbit : w.testBit (F.fw - 1) = decide (2 ^ (F.fw - 1) ≤ m) := by
      rw [← testBit_top (by rwa [hfw]), ← hmod, Nat.testBit_mod_two_pow, decide_eq_true (by omega), Bool.true_and]
    simp [isSNaN, hnan, hbit, and_assoc]

/-- Where a magnitude rounds past the largest, in the units of the number line. -/
theorem roundsPast_scaled {K : Nat} {X : Int} {a top ulp : Rat} (htop : top = K * 2 ^ X) (hulp : ulp = 2 ^ X) :
    (RoundsPast .rne K (a * 2 ^ (-X)) ↔ top + ulp / 2 < a ∨ (K % 2 = 1 ∧ a = top + ulp / 2)) ∧
    (RoundsPast .rz K (a * 2 ^ (-X)) ↔ top + ulp ≤ a) ∧ (RoundsPast .ru K (a * 2 ^ (-X)) ↔ top < a) := by
  subst htop hulp
  refine ⟨?_, ?_, lt_mul_zpow_neg⟩
  · simp only [RoundsPast, lt_mul_zpow_neg, mul_zpow_neg_eq, add_mul, one_div_mul_eq_div, and_comm]
  · simp only [RoundsPast, le_mul_zpow_neg, add_mul, one_mul]

end Sys2Proof.Num

open Sys2Proof Sys2Proof.Num

/-- Settles O60: `encoding_value` reads an encoding off its fields; a number rounds by its magnitude (`roundRat_of_overflow`,
`roundRat_of_finite`), which on the format's grid is the nearest in the mode's sense (`magEnc_roundedTo`). -/
theorem roundingLaws : Obligations.RoundingLaws := by
  refine ⟨fun F hF s e m he hm => encoding_value (regular_of_mem hF) s he hm, fun F hF mode q hq => ?rounded,
    fun F mode => ⟨rfl, fun n h => if_pos h, fun n h => if_neg (by simp [h]), fun n => by simp [roundX], fun n q hq => if_neg hq⟩,
    rfl, by decide, fun q => ⟨roundInt_rd q, roundInt_ru q, roundInt_rz q, roundInt_rne q⟩,
    fun t mode hw => ?integer, fun n q => ⟨q15_fin n q, rfl, rfl, rfl⟩⟩
  case integer =>
    rw [← t.lo_eq, ← t.hi_eq]
    exact ⟨fun n q => ⟨val_toInteger_fin hw mode n q, toInteger_fin_of_mem mode n q, toInteger_fin_of_not_mem mode n q⟩,
      fun n => ⟨val_toInteger_inf hw mode n, rfl⟩, rfl⟩
  case rounded =>
    intro r top ulp beyond up
    have hreg := regular_of_mem hF
    have ha := abs_pos.mpr hq
    obtain ⟨K, X, hmax, hulp, hlo, hhi, hodd, -⟩ := maxFinite_spec hreg
    have hbeyond : beyond ↔ RoundsPast (mode.onMag (decide (q < 0))) K (|q| * 2 ^ (-X)) := by
      obtain ⟨hrne, hrz, hru⟩ := roundsPast_scaled (a := |q|) (top := top) (ulp := ulp) hmax hulp
      rw [hodd] at hrne
      rcases lt_or_gt_of_ne hq with hneg | hpos
      · cases mode <;> simp [beyond, Mode.onMag, hneg, not_lt_of_gt hneg, hrne, hrz, hru, -zpow_neg]
      · cases mode <;> simp [beyond, Mode.onMag, hpos, not_lt_of_gt hpos, hrne, hrz, hru, -zpow_neg]
    have hup : up = decide (mode.onMag (decide (q < 0)) ≠ .rz) := by
      rcases lt_or_gt_of_ne hq with hneg | hpos
      · cases mode <;> simp [up, Mode.onMag, hneg, not_lt_of_gt hneg]
      · cases mode <;> simp [up, Mode.onMag, hpos, not_lt_of_gt hpos]
    refine ⟨fun hb => ?_, fun hb => ?_⟩
    · rw [show r = _ from roundRat_of_overflow hq hmax hlo hhi (hbeyond.mp hb), overflowed, hup]
      by_cases hcut : mode.onMag (decide (q < 0)) = .rz <;> simp [hcut]
    · rw [hbeyond] at hb
      obtain ⟨henc, hval, hflags, hunf, htiny⟩ := roundRat_of_finite hreg hq hmax hlo hhi hb
      refine ⟨_, hval, hflags, hunf, htiny, fun w n u hw => ?_⟩
      obtain ⟨m, -, rfl⟩ := decodeF_eq_fin hreg hw
      obtain ⟨hdown, hupw, hnear⟩ := roundedTo_signed hq (magEnc_roundedTo (mode := mode) (neg := decide (q < 0)) hreg ha) n m
      refine ⟨hdown, hupw, fun hmode => ?_⟩
      obtain ⟨hle, htie⟩ := hnear hmode
      refine ⟨hle, fun hne heq => ?_⟩
      rw [henc, Nat.add_mod, htie hne heq, signBit_even hreg]
end

section
/-!
PROOFS. Accumulator lines: what a write of one leaves in the others, and rows written in turn (R279-R282).
-/

namespace Sys2Proof.Machine

open Sys2Proof

namespace Crew

/-! ### One line written -/

/-- Metadata and slots of a crew's lines are in canonical form. -/
structure LinesFormed (cr : Crew) : Prop where
  metas : Sparse.wf cr.accMeta = true
  slots : Sparse.wf cr.accSlots = true

/-- Two crews hold the same in line `n`. -/
structure SameLine (a b : Crew) (n : Nat) : Prop where
  metas : b.lineMeta n = a.lineMeta n
  slots : ∀ i < 256, b.slot n i = a.slot n i

theorem SameLine.refl (cr : Crew) (n : Nat) : SameLine cr cr n := ⟨rfl, fun _ _ => rfl⟩

theorem SameLine.trans {a b c : Crew} {n : Nat} (h1 : SameLine a b n) (h2 : SameLine b c n) : SameLine a c n :=
  ⟨h2.metas.trans h1.metas, fun i hi => (h2.slots i hi).trans (h1.slots i hi)⟩

section
variable {cr : Crew} (h : LinesFormed cr) (n : Nat)

@[simp] theorem lineMeta_setSlots (xs : List Dword) (m : Nat) : (cr.setSlots n xs).lineMeta m = cr.lineMeta m := rfl

include h

theorem setMeta_formed (w : Dword) : LinesFormed (cr.setMeta n w) := ⟨Sparse.set_wf _ _ _ h.metas, h.slots⟩

theorem lineMeta_setMeta (w : Dword) (m : Nat) : (cr.setMeta n w).lineMeta m = if m = n then w else cr.lineMeta m :=
  Sparse.get_set _ _ _ _ h.metas

theorem setSlots_formed (xs : List Dword) : LinesFormed (cr.setSlots n xs) := by
  refine ⟨h.metas, ?_⟩
  have := Sparse.sets_wf (xs.zipIdx.map fun x => (256 * n + x.2, x.1)) cr.accSlots h.slots
  rwa [List.foldl_map] at this

end

/-- Words written one after another from a place on, read back. -/
theorem get_foldl_set {w : Nat} (xs : List (BitVec w)) (m : Sparse w) (hm : Sparse.wf m = true) (a k z : Nat) :
    Sparse.get ((xs.zipIdx k).foldl (fun m x => Sparse.set m (a + x.2) x.1) m) z =
      if a + k ≤ z ∧ z < a + k + xs.length then xs.getD (z - (a + k)) 0 else Sparse.get m z := by
  induction xs generalizing m k with
  | nil => simp
  | cons x xs ih =>
    rw [List.zipIdx_cons, List.foldl_cons, ih _ (Sparse.set_wf _ _ _ hm), Sparse.get_set _ _ _ _ hm, List.length_cons]
    by_cases hz : z = a + k
    · subst hz
      simp
    · by_cases hin : a + (k + 1) ≤ z ∧ z < a + (k + 1) + xs.length
      · rw [if_pos hin, if_pos (by omega), show z - (a + k) = z - (a + (k + 1)) + 1 by omega, List.getD_cons_succ]
      · rw [if_neg hin, if_neg hz, if_neg (by omega)]

section
variable {cr : Crew} (h : LinesFormed cr) {n : Nat} {xs : List Dword} (hxs : xs.length = 256)
include h hxs

theorem slot_setSlots_self {i : Nat} (hi : i < 256) : (cr.setSlots n xs).slot n i = xs.getD i 0 := by
  have := get_foldl_set xs cr.accSlots h.slots (256 * n) 0 (256 * n + i)
  rw [if_pos (by omega)] at this
  refine this.trans ?_
  congr 1
  omega

theorem slot_setSlots_ne {m i : Nat} (hm : m ≠ n) (hi : i < 256) : (cr.setSlots n xs).slot m i = cr.slot m i := by
  have := get_foldl_set xs cr.accSlots h.slots (256 * n) 0 (256 * m + i)
  rwa [if_neg (by omega)] at this

theorem setSlots_sameLine {m : Nat} (hm : m ≠ n) : SameLine cr (cr.setSlots n xs) m :=
  ⟨rfl, fun _ hi => slot_setSlots_ne h hxs hm hi⟩

end

theorem setMeta_sameLine {cr : Crew} (h : LinesFormed cr) {n m : Nat} (w : Dword) (hm : m ≠ n) : SameLine cr (cr.setMeta n w) m :=
  ⟨(lineMeta_setMeta h n w m).trans (if_neg hm), fun _ _ => rfl⟩

/-! ### A residue row, and a float row in one line -/

theorem resRow_length (cr : Crew) (n : Nat) : (cr.resRow n).els.length = 256 := by simp [resRow]

/-- A residue row is read from its two lines alone. -/
theorem resRow_congr {a b : Crew} {n : Nat} (h0 : SameLine a b n) (h1 : SameLine a b (n + 1)) : b.resRow n = a.resRow n := by
  have hels : (List.range 256).map (fun i => ((b.slot n i).toNat, (b.slot (n + 1) i).toNat)) =
      (List.range 256).map fun i => ((a.slot n i).toNat, (a.slot (n + 1) i).toNat) :=
    List.map_congr_left fun i hi => by rw [h0.slots i (List.mem_range.mp hi), h1.slots i (List.mem_range.mp hi)]
  simp only [resRow, h0.metas, hels]

/-- A one-line float row is read from that line alone. -/
theorem fltRow_congr {a b : Crew} {n : Nat} (h : SameLine a b n) : b.fltRow n 1 = a.fltRow n 1 :=
  List.map_congr_left fun i hi => by simp only [h.slots i (List.mem_range.mp hi), if_true]

section
variable {cr : Crew} (h : LinesFormed cr) (n : Nat) (r : ResRow) (hr : r.els.length = 256)
include h hr

omit hr in
theorem setResRow_formed : LinesFormed (cr.setResRow n r) :=
  setSlots_formed (setSlots_formed (setMeta_formed h n _) n _) _ _

theorem setResRow_sameLine {m : Nat} (hm : m < n ∨ n + 2 ≤ m) : SameLine cr (cr.setResRow n r) m :=
  ((setMeta_sameLine h _ (by omega)).trans
    (setSlots_sameLine (setMeta_formed h n _) (by simp [hr]) (by omega))).trans
    (setSlots_sameLine (setSlots_formed (setMeta_formed h n _) n _) (by simp [hr]) (by omega))

omit hr in
theorem lineMeta_setResRow :
    (cr.setResRow n r).lineMeta n = BitVec.ofNat 64 (2 * 2 ^ 62 + r.lcls * 2 ^ 41 + r.segn) := by
  simp only [setResRow, lineMeta_setSlots, lineMeta_setMeta h, if_true]

theorem slot_setResRow {j : Nat} (hj : j < 256) :
    (cr.setResRow n r).slot n j = BitVec.ofNat 64 (r.els.getD j (0, 0)).1 ∧
    (cr.setResRow n r).slot (n + 1) j = BitVec.ofNat 64 (r.els.getD j (0, 0)).2 := by
  have hj' : j < r.els.length := by omega
  have h1 := setMeta_formed h n (BitVec.ofNat 64 (2 * 2 ^ 62 + r.lcls * 2 ^ 41 + r.segn))
  have h2 := setSlots_formed h1 n (r.els.map fun x => BitVec.ofNat 64 x.1)
  constructor
  · rw [setResRow, slot_setSlots_ne h2 (by simp [hr]) (by omega) hj, slot_setSlots_self h1 (by simp [hr]) hj]
    simp [List.getD_eq_getElem?_getD, hj']
  · rw [setResRow, slot_setSlots_self h2 (by simp [hr]) hj]
    simp [List.getD_eq_getElem?_getD, hj']

end

/-! ### Rows written in turn -/

/-- What `f` does to row after row of `w` lines each, from line `n` on, where it touches one row at a time: each row in
the end is what `f` made of a crew whose row was the first one's. -/
theorem foldl_rows {σ : Type} (crew : σ → Crew) (f : σ → Nat → σ) (n w : Nat)
    (hf : ∀ x i, LinesFormed (crew x) → LinesFormed (crew (f x i)) ∧
      ∀ m, m < n + w * i ∨ n + w * (i + 1) ≤ m → SameLine (crew x) (crew (f x i)) m)
    (k : Nat) (x : σ) (hx : LinesFormed (crew x)) :
    let y := (List.range k).foldl f x
    LinesFormed (crew y) ∧ (∀ m, m < n ∨ n + w * k ≤ m → SameLine (crew x) (crew y) m) ∧
    ∀ i < k, ∃ z, LinesFormed (crew z) ∧ ∀ m, n + w * i ≤ m → m < n + w * (i + 1) →
      SameLine (crew x) (crew z) m ∧ SameLine (crew (f z i)) (crew y) m := by
  induction k with
  | zero => exact ⟨hx, fun _ _ => .refl _ _, fun i hi => absurd hi (Nat.not_lt_zero i)⟩
  | succ k ih =>
    obtain ⟨hformed, hout, hrows⟩ := ih
    rw [List.range_succ, List.foldl_append]
    simp only [List.foldl_cons, List.foldl_nil]
    generalize hy : (List.range k).foldl f x = y at *
    obtain ⟨hnext, hkeep⟩ := hf y k hformed
    have hle : n + w * k ≤ n + w * (k + 1) := by rw [Nat.mul_succ]; omega
    refine ⟨hnext, fun m hm => (hout m (by omega)).trans (hkeep m (by omega)), fun i hi => ?_⟩
    rcases Nat.lt_succ_iff_lt_or_eq.mp hi with hlt | rfl
    · obtain ⟨z, hz, hrow⟩ := hrows i hlt
      have hend : n + w * (i + 1) ≤ n + w * k := Nat.add_le_add_left (Nat.mul_le_mul_left w hlt) n
      exact ⟨z, hz, fun m h1 h2 => ⟨(hrow m h1 h2).1, (hrow m h1 h2).2.trans (hkeep m (by omega))⟩⟩
    · exact ⟨y, hformed, fun m h1 _ => ⟨hout m (by omega), .refl _ _⟩⟩

end Crew

end Sys2Proof.Machine
end

section
/-!
PROOFS. Passes of an MMA (R282, R292), and the arithmetic of residues (R66-R70).
-/

namespace Sys2Proof.Machine

open Sys2Proof
open Sys2Proof.Num (Flags XR fp32 fp64)
open Crew (LinesFormed SameLine)

/-! ### A residue pass -/

theorem ResRow.step_length (r : ResRow) (cls : Nat) (a : ResElt) (bs : List ResElt) :
    (r.step cls a bs).els.length = r.els.length := by
  simp only [ResRow.step, List.length_mapIdx]
  split <;> simp

theorem resPassRow_length (p : BitVec 512) (a b : Operand) (k0 k1 i : Nat) (r : ResRow) :
    (resPassRow p a b k0 k1 i r).els.length = r.els.length := by
  unfold resPassRow
  induction List.range (k1 - k0) generalizing r with
  | nil => rfl
  | cons j js ih => exact (ih _).trans (ResRow.step_length ..)

/-- The rows of a residue pass, one after another. -/
def resPassRows (e : MEntry) (a b : Operand) (cr : Crew) (i : Nat) : Crew :=
  cr.setResRow (mbC0 e.block + 2 * i) (resPassRow e.block a b (256 * e.passes) (min (mbK e.block) (256 * e.passes + 256)) i
    (cr.resRow (mbC0 e.block + 2 * i)))

theorem mmaPass_of_residue {cr : Crew} {e : MEntry} {a b : Operand} (h : pairing a.fmt b.fmt = some 2) :
    mmaPass cr e a b = ((List.range (mbM e.block)).foldl (resPassRows e a b) cr, {}) := by
  simp only [mmaPass, h]
  rfl

theorem mmaPass_residue_row {cr : Crew} {e : MEntry} {a b : Operand} (hcr : LinesFormed cr) (h : pairing a.fmt b.fmt = some 2)
    {i : Nat} (hi : i < mbM e.block) :
    let n := mbC0 e.block + 2 * i
    let k0 := 256 * e.passes
    let r := resPassRow e.block a b k0 (min (mbK e.block) (k0 + 256)) i (cr.resRow n)
    (mmaPass cr e a b).1.lineMeta n = BitVec.ofNat 64 (2 * 2 ^ 62 + r.lcls * 2 ^ 41 + r.segn) ∧
    ∀ j < 256, (mmaPass cr e a b).1.slot n j = BitVec.ofNat 64 (r.els.getD j (0, 0)).1 ∧
      (mmaPass cr e a b).1.slot (n + 1) j = BitVec.ofNat 64 (r.els.getD j (0, 0)).2 := by
  intro n k0 r
  have hstep : ∀ (x : Crew) (i : Nat), LinesFormed x → LinesFormed (resPassRows e a b x i) ∧
      ∀ m, m < mbC0 e.block + 2 * i ∨ mbC0 e.block + 2 * (i + 1) ≤ m → SameLine x (resPassRows e a b x i) m := fun x i hx =>
    ⟨Crew.setResRow_formed hx _ _, fun m hm => Crew.setResRow_sameLine hx _ _
      (by rw [resPassRow_length, Crew.resRow_length]) (by omega)⟩
  obtain ⟨-, -, hrows⟩ := Crew.foldl_rows id (resPassRows e a b) _ 2 hstep (mbM e.block) cr hcr
  obtain ⟨z, hz, hrow⟩ := hrows i hi
  have hz : LinesFormed z := hz
  obtain ⟨hin0, hout0⟩ := hrow n le_rfl (by omega)
  obtain ⟨hin1, hout1⟩ := hrow (n + 1) (by omega) (by omega)
  have hr : resPassRow e.block a b k0 (min (mbK e.block) (k0 + 256)) i (z.resRow n) = r := by
    rw [show z.resRow n = cr.resRow n from Crew.resRow_congr hin0 hin1]
  have hlen : r.els.length = 256 := by rw [resPassRow_length, Crew.resRow_length]
  have hval : resPassRows e a b z i = z.setResRow n r := by rw [← hr]; rfl
  rw [mmaPass_of_residue h]
  refine ⟨?_, fun j hj => ⟨?_, ?_⟩⟩
  · exact hout0.metas.trans (hval ▸ Crew.lineMeta_setResRow hz n r)
  · exact (hout0.slots j hj).trans (hval ▸ (Crew.slot_setResRow hz n r hlen hj).1)
  · exact (hout1.slots j hj).trans (hval ▸ (Crew.slot_setResRow hz n r hlen hj).2)

/-! ### A float pass in one-line rows -/

/-- The accumulators of a one-line float row after a pass, with the flags of each. -/
def fltPassRow (e : MEntry) (a b : Operand) (cr : Crew) (i : Nat) : List (Nat × Flags) :=
  (cr.fltRow (mbC0 e.block + mbLpr e.block * i) 1).mapIdx fun j v =>
    if j < mbN e.block then
      fltPassElt acc32 fp32 e.nbv a b (256 * e.passes) (min (mbK e.block) (256 * e.passes + 256)) i j (v, {})
    else (v, {})

/-- The rows of a float pass, one after another. -/
def fltPassRows (e : MEntry) (a b : Operand) (x : Crew × Flags) (i : Nat) : Crew × Flags :=
  (x.1.setFltRow (mbC0 e.block + mbLpr e.block * i) 1 ((fltPassRow e a b x.1 i).map Prod.fst),
    (fltPassRow e a b x.1 i).foldl (fun f y => f.or y.2) x.2)

theorem mmaPass_of_float {cr : Crew} {e : MEntry} {a b : Operand} (h : pairing a.fmt b.fmt = some 1) :
    mmaPass cr e a b = (List.range (mbM e.block)).foldl (fltPassRows e a b) (cr, {}) := by
  simp only [mmaPass, h]
  rfl

theorem fltPassRow_length (e : MEntry) (a b : Operand) (cr : Crew) (i : Nat) : (fltPassRow e a b cr i).length = 256 := by
  simp [fltPassRow, Crew.fltRow]

theorem mbN_le (p : BitVec 512) : mbN p ≤ 256 := by
  have : bitsOf p 31 24 < 2 ^ 8 := Nat.mod_lt _ (by norm_num)
  rw [mbN]
  omega

theorem mmaPass_float_elt {cr : Crew} {e : MEntry} {a b : Operand} (hcr : LinesFormed cr) (h : pairing a.fmt b.fmt = some 1)
    (hone : mbLpr e.block = 1) {i j : Nat} (hi : i < mbM e.block) (hj : j < mbN e.block) :
    let n := mbC0 e.block + i
    let k0 := 256 * e.passes
    (mmaPass cr e a b).1.slot n j = BitVec.ofNat 64 (2 ^ 24 * (fltPassElt acc32 fp32 e.nbv a b k0
      (min (mbK e.block) (k0 + 256)) i j ((cr.fltRow n 1).getD j 0, {})).1) := by
  intro n k0
  have hj256 : j < 256 := hj.trans_le (mbN_le _)
  have hset : ∀ (x : Crew) i, x.setFltRow (mbC0 e.block + mbLpr e.block * i) 1 ((fltPassRow e a b x i).map Prod.fst) =
      x.setSlots (mbC0 e.block + i) (((fltPassRow e a b x i).map Prod.fst).map fun v => BitVec.ofNat 64 (v * 2 ^ 24)) := fun x i => by
    rw [hone, Nat.one_mul]
    rfl
  have hlen : ∀ (x : Crew) i, (((fltPassRow e a b x i).map Prod.fst).map fun v => BitVec.ofNat 64 (v * 2 ^ 24)).length = 256 :=
    fun x i => by simp [fltPassRow_length]
  have hstep : ∀ (x : Crew × Flags) (i : Nat), LinesFormed x.1 → LinesFormed (fltPassRows e a b x i).1 ∧
      ∀ m, m < mbC0 e.block + 1 * i ∨ mbC0 e.block + 1 * (i + 1) ≤ m → SameLine x.1 (fltPassRows e a b x i).1 m := fun x i hx => by
    simp only [fltPassRows, hset]
    exact ⟨Crew.setSlots_formed hx _ _, fun m hm => Crew.setSlots_sameLine hx (hlen _ _) (by omega)⟩
  obtain ⟨-, -, hrows⟩ := Crew.foldl_rows Prod.fst (fltPassRows e a b) _ 1 hstep (mbM e.block) (cr, {}) hcr
  obtain ⟨z, hz, hrow⟩ := hrows i hi
  obtain ⟨hin, hout⟩ := hrow n (by omega) (by omega)
  have hflt : z.1.fltRow n 1 = cr.fltRow n 1 := Crew.fltRow_congr hin
  rw [mmaPass_of_float h]
  refine (hout.slots j hj256).trans ?_
  simp only [fltPassRows, hset]
  rw [Crew.slot_setSlots_self hz (hlen _ _) hj256]
  have hrowlen : j < (cr.fltRow n 1).length := by simpa [Crew.fltRow] using hj256
  simp only [fltPassRow, hone, Nat.one_mul, show mbC0 e.block + i = n from rfl, hflt]
  simp [List.getD_eq_getElem?_getD, hrowlen, hj, Nat.mul_comm, k0]

/-! ### Residues (R66-R70) -/

/-- The integer is the representative nearest zero. -/
theorem resInt_cases (m1 m2 m3 : Nat) : ∃ t : Int,
    t = m1 * (65536 * 65537 * 32768) + m2 * (65535 * 65537 * 65535) + m3 * (65535 * 65536 * 32769) ∧
    (resInt m1 m2 m3 = t % resM ∧ 2 * (t % resM) < resM ∨ resInt m1 m2 m3 = t % resM - resM ∧ resM ≤ 2 * (t % resM)) := by
  refine ⟨_, rfl, ?_⟩
  simp only [resInt]
  generalize (m1 * (65536 * 65537 * 32768) + m2 * (65535 * 65537 * 65535) + m3 * (65535 * 65536 * 32769) : Int) % resM = i
  split
  case isTrue h => exact .inl ⟨rfl, h⟩
  case isFalse h => exact .inr ⟨rfl, not_lt.mp h⟩

/-- The three residues of the integer they stand for, and its range. -/
theorem resInt_spec {m1 m2 m3 : Nat} (h1 : m1 < 65535) (h2 : m2 < 65536) (h3 : m3 < 65537) :
    resInt m1 m2 m3 % 65535 = m1 ∧ resInt m1 m2 m3 % 65536 = m2 ∧ resInt m1 m2 m3 % 65537 = m3 ∧
      -(65535 * 65536 * 65537) ≤ 2 * resInt m1 m2 m3 ∧ 2 * resInt m1 m2 m3 < 65535 * 65536 * 65537 := by
  obtain ⟨t, ht, h⟩ := resInt_cases m1 m2 m3
  rw [resM] at h
  omega

section
variable (nan opened : Bool) {e : Int} {m1 m2 m3 : Nat} (h1 : m1 < 2 ^ 16) (h2 : m2 < 2 ^ 16) (h3 : m3 < 2 ^ 17)

/-- The fields of a residue word, as a number. -/
theorem resWord_eq : ∃ n o x : Nat, n = nan.toNat ∧ o = opened.toNat ∧ n < 2 ∧ o < 2 ∧ (x : Int) = e % 1024 ∧ x < 1024 ∧
    resWord nan opened e m1 m2 m3 = n * 2 ^ 60 + o * 2 ^ 59 + x * 2 ^ 49 + m3 * 2 ^ 32 + m2 * 2 ^ 16 + m1 :=
  ⟨_, _, (e % 1024).toNat, rfl, rfl, Bool.toNat_lt nan, Bool.toNat_lt opened, by omega, by omega, rfl⟩

include h1 h2 h3

theorem resWord_residues : fld (resWord nan opened e m1 m2 m3) 15 0 = m1 ∧ fld (resWord nan opened e m1 m2 m3) 31 16 = m2 ∧
    fld (resWord nan opened e m1 m2 m3) 48 32 = m3 := by
  obtain ⟨n, o, x, -, -, hn, ho, -, hx, hw⟩ := resWord_eq nan opened (e := e) (m1 := m1) (m2 := m2) (m3 := m3)
  rw [hw, fld_eq, fld_eq, fld_eq]
  omega

theorem resWord_bits : resNan (resWord nan opened e m1 m2 m3) = nan ∧ resOpen (resWord nan opened e m1 m2 m3) = opened := by
  obtain ⟨n, o, x, hnan, hopen, hn, ho, -, hx, hw⟩ := resWord_eq nan opened (e := e) (m1 := m1) (m2 := m2) (m3 := m3)
  have h60 : (n * 2 ^ 60 + o * 2 ^ 59 + x * 2 ^ 49 + m3 * 2 ^ 32 + m2 * 2 ^ 16 + m1) / 2 ^ 60 % 2 = n := by omega
  have h59 : (n * 2 ^ 60 + o * 2 ^ 59 + x * 2 ^ 49 + m3 * 2 ^ 32 + m2 * 2 ^ 16 + m1) / 2 ^ 59 % 2 = o := by omega
  rw [resNan, resOpen, bitAt, bitAt, hw, Nat.testBit_eq_decide_div_mod_eq, Nat.testBit_eq_decide_div_mod_eq, h60, h59, hnan,
    hopen]
  cases nan <;> cases opened <;> decide

theorem resExp_resWord (hlo : -512 ≤ e) (hhi : e < 512) : resExp (resWord nan opened e m1 m2 m3) = e := by
  obtain ⟨n, o, x, -, -, hn, ho, hxe, hx, hw⟩ := resWord_eq nan opened (e := e) (m1 := m1) (m2 := m2) (m3 := m3)
  have hfld : fld (resWord nan opened e m1 m2 m3) 58 49 = x := by
    rw [hw, fld_eq]
    omega
  rw [resExp, hfld, BitVec.toInt_eq_toNat_cond, BitVec.toNat_ofNat]
  split <;> omega

end

/-- A product enters an element whose segment has its exponent, or has none open. -/
theorem resAdd_of_open {w fold : Nat} {v e : Int} (nan : Bool) (h : resOpen w = false ∨ resExp w = e) :
    resAdd (w, fold) v e nan = (resWord (resNan w || nan) true e ((((fld w 15 0 : Nat) : Int) + v) % 65535).toNat
      ((((fld w 31 16 : Nat) : Int) + v) % 65536).toNat ((((fld w 48 32 : Nat) : Int) + v) % 65537).toNat, fold) := by
  have hsame : (resOpen w && resExp w != e) = false := by
    rcases h with h | h <;> simp [h]
  simp only [resAdd, hsame]
  rfl

/-- One k step of a residue row at one column. -/
theorem ResRow.step_elt (r : ResRow) (cls : Nat) (a : ResElt) (bs : List ResElt) {j : Nat} {x : Nat × Nat} {b : ResElt}
    (hx : r.els[j]? = some x) (hb : bs[j]? = some b) : (r.step cls a bs).els[j]? =
      some (resAdd (if decide (resLimit (max r.lcls cls) ≤ r.segn) then resClose x else x) (a.v * b.v) (a.x + b.x) (a.nan || b.nan)) := by
  by_cases hfull : resLimit (max r.lcls cls) ≤ r.segn <;> simp [ResRow.step, hfull, hx, hb]

end Sys2Proof.Machine
end

section
/-!
PROOFS. The matrix arbiter (R289, R290), how a granted entry runs (R292-R297), and its stamp (R294).
-/

namespace Sys2Proof.Machine

open Sys2Proof
open Sys2Proof.Num (Flags XR fp32 fp64)

@[simp] theorem exec_matrixPassGrant (k : Nat) (s : State) : exec (.matrixPassGrant k) s = execMatrixPassGrant k s := rfl
@[simp] theorem exec_multiplierMismatch (k : Nat) (s : State) : exec (.multiplierMismatch k) s = execMultiplierMismatch k s := rfl

/-! ### The arbiter -/

/-- `b` goes no later than `x`: higher priority, or as high and no younger. -/
def MEntry.FirstOf (b x : MEntry) : Prop := x.priority < b.priority ∨ (x.priority = b.priority ∧ b.num ≤ x.num)

theorem MEntry.FirstOf.refl (x : MEntry) : x.FirstOf x := .inr ⟨rfl, le_rfl⟩

theorem MEntry.FirstOf.trans {a b c : MEntry} (h1 : a.FirstOf b) (h2 : b.FirstOf c) : a.FirstOf c := by
  unfold FirstOf at *
  omega

theorem MEntry.firstOf_of_before {a b : MEntry} (h : a.before b = true) : a.FirstOf b := by
  simp only [before, Bool.or_eq_true, Bool.and_eq_true, decide_eq_true_eq] at h
  unfold FirstOf
  omega

theorem MEntry.firstOf_of_not_before {a b : MEntry} (h : ¬ a.before b = true) : b.FirstOf a := by
  simp only [before, Bool.or_eq_true, Bool.and_eq_true, decide_eq_true_eq] at h
  unfold FirstOf
  omega

/-- The arbiter's choice is one of the entries, and the first of them. -/
theorem foldl_before (r : List MEntry) (e : MEntry) :
    let best := r.foldl (fun b x => if x.before b then x else b) e
    best ∈ e :: r ∧ ∀ x ∈ e :: r, best.FirstOf x := by
  induction r generalizing e with
  | nil => exact ⟨List.mem_cons_self, fun x hx => by rw [List.mem_singleton.mp hx]; exact .refl e⟩
  | cons y r ih =>
    have hnext : ∃ z, (if y.before e then y else e) = z ∧ (z = y ∨ z = e) ∧ z.FirstOf y ∧ z.FirstOf e := by
      by_cases h : y.before e = true
      · exact ⟨y, if_pos h, .inl rfl, .refl y, MEntry.firstOf_of_before h⟩
      · exact ⟨e, if_neg h, .inr rfl, MEntry.firstOf_of_not_before h, .refl e⟩
    obtain ⟨z, hz, hor, hy, he⟩ := hnext
    obtain ⟨hmem, hfirst⟩ := ih z
    simp only [List.foldl_cons, hz]
    refine ⟨?_, fun x hx => ?_⟩
    · rcases List.mem_cons.mp hmem with h | h
      · rw [h]
        rcases hor with rfl | rfl <;> simp
      · exact List.mem_cons_of_mem _ (List.mem_cons_of_mem _ h)
    · have hbest := hfirst z List.mem_cons_self
      rcases List.mem_cons.mp hx with rfl | hx
      · exact hbest.trans he
      rcases List.mem_cons.mp hx with rfl | hx
      · exact hbest.trans hy
      · exact hfirst x (List.mem_cons_of_mem _ hx)

theorem cluster_updCluster {s : State} {k : Nat} (hk : k < s.clusters.length) (f : Cluster → Cluster) :
    (s.updCluster k f).cluster k = f (s.cluster k) := by
  simp [State.cluster, State.updCluster, List.getD_eq_getElem?_getD, hk]

theorem matrixPassGrant_spec {k : Nat} {s : State} (hk : k < s.clusters.length) (hfree : (s.cluster k).granted = none)
    (hsome : s.grantable k ≠ []) : ∃ t best, exec (.matrixPassGrant k) s = .next t ∧ best ∈ s.grantable k ∧
      (t.cluster k).granted = some best.num ∧ (∀ e ∈ s.grantable k, best.FirstOf e) ∧ t.mem = s.mem ∧ t.crews = s.crews := by
  obtain ⟨e, r, her⟩ := List.exists_cons_of_ne_nil hsome
  obtain ⟨hmem, hfirst⟩ := foldl_before r e
  rw [exec_matrixPassGrant, execMatrixPassGrant]
  simp only [hfree, her, Option.isSome_none, Bool.false_eq_true, if_false]
  exact ⟨_, _, rfl, hmem, by rw [cluster_updCluster hk], hfirst, rfl, rfl⟩

theorem MEntry.priority_spec (e : MEntry) : e.priority ≤ 7 ∧ (e.waited < 64 → e.priority = mbPri e.block) := by
  have hpri : mbPri e.block < 2 ^ 3 := Nat.mod_lt _ (by norm_num)
  refine ⟨min_le_left .., fun h => ?_⟩
  rw [priority, Nat.div_eq_of_lt h, Nat.add_zero]
  omega

/-! ### How a granted entry runs -/

section
variable {s s1 : State} {k : Nat} {e : MEntry}

theorem runGranted_of_runs {kinds : MEntry → Bool} (hg : s.grantedEntry k = some e) (hk : kinds e = true)
    (hr : s.runEntry k e = some s1) : s.runGranted k kinds = s1 := by
  simp only [State.runGranted, hg, hk, hr, if_true, Option.getD_some]

variable (hg : s.grantedEntry k = some e)
include hg

theorem exec_matrixMma (hk : e.kind = .mma) (hp : e.passes < e.passCount ∨ mbFin e.block = false)
    (hr : s.runEntry k e = some s1) : exec (.matrixMma k) s = .next s1 :=
  congrArg Host.Outcome.next (runGranted_of_runs hg (by simpa [hk] using hp) hr)

theorem exec_matrixWload (hk : e.kind = .wload) (hr : s.runEntry k e = some s1) : exec (.matrixWload k) s = .next s1 :=
  congrArg Host.Outcome.next (runGranted_of_runs hg (by simp [hk]) hr)

theorem exec_matrixFin (hk : e.kind = .fin ∨ (e.kind = .mma ∧ mbFin e.block = true ∧ e.passCount ≤ e.passes))
    (hr : s.runEntry k e = some s1) : exec (.matrixFin k) s = .next s1 :=
  congrArg Host.Outcome.next (runGranted_of_runs hg (by simpa using hk) hr)

theorem exec_matrixClr (hk : e.kind = .clr) (hr : s.runEntry k e = some s1) : exec (.matrixClr k) s = .next s1 :=
  congrArg Host.Outcome.next (runGranted_of_runs hg (by simp [hk]) hr)

theorem exec_accEntryExecute (hk : e.kind = .accsv ∨ e.kind = .accld) (hr : s.runEntry k e = some s1) :
    exec (.accEntryExecute k) s = .next s1 :=
  congrArg Host.Outcome.next (runGranted_of_runs hg (by simpa using hk) hr)

end

section
variable {s : State} {k : Nat} {e : MEntry}

/-- An operation whose STAMP is stale at its start is rejected (R196, R294). -/
theorem runEntry_of_stale (h0 : e.passes = 0) (h : s.staleStamp e.crew (mbStamp e.block) = true) :
    s.runEntry k e = some (s.stampEntry k e 4) := if_pos ⟨h0, h⟩

/-- Any other does the work of its kind. -/
theorem runEntry_of_valid (h : 0 < e.passes ∨ s.staleStamp e.crew (mbStamp e.block) = false) : s.runEntry k e =
    match e.kind with
    | .mma => if e.passes < e.passCount then s.runMma k e else s.runFin k e
    | .wload => s.runWload k e
    | .fin => s.runFin k e
    | .clr => s.runClr k e
    | .accsv => s.runAcc k e
    | .accld => s.runAcc k e := by
  have : ¬ (e.passes = 0 ∧ s.staleStamp e.crew (mbStamp e.block) = true) := fun ⟨h0, hs⟩ => by
    rcases h with h | h
    · omega
    · rw [h] at hs
      cases hs
  exact if_neg this

end

/-! ### The first pass of an MMA, and its passes -/

theorem foldl_id_of_fixed {α β : Type} {f : α → β → α} {x : α} (l : List β) (h : ∀ y ∈ l, f x y = x) : l.foldl f x = x := by
  induction l with
  | nil => rfl
  | cons y l ih =>
    rw [List.foldl_cons, h y List.mem_cons_self]
    exact ih fun z hz => h z (List.mem_cons_of_mem _ hz)

/-- Rows that have the MMA's MODE already are taken as they are (R292). -/
theorem mmaBegin_of_uniform {cr : Crew} {p : BitVec 512} {mode : Nat} (hclr : mbClr p = false) (h0 : mode ≠ 0)
    (h : ∀ n, mbC0 p ≤ n → n < mbC0 p + mbLpr p * mbM p → cr.lineMode n = mode) : mmaBegin cr p mode = some cr := by
  have hin : ∀ i < mbM p, ∀ j < mbLpr p, cr.lineMode (mbC0 p + mbLpr p * i + j) = mode := fun i hi j hj => by
    have hend : mbLpr p * (i + 1) ≤ mbLpr p * mbM p := Nat.mul_le_mul_left _ hi
    rw [Nat.mul_succ] at hend
    exact h _ (by omega) (by omega)
  have hbad : ∀ i ∈ List.range (mbM p), ¬ (((List.range (mbLpr p)).map fun j => mbC0 p + mbLpr p * i + j).any
      (fun n => cr.lineMode n != 0 && cr.lineMode n != mode) ||
      (mbLpr p == 2 && cr.lineMode (mbC0 p + 2 * i) != cr.lineMode (mbC0 p + 2 * i + 1))) = true := fun i hi => by
    have hi := List.mem_range.mp hi
    rw [Bool.or_eq_true, not_or]
    constructor
    · simp only [List.any_eq_true, List.mem_map, List.mem_range, not_exists]
      rintro n ⟨⟨j, hj, rfl⟩, hn⟩
      simp [hin i hi j hj] at hn
    · intro hn
      simp only [Bool.and_eq_true, beq_iff_eq, bne_iff_ne] at hn
      obtain ⟨h2, hne⟩ := hn
      have e0 := hin i hi 0 (by omega)
      have e1 := hin i hi 1 (by omega)
      rw [h2] at e0 e1
      exact hne (e0.trans e1.symm)
  simp only [mmaBegin, hclr, Bool.false_eq_true, if_false]
  rw [if_neg]
  · rw [foldl_id_of_fixed]
    intro n hn
    obtain ⟨i, hi, hn⟩ := List.mem_flatMap.mp hn
    obtain ⟨j, hj, rfl⟩ := List.mem_map.mp hn
    exact if_neg (by rw [hin i (List.mem_range.mp hi) j (List.mem_range.mp hj)]; exact h0)
  · simp only [List.any_eq_true, not_exists, not_and]
    exact hbad

section
variable {s : State} {k : Nat} {e : MEntry} {cr : Crew} (hcr : s.crews[e.crew]? = some cr)
include hcr

/-- Descriptors that differ from the header's format end the MMA (R294). -/
theorem runMma_of_descsBad (h0 : e.passes = 0) (hbad : descsBad (mbOpa e.block) (shapeA e.block) e.tileA
    (tileDescs cr e.tileA (extent (mbOpa e.block) (shapeA e.block))) = true) :
    s.runMma k e = some (s.stampEntry k e 6) := by
  simp [State.runMma, hcr, h0, hbad]

/-- Where they do not, a region that does not hold the operand does (R293, R294). -/
theorem runMma_of_noRegion (h0 : e.passes = 0) (hok : descsBad (mbOpa e.block) (shapeA e.block) e.tileA
    (tileDescs cr e.tileA (extent (mbOpa e.block) (shapeA e.block))) = false) (hsrc : hdrSrc (mbOpb e.block) = 1)
    (hreg : regionFor cr e.block = none) : s.runMma k e = some (s.stampEntry k e 9) := by
  simp [State.runMma, hcr, h0, hok, hsrc, hreg]

/-- A pass on tiles that hold no descriptors (R292). -/
theorem runMma_of_tiles {mode : Nat} {cr0 : Crew} (hsrc : hdrSrc (mbOpb e.block) = 0)
    (ha : bitsOf e.tileA 59 52 = 0) (hb : bitsOf e.tileB 59 52 = 0)
    (hmode : pairing (hdrFmt (mbOpa e.block)) (hdrFmt (mbOpb e.block)) = some mode)
    (hbegin : (0 < e.passes ∧ cr0 = cr) ∨ (e.passes = 0 ∧ mmaBegin cr e.block mode = some cr0))
    (hmore : e.passes + 1 < e.passCount ∨ mbFin e.block = true) :
    let da := if 0 < e.passes then e.descA else tileDescs cr e.tileA (extent (mbOpa e.block) (shapeA e.block))
    let db := if 0 < e.passes then e.descB else tileDescs cr e.tileB (extent (mbOpb e.block) (shapeB e.block))
    let r := mmaPass cr0 e (tileOperand cr (mbOpa e.block) e.tileA da) (tileOperand cr (mbOpb e.block) e.tileB db)
    s.runMma k e = some (((s.updCrew e.crew fun c =>
      { c with accMeta := r.1.accMeta, accSlots := r.1.accSlots }).updEntry k e.num fun _ =>
        { e with passes := e.passes + 1, flags := e.flags ||| r.2.toBits, descA := da, descB := db }).updCluster k
          fun K => { K with granted := none }) := by
  have hnone : ∀ x ds, bitsOf x 59 52 = 0 → ∀ h shape, descsBad h shape x ds = false := fun x ds hx h shape => by
    simp [descsBad, hx]
  have hgoes : ¬ (e.passes + 1 = e.passCount ∧ mbFin e.block = false) := fun ⟨h1, h2⟩ => by
    rcases hmore with h | h
    · omega
    · rw [h] at h2
      cases h2
  rcases hbegin with ⟨hp, rfl⟩ | ⟨hp, hbegin⟩
  · simp [State.runMma, hcr, hp, hsrc, hgoes]
  · simp [State.runMma, hcr, hp, hsrc, hnone _ _ ha, hnone _ _ hb, hmode, hbegin, hp ▸ hgoes]

end

end Sys2Proof.Machine
end

section
/-!
PROOFS. What the matrix engine writes: stamps (R273, R294), the output of a FIN (R285, R292), weight regions (R293), and
lines that ACCSV saved (R281, R297).
-/

namespace Sys2Proof.Machine

open Sys2Proof
open Sys2Proof.Num (Flags XR fp32 fp64)

/-! ### Stamps -/

/-- A write that stays in one page is that page's. -/
theorem writeG_of_page {s : State} {p va : Nat} {bs : List Byte} {g : Page} (h0 : 0 < bs.length)
    (hfit : va % 65536 + bs.length ≤ 65536) (hx : s.xlat p va { write := true } = .ok g) :
    s.writeG p va bs = .ok (s.physWrite g bs) := by
  have hk : min bs.length (65536 - va % 65536) = bs.length := by omega
  have hne : bs.isEmpty = false := by
    cases bs
    · exact absurd h0 (lt_irrefl 0)
    · rfl
  have hcheck : s.vWritable p { write := true } (State.pages bs.length) va bs.length = .ok () := by
    simp only [State.pages, State.vWritable, hk, hx, h0.ne', if_false, Acc.bind, Nat.sub_self, if_true]
  have hstore : s.vStore p { write := true } (State.pages bs.length) va bs = s.physWrite g bs := by
    simp only [State.pages, State.vStore, hk, hx, hne, Bool.false_eq_true, if_false, List.take_length, List.drop_length,
      List.isEmpty_nil, if_true]
  simp only [State.writeG, hcheck, hstore, Acc.bind]

/-- A release at a scope narrower than .dev fires nothing. -/
theorem fireWaiters_of_narrow {s : State} {p va scope : Nat} (h : scope < 2) : s.fireWaiters p va scope = s := by
  simp [State.fireWaiters, State.performed, h]

/-- An entry's stamp in a page of memory (R294). -/
theorem stampEntry_of_page {s : State} {k : Nat} {e : MEntry} {cr : Crew} {g : Page} (st : Nat)
    (hcr : s.crews[e.crew]? = some cr) (hwin : isWindow (mbStamp e.block) = false) (halign : mbStamp e.block % 8 = 0)
    (hscope : mbRsc e.block < 2) (hplumb : bitsOf cr.mode 4 3 = 0) (hnode : e.node = none)
    (hx : s.xlat cr.part (mbStamp e.block) { write := true } = .ok g) :
    s.stampEntry k e st = (s.physWrite g (leBytes 8 (State.stampWord (mbSeq e.block) st e.flags))).freeEntry k e := by
  have hwrite := writeG_of_page (bs := leBytes 8 (State.stampWord (mbSeq e.block) st e.flags)) (by simp)
    (by rw [leBytes_length]; omega) hx
  have hcrews := (physWrite_sameCrews s g (leBytes 8 (State.stampWord (mbSeq e.block) st e.flags))).crews
  simp [State.stampEntry, hcr, State.stamp, State.engineWrite, hwin, hwrite, fireWaiters_of_narrow hscope,
    State.plumbEngine, hcrews, hplumb, hnode, State.nodeEnds]

/-! ### A multiplier that fails while spares last (R296) -/

theorem multiplierMismatch_of_spare {k : Nat} {s : State} (h64 : k < 64) (hk : k < s.clusters.length)
    (hin : (s.cluster k).withdrawn = false) (hspare : (s.cluster k).spares < Config.spareColumns) :
    ∃ t, exec (.multiplierMismatch k) s = .next t ∧ (t.cluster k).spares = (s.cluster k).spares + 1 ∧
      (t.cluster k).entries = (s.cluster k).entries ∧ t.module = { s.module with retired := s.module.retired + 1 } ∧
      t.crews = s.crews := by
  have hclusters : ¬ Config.clusters ≤ k := by
    rw [Config.clusters]
    omega
  have hupd := cluster_updCluster hk fun K => { K with spares := K.spares + 1 }
  simp only [exec_multiplierMismatch, execMultiplierMismatch, hin, hclusters, decide_false, Bool.or_self, Bool.false_eq_true,
    if_false, hspare, if_true]
  have hentries := congrArg Cluster.entries hupd
  exact ⟨_, rfl, congrArg Cluster.spares hupd, hentries, rfl, rfl⟩

/-! ### Lines saved and loaded (R281, R297) -/

/-- The words of a save form: the metadata of the pair, six of zero, and the pair's slots side by side. -/
def Crew.saveWords (cr : Crew) (j : Nat) : List Nat :=
  [(cr.lineMeta (2 * j)).toNat, (cr.lineMeta (2 * j + 1)).toNat, 0, 0, 0, 0, 0, 0] ++
    (List.range 256).flatMap fun i => [(cr.slot (2 * j) i).toNat, (cr.slot (2 * j + 1) i).toNat]

theorem Crew.saveForm_eq (cr : Crew) (j : Nat) : cr.saveForm j = bytesOf 8 (cr.saveWords j) := by
  have hslots : bytesOf 8 ((List.range 256).flatMap fun i => [(cr.slot (2 * j) i).toNat, (cr.slot (2 * j + 1) i).toNat]) =
      (List.range 256).flatMap fun i => leBytes 8 (cr.slot (2 * j) i).toNat ++ leBytes 8 (cr.slot (2 * j + 1) i).toNat := by
    rw [bytesOf, List.flatMap_assoc]
    simp only [List.flatMap_cons, List.flatMap_nil, List.append_nil]
  have hzeros : leBytes 8 0 ++ (leBytes 8 0 ++ (leBytes 8 0 ++ (leBytes 8 0 ++ (leBytes 8 0 ++ leBytes 8 0)))) =
      List.replicate 48 0 := rfl
  rw [Crew.saveForm, Crew.saveWords, bytesOf_append, hslots, ← hzeros]
  simp only [bytesOf, List.flatMap_cons, List.flatMap_nil, List.append_nil, List.append_assoc]

/-- Word `i` of a save form, read back. -/
theorem Crew.word_saveForm {cr : Crew} {j i : Nat} {w : Dword} (h : (cr.saveWords j)[i]? = some w.toNat) :
    BitVec.ofNat 64 (leNat (((cr.saveForm j).drop (8 * i)).take 8)) = w := by
  have := numAt_bytesOf (k := 8) [] h (by have := w.isLt; omega)
  rw [List.append_nil, ← cr.saveForm_eq j] at this
  rw [show leNat (((cr.saveForm j).drop (8 * i)).take 8) = w.toNat from this]
  simp

theorem Crew.saveWords_slot (cr : Crew) (j : Nat) {i o : Nat} (hi : i < 256) (ho : o < 2) :
    (cr.saveWords j)[8 + 2 * i + o]? = some (cr.slot (2 * j + o) i).toNat := by
  have hblock := getElem?_flatMap_block (m := 2) (j := o) (f := fun i => [(cr.slot (2 * j) i).toNat, (cr.slot (2 * j + 1) i).toNat])
    (xs := List.range 256) (fun _ _ => rfl) (r := i) (x := i) (by simp [hi]) ho
  rw [saveWords, List.getElem?_append_right (by simp; omega)]
  simp only [List.length_cons, List.length_nil]
  rw [show 8 + 2 * i + o - (0 + 1 + 1 + 1 + 1 + 1 + 1 + 1 + 1) = i * 2 + o by omega, hblock]
  interval_cases o <;> rfl

/-- The words of a save form as ACCLD reads them. -/
def formWord (bs : List Byte) (i : Nat) : Dword := BitVec.ofNat 64 (leNat ((bs.drop (8 * i)).take 8))

/-- The slots of one line of a pair as ACCLD reads them. -/
def formSlots (bs : List Byte) (o : Nat) : List Dword := (List.range 256).map fun i => formWord bs (8 + 2 * i + o)

theorem Crew.loadForm_eq (c : Crew) (j : Nat) (bs : List Byte) : c.loadForm j bs =
    (((c.setMeta (2 * j) (formWord bs 0)).setMeta (2 * j + 1) (formWord bs 1)).setSlots (2 * j) (formSlots bs 0)).setSlots
      (2 * j + 1) (formSlots bs 1) := rfl

theorem formSlots_saveForm (cr : Crew) (j : Nat) {i o : Nat} (hi : i < 256) (ho : o < 2) :
    (formSlots (cr.saveForm j) o).getD i 0 = cr.slot (2 * j + o) i := by
  have hword : formWord (cr.saveForm j) (8 + 2 * i + o) = cr.slot (2 * j + o) i := Crew.word_saveForm (cr.saveWords_slot j hi ho)
  simp [formSlots, List.getD_eq_getElem?_getD, hi, hword]

/-- What ACCSV saved of a pair of lines ACCLD brings back (R281, R297). -/
theorem Crew.loadForm_saveForm (cr : Crew) {c : Crew} (hc : Crew.LinesFormed c) (j : Nat) :
    Crew.SameLine cr (c.loadForm j (cr.saveForm j)) (2 * j) ∧ Crew.SameLine cr (c.loadForm j (cr.saveForm j)) (2 * j + 1) := by
  have m0 : formWord (cr.saveForm j) 0 = cr.lineMeta (2 * j) := Crew.word_saveForm rfl
  have m1 : formWord (cr.saveForm j) 1 = cr.lineMeta (2 * j + 1) := Crew.word_saveForm rfl
  have hlen : ∀ o, (formSlots (cr.saveForm j) o).length = 256 := fun o => by simp [formSlots]
  have h0 := Crew.setMeta_formed hc (2 * j) (formWord (cr.saveForm j) 0)
  have h1 := Crew.setMeta_formed h0 (2 * j + 1) (formWord (cr.saveForm j) 1)
  have h2 := Crew.setSlots_formed h1 (2 * j) (formSlots (cr.saveForm j) 0)
  rw [Crew.loadForm_eq]
  refine ⟨⟨?_, fun i hi => ?_⟩, ⟨?_, fun i hi => ?_⟩⟩
  · rw [lineMeta_setSlots, lineMeta_setSlots, lineMeta_setMeta h0, if_neg (by omega), lineMeta_setMeta hc, if_pos rfl, m0]
  · rw [slot_setSlots_ne h2 (hlen 1) (by omega) hi, slot_setSlots_self h1 (hlen 0) hi]
    exact formSlots_saveForm cr j hi (by omega)
  · rw [lineMeta_setSlots, lineMeta_setSlots, lineMeta_setMeta h0, if_pos rfl, m1]
  · rw [slot_setSlots_self h2 (hlen 1) hi]
    exact formSlots_saveForm cr j hi (by omega)

section
variable {s : State} {k : Nat} {e : MEntry} {cr : Crew} {bs : List Byte}

/-- Plumb sees nothing of a crew whose mode leaves it off (R235). -/
theorem plumbOwn_of_off (hcr : s.crews[e.crew]? = some cr) (hoff : bitsOf cr.mode 4 3 = 0) (n : Nat) (write : Bool)
    (p : Nat → Bool) : s.plumbOwn e n write p = (s, false) := by
  have hlane : ∀ a, s.plumbLane e.crew (e.lane.getD 0) a e.scope (if write then 1 else 0) false write e.pc = (s, false) := fun a => by
    unfold State.plumbLane
    split
    · split
      · rfl
      · simp [State.plumbAccess, hcr, hoff]
    · rfl
  unfold State.plumbOwn
  induction (sectors e.addr.toNat n).takeWhile p with
  | nil => rfl
  | cons a as ih => simpa [State.plumbEach, hlane] using ih

/-- What ACCLD does with the save forms that it read. -/
theorem runAcc_of_load (hkind : e.kind = .accld) (hcr : s.crews[e.crew]? = some cr) (hwin : isWindow e.addr.toNat = false)
    (hread : s.readG cr.part (dieOf cr.core) e.addr.toNat (4160 * (e.count / 2)) = .ok bs) (hoff : bitsOf cr.mode 4 3 = 0) :
    s.runAcc k e =
      if (List.range (e.count / 2)).all fun i => formOk ((bs.drop (4160 * i)).take 4160) then
        some ((s.updCrew e.crew fun c => (List.range (e.count / 2)).foldl (fun c i =>
          c.loadForm (e.first / 2 + i) ((bs.drop (4160 * i)).take 4160)) c).endAcc k e none)
      else some (s.endAcc k e (some (.engineStatus, 0))) := by
  simp only [State.runAcc, hcr, hkind, reduceCtorEq, if_false, State.engineRead, hwin, Bool.false_eq_true, hread,
    plumbOwn_of_off hcr hoff, State.unlessRace]

end

/-! ### Weight regions (R293) -/

theorem Acc.all_map_ok {α β : Type} (f : α → β) (xs : List α) : Acc.all (xs.map fun x => Acc.ok (f x)) = .ok (xs.map f) := by
  induction xs with
  | nil => rfl
  | cons x xs ih => simp [Acc.all, ih, Acc.bind]

theorem descFmt_hdrFmt (h : Nat) : Num.descFmt (hdrFmt h) = hdrFmt h :=
  Nat.mod_eq_of_lt (Nat.mod_lt _ (by norm_num))

/-- The blocks that a WLOAD reads from its crew's own scratchpad, and what it makes of them. -/
def padBlocks (cr : Crew) (p : BitVec 512) : List (Nat × List Byte) :=
  (State.wloadPlaces (mbAdr p) (mbRowb p) (shapeB p).1 (rowBlocks (hdrFmt (mbOpb p)) (shapeB p).2)).map fun a =>
    (hdrFmt (mbOpb p), cr.scratch.read a 64)
def padData (cr : Crew) (p : BitVec 512) : List Byte := (padBlocks cr p).flatMap fun b => compressBlock b.1 b.2
def padFits (cr : Crew) (p : BitVec 512) : Bool :=
  decide (64 + (padData cr p).length ≤ (pktWbuf cr.packet - hdrIdx (mbOpb p)) * 65536)
def padRegion (cr : Crew) (p : BitVec 512) : WRegion :=
  ⟨hdrIdx (mbOpb p), hdrFmt (mbOpb p), hdrTr (mbOpb p), (shapeB p).1, (shapeB p).2, BitVec.ofNat 56 (mbAdr p), 2, mbRowb p,
    padFits cr p, if padFits cr p then padData cr p else []⟩

theorem padData_eq (cr : Crew) (p : BitVec 512) : padData cr p =
    (State.wloadPlaces (mbAdr p) (mbRowb p) (shapeB p).1 (rowBlocks (hdrFmt (mbOpb p)) (shapeB p).2)).flatMap fun a =>
      compressBlock (hdrFmt (mbOpb p)) (cr.scratch.read a 64) := by
  rw [padData, padBlocks, List.flatMap_map]

/-- A WLOAD whose source is the crew's own scratchpad. -/
theorem runWload_of_pad {s : State} {k : Nat} {e : MEntry} {cr : Crew} (hcr : s.crews[e.crew]? = some cr)
    (hdk : mbDk e.block = 2) : s.runWload k e = some ((s.updCrew e.crew fun c => State.putRegion c
      (padRegion cr e.block)).stampEntry k e (if padFits cr e.block then 1 else 0x0A)) := by
  have hread : s.wloadBlocks e.crew cr (hdrFmt (mbOpb e.block)) 2 (mbAdr e.block) (mbRowb e.block)
      (shapeB e.block).1 (rowBlocks (hdrFmt (mbOpb e.block)) (shapeB e.block).2) false = .ok (padBlocks cr e.block) := by
    rw [State.wloadBlocks, padBlocks, ← Acc.all_map_ok]
    rfl
  have hfmt : (padBlocks cr e.block).any (fun b => Num.descFmt b.1 != hdrFmt (mbOpb e.block)) = false := by
    simp [padBlocks, descFmt_hdrFmt]
  simp only [State.runWload, hcr, hdk, hread, hfmt, Bool.false_eq_true, if_false, if_true]
  rfl

end Sys2Proof.Machine
end

section
/-!
PROOFS. Blocks of a weight region, compressed and expanded (R293).
-/

namespace Sys2Proof.Machine

open Sys2Proof

/-- Quarter `i` of a block, and whether some byte of it is not zero. -/
def quarterOf (bs : List Byte) (i : Nat) : List Byte := (bs.drop (16 * i)).take 16
def quarterLive (bs : List Byte) (i : Nat) : Bool := (quarterOf bs i).any fun b => b != 0
/-- What a compressed block keeps of a quarter. -/
def quarterKept (bs : List Byte) (i : Nat) : List Byte := if quarterLive bs i then quarterOf bs i else []
/-- The mask of the quarters kept. -/
def quarterMask (bs : List Byte) : Nat :=
  (quarterLive bs 0).toNat + (quarterLive bs 1).toNat * 2 + (quarterLive bs 2).toNat * 4 + (quarterLive bs 3).toNat * 8

theorem compressBlock_eq (d : Nat) (bs : List Byte) : compressBlock d bs = leBytes 4 (d + quarterMask bs * 2 ^ 16) ++
    (quarterKept bs 0 ++ (quarterKept bs 1 ++ (quarterKept bs 2 ++ quarterKept bs 3))) := by
  have hmask : (List.range 4).foldl (fun m i => m + (quarterLive bs i).toNat * 2 ^ i) 0 = quarterMask bs := by
    simp [quarterMask, List.range_succ]
  have hkept : (List.range 4).flatMap (quarterKept bs) =
      quarterKept bs 0 ++ (quarterKept bs 1 ++ (quarterKept bs 2 ++ quarterKept bs 3)) := by
    simp [List.range_succ]
  rw [← hmask, ← hkept]
  rfl

/-- One step of the expansion: a quarter that the mask names comes from the bytes, any other is zero. -/
def expandQuarter (head : Nat) (acc : List Byte × List Byte) (i : Nat) : List Byte × List Byte :=
  if bitAt head (16 + i) then (acc.1 ++ acc.2.take 16, acc.2.drop 16) else (acc.1 ++ List.replicate 16 0, acc.2)

theorem expandRegion_succ {bs : List Byte} (n : Nat) (h : bs ≠ []) : expandRegion (n + 1) bs =
    let head := leNat (bs.take 4)
    let r := (List.range 4).foldl (expandQuarter head) ([], bs.drop 4)
    (fld head 15 0, r.1) :: expandRegion n r.2 := by
  rw [expandRegion, if_neg (by simpa using h)]
  rfl

section
variable {bs : List Byte} (hlen : bs.length = 64)
include hlen

theorem quarterOf_length {i : Nat} (hi : i < 4) : (quarterOf bs i).length = 16 := by
  rw [quarterOf, List.length_take, List.length_drop]
  omega

/-- A quarter comes back, whether the block kept it or not. -/
theorem expandQuarter_kept {head i : Nat} (hi : i < 4) (hbit : bitAt head (16 + i) = quarterLive bs i) (acc rest : List Byte) :
    expandQuarter head (acc, quarterKept bs i ++ rest) i = (acc ++ quarterOf bs i, rest) := by
  have h16 := quarterOf_length hlen hi
  rw [expandQuarter, hbit, quarterKept]
  cases hlive : quarterLive bs i
  · have hzero : quarterOf bs i = List.replicate 16 0 := by
      rw [List.eq_replicate_iff]
      refine ⟨h16, fun b hb => ?_⟩
      have := List.any_eq_false.mp hlive b hb
      simpa using this
    simp [hzero]
  · simp [List.take_left' h16, List.drop_left' h16]

theorem quarters_append : quarterOf bs 0 ++ quarterOf bs 1 ++ quarterOf bs 2 ++ quarterOf bs 3 = bs := by
  have hlast : quarterOf bs 3 = bs.drop 48 := List.take_of_length_le (by rw [List.length_drop]; omega)
  have hstep : ∀ i, quarterOf bs i ++ bs.drop (16 * i + 16) = bs.drop (16 * i) := fun i => by
    rw [quarterOf, ← List.drop_drop, List.take_append_drop]
  rw [hlast, List.append_assoc, hstep 2, List.append_assoc, hstep 1, hstep 0, Nat.mul_zero, List.drop_zero]

end

theorem quarterMask_lt (bs : List Byte) : quarterMask bs < 16 := by
  have h (b : Bool) : b.toNat < 2 := Bool.toNat_lt b
  have := h (quarterLive bs 0)
  have := h (quarterLive bs 1)
  have := h (quarterLive bs 2)
  have := h (quarterLive bs 3)
  rw [quarterMask]
  omega

/-- Four bits side by side, each read back. -/
theorem testBit_mask : ∀ b0 b1 b2 b3 : Bool, let m := b0.toNat + b1.toNat * 2 + b2.toNat * 4 + b3.toNat * 8
    m.testBit 0 = b0 ∧ m.testBit 1 = b1 ∧ m.testBit 2 = b2 ∧ m.testBit 3 = b3 := by
  decide

/-- The mask's bits in the head of a compressed block. -/
theorem bitAt_head {d i : Nat} (hd : d < 2 ^ 16) (bs : List Byte) (hi : i < 4) :
    bitAt (d + quarterMask bs * 2 ^ 16) (16 + i) = quarterLive bs i := by
  have hdiv : (d + quarterMask bs * 2 ^ 16) / 2 ^ 16 = quarterMask bs := by omega
  have hshift : bitAt (d + quarterMask bs * 2 ^ 16) (16 + i) = (quarterMask bs).testBit i := by
    rw [bitAt, Nat.testBit_eq_decide_div_mod_eq, Nat.testBit_eq_decide_div_mod_eq, pow_add, ← Nat.div_div_eq_div_mul, hdiv]
  obtain ⟨h0, h1, h2, h3⟩ := testBit_mask (quarterLive bs 0) (quarterLive bs 1) (quarterLive bs 2) (quarterLive bs 3)
  rw [hshift, quarterMask]
  interval_cases i
  exacts [h0, h1, h2, h3]

/-- A compressed block expands to what it was, and leaves what follows it. -/
theorem expandRegion_compressBlock {d : Nat} {bs : List Byte} (hd : d < 2 ^ 16) (hlen : bs.length = 64) (n : Nat)
    (rest : List Byte) : expandRegion (n + 1) (compressBlock d bs ++ rest) = (d, bs) :: expandRegion n rest := by
  have hmask := quarterMask_lt bs
  rw [compressBlock_eq, List.append_assoc, expandRegion_succ n (by simp [leBytes])]
  have hhead : leNat (leBytes 4 (d + quarterMask bs * 2 ^ 16)) = d + quarterMask bs * 2 ^ 16 := by
    rw [leNat_leBytes, Nat.mod_eq_of_lt (by omega)]
  have hdesc : fld (d + quarterMask bs * 2 ^ 16) 15 0 = d := by
    rw [fld_eq]
    omega
  simp only [List.take_left' (leBytes_length 4 _), List.drop_left' (leBytes_length 4 _), hhead, hdesc]
  have hrange : List.range 4 = [0, 1, 2, 3] := rfl
  simp only [hrange, List.foldl_cons, List.foldl_nil, List.append_assoc]
  rw [expandQuarter_kept hlen (by omega) (bitAt_head hd bs (by omega)), expandQuarter_kept hlen (by omega) (bitAt_head hd bs (by omega)),
    expandQuarter_kept hlen (by omega) (bitAt_head hd bs (by omega)), expandQuarter_kept hlen (by omega) (bitAt_head hd bs (by omega)),
    List.nil_append, quarters_append hlen]

theorem expandRegion_flatMap (bs : List (Nat × List Byte)) (h : ∀ b ∈ bs, b.1 < 2 ^ 16 ∧ b.2.length = 64) :
    expandRegion bs.length (bs.flatMap fun b => compressBlock b.1 b.2) = bs := by
  induction bs with
  | nil => rfl
  | cons b bs ih =>
    obtain ⟨hd, hlen⟩ := h b List.mem_cons_self
    rw [List.flatMap_cons, List.length_cons, expandRegion_compressBlock hd hlen, ih fun x hx => h x (List.mem_cons_of_mem _ hx)]

end Sys2Proof.Machine
end

section
/-!
PROOFS. FIN: its outputs (R292, R71), and its words in the crew's own scratchpad (R285, R294).
-/

namespace Sys2Proof.Machine

open Sys2Proof
open Sys2Proof.Num (Flags XR fp32 fp64)

/-! ### The outputs of a row -/

/-- A residue row's outputs: each element closed, then rounded once. -/
theorem finRow_residue {cr : Crew} {p : BitVec 512} {lpr i : Nat} (h : cr.lineMode (mbC0 p + lpr * i) = 2) {j : Nat}
    (hj : j < mbN p) (hj256 : j < 256) :
    let x := resClose ((cr.resRow (mbC0 p + lpr * i)).els.getD j (0, 0))
    (finRow cr p lpr i).1[j]? = some (if resNan x.1 then Num.canonNaN (mbOut p)
      else (Num.roundX (mbOut p) (mbMode p) (Num.decodeF fp64 x.2)).1) := by
  have hlen : j < (cr.resRow (mbC0 p + lpr * i)).els.length := by rwa [Crew.resRow_length]
  simp only [finRow, h]
  rw [List.getElem?_map, List.getElem?_map, List.getElem?_take_of_lt hj, List.getElem?_mapIdx]
  simp only [List.getElem?_eq_getElem hlen, Option.map_some, hj, if_true, List.getD_eq_getElem?_getD, Option.getD_some]
  split <;> rfl

/-- A one-line float row's outputs: each accumulator rounded once; the row stays as it is. -/
theorem finRow_float {cr : Crew} {p : BitVec 512} {lpr i : Nat} (h : cr.lineMode (mbC0 p + lpr * i) = 1) :
    (finRow cr p lpr i).1 = ((cr.fltRow (mbC0 p + lpr * i) 1).take (mbN p)).map (fun v =>
      (Num.roundX (mbOut p) (mbMode p) (Num.decodeF acc32 v)).1) ∧ (finRow cr p lpr i).2.2 = cr := by
  simp only [finRow, h]
  rw [List.map_map]
  exact ⟨rfl, trivial⟩

/-- FIN of one row of an FP32 line. -/
theorem finLayout_of_float {cr : Crew} {e : MEntry} (hk : e.kind = .fin) (hm : mbM e.block = 1) (hf : mbOfmt e.block = 0)
    (hmode : cr.lineMode (mbC0 e.block) = 1) (hfits : mbC0 e.block + 1 ≤ pktAccum cr.packet) : finLayout cr e = some (1, 1) := by
  simp [finLayout, hk, hm, hf, hmode, Nat.lt_of_succ_le hfits]

/-! ### Bytes of a scratchpad -/

theorem Memory.write_append (m : Memory) (a : Nat) (xs ys : List Byte) :
    m.write a (xs ++ ys) = (m.write a xs).write (a + xs.length) ys := by
  induction xs generalizing m a with
  | nil => rfl
  | cons x xs ih =>
    rw [List.cons_append, Memory.write, ih, List.length_cons, Memory.write]
    congr 1
    omega

/-- A part of what was stored. -/
theorem Memory.read_write_part (m : Memory) (a : Nat) (bs : List Byte) (h : m.wf = true) {i n : Nat} (hin : i + n ≤ bs.length) :
    (m.write a bs).read (a + i) n = (bs.drop i).take n := by
  apply List.ext_getElem (by simp [Memory.read_length]; omega)
  intro k h1 h2
  have hk : k < n := by rwa [Memory.read_length] at h1
  have hr := Memory.read_getD (m.write a bs) (a + i) n k hk
  rw [Memory.byte_write m a bs _ h, if_pos (by omega), show a + i + k - a = i + k by omega] at hr
  have hik : i + k < bs.length := by omega
  simpa [List.getD_eq_getElem?_getD, List.getElem?_eq_getElem h1, List.getElem?_eq_getElem hik] using hr

/-! ### Words of a scratchpad that an operation writes -/

/-- Some words of a crew's scratchpad, as an operation writes them. -/
def padOuts (ci : Nat) (xs : List (Nat × Word)) : List WordOut := xs.map fun x => ⟨none, .pad ci x.1, x.2⟩

theorem filterMap_value_ok {α : Type} (xs : List α) : (xs.map Acc.ok).filterMap Acc.value? = xs := by
  induction xs with
  | nil => rfl
  | cons x xs ih => simp [Acc.value?, ih]

/-- They go well. -/
theorem outcomeOf_padOuts (s : State) (ci : Nat) (xs : List (Nat × Word)) :
    s.outcomeOf ((padOuts ci xs).map Acc.ok) = (padOuts ci xs, .ok ()) := by
  have hnone : s.tsetRefused (padOuts ci xs) = [] := by
    simp [State.tsetRefused, padOuts]
  have hall : Acc.all ((padOuts ci xs).map Acc.ok) = .ok (padOuts ci xs) := by
    simpa using Acc.all_map_ok id (padOuts ci xs)
  have hin : ∀ x : WordOut, x.place.inTiles [] = false := fun x => by cases x.place <;> simp [Place.inTiles]
  simp only [State.outcomeOf, filterMap_value_ok, hnone, hall, Acc.bind, List.isEmpty_nil, if_true, hin, Bool.not_false,
    List.filter_true]

/-- They are stored one after another. -/
theorem putWords_padOuts (s : State) (ci : Nat) (xs : List (Nat × Word)) :
    s.putWords none ((padOuts ci xs).map fun x => (x.place, x.word)) =
      xs.foldl (fun s x => s.scratchStore ci x.1 (leBytes 4 x.2.toNat)) s := by
  induction xs generalizing s with
  | nil => rfl
  | cons x xs ih => exact ih _

/-- Where no other operation wrote meanwhile, all of them are written. -/
theorem chosen_of_unraced (free : Nat) (ws : List WordOut) : State.chosen true [] free ws = ws := by
  simp [State.chosen]

/-- An operation that ends well, and that nobody raced, writes its scratchpad words and nothing else. -/
theorem settleWords_padOuts {s : State} {since : Nat} (hraced : s.moves.drop since = []) (say : State → Nat → State) (ci : Nat)
    (xs : List (Nat × Word)) :
    let s1 := xs.foldl (fun s x => s.scratchStore ci x.1 (leBytes 4 x.2.toNat)) s
    s.settleWords since 0 true say (padOuts ci xs) =
      { s1 with free := s1.free + xs.length, moves := s1.moves ++ xs.map fun x => (0, .pad ci x.1) } := by
  have hva : (padOuts ci xs).filterMap WordOut.va = [] := by simp [padOuts]
  simp only [State.settleWords, State.racedSince, hraced, List.filter_nil, List.map_nil, chosen_of_unraced, putWords_padOuts,
    if_true, hva, List.foldl_nil]
  simp [padOuts]

theorem scratchStore_crew {s : State} {ci : Nat} {cr : Crew} (h : s.crews[ci]? = some cr) (off : Nat) (bs : List Byte) :
    (s.scratchStore ci off bs).crews[ci]? = some { cr with scratch := cr.scratch.write off bs } ∧
      (s.scratchStore ci off bs).mem = s.mem := by
  simp [State.scratchStore, h, State.updCrew]

theorem leBytes_mod (n w : Nat) : leBytes n (w % 256 ^ n) = leBytes n w := by
  induction n generalizing w with
  | zero => rfl
  | succ n ih =>
    rw [leBytes, leBytes, pow_succ, Nat.mul_comm, Nat.mod_mul_right_div_self, ih]
    congr 1
    apply BitVec.eq_of_toNat_eq
    rw [BitVec.toNat_ofNat, BitVec.toNat_ofNat]
    exact Nat.mod_mod_of_dvd _ (Dvd.intro _ rfl)

/-- Consecutive words of a scratchpad, stored. -/
theorem foldl_scratchStore {s : State} {ci : Nat} {cr : Crew} (h : s.crews[ci]? = some cr) (a : Nat) (vals : List Nat) :
    let t := (vals.mapIdx fun j v => (a + 4 * j, BitVec.ofNat 32 v)).foldl
      (fun s (x : Nat × Word) => s.scratchStore ci x.1 (leBytes 4 x.2.toNat)) s
    t.crews[ci]? = some { cr with scratch := cr.scratch.write a (bytesOf 4 vals) } ∧ t.mem = s.mem := by
  induction vals using List.reverseRecOn with
  | nil => exact ⟨h, rfl⟩
  | append_singleton vals v ih =>
    obtain ⟨hcrew, hmem⟩ := ih
    simp only [List.mapIdx_concat, List.foldl_append, List.foldl_cons, List.foldl_nil]
    obtain ⟨hcrew', hmem'⟩ := scratchStore_crew hcrew (a + 4 * vals.length) (leBytes 4 (BitVec.ofNat 32 v).toNat)
    refine ⟨hcrew'.trans ?_, hmem'.trans hmem⟩
    have hv : leBytes 4 (BitVec.ofNat 32 v).toNat = bytesOf 4 [v] := by
      rw [BitVec.toNat_ofNat, bytesOf, List.flatMap_singleton]
      exact leBytes_mod 4 v
    rw [hv, bytesOf_append, Memory.write_append, bytesOf_length]

/-! ### FIN to the crew's own scratchpad -/

/-- The words that aligned numbers make in a scratchpad. -/
theorem padWords_of_aligned {s : State} {ci a : Nat} (ha : a % 4 = 0) (vals : List Nat) :
    s.padWords ci a (bytesOf 4 vals) = (padOuts ci (vals.mapIdx fun j v => (a + 4 * j, BitVec.ofNat 32 v))).map Acc.ok := by
  have hcount : State.wordCount a (bytesOf 4 vals).length = vals.length := by
    rw [State.wordCount, bytesOf_length, ha]
    omega
  have hword : ∀ old j v, vals[j]? = some v → State.mergedWord old a (bytesOf 4 vals) j = BitVec.ofNat 32 v := fun old j v hv => by
    have hj : j < vals.length := (List.getElem?_eq_some_iff.mp hv).1
    have hbytes : (List.range 4).map (fun b => if 0 ≤ 4 * j + b ∧ 4 * j + b < 0 + (bytesOf 4 vals).length
        then (bytesOf 4 vals).getD (4 * j + b - 0) 0 else old.extractLsb' (8 * b) 8) = leBytes 4 v := by
      apply List.ext_getElem (by simp)
      intro b h1 h2
      have hb : b < 4 := by simpa using h1
      have hget := getElem?_flatMap_block (f := leBytes 4) (fun x _ => leBytes_length 4 x) hv hb
      rw [Nat.mul_comm] at hget
      have hb' : b < (leBytes 4 v).length := h2
      simp only [List.getElem_map, List.getElem_range, Nat.zero_le, true_and, Nat.zero_add, Nat.sub_zero, bytesOf_length]
      rw [if_pos (by omega), List.getD_eq_getElem?_getD, bytesOf, hget, List.getElem?_eq_getElem hb', Option.getD_some]
    rw [State.mergedWord]
    simp only [ha]
    rw [hbytes, leNat_leBytes]
    apply BitVec.eq_of_toNat_eq
    simp
  rw [State.padWords, hcount, ha, Nat.sub_zero, padOuts]
  apply List.ext_getElem (by simp)
  intro j h1 h2
  have hj : j < vals.length := by simpa using h1
  simp only [List.getElem_map, List.getElem_range, List.getElem_mapIdx, hword _ j _ (List.getElem?_eq_getElem hj)]

/-- The outputs of a FIN of one row of an FP32 line. -/
def finValues (cr : Crew) (p : BitVec 512) : List Nat :=
  ((cr.fltRow (mbC0 p) 1).take (mbN p)).map fun v => (Num.roundX fp32 (mbMode p) (Num.decodeF acc32 v)).1

/-- The scratchpad words that hold them. -/
def finPadWords (cr : Crew) (p : BitVec 512) : List (Nat × Word) :=
  (finValues cr p).mapIdx fun j v => (mbAdr p + 4 * j, BitVec.ofNat 32 v)

/-- The crew whose lines the FIN leaves: cleared, unless the block keeps them. -/
def finLines (cr : Crew) (p : BitVec 512) : Crew := if mbKeep p then cr else cr.clearLines (mbC0 p) 1

/-- The crew that the FIN leaves. -/
def finCrew (cr : Crew) (p : BitVec 512) : Crew :=
  { cr with scratch := cr.scratch.write (mbAdr p) (bytesOf 4 (finValues cr p))
            accMeta := (finLines cr p).accMeta
            accSlots := (finLines cr p).accSlots }

theorem finLines_clear {cr : Crew} {p : BitVec 512} (hmeta : Sparse.wf cr.accMeta = true) (hkeep : mbKeep p = false) :
    (finLines cr p).lineMode (mbC0 p) = 0 := by
  have hline : (finLines cr p).lineMeta (mbC0 p) = (cr.setMeta (mbC0 p) 0).lineMeta (mbC0 p) := by
    simp only [finLines, hkeep, Bool.false_eq_true, if_false, Crew.clearLines, List.range_one, List.foldl_cons, List.foldl_nil,
      Crew.clearLine, Crew.lineMeta_setSlots, Nat.add_zero]
  rw [Crew.lineMode, hline, Crew.lineMeta, Crew.setMeta, Sparse.get_set _ _ _ _ hmeta, if_pos rfl]
  rfl

theorem finLines_keep {cr : Crew} {p : BitVec 512} (hkeep : mbKeep p = true) : finLines cr p = cr := by
  rw [finLines, hkeep, if_pos rfl]

theorem finValues_getD {cr : Crew} {p : BitVec 512} {j : Nat} (hj : j < mbN p) : (finValues cr p)[j]? =
    some (Num.roundX fp32 (mbMode p) (Num.decodeF acc32 ((cr.fltRow (mbC0 p) 1).getD j 0))).1 := by
  have hlen : j < (cr.fltRow (mbC0 p) 1).length := by
    have := mbN_le p
    simp [Crew.fltRow]
    omega
  rw [finValues, List.getElem?_map, List.getElem?_take_of_lt hj, List.getD_eq_getElem?_getD, List.getElem?_eq_getElem hlen]
  rfl

/-- A number of those stored in a scratchpad, read back. -/
theorem Memory.nat_write_bytesOf {m : Memory} (h : m.wf = true) (a : Nat) {vals : List Nat} {j v : Nat} (hj : vals[j]? = some v) :
    BitVec.ofNat 32 ((m.write a (bytesOf 4 vals)).nat (a + 4 * j) 4) = BitVec.ofNat 32 v := by
  have hlt : j < vals.length := (List.getElem?_eq_some_iff.mp hj).1
  have hbytes : ((bytesOf 4 vals).drop (4 * j)).take 4 = leBytes 4 v := by
    apply List.ext_getElem?
    intro b
    rcases Nat.lt_or_ge b 4 with hb | hb
    · rw [List.getElem?_take_of_lt hb, List.getElem?_drop, Nat.mul_comm, bytesOf]
      exact getElem?_flatMap_block (fun x _ => leBytes_length 4 x) hj hb
    · rw [List.getElem?_eq_none (by simp; omega), List.getElem?_eq_none (by simp; omega)]
  rw [Memory.nat, Memory.read_write_part m a _ h (by rw [bytesOf_length]; omega), hbytes, leNat_leBytes]
  apply BitVec.eq_of_toNat_eq
  simp

section
variable {s : State} {k : Nat} {e : MEntry} {cr : Crew} (hcr : s.crews[e.crew]? = some cr)
include hcr

/-- A FIN of one row of an FP32 line to its crew's own scratchpad writes its words there (R285, R292). -/
theorem runFin_of_pad (hk : e.kind = .fin) (hm : mbM e.block = 1) (hf : mbOfmt e.block = 0) (hdk : mbDk e.block = 2)
    (ha : mbAdr e.block % 4 = 0) (hmode : cr.lineMode (mbC0 e.block) = 1) (hfits : mbC0 e.block + 1 ≤ pktAccum cr.packet) :
    ∃ (free : Nat) (say : State → Nat → State) (fl : BitVec 6), s.runFin k e =
      let s1 := (({ s with free := free } : State).settleWords e.since 0 true say
        (padOuts e.crew (finPadWords cr e.block))).updCrew e.crew fun c =>
          { c with accMeta := (finLines cr e.block).accMeta, accSlots := (finLines cr e.block).accSlots }
      let e1 := { e with flags := fl }
      some ((s1.updEntry k e.num fun _ => e1).stampEntry k e1 1) := by
  obtain ⟨hvals, hsame⟩ := finRow_float (cr := cr) (p := e.block) (lpr := 1) (i := 0) hmode
  have hout : mbOut e.block = fp32 := by rw [mbOut, if_pos hf]
  have hsize : mbSize e.block = 4 := by rw [mbSize, if_pos hf]
  rw [hout] at hvals
  have hwrites : finWrites e.block s.free [(finRow cr e.block 1 0).1] = [(mbAdr e.block, bytesOf 4 (finValues cr e.block))] := by
    simp [finWrites, hm, hsize, hvals, finValues, bytesOf]
  have hwords : s.finWords e.crew cr e.block [(mbAdr e.block, bytesOf 4 (finValues cr e.block))] =
      (padOuts e.crew (finPadWords cr e.block)).map Acc.ok := by
    simp [State.finWords, State.runsOf, hdk, padWords_of_aligned ha, finPadWords]
  simp only [State.runFin, hcr, finLayout_of_float hk hm hf hmode hfits, hm, List.range_one, List.foldl_cons, List.foldl_nil,
    List.nil_append, hwrites, hwords, outcomeOf_padOuts, hsame]
  exact ⟨_, _, _, rfl⟩

end

/-- What such a FIN leaves (R292, R294). -/
theorem matrixFin_of_pad {s : State} {k : Nat} {e : MEntry} {cr : Crew} (hg : s.grantedEntry k = some e) (hk : e.kind = .fin)
    (hcr : s.crews[e.crew]? = some cr) (hvalid : 0 < e.passes ∨ s.staleStamp e.crew (mbStamp e.block) = false)
    (hm : mbM e.block = 1) (hf : mbOfmt e.block = 0) (hdk : mbDk e.block = 2) (ha : mbAdr e.block % 4 = 0)
    (hmode : cr.lineMode (mbC0 e.block) = 1) (hfits : mbC0 e.block + 1 ≤ pktAccum cr.packet)
    (hraced : s.moves.drop e.since = []) (hpad : cr.scratch.wf = true) (hmeta : Sparse.wf cr.accMeta = true) :
    ∃ (s1 : State) (e1 : MEntry) (cr' : Crew), exec (.matrixFin k) s = .next (s1.stampEntry k e1 1) ∧ e1.num = e.num ∧
      e1.block = e.block ∧ s1.mem = s.mem ∧ s1.crews[e.crew]? = some cr' ∧
      (∀ j < mbN e.block, BitVec.ofNat 32 (cr'.scratch.nat (mbAdr e.block + 4 * j) 4) = BitVec.ofNat 32
        (Num.roundX fp32 (mbMode e.block) (Num.decodeF acc32 ((cr.fltRow (mbC0 e.block) 1).getD j 0))).1) ∧
      (mbKeep e.block = false → cr'.lineMode (mbC0 e.block) = 0) ∧
      (mbKeep e.block = true → cr'.accMeta = cr.accMeta ∧ cr'.accSlots = cr.accSlots) := by
  obtain ⟨free, say, fl, hrun⟩ := runFin_of_pad (k := k) hcr hk hm hf hdk ha hmode hfits
  have hentry : s.runEntry k e = s.runFin k e := by rw [runEntry_of_valid hvalid, hk]
  have hexec := exec_matrixFin hg (.inl hk) (hentry.trans hrun)
  have hsettle := settleWords_padOuts (s := { s with free := free }) hraced say e.crew (finPadWords cr e.block)
  rw [hsettle] at hexec
  obtain ⟨hcrew, hmem⟩ := foldl_scratchStore (s := { s with free := free }) hcr (mbAdr e.block) (finValues cr e.block)
  rw [← finPadWords] at hcrew hmem
  refine ⟨_, _, finCrew cr e.block, hexec, rfl, rfl, hmem, ?_, ?_, ?_, ?_⟩
  · simp only [State.updEntry, State.updCluster, State.updCrew, List.getElem?_modify_eq, hcrew]
    rfl
  · exact fun j hj => Memory.nat_write_bytesOf hpad _ (finValues_getD hj)
  · exact finLines_clear hmeta
  · intro hkeep
    rw [finCrew, finLines_keep hkeep]
    exact ⟨rfl, rfl⟩

end Sys2Proof.Machine
end

section
/-!
PROOFS. The matrix engine's events (O40).
-/

namespace Sys2Proof.Machine

open Sys2Proof
open Sys2Proof.Num (Flags XR fp32 fp64 canonNaN roundX decodeF)
open Crew (LinesFormed SameLine)

/-- What a granted MMA does before its last pass. -/
theorem runEntry_of_mma {s : State} {k : Nat} {e : MEntry} (hk : e.kind = .mma) (hp : e.passes < e.passCount)
    (hvalid : 0 < e.passes ∨ s.staleStamp e.crew (mbStamp e.block) = false) : s.runEntry k e = s.runMma k e := by
  rw [runEntry_of_valid hvalid, hk]
  exact if_pos hp

section
variable {s : State} {k : Nat} {e : MEntry} {cr : Crew} (hg : s.grantedEntry k = some e) (hcr : s.crews[e.crew]? = some cr)
include hg hcr

/-- One pass of an MMA on tiles that hold no descriptors (R292). -/
theorem matrixMma_pass {mode : Nat} {cr0 : Crew} (hk : e.kind = .mma) (hp : e.passes < e.passCount)
    (hvalid : 0 < e.passes ∨ s.staleStamp e.crew (mbStamp e.block) = false) (hsrc : hdrSrc (mbOpb e.block) = 0)
    (ha : bitsOf e.tileA 59 52 = 0) (hb : bitsOf e.tileB 59 52 = 0)
    (hmode : pairing (hdrFmt (mbOpa e.block)) (hdrFmt (mbOpb e.block)) = some mode)
    (hbegin : (0 < e.passes ∧ cr0 = cr) ∨ (e.passes = 0 ∧ mmaBegin cr e.block mode = some cr0))
    (hmore : e.passes + 1 < e.passCount ∨ mbFin e.block = true) :
    let da := if 0 < e.passes then e.descA else tileDescs cr e.tileA (extent (mbOpa e.block) (shapeA e.block))
    let db := if 0 < e.passes then e.descB else tileDescs cr e.tileB (extent (mbOpb e.block) (shapeB e.block))
    let r := mmaPass cr0 e (tileOperand cr (mbOpa e.block) e.tileA da) (tileOperand cr (mbOpb e.block) e.tileB db)
    exec (.matrixMma k) s = .next (((s.updCrew e.crew fun c =>
      { c with accMeta := r.1.accMeta, accSlots := r.1.accSlots }).updEntry k e.num fun _ =>
        { e with passes := e.passes + 1, flags := e.flags ||| r.2.toBits, descA := da, descB := db }).updCluster k
          fun K => { K with granted := none }) :=
  exec_matrixMma hg hk (.inl hp) ((runEntry_of_mma hk hp hvalid).trans (runMma_of_tiles hcr hsrc ha hb hmode hbegin hmore))

/-- What ends an MMA before its first pass (R196, R293, R294). -/
theorem matrixMma_ends (hk : e.kind = .mma) (h0 : e.passes = 0) (hp : 0 < e.passCount) :
    let bad := descsBad (mbOpa e.block) (shapeA e.block) e.tileA (tileDescs cr e.tileA (extent (mbOpa e.block) (shapeA e.block)))
    (s.staleStamp e.crew (mbStamp e.block) = true → exec (.matrixMma k) s = .next (s.stampEntry k e 4)) ∧
    (s.staleStamp e.crew (mbStamp e.block) = false → bad = true → exec (.matrixMma k) s = .next (s.stampEntry k e 6)) ∧
    (s.staleStamp e.crew (mbStamp e.block) = false → bad = false → hdrSrc (mbOpb e.block) = 1 → regionFor cr e.block = none →
      exec (.matrixMma k) s = .next (s.stampEntry k e 9)) := by
  have hmma : s.staleStamp e.crew (mbStamp e.block) = false → s.runEntry k e = s.runMma k e := fun hfresh =>
    runEntry_of_mma hk (h0 ▸ hp) (.inr hfresh)
  have hrun : ∀ {t}, s.runEntry k e = some t → exec (.matrixMma k) s = .next t := exec_matrixMma hg hk (.inl (h0 ▸ hp))
  exact ⟨fun hstale => hrun (runEntry_of_stale h0 hstale),
    fun hfresh hbad => hrun ((hmma hfresh).trans (runMma_of_descsBad hcr h0 hbad)),
    fun hfresh hok hsrc hreg => hrun ((hmma hfresh).trans (runMma_of_noRegion hcr h0 hok hsrc hreg))⟩

/-- A WLOAD whose blocks stand in its crew's own scratchpad (R293). -/
theorem matrixWload_of_pad (hk : e.kind = .wload) (hdk : mbDk e.block = 2)
    (hfresh : s.staleStamp e.crew (mbStamp e.block) = false) :
    exec (.matrixWload k) s = .next ((s.updCrew e.crew fun c => State.putRegion c
      (padRegion cr e.block)).stampEntry k e (if padFits cr e.block then 1 else 0x0A)) :=
  exec_matrixWload hg hk (by rw [runEntry_of_valid (.inr hfresh), hk]; exact runWload_of_pad hcr hdk)

/-- ACCLD takes the save forms that it read, or traps on one that is not well formed (R297). -/
theorem accEntryExecute_load {bs : List Byte} (hk : e.kind = .accld) (hwin : isWindow e.addr.toNat = false)
    (hread : s.readG cr.part (dieOf cr.core) e.addr.toNat (4160 * (e.count / 2)) = .ok bs)
    (hfresh : s.staleStamp e.crew (mbStamp e.block) = false) (hoff : bitsOf cr.mode 4 3 = 0) :
    ((∀ i < e.count / 2, formOk ((bs.drop (4160 * i)).take 4160) = true) →
      exec (.accEntryExecute k) s = .next ((s.updCrew e.crew fun c => (List.range (e.count / 2)).foldl (fun c i =>
        c.loadForm (e.first / 2 + i) ((bs.drop (4160 * i)).take 4160)) c).endAcc k e none)) ∧
    ((∃ i < e.count / 2, formOk ((bs.drop (4160 * i)).take 4160) = false) →
      exec (.accEntryExecute k) s = .next (s.endAcc k e (some (.engineStatus, 0)))) := by
  have hacc : s.runEntry k e = s.runAcc k e := by rw [runEntry_of_valid (.inr hfresh), hk]
  have hload := hacc.trans (runAcc_of_load (k := k) hk hcr hwin hread hoff)
  refine ⟨fun hgood => exec_accEntryExecute hg (.inr hk) (hload.trans (if_pos ?_)),
    fun ⟨i, hi, hbad⟩ => exec_accEntryExecute hg (.inr hk) (hload.trans (if_neg fun hgood => ?_))⟩
  · exact List.all_eq_true.mpr fun i hi => hgood i (List.mem_range.mp hi)
  · exact Bool.false_ne_true (hbad.symm.trans (List.all_eq_true.mp hgood i (List.mem_range.mpr hi)))

end

/-- CLR (R292). -/
theorem matrixClr_clears {s : State} {k : Nat} {e : MEntry} (hg : s.grantedEntry k = some e) (hk : e.kind = .clr)
    (hfresh : s.staleStamp e.crew (mbStamp e.block) = false) : exec (.matrixClr k) s = .next
      ((s.updCrew e.crew fun c => c.clearLines (mbC0 e.block) (mbM e.block)).stampEntry k e 1) :=
  exec_matrixClr hg hk (by rw [runEntry_of_valid (.inr hfresh), hk]; rfl)

/-- A residue that takes a number (R68, R69): its residues advance, and it stays open at the number's exponent. -/
theorem resAdd_spec {w fold : Nat} {v e : Int} (nan : Bool) (h : resOpen w = false ∨ resExp w = e) (hlo : -512 ≤ e) (hhi : e < 512) :
    let m (n : Nat) (old : Nat) : Nat := (((old : Int) + v) % n).toNat
    (resAdd (w, fold) v e nan).2 = fold ∧ resOpen (resAdd (w, fold) v e nan).1 = true ∧
    resExp (resAdd (w, fold) v e nan).1 = e ∧ resNan (resAdd (w, fold) v e nan).1 = (resNan w || nan) ∧
    fld (resAdd (w, fold) v e nan).1 15 0 = m 65535 (fld w 15 0) ∧ fld (resAdd (w, fold) v e nan).1 31 16 = m 65536 (fld w 31 16) ∧
    fld (resAdd (w, fold) v e nan).1 48 32 = m 65537 (fld w 48 32) := by
  rw [resAdd_of_open nan h]
  have h1 : ((((fld w 15 0 : Nat) : Int) + v) % 65535).toNat < 2 ^ 16 := by omega
  have h2 : ((((fld w 31 16 : Nat) : Int) + v) % 65536).toNat < 2 ^ 16 := by omega
  have h3 : ((((fld w 48 32 : Nat) : Int) + v) % 65537).toNat < 2 ^ 17 := by omega
  obtain ⟨hnan, hopen⟩ := resWord_bits (resNan w || nan) true (e := e) h1 h2 h3
  obtain ⟨hm1, hm2, hm3⟩ := resWord_residues (resNan w || nan) true (e := e) h1 h2 h3
  exact ⟨rfl, hopen, resExp_resWord _ _ h1 h2 h3 hlo hhi, hnan, hm1, hm2, hm3⟩

end Sys2Proof.Machine

namespace Sys2Proof

open Sys2Proof.Machine
open Sys2Proof.Num (Flags XR fp32 fp64 canonNaN roundX decodeF)

/-- Settles O40, rule by rule: the arbiter is a fold that keeps the first of its entries (`foldl_before`), a pass and a FIN
go row by row over lines that no other row shares (`foldl_rows`), and a region is a list of self-delimiting blocks. -/
theorem matrixEvents : Obligations.MatrixEvents := by
  unfold Obligations.MatrixEvents
  refine ⟨fun k s hk hfree hsome => matrixPassGrant_spec hk hfree hsome,
    fun k s e s1 hg hr => ⟨fun hk hp => exec_matrixMma hg hk hp hr, fun hk => exec_matrixWload hg hk hr,
      fun hk => exec_matrixFin hg hk hr, fun hk => exec_accEntryExecute hg hk hr⟩,
    fun k s e cr mode cr0 hg hk hcr hp hvalid hsrc ha hb hmode hbegin hmore =>
      matrixMma_pass hg hcr hk hp hvalid hsrc ha hb hmode hbegin hmore,
    fun k s e cr hg hk hcr h0 hp => matrixMma_ends hg hcr hk h0 hp,
    fun cr p mode hclr h0 hlines => mmaBegin_of_uniform hclr h0 hlines,
    fun cr e a b hmeta hslots hpair i hi => ⟨congrArg Prod.snd (mmaPass_of_residue hpair), mmaPass_residue_row ⟨hmeta, hslots⟩ hpair hi⟩,
    fun cr e a b hmeta hslots hpair hone i hi j hj => mmaPass_float_elt ⟨hmeta, hslots⟩ hpair hone hi hj,
    fun f acc nbv enc ps => rfl, fun acc p ps => rfl, fun m1 m2 m3 h1 h2 h3 => resInt_spec h1 h2 h3,
    fun w fold v e nan h hlo hhi => resAdd_spec nan h hlo hhi,
    fun r cls a bs => ⟨?segn, ?lcls, fun j x b hx hb => ResRow.step_elt r cls a bs hx hb⟩,
    fun k s e cr hg hk hcr hvalid hm hf hdk ha hmode hfits hraced hpad hmeta =>
      matrixFin_of_pad hg hk hcr hvalid hm hf hdk ha hmode hfits hraced hpad hmeta,
    fun cr p lpr i hmode j hj hj256 => finRow_residue hmode hj hj256, fun k s e cr hg hk hcr hdk hfresh => ?wload,
    expandRegion_flatMap,
    fun k s e cr bs hg hk hcr hwin hread hfresh hoff => accEntryExecute_load hg hcr hk hwin hread hfresh hoff,
    fun cr c j hmeta hslots => ?form, fun k s e hg hk hfresh => matrixClr_clears hg hk hfresh,
    fun s k e cr g st hcr hwin halign hscope hoff hnode hx => stampEntry_of_page st hcr hwin halign hscope hoff hnode hx,
    fun k s h64 hk hin hspare => multiplierMismatch_of_spare h64 hk hin hspare, fun e hk => ?passes, MEntry.priority_spec⟩
  case segn => rfl
  case lcls => rfl
  case wload =>
    have hload := matrixWload_of_pad hg hcr hk hdk hfresh
    rwa [padRegion, padFits, padData_eq] at hload
  case form =>
    obtain ⟨⟨hm0, hs0⟩, hm1, hs1⟩ := cr.loadForm_saveForm ⟨hmeta, hslots⟩ j
    exact ⟨hm0, hm1, fun i hi => ⟨hs0 i hi, hs1 i hi⟩⟩
  case passes =>
    rw [MEntry.passCount, hk]
    rfl

end Sys2Proof
end

section
/-!
PROOFS. The instruction word (R82-R98): a word and its fields, the decoder after the encoder, the encoder after the
decoder, and the words that are no instruction.
-/

namespace Sys2Proof.Laws

open Sys2Proof

/-! ### A word, its fields and its bytes -/

/-! An instruction that keeps several fields joined (an immediate, an offset) gives each field back. -/

theorem parts_of_two {k : Nat} (x : BitVec k) (z : BitVec 6) :
    (x ++ z).extractLsb' 6 k = x ∧ (x ++ z).extractLsb' 0 6 = z :=
  ⟨BitVec.extractLsb'_append_eq_left, BitVec.extractLsb'_append_eq_right⟩

theorem parts_of_three {k : Nat} (x : BitVec k) (y z : BitVec 6) :
    (x ++ y ++ z).extractLsb' 12 k = x ∧ (x ++ y ++ z).extractLsb' 6 6 = y ∧ (x ++ y ++ z).extractLsb' 0 6 = z := by
  simp (disch := decide) only [BitVec.extractLsb'_append_eq_of_le, Nat.reduceSub, BitVec.extractLsb'_append_eq_right,
    whole_slice, and_self]

theorem parts_of_four {k : Nat} (w : BitVec k) (x y z : BitVec 6) :
    (w ++ x ++ y ++ z).extractLsb' 18 k = w ∧ (w ++ x ++ y ++ z).extractLsb' 12 6 = x ∧
      (w ++ x ++ y ++ z).extractLsb' 6 6 = y ∧ (w ++ x ++ y ++ z).extractLsb' 0 6 = z := by
  simp (disch := decide) only [BitVec.extractLsb'_append_eq_of_le, Nat.reduceSub, BitVec.extractLsb'_append_eq_right,
    whole_slice, and_self]

theorem parts_of_five {k : Nat} (v : BitVec k) (w x y z : BitVec 6) :
    (v ++ w ++ x ++ y ++ z).extractLsb' 24 k = v ∧ (v ++ w ++ x ++ y ++ z).extractLsb' 18 6 = w ∧
      (v ++ w ++ x ++ y ++ z).extractLsb' 12 6 = x ∧ (v ++ w ++ x ++ y ++ z).extractLsb' 6 6 = y ∧
      (v ++ w ++ x ++ y ++ z).extractLsb' 0 6 = z := by
  simp (disch := decide) only [BitVec.extractLsb'_append_eq_of_le, Nat.reduceSub, BitVec.extractLsb'_append_eq_right,
    whole_slice, and_self]

theorem bit_ofBool (n : Bool) : (BitVec.ofBool n == 1#1) = n := by
  cases n <;> rfl

/-- A word's fields are those that it was packed from (R83). -/
theorem unpack_pack (f : Fields) : Fields.unpack f.pack = f := by
  obtain ⟨b, op, n, d, s1, s2, s3⟩ := f
  obtain ⟨-, hd, h1, h2, h3⟩ := parts_of_five (BitVec.ofBool b ++ op ++ BitVec.ofBool n) d s1 s2 s3
  have hop : (BitVec.ofBool b ++ op ++ BitVec.ofBool n ++ d ++ s1 ++ s2 ++ s3).extractLsb' 25 6 = op := by
    simp (disch := decide) only [BitVec.extractLsb'_append_eq_of_le, Nat.reduceSub, BitVec.extractLsb'_append_eq_right]
  simp only [Fields.unpack, Fields.pack, Fields.mk.injEq]
  refine ⟨?bit31, hop, ?bit24, hd, h1, h2, h3⟩
  all_goals
    simp only [BitVec.getLsbD_append]
    simp

/-- A word is the word of its fields (R83). -/
theorem pack_unpack (w : Word) : (Fields.unpack w).pack = w := by
  have bit (i : Nat) : BitVec.ofBool (w.getLsbD i) = w.extractLsb' i 1 := by
    apply BitVec.eq_of_getLsbD_eq
    intro j hj
    obtain rfl : j = 0 := by omega
    simp
  simp only [Fields.unpack, Fields.pack, bit]
  rw [join_parts w 25 (k := 6), join_parts w 24 (k := 1), join_parts w 18 (k := 6), join_parts w 12 (k := 6),
    join_parts w 6 (k := 6), join_parts w 0 (k := 6)]
  exact whole_slice w

/-- A word's four bytes, lowest first, decode as the word does, whatever follows them (R82). -/
theorem decodeBytes_leBytes (w : Word) (rest : List Byte) :
    decodeBytes (leBytes 4 w.toNat ++ rest) = (decode w).map fun i => (i, rest) := by
  have bytes : BitVec.ofNat 8 (w.toNat / 256 / 256 / 256) ++ BitVec.ofNat 8 (w.toNat / 256 / 256) ++
      BitVec.ofNat 8 (w.toNat / 256) ++ BitVec.ofNat 8 w.toNat = w := by
    have slice (k : Nat) : BitVec.ofNat 8 (w.toNat >>> k) = w.extractLsb' k 8 := by
      rfl
    have h8 : w.toNat / 256 = w.toNat >>> 8 := by rw [Nat.shiftRight_eq_div_pow]
    have h16 : w.toNat / 256 / 256 = w.toNat >>> 16 := by rw [Nat.div_div_eq_div_mul, Nat.shiftRight_eq_div_pow]
    have h24 : w.toNat / 256 / 256 / 256 = w.toNat >>> 24 := by
      rw [Nat.div_div_eq_div_mul, Nat.div_div_eq_div_mul, Nat.shiftRight_eq_div_pow]
    have h0 : BitVec.ofNat 8 w.toNat = w.extractLsb' 0 8 := rfl
    rw [h24, h16, h8, slice, slice, slice, h0, join_parts w 16 (k := 8), join_parts w 8 (k := 8), join_parts w 0 (k := 8)]
    exact whole_slice w
  simp only [leBytes, List.cons_append, List.nil_append, decodeBytes]
  rw [bytes]

/-! ### The decoder after the encoder -/

/-- Every well-formed instruction's fields decode to it: one lemma per constructor, in the order of `Instr`. -/
theorem RoundTrip.all (i : Instr) : RoundTrip.Statement i :=
  open RoundTrip in Instr.casesOn (motive := Statement) i
    pickGroup loadDataArrival faultResolved faultUnresolvable windowAccessApply monitorWake mailboxWaitMet
    gangBarrierComplete joinerBatchClose joinerMovesComplete preemptRequest preemptTimeout crewResume saveAreaSupply
    trapHeld trapResume trapEnter trapEnd trapAbort copyTake copyComplete matrixMma matrixWload matrixFin matrixClr
    accEntryExecute matrixPassGrant multiplierMismatch rayEndOrSuspend rayFaultStop rayReenter xpairComplete
    reprojOperation fetchwWake doorbell regw regstRead bar0ReservedWrite queueDescriptorWrite packetTake
    distributeGang placeGang gridComplete graphStart graphNodeStart graphMatrixNode graphNodeComplete
    remotePayloadReceive peerRegistration peerWake transportFailure collectiveDoorbell collectiveSum collectiveMin
    collectiveMax collectiveMessage collectiveCommit collectiveTimeout checkpoint checkpointRestore coldStart
    warmStart startTimeout reset recover softErrorCorrected uncorrectableError attestationRequest powerThermalThrottle
    clockRestore thermalTrip unassignedWord hostDeviceMemoryAccess gridRemoval iadd isub imul imulh imulhU ineg iabs
    imin iminU imax imaxU land lor lxor lnot shl shr sar rot popc clz ctz brev mov iaddSat isubSat iaddUsat isubUsat
    iadd64 isub64 imul64 imulh64 imulhU64 ineg64 iabs64 imin64 iminU64 imax64 imaxU64 land64 lor64 lxor64 lnot64 shl64
    shr64 sar64 rot64 popc64 clz64 ctz64 brev64 mov64 iaddSat64 isubSat64 iaddUsat64 isubUsat64 imad imad64 movi lea
    icmp bfi bfxU bfxS bffs bffsIdx bfpl qxchX qxchY qxchXy qxchBc gshuf gshufXor qxchX64 qxchY64 qxchXy64 qxchBc64
    gshuf64 gshufXor64 umov uadd usub umul uand uor uxor ushl ushr usar umin umax umovv umovv64 ffmaF32 ffmaF64
    ffmaF16 ffmaBf16 ffmaF16x2 faddF32 fsubF32 fmulF32 fminF32 fmaxF32 fabsF32 fnegF32 fdivF32 frcpF32 frsqF32
    fsqrtF32 fexp2F32 flog2F32 fsinF32 fcosF32 ffloorF32 fceilF32 frndF32 ffracF32 faddF64 fsubF64 fmulF64 fminF64
    fmaxF64 fabsF64 fnegF64 fdivF64 frcpF64 frsqF64 fsqrtF64 fexp2F64 flog2F64 fsinF64 fcosF64 ffloorF64 fceilF64
    frndF64 ffracF64 faddF16 fsubF16 fmulF16 fminF16 fmaxF16 fabsF16 fnegF16 fdivF16 frcpF16 frsqF16 fsqrtF16 fexp2F16
    flog2F16 fsinF16 fcosF16 ffloorF16 fceilF16 frndF16 ffracF16 faddBf16 fsubBf16 fmulBf16 fminBf16 fmaxBf16 fabsBf16
    fnegBf16 fdivBf16 frcpBf16 frsqBf16 fsqrtBf16 fexp2Bf16 flog2Bf16 fsinBf16 fcosBf16 ffloorBf16 fceilBf16 frndBf16
    ffracBf16 faddF16x2 fsubF16x2 fmulF16x2 fminF16x2 fmaxF16x2 fabsF16x2 fnegF16x2 fdivF16x2 frcpF16x2 frsqF16x2
    fsqrtF16x2 fexp2F16x2 flog2F16x2 fsinF16x2 fcosF16x2 ffloorF16x2 fceilF16x2 frndF16x2 ffracF16x2 fcmp cvt dseedF32
    dseedF64 dzero dzero64 dgetF32 dgetF64 dputF32 dputF64 deval pcmp pset pand por pnot pget pgetW pput pcoll pblend
    psel rkey rnextU32 rnextU64 rnextF32 ld st ldt stt ldd std lds sts bhdrRd bhdrWr pref tset tsetClr tstat atom
    atomFadd atoms atomsFadd acq rel fence bind bindClr mwait barArv barWt barSyn gbar mbput mbtake bra call brq nop
    brx callx ret callj regroup join leave waitm region exit xq xqn elect mmissue accsv accld electU trace tracep
    xpair tres tresAcc tresTerm reproj fetchw launch trap eret gets sets himm hsel hgrd hrnd hscp hcch hsch

/-! ### The encoder after the decoder -/

/-- Where the decoder gives an instruction, its fields are `f`. -/
def Exact (f : Fields) (o : Option Instr) : Prop := ∀ i, o = some i → encodeFields i = some f

@[simp] theorem exact_none (f : Fields) : Exact f none := fun _ h => nomatch h

@[simp] theorem exact_some {f : Fields} {i : Instr} : Exact f (some i) ↔ encodeFields i = some f :=
  ⟨fun h => h i rfl, fun h _ hi => Option.some.inj hi ▸ h⟩

@[simp] theorem exact_need {f : Fields} {ok : Bool} {i : Instr} :
    Exact f (need ok i) ↔ (ok = true → encodeFields i = some f) := by
  cases ok <;> simp [need]

theorem Exact.orElse {f : Fields} {a b : Option Instr} (ha : Exact f a) (hb : Exact f b) : Exact f (a <|> b) := fun i hi => by
  cases a with
  | none => exact hb i hi
  | some j => exact ha i hi

theorem eq_of_toNat {x : BitVec 6} {k : Nat} (h : x.toNat = k) : x = BitVec.ofNat 6 k := by
  subst h
  simp

/-- The tables that go by the sub-opcode in the third source field alone. -/
theorem subTable_exact : ∀ t ∈ [(0x01#6, decode01), (0x02, decode02), (0x09, decode09), (0x0A, decode0A), (0x15, decode15),
    (0x16, decode16), (0x17, decode17), (0x18, decode18), (0x19, decode19), (0x20, decode20), (0x25, decode25),
    (0x2E, decode2E), (0x2F, decode2F), (0x32, decode32), (0x34, decode34), (0x35, decode35), (0x3A, decode3A),
    (0x3B, decode3B), (0x3C, decode3C), (0x3D, decode3D)], ∀ f : Fields, f.op = t.1 → Exact f (t.2 f) := by
  simp only [List.forall_mem_cons, List.not_mem_nil, false_imp_iff, implies_true, and_true]
  and_intros
  all_goals
    rintro ⟨b, op, n, d, s1, s2, s3⟩ rfl
    simp only [decode01, decode02, decode09, decode0A, decode15, decode16, decode17, decode18, decode19, decode20, decode25,
      decode2E, decode2F, decode32, decode34, decode35, decode3A, decode3B, decode3C, decode3D]
    split
    any_goals exact exact_none _
  all_goals
    next hs =>
      obtain rfl := eq_of_toNat hs
      simp only [exact_some, exact_need, Bool.and_eq_true, beq_iff_eq, Bool.not_eq_true', and_imp]
      intros
      subst_vars
      rfl

/-- A field's slices, joined again as the formats cut it. -/
theorem slices_joined (x : BitVec 6) :
    x.extractLsb' 5 1 ++ x.extractLsb' 4 1 ++ x.extractLsb' 0 4 = x ∧
    x.extractLsb' 5 1 ++ x.extractLsb' 3 2 ++ x.extractLsb' 0 3 = x ∧
    x.extractLsb' 5 1 ++ x.extractLsb' 2 3 ++ x.extractLsb' 0 2 = x ∧
    x.extractLsb' 5 1 ++ x.extractLsb' 0 5 = x ∧
    x.extractLsb' 5 1 ++ x.extractLsb' 4 1 ++ x.extractLsb' 3 1 ++ x.extractLsb' 0 3 = x ∧
    x.extractLsb' 5 1 ++ x.extractLsb' 4 1 ++ x.extractLsb' 2 2 ++ x.extractLsb' 0 2 = x ∧
    x.extractLsb' 5 1 ++ x.extractLsb' 4 1 ++ x.extractLsb' 3 1 ++ x.extractLsb' 2 1 ++ x.extractLsb' 0 2 = x ∧
    x.extractLsb' 4 2 ++ x.extractLsb' 3 1 ++ x.extractLsb' 0 3 = x ∧
    x.extractLsb' 4 2 ++ x.extractLsb' 1 3 ++ x.extractLsb' 0 1 = x ∧
    x.extractLsb' 4 2 ++ x.extractLsb' 0 4 = x ∧
    x.extractLsb' 3 3 ++ x.extractLsb' 2 1 ++ x.extractLsb' 1 1 ++ x.extractLsb' 0 1 = x ∧
    x.extractLsb' 3 3 ++ x.extractLsb' 1 2 ++ x.extractLsb' 0 1 = x ∧
    x.extractLsb' 3 3 ++ x.extractLsb' 0 3 = x ∧
    x.extractLsb' 2 4 ++ x.extractLsb' 0 2 = x ∧
    x.extractLsb' 1 5 ++ x.extractLsb' 0 1 = x := by
  revert x
  decide

/-- Control words; REGION's two live-ins and its index cross the fields (R185). -/
theorem decode39_exact (f : Fields) (hop : f.op = 0x39#6) : Exact f (decode39 f) := by
  obtain ⟨b, op, n, d, s1, s2, s3⟩ := f
  obtain rfl := hop
  unfold decode39
  split
  case h_10 hs =>
    obtain rfl := eq_of_toNat hs
    rw [exact_need]
    intro hn
    obtain rfl : n = false := by simpa using hn
    have hd : (d ++ s1 ++ s2.extractLsb' 4 2).extractLsb' 8 6 = d := by
      simp (disch := decide) only [BitVec.extractLsb'_append_eq_of_le, Nat.reduceSub, whole_slice]
    have hs1 : (d ++ s1 ++ s2.extractLsb' 4 2).extractLsb' 2 6 = s1 := by
      simp (disch := decide) only [BitVec.extractLsb'_append_eq_of_le, Nat.reduceSub, parts_of_two]
    simp only [encodeFields, hd, hs1, BitVec.extractLsb'_append_eq_right, slices_joined]
  any_goals exact exact_none _
  all_goals
    next hs =>
      obtain rfl := eq_of_toNat hs
      simp only [exact_need, Bool.and_eq_true, beq_iff_eq, Bool.not_eq_true', and_imp]
      intros
      subst_vars
      rfl

theorem decode3E_exact (f : Fields) (hop : f.op = 0x3E#6) : Exact f (decode3E f) := by
  obtain ⟨b, op, n, d, s1, s2, s3⟩ := f
  obtain rfl := hop
  unfold decode3E
  split
  any_goals exact exact_none _
  all_goals
    next hs =>
      obtain rfl := eq_of_toNat hs
      simp only [exact_need, Bool.and_eq_true, beq_iff_eq, Bool.not_eq_true', and_imp]
      intros
      subst_vars
      simp only [encodeFields, parts_of_two]

theorem decode30_exact (f : Fields) (hop : f.op = 0x30#6) : Exact f (decode30 f) := by
  obtain ⟨b, op, n, d, s1, s2, s3⟩ := f
  obtain rfl := hop
  unfold decode30
  split
  · simp only [exact_need, Bool.and_eq_true, beq_iff_eq, Bool.not_eq_true', and_imp, encodeFields]
    rintro rfl h6
    simp only [← h6, slices_joined]
  · simp only [exact_need, Bool.not_eq_true']
    rintro rfl
    simp only [encodeFields, slices_joined]

theorem decode27_exact (f : Fields) (hop : f.op = 0x27#6) : Exact f (decode27 f) := by
  obtain ⟨b, op, n, d, s1, s2, s3⟩ := f
  obtain rfl := hop
  refine .orElse ?_ (.orElse ?_ (.orElse ?_ (.orElse ?_ ?_)))
  all_goals
    simp only [exact_need, Bool.and_eq_true, beq_iff_eq, Bool.not_eq_true', and_imp]
    intros
    subst_vars
  case refine_5 h5 h3 =>
    have hx := slices_joined s3
    simp only [h5, h3] at hx
    simp only [encodeFields, hx]
  all_goals rfl

theorem decode31_exact (f : Fields) (hop : f.op = 0x31#6) : Exact f (decode31 f) := by
  obtain ⟨b, op, n, d, s1, s2, s3⟩ := f
  obtain rfl := hop
  unfold decode31
  split
  · simp only [exact_need, Bool.and_eq_true, beq_iff_eq, Bool.not_eq_true', and_imp, encodeFields]
    rintro rfl h6
    simp only [← h6, slices_joined]
  · simp only [exact_need, Bool.not_eq_true']
    rintro rfl
    simp only [encodeFields, slices_joined]

theorem decode2A_exact (f : Fields) (hop : f.op = 0x2A#6) : Exact f (decode2A f) := by
  obtain ⟨b, op, n, d, s1, s2, s3⟩ := f
  obtain rfl := hop
  refine .orElse ?_ ?_ <;> simp only [exact_need, Bool.and_eq_true, beq_iff_eq, Bool.not_eq_true', and_imp]
  · rintro rfl h5 h3 h0
    simp only [encodeFields, ← h5, ← h3, ← h0, slices_joined]
  · rintro rfl h5 h0
    simp only [encodeFields, ← h5, ← h0, slices_joined]

theorem decode2B_exact (f : Fields) (hop : f.op = 0x2B#6) : Exact f (decode2B f) := by
  obtain ⟨b, op, n, d, s1, s2, s3⟩ := f
  obtain rfl := hop
  refine .orElse ?_ ?_ <;> simp only [exact_need, Bool.and_eq_true, beq_iff_eq, Bool.not_eq_true', and_imp]
  all_goals
    rintro rfl h
    simp only [encodeFields, ← h, slices_joined]

/-- Hints (R90): the SUB field tells them apart. -/
theorem decode3F_exact (f : Fields) (hop : f.op = 0x3F#6) : Exact f (decode3F f) := by
  obtain ⟨b, op, n, d, s1, s2, s3⟩ := f
  obtain rfl := hop
  refine .orElse ?_ (.orElse ?_ (.orElse ?_ (.orElse ?_ (.orElse ?_ (.orElse ?_ ?_)))))
  all_goals simp only [exact_need, Bool.and_eq_true, beq_iff_eq, Bool.not_eq_true', and_imp]
  case refine_1 | refine_2 | refine_3 | refine_4 =>
    rintro rfl rfl rfl rfl rfl h
    simp only [encodeFields, ← h, slices_joined]
  · rintro rfl rfl rfl rfl rfl
    simp only [encodeFields, slices_joined]
  · rintro rfl rfl rfl rfl h
    obtain ⟨hlow, hhigh⟩ := parts_of_two (s2.extractLsb' 0 2) s3
    simp only [encodeFields, hlow, hhigh, ← h, slices_joined]
  · rintro rfl rfl
    obtain ⟨h1, h2, h3, h4⟩ := parts_of_four d s1 s2 s3
    rw [encodeFields, h1, h2, h3, h4]

/-- Where the decoder gives an instruction, the encoder gives the word's fields back. -/
theorem decodeFields_exact (f : Fields) : Exact f (decodeFields f) := by
  have sub := subTable_exact
  simp only [List.forall_mem_cons, List.not_mem_nil, false_imp_iff, implies_true, and_true] at sub
  obtain ⟨x01, x02, x09, x0A, x15, x16, x17, x18, x19, x20, x25, x2E, x2F, x32, x34, x35, x3A, x3B, x3C, x3D⟩ := sub
  unfold decodeFields
  split
  case h_1 h => exact x01 f (eq_of_toNat h)
  case h_2 h => exact x02 f (eq_of_toNat h)
  case h_9 h => exact x09 f (eq_of_toNat h)
  case h_10 h => exact x0A f (eq_of_toNat h)
  case h_16 h => exact x15 f (eq_of_toNat h)
  case h_17 h => exact x16 f (eq_of_toNat h)
  case h_18 h => exact x17 f (eq_of_toNat h)
  case h_19 h => exact x18 f (eq_of_toNat h)
  case h_20 h => exact x19 f (eq_of_toNat h)
  case h_23 h => exact x20 f (eq_of_toNat h)
  case h_26 h => exact x25 f (eq_of_toNat h)
  case h_28 h => exact decode27_exact f (eq_of_toNat h)
  case h_31 h => exact decode2A_exact f (eq_of_toNat h)
  case h_32 h => exact decode2B_exact f (eq_of_toNat h)
  case h_35 h => exact x2E f (eq_of_toNat h)
  case h_36 h => exact x2F f (eq_of_toNat h)
  case h_37 h => exact decode30_exact f (eq_of_toNat h)
  case h_38 h => exact decode31_exact f (eq_of_toNat h)
  case h_39 h => exact x32 f (eq_of_toNat h)
  case h_41 h => exact x34 f (eq_of_toNat h)
  case h_42 h => exact x35 f (eq_of_toNat h)
  case h_46 h => exact decode39_exact f (eq_of_toNat h)
  case h_47 h => exact x3A f (eq_of_toNat h)
  case h_48 h => exact x3B f (eq_of_toNat h)
  case h_49 h => exact x3C f (eq_of_toNat h)
  case h_50 h => exact x3D f (eq_of_toNat h)
  case h_51 h => exact decode3E_exact f (eq_of_toNat h)
  case h_52 h => exact decode3F_exact f (eq_of_toNat h)
  case h_53 => exact exact_none f
  all_goals
    rename_i h
    obtain ⟨b, op, n, d, s1, s2, s3⟩ := f
    obtain rfl := eq_of_toNat h
    simp only [exact_some, exact_need, Bool.and_eq_true, beq_iff_eq, Bool.not_eq_true', and_imp, encodeFields, parts_of_two]
  -- MOVI
  case h_5 => exact fun h => by rw [h]
  -- ICMP, FCMP and the plain loads and stores
  case h_7 | h_21 | h_29 | h_30 | h_33 | h_34 =>
    rintro rfl h
    simp only [← h, slices_joined]
  -- CVT and PCMP
  case h_22 | h_25 =>
    rintro rfl
    simp only [slices_joined]
  -- DEVAL and PBLEND
  case h_24 | h_27 =>
    intro h
    simp only [← h, slices_joined]
  -- MWAIT
  case h_40 =>
    rintro rfl rfl h
    simp only [← h, slices_joined]
  -- BRA and CALL, whose offset takes the N bit
  case h_43 | h_44 =>
    rintro rfl
    obtain ⟨htop, hd, h1, h2, -⟩ := parts_of_five (BitVec.ofBool n) d s1 s2 s3
    rw [htop, bit_ofBool, hd, h1, h2]
  -- BRQ
  case h_45 =>
    rintro rfl rfl h
    obtain ⟨h1, h2, -⟩ := parts_of_three s1 s2 s3
    simp only [h1, h2, ← h, slices_joined]

/-- The encoder has a word for the instruction words and for nothing else. -/
theorem encodeFields_isSome (i : Instr) : (encodeFields i).isSome = i.isWord := by
  cases i <;> rfl

theorem encode_of_event {i : Instr} (h : i.isWord = false) : encode i = none := by
  have := encodeFields_isSome i
  rw [h, Option.isSome_eq_false_iff, Option.isNone_iff_eq_none] at this
  rw [encode, this]
  rfl

/-! ### Words that are no instruction -/

theorem decode_of_unused {w : Word} (h : (w.extractLsb' 25 6).toNat ∈
    [0x00, 0x0B, 0x0C, 0x0D, 0x0E, 0x0F, 0x1C, 0x1D, 0x1E, 0x1F, 0x22, 0x23]) : decode w = none := by
  have hop : (Fields.unpack w).op.toNat = (w.extractLsb' 25 6).toNat := rfl
  rw [decode, decodeFields, hop]
  simp only [List.mem_cons, List.not_mem_nil, or_false] at h
  rcases h with h | h | h | h | h | h | h | h | h | h | h | h <;> simp only [h]

theorem decode_of_unusedHint {w : Word} (hop : w.extractLsb' 25 6 = 0x3F#6) (hk : w.getLsbD 24 = true)
    (hsub : 6 ≤ (w.extractLsb' 20 4).toNat) : decode w = none := by
  have hd : (Fields.unpack w).d.extractLsb' 2 4 = w.extractLsb' 20 4 := by
    apply BitVec.eq_of_getLsbD_eq
    intro i hi
    have : 2 + i < 6 := by omega
    simp [Fields.unpack, hi, this, ← Nat.add_assoc]
  have hn : (Fields.unpack w).n = true := hk
  have far : ∀ d : BitVec 6, 6 ≤ (d.extractLsb' 2 4).toNat →
    d ≠ 8#6 ∧ d ≠ 12#6 ∧ d ≠ 16#6 ∧ d ≠ 4#6 ∧ d ≠ 0#6 ∧ d ≠ 20#6 := by decide
  obtain ⟨h8, h12, h16, h4, h0, h20⟩ := far _ (hd ▸ hsub)
  have : decodeFields (Fields.unpack w) = decode3F (Fields.unpack w) := by
    simp only [decodeFields, show (Fields.unpack w).op.toNat = 0x3F from congrArg BitVec.toNat hop]
  rw [decode, this]
  simp [decode3F, need, hn, h8, h12, h16, h4, h0, h20]

end Sys2Proof.Laws

open Sys2Proof Sys2Proof.Laws

/-- Settles O54: the round trip of the fields (`RoundTrip.all`), with `unpack_pack` for the word and `decodeBytes_leBytes`
for its bytes. -/
theorem decodeEncode : Obligations.DecodeEncode := by
  intro i hwf
  obtain ⟨f, hf, hd⟩ := RoundTrip.all i hwf
  have hdec : decode f.pack = some i := by rw [decode, unpack_pack, hd]
  have hbytes (rest : List Byte) : decodeBytes (leBytes 4 f.pack.toNat ++ rest) = some (i, rest) := by
    rw [decodeBytes_leBytes, hdec, Option.map_some]
  refine ⟨f.pack, by rw [encode, hf, Option.map_some], hdec, ?table, hbytes⟩
  case table =>
    have hall := hbytes []
    rw [List.append_nil] at hall
    rw [decodeTableWord, if_pos ⟨Nat.le_refl _, f.pack.isLt⟩, hall, Option.map_some]

/-- Settles O55: the fields that decode to an instruction are its own (`decodeFields_exact`), and a word is its fields'
word (`pack_unpack`). -/
theorem encodeDecode : Obligations.EncodeDecode := by
  refine ⟨fun w i h => ?_, fun i => encode_of_event⟩
  have hf : encodeFields i = some (Fields.unpack w) := decodeFields_exact _ i h
  refine ⟨?isWord, ?word⟩
  case isWord => rw [← encodeFields_isSome, hf, Option.isSome_some]
  case word => rw [encode, hf, Option.map_some, pack_unpack]

/-- Settles O53: each sample by evaluation; the unassigned opcodes by `decode_of_unused`, the unassigned hints by
`decode_of_unusedHint`. -/
theorem decodeSamples : Obligations.DecodeSamples := by
  refine ⟨?samples, fun w => decode_of_unused, fun w => decode_of_unusedHint, rfl⟩
  case samples =>
    simp only [List.forall_mem_cons, List.not_mem_nil, false_imp_iff, implies_true, and_true]
    and_intros <;> rfl
end

section
/-!
PROOFS. Control transfers and the call stack (R97, R170-R173), and hints (R90, R94).
-/

namespace Sys2Proof.Machine

open Sys2Proof

/-! ### Hints -/

theorem exec_himm (i : BitVec 24) (s : State) : exec (.himm i) s =
    hintWord (fun b => decide (2 ≤ b.himm.length) || (!b.himm.isEmpty && !b.himmLast))
      (fun b => { b with himm := b.himm ++ [i], himmLast := true }) s := rfl

theorem exec_hsel (h : BitVec 1) (u : BitVec 5) (s : State) :
    exec (.hsel h u) s = hintWord (fun b => b.sel.isSome) (fun b => { b with sel := some (h == 1#1, u) }) s := rfl

theorem exec_hgrd (g : BitVec 1) (q : BitVec 3) (s : State) :
    exec (.hgrd g q) s = hintWord (fun b => b.grd.isSome) (fun b => { b with grd := some (g == 1#1, q) }) s := rfl

theorem exec_hrnd (m : BitVec 2) (s : State) :
    exec (.hrnd m) s = hintWord (fun b => b.rnd.isSome) (fun b => { b with rnd := some m }) s := rfl

theorem exec_hscp (m : BitVec 2) (s : State) :
    exec (.hscp m) s = hintWord (fun b => b.scp.isSome) (fun b => { b with scp := some m }) s := rfl

theorem exec_hcch (m : BitVec 2) (s : State) :
    exec (.hcch m) s = hintWord (fun b => b.cch.isSome) (fun b => { b with cch := some m }) s := rfl

theorem exec_hsch (m : BitVec 8) (s : State) :
    exec (.hsch m) s = hintWord (fun b => b.sch.isSome) (fun b => { b with sch := some m }) s := rfl

/-- A hint that keeps the rules of R94 joins the bundle. -/
theorem hintWord_joins {s : State} {c : Ctx} {bad : Bundle → Bool} (put : Bundle → Bundle) (hc : s.ctx? = some c)
    (hroom : c.g.count + 1 < 24) (hbad : bad c.g.bundle = false) : hintWord bad put s = .next (hintAfter s c put) := by
  have hruns : ¬ Config.runWords ≤ c.g.count + 1 := Nat.not_le.mpr hroom
  simp only [hintWord, hc, hruns, hbad, decide_false, Bool.or_self, Bool.false_eq_true, if_false, hintAfter]

/-- A hint that breaks a rule of R94, or is the last that a run may hold, is trapped itself. -/
theorem hintWord_traps {s : State} {c : Ctx} {bad : Bundle → Bool} (put : Bundle → Bundle) (hc : s.ctx? = some c)
    (h : 24 ≤ c.g.count + 1 ∨ bad c.g.bundle = true) :
    hintWord bad put s = .next (trapAll c .illegalInstruction c.addr s) := by
  have hor : (decide (Config.runWords ≤ c.g.count + 1) || bad c.g.bundle) = true := by
    rw [Bool.or_eq_true, decide_eq_true_eq]
    exact h
  simp only [hintWord, hc, hor, if_true]

/-- Each hint goes through `hintWord`. -/
theorem exec_isHint {i : Instr} (hi : i.isHint = true) : ∃ bad put, ∀ s, exec i s = hintWord bad put s := by
  cases i with
  | himm i => exact ⟨_, _, exec_himm i⟩
  | hsel h u => exact ⟨_, _, exec_hsel h u⟩
  | hgrd g q => exact ⟨_, _, exec_hgrd g q⟩
  | hrnd m => exact ⟨_, _, exec_hrnd m⟩
  | hscp m => exact ⟨_, _, exec_hscp m⟩
  | hcch m => exact ⟨_, _, exec_hcch m⟩
  | hsch m => exact ⟨_, _, exec_hsch m⟩
  | _ => cases hi

/-! ### Control transfers -/

theorem exec_bra (o : BitVec 25) (s : State) : exec (.bra o) s = execBra o s := rfl
theorem exec_brq (g : BitVec 1) (q : BitVec 3) (o : BitVec 18) (s : State) : exec (.brq g q o) s = execBrq g q o s := rfl
theorem exec_nop (b : Bool) (s : State) : exec (.nop b) s = execNop b s := rfl
theorem exec_brx (x : Code) (s : State) : exec (.brx x) s = execBrx x s := rfl
theorem exec_call (o : BitVec 25) (s : State) : exec (.call o) s = execCall o s := rfl
theorem exec_callx (x : Code) (s : State) : exec (.callx x) s = execCallx x s := rfl
theorem exec_ret (s : State) : exec .ret s = execRet s := rfl
/-- A control word that ends its run, ready to have its effect. -/
theorem frame_steer {uses : List Use} {s : State} {c : Ctx} (f : Ctx → Nat → Thread → Thread × Bool)
    (g : Nat → Thread → Thread) (leaves : Nat → Bool) (hc : s.ctx? = some c) (ht : wordTrap ⟨true, uses, true⟩ c = none)
    (hs : stalls ⟨true, uses, true⟩ s c = false)
    (hg : ∀ u th, c.active u = true → (c.lane u).thread? = some th →
      (f c u { th with pc := c.next }).1 = g u { th with pc := c.next } ∧ (f c u th).2 = leaves u)
    (hn : ∀ u, c.active u = true → (c.lane u).thread? = none → leaves u = false)
    (hi : ∀ u, c.active u = false → leaves u = false) (hd : leaves = nobody ∨ c.distinct = true) :
    frame ⟨true, uses, true⟩ s (steer f) = .next (wordAfter s c true (c.moveLane g) leaves fun _ => none) := by
  rw [frame_of_ready hc ht hs]
  exact congrArg _ (steer_next hc f g leaves hg hn hi hd)

/-- A control word that every active thread goes on from. -/
theorem frame_steer_stay {uses : List Use} {s : State} {c : Ctx} (f : Ctx → Nat → Thread → Thread × Bool)
    (g : Nat → Thread → Thread) (hc : s.ctx? = some c) (ht : wordTrap ⟨true, uses, true⟩ c = none)
    (hs : stalls ⟨true, uses, true⟩ s c = false)
    (hg : ∀ u th, c.active u = true → (c.lane u).thread? = some th →
      (f c u { th with pc := c.next }).1 = g u { th with pc := c.next } ∧ (f c u th).2 = false) :
    frame ⟨true, uses, true⟩ s (steer f) = .next (wordAfter s c true (c.moveLane g) nobody fun _ => none) :=
  frame_steer f g nobody hc ht hs hg (fun _ _ _ => rfl) (fun _ _ => rfl) (.inl rfl)

/-- A control word that traps in every active thread. -/
theorem frame_steer_leave {uses : List Use} {s : State} {c : Ctx} (f : Ctx → Nat → Thread → Thread × Bool)
    (g : Nat → Thread → Thread) (hc : s.ctx? = some c) (ht : wordTrap ⟨true, uses, true⟩ c = none)
    (hs : stalls ⟨true, uses, true⟩ s c = false) (hd : c.distinct = true)
    (hg : ∀ u th, c.active u = true → (c.lane u).thread? = some th →
      (f c u { th with pc := c.next }).1 = g u { th with pc := c.next } ∧ (f c u th).2 = true) :
    frame ⟨true, uses, true⟩ s (steer f) = .next (wordAfter s c true (c.moveLane g) c.livesActive fun _ => none) := by
  refine frame_steer f g c.livesActive hc ht hs (fun u th hu hth => ?_) (fun u hu hth => ?_) (fun u hu => ?_) (.inr hd)
  · obtain ⟨h1, h2⟩ := hg u th hu hth
    exact ⟨h1, by rw [h2, Ctx.livesActive, hu, hth]; rfl⟩
  · rw [Ctx.livesActive, hth, Option.isSome_none, Bool.and_false]
  · rw [Ctx.livesActive, hu, Bool.false_and]

theorem badTarget_good {x : Dword} (h : goodTarget x) : badTarget x = none := by
  obtain ⟨h1, h2⟩ := h
  simp [badTarget, h1, h2]

theorem badTarget_misaligned {x : Dword} (h : bitsOf x 1 0 ≠ 0) : badTarget x = some (.misaligned, 0) := by
  simp [badTarget, h]

theorem badTarget_beyond {x : Dword} (h1 : bitsOf x 1 0 = 0) (h2 : bitsOf x 63 56 ≠ 0) :
    badTarget x = some (.fault 0, x.truncate 56) := by
  simp [badTarget, h1, h2, causeAddress]

theorem push_room {th : Thread} (a : BitVec 56) (h : th.depth < 16) :
    th.push a = some { th with stack := th.stack.set th.depth (a.zeroExtend 64), depth := th.depth + 1 } := by
  simp [Thread.push, Config.callDepth, h]

theorem push_full {th : Thread} (a : BitVec 56) (h : 16 ≤ th.depth) : th.push a = none := by
  simp [Thread.push, Config.callDepth, h]

theorem pop_entry {th : Thread} (h : 0 < th.depth) :
    th.pop = some (BitVec.ofNat 56 (th.stack.getD (th.depth - 1) 0).toNat, { th with depth := th.depth - 1 }) := by
  simp [Thread.pop, Nat.ne_of_gt h]

theorem pop_empty {th : Thread} (h : th.depth = 0) : th.pop = none := by
  simp [Thread.pop, h]

theorem callTo_room {c : Ctx} {th : Thread} (a : BitVec 56) (h : th.depth < 16) :
    callTo c th a = ({ th with stack := th.stack.set th.depth (c.next.zeroExtend 64), depth := th.depth + 1, pc := a }, false) := by
  simp only [callTo, push_room c.next h, jump]

theorem callTo_full {c : Ctx} {th : Thread} (a : BitVec 56) (h : 16 ≤ th.depth) :
    callTo c th a = (th.takeTrap .resource 0 c.start, true) := by
  simp only [callTo, push_full c.next h]

/-- The call stack gives back what was pushed (R173). -/
theorem pop_push {th th' : Thread} {a : BitVec 56} (hlen : th.stack.length = 16) (h : th.push a = some th') :
    th'.pop = some (a, { th with stack := th'.stack }) := by
  rcases Nat.lt_or_ge th.depth 16 with hd | hd
  · rw [push_room a hd] at h
    cases h
    have hback : BitVec.ofNat 56 (a.zeroExtend 64).toNat = a := by
      rw [BitVec.toNat_setWidth, Nat.mod_eq_of_lt (by omega), BitVec.ofNat_toNat, BitVec.setWidth_eq]
    rw [pop_entry (Nat.succ_pos th.depth)]
    simp only [Nat.add_sub_cancel, List.getD, List.getElem?_set_self (hlen.symm ▸ hd), Option.getD_some, hback]
  · rw [push_full a hd] at h
    cases h

end Sys2Proof.Machine

open Sys2Proof Sys2Proof.Machine

/-- Settles O18: every hint goes through `hintWord`, which joins the bundle (`hintWord_joins`) or traps
(`hintWord_traps`). -/
theorem hintWords : Obligations.HintWords := by
  refine ⟨fun i s c hc hroom h => ?himm, fun h u s c hc hroom hb => ?hsel, fun g q s c hc hroom hb => ?hgrd,
    fun m s c hc hroom hb => ?hrnd, fun m s c hc hroom hb => ?hscp, fun m s c hc hroom hb => ?hcch,
    fun m s c hc hroom hb => ?hsch, fun i s c hc hi hlong => ?long, fun h u s c hc hb => ?twoSel,
    fun g q s c hc hb => ?twoGrd, fun m s c hc hb => ?twoRnd, fun m s c hc hb => ?twoScp, fun m s c hc hb => ?twoCch,
    fun m s c hc hb => ?twoSch, fun i s c hc h => ?himmBad⟩
  case himm =>
    rw [exec_himm, hintWord_joins _ hc hroom]
    rcases h with h | ⟨h1, h2⟩
    · simp [h]
    · simp [h1, h2]
  case hsel => rw [exec_hsel, hintWord_joins _ hc hroom (by rw [hb, Option.isSome_none])]
  case hgrd => rw [exec_hgrd, hintWord_joins _ hc hroom (by rw [hb, Option.isSome_none])]
  case hrnd => rw [exec_hrnd, hintWord_joins _ hc hroom (by rw [hb, Option.isSome_none])]
  case hscp => rw [exec_hscp, hintWord_joins _ hc hroom (by rw [hb, Option.isSome_none])]
  case hcch => rw [exec_hcch, hintWord_joins _ hc hroom (by rw [hb, Option.isSome_none])]
  case hsch => rw [exec_hsch, hintWord_joins _ hc hroom (by rw [hb, Option.isSome_none])]
  case long =>
    obtain ⟨bad, put, hexec⟩ := exec_isHint hi
    rw [hexec, hintWord_traps put hc (.inl hlong)]
  case twoSel => rw [exec_hsel, hintWord_traps _ hc (.inr hb)]
  case twoGrd => rw [exec_hgrd, hintWord_traps _ hc (.inr hb)]
  case twoRnd => rw [exec_hrnd, hintWord_traps _ hc (.inr hb)]
  case twoScp => rw [exec_hscp, hintWord_traps _ hc (.inr hb)]
  case twoCch => rw [exec_hcch, hintWord_traps _ hc (.inr hb)]
  case twoSch => rw [exec_hsch, hintWord_traps _ hc (.inr hb)]
  case himmBad =>
    rw [exec_himm, hintWord_traps _ hc]
    refine .inr ?_
    rcases h with h | ⟨h1, h2⟩
    · simp [h]
    · simp [h1, h2]

/-- Settles O12. -/
theorem transfers : Obligations.Transfers := by
  refine ⟨fun o s c hw => ?bra, fun g q o s c hw => ?brq, fun b s c hw => ?nop, fun x s c hw hgood => ?brx,
    fun o s c hw hroom => ?call, fun x s c hw hgood hroom => ?callx, fun s c hw hroom => ?ret,
    fun x s c hw hd hbad => ?brxMis, fun x s c hw hd hbad => ?brxFault, fun o s c hw hd hfull => ?callFull,
    fun s c hw hd hempty => ?retEmpty,
    fun th a hlen => ⟨fun h => ⟨_, push_room a h, pop_push hlen (push_room a h)⟩, push_full a, pop_empty⟩⟩
  case bra =>
    rw [exec_bra, execBra]
    exact frame_steer_stay _ _ hw.here hw.checks hw.flows fun u th hu hth => ⟨rfl, rfl⟩
  case brq =>
    rw [exec_brq, execBrq]
    refine frame_steer_stay _ _ hw.here hw.checks hw.flows fun u th hu hth => ⟨rfl, rfl⟩
  case nop =>
    rw [exec_nop, execNop]
    exact (frame_of_ready hw.here hw.checks hw.flows).trans (congrArg _ (finish_plain hw.here b))
  case brx =>
    rw [exec_brx, execBrx]
    refine frame_steer_stay _ _ hw.here hw.checks hw.flows fun u th hu hth => ?_
    simp only [badTarget_good (hgood u hu), jump, and_self]
  case call =>
    rw [exec_call, execCall]
    refine frame_steer_stay _ _ hw.here hw.checks hw.flows fun u th hu hth => ?_
    simp only [callTo_room _ (hroom u hu th hth), callTo_room (th := { th with pc := c.next }) _ (hroom u hu th hth)]
    exact ⟨rfl, trivial⟩
  case callx =>
    rw [exec_callx, execCallx]
    refine frame_steer_stay _ _ hw.here hw.checks hw.flows fun u th hu hth => ?_
    simp only [badTarget_good (hgood u hu), callTo_room _ (hroom u hu th hth),
      callTo_room (th := { th with pc := c.next }) _ (hroom u hu th hth), and_self]
  case ret =>
    rw [exec_ret, execRet]
    refine frame_steer_stay _ _ hw.here hw.checks hw.flows fun u th hu hth => ?_
    simp only [pop_entry (hroom u hu th hth), pop_entry (th := { th with pc := c.next }) (hroom u hu th hth), jump, and_self]
  case brxMis =>
    rw [exec_brx, execBrx]
    refine frame_steer_leave _ _ hw.here hw.checks hw.flows hd fun u th hu hth => ?_
    simp only [badTarget_misaligned (hbad u hu), and_self]
  case brxFault =>
    rw [exec_brx, execBrx]
    refine frame_steer_leave _ _ hw.here hw.checks hw.flows hd fun u th hu hth => ?_
    simp only [badTarget_beyond (hbad u hu).1 (hbad u hu).2, and_self]
  case callFull =>
    rw [exec_call, execCall]
    refine frame_steer_leave _ _ hw.here hw.checks hw.flows hd fun u th hu hth => ?_
    simp only [callTo_full _ (hfull u hu th hth), callTo_full (th := { th with pc := c.next }) _ (hfull u hu th hth), and_self]
  case retEmpty =>
    rw [exec_ret, execRet]
    refine frame_steer_leave _ _ hw.here hw.checks hw.flows hd fun u th hu hth => ?_
    simp only [pop_empty (hempty u hu th hth), pop_empty (th := { th with pc := c.next }) (hempty u hu th hth), and_self]
end

section
/-!
PROOFS. Words that work in their lanes leave all memory, every other crew and every other core alone (R101, R102).
-/

namespace Sys2Proof.Machine

open Sys2Proof

/-- Whatever state an outcome reaches, only the crew of the word `c`, and its core, have changed. -/
structure StaysInCrew (c : Ctx) (s : State) (o : Out) : Prop where
  next : ∀ t, o = .next t → InCrew c s t

section
variable {c : Ctx} {s : State} (hc : s.ctx? = some c)
include hc

theorem staysInCrew_frame {i : WordInfo} {eff : Ctx → State → State} (he : ∀ x, InCrew c s x → InCrew c s (eff c x)) :
    StaysInCrew c s (frame i s eff) := ⟨fun _ => frameWith_inCrew hc he⟩

theorem staysInCrew_steer {i : WordInfo} (f : Ctx → Nat → Thread → Thread × Bool) :
    StaysInCrew c s (frame i s (steer f)) := staysInCrew_frame hc fun _ h => h.steer f

theorem staysInCrew_vec (i : WordInfo) (n : Bool) (d : Code) (wide : Bool) (f : Ctx → Nat → LaneOut) :
    StaysInCrew c s (vecWord i n d wide f s) := staysInCrew_frame hc fun _ h => h.commit ..

theorem staysInCrew_quiet (i : WordInfo) (f : Ctx → Nat → LaneOut) : StaysInCrew c s (quietWord i f s) :=
  staysInCrew_frame hc fun _ h => h.commit ..

theorem staysInCrew_draw (i : WordInfo) (n : Bool) (d : Code) (wide pushes : Bool) (f : Ctx → Nat → LaneOut) :
    StaysInCrew c s (drawWord i n d wide pushes f s) := staysInCrew_frame hc fun _ h => (h.mapLanes _).commit ..

theorem staysInCrew_uniform (i : WordInfo) (d : Code) (f : Ctx → Dword) : StaysInCrew c s (uniformWord i d f s) := by
  refine staysInCrew_frame hc fun x h => ?_
  split
  · exact h.updCrew _
  · exact h

theorem staysInCrew_hint (bad : Bundle → Bool) (put : Bundle → Bundle) : StaysInCrew c s (hintWord bad put s) := by
  refine ⟨fun t ho => ?_⟩
  simp only [hintWord, hc] at ho
  have hr := InCrew.refl hc
  split at ho
  · cases ho; exact hr.trapAll _ _
  · cases ho; exact hr.updGroup _ fun _ => rfl

end

theorem InCrew.ite {c : Ctx} {s x y : State} {p : Prop} [Decidable p] (hx : InCrew c s x) (hy : InCrew c s y) :
    InCrew c s (if p then x else y) := by
  split
  · exact hx
  · exact hy

theorem InCrew.gatherLane {c : Ctx} {s x : State} (h : InCrew c s x) (target : Dword) (key : BitVec 16) (lv : Nat) (call : Bool)
    (t : Nat) : InCrew c s (gatherLane c target key lv call x t) := by
  unfold Machine.gatherLane
  dsimp only
  split
  · exact h.trapLane ..
  · split
    · exact h
    · split
      · exact h.trapLane ..
      · exact ((h.updThread _ _).leave _).updCrew _

theorem InCrew.gatherAll {c : Ctx} {s x : State} (h : InCrew c s x) (target : Nat → Dword) (key : Nat → BitVec 16) (lv : Nat)
    (call : Bool) : InCrew c s (gatherAll target key lv call c x) :=
  h.eachLane _ _ fun _ u hx => hx.gatherLane _ _ _ _ u

theorem InCrew.endThread {c : Ctx} {s x : State} (h : InCrew c s x) (p : Nat) : InCrew c s (x.endThread c.ci p) := h.updCrew _

theorem InCrew.setTemp {c : Ctx} {s x : State} (h : InCrew c s x) (v : Nat → Word) (t : Nat) :
    InCrew c s (setTemp c v x t) := by
  unfold Machine.setTemp
  split
  · exact h.trapLane ..
  · exact h.updCrew _

/-- A word that works in its lanes stays in its crew, whatever becomes of it. -/
theorem exec_staysInCrew {i : Instr} (hi : i.inLanes = true) {s : State} {c : Ctx} (hc : s.ctx? = some c) :
    StaysInCrew c s (exec i s) := by
  cases i with
  | iadd | isub | imul | imulh | imulhU | ineg | iabs | imin | iminU | imax | imaxU | land | lor | lxor | lnot | shl
    | shr | sar | rot | popc | clz | ctz | brev | mov | iaddSat | isubSat | iaddUsat | isubUsat | iadd64 | isub64 |
    imul64 | imulh64 | imulhU64 | ineg64 | iabs64 | imin64 | iminU64 | imax64 | imaxU64 | land64 | lor64 | lxor64 |
    lnot64 | shl64 | shr64 | sar64 | rot64 | popc64 | clz64 | ctz64 | brev64 | mov64 | iaddSat64 | isubSat64 |
    iaddUsat64 | isubUsat64 | imad | imad64 | movi | lea | bfi | bfxU | bfxS | bffs | bffsIdx | bfpl | qxchX | qxchY
    | qxchXy | qxchBc | gshuf | gshufXor | qxchX64 | qxchY64 | qxchXy64 | qxchBc64 | gshuf64 | gshufXor64 | ffmaF32
    | ffmaF64 | ffmaF16 | ffmaBf16 | ffmaF16x2 | faddF32 | fsubF32 | fmulF32 | fminF32 | fmaxF32 | fabsF32 | fnegF32
    | fdivF32 | frcpF32 | frsqF32 | fsqrtF32 | fexp2F32 | flog2F32 | fsinF32 | fcosF32 | ffloorF32 | fceilF32 |
    frndF32 | ffracF32 | faddF64 | fsubF64 | fmulF64 | fminF64 | fmaxF64 | fabsF64 | fnegF64 | fdivF64 | frcpF64 |
    frsqF64 | fsqrtF64 | fexp2F64 | flog2F64 | fsinF64 | fcosF64 | ffloorF64 | fceilF64 | frndF64 | ffracF64 |
    faddF16 | fsubF16 | fmulF16 | fminF16 | fmaxF16 | fabsF16 | fnegF16 | fdivF16 | frcpF16 | frsqF16 | fsqrtF16 |
    fexp2F16 | flog2F16 | fsinF16 | fcosF16 | ffloorF16 | fceilF16 | frndF16 | ffracF16 | faddBf16 | fsubBf16 |
    fmulBf16 | fminBf16 | fmaxBf16 | fabsBf16 | fnegBf16 | fdivBf16 | frcpBf16 | frsqBf16 | fsqrtBf16 | fexp2Bf16 |
    flog2Bf16 | fsinBf16 | fcosBf16 | ffloorBf16 | fceilBf16 | frndBf16 | ffracBf16 | faddF16x2 | fsubF16x2 |
    fmulF16x2 | fminF16x2 | fmaxF16x2 | fabsF16x2 | fnegF16x2 | fdivF16x2 | frcpF16x2 | frsqF16x2 | fsqrtF16x2 |
    fexp2F16x2 | flog2F16x2 | fsinF16x2 | fcosF16x2 | ffloorF16x2 | fceilF16x2 | frndF16x2 | ffracF16x2 | cvt |
    dseedF32 | dseedF64 | dzero | dzero64 | dgetF32 | dgetF64 | dputF32 | dputF64 | deval | pget | pgetW | pblend |
    psel => exact staysInCrew_vec hc ..
  | icmp | fcmp | pcmp | pset | pand | por | pnot | pput | rkey | elect => exact staysInCrew_quiet hc ..
  | umov | uadd | usub | umul | uand | uor | uxor | ushl | ushr | usar | umin | umax | umovv | umovv64 => exact staysInCrew_uniform hc ..
  | pcoll | rnextU32 | rnextU64 | rnextF32 => exact staysInCrew_draw hc ..
  | bra | call | brq | brx | callx | ret | waitm | trap | eret => exact staysInCrew_steer hc _
  | callj | regroup => exact staysInCrew_frame hc fun _ h => h.gatherAll ..
  | nop b => exact staysInCrew_frame (eff := fun _ s => s) hc fun _ h => h
  | join b k =>
    show StaysInCrew c s (execJoin b k s)
    exact staysInCrew_frame hc fun _ h => h.updCrew _
  | leave b k =>
    show StaysInCrew c s (execLeave b k s)
    exact staysInCrew_frame hc fun _ h => h.updCrew _
  | region b v q =>
    show StaysInCrew c s (execRegion b v q s)
    exact staysInCrew_frame hc fun _ h => h.mapLanes _
  | gets b d a =>
    show StaysInCrew c s (execGets b d a s)
    unfold execGets
    exact staysInCrew_frame hc fun _ h => h.commit ..
  | exit => exact staysInCrew_frame hc fun _ h => h.eachLane _ _ fun _ u hx => (hx.endThread _).leave u
  | sets b d a =>
    show StaysInCrew c s (execSets b d a s)
    unfold execSets
    exact staysInCrew_frame hc fun _ h => (h.mapLanes _).ite (h.eachLane _ _ fun _ u hx => hx.setTemp _ u)
  | electU b d u =>
    show StaysInCrew c s (execElectU b d u s)
    unfold execElectU
    exact staysInCrew_frame hc fun _ h => ((h.updCrew _).ite h).commit ..
  | himm i => exact exec_himm i s ▸ staysInCrew_hint hc ..
  | hsel h u => exact exec_hsel h u s ▸ staysInCrew_hint hc ..
  | hgrd g q => exact exec_hgrd g q s ▸ staysInCrew_hint hc ..
  | hrnd m => exact exec_hrnd m s ▸ staysInCrew_hint hc ..
  | hscp m => exact exec_hscp m s ▸ staysInCrew_hint hc ..
  | hcch m => exact exec_hcch m s ▸ staysInCrew_hint hc ..
  | hsch m => exact exec_hsch m s ▸ staysInCrew_hint hc ..
  | pickGroup | loadDataArrival | faultResolved | faultUnresolvable | windowAccessApply | monitorWake |
    mailboxWaitMet | gangBarrierComplete | joinerBatchClose | joinerMovesComplete | preemptRequest | preemptTimeout
    | crewResume | saveAreaSupply | trapHeld | trapResume | trapEnter | trapEnd | trapAbort | copyTake |
    copyComplete | matrixMma | matrixWload | matrixFin | matrixClr | accEntryExecute | matrixPassGrant |
    multiplierMismatch | rayEndOrSuspend | rayFaultStop | rayReenter | xpairComplete | reprojOperation | fetchwWake
    | doorbell | regw | regstRead | bar0ReservedWrite | queueDescriptorWrite | packetTake | distributeGang |
    placeGang | gridComplete | graphStart | graphNodeStart | graphMatrixNode | graphNodeComplete |
    remotePayloadReceive | peerRegistration | peerWake | transportFailure | collectiveDoorbell | collectiveSum |
    collectiveMin | collectiveMax | collectiveMessage | collectiveCommit | collectiveTimeout | checkpoint |
    checkpointRestore | coldStart | warmStart | startTimeout | reset | recover | softErrorCorrected |
    uncorrectableError | attestationRequest | powerThermalThrottle | clockRestore | thermalTrip | unassignedWord |
    hostDeviceMemoryAccess | gridRemoval | ld | st | ldt | stt | ldd | std | lds | sts | bhdrRd | bhdrWr | pref |
    tset | tsetClr | tstat | atom | atomFadd | atoms | atomsFadd | acq | rel | fence | bind | bindClr | mwait |
    barArv | barWt | barSyn | gbar | mbput | mbtake | xq | xqn | mmissue | accsv | accld | trace | tracep | xpair |
    tres | tresAcc | tresTerm | reproj | fetchw | launch => cases hi

end Sys2Proof.Machine

open Sys2Proof Sys2Proof.Machine

/-- Settles O58: a word that works in its lanes stays in its crew (`exec_staysInCrew`), and `InCrew` names all that may
change. -/
theorem laneWordsKeepMemory : Obligations.LaneWordsKeepMemory := by
  intro i s t c hi hc ho
  obtain ⟨hrest, hcrews, hcores, -, -⟩ := (exec_staysInCrew hi hc).next t ho
  refine ⟨by rw [hrest], by rw [hrest], by rw [hrest], by rw [hrest], by rw [hrest], ?_, hcrews, hcores, fun a => by rw [hrest]⟩
  rw [hrest]
  simp [sameDevice]
end

section
/-!
PROOFS. The word that executes is read from the memory that the crew's launch fetches, which no store of running code
changes (R82, R188).
-/

namespace Sys2Proof.Machine

open Sys2Proof

/-- The code of a grid none of whose gangs has started is fixed as memory was released (R82). -/
theorem fixCode_grid {s : State} {gi : Nat} {gr : Grid} (hg : s.grids[gi]? = some gr)
    (hnew : ∀ k ∈ s.gangs, k.grid = gi → k.started = false) :
    (s.fixCode gi).grids[gi]? = some { gr with code := s.codeMem } := by
  have hnone : (s.gangs.any fun x => x.grid == gi && x.started) = false := by
    rw [List.any_eq_false]
    intro k hk
    by_cases hgi : k.grid = gi
    · simp [hnew k hk hgi]
    · simp [hgi]
  rw [State.fixCode, if_neg (by simp [hnone])]
  simp [hg]

/-- Without a fill that a fault delivered, a lane's translation is that of the tables (R190, R205). -/
theorem laneXlat_of_no_fill {s : State} {ci li p a : Nat} {q : Ask} (h : s.fillFor ci li a q.write = none) :
    s.laneXlat ci li p a q = s.xlat p a q := by
  rw [State.laneXlat, h]

/-- The instruction fetches of a crew see the memory that its grid was placed with. -/
theorem fetchMem_of_grid {s : State} {ci : Nat} {cr : Crew} {gr : Grid} (hc : s.crews[ci]? = some cr)
    (hg : s.grids[cr.grid]? = some gr) : s.fetchMem ci = gr.code := by
  simp [State.fetchMem, hc, hg]

theorem codeRead_of_fetchMem_eq {s t : State} {ci : Nat} (h : t.fetchMem ci = s.fetchMem ci) (d : Nat) (g : Page) (n : Nat) :
    t.codeRead ci d g n = s.codeRead ci d g n := by
  rw [State.codeRead, State.codeRead, h]

/-- Of crews and grids as before, a crew that has its grid fetches from the same memory. -/
theorem fetchMem_eq_of_grid {s t : State} {ci : Nat} {cr : Crew} {gr : Grid} (hc : s.crews[ci]? = some cr)
    (hg : s.grids[cr.grid]? = some gr) (hcrews : t.crews = s.crews) (hgrids : t.grids = s.grids) :
    t.fetchMem ci = s.fetchMem ci := by
  rw [fetchMem_of_grid hc hg, fetchMem_of_grid (hcrews ▸ hc) (hgrids ▸ hg)]

theorem fetchWord_of_window {s : State} {c : Ctx} (h : isWindow c.addr.toNat = true) :
    fetchWord s c = .trap (.fault causeWindow) c.addr.toNat := by
  simp [fetchWord, h]

/-- A fetch that translates and meets no poison reads the code at the page's address. -/
theorem fetchWord_of_xlat {s : State} {c : Ctx} {g : Page} (hw : isWindow c.addr.toNat = false)
    (hf : s.fillFor c.ci (c.place c.lead) c.addr.toNat false = none)
    (hx : s.xlat c.cr.part c.addr.toNat { fetch := true } = .ok g) (hp : s.poisonedOn (dieOf c.core) g 4 = false) :
    fetchWord s c = .ok (leNat (s.codeRead c.ci (dieOf c.core) g 4)) := by
  have hlane : s.laneXlat c.ci (c.place c.lead) c.cr.part c.addr.toNat { fetch := true } = .ok g :=
    (laneXlat_of_no_fill hf).trans hx
  simp [fetchWord, hw, hlane, hf, hp, Acc.bind]

/-- Four bytes, lowest first, are their concatenation from the highest down (R2). -/
theorem ofNat_leNat_four (b0 b1 b2 b3 : Byte) : BitVec.ofNat 32 (leNat [b0, b1, b2, b3]) = b3 ++ b2 ++ b1 ++ b0 := by
  apply BitVec.eq_of_toNat_eq
  have happ {w : Nat} (x : BitVec w) (y : Byte) : (x ++ y).toNat = y.toNat + 256 * x.toNat := by
    rw [BitVec.toNat_append, ← Nat.shiftLeft_add_eq_or_of_lt y.isLt, Nat.shiftLeft_eq, Nat.add_comm, Nat.mul_comm]
  have hlt : leNat [b0, b1, b2, b3] < 2 ^ 32 := by
    have := b0.isLt; have := b1.isLt; have := b2.isLt; have := b3.isLt
    simp only [leNat]
    omega
  rw [BitVec.toNat_ofNat, Nat.mod_eq_of_lt hlt, happ, happ, happ]
  rfl

end Sys2Proof.Machine

open Sys2Proof Sys2Proof.Machine

/-- Settles O51: a fetch reads the code of the crew's grid, which stores and releases leave alone. -/
theorem fetchReadsMemory : Obligations.FetchReadsMemory := by
  unfold Obligations.FetchReadsMemory
  refine ⟨fun _ _ _ hw hf hx hp => fetchWord_of_xlat hw hf hx hp, fun s ci cr gr hc hg => ⟨?_, ?_, ?_⟩,
    fun _ _ _ => ⟨rfl, rfl⟩, fun _ _ _ hg hnew => fixCode_grid hg hnew, ofNat_leNat_four, fun _ _ => fetchWord_of_window⟩
  · intro d g n hrep
    rw [State.codeRead, fetchMem_of_grid hc hg, Page.on, if_neg (by simp [hrep])]
  · exact fun _ _ => codeRead_of_fetchMem_eq (fetchMem_eq_of_grid hc hg rfl rfl)
  · exact codeRead_of_fetchMem_eq (fetchMem_eq_of_grid hc hg rfl rfl)
end

section
/-!
PROOFS. Placement (R82, R109, R159, R196, R333, R338, R339, R340): the distributor, first fit, and a crew at its start.
-/

namespace Sys2Proof.Machine

open Sys2Proof

/-! ### What a core grants is less where it holds more (R107, R108) -/

/-- Amounts, each at most the other's. -/
def AmountsLe (a b : List Nat) : Prop := List.Forall₂ (· ≤ ·) a b

theorem amountsLe_addAll : ∀ {a c : List Nat}, a.length ≤ c.length → AmountsLe a (addAll a c)
  | [], _, _ => .nil
  | _ :: _, _ :: _, h => .cons (Nat.le_add_right ..) (amountsLe_addAll (Nat.le_of_succ_le_succ h))

theorem AmountsLe.addAll {a b : List Nat} (h : AmountsLe a b) (c : List Nat) :
    AmountsLe (Machine.addAll a c) (Machine.addAll b c) := by
  induction h generalizing c with
  | nil => exact .nil
  | cons hle _ ih =>
    cases c with
    | nil => exact .nil
    | cons n c => exact .cons (Nat.add_le_add_right hle n) (ih c)

theorem AmountsLe.allLe {a b c : List Nat} (h : AmountsLe a b) (hb : Machine.allLe b c = true) : Machine.allLe a c = true := by
  induction h generalizing c with
  | nil => rfl
  | cons hle _ ih =>
    cases c with
    | nil => rfl
    | cons n c =>
      simp only [Machine.allLe, List.zip_cons_cons, List.all_cons, Bool.and_eq_true, decide_eq_true_eq] at hb ⊢
      exact ⟨hle.trans hb.1, ih hb.2⟩

theorem AmountsLe.foldl {α : Type} (amounts : α → List Nat) (l : List α) {a b : List Nat} (h : AmountsLe a b) :
    AmountsLe (l.foldl (fun a x => Machine.addAll a (amounts x)) a) (l.foldl (fun a x => Machine.addAll a (amounts x)) b) := by
  induction l generalizing a b with
  | nil => exact h
  | cons x l ih => exact ih (h.addAll _)

/-- One more holder, counted or not, asks for no less. -/
theorem amountsLe_foldl_cons {α : Type} (amounts : α → List Nat) (keep : α → Bool) (x : α) (l : List α) {a : List Nat}
    (h : a.length ≤ (amounts x).length) :
    AmountsLe ((l.filter keep).foldl (fun a x => addAll a (amounts x)) a)
      (((x :: l).filter keep).foldl (fun a x => addAll a (amounts x)) a) := by
  rw [List.filter_cons]
  split
  · exact (amountsLe_addAll h).foldl amounts _
  · exact AmountsLe.foldl amounts _ (List.forall₂_refl a)

theorem reservation_lengths (p : BitVec 512) : (reservation p).1.length = 7 ∧ (reservation p).2.length = 2 := ⟨rfl, rfl⟩

/-- A core that grants a crew beside some crews grants it beside fewer. -/
theorem coreGrants_of_cons {used : List (Nat × BitVec 512)} {x : Nat × BitVec 512} {c : Nat} {p : BitVec 512}
    (h : coreGrants (x :: used) c p = true) : coreGrants used c p = true := by
  obtain ⟨hp7, hp2⟩ := reservation_lengths p
  obtain ⟨hx7, hx2⟩ := reservation_lengths x.2
  have hcore := amountsLe_foldl_cons (fun y : Nat × BitVec 512 => (reservation y.2).1) (fun y => y.1 == c) x used
    (hp7.trans hx7.symm).le
  have hengine := amountsLe_foldl_cons (fun y : Nat × BitVec 512 => (reservation y.2).2)
    (fun y => clusterOf y.1 == clusterOf c) x used (hp2.trans hx2.symm).le
  simp only [coreGrants, Bool.and_eq_true] at h ⊢
  exact ⟨hcore.allLe h.1, hengine.allLe h.2⟩

/-! ### First fit (R340) -/

/-- A core that does not grant the crew now grants it to none of the crews that follow. -/
theorem firstFit_of_not_granted {used : List (Nat × BitVec 512)} {c : Nat} {p : BitVec 512} (cs : List Nat) (n : Nat)
    (h : coreGrants used c p = false) : firstFit (c :: cs) p n used = firstFit cs p n used := by
  induction n generalizing used with
  | zero => rfl
  | succ n ih =>
    rw [firstFit, firstFit, List.find?_cons, h]
    cases cs.find? fun d => coreGrants used d p with
    | none => rfl
    | some d => exact congrArg (d :: ·) (ih (Bool.eq_false_iff.mpr fun hg => by simp [coreGrants_of_cons hg] at h))

theorem firstFit_cons (c : Nat) (cs : List Nat) (p : BitVec 512) (n : Nat) (used : List (Nat × BitVec 512)) :
    firstFit (c :: cs) p (n + 1) used =
      if coreGrants used c p then c :: firstFit (c :: cs) p n ((c, p) :: used) else firstFit cs p (n + 1) used := by
  cases h : coreGrants used c p with
  | true => rw [firstFit, List.find?_cons, h]; rfl
  | false => exact firstFit_of_not_granted cs (n + 1) h

theorem firstFit_length_le (cores : List Nat) (p : BitVec 512) (n : Nat) (used : List (Nat × BitVec 512)) :
    (firstFit cores p n used).length ≤ n := by
  induction n generalizing used with
  | zero => exact Nat.le_refl 0
  | succ n ih =>
    rw [firstFit]
    split
    · exact Nat.zero_le _
    · exact Nat.succ_le_succ (ih _)

theorem mem_of_mem_firstFit {cores : List Nat} {p : BitVec 512} {n : Nat} {used : List (Nat × BitVec 512)} {c : Nat}
    (h : c ∈ firstFit cores p n used) : c ∈ cores := by
  induction n generalizing used with
  | zero => cases h
  | succ n ih =>
    rw [firstFit] at h
    split at h
    · cases h
    · next d hd =>
      rcases List.mem_cons.mp h with rfl | h
      · exact List.mem_of_find?_eq_some hd
      · exact ih h

/-! ### The distributor (R333) -/

theorem dropUnfit_of_not_degraded {s : State} (h : s.module.state ≠ .degraded) : s.dropUnfit = s := by
  refine List.foldl_fixed' (fun gi => ?_) _
  have hfit (g : Grid) : s.unfit gi g = false := by simp [State.unfit, h]
  split
  · rw [hfit]; rfl
  · rfl

theorem le_foldl_max (f : Nat → Nat) (l : List Nat) (m : Nat) :
    m ≤ l.foldl (fun m q => max m (f q)) m ∧ ∀ q ∈ l, f q ≤ l.foldl (fun m q => max m (f q)) m := by
  induction l generalizing m with
  | nil => exact ⟨Nat.le_refl m, nofun⟩
  | cons x l ih =>
    obtain ⟨hm, hl⟩ := ih (max m (f x))
    refine ⟨(Nat.le_max_left ..).trans hm, fun q hq => ?_⟩
    rcases List.mem_cons.mp hq with rfl | hq
    · exact (Nat.le_max_right ..).trans hm
    · exact hl q hq

/-- The distributor serves a queue whose priority no grid that it may serve exceeds. -/
theorem distributorQueue_top {s : State} {q : Nat} (hq : s.distributorQueue = some q) {g : Grid} (hg : g ∈ s.grids)
    (hmay : s.mayDistribute (s.grids.idxOf g) g = true) : qdPri (s.queue g.queue) ≤ qdPri (s.queue q) := by
  have hlevel := List.find?_some hq
  simp only [List.contains_iff_mem, List.mem_filter, decide_eq_true_eq] at hlevel
  have hzip : (g, s.grids.idxOf g) ∈ s.grids.zipIdx :=
    List.mem_zipIdx_iff_getElem?.mpr (List.getElem?_idxOf hg)
  rw [hlevel.2]
  refine (le_foldl_max (fun q => qdPri (s.queue q)) _ 0).2 g.queue (List.mem_dedup.mpr (List.mem_map.mpr ?_))
  exact ⟨_, List.mem_filter.mpr ⟨hzip, hmay⟩, rfl⟩

/-- What the distributor leaves when it gives a die the next gang of a grid (R333). -/
def State.withGang (s : State) (die q gi : Nat) (g : Grid) : State :=
  { s.updGrid gi fun g' => { g' with status := .live, nextCrew := g'.nextCrew + (s.nextGang gi g).length } with
    crews := s.crews ++ (s.nextGang gi g).zipIdx.map fun x => State.newCrew g gi (g.nextCrew + x.2) s.gangs.length x.1
    gangs := s.gangs ++ [⟨gi, s.gangsOf gi, (List.range (s.nextGang gi g).length).map fun i => s.crews.length + i, die,
      s.orderNext, 0, false, false⟩]
    orderNext := s.orderNext + 1
    robin := s.robin.set (qdPri (s.queue q)) ((q + 1) % Config.queues) }

theorem exec_distributeGang (die : Nat) (s : State) : exec (.distributeGang die) s = execDistributeGang die s := rfl

theorem execDistributeGang_eq {die q gi : Nat} {s r : State} {g : Grid} (hr : s.dropUnfit = r) (hq : r.distributorQueue = some q)
    (hgi : r.grids.findIdx? (fun g => g.queue == q && r.mayDistribute (r.grids.idxOf g) g) = some gi)
    (hg : r.grids[gi]? = some g) (hworks : r.works = true) (hdie : r.dieOk gi g die = true) :
    execDistributeGang die s = .next (r.withGang die q gi g) := by
  unfold execDistributeGang
  simp only [hr]
  simp only [hq, hgi, hg, hworks, hdie, Bool.not_true, Bool.or_self, Bool.false_eq_true, if_false]
  rfl

/-- The new crews of a gang stand behind the crews before them, numbered on. -/
theorem withGang_crew {s : State} {gi i : Nat} {g : Grid} (die q : Nat) (hi : i < (s.nextGang gi g).length) :
    (s.withGang die q gi g).crews[s.crews.length + i]? =
      some (State.newCrew g gi (g.nextCrew + i) s.gangs.length (s.nextGang gi g)[i]) := by
  simp only [State.withGang]
  rw [List.getElem?_append_right (Nat.le_add_right ..), Nat.add_sub_cancel_left, List.getElem?_map, List.getElem?_zipIdx,
    List.getElem?_eq_getElem hi, Nat.zero_add]
  rfl

theorem withGang_grid {s : State} {gi : Nat} {g : Grid} (die q : Nat) (hg : s.grids[gi]? = some g) :
    (s.withGang die q gi g).grids[gi]? =
      some { g with status := .live, nextCrew := g.nextCrew + (s.nextGang gi g).length } := by
  simp [State.withGang, hg]

/-! ### The placement unit (R339) -/

theorem exec_placeGang (die : Nat) (s : State) : exec (.placeGang die) s = execPlaceGang die s := rfl

/-- The unit places the first gang that waits, where it fits: it has passed none. -/
theorem execPlaceGang_eq {die k : Nat} {s r : State} {ks : List Nat} {x : Gang} {cores : List Nat}
    (hr : s.releaseOver.dropUnfit = r) (hks : r.waitingGangs die = k :: ks) (hx : r.gangs[k]? = some x)
    (hfit : r.gangFit k = some cores) (hworks : r.works = true) :
    execPlaceGang die s = .next ((((r.unplaced x).zip cores).foldl (fun s' y => s'.placeCrew y.1 y.2)
      (r.fixCode x.grid)).updGang k fun x => { x with placed := true, started := true }) := by
  have hfound (b : Bool) : (if b then (k :: ks).take 1 else k :: ks).find? (fun k => (r.gangFit k).isSome) = some k := by
    cases b <;> simp [hfit]
  simp only [execPlaceGang, hr, hks, hfound, hworks, hx, hfit]
  simp

/-! ### A crew at its start (R109, R159, R338) -/

/-- Every register of a crew that starts is zero. -/
theorem reg_zero_of_mem_replicate {n t : Nat} {x : Reg} (h : x ∈ List.replicate n (Reg.zero t)) :
    x.prim = 0 ∧ x.tan = List.replicate t 0 := by
  rw [List.eq_of_mem_replicate h]
  exact ⟨rfl, rfl⟩

/-- A lane of a crew that starts (R109, R159, R338). -/
def Crew.startLane (cr : Crew) (i : Nat) : Lane :=
  { v := List.replicate (pktC cr.packet) (Reg.zero (pktT cr.packet)), q := List.replicate 8 (Reg.zero (pktT cr.packet))
    key := crewKey cr i 0 0, ctr := 0
    occ := if i < pktN cr.packet then .thread (Thread.fresh i (pktEntry cr.packet)) else .never }

theorem start_lanes (cr : Crew) (core slot : Nat) (u : List Dword) :
    (cr.start core slot u).lanes = (List.range (16 * pktH cr.packet)).map cr.startLane := rfl

theorem start_lane {cr : Crew} {core slot : Nat} {u : List Dword} {i : Nat} {l : Lane}
    (h : (cr.start core slot u).lanes[i]? = some l) : l = cr.startLane i := by
  rw [start_lanes, List.getElem?_map, Option.map_eq_some_iff] at h
  obtain ⟨j, hj, rfl⟩ := h
  obtain ⟨_, hji⟩ := List.getElem?_eq_some_iff.mp hj
  rw [← hji, List.getElem_range]

theorem startLane_thread {cr : Crew} {i : Nat} (h : i < pktN cr.packet) :
    (cr.startLane i).occ = .thread (Thread.fresh i (pktEntry cr.packet)) := if_pos h

theorem startLane_never {cr : Crew} {i : Nat} (h : pktN cr.packet ≤ i) : (cr.startLane i).occ = .never :=
  if_neg (Nat.not_lt.mpr h)

theorem startLane_registers {cr : Crew} {i : Nat} {x : Reg} (h : x ∈ (cr.startLane i).v ++ (cr.startLane i).q) :
    x.prim = 0 ∧ x.tan = List.replicate (pktT cr.packet) 0 :=
  (List.mem_append.mp h).elim reg_zero_of_mem_replicate reg_zero_of_mem_replicate

/-! ### Crew slots (R196, R338) -/

/-- A placed crew starts in the free slot of its core, or takes that slot to be restored, and the slot's generation
counts on. -/
theorem placeCrew_crew {s : State} {ci : Nat} {cr : Crew} (core : Nat) (h : s.crews[ci]? = some cr) :
    (s.placeCrew ci core).crews[ci]? = some (if cr.saveArea.isSome then
      { cr with status := .resuming, core := core, cslot := s.freeCrewSlot core }
      else cr.start core (s.freeCrewSlot core) ((s.uniforms cr).getD [])) := by
  simp only [State.placeCrew, h]
  split <;> simp [h]

theorem placeCrew_gens {s : State} {ci : Nat} {cr : Crew} (core : Nat) (h : s.crews[ci]? = some cr) :
    (s.placeCrew ci core).gens = Sparse.set s.gens (256 * core + s.freeCrewSlot core)
      (Sparse.get s.gens (256 * core + s.freeCrewSlot core) + 1) := by
  simp only [State.placeCrew, h]
  split <;> rfl

/-- A crew holds slot `k` of a core. -/
def State.slotTaken (s : State) (core k : Nat) : Prop :=
  ∃ cr ∈ s.crews, (cr.status = .resident ∨ cr.status = .resuming) ∧ cr.core = core ∧ cr.cslot = k

theorem slotTaken_iff (s : State) (core k : Nat) : s.slotTaken core k ↔
    (s.crews.any fun cr => (cr.status == .resident || cr.status == .resuming) && cr.core == core && cr.cslot == k) = true := by
  simp [State.slotTaken, and_assoc]

/-- The free slot of a core that has one is its lowest. -/
theorem freeCrewSlot_lowest {s : State} {core : Nat} (h : ∃ k < Config.groupSlots, ¬ s.slotTaken core k) :
    ¬ s.slotTaken core (s.freeCrewSlot core) ∧ ∀ k < s.freeCrewSlot core, s.slotTaken core k := by
  obtain ⟨k, hk, hfree⟩ := h
  rw [slotTaken_iff, Bool.not_eq_true] at hfree
  have hsome : ((List.range Config.groupSlots).find? fun k => !s.crews.any fun cr =>
      (cr.status == .resident || cr.status == .resuming) && cr.core == core && cr.cslot == k).isSome := by
    rw [List.find?_isSome]
    exact ⟨k, List.mem_range.mpr hk, by rw [hfree]; rfl⟩
  obtain ⟨m, hm⟩ := Option.isSome_iff_exists.mp hsome
  have hslot : s.freeCrewSlot core = m := by rw [State.freeCrewSlot, hm]; rfl
  obtain ⟨hfreem, -, hbelow⟩ := List.find?_range_eq_some.mp hm
  simp only [hslot, slotTaken_iff]
  exact ⟨by simpa using hfreem, fun j hj => by simpa using hbelow j hj⟩

end Sys2Proof.Machine

open Sys2Proof Sys2Proof.Machine

/-- Settles O43: each clause is what the distributor, first fit, a crew's start or its slot does. -/
theorem placement : Obligations.Placement := by
  unfold Obligations.Placement
  refine ⟨?_, fun _ => dropUnfit_of_not_degraded, fun _ _ hq _ hg hmay => distributorQueue_top hq hg hmay, ?_,
    fun _ _ _ hg hnew => fixCode_grid hg hnew, firstFit_cons,
    fun _ _ _ _ => ⟨firstFit_length_le .., fun _ => mem_of_mem_firstFit⟩, ?_, ?_, fun _ _ => freeCrewSlot_lowest⟩
  · intro die s q gi g
    generalize hr : s.dropUnfit = r
    intro r' hq hgi hg hworks hdie
    rw [exec_distributeGang, execDistributeGang_eq hr hq hgi hg hworks hdie]
    refine ⟨r.withGang die q gi g, rfl, rfl, ?_, rfl,
      ⟨_, withGang_grid die q hg, rfl, rfl⟩, ⟨_, rfl, rfl, rfl, rfl, rfl, rfl⟩,
      fun i hi => ⟨_, withGang_crew die q hi, rfl, rfl, rfl, rfl, rfl⟩⟩
    simp [State.withGang, r']
  · intro die s k ks x cores
    generalize hr : s.releaseOver.dropUnfit = r
    intro r' hks hx hfit hworks
    rw [exec_placeGang]
    exact execPlaceGang_eq hr hks hx hfit hworks
  · intro cr core slot u
    refine ⟨rfl, rfl, rfl, rfl, by simp [start_lanes], rfl, rfl, fun _ => List.eq_of_mem_replicate,
      fun _ => List.eq_of_mem_replicate, fun i l hl => ?_⟩
    rw [start_lane hl]
    exact ⟨fun _ => startLane_registers, List.length_replicate .., List.length_replicate .., rfl, rfl,
      fun h => ⟨_, startLane_thread h, rfl, rfl, rfl, rfl, rfl, rfl⟩, startLane_never⟩
  · intro ci core s cr hc hwf
    refine ⟨placeCrew_crew core hc, ?_⟩
    simp only [placeCrew_gens core hc, Sparse.get_set _ _ _ _ hwf, if_true]
end

section
/-!
PROOFS. The host (R191, R372, R373, R374, R397): BAR0, the waiters that a release fires, and accesses to device memory.
-/

namespace Sys2Proof.Machine

open Sys2Proof State

/-! ### BAR0 (R373, R374) -/

theorem exec_doorbell (vf j : Nat) (v : BitVec 64) (s : State) : exec (.doorbell vf j v) s = execDoorbell vf j v s := rfl
theorem exec_regw (vf : Nat) (v : BitVec 64) (s : State) : exec (.regw vf v) s = execRegw vf v s := rfl
theorem exec_regstRead (vf : Nat) (s : State) : exec (.regstRead vf) s = execRegstRead vf s := rfl
theorem exec_bar0ReservedWrite (vf off : Nat) (v : Option (BitVec 64)) (s : State) :
    exec (.bar0ReservedWrite vf off v) s = execBar0ReservedWrite vf off v s := rfl
theorem exec_hostDeviceMemoryAccess (part : Nat) (addr : BitVec 56) (len : Nat) (data : Option (List (BitVec 8))) (s : State) :
    exec (.hostDeviceMemoryAccess part addr len data) s = execHostDeviceMemoryAccess part addr len data s := rfl

theorem slotQueue_some {s : State} {f : Vf} {j q : Nat} (hslot : f.slots[j]? = some q) (hj : j < Config.queues)
    (hq : q < Config.queues) (hpart : qdPart (s.queue q) = f.part) : slotQueue s f j = some q := by
  simp only [slotQueue, hslot, Option.bind_some]
  exact if_pos ⟨hj, hq, hpart⟩

theorem slotQueue_none {s : State} {f : Vf} {j : Nat} (hslot : f.slots[j]? = none) : slotQueue s f j = none := by
  simp only [slotQueue, hslot, Option.bind_none]

/-- A served queue takes the WPTR that is written (R332). -/
theorem ringQueue_of_served {s : State} {q : Nat} (v : Nat) (hen : qdEn (s.queue q) = true) (herr : qdErr (s.queue q) = false) :
    s.ringQueue q v = s.setQueue q (qdChecked (setBits (s.queue q) 127 96 v)) := by
  simp [State.ringQueue, hen, herr]

section
variable {vf i : Nat} {v : BitVec 64} {s : State} {f : Vf} (hf : vfOf s vf = some (i, f))
include hf

theorem execDoorbell_of_slot {j q : Nat} (hslot : slotQueue s f j = some q) (hworks : s.works = true) :
    execDoorbell vf j v s = .next (s.ringQueue q (v.toNat % 2 ^ 32)) := by
  simp only [execDoorbell, hf, hslot, hworks, if_true]

theorem execDoorbell_of_no_slot {j : Nat} (hslot : slotQueue s f j = none) : execDoorbell vf j v s = .next s := by
  simp only [execDoorbell, hf, hslot]

/-- A registration of bad form is ignored (R374). -/
theorem execRegw_of_bad (hbad : bitsOf v 2 0 ≠ 0 ∨ 63 < bitsOf v 63 56) : execRegw vf v s = .next s := by
  simp only [execRegw, hf]
  exact if_pos (hbad.elim .inl fun h => .inr (.inl h))

/-- A registration of good form is taken where the function has room, and sets FULL where it has none (R374). -/
theorem execRegw_of_good (hworks : s.works = true) (hpart : f.part ≠ none) (halign : bitsOf v 2 0 = 0)
    (hvec : bitsOf v 63 56 ≤ 63) : execRegw vf v s =
      if Config.registrations ≤ f.waiters.length then .next { s with vfs := s.vfs.set i { f with full := true } }
      else .next { s with vfs := s.vfs.set i { f with
        waiters := f.waiters ++ [(BitVec.ofNat 56 (bitsOf v 55 0), BitVec.ofNat 6 (bitsOf v 63 56))] } } := by
  simp only [execRegw, hf]
  exact if_neg (by simp [hworks, hpart, halign, hvec])

theorem execRegstRead_eq : execRegstRead vf s = .next { s with
    vfs := s.vfs.set i { f with full := false }
    out := .regst (BitVec.ofNat 64 (f.waiters.length + if f.full then 2 ^ 16 else 0)) :: s.out } := by
  have hfull : f.full.toNat * 2 ^ 16 = if f.full then 2 ^ 16 else 0 := by cases f.full <;> rfl
  simp only [execRegstRead, hf, hfull]
  rfl

end

/-! ### Waiters (R374) -/

namespace State

/-- Whether a registered address is, for a partition, in the 8-byte word of a physical address. -/
def onWord (s : State) (p pa : Nat) (w : BitVec 56) : Bool := (s.devPa p w.toNat).any fun x => x / 8 == pa / 8

/-- The vectors of a function's waiters on a word. -/
def hits (s : State) (p pa : Nat) (f : Vf) : List (BitVec 6) :=
  if f.part = some p then (f.waiters.filter fun w => s.onWord p pa w.1).map Prod.snd else []

/-- The messages that a release to a word sends: to the functions, then to the peers. -/
def fireMsgs (s : State) (p pa : Nat) : List Output :=
  (s.vfs.flatMap fun f => (s.hits p pa f).map fun n => Output.msix f.id n.toNat) ++
    ((s.part p).peerRegs.filter fun r => s.onWord p pa r.target).map fun r =>
      Output.wake (s.controlRoute p r.rsq.toNat) r.rsq r.mirror (BitVec.ofNat 64 (s.mem.nat (pa / 8 * 8) 8))

/-- A function whose waiters on a word have fired. -/
def firedVf (s : State) (p pa : Nat) (f : Vf) : Vf :=
  if f.part = some p then { f with waiters := f.waiters.filter fun w => !s.onWord p pa w.1 } else f

theorem fireAt_eq (s : State) (p pa : Nat) : s.fireAt p pa =
    if (s.fireMsgs p pa).isEmpty then s
    else { (s.publish.updPart p fun P => { P with peerRegs := P.peerRegs.filter fun r => !s.onWord p pa r.target }) with
      vfs := s.vfs.map (s.firedVf p pa), out := (s.fireMsgs p pa).reverse ++ s.out } := rfl

theorem msix_mem_fireMsgs {s : State} {p pa : Nat} {f : Vf} {w : BitVec 56 × BitVec 6} (hf : f ∈ s.vfs) (hp : f.part = some p)
    (hw : w ∈ f.waiters) (hon : s.onWord p pa w.1 = true) : Output.msix f.id w.2.toNat ∈ s.fireMsgs p pa := by
  have hhit : w.2 ∈ s.hits p pa f := by
    rw [hits, if_pos hp]
    exact List.mem_map.mpr ⟨w, List.mem_filter.mpr ⟨hw, hon⟩, rfl⟩
  exact List.mem_append_left _ (List.mem_flatMap.mpr ⟨f, hf, List.mem_map.mpr ⟨w.2, hhit, rfl⟩⟩)

/-- Where a release sends nothing, no function has a waiter on the word. -/
theorem firedVf_of_no_msgs {s : State} {p pa : Nat} {f : Vf} (hnone : s.fireMsgs p pa = []) (hf : f ∈ s.vfs) :
    s.firedVf p pa f = f := by
  rw [firedVf]
  split
  · next hp =>
    have hall : f.waiters.filter (fun w => !s.onWord p pa w.1) = f.waiters := by
      refine List.filter_eq_self.mpr fun w hw => ?_
      cases hon : s.onWord p pa w.1 with
      | false => rfl
      | true => exact absurd (msix_mem_fireMsgs hf hp hw hon) (by simp [hnone])
    rw [hall]
  · rfl

theorem fireAt_vfs (s : State) (p pa : Nat) : (s.fireAt p pa).vfs = s.vfs.map (s.firedVf p pa) := by
  rw [fireAt_eq]
  split
  · next hnone =>
    rw [List.map_congr_left fun f hf => firedVf_of_no_msgs (List.isEmpty_iff.mp hnone) hf]
    exact (List.map_id' _).symm
  · rfl

theorem mem_fireAt_out {s : State} {p pa : Nat} {m : Output} (hm : m ∈ s.fireMsgs p pa) : m ∈ (s.fireAt p pa).out := by
  rw [fireAt_eq, if_neg (by simpa using List.ne_nil_of_mem hm)]
  exact List.mem_append_left _ (List.mem_reverse.mpr hm)

theorem fireAt_crews (s : State) (p pa : Nat) : (s.fireAt p pa).crews = s.crews := by
  rw [fireAt_eq]
  split <;> rfl

/-! ### What follows a write by the host (R61, R191, R372, R380, R389) -/

/-- The doorbells of collective rings mark the rings, and change nothing else. -/
theorem ringWhere_rung (s : State) (p : Nat) (here : Nat → Bool) : ∃ R, s.ringWhere p here = { s with rung := R } := by
  unfold ringWhere
  split
  · exact ⟨s.rung, rfl⟩
  · exact ⟨_, rfl⟩

theorem foldl_ringTails_rung (l : List Nat) (s : State) :
    ∃ R, l.foldl (fun s p => s.ringTails p) s = { s with rung := R } := by
  induction l generalizing s with
  | nil => exact ⟨s.rung, rfl⟩
  | cons p l ih =>
    obtain ⟨R, hR⟩ := ringWhere_rung s p fun _ => true
    obtain ⟨R', hR'⟩ := ih { s with rung := R }
    exact ⟨R', by rw [List.foldl_cons, ringTails, hR, hR']⟩

theorem performed_sys_codeMem (s : State) (p : Nat) : (s.performed p 3).codeMem = s.mem := by
  obtain ⟨R, hR⟩ := ringWhere_rung s.publish p fun _ => true
  have hperf : s.performed p 3 = { s.publish with rung := R } := hR
  rw [hperf]
  rfl

/-- A release at .dev fires the waiters on its word. -/
theorem fireWaiters_dev {s : State} {p va pa : Nat} (hw : isWindow va = false) (hpa : (s.performed p 2).devPa p va = some pa) :
    s.fireWaiters p va 2 = (s.performed p 2).fireAt p pa := by
  simp [fireWaiters, hw, hpa]

end State

/-- A partition's context as memory holds it, with the clusters that its start gave it (R388, R389). -/
def contextRead (m : Memory) (p : Nat) (P : Partition) : Partition :=
  ({ P with ctx := BitVec.ofNat 1024 (m.nat (Config.contextAt p) 128) } : Partition).setAt 8 8 (P.at 8 8)

/-- Whether a context was written, as `f` says, that a start would reject. -/
def contextRejected (f : Nat → Bool) (s : State) (p : Nat) (P : Partition) : Bool :=
  f p && contextBad (vfsOf s.vfs p) (contextRead s.mem p P)

/-- A partition with the context that memory holds: a log ring that it moves starts empty. -/
def contextLoaded (m : Memory) (p : Nat) (P : Partition) : Partition :=
  { contextRead m p P with logged := if (contextRead m p P).at 40 12 = P.at 40 12 then P.logged else 0 }

theorem setAt_up (P : Partition) (byte n v : Nat) : (P.setAt byte n v).up = P.up := rfl

theorem contextRead_up (m : Memory) (p : Nat) (P : Partition) : (contextRead m p P).up = P.up := by
  rw [contextRead, setAt_up]

theorem contextLoaded_ctx (m : Memory) (p : Nat) (P : Partition) : (contextLoaded m p P).ctx = (contextRead m p P).ctx := rfl

theorem contextLoaded_up (m : Memory) (p : Nat) (P : Partition) : (contextLoaded m p P).up = P.up := contextRead_up m p P

/-- The rejections that a write adds. -/
def newlyRejected (f : Nat → Bool) (s : State) : List Nat :=
  ((s.parts.zipIdx.filter fun x => contextRejected f s x.2 x.1).map Prod.snd).filter fun p => !s.module.rejected.contains p

theorem reloadIf_eq (f : Nat → Bool) (s : State) : reloadIf f s = { s with
    parts := s.parts.mapIdx fun p P => if f p && !contextRejected f s p P then contextLoaded s.mem p P else P
    module := { s.module with rejected := s.module.rejected ++ newlyRejected f s } } := rfl

section
variable {f : Nat → Bool} {s : State}

theorem reloadIf_part {p : Nat} {P : Partition} (hP : s.parts[p]? = some P) : (reloadIf f s).parts[p]? =
    some (if f p && !contextRejected f s p P then contextLoaded s.mem p P else P) := by
  rw [reloadIf_eq, List.getElem?_mapIdx, hP]
  rfl

/-- Where no context was written, none is read. -/
theorem reloadIf_of_none (hnone : ∀ p < s.parts.length, f p = false) :
    (reloadIf f s).parts = s.parts ∧ (reloadIf f s).module = s.module := by
  have hnew : newlyRejected f s = [] := by
    have hall : (s.parts.zipIdx.filter fun x => contextRejected f s x.2 x.1) = [] := by
      refine List.filter_eq_nil_iff.mpr fun x hx => ?_
      rw [contextRejected, hnone x.2 (List.snd_lt_of_mem_zipIdx hx)]
      exact Bool.false_ne_true
    rw [newlyRejected, hall]
    rfl
  refine ⟨List.ext_getElem? fun p => ?_, by rw [reloadIf_eq, hnew, List.append_nil]⟩
  cases hP : s.parts[p]? with
  | none => simp [reloadIf_eq, hP]
  | some P => simp [reloadIf_part hP, hnone p (List.getElem?_eq_some_iff.mp hP).1]

variable {p : Nat} {P : Partition} (hP : s.parts[p]? = some P) (hf : f p = true)
include hP hf

/-- A written context that a start would reject is rejected, and the one before it stands. -/
theorem reloadIf_of_bad (hbad : contextBad (vfsOf s.vfs p) (contextRead s.mem p P) = true) :
    (reloadIf f s).parts[p]? = some P ∧ p ∈ (reloadIf f s).module.rejected := by
  have hrej : contextRejected f s p P = true := by rw [contextRejected, hf, hbad]; rfl
  refine ⟨by simp [reloadIf_part hP, hrej], ?_⟩
  rw [reloadIf_eq]
  by_cases hold : p ∈ s.module.rejected
  · exact List.mem_append_left _ hold
  · have hzip : (P, p) ∈ s.parts.zipIdx := List.mem_zipIdx_iff_getElem?.mpr hP
    have hlisted : p ∈ (s.parts.zipIdx.filter fun x => contextRejected f s x.2 x.1).map Prod.snd :=
      List.mem_map.mpr ⟨(P, p), List.mem_filter.mpr ⟨hzip, hrej⟩, rfl⟩
    exact List.mem_append_right _ (List.mem_filter.mpr ⟨hlisted, by simpa using hold⟩)

/-- A written context that a start would take is read. -/
theorem reloadIf_of_good (hgood : contextBad (vfsOf s.vfs p) (contextRead s.mem p P) = false) :
    (reloadIf f s).parts[p]? = some (contextLoaded s.mem p P) := by
  have hrej : contextRejected f s p P = false := by rw [contextRejected, hgood, Bool.and_false]
  simp [reloadIf_part hP, hrej, hf]

end

section
variable {s : State} {a n p : Nat} {P : Partition} (hP : s.parts[p]? = some P) (hlo : a < Config.contextAt p + 128)
  (hhi : Config.contextAt p < a + n)
include hP hlo hhi

theorem reloadContexts_of_bad (hbad : contextBad (vfsOf s.vfs p) (contextRead s.mem p P) = true) :
    (reloadContexts a n s).parts[p]? = some P ∧ p ∈ (reloadContexts a n s).module.rejected :=
  reloadIf_of_bad hP (decide_eq_true ⟨hlo, hhi⟩) hbad

theorem reloadContexts_of_good (hgood : contextBad (vfsOf s.vfs p) (contextRead s.mem p P) = false) :
    (reloadContexts a n s).parts[p]? = some (contextLoaded s.mem p P) :=
  reloadIf_of_good hP (decide_eq_true ⟨hlo, hhi⟩) hgood

end

/-- What follows a write re-reads the contexts that it meets, and then changes descriptors and marked rings alone. -/
theorem afterWrite_eq (a n : Nat) (before s : State) : ∃ D R, afterWrite a n before s =
    { reloadContexts a n s with desc := D, rung := R } ∧ D = (before.freshTyped (reloadContexts a n s)).desc := by
  obtain ⟨R, hR⟩ := foldl_ringTails_rung (List.range s.parts.length) (before.freshTyped (reloadContexts a n s))
  refine ⟨_, R, ?_, rfl⟩
  rw [afterWrite, hR, freshTyped_desc]

/-- The host reads memory as it stands, and a poisoned block as poison (R372, R397). -/
theorem execHostDeviceMemoryAccess_read {part len : Nat} {addr : BitVec 56} {s : State} (hok : physOk addr.toNat len = true) :
    execHostDeviceMemoryAccess part addr len none s = .next { s with
      out := (if 0 < len ∧ s.poisoned addr.toNat len = true then .hostPoison else .hostData (s.mem.read addr.toNat len)) ::
        s.out } := by
  simp only [execHostDeviceMemoryAccess, hok, Bool.not_true, Bool.false_eq_true, if_false, Bool.and_eq_true, decide_eq_true_eq]
  split <;> rfl

theorem execHostDeviceMemoryAccess_write {part len : Nat} {addr : BitVec 56} {bs : List Byte} {s : State}
    (hok : physOk addr.toNat bs.length = true) : execHostDeviceMemoryAccess part addr len (some bs) s =
      .next (afterWrite addr.toNat bs.length s (s.hostStore addr.toNat bs)) := by
  simp only [execHostDeviceMemoryAccess, hok, Bool.not_true, Bool.false_eq_true, if_false]

/-- A block is poisoned after a write where it was and the write does not cover it whole (R397). -/
theorem mem_hostStore_poison {s : State} {pa b : Nat} {bs : List Byte} : b ∈ (s.hostStore pa bs).poison ↔
    b ∈ s.poison ∧ ¬ (pa ≤ 64 * b ∧ 64 * b + 64 ≤ pa + bs.length) := by
  have hpoison : (s.hostStore pa bs).poison =
    s.poison.filter fun b => !decide (pa ≤ 64 * b ∧ 64 * b + 64 ≤ pa + bs.length) := rfl
  rw [hpoison, List.mem_filter, Bool.not_eq_true', decide_eq_false_iff_not]

/-- What the host's write of `bs` at `pa` leaves: its bytes in memory and in the fetched code, crews, cores and poison, the
descriptors that stay, and the contexts that it meets or does not. -/
theorem hostWrite_result (s : State) (pa : Nat) (bs : List Byte) :
    ∃ t, afterWrite pa bs.length s (s.hostStore pa bs) = t ∧ t.mem = s.mem.write pa bs ∧
      t.codeMem = s.codeMem.write pa bs ∧ t.crews = s.crews ∧ t.cores = s.cores ∧ t.poison = (s.hostStore pa bs).poison ∧
      t.parts = (reloadContexts pa bs.length (s.hostStore pa bs)).parts ∧
      t.module = (reloadContexts pa bs.length (s.hostStore pa bs)).module ∧
      t.desc = (s.freshTyped (reloadContexts pa bs.length (s.hostStore pa bs))).desc := by
  obtain ⟨D, R, ht, hD⟩ := afterWrite_eq pa bs.length s (s.hostStore pa bs)
  exact ⟨_, ht, rfl, rfl, rfl, rfl, rfl, rfl, rfl, hD⟩

end Sys2Proof.Machine

open Sys2Proof Sys2Proof.Machine

/-- Settles O45: BAR0's registers by their own equations, the waiters by `fireAt_eq`, and the host's writes by what follows
them (`hostWrite_result`, `reloadIf_eq`). -/
theorem hostEvents : Obligations.HostEvents := by
  unfold Obligations.HostEvents
  refine ⟨?_, ?_, ?_, ?_, ?_, ?_, ?_, ?_, ?_, ?_⟩
  · intro vf j v s i f q hf hslot hj hq hpart hworks hen herr
    rw [exec_doorbell, execDoorbell_of_slot hf (slotQueue_some hslot hj hq hpart) hworks, ringQueue_of_served _ hen herr]
    rfl
  · intro vf j v s i f hf hslot
    rw [exec_doorbell, execDoorbell_of_no_slot hf (slotQueue_none hslot)]
  · intro vf v s i f hf hworks hpart halign hvec
    rw [exec_regw, execRegw_of_good hf hworks hpart halign hvec]
    exact ⟨fun hroom => if_neg (Nat.not_le.mpr hroom), fun hfull => if_pos hfull⟩
  · intro vf v s i f hf hbad
    rw [exec_regw, execRegw_of_bad hf hbad]
  · intro vf s i f hf
    rw [exec_regstRead, execRegstRead_eq hf]
  · exact fun vf off v s => ⟨exec_bar0ReservedWrite vf off (some v) s, exec_bar0ReservedWrite vf off none s⟩
  · intro s p pa
    exact ⟨State.fireAt_vfs s p pa, fun f hf hp w hw hon => State.mem_fireAt_out (State.msix_mem_fireMsgs hf hp hw hon),
      (State.fireAt_mem s p pa).1, State.fireAt_crews s p pa⟩
  · intro s p va
    exact ⟨rfl, rfl, State.performed_sys_codeMem s p, fun pa hw hpa => State.fireWaiters_dev hw hpa⟩
  · intro part addr len s hok
    rw [exec_hostDeviceMemoryAccess, execHostDeviceMemoryAccess_read hok]
  · intro part addr len bs s hok
    rw [exec_hostDeviceMemoryAccess, execHostDeviceMemoryAccess_write hok]
    obtain ⟨t, ht, hmem, hcode, hcrews, hcores, hpoison, hparts, hmodule, hdesc⟩ := hostWrite_result s addr.toNat bs
    have hstay (x : Nat × BitVec 16) (hx : x ∈ t.desc) := (mem_freshTyped_desc _ _ x).mp (hdesc ▸ hx)
    have htyped : t.typedNow = (reloadContexts addr.toNat bs.length (s.hostStore addr.toNat bs)).typedNow := by
      rw [State.typedNow, State.typedNow, hparts, hmem]
      rfl
    refine ⟨t, by rw [ht], hmem, hcode, hcrews, hcores, fun x hx => (hstay x hx).1,
      fun x hx hnew => (hstay x hx).2.resolve_right fun hold => hold (htyped ▸ hnew),
      fun b => by rw [hpoison, mem_hostStore_poison], fun hnone => ?_, fun p P hP hlo hhi => ?_⟩
    · rw [hparts, hmodule]
      exact reloadIf_of_none fun p hp => decide_eq_false (hnone p hp)
    · have hP' : (s.hostStore addr.toNat bs).parts[p]? = some P := hP
      intro Q
      have hQ : Q = contextRead (s.hostStore addr.toNat bs).mem p P := rfl
      rw [hparts, hmodule, hQ]
      have hrejected := reloadContexts_of_bad hP' hlo hhi
      exact ⟨hrejected,
        fun hgood => ⟨_, reloadContexts_of_good hP' hlo hhi hgood, contextLoaded_ctx .., contextLoaded_up ..⟩⟩
end

section
/-!
PROOFS. The integer and logic words of one and two sources (R111-R113).
-/

namespace Sys2Proof.Machine

open Sys2Proof

/-! ### The integer operations, as R111 and R113 state them -/

/-- The lesser of two words, by a reading `g` that `r` undoes. -/
theorem pick_min {α β : Type} [LinearOrder β] {g : α → β} {r : β → α} (hr : ∀ a, r (g a) = a) (x y : α) :
    (if g y < g x then y else x) = r (min (g x) (g y)) := by
  split
  · next h => rw [min_eq_right h.le, hr]
  · next h => rw [min_eq_left (not_lt.mp h), hr]

/-- The greater of two words, likewise. -/
theorem pick_max {α β : Type} [LinearOrder β] {g : α → β} {r : β → α} (hr : ∀ a, r (g a) = a) (x y : α) :
    (if g x < g y then y else x) = r (max (g x) (g y)) := by
  split
  · next h => rw [max_eq_right h.le, hr]
  · next h => rw [max_eq_left (not_lt.mp h), hr]

theorem ofNat_toNat_self {w : Nat} (x : BitVec w) : BitVec.ofNat w x.toNat = x := by
  rw [BitVec.ofNat_toNat, BitVec.setWidth_eq]

section
variable {w : Nat} (x y : BitVec w)

theorem minS_eq_ofInt : minS x y = BitVec.ofInt w (min x.toInt y.toInt) :=
  (if_congr BitVec.slt_iff_toInt_lt rfl rfl).trans (pick_min (fun _ => BitVec.ofInt_toInt) x y)

theorem maxS_eq_ofInt : maxS x y = BitVec.ofInt w (max x.toInt y.toInt) :=
  (if_congr BitVec.slt_iff_toInt_lt rfl rfl).trans (pick_max (fun _ => BitVec.ofInt_toInt) x y)

theorem minU_eq_ofNat : minU x y = BitVec.ofNat w (min x.toNat y.toNat) :=
  (if_congr BitVec.ult_iff_toNat_lt rfl rfl).trans (pick_min ofNat_toNat_self x y)

theorem maxU_eq_ofNat : maxU x y = BitVec.ofNat w (max x.toNat y.toNat) :=
  (if_congr BitVec.ult_iff_toNat_lt rfl rfl).trans (pick_max ofNat_toNat_self x y)

theorem absS_eq_ofInt : absS x = BitVec.ofInt w |x.toInt| := by
  simp only [absS, BitVec.msb_eq_toInt, decide_eq_true_eq]
  split
  · next h => rw [abs_of_neg h, BitVec.ofInt_neg, BitVec.ofInt_toInt]
  · next h => rw [abs_of_nonneg (not_lt.mp h), BitVec.ofInt_toInt]

theorem mulhS_eq_ofInt : mulhS x y = BitVec.ofInt w (x.toInt * y.toInt / 2 ^ w) := by
  rw [mulhS, Nat.cast_pow, Nat.cast_ofNat]

/-- A left shift by the width or more gives zero, as the shift of bit vectors does. -/
theorem ite_shiftLeft (n : Nat) : (if w ≤ n then 0 else x <<< n) = x <<< n := by
  split
  · next h => exact (BitVec.shiftLeft_eq_zero h).symm
  · rfl

end

/-- A clamp by cases: the value cut to its range, and whether it lay outside. -/
theorem clamp_eq {w : Nat} {lo hi : Int} (hle : lo ≤ hi) (z : Int) :
    (if z < lo then (BitVec.ofInt w lo, true) else if hi < z then (BitVec.ofInt w hi, true) else (BitVec.ofInt w z, false)) =
      (BitVec.ofInt w (max lo (min hi z)), decide (z < lo ∨ hi < z)) := by
  split
  · next hlow => simp [hlow, max_eq_left ((min_le_right hi z).trans hlow.le)]
  split
  · next hhigh => simp [hhigh, min_eq_left hhigh.le, max_eq_right hle]
  · next hlow hhigh => simp [hlow, hhigh, min_eq_right (not_lt.mp hhigh), max_eq_right (not_lt.mp hlow)]

theorem satS_eq_clamp {w : Nat} {lo hi : Int} (hlo : lo = -(2 ^ (w - 1) : Nat)) (hhi : hi = (2 ^ (w - 1) : Nat) - 1)
    (z : Int) : satS (w := w) z = (BitVec.ofInt w (max lo (min hi z)), decide (z < lo ∨ hi < z)) := by
  have hpos : 0 < 2 ^ (w - 1) := Nat.two_pow_pos _
  subst hlo hhi
  exact clamp_eq (by omega) z

theorem satU_eq_clamp {w : Nat} {hi : Int} (hhi : hi = (2 ^ w : Nat) - 1) (z : Int) :
    satU (w := w) z = (BitVec.ofInt w (max 0 (min hi z)), decide (z < 0 ∨ hi < z)) := by
  have hpos : 0 < 2 ^ w := Nat.two_pow_pos _
  subst hhi
  exact clamp_eq (by omega) z

/-! ### Words with a V result -/

/-- A ready word whose result each executing lane computes leaves the state of `vecAfter`. -/
theorem exec_vec {i : Instr} {s : State} {c : Ctx} {n wide : Bool} {d : Code} {f : Ctx → Nat → LaneOut}
    {val : Nat → Val} {flags : Nat → BitVec 6} (h : WordReady i s c) (hx : exec i s = vecWord i.info n d wide f s)
    (hf : ∀ t, f c t = { val := some (val t), flags := flags t }) :
    exec i s = .next (vecAfter s c i.last n d wide val flags) :=
  hx.trans (vecWord_next h.here h.checks h.flows val flags fun t _ => hf t)

/-- The words of one kind with one source operand, by what a lane answers. -/
theorem exec_unary {mk : Bool → Bool → Code → Code → Instr} {wide : Bool} {out : Ctx → Nat → Code → LaneOut}
    {val : Ctx → Nat → Code → Val} {flags : Ctx → Nat → Code → BitVec 6}
    (hf : ∀ c t x, out c t x = { val := some (val c t x), flags := flags c t x })
    (hx : ∀ b n d x s, exec (mk b n d x) s = vecWord (mk b n d x).info n d wide (fun c t => out c t x) s := by
      intros; rfl) (b n d x s c) (h : WordReady (mk b n d x) s c) :
    exec (mk b n d x) s = .next (vecAfter s c (mk b n d x).last n d wide (fun t => val c t x) fun t => flags c t x) :=
  exec_vec h (hx b n d x s) fun t => hf c t x

/-- The words of one kind with two source operands, likewise. -/
theorem exec_binary {mk : Bool → Bool → Code → Code → Code → Instr} {wide : Bool}
    {out : Ctx → Nat → Code → Code → LaneOut} {val : Ctx → Nat → Code → Code → Val}
    {flags : Ctx → Nat → Code → Code → BitVec 6}
    (hf : ∀ c t x y, out c t x y = { val := some (val c t x y), flags := flags c t x y })
    (hx : ∀ b n d x y s, exec (mk b n d x y) s = vecWord (mk b n d x y).info n d wide (fun c t => out c t x y) s := by
      intros; rfl) (b n d x y s c) (h : WordReady (mk b n d x y) s c) :
    exec (mk b n d x y) s =
      .next (vecAfter s c (mk b n d x y).last n d wide (fun t => val c t x y) fun t => flags c t x y) :=
  exec_vec h (hx b n d x y s) fun t => hf c t x y

/-- A saturating lane, once its clamp is known. -/
theorem satLane_of_clamp {w : Nat} (val : BitVec w → Val) {r : BitVec w × Bool} {x : BitVec w} {p : Bool}
    (hr : r = (x, p)) : ({ val := some (val r.1), flags := flagIf r.2 flagSaturation } : LaneOut) =
      { val := some (val x), flags := flagIf p flagSaturation } := by
  rw [hr]

end Sys2Proof.Machine

open Sys2Proof Sys2Proof.Machine

/-- Settles O1: each row of a table by `exec_unary` or `exec_binary`, with the law of the operation where the model writes
it otherwise than R111 does. -/
theorem integerResults : Obligations.IntegerResults := by
  unfold Obligations.IntegerResults
  simp only [List.forall_mem_cons]
  refine ⟨?sources32, ?source32, ?mov, ?sources64, ?shifts64, ?source64, ?counts64, ?mov64, ?saturating32, ?saturating64⟩
  case sources32 =>
    exact ⟨exec_binary fun _ _ _ _ => rfl, exec_binary fun _ _ _ _ => rfl, exec_binary fun _ _ _ _ => rfl,
      exec_binary fun c _ _ _ => congrArg c.int32 (mulhS_eq_ofInt _ _), exec_binary fun _ _ _ _ => rfl,
      exec_binary fun c _ _ _ => congrArg c.int32 (minS_eq_ofInt _ _),
      exec_binary fun c _ _ _ => congrArg c.int32 (minU_eq_ofNat _ _),
      exec_binary fun c _ _ _ => congrArg c.int32 (maxS_eq_ofInt _ _),
      exec_binary fun c _ _ _ => congrArg c.int32 (maxU_eq_ofNat _ _), exec_binary fun _ _ _ _ => rfl,
      exec_binary fun _ _ _ _ => rfl, exec_binary fun _ _ _ _ => rfl,
      exec_binary fun c _ _ _ => congrArg c.int32 (ite_shiftLeft _ _), exec_binary fun _ _ _ _ => rfl,
      exec_binary fun _ _ _ _ => rfl, exec_binary fun _ _ _ _ => rfl, List.forall_mem_nil _⟩
  case source32 =>
    exact ⟨exec_unary fun _ _ _ => rfl, exec_unary fun c _ _ => congrArg c.int32 (absS_eq_ofInt _),
      exec_unary fun _ _ _ => rfl, exec_unary fun _ _ _ => rfl, exec_unary fun _ _ _ => rfl,
      exec_unary fun _ _ _ => rfl, exec_unary fun _ _ _ => rfl, List.forall_mem_nil _⟩
  case mov => exact exec_unary fun _ _ _ => rfl
  case sources64 =>
    exact ⟨exec_binary fun _ _ _ _ => rfl, exec_binary fun _ _ _ _ => rfl, exec_binary fun _ _ _ _ => rfl,
      exec_binary fun c _ _ _ => congrArg c.int64 (mulhS_eq_ofInt _ _), exec_binary fun _ _ _ _ => rfl,
      exec_binary fun c _ _ _ => congrArg c.int64 (minS_eq_ofInt _ _),
      exec_binary fun c _ _ _ => congrArg c.int64 (minU_eq_ofNat _ _),
      exec_binary fun c _ _ _ => congrArg c.int64 (maxS_eq_ofInt _ _),
      exec_binary fun c _ _ _ => congrArg c.int64 (maxU_eq_ofNat _ _), exec_binary fun _ _ _ _ => rfl,
      exec_binary fun _ _ _ _ => rfl, exec_binary fun _ _ _ _ => rfl, List.forall_mem_nil _⟩
  case shifts64 =>
    exact ⟨exec_binary fun c _ _ _ => congrArg c.int64 (ite_shiftLeft _ _), exec_binary fun _ _ _ _ => rfl,
      exec_binary fun _ _ _ _ => rfl, exec_binary fun _ _ _ _ => rfl, List.forall_mem_nil _⟩
  case source64 =>
    exact ⟨exec_unary fun _ _ _ => rfl, exec_unary fun c _ _ => congrArg c.int64 (absS_eq_ofInt _),
      exec_unary fun _ _ _ => rfl, exec_unary fun _ _ _ => rfl, List.forall_mem_nil _⟩
  case counts64 =>
    exact ⟨exec_unary fun _ _ _ => rfl, exec_unary fun _ _ _ => rfl, exec_unary fun _ _ _ => rfl, List.forall_mem_nil _⟩
  case mov64 => exact exec_unary fun _ _ _ => rfl
  case saturating32 =>
    exact ⟨exec_binary fun c _ _ _ => satLane_of_clamp c.w32 (satS_eq_clamp (by norm_num) (by norm_num) _),
      exec_binary fun c _ _ _ => satLane_of_clamp c.w32 (satS_eq_clamp (by norm_num) (by norm_num) _),
      exec_binary fun c _ _ _ => satLane_of_clamp c.w32 (satU_eq_clamp (by norm_num) _),
      exec_binary fun c _ _ _ => satLane_of_clamp c.w32 (satU_eq_clamp (by norm_num) _), List.forall_mem_nil _⟩
  case saturating64 =>
    exact ⟨exec_binary fun c _ _ _ => satLane_of_clamp c.w64 (satS_eq_clamp (by norm_num) (by norm_num) _),
      exec_binary fun c _ _ _ => satLane_of_clamp c.w64 (satS_eq_clamp (by norm_num) (by norm_num) _),
      exec_binary fun c _ _ _ => satLane_of_clamp c.w64 (satU_eq_clamp (by norm_num) _),
      exec_binary fun c _ _ _ => satLane_of_clamp c.w64 (satU_eq_clamp (by norm_num) _), List.forall_mem_nil _⟩
end

section
/-!
PROOFS. IMAD, MOVI, LEA, BFI and the bit-field words; the counts, fields and fills of bits (R114-R116, R118, R119).
-/

namespace Sys2Proof.Machine

open Sys2Proof

/-! ### Counts of bits -/

theorem popc_eq_countP {w : Nat} (x : BitVec w) : popc x = (List.range w).countP fun i => x.getLsbD i :=
  List.countP_eq_length_filter.symm

theorem exists_getLsbD {w : Nat} {x : BitVec w} (h : x ≠ 0) : ∃ i < w, x.getLsbD i = true := by
  by_contra hno
  refine h (BitVec.eq_of_getLsbD_eq fun i hi => ?_)
  rw [Bool.eq_false_of_not_eq_true fun hx => hno ⟨i, hi, hx⟩]
  exact BitVec.getLsbD_zero.symm

/-- A search from 0 upward finds the lowest number that satisfies `p`. -/
theorem find_range_spec {p : Nat → Bool} {n : Nat} (h : ∃ i < n, p i = true) {k : Nat}
    (hk : ((List.range n).find? p).getD n = k) : k < n ∧ p k = true ∧ ∀ i < k, p i = false := by
  cases hf : (List.range n).find? p with
  | none =>
    obtain ⟨i, hi, hp⟩ := h
    simpa [hp] using List.find?_range_eq_none.mp hf i hi
  | some j =>
    obtain rfl : j = k := by simpa [hf] using hk
    obtain ⟨hp, hmem, hlow⟩ := List.find?_range_eq_some.mp hf
    exact ⟨List.mem_range.mp hmem, hp, fun i hi => by simpa using hlow i hi⟩

theorem ctz_spec {w : Nat} {x : BitVec w} (h : x ≠ 0) :
    ctz x < w ∧ x.getLsbD (ctz x) = true ∧ ∀ i < ctz x, x.getLsbD i = false :=
  find_range_spec (exists_getLsbD h) rfl

theorem getMsbD_of_lt {w i : Nat} (x : BitVec w) (h : i < w) : x.getMsbD i = x.getLsbD (w - 1 - i) := by
  rw [BitVec.getMsbD_eq_getLsbD, decide_eq_true h, Bool.true_and]

theorem clz_spec {w : Nat} {x : BitVec w} (h : x ≠ 0) :
    clz x < w ∧ x.getLsbD (w - 1 - clz x) = true ∧ ∀ i < clz x, x.getLsbD (w - 1 - i) = false := by
  obtain ⟨j, hj, hx⟩ := exists_getLsbD h
  have hex : ∃ i < w, x.getMsbD i = true :=
    ⟨w - 1 - j, by omega, by rw [getMsbD_of_lt x (by omega), show w - 1 - (w - 1 - j) = j by omega, hx]⟩
  obtain ⟨hlt, hbit, hlow⟩ := find_range_spec hex (rfl : _ = clz x)
  exact ⟨hlt, getMsbD_of_lt x hlt ▸ hbit, fun i hi => getMsbD_of_lt x (hi.trans hlt) ▸ hlow i hi⟩

theorem clz_zero (w : Nat) : clz (0 : BitVec w) = w := by
  simp [clz, List.find?_range_eq_none.mpr]

theorem ctz_zero (w : Nat) : ctz (0 : BitVec w) = w := by
  simp [ctz, List.find?_range_eq_none.mpr]

/-! ### Fields of bits -/

theorem testBit_field (x : Word) (pos len i : Nat) (hlen : len ≤ 32) :
    (fld x.toNat (pos + 31) pos % 2 ^ len).testBit i = (decide (i < len) && x.getLsbD (pos + i)) := by
  have hw : pos + 31 + 1 - pos = 32 := by omega
  simp only [fld, hw, Nat.testBit_mod_two_pow, Nat.testBit_shiftRight, BitVec.getLsbD]
  by_cases hi : i < len
  · simp [hi, hi.trans_le hlen]
  · simp [hi]

/-- A field less the weight of the bit above it: the field's bits, and ones above them. -/
theorem getLsbD_ofInt_sub_two_pow {w f len i : Nat} (hf : f < 2 ^ len) (hlen : len ≤ w) (hi : i < w) :
    (BitVec.ofInt w ((f : Int) - (2 ^ len : Nat))).getLsbD i = if i < len then f.testBit i else true := by
  have hpow : 2 ^ len * (2 ^ (w - len) - 1) + 2 ^ len = 2 ^ w := by
    rw [← Nat.mul_succ, Nat.succ_eq_add_one, Nat.sub_add_cancel Nat.one_le_two_pow, ← Nat.pow_add,
      Nat.add_sub_cancel' hlen]
  have hones : BitVec.ofInt w ((f : Int) - (2 ^ len : Nat)) = BitVec.ofNat w (2 ^ len * (2 ^ (w - len) - 1) + f) := by
    rw [← BitVec.ofInt_natCast]
    apply BitVec.eq_of_toNat_eq
    rw [BitVec.toNat_ofInt, BitVec.toNat_ofInt, ← Int.add_emod_right, ← hpow]
    congr 2
    push_cast
    ring
  rw [hones, BitVec.getLsbD_ofNat, Nat.testBit_two_pow_mul_add _ hf, Nat.testBit_two_pow_sub_one]
  split
  · simp [hi]
  · simp [hi]; omega

/-- R119: the bits of a BFX field, of its sign, and of the zeros above it. -/
theorem getLsbD_bfx (signed : Bool) (x y : Word) {i : Nat} (hi : i < 32) :
    let pos := bitsOf y 4 0
    let len := min (bitsOf y 13 8) 32
    (bfx signed x y).getLsbD i =
      if i < len then x.getLsbD (pos + i) else signed && decide (0 < len) && x.getLsbD (pos + len - 1) := by
  intro pos len
  have hlen : len ≤ 32 := min_le_right _ _
  have hbit := testBit_field x pos len
  have htop : (signed && decide (len ≠ 0) && (fld x.toNat (pos + 31) pos % 2 ^ len).testBit (len - 1)) =
      (signed && decide (0 < len) && x.getLsbD (pos + len - 1)) := by
    rcases Nat.eq_zero_or_pos len with h0 | h0
    · simp [h0]
    · rw [hbit _ hlen, ← Nat.add_sub_assoc h0]
      simp [h0, h0.ne']
  unfold bfx
  simp only [show bitsOf y 4 0 = pos from rfl, show min (bitsOf y 13 8) 32 = len from rfl, htop]
  cases signed && decide (0 < len) && x.getLsbD (pos + len - 1) with
  | true =>
    rw [if_pos rfl, getLsbD_ofInt_sub_two_pow (Nat.mod_lt _ (Nat.two_pow_pos len)) hlen hi, hbit i hlen]
    by_cases h : i < len <;> simp [h]
  | false =>
    rw [if_neg Bool.false_ne_true, BitVec.getLsbD_ofNat, hbit i hlen]
    by_cases h : i < len <;> simp [h, hi]

/-! ### Filling from the lowest clear bit -/

/-- The clear bits of `x` below bit `i`. -/
def clearsBelow (x : Dword) (i : Nat) : Nat := (List.range i).countP fun j => !x.getLsbD j

/-- One turn of BFPL. -/
def fillOnce (k : Nat) (x : Dword) : Dword := if popc x < k then x ||| (x + 1) else x

/-- The sum carries into a bit where all bits below it are set. -/
theorem getLsbD_or_add_one {w i : Nat} (x : BitVec w) (hi : i < w) :
    (x ||| (x + 1)).getLsbD i = (x.getLsbD i || decide (∀ j < i, x.getLsbD j = true)) := by
  have hone : (1 : BitVec w) = 1#w := rfl
  rw [BitVec.getLsbD_or, BitVec.getLsbD_add hi, hone]
  cases i with
  | zero => simp [show 0 < w from hi]
  | succ i =>
    rw [BitVec.carry_succ_one i x (by omega)]
    simp only [Nat.lt_succ_iff]
    cases x.getLsbD (i + 1) <;> simp

/-- The lowest clear bit is set, and no other. -/
theorem getLsbD_or_add_one_of_lowest {x : Dword} {j : Nat} (hj : x.getLsbD j = false) (hlow : ∀ i < j, x.getLsbD i = true)
    {i : Nat} (hi : i < 64) : (x ||| (x + 1)).getLsbD i = (x.getLsbD i || i == j) := by
  have hiff : (∀ l < i, x.getLsbD l = true) ↔ i ≤ j := by
    refine ⟨fun h => ?_, fun h l hl => hlow l (by omega)⟩
    by_contra hlt
    exact absurd (h j (by omega)) (by simp [hj])
  simp only [getLsbD_or_add_one x hi, hiff]
  rcases Nat.lt_trichotomy i j with h | h | h
  · simp [hlow i h]
  · simp [h]
  · simp [Nat.not_le.mpr h, h.ne']

/-- A predicate that gains the number `j`. -/
theorem countP_range_gain {p q : Nat → Bool} {j n : Nat} (hp : p j = false) (hq : ∀ i < n, q i = (p i || i == j)) :
    (List.range n).countP q = (List.range n).countP p + if j < n then 1 else 0 := by
  induction n with
  | zero => rfl
  | succ n ih =>
    rw [List.range_succ, List.countP_append, List.countP_append, ih fun i hi => hq i (by omega), List.countP_singleton,
      List.countP_singleton, hq n (by omega)]
    rcases Nat.lt_trichotomy j n with h | h | h
    · simp [h, h.ne', show j < n + 1 by omega]
      omega
    · subst h
      simp [hp]
    · simp [h.ne, show ¬ j < n by omega, show ¬ j < n + 1 by omega]

section
variable {k : Nat} {x : Dword}

theorem fillOnce_of_full (h : k ≤ popc x) : fillOnce k x = x := if_neg (Nat.not_lt.mpr h)

/-- A turn that still fills, with the lowest clear bit `j`: one more set bit, and one clear bit fewer above `j`. -/
theorem fillOnce_spec (h : popc x < k) {j : Nat} (hj64 : j < 64) (hj : x.getLsbD j = false)
    (hlow : ∀ i < j, x.getLsbD i = true) :
    (∀ i < 64, (fillOnce k x).getLsbD i = (x.getLsbD i || i == j)) ∧ popc (fillOnce k x) = popc x + 1 ∧
    ∀ i ≤ 64, clearsBelow x i = clearsBelow (fillOnce k x) i + if j < i then 1 else 0 := by
  have hbit (i : Nat) (hi : i < 64) : (fillOnce k x).getLsbD i = (x.getLsbD i || i == j) := by
    rw [fillOnce, if_pos h, getLsbD_or_add_one_of_lowest hj hlow hi]
  refine ⟨hbit, ?_, fun i hi => ?_⟩
  · rw [popc_eq_countP, popc_eq_countP, countP_range_gain hj hbit, if_pos hj64]
  · refine countP_range_gain (by simp [hbit j hj64]) fun l hl => ?_
    rw [hbit l (by omega)]
    rcases eq_or_ne l j with rfl | hne
    · simp [hj]
    · simp [beq_false_of_ne hne]

/-- A word without a clear bit stays as it is. -/
theorem fillOnce_of_ones (h : ~~~x = 0) : fillOnce k x = x := by
  have hones : x = BitVec.allOnes 64 := by rw [← BitVec.not_not (b := x), h]; rfl
  subst hones
  rw [fillOnce]
  split <;> rfl

theorem exists_lowest_clear (h : ~~~x ≠ 0) : ∃ j < 64, x.getLsbD j = false ∧ ∀ i < j, x.getLsbD i = true := by
  obtain ⟨hlt, hbit, hlow⟩ := ctz_spec h
  refine ⟨_, hlt, by simpa [hlt] using hbit, fun i hi => ?_⟩
  simpa [hi.trans hlt] using hlow i hi

end

/-- After `n` turns: of the clear bits of `x`, those that the turns and the population allow. -/
theorem getLsbD_iterate_fillOnce (k n : Nat) (x : Dword) {i : Nat} (hi : i < 64) :
    ((fillOnce k)^[n] x).getLsbD i =
      (x.getLsbD i || decide (popc x + clearsBelow x i < k ∧ clearsBelow x i < n)) := by
  induction n generalizing x with
  | zero => simp
  | succ n ih =>
    by_cases hfull : k ≤ popc x
    · rw [Function.iterate_fixed (fillOnce_of_full hfull)]
      simp [show ¬ popc x + clearsBelow x i < k by omega]
    by_cases hones : ~~~x = 0
    · rw [Function.iterate_fixed (fillOnce_of_ones hones)]
      have hi' : x.getLsbD i = true := by simpa [hi] using congrArg (fun y : Dword => y.getLsbD i) hones
      simp [hi']
    obtain ⟨j, hj64, hj, hlow⟩ := exists_lowest_clear hones
    obtain ⟨hbit, hpop, hclear⟩ := fillOnce_spec (Nat.not_le.mp hfull) hj64 hj hlow
    rw [Function.iterate_succ_apply, ih, hbit i hi, hpop]
    rcases Nat.lt_trichotomy i j with h | rfl | h
    · simp [hlow i h]
    · have hnone : clearsBelow x i = 0 := by simpa [clearsBelow] using hlow
      simp [hnone, Nat.not_le.mp hfull]
    · rw [hclear i hi.le, if_pos h, beq_false_of_ne h.ne', Bool.or_false]
      congr 2
      rw [Nat.add_right_comm, ← Nat.add_assoc, Nat.succ_lt_succ_iff]

theorem getLsbD_fillTo (k : Nat) (x : Dword) {i : Nat} (hi : i < 64) :
    (fillTo k x).getLsbD i =
      (x.getLsbD i || decide (popc x + ((List.range i).countP fun j => !x.getLsbD j) < k)) := by
  have hturns : fillTo k x = (fillOnce k)^[64] x := by
    rw [← List.length_range (n := 64), ← List.foldl_const]
    rfl
  have hlt : clearsBelow x i < 64 := (List.countP_le_length.trans_eq List.length_range).trans_lt hi
  rw [hturns, getLsbD_iterate_fillOnce k 64 x hi]
  simp only [hlt, and_true]
  rfl

end Sys2Proof.Machine

open Sys2Proof Sys2Proof.Machine

/-- Settles O2: the words by `exec_vec`; then the counts (`ctz_spec`, `clz_spec`), the field (`getLsbD_bfx`) and the fill
(`getLsbD_fillTo`, by turns). -/
theorem bitFieldResults : Obligations.BitFieldResults := by
  unfold Obligations.BitFieldResults
  simp only [List.forall_mem_cons]
  refine ⟨fun _ _ _ _ _ _ _ _ h => exec_vec h rfl fun _ => rfl, fun _ _ _ _ _ _ _ _ h => exec_vec h rfl fun _ => rfl,
    fun _ _ _ _ _ _ h => exec_vec h rfl fun _ => rfl, fun _ _ _ _ _ _ _ h => exec_vec h rfl fun _ => rfl,
    fun _ _ _ _ _ _ _ _ h => exec_vec h rfl fun _ => rfl,
    ⟨fun _ _ _ _ _ _ _ h => exec_vec h rfl fun _ => rfl, fun _ _ _ _ _ _ _ h => exec_vec h rfl fun _ => rfl,
      List.forall_mem_nil _⟩,
    fun _ _ _ _ _ _ h => exec_vec h rfl fun _ => rfl, fun _ _ _ _ _ _ h => exec_vec h rfl fun _ => rfl,
    fun _ _ _ _ _ _ _ h => exec_vec h rfl fun _ => rfl,
    fun _ x => popc_eq_countP x, fun _ _ => ctz_spec, fun _ _ => clz_spec, fun w => ⟨clz_zero w, ctz_zero w⟩,
    fun signed x y _ => getLsbD_bfx signed x y, fun k x _ => getLsbD_fillTo k x⟩
end

section
/-!
PROOFS. The comparisons (R117, R139).
-/

namespace Sys2Proof.Machine

open Sys2Proof
open Sys2Proof.Num (XR)

/-- A ready word whose predicate each executing lane computes leaves the state of `quietAfter`. -/
theorem exec_quiet {i : Instr} {s : State} {c : Ctx} {d : Code} {f : Ctx → Nat → LaneOut} {q : Nat → Reg}
    {flags : Nat → BitVec 6} (h : WordReady i s c) (hx : exec i s = quietWord i.info f s)
    (hf : ∀ t, f c t = { q := some (d.toNat, q t), flags := flags t }) :
    exec i s = .next (quietAfter s c i.last d q flags) :=
  hx.trans (quietWord_next h.here h.checks h.flows q flags fun t _ => hf t)

/-- R117: the conditions of ICMP as orders. -/
theorem icmp_spec {w : Nat} (x y : BitVec w) :
    (icmp 0 x y = true ↔ x.toNat = y.toNat) ∧ (icmp 1 x y = true ↔ x.toNat ≠ y.toNat) ∧
    (icmp 2 x y = true ↔ x.toInt < y.toInt) ∧ (icmp 3 x y = true ↔ x.toInt ≤ y.toInt) ∧
    (icmp 4 x y = true ↔ y.toInt < x.toInt) ∧ (icmp 5 x y = true ↔ y.toInt ≤ x.toInt) ∧
    (icmp 6 x y = true ↔ x.toNat < y.toNat) ∧ (icmp 7 x y = true ↔ x.toNat ≤ y.toNat) ∧
    (icmp 8 x y = true ↔ y.toNat < x.toNat) ∧ (icmp 9 x y = true ↔ y.toNat ≤ x.toNat) :=
  ⟨beq_iff_eq.trans BitVec.toNat_inj.symm, bne_iff_ne.trans BitVec.toNat_inj.not.symm, BitVec.slt_iff_toInt_lt,
    BitVec.sle_iff_toInt_le, BitVec.slt_iff_toInt_lt, BitVec.sle_iff_toInt_le, BitVec.ult_iff_toNat_lt,
    BitVec.ule_iff_toNat_le, BitVec.ult_iff_toNat_lt, BitVec.ule_iff_toNat_le⟩

section
variable {x y x' y' : XR}

/-- FCMP looks at its operands through four questions: is one a NaN, are they equal, and which is less. -/
theorem fcmp_congr (k : Nat) (hn : (x.isNaN || y.isNaN) = (x'.isNaN || y'.isNaN)) (he : x.eq y = x'.eq y')
    (hl : x.lt y = x'.lt y') (hg : y.lt x = y'.lt x') : fcmp k x y = fcmp k x' y' := by
  simp only [fcmp, hn, he, hl, hg]

theorem unordered_of_nan (h : x = .nan ∨ y = .nan) :
    (x.isNaN || y.isNaN) = true ∧ x.eq y = false ∧ x.lt y = false ∧ y.lt x = false := by
  rcases h with rfl | rfl
  · cases y <;> exact ⟨rfl, rfl, rfl, rfl⟩
  · cases x <;> exact ⟨rfl, rfl, rfl, rfl⟩

/-- Of the unordered, NE and UN hold. -/
theorem fcmp_of_nan {k : Nat} (hk : k < 8) (h : x = .nan ∨ y = .nan) : fcmp k x y = (k == 1 || k == 6) := by
  obtain ⟨hn, he, hl, hg⟩ := unordered_of_nan h
  simp only [fcmp, hn, he, hl, hg]
  interval_cases k <;> rfl

end

/-- An infinity stands to a number as a number beyond it does. -/
theorem fcmp_inf_fin (k : Nat) (m : Bool) (p : Rat) :
    fcmp k (.inf false) (.fin m p) = fcmp k (.fin m (p + 1)) (.fin m p) ∧
    fcmp k (.inf true) (.fin m p) = fcmp k (.fin m (p - 1)) (.fin m p) ∧
    fcmp k (.fin m p) (.inf false) = fcmp k (.fin m p) (.fin m (p + 1)) ∧
    fcmp k (.fin m p) (.inf true) = fcmp k (.fin m p) (.fin m (p - 1)) := by
  refine ⟨fcmp_congr k rfl ?_ ?_ ?_, fcmp_congr k rfl ?_ ?_ ?_, fcmp_congr k rfl ?_ ?_ ?_, fcmp_congr k rfl ?_ ?_ ?_⟩ <;>
    simp [XR.eq, XR.lt, (sub_one_lt p).ne']

/-- The infinities among themselves are ordered as −1 and 1 are. -/
theorem fcmp_inf_inf (k : Nat) (m n : Bool) :
    fcmp k (.inf m) (.inf n) = fcmp k (.fin m (if m then -1 else 1)) (.fin n (if n then -1 else 1)) := by
  refine fcmp_congr k rfl ?_ ?_ ?_ <;> cases m <;> cases n <;> norm_num [XR.eq, XR.lt]

/-- R139: the conditions of FCMP on numbers. -/
theorem fcmp_fin (m n : Bool) (p q : Rat) : let x := XR.fin m p; let y := XR.fin n q
    (fcmp 0 x y = true ↔ p = q) ∧ (fcmp 1 x y = true ↔ p ≠ q) ∧ (fcmp 2 x y = true ↔ p < q) ∧
    (fcmp 3 x y = true ↔ p ≤ q) ∧ (fcmp 4 x y = true ↔ q < p) ∧ (fcmp 5 x y = true ↔ q ≤ p) ∧
    fcmp 6 x y = false ∧ fcmp 7 x y = true := by
  simp only [fcmp, XR.isNaN, XR.eq, XR.lt, Bool.or_eq_true, Bool.not_eq_true', decide_eq_true_iff, decide_eq_false_iff_not,
    Bool.false_eq_true, false_or, Bool.or_false, Bool.not_false, le_iff_lt_or_eq, eq_comm (a := q), ne_eq, and_self]

end Sys2Proof.Machine

open Sys2Proof Sys2Proof.Machine

/-- Settles O3: the words by `exec_quiet`, the orders of ICMP (`icmp_spec`), and those of FCMP on numbers (`fcmp_fin`), with
infinities (`fcmp_inf_fin`, `fcmp_inf_inf`) and with a NaN (`fcmp_of_nan`). -/
theorem compareResults : Obligations.CompareResults := by
  unfold Obligations.CompareResults
  refine ⟨fun _ _ _ _ _ _ _ h => exec_quiet h rfl fun _ => rfl, fun _ _ _ _ _ _ _ h => exec_quiet h rfl fun _ => rfl,
    fun _ _ _ _ _ _ _ _ h => exec_quiet h rfl fun _ => rfl, fun _ x y => icmp_spec x y, fcmp_fin,
    fun k m n p _ _ => ?infinities, fun _ _ _ hk h => fcmp_of_nan hk h, fun _ _ _ _ => ⟨rfl, rfl, rfl⟩⟩
  case infinities =>
    obtain ⟨htop, hbottom, htop', hbottom'⟩ := fcmp_inf_fin k m p
    exact ⟨htop, hbottom, htop', hbottom', fcmp_inf_inf k m n⟩
end

section
/-!
PROOFS. The exchanges between lanes and the uniform words (R120-R126).
-/

namespace Sys2Proof.Machine

open Sys2Proof

/-- A ready uniform word with an active lane writes its register once, by what its context says. -/
theorem exec_uniform {i : Instr} {s : State} {c : Ctx} {d : Code} {f : Ctx → Dword} {x : Dword} (h : WordReady i s c)
    (ha : c.someActive = true) (hx : exec i s = uniformWord i.info d f s) (hf : f c = x) :
    exec i s = .next (uniformAfter s c i.last d x) := by
  have hany : ((List.range 16).any fun t => c.active t) = true := ha
  simp only [hx, uniformWord, frame_of_ready h.here h.checks h.flows, hany, if_true, hf]
  exact congrArg _ (finish_crew h.here _ _ (fun _ _ => rfl) (fun _ => rfl) rfl)

/-- Without an active lane it only moves its group on. -/
theorem exec_uniform_of_none {i : Instr} {s : State} {c : Ctx} {d : Code} {f : Ctx → Dword} (h : WordReady i s c)
    (ha : c.someActive = false) (hx : exec i s = uniformWord i.info d f s) :
    exec i s = .next (wordAfter s c i.last (fun _ l => l) nobody fun _ => none) := by
  have hany : ((List.range 16).any fun t => c.active t) = false := ha
  simp only [hx, uniformWord, frame_of_ready h.here h.checks h.flows, hany, Bool.false_eq_true, if_false]
  exact congrArg _ (finish_plain h.here _)

end Sys2Proof.Machine

open Sys2Proof Sys2Proof.Machine

/-- Settles O4: each exchange by `exec_vec`, the uniform words by `exec_uniform`. -/
theorem exchangeResults : Obligations.ExchangeResults := by
  unfold Obligations.ExchangeResults
  simp only [List.forall_mem_cons]
  refine ⟨?quads, fun _ _ _ _ _ _ _ => ⟨fun h => exec_vec h rfl fun _ => rfl, fun h => exec_vec h rfl fun _ => rfl⟩,
    fun _ _ _ _ _ _ _ => ⟨fun h => exec_vec h rfl fun _ => rfl, fun h => exec_vec h rfl fun _ => rfl⟩,
    fun _ _ _ _ _ _ _ => ⟨fun h => exec_vec h rfl fun _ => rfl, fun h => exec_vec h rfl fun _ => rfl⟩, ?uniform,
    fun _ _ _ _ _ h ha => exec_uniform h ha rfl rfl, fun _ _ _ _ _ h ha => exec_uniform h ha rfl rfl,
    fun _ _ _ _ _ h ha => exec_uniform h ha rfl rfl, fun _ _ _ _ _ _ h ha => exec_uniform_of_none h ha rfl⟩
  case quads =>
    exact ⟨fun _ _ _ _ _ _ => ⟨fun h => exec_vec h rfl fun _ => rfl, fun h => exec_vec h rfl fun _ => rfl⟩,
      fun _ _ _ _ _ _ => ⟨fun h => exec_vec h rfl fun _ => rfl, fun h => exec_vec h rfl fun _ => rfl⟩,
      fun _ _ _ _ _ _ => ⟨fun h => exec_vec h rfl fun _ => rfl, fun h => exec_vec h rfl fun _ => rfl⟩,
      List.forall_mem_nil _⟩
  case uniform =>
    exact ⟨fun _ _ _ _ _ _ h ha => exec_uniform h ha rfl rfl, fun _ _ _ _ _ _ h ha => exec_uniform h ha rfl rfl,
      fun _ _ _ _ _ _ h ha => exec_uniform h ha rfl rfl, fun _ _ _ _ _ _ h ha => exec_uniform h ha rfl rfl,
      fun _ _ _ _ _ _ h ha => exec_uniform h ha rfl rfl, fun _ _ _ _ _ _ h ha => exec_uniform h ha rfl rfl,
      fun _ _ _ _ _ _ h ha => exec_uniform h ha rfl (ite_shiftLeft _ _),
      fun _ _ _ _ _ _ h ha => exec_uniform h ha rfl rfl,
      fun _ _ _ _ _ _ h ha => exec_uniform h ha rfl rfl, fun _ _ _ _ _ _ h ha => exec_uniform h ha rfl rfl,
      fun _ _ _ _ _ _ h ha => exec_uniform h ha rfl rfl, List.forall_mem_nil _⟩
end

section
/-!
PROOFS. The exact values, primals and tangents of the floating-point functions (R57, R133-R138).
-/

namespace Sys2Proof.Num

/-! ### Exact sums and products (R57, R134) -/

namespace XR

@[simp] theorem isNaN_iff {x : XR} : x.isNaN = true ↔ x = .nan := by cases x <;> simp [isNaN]

@[simp] theorem mul_nan (x : XR) : x.mul .nan = .nan := by cases x <;> rfl
@[simp] theorem add_nan (mode : Mode) (x : XR) : x.add mode .nan = .nan := by cases x <;> rfl

section
variable {mode : Mode} {s t : Bool} {p q : Rat} {x : XR}

/-- A sum that does not vanish has its own sign. -/
theorem fin_add_fin (h : p + q ≠ 0) : (XR.fin s p).add mode (.fin t q) = .fin (decide (p + q < 0)) (p + q) := by
  have hzeros : ¬ (p = 0 ∧ q = 0 ∧ s = t) := fun ⟨hp, hq, _⟩ => h (by rw [hp, hq, add_zero])
  simp [add, hzeros, h, ofRat]

/-- A sum that vanishes is +0, or −0 toward minus infinity, except that zeros of one sign keep it. -/
theorem fin_add_fin_of_cancel (h : p + q = 0) :
    (XR.fin s p).add mode (.fin t q) = .fin (if p = 0 ∧ s = t then s else decide (mode = .rd)) 0 := by
  have hzeros : (p = 0 ∧ q = 0 ∧ s = t) ↔ p = 0 ∧ s = t :=
    and_congr_right fun hp => and_iff_right (by rw [← h, hp, zero_add])
  simp only [add, hzeros, if_pos h]
  split <;> rfl

theorem inf_mul (hx : x ≠ .nan) : (XR.inf s).mul x = if x.isZero then .nan else .inf (s ^^ x.sign) := by
  cases x with
  | nan => exact absurd rfl hx
  | inf | fin => rfl

theorem mul_inf (hx : x ≠ .nan) : x.mul (.inf s) = if x.isZero then .nan else .inf (x.sign ^^ s) := by
  cases x with
  | nan => exact absurd rfl hx
  | inf | fin => rfl

theorem inf_add (hx : x ≠ .nan) : (XR.inf s).add mode x = if x = .inf (!s) then .nan else .inf s := by
  cases x with
  | nan => exact absurd rfl hx
  | inf t => cases s <;> cases t <;> rfl
  | fin => rfl

theorem add_inf (hx : x ≠ .nan) : x.add mode (.inf s) = if x = .inf (!s) then .nan else .inf s := by
  cases x with
  | nan => exact absurd rfl hx
  | inf t => cases s <;> cases t <;> rfl
  | fin => rfl

end

end XR

/-! ### The one rounding -/

section
variable {F : Fmt} {mode : Mode}

@[simp] theorem roundX_zero (n : Bool) : roundX F mode (.fin n 0) = (signBit F n, {}) := by simp [roundX]

theorem roundX_fin {n : Bool} {q : Rat} (hq : q ≠ 0) : roundX F mode (.fin n q) = roundRat F mode q := if_neg hq

theorem roundX_inf (hF : F.hasInf = true) (n : Bool) : roundX F mode (.inf n) = (infEnc F n, {}) := if_pos hF

/-- An exact value under version 3, or in FP64, is rounded once. -/
theorem approximated_exact {f : FFun} {key nbv : Nat} {q v : Rat} (h : F = fp64 ∨ nbv = 3) :
    approximated f key F mode nbv q (.exact v) = roundRat F mode v :=
  if_pos (by simpa using .inl h)

theorem arith_eq (xs : List FOp) (e : XR) : arith F mode xs e = ((roundX F mode e).1, (roundX F mode e).2.or
    { inv := (e.isNaN && xs.all fun o => !o.x.isNaN) || xs.any fun o => o.snan }) := by
  rw [arith, List.not_any_eq_all_not]

end

/-! ### Primals by the class of the operand (R135-R137) -/

section
variable {F : Fmt} {mode : Mode} {nbv : Nat} {a b : FOp}

/-- The invalid flag of a form of one operand, and of two. -/
theorem any_snan_one : ([a].any fun o => o.snan) = a.snan := Bool.or_false _
theorem any_snan_two : ([a, b].any fun o => o.snan) = (a.snan || b.snan) := congrArg _ (Bool.or_false _)

/-- A NaN gives the canonical NaN. -/
theorem fprim_nan (ha : a.x = .nan) :
    ∀ f ∈ [FFun.rcp, .rsq, .sqrt, .exp2, .log2, .sin, .cos, .floor, .ceil, .rnd, .frac],
      fprim f F mode nbv [a] = (canonNaN F, { inv := a.snan }) := by
  rw [← any_snan_one]
  rcases a with ⟨e, x, snan, tan⟩
  obtain rfl : x = .nan := ha
  simp only [List.forall_mem_cons]
  exact ⟨rfl, rfl, rfl, rfl, rfl, rfl, rfl, rfl, rfl, rfl, rfl, List.forall_mem_nil _⟩

section
variable {n k : Bool} {p q : Rat} (ha : a.x = .fin n p)
include ha

/-- A quotient of numbers. -/
theorem fprim_div_fin (hb : b.x = .fin k q) : fprim .div F mode nbv [a, b] =
    if q = 0 then (if p = 0 then (canonNaN F, { inv := true }) else (infEnc F (n ^^ k), { dvz := true }))
    else if p = 0 then (signBit F (n ^^ k), {})
    else approximated .div (a.enc + 2 ^ 64 * b.enc) F mode nbv p (.exact (p / q)) := by
  simp only [fprim, List.getD_cons_zero, List.getD_cons_succ, ha, hb, roundX_zero]

/-- At zero: the poles and the signed zeros. -/
theorem fprim_at_zero (hp : p = 0) : fprim .rcp F mode nbv [a] = (infEnc F n, { dvz := true }) ∧
    fprim .rsq F mode nbv [a] = (infEnc F n, { dvz := true }) ∧ fprim .sqrt F mode nbv [a] = (signBit F n, {}) ∧
    fprim .log2 F mode nbv [a] = (infEnc F true, { dvz := true }) ∧ fprim .sin F mode nbv [a] = (signBit F n, {}) := by
  simp only [fprim, List.getD_cons_zero, ha, if_pos hp, roundX_zero, and_self]

/-- Below zero, where the real function is undefined. -/
theorem fprim_negative (hp : p < 0) : fprim .rsq F mode nbv [a] = (canonNaN F, { inv := true }) ∧
    fprim .sqrt F mode nbv [a] = (canonNaN F, { inv := true }) ∧
    fprim .log2 F mode nbv [a] = (canonNaN F, { inv := true }) := by
  simp only [fprim, List.getD_cons_zero, ha, if_neg hp.ne, if_pos hp, and_self]

theorem fprim_rcp_fin (hp : p ≠ 0) (h : F = fp64 ∨ nbv = 3) : fprim .rcp F mode nbv [a] = roundRat F mode (1 / p) := by
  simp only [fprim, List.getD_cons_zero, ha, if_neg hp, approximated_exact h]

theorem fprim_log2_one (hp : p = 1) : fprim .log2 F mode nbv [a] = (0, {}) := by
  subst hp
  simp [fprim, ha, XR.zero, signBit]

theorem fprim_frac_fin : fprim .frac F mode nbv [a] = roundRat F mode (p - ⌊p⌋) := by
  simp only [fprim, List.getD_cons_zero, ha, floorQ, roundInt_rd]

/-- An integer cut from a number keeps the sign of the operand where it is zero (R136). -/
theorem cut_fin (g : Rat → Int) : cut F a.x g = if g p = 0 then signBit F n else (roundRat F .rne (g p)).1 := by
  simp only [cut, ha]

theorem fprim_cut_fin : let out (i : Int) : Nat × Flags :=
      (if i = 0 then signBit F n else (roundRat F .rne i).1, { inv := a.snan })
    fprim .floor F mode nbv [a] = out ⌊p⌋ ∧ fprim .ceil F mode nbv [a] = out ⌈p⌉ ∧
    fprim .rnd F mode nbv [a] = out (roundInt mode p) := by
  simp only [fprim, List.getD_cons_zero, any_snan_one, cut_fin ha, floorQ, ceilQ, roundInt_rd, roundInt_ru, and_self]

end

section
variable {n : Bool} (ha : a.x = .inf n)
include ha

/-- At the infinities. -/
theorem fprim_inf (hF : F.hasInf = true) : fprim .rcp F mode nbv [a] = (signBit F n, {}) ∧
    fprim .rsq F mode nbv [a] = (if n then (canonNaN F, { inv := true }) else (0, {})) ∧
    fprim .sqrt F mode nbv [a] = (if n then (canonNaN F, { inv := true }) else (infEnc F false, {})) ∧
    fprim .exp2 F mode nbv [a] = (if n then 0 else infEnc F false, {}) ∧
    fprim .log2 F mode nbv [a] = (if n then (canonNaN F, { inv := true }) else (infEnc F false, {})) := by
  have hzero : signBit F false = 0 := rfl
  simp only [fprim, List.getD_cons_zero, ha, roundX_zero, roundX_inf hF, XR.zero, hzero, true_and, and_true]
  split <;> rfl

theorem fprim_inf_invalid : ∀ f ∈ [FFun.sin, .cos, .frac], fprim f F mode nbv [a] = (canonNaN F, { inv := true }) := by
  simp only [List.forall_mem_cons]
  refine ⟨?_, ?_, ?_, List.forall_mem_nil _⟩ <;> simp only [fprim, List.getD_cons_zero, ha]

theorem fprim_cut_inf : ∀ f ∈ [FFun.floor, .ceil, .rnd], fprim f F mode nbv [a] = (infEnc F n, { inv := a.snan }) := by
  simp only [List.forall_mem_cons]
  refine ⟨?_, ?_, ?_, List.forall_mem_nil _⟩ <;> simp only [fprim, List.getD_cons_zero, any_snan_one, cut, ha]

end

/-! ### The operand that FMIN and FMAX return (R136) -/

theorem chosen_of_nans (f : FFun) (ha : a.x = .nan) (hb : b.x = .nan) : chosen f a b = none := by
  simp [chosen, ha, hb]

theorem chosen_of_nan_left (f : FFun) (ha : a.x = .nan) (hb : b.x ≠ .nan) : chosen f a b = some b := by
  simp [chosen, ha, hb]

theorem chosen_of_nan_right (f : FFun) (ha : a.x ≠ .nan) (hb : b.x = .nan) : chosen f a b = some a := by
  simp [chosen, ha, hb]

theorem chosen_min (ha : a.x ≠ .nan) (hb : b.x ≠ .nan) :
    chosen .min a b = some (if below b.x a.x then b else a) := by
  simp [chosen, ha, hb]

theorem chosen_max (ha : a.x ≠ .nan) (hb : b.x ≠ .nan) :
    chosen .max a b = some (if below a.x b.x then b else a) := by
  simp [chosen, ha, hb]

section
variable {f : FFun} {o : FOp} {k : Nat} (hf : f = .min ∨ f = .max)
include hf

theorem fprim_of_chosen (h : chosen f a b = some o) :
    fprim f F mode nbv [a, b] = (o.enc, { inv := a.snan || b.snan }) := by
  rcases hf with rfl | rfl <;> simp only [fprim, List.getD_cons_zero, List.getD_cons_succ, h, any_snan_two]

theorem fprim_of_none_chosen (h : chosen f a b = none) :
    fprim f F mode nbv [a, b] = (canonNaN F, { inv := a.snan || b.snan }) := by
  rcases hf with rfl | rfl <;> simp only [fprim, List.getD_cons_zero, List.getD_cons_succ, h, any_snan_two]

theorem ftan_of_chosen (h : chosen f a b = some o) : ftan f F mode [a, b] k = (roundX F mode (o.t k)).1 := by
  rcases hf with rfl | rfl <;> simp only [ftan, List.getD_cons_zero, List.getD_cons_succ, h]

/-- The choice between two numbers, by the test that it makes. -/
theorem fprim_of_chosen_ite {p : Bool} (h : chosen f a b = some (if p then b else a)) :
    fprim f F mode nbv [a, b] = (if p then b.enc else a.enc, { inv := a.snan || b.snan }) := by
  rw [fprim_of_chosen hf h, apply_ite FOp.enc]

theorem ftan_of_chosen_ite {p : Bool} (h : chosen f a b = some (if p then b else a)) :
    ftan f F mode [a, b] k = (roundX F mode (if p then b.t k else a.t k)).1 := by
  rw [ftan_of_chosen hf h, apply_ite (FOp.t · k)]

end

/-! ### The sign bit (R136) -/

theorem testBit_abs {i : Nat} (henc : a.enc < 2 ^ F.width) :
    (fprim .abs F mode nbv [a]).1.testBit i = (a.enc.testBit i && decide (i ≠ F.width - 1)) := by
  show (a.enc % 2 ^ (F.width - 1)).testBit i = _
  rw [Nat.testBit_mod_two_pow, Bool.and_comm]
  rcases lt_or_ge i F.width with hi | hi
  · congr 2
    rw [eq_iff_iff]
    omega
  · rw [Nat.testBit_lt_two_pow (henc.trans_le (Nat.pow_le_pow_right two_pos hi))]
    rfl

theorem testBit_neg (i : Nat) :
    (fprim .neg F mode nbv [a]).1.testBit i = (a.enc.testBit i ^^ decide (i = F.width - 1)) := by
  show (a.enc ^^^ 2 ^ (F.width - 1)).testBit i = _
  rw [Nat.testBit_xor, Nat.testBit_two_pow]
  simp only [eq_comm]

/-! ### Tangents (R135-R138) -/

theorem isZero_fin {n : Bool} {q : Rat} : (XR.fin n q).isZero = decide (q = 0) := rfl

theorem ftan_abs {k : Nat} : ftan .abs F mode [a] k =
    if a.x.isZero then 0 else (roundX F mode (if a.x.sign then (a.t k).neg else a.t k)).1 := rfl

theorem atPole_fin {u neg : Bool} {q : Rat} : atPole F (.fin u q) neg = if q = 0 then 0 else infEnc F neg := by
  simp [atPole, XR.isZero]

section
variable {k : Nat} {n i u v : Bool} {p q ta tb : Rat} (ha : a.x = .fin n p) (hta : a.t k = .fin u ta)
include ha hta

/-- The tangent of a quotient of numbers: (ta·b − a·tb)/b², rounded once. -/
theorem ftan_div_fin (hb : b.x = .fin i q) (htb : b.t k = .fin v tb) (hq : q ≠ 0)
    (h : (ta * q - p * tb) / (q * q) ≠ 0) :
    ftan .div F mode [a, b] k = (roundRat F mode ((ta * q - p * tb) / (q * q))).1 := by
  have hsum : ta * q + -(p * tb) ≠ 0 := fun h0 => h (by rw [sub_eq_add_neg, h0, zero_div])
  have hqq : q * q ≠ 0 := mul_ne_zero hq hq
  rw [sub_eq_add_neg] at h ⊢
  simp only [ftan, List.getD_cons_zero, List.getD_cons_succ, ha, hb, hta, htb, hq, false_and, if_false, XR.mul, XR.sub,
    XR.neg, XR.fin_add_fin hsum, XR.div, hqq, roundX_fin h]

/-- The pole of a quotient. -/
theorem ftan_div_pole (hb : b.x = .fin i q) (htb : b.t k = .fin v tb) (hp : p ≠ 0) (hq : q = 0) :
    ftan .div F mode [a, b] k = if tb = 0 then 0 else infEnc F (!(n ^^ v)) := by
  simp only [ftan, List.getD_cons_zero, List.getD_cons_succ, ha, hb, hta, htb, hq, hp, ne_eq, not_false_eq_true, and_self,
    if_true, XR.isNaN, Bool.false_eq_true, if_false, XR.sign, atPole_fin]

theorem ftan_rcp_fin (hp : p ≠ 0) (h : ta ≠ 0) : ftan .rcp F mode [a] k = (roundRat F mode (-ta / (p * p))).1 := by
  have hpp : p * p ≠ 0 := mul_ne_zero hp hp
  have hne : -ta / (p * p) ≠ 0 := div_ne_zero (neg_ne_zero.mpr h) hpp
  simp [ftan, ha, hta, isZero_fin, hp, XR.neg, XR.mul, XR.div, roundX_fin hne]

/-- The poles of the functions of one operand. -/
theorem ftan_poles (hp : p = 0) : ftan .rcp F mode [a] k = (if ta = 0 then 0 else infEnc F (!u)) ∧
    ftan .rsq F mode [a] k = (if ta = 0 then 0 else infEnc F (!u)) ∧
    ftan .sqrt F mode [a] k = (if ta = 0 then 0 else infEnc F false) ∧
    ftan .log2 F mode [a] k = (if ta = 0 then 0 else infEnc F (u ^^ n)) := by
  simp only [ftan, List.getD_cons_zero, ha, hta, hp, isZero_fin, decide_true, if_true, XR.sign, atPole_fin, and_self]

end

end

end Sys2Proof.Num

namespace Sys2Proof.Machine

open Sys2Proof
open Sys2Proof.Num (FFun)

/-! ### Floating-point words -/

section
variable {i : Instr} {s : State} {c : Ctx} {n : Bool} {d : Code} {f : FFun}

/-- A ready floating-point word has the common effect of R133. -/
theorem exec_float {F : FTy} (srcs : List Code) (h : WordReady i s c) (hx : exec i s = floatWord i.info n d F f srcs s) :
    exec i s = .next (vecAfter s c i.last n d F.ty.wide (fun t => c.floatVal F f (srcs.map fun r => c.fop t F r))
      fun t => c.floatFlags F f (srcs.map fun r => c.fop t F r)) :=
  exec_vec h hx fun _ => rfl

/-- A ready packed word acts on each half (R131). -/
theorem exec_packed (srcs : List Code) (h : WordReady i s c) (hx : exec i s = packedWord i.info n d f srcs s) :
    exec i s = .next (vecAfter s c i.last n d false (fun t => c.packedVal f t srcs) fun t => c.packedFlags f t srcs) :=
  exec_vec h hx fun _ => rfl

end

end Sys2Proof.Machine

open Sys2Proof Sys2Proof.Machine Sys2Proof.Num

/-- Settles O5: the words by R133's common effect (`exec_float`, `exec_packed`); then the laws of exact values, primals
and tangents, each by the class of its operands: a NaN, an infinity, zero, or another number. -/
theorem floatResults : Obligations.FloatResults := by
  unfold Obligations.FloatResults
  refine ⟨?fma, ?binary, ?unary, ?packedFma, ?packedBinary, ?packedUnary, ?fins, ?infs, ?nans, ?sums, ?atNumbers,
    fun f F m nbv a ha hf => fprim_nan ha f hf, ?atInfinities, ?minMax, ?signBits, ?cuts,
    fun f F m nbv a n ha hf => fprim_cut_inf ha f hf, ?tangents, ?tangentsAtNumbers⟩
  case fma =>
    repeat refine List.forall_mem_cons.mpr ⟨fun _ _ _ x y z _ _ h => exec_float [x, y, z] h rfl, ?_⟩
    exact List.forall_mem_nil _
  case binary =>
    repeat refine List.forall_mem_cons.mpr ⟨fun _ _ _ x y _ _ h => exec_float [x, y] h rfl, ?_⟩
    exact List.forall_mem_nil _
  case unary =>
    repeat refine List.forall_mem_cons.mpr ⟨fun _ _ _ x _ _ h => exec_float [x] h rfl, ?_⟩
    exact List.forall_mem_nil _
  case packedFma => exact fun _ _ _ x y z _ _ h => exec_packed [x, y, z] h rfl
  case packedBinary =>
    repeat refine List.forall_mem_cons.mpr ⟨fun _ _ _ x y _ _ h => exec_packed [x, y] h rfl, ?_⟩
    exact List.forall_mem_nil _
  case packedUnary =>
    repeat refine List.forall_mem_cons.mpr ⟨fun _ _ _ x _ _ h => exec_packed [x] h rfl, ?_⟩
    exact List.forall_mem_nil _
  case fins => exact fun m s t p q => ⟨rfl, rfl, XR.fin_add_fin, XR.fin_add_fin_of_cancel⟩
  case infs => exact fun m s x hx => ⟨XR.inf_mul hx, XR.mul_inf hx, XR.inf_add hx, XR.add_inf hx⟩
  case nans => exact fun m x => ⟨rfl, XR.mul_nan x, rfl, XR.add_nan m x, rfl, fun _ => rfl⟩
  case sums => exact fun F m nbv a b c => ⟨arith_eq _ _, arith_eq _ _, arith_eq _ _, arith_eq _ _⟩
  case atNumbers =>
    intro F m nbv a b n k p q _ _ ha hb
    refine ⟨fun hp hq h => ?_, fun hp hq => ?_, fun hp hq => ?_, fun hp hq => ?_, fprim_at_zero ha, fprim_negative ha,
      fprim_rcp_fin ha, fprim_log2_one ha, fprim_frac_fin ha⟩ <;> rw [fprim_div_fin ha hb]
    · rw [if_neg hq, if_neg hp, approximated_exact h]
    · rw [if_neg hq, if_pos hp]
    · rw [if_pos hq, if_neg hp]
    · rw [if_pos hq, if_pos hp]
  case atInfinities =>
    intro F m nbv a n hF ha _
    obtain ⟨hrcp, hrsq, hsqrt, hexp2, hlog2⟩ := fprim_inf (mode := m) (nbv := nbv) ha hF
    exact ⟨hrcp, hrsq, hsqrt, hexp2, hlog2, fprim_inf_invalid ha⟩
  case minMax =>
    intro F m nbv a b
    refine ⟨fun ha hb => ?_, fun ha hb => ?_, fun ha hb => ?_, fun ha hb => ?_⟩
    · exact ⟨fprim_of_none_chosen (.inl rfl) (chosen_of_nans _ ha hb),
        fprim_of_none_chosen (.inr rfl) (chosen_of_nans _ ha hb)⟩
    · exact ⟨fprim_of_chosen (.inl rfl) (chosen_of_nan_left _ ha hb),
        fprim_of_chosen (.inr rfl) (chosen_of_nan_left _ ha hb)⟩
    · exact ⟨fprim_of_chosen (.inl rfl) (chosen_of_nan_right _ ha hb),
        fprim_of_chosen (.inr rfl) (chosen_of_nan_right _ ha hb)⟩
    · exact ⟨fprim_of_chosen_ite (.inl rfl) (chosen_min ha hb), fprim_of_chosen_ite (.inr rfl) (chosen_max ha hb)⟩
  case signBits => exact fun F m nbv a i henc _ => ⟨testBit_abs henc, testBit_neg i, rfl, rfl⟩
  case cuts => exact fun F m nbv a n q ha => fprim_cut_fin ha
  case tangents =>
    intro F m a b c k
    refine ⟨rfl, rfl, rfl, rfl, rfl, rfl, fun h => ?_, fun h => ?_, ?_, fun ha hb => ?_, fun ha hb => ?_, fun ha hb => ?_⟩
    · rw [ftan_abs, h]; rfl
    · rw [ftan_abs, h]; rfl
    · simp only [List.forall_mem_cons]
      exact ⟨rfl, rfl, rfl, List.forall_mem_nil _⟩
    · exact ⟨ftan_of_chosen_ite (.inl rfl) (chosen_min ha hb), ftan_of_chosen_ite (.inr rfl) (chosen_max ha hb)⟩
    · exact ⟨ftan_of_chosen (.inl rfl) (chosen_of_nan_right _ ha hb),
        ftan_of_chosen (.inr rfl) (chosen_of_nan_right _ ha hb)⟩
    · exact ⟨ftan_of_chosen (.inl rfl) (chosen_of_nan_left _ ha hb),
        ftan_of_chosen (.inr rfl) (chosen_of_nan_left _ ha hb)⟩
  case tangentsAtNumbers =>
    intro F m a b k n i p q u v ta tb ha hb hta htb
    exact ⟨ftan_div_fin ha hta hb htb, ftan_rcp_fin ha hta, ftan_div_pole ha hta hb htb, ftan_poles ha hta⟩
end

section
/-!
PROOFS. The tangent moves, DEVAL and CVT (R140-R144).
-/

namespace Sys2Proof.Machine

open Sys2Proof
open Sys2Proof.Num (XR toInteger roundX decodeF fp64 isSNaN)

/-! ### The types of a code -/

theorem cvtFloat_ty : ∀ y : BitVec 3, y.toNat < 4 → (cvtFloat y).ty = cvtTy y := by decide

/-! ### CVT -/

section
variable {c : Ctx} {t : Nat} {x y : BitVec 3} {a : Code}

/-- From float to float: the primal and each tangent are rounded to the new type. -/
theorem cvtLane_float (hx : x.toNat < 4) (hy : y.toNat < 4) :
    cvtLane c t x y a =
      let o := c.fop t (cvtFloat y) a
      { val := some ⟨(cvtTy x).wide, BitVec.ofNat 64 (roundX (cvtFloat x).fmt c.mode o.x).1,
          (c.opnd t (cvtTy y) a).tan.map fun w => BitVec.ofNat 64 (if o.x.isNaN then Num.canonNaN (cvtFloat x).tfmt
            else (roundX (cvtFloat x).tfmt c.mode
              (decodeF (cvtFloat y).tfmt (w.toNat % 2 ^ (cvtFloat y).tfmt.width))).1)⟩,
        flags := ((roundX (cvtFloat x).fmt c.mode o.x).2.or { inv := o.snan }).toBits } := by
  simp only [cvtLane, if_pos hx, if_pos hy, Ctx.fop, cvtFloat_ty y hy]

/-- From float to integer: no tangents. -/
theorem cvtLane_toInteger (hx : 4 ≤ x.toNat) (hy : y.toNat < 4) :
    cvtLane c t x y a =
      let r := toInteger (cvtInt x) c.mode (c.fop t (cvtFloat y) a).x
      { val := some (.plain (cvtTy x).wide c.t (BitVec.ofNat 64 r.1)),
        flags := (r.2.or { inv := (c.fop t (cvtFloat y) a).snan }).toBits } := by
  simp only [cvtLane, if_neg (Nat.not_lt.mpr hx), if_pos hy, Ctx.fop, cvtFloat_ty y hy]

/-- From integer to float: no tangents. -/
theorem cvtLane_ofInteger (hy : 4 ≤ y.toNat) :
    cvtLane c t x y a =
      let r := roundX (cvtFloat x).fmt c.mode (.ofRat ((cvtInt y).val (c.opnd t (cvtTy y) a).bits.toNat))
      { val := some (.plain (cvtTy x).wide c.t (BitVec.ofNat 64 r.1)), flags := r.2.toBits } := by
  simp only [cvtLane, if_neg (Nat.not_lt.mpr hy)]

end

/-! ### DEVAL -/

/-- A list made by number, read by number where the numbers are its own. -/
theorem map_range_getD {α β : Type} (n : Nat) (f : Nat → α) (d : α) (g : Nat → α → β) :
    ((List.range n).map fun k => g k (((List.range n).map f).getD k d)) = (List.range n).map fun k => g k (f k) :=
  List.map_congr_left fun k hk => by simp [List.getD_eq_getElem?_getD, List.mem_range.mp hk]

theorem any_range_getD {α : Type} (n : Nat) (f : Nat → α) (d : α) (p : Nat → α → Bool) :
    ((List.range n).any fun k => p k (((List.range n).map f).getD k d)) = (List.range n).any fun k => p k (f k) := by
  simpa only [List.any_map, Function.id_comp] using congrArg (List.any · id) (map_range_getD n f d p)

/-- R144, as DEVAL states it: the sum runs over the tangents and their deltas. -/
theorem devalLane_eq (c : Ctx) (t : Nat) (F : FTy) (a u : Code) :
    devalLane c t F a u =
      let delta (k : Nat) : XR := decodeF fp64 (c.cr.uOld.getD (u.toNat + k) 0).toNat
      let o := c.fop t F a
      let sum : XR := (List.range c.t).foldl (fun acc k => acc.add c.mode ((o.t k).mul (delta k))) o.x
      let y := roundX F.fmt c.mode sum
      let nanIn : Bool := o.x.isNaN || (List.range c.t).any fun k => (o.t k).isNaN || (delta k).isNaN
      let badDelta : Bool := (List.range c.t).any fun k => isSNaN fp64 (c.cr.uOld.getD (u.toNat + k) 0).toNat
      { val := some ⟨F.ty.wide, BitVec.ofNat 64 y.1, if Num.isNaNEnc F.fmt y.1
          then List.replicate c.t (BitVec.ofNat 64 (Num.canonNaN F.tfmt)) else (c.opnd t F.ty a).tan⟩,
        flags := (y.2.or { inv := o.snan || (sum.isNaN && !nanIn) || badDelta }).toBits } := by
  have hterms := map_range_getD c.t (fun k => (c.cr.uOld.getD (u.toNat + k) 0).toNat) 0
    fun k e => ((c.fop t F a).t k).mul (decodeF fp64 e)
  have hnan := any_range_getD c.t (fun k => (c.cr.uOld.getD (u.toNat + k) 0).toNat) 0
    fun k e => ((c.fop t F a).t k).isNaN || (decodeF fp64 e).isNaN
  simp only [Ctx.fop] at hterms hnan
  simp only [devalLane, Ctx.fop, hterms, hnan, List.foldl_map, List.any_map]
  rw [Bool.or_right_comm]
  rfl

end Sys2Proof.Machine

open Sys2Proof Sys2Proof.Machine

/-- Settles O6: CVT is a word with a V result (`exec_vec`), whose lane does one of three things by the kinds of its types
(`cvtLane_float`, `cvtLane_toInteger`, `cvtLane_ofInteger`). -/
theorem conversionResults : Obligations.ConversionResults := by
  intro b n d a x y s c h
  exact ⟨fun hx hy => exec_vec h rfl fun _ => cvtLane_float hx hy,
    fun hx hy => exec_vec h rfl fun _ => cvtLane_toInteger hx hy, fun _ hy => exec_vec h rfl fun _ => cvtLane_ofInteger hy⟩

/-- Settles O7: the moves say what their lanes hold; for DEVAL, `devalLane_eq`. -/
theorem tangentResults : Obligations.TangentResults :=
  ⟨fun _ _ _ _ _ _ _ h => exec_vec h rfl fun _ => rfl, fun _ _ _ _ _ _ _ h => exec_vec h rfl fun _ => rfl,
    fun _ _ _ _ _ _ h => exec_vec h rfl fun _ => rfl, fun _ _ _ _ _ _ h => exec_vec h rfl fun _ => rfl,
    fun _ _ _ _ _ _ _ h => exec_vec h rfl fun _ => rfl, fun _ _ _ _ _ _ _ h => exec_vec h rfl fun _ => rfl,
    fun _ _ _ _ _ _ h => exec_vec h rfl fun _ => rfl, fun _ _ _ _ _ _ h => exec_vec h rfl fun _ => rfl,
    fun _ _ _ a u ty _ c h => exec_vec h rfl fun t => devalLane_eq c t (FTy.ofCode ty) a u⟩
end

section
/-!
PROOFS. The combination of probability predicates (R154, R155).
-/

namespace Sys2Proof.Machine

open Sys2Proof
open Sys2Proof.Num (XR)

/-- A ready word of the frame has its effect, and its group moves on. -/
theorem exec_frame {i : Instr} {s : State} {c : Ctx} {eff : Ctx → State → State} (h : WordReady i s c)
    (hx : exec i s = frame i.info s eff) :
    exec i s = .next (finish i.last (eff c (if i.last then setPcs c s else s))) :=
  hx.trans (frame_of_ready h.here h.checks h.flows)

section
variable {c : Ctx} {t : Nat} {d a b : Code} {f : XR → XR → XR} {g : XR → XR → XR → XR → XR}

/-- Operands that share a tag are dependent. -/
def tagsOverlap (c : Ctx) (t : Nat) (a b : Code) : Bool := decide (qTag (c.q t a) &&& qTag (c.q t b) ≠ 0)

/-- Under DTRAP, dependent operands trap (R155). -/
def dependenceTraps (c : Ctx) (t : Nat) (a b : Code) : Bool := tagsOverlap c t a b && bitAt c.cr.mode.toNat 2

/-- What a lane that does not trap writes (R154). -/
def combined (c : Ctx) (t : Nat) (a b : Code) (f : XR → XR → XR) (g : XR → XR → XR → XR → XR) : Reg :=
  let p : XR := .ofRat (qReal (c.q t a))
  let q : XR := .ofRat (qReal (c.q t b))
  qReg (Num.q15 (f p q)) (qTag (c.q t a) ||| qTag (c.q t b))
    (qDep (c.q t a) ||| qDep (c.q t b) ||| (if tagsOverlap c t a b then 1 else 0))
    ((List.range c.t).map fun k => tanRne (g p q (tan32 ((c.q t a).tan.getD k 0)) (tan32 ((c.q t b).tan.getD k 0))))

theorem combineLane_of_trap (h : dependenceTraps c t a b = true) :
    combineLane c t d a b f g = { trap := some .dependentPredicate } :=
  if_pos h

theorem combineLane_of_no_trap (h : dependenceTraps c t a b = false) :
    combineLane c t d a b f g = { q := some (d.toNat, combined c t a b f g) } := by
  have hdep : (tagsOverlap c t a b).toNat = if tagsOverlap c t a b then 1 else 0 := by cases tagsOverlap c t a b <;> rfl
  rw [combined, ← hdep]
  exact if_neg (by simpa [dependenceTraps, tagsOverlap] using h)

theorem trap_combineLane : (combineLane c t d a b f g).trap.isSome = dependenceTraps c t a b := by
  cases h : dependenceTraps c t a b with
  | true => rw [combineLane_of_trap h]; rfl
  | false => rw [combineLane_of_no_trap h]; rfl

theorem combineLane_apply (pc : BitVec 56) (l : Lane) : (combineLane c t d a b f g).apply true 0 pc l =
    if dependenceTraps c t a b then l.updThread fun th => th.takeTrap .dependentPredicate 0 pc
    else (l.setQ d.toNat (combined c t a b f g)).setFlags 0 := by
  cases h : dependenceTraps c t a b with
  | true => rw [combineLane_of_trap h]; rfl
  | false => rw [combineLane_of_no_trap h]; rfl

end

/-- A ready word that combines predicates: its lanes trap or write the combination; active ones that trap leave. -/
theorem exec_combine {i : Instr} {s : State} {c : Ctx} {d a b : Code} {f : XR → XR → XR} {g : XR → XR → XR → XR → XR}
    (h : WordReady i s c) (hd : c.distinct = true)
    (hx : exec i s = quietWord i.info (fun k t => combineLane k t d a b f g) s) :
    exec i s = .next (wordAfter s c i.last
      (fun t l =>
        if c.exec t then
          if dependenceTraps c t a b then l.updThread fun th => th.takeTrap .dependentPredicate 0 c.start
          else (l.setQ d.toNat (combined c t a b f g)).setFlags 0
        else l)
      (fun t => c.active t && dependenceTraps c t a b) fun _ => none) := by
  rw [exec_frame h hx, commit_word_traps h.here _ _ _ _ _ _ hd]
  simp only [combineLane_apply, trap_combineLane]
  rfl

end Sys2Proof.Machine

open Sys2Proof Sys2Proof.Machine

/-- Settles O8: PAND and POR by `exec_combine`, PNOT by `exec_quiet`. -/
theorem predicateCombination : Obligations.PredicateCombination := by
  unfold Obligations.PredicateCombination
  simp only [List.forall_mem_cons]
  exact ⟨⟨fun _ _ _ _ _ _ h hd => (exec_combine h hd rfl :), fun _ _ _ _ _ _ h hd => (exec_combine h hd rfl :),
    List.forall_mem_nil _⟩, fun _ _ _ _ _ h => exec_quiet h rfl fun _ => rfl⟩
end

section
/-!
PROOFS. The moves between Q and V registers, PSEL, and the elections (R156, R158, R284).
-/

namespace Sys2Proof.Machine

open Sys2Proof

/-! ### Who is elected (R284) -/

theorem elected_of_lowest {c : Ctx} {w : Nat} (hw : w < 16) (ha : c.active w = true)
    (hlow : ∀ u < w, c.active u = false) : elected c = some w :=
  List.find?_range_eq_some.mpr ⟨ha, List.mem_range.mpr hw, fun u hu => by simp [hlow u hu]⟩

theorem elected_of_none {c : Ctx} (h : ∀ u < 16, c.active u = false) : elected c = none :=
  List.find?_range_eq_none.mpr fun u hu => by simp [h u hu]

theorem electOut_some (c : Ctx) (d : Code) (w t : Nat) : electOut c d (some w) t =
    { q := some (d.toNat, ⟨if t = w then 0x8000 else 0, List.replicate c.t 0⟩), flags := noFlags t } := by
  simp only [electOut, Option.some_inj, eq_comm (a := w)]
  rfl

theorem electOut_none (c : Ctx) (d : Code) (t : Nat) : electOut c d none t =
    { q := some (d.toNat, ⟨0, List.replicate c.t 0⟩), flags := noFlags t } := rfl

/-! ### ELECT.u -/

section
variable {s : State} {c : Ctx} {last : Bool} {d u : Code} {x : Dword} {q : Nat → Reg} {flags : Nat → BitVec 6}
  {f : Nat → LaneOut}

/-- The end of a word that writes a predicate in every executing lane. -/
theorem commit_quiet (h : s.ctx? = some c) (hf : ∀ t, f t = { q := some (d.toNat, q t), flags := flags t }) :
    finish last (commit true 0 false false f c (if last then setPcs c s else s)) = quietAfter s c last d q flags := by
  rw [commit_word h _ _ _ _ _ _ fun t _ => by rw [hf t], funext hf]
  rfl

/-- The crew with a uniform register set. -/
def setUniform (u : Code) (x : Dword) (cr : Crew) : Crew := { cr with u := cr.u.set u.toNat x }

/-- The same, where a uniform register has been set first. -/
theorem commit_quiet_set (h : s.ctx? = some c) (hf : ∀ t, f t = { q := some (d.toNat, q t), flags := flags t }) :
    finish last (commit true 0 false false f c ((if last then setPcs c s else s).updCrew c.ci (setUniform u x))) =
      quietAfter (s.updCrew c.ci (setUniform u x)) c last d q flags := by
  rw [setPcs_updCrew c last s (setUniform u x) (fun _ _ => rfl) fun _ => rfl]
  have hctx := updCrew_ctx h (setUniform u x) rfl
  exact (commit_quiet hctx hf :)

/-- The uniform register that ELECT.u tests is the one that its context holds. -/
theorem moved_u (h : s.ctx? = some c) (hu : c.cr.u[u.toNat]? = some x) :
    (((if last then setPcs c s else s).crews[c.ci]?.map fun cr => cr.u.getD u.toNat 0).getD 1) = x := by
  obtain ⟨ls, hcrew, _, _⟩ := moved_crew c last s (ctx_some h).2.2.1
  simp [hcrew, List.getD_eq_getElem?_getD, hu]

variable {b : Bool} (h : WordReady (.electU b d u) s c) (hu : c.cr.u[u.toNat]? = some x)
include h hu

theorem exec_electU_of_zero {w : Nat} (hx : x = 0) (hw : elected c = some w) :
    exec (.electU b d u) s = .next (quietAfter (s.updCrew c.ci (setUniform u 1)) c b d
      (fun t => ⟨if t = w then 0x8000 else 0, List.replicate c.t 0⟩) noFlags) := by
  rw [exec_frame h (rfl : execElectU b d u s = _)]
  simp only [moved_u h.here hu, hx, hw, decide_true, if_true, Option.isSome_some]
  exact congrArg _ (commit_quiet_set h.here fun t => electOut_some c d w t)

theorem exec_electU_of_ne_zero (hx : x ≠ 0) : exec (.electU b d u) s =
    .next (quietAfter s c b d (fun _ => ⟨0, List.replicate c.t 0⟩) noFlags) := by
  rw [exec_frame h (rfl : execElectU b d u s = _)]
  simp only [moved_u h.here hu, hx, decide_false, Bool.false_eq_true, if_false, Option.isSome_none]
  exact congrArg _ (commit_quiet h.here fun t => electOut_none c d t)

end

end Sys2Proof.Machine

open Sys2Proof Sys2Proof.Machine

/-- Settles O9: the moves and PSEL say what their lanes write; the elections by the lane that `elected` finds. -/
theorem predicateMovesAndElections : Obligations.PredicateMovesAndElections := by
  refine ⟨fun _ _ _ _ _ _ h => exec_quiet h rfl fun _ => rfl, fun _ _ _ _ _ _ h => exec_vec h rfl fun _ => rfl,
    fun _ _ _ _ _ _ h => exec_vec h rfl fun _ => rfl, fun _ _ _ _ _ _ h => exec_quiet h rfl fun _ => rfl,
    fun _ _ _ _ _ _ _ _ => ⟨fun h => exec_vec h rfl fun _ => rfl, fun h => exec_vec h rfl fun _ => rfl⟩,
    ?elect, ?electNone, ?electFree, fun _ _ _ _ _ _ h hu hx => exec_electU_of_ne_zero h hu hx⟩
  case elect =>
    intro b d s c w h hw ha hlow
    exact exec_quiet h rfl fun t => elected_of_lowest hw ha hlow ▸ electOut_some c d w t
  case electNone =>
    intro b d s c h hnone
    exact exec_quiet h rfl fun t => elected_of_none hnone ▸ electOut_none c d t
  case electFree =>
    intro b d u s c w h hu hw ha hlow
    exact exec_electU_of_zero h hu rfl (elected_of_lowest hw ha hlow)
end

section
/-!
PROOFS. The soft comparison and the blend of two values (R151, R152, R157).
-/

namespace Sys2Proof.Machine

open Sys2Proof
open Sys2Proof.Num (XR decodeF fp32)

/-! ### PCMP -/

/-- What R151 says of the fraction of a difference at temperature `tau`: σ of their quotient, where the enclosure
decides its rounding (log 7). -/
def SigmaFraction (tau : Rat) (diff : XR) (p : Nat) : Prop :=
  match diff with
  | .nan => p = 0
  | .inf neg => p = if neg then 0 else 0x8000
  | .fin _ z => ∀ r, (Num.sigmaR (z / tau)).image (fun w => Num.q15 (.ofRat w)) = some r → p = r

section
variable {c : Ctx} {t : Nat} {F : FTy} {d a b : Code} {tag : Nat}

/-- At temperature zero: FCMP.gt (R152). -/
theorem pcmpLane_of_zero (h : (decodeF fp32 c.cr.tempOld.toNat).isZero = true) : pcmpLane c t F d a b tag =
    { q := some (d.toNat, c.hard (fcmp 4 (c.fop t F a).x (c.fop t F b).x)),
      flags := flagIf ((c.fop t F a).snan || (c.fop t F b).snan) flagInvalid } :=
  if_pos h

/-- At any other temperature: the fraction by the kind of the difference, under the tag given (R151). -/
theorem pcmpLane_of_ne_zero (h : (decodeF fp32 c.cr.tempOld.toNat).isZero = false) : ∃ p tan,
    pcmpLane c t F d a b tag =
      { q := some (d.toNat, qReg p tag 0 tan),
        flags := flagIf ((c.fop t F a).snan || (c.fop t F b).snan) flagInvalid } ∧
    tan.length = c.t ∧
    SigmaFraction (decodeF fp32 c.cr.tempOld.toNat).rat ((c.fop t F a).x.sub .rne (c.fop t F b).x) p := by
  simp only [pcmpLane, h, Bool.false_eq_true, if_false]
  cases (c.fop t F a).x.sub .rne (c.fop t F b).x with
  | nan => exact ⟨_, _, rfl, List.length_replicate, rfl⟩
  | inf neg => exact ⟨_, _, rfl, List.length_replicate, rfl⟩
  | fin n z => exact ⟨_, _, rfl, by simp, fun r hr => by rw [hr, Option.getD_some]⟩

end

/-! ### PBLEND -/

/-- R157 as the claim states it: the tangents of a NaN are NaN. -/
theorem pblendLane_eq (c : Ctx) (t : Nat) (F : FTy) (q : BitVec 3) (a b : Code) :
    pblendLane c t F q a b =
      let r := (c.lane t).getQ q.toNat
      let x := c.fop t F a
      let y := c.fop t F b
      let p : XR := .ofRat (qReal r)
      let p' : XR := (XR.ofRat 1).sub c.mode p
      let v : XR := if qP r = 0x8000 then x.x else if qP r = 0 then y.x else (p.mul x.x).add c.mode (p'.mul y.x)
      let yv := Num.arith F.fmt c.mode (if qP r = 0x8000 then [x] else if qP r = 0 then [y] else [x, y]) v
      let tan (k : Nat) : XR := if v = .nan then .nan else
        (((tan32 (r.tan.getD k 0)).mul (x.x.sub c.mode y.x)).add c.mode (p.mul (x.t k))).add c.mode (p'.mul (y.t k))
      { val := some ⟨F.ty.wide, BitVec.ofNat 64 yv.1,
          (List.range c.t).map fun k => BitVec.ofNat 64 (Num.roundX F.tfmt c.mode (tan k)).1⟩,
        flags := yv.2.toBits } := by
  simp only [pblendLane, Num.XR.isNaN_iff]

end Sys2Proof.Machine

open Sys2Proof Sys2Proof.Machine

/-- Settles O10: PCMP by its temperature (`pcmpLane_of_zero`, `pcmpLane_of_ne_zero`), PBLEND by `pblendLane_eq`. -/
theorem softPredicates : Obligations.SoftPredicates := by
  refine ⟨fun b d x y g m ty s c h => ⟨fun hzero => ?hard, fun hwarm => ?soft⟩,
    fun _ _ _ ty q x y _ c h => exec_vec h rfl fun t => pblendLane_eq c t (FTy.ofCode ty) q x y⟩
  case hard => exact exec_quiet h rfl fun _ => pcmpLane_of_zero hzero
  case soft =>
    have hlanes (t : Nat) := pcmpLane_of_ne_zero (t := t) (F := FTy.ofCode ty) (d := d) (a := x) (b := y)
      (tag := if g == 1#1 then 2 ^ m.toNat else 0) hwarm
    choose p tan hlane hlen hfrac using hlanes
    refine ⟨_, exec_quiet h rfl hlane, fun t => ⟨p t, tan t, ?_, hlen t, hfrac t⟩⟩
    simp only [beq_iff_eq]
end

section
/-!
PROOFS. Random streams and draws (R159-R163).
-/

namespace Sys2Proof.Machine

open Sys2Proof

/-! ### Words that draw -/

@[simp] theorem Lane.setFlags_zero (l : Lane) : l.setFlags 0 = l := by
  simp only [Lane.setFlags, BitVec.ofNat_eq_ofNat, BitVec.or_zero]
  exact updThread_id l

theorem guardedOff_of_exec {c : Ctx} {t : Nat} (h : c.exec t = true) : c.guardedOff t = false := by
  simp only [Ctx.exec, Bool.and_eq_true] at h
  simp [Ctx.guardedOff, h.2]

/-- The counter of a guarded-off lane moves all the same (R163). -/
def skipDraw (c : Ctx) (t : Nat) (l : Lane) : Lane := if c.guardedOff t then { l with ctr := l.ctr + 1 } else l

theorem skipDraw_of_exec {c : Ctx} {t : Nat} (h : c.exec t = true) (l : Lane) : skipDraw c t l = l := by
  simp [skipDraw, guardedOff_of_exec h]

/-- The group once a word's results are committed. -/
def commitGroup (c : Ctx) (n : Bool) (d : Code) (wide pushes : Bool) (f : Nat → LaneOut) (g : Group) : Group :=
  { g with
    latch := g.latch.mapIdx fun t vs =>
      if !pushes then vs
      else if c.exec t then
        match (f t).val with
        | some v => pushLatch v vs
        | none => vs
      else if c.guardedOff t then pushLatch (c.stays wide n d t) vs
      else vs
    lanes := g.lanes.mapIdx fun t r => if c.active t && (f t).trap.isSome then { r with kind := .gone } else r }

section
variable {s : State} {c : Ctx} {last n wide pushes : Bool} {d : Code} {f : Nat → LaneOut}

theorem commit_eq_updGroup : commit n d wide pushes f c s =
    (s.mapLanes c.ci fun p l =>
      match c.laneOf p with
      | some t => if c.exec t then (f t).apply n d c.start l else l
      | none => l).updGroup c.core c.slot (commitGroup c n d wide pushes f) := rfl

theorem commitGroup_of_no_trap (hf : ∀ t, c.exec t = true → (f t).trap = none) :
    commitGroup c n d wide pushes f c.g =
      { c.g with
        lanes := gone nobody c.g.lanes
        latch := c.g.latch.mapIdx (latchAfter (commitPush c n d wide pushes f)) } := by
  have hstay (t : Nat) : (c.active t && (f t).trap.isSome) = false := by
    cases ha : c.active t with
    | false => rfl
    | true => rw [hf t (active_exec ha)]; rfl
  simp only [commitGroup, hstay, gone, nobody]
  congr 2
  funext t vs
  rw [latchAfter, commitPush]
  cases pushes with
  | false => rfl
  | true =>
    cases c.exec t with
    | true => rfl
    | false => cases c.guardedOff t <;> rfl

/-- A word whose lanes change by `pre` before its results are committed. -/
theorem commit_word_after (h : s.ctx? = some c) (pre : Nat → Lane → Lane)
    (hf : ∀ t, c.exec t = true → (f t).trap = none) :
    finish last (commit n d wide pushes f c ((if last then setPcs c s else s).mapLanes c.ci fun p l =>
        match c.laneOf p with
        | some t => pre t l
        | none => l)) =
      wordAfter s c last (fun t l => if c.exec t then (f t).apply n d c.start (pre t l) else pre t l) nobody
        (commitPush c n d wide pushes f) := by
  rw [← finish_word h last _ _ nobody _ (commitGroup_of_no_trap hf) (.inl rfl), commit_eq_updGroup, mapLanes_twice,
    ← mapLanes_updGroup, ← mapLanes_moved]
  congr 3
  funext p l
  cases c.laneOf p <;> rfl

end

section
variable {i : Instr} {s : State} {c : Ctx} {n wide pushes : Bool} {d : Code} {f : Ctx → Nat → LaneOut}

/-- A ready word that draws: its results where it executes, and the next counter where it is guarded off. -/
theorem exec_draw (h : WordReady i s c) (hx : exec i s = drawWord i.info n d wide pushes f s)
    (hf : ∀ t, (f c t).trap = none) :
    exec i s = .next (wordAfter s c i.last
      (fun t l =>
        if c.exec t then (f c t).apply n d c.start l
        else if c.guardedOff t then { l with ctr := l.ctr + 1 } else l)
      nobody (commitPush c n d wide pushes (f c))) := by
  rw [exec_frame h hx]
  refine congrArg _ ((commit_word_after h.here (skipDraw c) fun t _ => hf t).trans ?_)
  refine wordAfter_congr _ _ _ _ (fun t l => ?_) fun _ => rfl
  by_cases he : c.exec t = true
  · rw [if_pos he, if_pos he, skipDraw_of_exec he]
  · rw [if_neg he, if_neg he, skipDraw]

/-- A ready word whose result is a draw leaves the state of `drawAfter`. -/
theorem exec_draw_vec {val : Nat → Val} (h : WordReady i s c) (hx : exec i s = drawWord i.info n d wide true f s)
    (hf : ∀ t, f c t = { c.drawn t with val := some (val t) }) :
    exec i s = .next (drawAfter s c i.last n d wide val) := by
  rw [exec_draw h hx fun t => by rw [hf t]; rfl, funext hf]
  refine congrArg _ (wordAfter_congr _ _ _ _ (fun t l => ?_) fun _ => rfl)
  simp only [LaneOut.apply, Ctx.drawn, Lane.setFlags_zero]

end

end Sys2Proof.Machine

open Sys2Proof Sys2Proof.Machine

/-- Settles O11: RKEY commits a stream (`commit_word`), RNEXT draws a V result (`exec_draw_vec`), PCOLL a predicate
(`exec_draw`). -/
theorem randomDraws : Obligations.RandomDraws := by
  refine ⟨?rkey, fun _ _ _ _ _ h => exec_draw_vec h rfl fun _ => rfl,
    fun _ _ _ _ _ h => exec_draw_vec h rfl fun _ => rfl, fun _ _ _ _ _ h => exec_draw_vec h rfl fun _ => rfl,
    ?pcoll, fun _ _ => rfl⟩
  case rkey =>
    intro b x y s c h
    rw [exec_frame h rfl]
    refine congrArg _ ((commit_word h.here _ _ _ _ _ _ fun _ _ => rfl).trans ?_)
    simp only [LaneOut.apply, Lane.setFlags_zero]
    rfl
  case pcoll =>
    intro b d x s c h
    rw [exec_draw h rfl fun _ => rfl]
    simp only [LaneOut.apply, Ctx.drawn, Lane.setFlags_zero]
    rfl
end

section
/-!
PROOFS. Rejoin masks and regions (R174, R181, R182, R185, R186).
-/

namespace Sys2Proof.Machine

open Sys2Proof

theorem exec_join (b : Bool) (k : BitVec 6) (s : State) : exec (.join b k) s = execJoin b k s := rfl
theorem exec_leave (b : Bool) (k : BitVec 6) (s : State) : exec (.leave b k) s = execLeave b k s := rfl
theorem exec_waitm (k : BitVec 6) (s : State) : exec (.waitm k) s = execWaitm k s := rfl
theorem exec_region (b : Bool) (v : BitVec 14) (q : BitVec 4) (s : State) : exec (.region b v q) s = execRegion b v q s := rfl

/-! ### Mask bits -/

theorem getLsbD_maskBit (r : Nat) {j : Nat} (hj : j < 16) : (BitVec.ofNat 16 (2 ^ r)).getLsbD j = decide (r = j) := by
  rw [BitVec.getLsbD_ofNat, Nat.testBit_two_pow, decide_eq_true hj, Bool.true_and]

theorem getLsbD_setBit (m : BitVec 16) (r : Nat) {j : Nat} (hj : j < 16) :
    (m ||| BitVec.ofNat 16 (2 ^ r)).getLsbD j = (m.getLsbD j || decide (r = j)) := by
  rw [BitVec.getLsbD_or, getLsbD_maskBit r hj]

theorem getLsbD_clearBit (m : BitVec 16) (r : Nat) {j : Nat} (hj : j < 16) :
    (m &&& ~~~BitVec.ofNat 16 (2 ^ r)).getLsbD j = (m.getLsbD j && !decide (r = j)) := by
  rw [BitVec.getLsbD_and, BitVec.getLsbD_not, getLsbD_maskBit r hj, decide_eq_true hj, Bool.true_and]

/-- Changes of mask bits, one after another: bit `j` of mask `i` takes the value `v` where a change of the list hits it. -/
theorem getLsbD_foldl_masks {ts : List Nat} {f : List (BitVec 16) → Nat → List (BitVec 16)} {hit : Nat → Bool} {v : Bool}
    {i j : Nat} (hlen : ∀ ms t, (f ms t).length = ms.length)
    (hf : ∀ (ms : List (BitVec 16)) (t : Nat), i < ms.length →
      ((f ms t).getD i 0).getLsbD j = if hit t then v else (ms.getD i 0).getLsbD j)
    (ms : List (BitVec 16)) (hi : i < ms.length) :
    ((ts.foldl f ms).getD i 0).getLsbD j = if ts.any hit then v else (ms.getD i 0).getLsbD j := by
  induction ts generalizing ms with
  | nil => rfl
  | cons t ts ih =>
    rw [List.foldl_cons, ih _ (by rwa [hlen]), hf ms t hi, List.any_cons]
    cases hit t <;> simp

/-- JOIN and LEAVE change the bits of the active lanes' own places in mask `k` of their home groups (R181). -/
theorem getLsbD_maskWrite (c : Ctx) (k : Nat) (set : Bool) (ms : List (BitVec 16)) {i j : Nat} (hk : k < 12)
    (hi : i < ms.length) (hj : j < 16) :
    ((maskWrite c k set ms).getD i 0).getLsbD j =
      if i % 12 = k ∧ (List.range 16).any (fun t => c.active t && decide (c.place t = 16 * (i / 12) + j)) then set
      else (ms.getD i 0).getLsbD j := by
  have hstep (ms : List (BitVec 16)) (t : Nat) (hi : i < ms.length) :
      ((ms.modify (12 * (c.place t / 16) + k) fun m =>
        if set then m ||| BitVec.ofNat 16 (2 ^ (c.place t % 16)) else m &&& ~~~BitVec.ofNat 16 (2 ^ (c.place t % 16))).getD
          i 0).getLsbD j =
        if decide (i % 12 = k) && decide (c.place t = 16 * (i / 12) + j) then set else (ms.getD i 0).getLsbD j := by
    have hplace : (decide (i % 12 = k) && decide (c.place t = 16 * (i / 12) + j)) =
        (decide (12 * (c.place t / 16) + k = i) && decide (c.place t % 16 = j)) := by
      rw [← Bool.decide_and, ← Bool.decide_and, decide_eq_decide]
      omega
    rw [hplace, List.getD_eq_getElem?_getD, List.getD_eq_getElem?_getD, List.getElem?_modify, List.getElem?_eq_getElem hi]
    by_cases hmask : 12 * (c.place t / 16) + k = i
    · cases set
      · simp only [hmask, Bool.false_eq_true, if_true, if_false, Option.map_eq_map, Option.map_some, Option.getD_some,
          getLsbD_clearBit _ _ hj]
        by_cases hbit : c.place t % 16 = j <;> simp [hbit]
      · simp only [hmask, if_true, Option.map_eq_map, Option.map_some, Option.getD_some, getLsbD_setBit _ _ hj]
        by_cases hbit : c.place t % 16 = j <;> simp [hbit]
    · simp [hmask]
  rw [maskWrite, getLsbD_foldl_masks (fun ms t => List.length_modify ..) hstep ms hi, List.any_filter]
  by_cases hk : i % 12 = k <;> simp [hk]

/-! ### What the words of this chapter do in a lane -/

/-- What a word does in the lanes of its group, by the places of the crew. -/
def Ctx.onLanes (c : Ctx) (eff : Nat → Lane → Lane) (p : Nat) (l : Lane) : Lane :=
  match c.laneOf p with
  | some u => eff u l
  | none => l

/-- The end of a word that acts on the lanes of its group, and on nothing else. -/
theorem finish_onLanes {s : State} {c : Ctx} (h : s.ctx? = some c) (last : Bool) (eff : Nat → Lane → Lane) :
    finish last ((if last then setPcs c s else s).mapLanes c.ci (c.onLanes eff)) =
      wordAfter s c last eff nobody fun _ => none := by
  rw [← finish_word h last eff id nobody (fun _ => none)
    (by simp [gone_nobody, mapIdx_id (latchAfter fun _ => none) (fun _ _ => rfl)]) (.inl rfl),
    ← mapLanes_updGroup, updGroup_id, ← mapLanes_moved]
  rfl

theorem updThread_of_none {l : Lane} (f : Thread → Thread) (h : l.thread? = none) : l.updThread f = l := by
  cases hocc : l.occ with
  | thread th => simp [Lane.thread?, hocc] at h
  | never => simp [Lane.updThread, hocc]
  | exited t => simp [Lane.updThread, hocc]

/-- At the end of a run, a lane that holds no thread may count as leaving or not. -/
theorem wordAfter_livesActive {s : State} {c : Ctx} (h : s.ctx? = some c) (f : Nat → Thread → Thread) :
    wordAfter s c true (c.moveLane f) c.livesActive (fun _ => none) =
      wordAfter s c true (c.moveLane f) c.active fun _ => none := by
  have hcrews : (s.crews.modify c.ci fun cr =>
        { cr with lanes := cr.lanes.mapIdx (laneAfter s c true (c.moveLane f) c.livesActive) }) =
      s.crews.modify c.ci fun cr => { cr with lanes := cr.lanes.mapIdx (laneAfter s c true (c.moveLane f) c.active) } := by
    have hcr := (ctx_some h).2.2.1
    rw [modify_eq_set _ hcr, modify_eq_set _ hcr]
    congr 2
    refine List.mapIdx_eq_mapIdx_iff.mpr fun p hp => ?_
    simp only [laneAfter]
    cases hu : c.laneOf p with
    | none => rfl
    | some u =>
      have hl := (laneOf_lane (List.getElem?_eq_getElem hp) hu).2
      cases hth : c.cr.lanes[p].thread? with
      | none => simp only [Ctx.moveLane, updThread_of_none _ hth, ite_self]
      | some th => simp only [Ctx.livesActive, hl, hth, Option.isSome_some, Bool.and_true]
  simp only [wordAfter, groupAfter, Bool.true_or, if_true, hcrews]

theorem openRegion_thread {l : Lane} {th : Thread} (h : l.occ = .thread th) (m : BitVec 56) (v : BitVec 14) (q : BitVec 4) :
    ∃ th', (l.openRegion m v q).thread? = some th' ∧ th'.region = some ⟨m, v, q, th.depth, l.key, l.ctr⟩ ∧
      th'.pc = th.pc ∧ (l.openRegion m v q).v = l.v ∧ (l.openRegion m v q).q = l.q := by
  simp [Lane.openRegion, Lane.updThread, Lane.thread?, h]

theorem discardRegion_thread {l : Lane} {th : Thread} {r : Region} (h : l.occ = .thread th) (hr : th.region = some r) :
    ∃ th', l.discardRegion.thread? = some th' ∧ th'.pc = r.marker ∧ th'.depth = r.depth ∧
      l.discardRegion.key = r.key ∧ l.discardRegion.ctr = r.ctr := by
  simp [Lane.discardRegion, Lane.thread?, h, hr]

/-- A REGION that is not the first word of its run breaks a rule of its encoding (R185). -/
theorem wordTrap_region {b : Bool} {v : BitVec 14} {q : BitVec 4} {c : Ctx} (h : c.g.count ≠ 0) :
    wordTrap (Instr.region b v q).info c = some .illegalInstruction := by
  simp [wordTrap, Instr.info, Instr.uses, Use.illegal, h]

end Sys2Proof.Machine

open Sys2Proof Sys2Proof.Machine

/-- Settles O14: JOIN and LEAVE change their crew alone (`finish_crew`), bit by bit as `getLsbD_maskWrite` says; WAITM steers
its threads out of the run, REGION acts in its lanes (`finish_onLanes`). -/
theorem maskAndRegionWords : Obligations.MaskAndRegionWords := by
  refine ⟨fun b k s c hw => ?join, fun b k s c hw => ?leave, fun c k set ms i j hk hi hj => getLsbD_maskWrite c k set ms hk hi hj,
    fun k s c hw hd hall => ?waitm, fun b v q s c hw => ?region, fun l th m v q h => openRegion_thread h m v q,
    fun l th r h hr => discardRegion_thread h hr, fun b v q s c hc hcount => ?notFirst⟩
  case join =>
    rw [exec_join, execJoin]
    exact (frame_of_ready hw.here hw.checks hw.flows).trans
      (congrArg _ (finish_crew hw.here b _ (fun _ _ => rfl) (fun _ => rfl) rfl))
  case leave =>
    rw [exec_leave, execLeave]
    exact (frame_of_ready hw.here hw.checks hw.flows).trans
      (congrArg _ (finish_crew hw.here b _ (fun _ _ => rfl) (fun _ => rfl) rfl))
  case waitm =>
    rw [exec_waitm, execWaitm, ← wordAfter_livesActive hw.here]
    exact frame_steer_leave _ _ hw.here hw.checks hw.flows hd fun u th hu hth => ⟨rfl, rfl⟩
  case region =>
    rw [exec_region, execRegion]
    exact (frame_of_ready hw.here hw.checks hw.flows).trans (congrArg _ (finish_onLanes hw.here b _))
  case notFirst =>
    rw [exec_region, execRegion]
    exact frameWith_of_trap hc (wordTrap_region (q := q) hcount)
end

section
/-!
PROOFS. Joiner points, EXIT and TRAP (R175, R176, R183, R187, R357).
-/

namespace Sys2Proof.Machine

open Sys2Proof

theorem exec_callj (lv x y : BitVec 6) (s : State) : exec (.callj lv x y) s = execCallj lv x y s := rfl
theorem exec_regroup (lv x : BitVec 6) (s : State) : exec (.regroup lv x) s = execRegroup lv x s := rfl
theorem exec_exit (s : State) : exec .exit s = execExit s := rfl
theorem exec_trap (i : BitVec 12) (s : State) : exec (.trap i) s = execTrap i s := rfl

/-! ### Words whose active lanes leave the run one after another -/

theorem laneOf_place {c : Ctx} (hd : c.distinct = true) {t : Nat} (ht : c.active t = true) : c.laneOf (c.place t) = some t := by
  have hhere : (c.g.lanes[t]?.map (LaneRef.here (c.place t))).getD false = true := by
    simp only [Ctx.active, Ctx.kind, Bool.and_eq_true, beq_iff_eq] at ht
    cases hr : c.g.lanes[t]? with
    | none => simp [hr] at ht
    | some r => simp_all [Ctx.place, LaneRef.here]
  rw [laneOf_eq]
  cases hf : c.g.lanes.findIdx? (LaneRef.here (c.place t)) with
  | none =>
    obtain ⟨r, hr, hp⟩ := Option.map_eq_some_iff.mp (Option.getD_eq_iff.mp hhere |>.resolve_right (by simp))
    rw [List.findIdx?_eq_none_iff.mp hf r (List.mem_of_getElem? hr)] at hp
    cases hp
  | some u =>
    obtain ⟨hu, hp, _⟩ := List.findIdx?_eq_some_iff_getElem.mp hf
    rw [distinct_iff hd (u := u) (by simp [List.getElem?_eq_getElem hu, hp]) hhere]

theorem place_of_laneOf {c : Ctx} {p u : Nat} (h : c.laneOf p = some u) : c.place u = p := by
  obtain ⟨hlt, hp, _⟩ := List.findIdx?_eq_some_iff_getElem.mp h
  simp only [Bool.and_eq_true, beq_iff_eq] at hp
  simp [Ctx.place, List.getElem?_eq_getElem hlt, hp.1]

def Crew.withLanes (cr : Crew) (ls : List Lane) : Crew := { cr with lanes := ls }

/-- A change of the crew that neither reads nor writes its lanes. -/
def SparesLanes (K : Crew → Crew) : Prop := ∀ cr ls, K (cr.withLanes ls) = (K cr).withLanes ls

theorem SparesLanes.lanes {K : Crew → Crew} (h : SparesLanes K) (cr : Crew) : (K cr).lanes = cr.lanes := by
  have heta : K cr = (K cr).withLanes cr.lanes := h cr cr.lanes
  rw [heta]
  rfl

/-- What the turns of some lanes do to the crew beside its lanes. -/
def crewTurns (K : Nat → Crew → Crew) (ts : List Nat) (cr : Crew) : Crew := ts.foldl (fun cr t => K t cr) cr

theorem sparesLanes_crewTurns {K : Nat → Crew → Crew} (h : ∀ t, SparesLanes (K t)) (ts : List Nat) :
    SparesLanes (crewTurns K ts) := by
  induction ts with
  | nil => exact fun _ _ => rfl
  | cons t ts ih => exact fun cr ls => (congrArg (crewTurns K ts) (h t cr ls)).trans (ih (K t cr) ls)

theorem gone_modify (p : Nat → Bool) (ls : List LaneRef) (t : Nat) :
    gone p (ls.modify t fun r => { r with kind := .gone }) = gone (fun u => decide (u = t) || p u) ls := by
  apply List.ext_getElem?
  intro u
  simp only [gone, List.getElem?_mapIdx, List.getElem?_modify, eq_comm (a := t)]
  cases ls[u]? with
  | none => rfl
  | some r => by_cases hu : u = t <;> by_cases hp : p u = true <;> simp [hu, hp]

/-- A lane changes at its place, and later lanes change at theirs. -/
theorem mapIdx_onLanes_modify {c : Ctx} (hd : c.distinct = true) (F : Nat → Lane → Lane) {t : Nat} {ts : List Nat}
    (ht : c.active t = true) (hn : t ∉ ts) (ls : List Lane) :
    (ls.modify (c.place t) (F t)).mapIdx (c.onLanes fun u l => if u ∈ ts then F u l else l) =
      ls.mapIdx (c.onLanes fun u l => if u ∈ t :: ts then F u l else l) := by
  apply List.ext_getElem?
  intro p
  simp only [List.getElem?_mapIdx, List.getElem?_modify]
  cases ls[p]? with
  | none => rfl
  | some l =>
    by_cases hp : c.place t = p
    · subst hp
      simp [Ctx.onLanes, laneOf_place hd ht, hn]
    · cases hu : c.laneOf p with
      | none => simp [Ctx.onLanes, hu, hp]
      | some u =>
        have hne : u ≠ t := fun he => hp (he ▸ place_of_laneOf hu)
        simp [Ctx.onLanes, hu, hp, hne]

/-- The turn of lane `t`: its lane of the crew and the crew change, and its thread leaves the run. -/
def laneTurn (c : Ctx) (F : Nat → Lane → Lane) (K : Nat → Crew → Crew) (s : State) (t : Nat) : State :=
  ((s.updLane c.ci (c.place t) (F t)).leave t).updCrew c.ci (K t)

/-- The turns of some active lanes, together. -/
theorem foldl_laneTurn {c : Ctx} (hd : c.distinct = true) (F : Nat → Lane → Lane) {K : Nat → Crew → Crew}
    (hK : ∀ t, SparesLanes (K t)) {ts : List Nat} (hn : ts.Nodup) (ha : ∀ t ∈ ts, c.active t = true) {s : State}
    (hcur : s.cur = (c.core, c.slot)) :
    ts.foldl (laneTurn c F K) s =
      (((s.updCrew c.ci (crewTurns K ts)).mapLanes c.ci
        (c.onLanes fun u l => if u ∈ ts then F u l else l)).updGroup c.core c.slot fun g =>
          { g with lanes := gone (fun u => decide (u ∈ ts)) g.lanes }) := by
  induction ts generalizing s with
  | nil =>
    have hgone : (fun g : Group => { g with lanes := gone (fun u => decide (u ∈ ([] : List Nat))) g.lanes }) = id := by
      funext g
      simp [gone, mapIdx_id]
    have hcrews : s.crews.modify c.ci (crewTurns K []) = s.crews := List.modify_id ..
    rw [mapLanes_id _ _ _ (fun p l => by simp [Ctx.onLanes]; split <;> rfl), hgone, updGroup_id]
    rw [State.updCrew, hcrews]
    rfl
  | cons t ts ih =>
    have hcur' : (laneTurn c F K s t).cur = (c.core, c.slot) := hcur
    obtain ⟨hnt, hn⟩ := List.nodup_cons.mp hn
    have ht := ha t List.mem_cons_self
    rw [List.foldl_cons, ih hn (fun u hu => ha u (List.mem_cons_of_mem t hu)) hcur']
    simp only [laneTurn, State.leave, hcur, State.updLane, State.updGroup, State.updCore, State.mapLanes, State.updCrew,
      List.modify_modify_eq]
    congr 1
    · congr 1
      funext k
      simp only [Function.comp_def, List.modify_modify_eq]
      congr 2
      funext g
      cases g <;> simp [gone_modify, List.mem_cons]
    · congr 1
      funext cr
      have hrest := sparesLanes_crewTurns hK ts
      show (crewTurns K ts (K t (cr.withLanes _))).withLanes ((crewTurns K ts (K t (cr.withLanes _))).lanes.mapIdx _) =
        (crewTurns K ts (K t cr)).withLanes ((crewTurns K ts (K t cr)).lanes.mapIdx _)
      rw [hK t cr, hrest (K t cr), hrest.lanes, (hK t).lanes, ← mapIdx_onLanes_modify hd F ht hnt]
      rfl

/-- The lanes of a group that take a turn: the active ones of its 16 (R22). -/
def Ctx.turns (c : Ctx) : List Nat := (List.range 16).filter c.active

theorem active_of_mem_turns {c : Ctx} {t : Nat} (h : t ∈ c.turns) : c.active t = true := (List.mem_filter.mp h).2

theorem lt_of_active {c : Ctx} {t : Nat} (h : c.active t = true) : t < c.g.lanes.length := by
  refine Nat.lt_of_not_le fun hle => ?_
  simp [Ctx.active, Ctx.kind, List.getElem?_eq_none hle] at h

theorem mem_turns_iff {c : Ctx} (h : c.g.lanes.length ≤ 16) (t : Nat) : t ∈ c.turns ↔ c.active t = true :=
  ⟨active_of_mem_turns, fun ht => List.mem_filter.mpr ⟨List.mem_range.mpr (Nat.lt_of_lt_of_le (lt_of_active ht) h), ht⟩⟩

/-- The end of a word whose active lanes leave the run one after another. -/
theorem finish_laneTurns {s : State} {c : Ctx} (h : s.ctx? = some c) (hd : c.distinct = true) (F : Nat → Lane → Lane)
    {K : Nat → Crew → Crew} (hK : ∀ t, SparesLanes (K t)) (hp : (crewTurns K c.turns c.cr).part = c.cr.part) :
    finish true (eachLane c.active (laneTurn c F K) (setPcs c s)) =
      wordAfter (s.updCrew c.ci (crewTurns K c.turns)) c true (fun u l => if u ∈ c.turns then F u l else l)
        (fun u => decide (u ∈ c.turns)) fun _ => none := by
  have hrest := sparesLanes_crewTurns hK c.turns
  have hmoved := setPcs_updCrew c true s (crewTurns K c.turns) hrest hrest.lanes
  simp only [if_true] at hmoved
  have hfold := foldl_laneTurn hd F hK (ts := c.turns) (List.nodup_range.filter _) (fun t ht => active_of_mem_turns ht)
    (s := setPcs c s) (ctx_some h).1
  rw [hmoved] at hfold
  refine (congrArg (finish true) (hfold.trans ?_)).trans (finish_word (updCrew_ctx h (crewTurns K c.turns) hp) true
    (fun u l => if u ∈ c.turns then F u l else l)
    (fun g => { g with lanes := gone (fun u => decide (u ∈ c.turns)) g.lanes }) (fun u => decide (u ∈ c.turns)) (fun _ => none)
    (by simp only [mapIdx_id (latchAfter fun _ => none) (fun _ _ => rfl)]) (.inr hd))
  exact congrArg (fun x : State => x.updGroup c.core c.slot fun g => { g with lanes := gone (fun u => decide (u ∈ c.turns)) g.lanes })
    (mapLanes_moved c true (s.updCrew c.ci (crewTurns K c.turns)) fun u l => if u ∈ c.turns then F u l else l)

/-! ### What a lane's turn meets -/

theorem updCrew_congr {s : State} {ci : Nat} {cr : Crew} {f g : Crew → Crew} (h : s.crews[ci]? = some cr) (hfg : f cr = g cr) :
    s.updCrew ci f = s.updCrew ci g := by
  rw [State.updCrew, State.updCrew, modify_eq_set f h, modify_eq_set g h, hfg]

theorem updThread_congr {s : State} {ci li : Nat} {th : Thread} {f g : Thread → Thread} (h : s.thread? ci li = some th)
    (hfg : f th = g th) : s.updThread ci li f = s.updThread ci li g := by
  obtain ⟨l, hl, hth⟩ := Option.bind_eq_some_iff.mp h
  obtain ⟨cr, hcr, hlane⟩ := Option.bind_eq_some_iff.mp hl
  have hocc : l.updThread f = l.updThread g := by
    cases ho : l.occ with
    | thread t =>
      simp only [Lane.thread?, ho, Option.some.injEq] at hth
      simp only [Lane.updThread, ho, hth, hfg]
    | never => simp only [Lane.updThread, ho]
    | exited t => simp only [Lane.updThread, ho]
  refine updCrew_congr hcr ?_
  simp only [modify_eq_set _ hlane, hocc]

theorem setPcs_thread {s : State} {c : Ctx} (h : s.ctx? = some c) (hd : c.distinct = true) {t : Nat} (ht : c.active t = true)
    {th : Thread} (hth : (c.lane t).thread? = some th) :
    (setPcs c s).thread? c.ci (c.place t) = some { th with pc := c.next } := by
  have hlane : c.cr.lanes[c.place t]? = some (c.lane t) := by
    cases hl : c.cr.lanes[c.place t]? with
    | some l => simp [Ctx.lane, Ctx.laneAt, List.getD, hl]
    | none => simp [Ctx.lane, Ctx.laneAt, List.getD, hl, Lane.thread?] at hth
  simp [State.thread?, State.lane?, setPcs, State.mapLanes, State.updCrew, (ctx_some h).2.2.1, hlane, laneOf_place hd ht,
    active_takesPart ht, thread_updThread, hth]

theorem laneTurn_lane {c : Ctx} (F : Nat → Lane → Lane) {K : Nat → Crew → Crew} (hK : ∀ t, SparesLanes (K t)) (s : State)
    {u p : Nat} (hne : c.place u ≠ p) : (laneTurn c F K s u).lane? c.ci p = s.lane? c.ci p := by
  have hcrews : (laneTurn c F K s u).crews = (s.crews.modify c.ci fun cr => cr.withLanes (cr.lanes.modify (c.place u) (F u))).modify
      c.ci (K u) := rfl
  simp only [State.lane?, hcrews, List.getElem?_modify_eq]
  cases s.crews[c.ci]? with
  | none => rfl
  | some cr =>
    simp [(hK u).lanes, Crew.withLanes, hne]

/-- A lane that has its turn meets its thread as the word found it: the lanes before it are at other places. -/
theorem met_thread {s : State} {c : Ctx} (h : s.ctx? = some c) (hd : c.distinct = true) (F : Nat → Lane → Lane)
    {K : Nat → Crew → Crew} (hK : ∀ t, SparesLanes (K t)) {t : Nat} (ht : c.active t = true) {th : Thread}
    (hth : (c.lane t).thread? = some th) {n : Nat} (hn : n ≤ t) :
    (metBy c true c.active (fun u x => laneTurn c F K x u) s n).thread? c.ci (c.place t) = some { th with pc := c.next } := by
  induction n with
  | zero => exact setPcs_thread h hd ht hth
  | succ n ih =>
    rw [metBy_succ]
    cases hu : c.active n with
    | false => exact ih (Nat.le_of_succ_le hn)
    | true =>
      have hne : c.place n ≠ c.place t := fun he => by
        have hnt := (laneOf_place hd hu).symm.trans (he ▸ laneOf_place hd ht)
        exact Nat.ne_of_lt hn (Option.some.inj hnt)
      simp only [if_true, State.thread?, laneTurn_lane F hK _ hne]
      exact ih (Nat.le_of_succ_le hn)

theorem updGroup_lclk (s : State) (a b k : Nat) (f : Group → Group) : ((s.updGroup a b f).core k).lclk = (s.core k).lclk := by
  simp only [State.core, State.updGroup_cores, List.getD_eq_getElem?_getD, List.getElem?_modify]
  cases s.cores[k]? with
  | none => rfl
  | some co => by_cases hk : a = k <;> simp [hk]

theorem met_lclk (s : State) (c : Ctx) (F : Nat → Lane → Lane) (K : Nat → Crew → Crew) (n k : Nat) :
    ((metBy c true c.active (fun u x => laneTurn c F K x u) s n).core k).lclk = (s.core k).lclk :=
  have hturn (x : State) (u : Nat) : ((laneTurn c F K x u).core k).lclk = (x.core k).lclk :=
    updGroup_lclk (x.updLane c.ci (c.place u) (F u)) x.cur.1 x.cur.2 k _
  metBy_keeps (fun x => (x.core k).lclk = (s.core k).lclk) rfl (fun u x _ hx => (hturn x u).trans hx) n

/-! ### Joiner points -/

/-- A thread that a Joiner point gathers (R175): CALLJ has pushed the return address. -/
def Ctx.joinThread (c : Ctx) (call : Bool) (a : BitVec 56) (th : Thread) : Thread :=
  { (if call then { th with stack := th.stack.set th.depth (c.next.zeroExtend 64), depth := th.depth + 1 } else th) with
    region := none, held := [], run := .parked .joiner, pc := a, cont := a }

theorem sparesLanes_gather (now : Nat) (x : Gathered) : SparesLanes fun cr => cr.gather now x := by
  intro cr ls
  simp only [Crew.gather, Crew.withLanes]
  cases cr.batch with
  | none => rfl
  | some b => by_cases hroom : b.threads.length < Config.batchThreads <;> simp only [hroom, if_true, if_false]

theorem gatherLane_joins {c : Ctx} {s : State} {t : Nat} {th : Thread} {target : Dword} (key : BitVec 16) (lv : Nat) {call : Bool}
    (hgood : goodTarget target) (hth : s.thread? c.ci (c.place t) = some th) (hroom : call = true → th.depth < 16) :
    gatherLane c target key lv call s t =
      laneTurn c (fun _ l => l.updThread (c.joinThread call (target.truncate 56)))
        (fun _ cr => cr.gather (s.core c.core).lclk.toNat ⟨c.place t, target.truncate 56, key, lv⟩) s t := by
  have hcall : (if call then th.push c.next else some th) = some
      (if call then { th with stack := th.stack.set th.depth (c.next.zeroExtend 64), depth := th.depth + 1 } else th) := by
    cases call with
    | false => rfl
    | true => simp only [if_true, push_room c.next (hroom rfl)]
  simp only [gatherLane, badTarget_good hgood, hth, hcall]
  exact congrArg (fun x : State => (x.leave t).updCrew c.ci _) (updThread_congr hth rfl)

theorem crewTurns_gather_open (now : Nat) (x : Nat → Gathered) {ts : List Nat} {cr : Crew} {b : Batch}
    (hb : cr.batch = some b) (hroom : b.threads.length + ts.length ≤ 256) :
    crewTurns (fun t cr => cr.gather now (x t)) ts cr =
      { cr with batch := some { b with threads := b.threads ++ ts.map x } } := by
  induction ts generalizing cr b with
  | nil => simp [crewTurns, ← hb]
  | cons t ts ih =>
    have hlt : b.threads.length < Config.batchThreads := by
      have : Config.batchThreads = 256 := rfl
      simp only [List.length_cons] at hroom
      omega
    have hfirst : cr.gather now (x t) = { cr with batch := some { b with threads := b.threads ++ [x t] } } := by
      simp only [Crew.gather, hb, hlt, if_true]
    refine (congrArg (crewTurns _ ts) hfirst).trans ((ih rfl (by simp at hroom ⊢; omega)).trans ?_)
    simp

/-- The crew's open batch takes every thread that has its turn, where it has room for them all (R176). -/
theorem crewTurns_gather {c : Ctx} (now : Nat) (x : Nat → Gathered) (hsome : c.turns ≠ [])
    (hroom : ((c.cr.batch.map fun b => b.threads.length).getD 0) + c.turns.length ≤ 256) :
    crewTurns (fun t cr => cr.gather now (x t)) c.turns c.cr = { c.cr with batch := some (c.joined now x) } := by
  cases hb : c.cr.batch with
  | some b =>
    have hjoined : c.joined now x = { b with threads := b.threads ++ c.turns.map x } := by
      simp only [Ctx.joined, hb]
      rfl
    rw [crewTurns_gather_open now x hb (by simpa [hb] using hroom), hjoined]
  | none =>
    obtain ⟨t, ts, hts⟩ := List.exists_cons_of_ne_nil hsome
    have hfirst : c.cr.gather now (x t) = { c.cr with batch := some ⟨now, [x t]⟩ } := by simp only [Crew.gather, hb]
    have hjoined : c.joined now x = ⟨now, c.turns.map x⟩ := by
      simp only [Ctx.joined, hb]
      rfl
    rw [hjoined, hts]
    refine (congrArg (crewTurns _ ts) hfirst).trans ((crewTurns_gather_open now x rfl (by simp [hb, hts] at hroom ⊢; omega)).trans ?_)
    simp

/-- A Joiner point whose targets are good, and whose batch has room, gathers the threads of its group. -/
theorem finish_gatherAll {s : State} {c : Ctx} (h : s.ctx? = some c) (hd : c.distinct = true) {target : Nat → Dword}
    (key : Nat → BitVec 16) (lv : Nat) {call : Bool} (hsome : c.turns ≠ [])
    (hroom : ((c.cr.batch.map fun b => b.threads.length).getD 0) + c.turns.length ≤ 256)
    (hlive : ∀ t ∈ c.turns, goodTarget (target t) ∧ ∃ th, (c.lane t).thread? = some th ∧ (call = true → th.depth < 16)) :
    finish true (gatherAll target key lv call c (setPcs c s)) =
      wordAfter (s.updCrew c.ci fun cr => { cr with batch := some (c.joined (s.core c.core).lclk.toNat fun t =>
          ⟨c.place t, (target t).truncate 56, key t, lv⟩) }) c true
        (fun u l => if u ∈ c.turns then l.updThread (c.joinThread call ((target u).truncate 56)) else l)
        (fun u => decide (u ∈ c.turns)) fun _ => none := by
  let x (t : Nat) : Gathered := ⟨c.place t, (target t).truncate 56, key t, lv⟩
  let F (t : Nat) (l : Lane) : Lane := l.updThread (c.joinThread call ((target t).truncate 56))
  let K (t : Nat) (cr : Crew) : Crew := cr.gather (s.core c.core).lclk.toNat (x t)
  have hK (t : Nat) : SparesLanes (K t) := sparesLanes_gather _ _
  have hcrew := crewTurns_gather (s.core c.core).lclk.toNat x hsome hroom
  have hturns : gatherAll target key lv call c (setPcs c s) = eachLane c.active (laneTurn c F K) (setPcs c s) := by
    have hmet (f : State → Nat → State) (hf : ∀ t < 16, c.active t = true →
        f (metBy c true c.active (fun u x => laneTurn c F K x u) s t) t =
          laneTurn c F K (metBy c true c.active (fun u x => laneTurn c F K x u) s t) t) :=
      eachLane_met (last := true) (f := f) (fun t hlt ht => (hf t hlt ht).trans (if_pos ht).symm) (fun _ ht => ht)
    refine (hmet _ fun t hlt ht => ?_).trans (hmet _ fun _ _ _ => rfl).symm
    obtain ⟨hgood, th, hth, hdepth⟩ := hlive t (List.mem_filter.mpr ⟨List.mem_range.mpr hlt, ht⟩)
    rw [gatherLane_joins (key t) lv hgood (met_thread h hd F hK ht hth (Nat.le_refl t)) hdepth, met_lclk]
    rfl
  rw [hturns, finish_laneTurns h hd F hK (by rw [show crewTurns K c.turns c.cr = _ from hcrew])]
  rw [updCrew_congr (f := crewTurns K c.turns)
    (g := fun cr => { cr with batch := some (c.joined (s.core c.core).lclk.toNat x) }) (ctx_some h).2.2.1 hcrew]

theorem turns_ne_nil {c : Ctx} (h : c.someActive = true) : c.turns ≠ [] := by
  obtain ⟨t, hlt, ht⟩ := List.any_eq_true.mp h
  exact List.ne_nil_of_mem (List.mem_filter.mpr ⟨hlt, ht⟩)

theorem thread_of_mem_turns {c : Ctx} (h : c.allThreads = true) {t : Nat} (ht : t ∈ c.turns) :
    ∃ th, (c.lane t).thread? = some th := by
  have hlive := List.all_eq_true.mp h t (List.mem_filter.mp ht).1
  rw [active_of_mem_turns ht, Bool.not_true, Bool.false_or] at hlive
  exact Option.isSome_iff_exists.mp hlive

/-- In a group of 16 lanes, every active lane has its turn. -/
theorem wordAfter_turns {c : Ctx} (h : c.g.lanes.length ≤ 16) (s : State) (F : Nat → Lane → Lane) :
    wordAfter s c true (fun u l => if u ∈ c.turns then F u l else l) (fun u => decide (u ∈ c.turns)) (fun _ => none) =
      wordAfter s c true (fun u l => if c.active u then F u l else l) c.active fun _ => none := by
  simp only [mem_turns_iff h, Bool.decide_eq_true]

theorem goodTarget_next {a : BitVec 56} (h : bitsOf a 1 0 = 0) : goodTarget (a.zeroExtend 64) := by
  have ha := a.isLt
  simp only [goodTarget, bitsOf, fld, BitVec.toNat_setWidth] at *
  omega

/-- R175, R176 for CALLJ, in a group of 16 lanes. -/
theorem exec_callj_of_sixteen {s : State} {c : Ctx} {lv x y : BitVec 6} (h16 : c.g.lanes.length ≤ 16) (hd : c.distinct = true)
    (hsome : c.someActive = true) (hall : c.allThreads = true)
    (hroom : ((c.cr.batch.map fun b => b.threads.length).getD 0) + c.turns.length ≤ 256) (hw : WordReady (.callj lv x y) s c)
    (hgood : ∀ t, c.active t = true → goodTarget (c.prim t .i64 x)) (hstack : c.stackHas fun depth => depth < 16) :
    exec (.callj lv x y) s = .next (wordAfter
      (s.updCrew c.ci fun cr => { cr with batch := some (c.joined (s.core c.core).lclk.toNat fun t =>
        ⟨c.place t, (c.prim t .i64 x).truncate 56, (c.r32 t y).truncate 16, lv.toNat⟩) })
      c true (c.moveLane fun t => c.joinThread true ((c.prim t .i64 x).truncate 56)) c.active fun _ => none) := by
  rw [exec_callj, execCallj]
  refine (frame_of_ready hw.here hw.checks hw.flows).trans (congrArg _ ((finish_gatherAll hw.here hd _ _ (turns_ne_nil hsome)
    hroom fun t ht => ?_).trans (wordAfter_turns h16 _ _)))
  obtain ⟨th, hth⟩ := thread_of_mem_turns hall ht
  exact ⟨hgood t (active_of_mem_turns ht), th, hth, fun _ => hstack t (active_of_mem_turns ht) th hth⟩

/-- R175, R176 for REGROUP, in a group of 16 lanes. -/
theorem exec_regroup_of_sixteen {s : State} {c : Ctx} {lv x : BitVec 6} (h16 : c.g.lanes.length ≤ 16) (hd : c.distinct = true)
    (hsome : c.someActive = true) (hall : c.allThreads = true)
    (hroom : ((c.cr.batch.map fun b => b.threads.length).getD 0) + c.turns.length ≤ 256) (hw : WordReady (.regroup lv x) s c)
    (hgood : bitsOf c.next 1 0 = 0) :
    exec (.regroup lv x) s = .next (wordAfter
      (s.updCrew c.ci fun cr => { cr with batch := some (c.joined (s.core c.core).lclk.toNat fun t =>
        ⟨c.place t, c.next, (c.r32 t x).truncate 16, lv.toNat⟩) })
      c true (c.moveLane fun _ => c.joinThread false c.next) c.active fun _ => none) := by
  have hback : (c.next.zeroExtend 64).truncate 56 = c.next := BitVec.setWidth_setWidth_of_le _ (by decide)
  have hjoin := finish_gatherAll (target := fun _ => c.next.zeroExtend 64) (call := false) hw.here hd
    (fun t => (c.r32 t x).truncate 16) lv.toNat (turns_ne_nil hsome) hroom fun t ht =>
      ⟨goodTarget_next hgood, (thread_of_mem_turns hall ht).imp fun th hth => ⟨hth, nofun⟩⟩
  rw [hback] at hjoin
  rw [exec_regroup, execRegroup]
  exact (frame_of_ready hw.here hw.checks hw.flows).trans (congrArg _ (hjoin.trans (wordAfter_turns h16 _ _)))

/-! ### EXIT -/

/-- A lane whose thread exits: its registers and its stream state stay (R187). -/
def Lane.exit (l : Lane) : Lane :=
  match l.occ with
  | .thread th => { l with occ := .exited th.tid }
  | _ => l

/-- The masks of a crew once the bits of place `p` are clear (R183). -/
def clearPlace (masks : List (BitVec 16)) (p : Nat) : List (BitVec 16) :=
  masks.mapIdx fun i m => if i / 12 = p / 16 then m &&& ~~~BitVec.ofNat 16 (2 ^ (p % 16)) else m

theorem endThread_leave (c : Ctx) (s : State) (t : Nat) : (s.endThread c.ci (c.place t)).leave t =
    laneTurn c (fun _ => Lane.exit) (fun t cr => { cr with masks := clearPlace cr.masks (c.place t) }) s t := by
  have hcrews : s.crews.modify c.ci (fun cr => { cr with
        lanes := cr.lanes.modify (c.place t) Lane.exit, masks := clearPlace cr.masks (c.place t) }) =
      (s.crews.modify c.ci fun cr => { cr with lanes := cr.lanes.modify (c.place t) Lane.exit }).modify c.ci
        fun cr => { cr with masks := clearPlace cr.masks (c.place t) } := by
    rw [List.modify_modify_eq]
    rfl
  exact congrArg (fun crews => ({ s with crews := crews } : State).leave t) hcrews

theorem crewTurns_clearPlace (c : Ctx) (ts : List Nat) (cr : Crew) :
    crewTurns (fun t cr => { cr with masks := clearPlace cr.masks (c.place t) }) ts cr =
      { cr with masks := ts.foldl (fun ms t => clearPlace ms (c.place t)) cr.masks } := by
  induction ts generalizing cr with
  | nil => rfl
  | cons t ts ih => exact ih _

theorem getLsbD_clearPlace (ms : List (BitVec 16)) (p : Nat) {i j : Nat} (hi : i < ms.length) (hj : j < 16) :
    ((clearPlace ms p).getD i 0).getLsbD j =
      if decide (p = 16 * (i / 12) + j) then false else (ms.getD i 0).getLsbD j := by
  have hplace : decide (p = 16 * (i / 12) + j) = (decide (i / 12 = p / 16) && decide (p % 16 = j)) := by
    rw [← Bool.decide_and, decide_eq_decide]
    omega
  rw [hplace, List.getD_eq_getElem?_getD, List.getD_eq_getElem?_getD, clearPlace, List.getElem?_mapIdx,
    List.getElem?_eq_getElem hi]
  by_cases hgroup : i / 12 = p / 16
  · simp only [hgroup, if_true, Option.map_some, Option.getD_some, getLsbD_clearBit _ _ hj]
    by_cases hbit : p % 16 = j <;> simp [hbit]
  · simp [hgroup]

/-- R183, R187 for EXIT, in a group of 16 lanes. -/
theorem exec_exit_of_sixteen {s : State} {c : Ctx} (h16 : c.g.lanes.length ≤ 16) (hd : c.distinct = true)
    (hw : WordReady .exit s c) :
    ∃ masks, masks.length = c.cr.masks.length ∧
      exec .exit s = .next (wordAfter (s.updCrew c.ci fun cr => { cr with masks := masks }) c true
        (fun t l => if c.active t then l.exit else l) c.active fun _ => none) ∧
      ∀ i j, i < masks.length → j < 16 → (masks.getD i 0).getLsbD j =
        if (List.range 16).any (fun t => c.active t && decide (c.place t = 16 * (i / 12) + j)) then false
        else (c.cr.masks.getD i 0).getLsbD j := by
  let K (t : Nat) (cr : Crew) : Crew := { cr with masks := clearPlace cr.masks (c.place t) }
  let masks := c.turns.foldl (fun ms t => clearPlace ms (c.place t)) c.cr.masks
  have hlen : masks.length = c.cr.masks.length :=
    List.foldlRecOn c.turns _ (motive := fun ms : List (BitVec 16) => ms.length = c.cr.masks.length) rfl
      fun ms hms t _ => (List.length_mapIdx ..).trans hms
  have hcrew : crewTurns K c.turns c.cr = { c.cr with masks := masks } := crewTurns_clearPlace c c.turns c.cr
  refine ⟨masks, hlen, ?_, fun i j hi hj => ?_⟩
  · have hturns : eachLane c.active (fun s t => (s.endThread c.ci (c.place t)).leave t) (setPcs c s) =
        eachLane c.active (laneTurn c (fun _ => Lane.exit) K) (setPcs c s) :=
      congrArg (fun f => eachLane c.active f (setPcs c s)) (funext fun s => funext fun t => endThread_leave c s t)
    rw [exec_exit, execExit]
    refine (frame_of_ready hw.here hw.checks hw.flows).trans (congrArg _ ?_)
    refine (congrArg (finish true) hturns).trans ((finish_laneTurns hw.here hd _ (fun t _ _ => rfl) (by rw [hcrew])).trans ?_)
    rw [updCrew_congr (f := crewTurns K c.turns) (g := fun cr => { cr with masks := masks }) (ctx_some hw.here).2.2.1 hcrew]
    exact wordAfter_turns h16 _ _
  · rw [← List.any_filter]
    exact getLsbD_foldl_masks (fun ms t => List.length_mapIdx ..) (fun ms t hi => getLsbD_clearPlace ms (c.place t) hi hj)
      c.cr.masks (hlen ▸ hi)

/-- R357, R361 for TRAP, in any group. -/
theorem exec_trap_breaks {s : State} {c : Ctx} {i : BitVec 12} (hd : c.distinct = true) (hw : WordReady (.trap i) s c) :
    exec (.trap i) s = .next (wordAfter s c true (c.moveLane fun _ th => th.takeTrap .brk (i.zeroExtend 56) c.next) c.active
      fun _ => none) := by
  rw [exec_trap, execTrap, ← wordAfter_livesActive hw.here]
  exact frame_steer_leave _ _ hw.here hw.checks hw.flows hd fun u th hu hth => ⟨rfl, rfl⟩

/-! ### A group of 17 lanes -/

/-- A state outside R22: a group of 17 lanes, with threads in its first and its last. -/
def seventeenLanes : State :=
  ((atSlot 0 0 { State.reset.withFetchWord 32 0 with agenda := [] }).updGroup 0 0 fun g =>
    { g with lanes := ⟨.active, 0⟩ :: List.replicate 15 ⟨.empty, 0⟩ ++ [⟨.active, 1⟩] }).updCrew 0 fun cr =>
      { cr with lanes := match cr.lanes with
        | l :: _ :: ls => l :: l.updThread (fun th => { th with tid := 1 }) :: ls
        | ls => ls }

def seventeenCtx : Ctx := ⟨0, 0, (seventeenLanes.curGroup?).getD ⟨0, 0, 0, [], [], Bundle.empty⟩,
  seventeenLanes.crews[0]?.getD (State.newCrew ⟨0, 0, 0, 0, none, .live, 1, []⟩ 0 0 0 0), 3⟩

theorem seventeen_regroup_ready : WordReady (.regroup 0 6) seventeenLanes seventeenCtx :=
  ⟨by decide +kernel, by decide +kernel, by decide +kernel⟩

theorem seventeen_exit_ready : WordReady .exit seventeenLanes seventeenCtx :=
  ⟨by decide +kernel, by decide +kernel, by decide +kernel⟩

theorem seventeen_places : ∀ t < seventeenCtx.g.lanes.length, seventeenCtx.active t = true →
    seventeenCtx.place t < seventeenCtx.cr.lanes.length := by decide +kernel

/-- Where the thread of the 17th lane stands after a word. -/
def seventeenthRun : Out → Option RunState
  | .next t => (t.thread? seventeenCtx.ci 1).map Thread.run
  | _ => none

/-- The 17th lane has no turn: its thread goes on as after any last word of a run. -/
theorem seventeenth_goes_on : seventeenthRun (exec (.regroup 0 6) seventeenLanes) = some (.waking none) ∧
    seventeenthRun (exec .exit seventeenLanes) = some (.waking none) := by decide +kernel

theorem wordAfter_lane (s : State) (c : Ctx) (last : Bool) (eff : Nat → Lane → Lane) (leaves : Nat → Bool)
    (pushed : Nat → Option Val) (p : Nat) :
    (wordAfter s c last eff leaves pushed).lane? c.ci p = (s.lane? c.ci p).map (laneAfter s c last eff leaves p) := by
  simp only [State.lane?, wordAfter, List.getElem?_modify_eq]
  cases s.crews[c.ci]? with
  | none => rfl
  | some cr => exact List.getElem?_mapIdx

/-- A word that takes the thread out of its lane leaves none there. -/
theorem wordAfter_thread_none (s : State) {c : Ctx} (last : Bool) {eff : Nat → Lane → Lane} (leaves : Nat → Bool)
    (pushed : Nat → Option Val) {p u : Nat} (hu : c.laneOf p = some u) (heff : ∀ l, (eff u l).thread? = none) :
    (wordAfter s c last eff leaves pushed).thread? c.ci p = none := by
  rw [State.thread?, wordAfter_lane]
  cases s.lane? c.ci p with
  | none => rfl
  | some l =>
    simp only [Option.map_some, Option.bind_some, laneAfter, hu]
    split
    · rw [thread_updThread, heff, Option.map_none]
    · exact heff _

end Sys2Proof.Machine

open Sys2Proof Sys2Proof.Machine

/-- Refutes O13: its hypotheses allow a group of more than 16 lanes, which R22 excludes, and it says that every active
lane gathers; a Joiner point of the model goes through lanes 0 to 15.  In `seventeenLanes`, REGROUP leaves the thread of the
17th lane running on.  In a group of 16 lanes the claim holds: `exec_callj_of_sixteen`, `exec_regroup_of_sixteen`. -/
theorem not_joinerPoints : ¬ Obligations.JoinerPoints := by
  intro h
  obtain ⟨-, hregroup⟩ := h seventeenLanes seventeenCtx (by decide +kernel) (by decide +kernel) (by decide +kernel)
    (by decide +kernel)
  have hgoes := seventeenth_goes_on.1
  rw [hregroup 0 6 seventeen_regroup_ready (by decide +kernel)] at hgoes
  exact absurd hgoes (by decide +kernel)

/-- Refutes O15, as `not_joinerPoints`: its hypotheses allow a group of more than 16 lanes, and it says that every active
lane exits; in `seventeenLanes`, EXIT leaves the thread of the 17th lane running on.  In a group of 16 lanes the claim holds
of EXIT (`exec_exit_of_sixteen`), and of TRAP in any group (`exec_trap_breaks`). -/
theorem not_exitAndTrapWords : ¬ Obligations.ExitAndTrapWords := by
  rintro ⟨hexit, -⟩
  obtain ⟨masks, -, hexec, -⟩ := hexit seventeenLanes seventeenCtx seventeen_exit_ready (by decide +kernel) (by decide +kernel)
    (fun t ht => seventeen_places t (lt_of_active ht) ht)
  have hactive : seventeenCtx.active 16 = true := by decide +kernel
  have hgoes := seventeenth_goes_on.2
  rw [hexec, seventeenthRun, wordAfter_thread_none _ _ _ _ (u := 16) (by decide +kernel) ?exits] at hgoes
  case exits =>
    intro l
    cases ho : l.occ <;> simp [hactive, Lane.thread?, ho]
  cases hgoes
end

section
/-!
PROOFS. The Joiner's batches (R176-R179).
-/

namespace Sys2Proof.Machine

open Sys2Proof

theorem exec_joinerBatchClose (crew : Nat) (s : State) : exec (.joinerBatchClose crew) s = execJoinerBatchClose crew s := rfl
theorem exec_joinerMovesComplete (crew : Nat) (s : State) :
    exec (.joinerMovesComplete crew) s = execJoinerMovesComplete crew s := rfl

/-! ### Closing -/

theorem cycleOver_iff (s : State) (core : Nat) : cycleOver s core = true ↔
    ∃ k, (s.core core).lastSlot = some k ∧ ∀ j g, k < j → (s.core core).slots[j]? ≠ some (some g) := by
  unfold cycleOver
  cases (s.core core).lastSlot with
  | none => simp
  | some k =>
    simp only [Option.some.injEq, exists_eq_left', List.all_eq_true, List.mem_iff_getElem?, List.getElem?_drop]
    constructor
    · intro h j g hj hg
      have hfree := h (some g) ⟨j - (k + 1), by rwa [Nat.add_sub_cancel' hj]⟩
      cases hfree
    · rintro h o ⟨i, hi⟩
      cases o with
      | none => rfl
      | some g => exact absurd hi (h _ g (by omega))

theorem still_iff (th : Thread) : th.still = true ↔ th.run = .held ∨ th.run = .saved ∨ ∃ x, th.run = .parked x := by
  unfold Thread.still
  cases th.run <;> simp

theorem stopping_iff (cr : Crew) : cr.stopping = true ↔ ∃ p, cr.preempt = some p ∧ p.asked = false := by
  simp [Crew.stopping, Option.any_eq_true]

/-- The four reasons for which a batch closes (R176). -/
theorem batchDue_iff (now : Nat) (cr : Crew) (b : Batch) : batchDue now cr b = true ↔
    256 ≤ b.threads.length ∨ b.opened + 64 ≤ now ∨ (∃ p, cr.preempt = some p ∧ p.asked = false) ∨
      ∀ l ∈ cr.lanes, ∀ th, l.thread? = some th → th.run = .held ∨ th.run = .saved ∨ ∃ x, th.run = .parked x := by
  have hstill : (cr.lanes.all fun l => (l.thread?.map Thread.still).getD true) = true ↔
      ∀ l ∈ cr.lanes, ∀ th, l.thread? = some th → th.run = .held ∨ th.run = .saved ∨ ∃ x, th.run = .parked x := by
    rw [List.all_eq_true]
    refine forall₂_congr fun l _ => ?_
    cases l.thread? with
    | none => simp
    | some th => simp [still_iff]
  rw [batchDue, Bool.or_eq_true, Bool.or_eq_true, decide_eq_true_eq, stopping_iff, hstill, or_assoc, or_assoc]
  rfl

section
variable {s : State} {crew : Nat} {cr : Crew} (hcr : s.crews[crew]? = some cr)
include hcr

theorem coreOf_of_crew : s.coreOf crew = cr.core := by simp [State.coreOf, hcr]

theorem closeBatch_due {b : Batch} (hb : cr.batch = some b) (hdue : batchDue (s.core cr.core).lclk.toNat cr b = true) :
    closeBatch crew s = s.updCrew crew fun cr => { cr with batch := none, moving := cr.moving ++ [b] } :=
  updCrew_congr hcr (by simp only [hb, hdue, if_true])

theorem closeBatch_not_due {b : Batch} (hb : cr.batch = some b) (hdue : batchDue (s.core cr.core).lclk.toNat cr b = false) :
    closeBatch crew s = s := by
  have hsame : closeBatch crew s = s.updCrew crew id := updCrew_congr hcr (by simp [hb, hdue])
  rw [hsame, State.updCrew, List.modify_id]
end

/-! ### The order of a batch (R177) -/

theorem insertSorted_perm {α : Type} (before : α → α → Bool) (x : α) (l : List α) :
    (insertSorted before x l).Perm (x :: l) := by
  induction l with
  | nil => exact .refl _
  | cons y ys ih =>
    unfold insertSorted
    split
    · exact (ih.cons y).trans (.swap x y ys)
    · exact .refl _

theorem sortBy_perm {α : Type} (before : α → α → Bool) (l : List α) : (sortBy before l).Perm l := by
  induction l with
  | nil => exact .refl _
  | cons x xs ih => exact (insertSorted_perm before x _).trans (ih.cons x)

/-- A strict weak order, as its two uses in a sort: `before` is asymmetric, and its failure transitive. -/
structure WeakOrder {α : Type} (before : α → α → Bool) : Prop where
  asymm : ∀ a b, before a b = true → before b a = false
  trans : ∀ a b c, before b a = false → before c b = false → before c a = false

theorem insertSorted_sorted {α : Type} {before : α → α → Bool} (h : WeakOrder before) (x : α) {l : List α}
    (hl : l.Pairwise fun a b => before b a = false) : (insertSorted before x l).Pairwise fun a b => before b a = false := by
  induction l with
  | nil => exact List.pairwise_singleton ..
  | cons y ys ih =>
    obtain ⟨hy, hys⟩ := List.pairwise_cons.mp hl
    unfold insertSorted
    split
    case isTrue hyx =>
      refine List.pairwise_cons.mpr ⟨fun z hz => ?_, ih hys⟩
      rcases List.mem_cons.mp ((insertSorted_perm before x ys).mem_iff.mp hz) with rfl | hz
      · exact h.asymm y z hyx
      · exact hy z hz
    case isFalse hyx =>
      have hxy : before y x = false := Bool.eq_false_iff.mpr hyx
      refine List.pairwise_cons.mpr ⟨fun z hz => ?_, hl⟩
      rcases List.mem_cons.mp hz with rfl | hz
      · exact hxy
      · exact h.trans x y z hxy (hy z hz)

theorem sortBy_sorted {α : Type} {before : α → α → Bool} (h : WeakOrder before) (l : List α) :
    (sortBy before l).Pairwise fun a b => before b a = false := by
  induction l with
  | nil => exact .nil
  | cons x xs ih => exact insertSorted_sorted h x ih

theorem weakOrder_lt : WeakOrder fun a b : Nat => decide (a < b) :=
  ⟨fun a b h => by simp at h ⊢; omega, fun a b c h1 h2 => by simp at h1 h2 ⊢; omega⟩

def gatheredTid (s : State) (ci : Nat) (g : Gathered) : Nat := ((s.thread? ci g.lane).map fun t => t.tid).getD 0

theorem gatheredBefore_iff (s : State) (ci : Nat) (a b : Gathered) : gatheredBefore s ci a b = true ↔
    a.target.toNat < b.target.toNat ∨ (a.target = b.target ∧
      (a.key.toNat < b.key.toNat ∨ (a.key = b.key ∧ gatheredTid s ci a < gatheredTid s ci b))) := by
  unfold gatheredBefore gatheredTid
  by_cases htarget : a.target = b.target
  · by_cases hkey : a.key = b.key <;> simp [htarget, hkey]
  · simp [htarget]

theorem weakOrder_gathered (s : State) (ci : Nat) : WeakOrder (gatheredBefore s ci) := by
  constructor
  · intro a b h
    rw [Bool.eq_false_iff, Ne, gatheredBefore_iff]
    simp only [gatheredBefore_iff, ← BitVec.toNat_inj] at h ⊢
    omega
  · intro a b c h1 h2
    rw [Bool.eq_false_iff, Ne, gatheredBefore_iff, ← BitVec.toNat_inj, ← BitVec.toNat_inj] at h1 h2 ⊢
    omega

/-! ### The moves of a batch (R178, R179) -/

/-- The threads of a batch in their order, each with the place that it goes over. -/
def batchMoves (s : State) (ci : Nat) (b : Batch) : List (Gathered × Nat) :=
  (sortBy (gatheredBefore s ci) b.threads).zip
    (sortBy (fun a b => decide (a < b)) (b.threads.map fun (g : Gathered) => g.lane))

section
variable (s : State) (ci : Nat) (b : Batch)

theorem batchMoves_getElem (i : Nat) (g : Gathered) (p : Nat) : (batchMoves s ci b)[i]? = some (g, p) ↔
    (sortBy (gatheredBefore s ci) b.threads)[i]? = some g ∧
      (sortBy (fun a b => decide (a < b)) (b.threads.map fun (g : Gathered) => g.lane))[i]? = some p :=
  List.getElem?_zip_eq_some

theorem batchMoves_places : (batchMoves s ci b).map Prod.snd =
    sortBy (fun a b => decide (a < b)) (b.threads.map fun (g : Gathered) => g.lane) := by
  refine List.map_snd_zip ?_
  rw [(sortBy_perm _ _).length_eq, (sortBy_perm _ _).length_eq, List.length_map]

theorem mem_batchMoves_place {x : Gathered × Nat} (h : x ∈ batchMoves s ci b) : ∃ g ∈ b.threads, g.lane = x.2 := by
  have hplace : x.2 ∈ (batchMoves s ci b).map Prod.snd := List.mem_map_of_mem h
  rw [batchMoves_places, (sortBy_perm _ _).mem_iff] at hplace
  exact List.mem_map.mp hplace
end

/-- The move to a place, where the places are different. -/
theorem find_move {moves : List (Gathered × Nat)} (hn : (moves.map Prod.snd).Nodup) {i : Nat} {x : Gathered × Nat}
    (h : moves[i]? = some x) : moves.zipIdx.find? (fun y => y.1.2 == x.2) = some (x, i) := by
  have hmem : (x, i) ∈ moves.zipIdx := List.mem_zipIdx_iff_getElem?.mpr h
  cases hf : moves.zipIdx.find? (fun y => y.1.2 == x.2) with
  | none => simpa using List.find?_eq_none.mp hf _ hmem
  | some y =>
    obtain ⟨z, j⟩ := y
    have hz : moves[j]? = some z := List.mem_zipIdx_iff_getElem?.mp (List.mem_of_find?_eq_some hf)
    have hplace : z.2 = x.2 := by simpa using List.find?_some hf
    have hi : i < moves.length := (List.getElem?_eq_some_iff.mp h).1
    have hij : i = j := (List.getElem?_inj (by rwa [List.length_map]) hn).mp (by simp [List.getElem?_map, h, hz, hplace])
    subst hij
    rw [Option.some.inj (hz.symm.trans h)]

/-- The crew's lane at place `p` once the moves are complete. -/
def movedPlace (cr : Crew) (moves : List (Gathered × Nat)) (n p : Nat) (l : Lane) : Lane :=
  match moves.zipIdx.find? fun (x : (Gathered × Nat) × Nat) => x.1.2 == p with
  | some ((g, _), i) =>
    let src := cr.lanes.getD g.lane l
    (if g.lane = p then movedLane l l cr.c (n + i) g.target else movedLane src l g.live (n + i) g.target).moved cr.stopping
  | none => l

/-- A mask of home group `h` once the moves are complete. -/
def movedMask (moves : List (Gathered × Nat)) (h : Nat) (m : BitVec 16) : BitVec 16 :=
  moves.foldl (fun m x =>
    if x.1.lane ≠ x.2 ∧ x.2 / 16 = h then m &&& ~~~(BitVec.ofNat 16 (2 ^ (x.2 % 16))) else m) m

theorem moveBatch_crew {s : State} {crew : Nat} {cr : Crew} (hcr : s.crews[crew]? = some cr) (b : Batch) (n : Nat) :
    (moveBatch crew b n s).crews[crew]? = some { cr with
      lanes := cr.lanes.mapIdx (movedPlace cr (batchMoves s crew b) n)
      masks := cr.masks.mapIdx fun k => movedMask (batchMoves s crew b) (k / 12) } := by
  have hcrews : (moveBatch crew b n s).crews = s.crews.modify crew fun cr => { cr with
      lanes := cr.lanes.mapIdx (movedPlace cr (batchMoves s crew b) n)
      masks := cr.masks.mapIdx fun k => movedMask (batchMoves s crew b) (k / 12) } := rfl
  rw [hcrews, List.getElem?_modify_eq, hcr]
  rfl

/-- A batch whose lanes await no result goes over its places. -/
theorem joinerMovesComplete_crew {s : State} {crew : Nat} {cr : Crew} {b : Batch} {r : List Batch}
    (hcr : s.crews[crew]? = some cr) (hmoving : cr.moving = b :: r)
    (hout : ∀ g ∈ b.threads, s.outstanding crew g.lane = false) :
    ∃ t, exec (.joinerMovesComplete crew) s = .next t ∧ t.mem = s.mem ∧ t.crews[crew]? = some { cr with
      moving := r
      lanes := cr.lanes.mapIdx (movedPlace cr (batchMoves s crew b) (nextBlock cr))
      masks := cr.masks.mapIdx fun k => movedMask (batchMoves s crew b) (k / 12) } := by
  let s1 := s.updCrew crew fun cr => { cr with moving := r }
  have hnone : b.threads.any (fun g => s.outstanding crew g.lane) = false := by
    simpa using hout
  have hcr1 : s1.crews[crew]? = some { cr with moving := r } := by simp [s1, hcr]
  have hmoves : batchMoves s1 crew b = batchMoves s crew b := by
    have hthread (g : Gathered) : s1.thread? crew g.lane = s.thread? crew g.lane := by
      simp [State.thread?, State.lane?, hcr, hcr1]
    have hbefore : gatheredBefore s1 crew = gatheredBefore s crew := by
      funext x y
      simp only [gatheredBefore, hthread]
    rw [batchMoves, hbefore, batchMoves]
  refine ⟨moveBatch crew b (nextBlock cr) s1, ?_, rfl, ?_⟩
  · simp only [exec_joinerMovesComplete, execJoinerMovesComplete, hcr, hmoving, hnone]
    rfl
  · rw [moveBatch_crew hcr1, hmoves]
    rfl

theorem movedLane_self (l : Lane) (k k' block : Nat) (a : BitVec 56) : movedLane l l k block a = movedLane l l k' block a := by
  simp only [movedLane, List.take_append_drop]

/-- The lane that a thread's move leaves at its place. -/
theorem movedPlace_of_move {cr : Crew} {moves : List (Gathered × Nat)} (hn : (moves.map Prod.snd).Nodup) (n : Nat) {i : Nat}
    {g : Gathered} {p : Nat} (h : moves[i]? = some (g, p)) {src dst : Lane} (hsrc : cr.lanes[g.lane]? = some src)
    (hdst : cr.lanes[p]? = some dst) :
    movedPlace cr moves n p dst = (movedLane src dst g.live (n + i) g.target).moved cr.stopping := by
  have hget : cr.lanes.getD g.lane dst = src := by rw [List.getD_eq_getElem?_getD, hsrc, Option.getD_some]
  simp only [movedPlace, find_move hn h, hget]
  by_cases hstay : g.lane = p
  · obtain rfl : src = dst := Option.some.inj (hsrc.symm.trans (hstay ▸ hdst))
    rw [if_pos hstay, movedLane_self src cr.c g.live]
  · rw [if_neg hstay]

theorem movedPlace_of_no_move {cr : Crew} {moves : List (Gathered × Nat)} (n : Nat) {p : Nat} (h : ∀ x ∈ moves, x.2 ≠ p)
    (l : Lane) : movedPlace cr moves n p l = l := by
  have hnone : moves.zipIdx.find? (fun (x : (Gathered × Nat) × Nat) => x.1.2 == p) = none := by
    refine List.find?_eq_none.mpr fun x hx => ?_
    simpa using h x.1 (List.fst_mem_of_mem_zipIdx hx)
  simp only [movedPlace, hnone]

theorem getElem_spliced_of_lt {α : Type} {l m : List α} {k n : Nat} (hn : n < k) (hl : n < l.length) :
    (l.take k ++ m.drop k)[n]? = l[n]? := by
  rw [List.getElem?_append_left (by rw [List.length_take]; omega), List.getElem?_take_of_lt hn]

theorem getElem_spliced_of_le {α : Type} {l m : List α} {k n : Nat} (hn : k ≤ n) (hl : k ≤ l.length) :
    (l.take k ++ m.drop k)[n]? = m[n]? := by
  have hlen : (l.take k).length = k := List.length_take_of_le hl
  rw [List.getElem?_append_right (by rwa [hlen]), List.getElem?_drop, hlen, Nat.add_sub_cancel' hn]

/-- What a thread finds at its place after its move: its own live registers, Q registers and stream (R178). -/
theorem moved_spec {src : Lane} {th : Thread} (hth : src.occ = .thread th) (dst : Lane) (live block : Nat) (a : BitVec 56)
    (stopping : Bool) : ∃ l, (movedLane src dst live block a).moved stopping = l ∧
      l.occ = .thread { th with pc := a, cont := a, run := if stopping then .parked .joiner else .waking (some block) } ∧
      l.q = src.q ∧ l.key = src.key ∧ l.ctr = src.ctr ∧ l.v = src.v.take (4 * live) ++ dst.v.drop (4 * live) := by
  cases stopping <;> simp [Lane.moved, movedLane, Lane.updThread, hth]

theorem movedMask_bit (moves : List (Gathered × Nat)) (h : Nat) (m : BitVec 16) {j : Nat} (hj : j < 16) :
    (movedMask moves h m).getLsbD j = true ↔
      m.getLsbD j = true ∧ ∀ x ∈ moves, x.2 = 16 * h + j → x.1.lane = 16 * h + j := by
  unfold movedMask
  induction moves generalizing m with
  | nil => simp
  | cons x xs ih =>
    have hplace : x.2 = 16 * h + j ↔ x.2 / 16 = h ∧ x.2 % 16 = j := by omega
    rw [List.foldl_cons, ih, List.forall_mem_cons, ← and_assoc]
    refine and_congr_left fun _ => ?_
    split
    case isTrue hmove =>
      obtain ⟨hne, hgroup⟩ := hmove
      rw [getLsbD_clearBit _ _ hj, Bool.and_eq_true, hplace]
      refine and_congr_right fun _ => ?_
      by_cases hbit : x.2 % 16 = j
      · have hother : x.1.lane ≠ 16 * h + j := by omega
        simp [hgroup, hbit, hother]
      · simp [hbit]
    case isFalse hstay =>
      refine (and_iff_left fun hx => ?_).symm
      by_contra hother
      exact hstay ⟨fun he => hother (he.trans hx), (hplace.mp hx).1⟩

/-- A bit of a mask stays where the occupant of its lane does (R179). -/
theorem movedMask_batchMoves_bit (s : State) (ci : Nat) (b : Batch) (h : Nat) (m : BitVec 16) {j : Nat} (hj : j < 16) :
    (movedMask (batchMoves s ci b) h m).getLsbD j = true ↔ m.getLsbD j = true ∧
      ∀ (i : Nat) (g : Gathered), (sortBy (gatheredBefore s ci) b.threads)[i]? = some g →
        (sortBy (fun a b => decide (a < b)) (b.threads.map fun (g : Gathered) => g.lane))[i]? = some (16 * h + j) →
          g.lane = 16 * h + j := by
  rw [movedMask_bit _ _ _ hj]
  refine and_congr_right fun _ => ⟨fun hall i g hg hp => ?_, ?_⟩
  · exact hall (g, 16 * h + j) (List.mem_of_getElem? ((batchMoves_getElem s ci b i g _).mpr ⟨hg, hp⟩)) rfl
  · rintro hall ⟨g, p⟩ hx rfl
    obtain ⟨i, hi⟩ := List.mem_iff_getElem?.mp hx
    obtain ⟨hg, hp⟩ := (batchMoves_getElem s ci b i g _).mp hi
    exact hall i g hg hp

end Sys2Proof.Machine

open Sys2Proof Sys2Proof.Machine

/-- Settles O37: a batch closes for the reasons of `batchDue_iff`; its moves (`joinerMovesComplete_crew`) give each place the
lane of `moved_spec` and each mask the bits of `movedMask_bit`; insertion sorts by any weak order (`sortBy_sorted`). -/
theorem joinerBatches : Obligations.JoinerBatches := by
  refine ⟨fun crew s cr b k hcr hb hlast hslots hdue => ?closes, fun crew s cr b k hcr hb hlast hslots hlen hclk hpre hrun => ?stays,
    fun crew s cr j k g hcr hmid => ?midCycle, fun crew s cr b r hcr hmoving hout hnodup hlive => ?moves,
    fun s ci a b ta tb ha hb => ?order, fun s ci l => sortBy_sorted (weakOrder_gathered s ci) l, sortBy_perm, fun l => ?places⟩
  case closes =>
    have hover : cycleOver s (s.coreOf crew) = true := by
      rw [coreOf_of_crew hcr]
      exact (cycleOver_iff ..).mpr ⟨k, hlast, hslots⟩
    rw [exec_joinerBatchClose, execJoinerBatchClose, if_pos hover, closeBatch_due hcr hb ((batchDue_iff ..).mpr hdue)]
  case stays =>
    have hdue : batchDue (s.core cr.core).lclk.toNat cr b = false := by
      obtain ⟨l, hl, th, hth, hrunning⟩ := hrun
      rw [Bool.eq_false_iff, Ne, batchDue_iff]
      rintro (hfull | hold | ⟨p, hp, -⟩ | hstill)
      · omega
      · omega
      · simp [hpre] at hp
      · simpa [hrunning] using hstill l hl th hth
    rw [exec_joinerBatchClose, execJoinerBatchClose, closeBatch_not_due hcr hb hdue, ite_self]
  case midCycle =>
    have hover : cycleOver s (s.coreOf crew) ≠ true := by
      rw [coreOf_of_crew hcr, Ne, cycleOver_iff]
      rintro ⟨k', hlast, hslots⟩
      rcases hmid with hnone | ⟨hk, hkj, hg⟩
      · simp [hlast] at hnone
      · obtain rfl : k' = k := Option.some.inj (hlast.symm.trans hk)
        exact hslots j g hkj hg
    rw [exec_joinerBatchClose, execJoinerBatchClose, if_neg hover]
  case moves =>
    intro order places
    obtain ⟨t, hexec, hmem, hcrew⟩ := joinerMovesComplete_crew hcr hmoving hout
    have hplaces : ((batchMoves s crew b).map Prod.snd).Nodup := by
      rw [batchMoves_places]
      exact (sortBy_perm _ _).nodup_iff.mpr hnodup
    refine ⟨t, _, hexec, hcrew, rfl, hmem, fun i g p hg hp => ?_, fun p hp => ?_, fun h k m hk hm => ?_⟩
    · have hmove := (batchMoves_getElem s crew b i g p).mpr ⟨hg, hp⟩
      obtain ⟨src, th, hsrc, hth⟩ := hlive g ((sortBy_perm _ _).mem_iff.mp (List.mem_of_getElem? hg))
      obtain ⟨g', hg', rfl⟩ := mem_batchMoves_place s crew b (List.mem_of_getElem? hmove)
      obtain ⟨dst, _, hdst, _⟩ := hlive g' hg'
      obtain ⟨l, hl, hocc, hq, hkey, hctr, hv⟩ := moved_spec hth dst g.live (nextBlock cr + i) g.target cr.stopping
      refine ⟨src, dst, th, l, _, hsrc, hth, hdst, ?lane, hocc, rfl, rfl, rfl, rfl, rfl, hq, hkey, hctr,
        fun n hn hlen => ?own, fun n hn hlen => ?stay⟩
      case lane => rw [List.getElem?_mapIdx, hdst, Option.map_some, movedPlace_of_move hplaces (nextBlock cr) hmove hsrc hdst, hl]
      case own => rw [hv, getElem_spliced_of_lt hn hlen]
      case stay => rw [hv, getElem_spliced_of_le hn hlen]
    · have hnone : ∀ x ∈ batchMoves s crew b, x.2 ≠ p := fun x hx he => by
        obtain ⟨g, hg, hlane⟩ := mem_batchMoves_place s crew b hx
        exact hp g hg (hlane.trans he)
      rw [List.getElem?_mapIdx]
      cases cr.lanes[p]? with
      | none => rfl
      | some l => exact congrArg some (movedPlace_of_no_move (nextBlock cr) hnone l)
    · have hgroup : (12 * h + k) / 12 = h := by omega
      refine ⟨movedMask (batchMoves s crew b) h m, by rw [List.getElem?_mapIdx, hm, hgroup]; rfl, fun j hj => ?_⟩
      exact movedMask_batchMoves_bit s crew b h m hj
  case order =>
    rw [gatheredBefore_iff]
    simp [gatheredTid, ha, hb]
  case places => simpa using sortBy_sorted weakOrder_lt l
end

section
/-!
PROOFS. The operations of the state, and the loads, the stores and the other words of memory, keep the canonical form of
memory and of the block descriptors (O56).  The form is a fact of two fields, `mem` and `desc`, and only `physStore`, `setDesc`,
`freshTyped` and a restoration write them; every other operation keeps both, and a proof follows its branches.
-/

set_option Elab.async false

namespace Sys2Proof.Machine

open Sys2Proof

/-- The state that an outcome goes on with, if any, keeps the canonical form of memory and descriptors. -/
def OutFormed (o : Out) : Prop := ∀ t, o = .next t → t.formed
/-- The state that an operation leaves, where it is possible. -/
def OptFormed (o : Option State) : Prop := ∀ t, o = some t → t.formed
/-- The state that an access leaves, where it goes well. -/
def AccFormed (x : Acc State) : Prop := ∀ t, x = .ok t → t.formed
/-- The state that a stamp's write leaves, where the stamp is written. -/
def StampFormed (x : State.Stamped) : Prop := ∀ t, x = .written t → t.formed
/-- The state within what a step of the traversal unit gives, where it goes well. -/
def WalkedFormed {α : Type} (st : α → State) (x : Walked α) : Prop := ∀ a, x = .ok a → (st a).formed

theorem OutFormed.next {s : State} (h : s.formed) : OutFormed (.next s) := fun _ he => Host.Outcome.next.inj he ▸ h

theorem OutFormed.fail {o : Out} (h : ∀ s, o ≠ .next s) : OutFormed o := fun _ he => absurd he (h _)

theorem OutFormed.ite {p : Prop} [Decidable p] {x y : Out} (hx : OutFormed x) (hy : OutFormed y) :
    OutFormed (if p then x else y) := by
  split
  · exact hx
  · exact hy

theorem OptFormed.some {s : State} (h : s.formed) : OptFormed (some s) := fun _ he => Option.some.inj he ▸ h

theorem OptFormed.none : OptFormed none := fun _ he => nomatch he

theorem OptFormed.ite {p : Prop} [Decidable p] {x y : Option State} (hx : OptFormed x) (hy : OptFormed y) :
    OptFormed (if p then x else y) := by
  split
  · exact hx
  · exact hy

theorem OptFormed.bind {α : Type} {x : Option α} {f : α → Option State}
    (hf : ∀ a, x = Option.some a → OptFormed (f a)) : OptFormed (x.bind f) := by
  cases x with
  | none => exact .none
  | some a => exact hf a rfl

theorem OptFormed.getD {x : Option State} {s : State} (hx : OptFormed x) (h : s.formed) : (x.getD s).formed := by
  cases x with
  | none => exact h
  | some t => exact hx t rfl

theorem AccFormed.ok {s : State} (h : s.formed) : AccFormed (.ok s) := fun _ he => Acc.ok.inj he ▸ h

theorem AccFormed.fail {x : Acc State} (h : ∀ s, x ≠ .ok s) : AccFormed x := fun _ he => absurd he (h _)

theorem AccFormed.ite {p : Prop} [Decidable p] {x y : Acc State} (hx : AccFormed x) (hy : AccFormed y) :
    AccFormed (if p then x else y) := by
  split
  · exact hx
  · exact hy

theorem AccFormed.bind {α : Type} {x : Acc α} {f : α → Acc State} (hf : ∀ a, AccFormed (f a)) : AccFormed (x.bind
    f) := by
  cases x with
  | ok a => exact hf a
  | _ => exact .fail (by simp [Acc.bind])

section Walked
variable {α β : Type} {st : α → State}

theorem WalkedFormed.ok {a : α} (h : (st a).formed) : WalkedFormed st (.ok a) := fun _ he => Walked.ok.inj he ▸ h

theorem WalkedFormed.fail {x : Walked α} (h : ∀ a, x ≠ .ok a) : WalkedFormed st x := fun _ he => absurd he (h _)

theorem WalkedFormed.ite {p : Prop} [Decidable p] {x y : Walked α} (hx : WalkedFormed st x) (hy : WalkedFormed st
    y) :
    WalkedFormed st (if p then x else y) := by
  split
  · exact hx
  · exact hy

theorem WalkedFormed.bind {x : Walked β} {f : β → Walked α} (hf : ∀ b, x = .ok b → WalkedFormed st (f b)) :
    WalkedFormed st (x.bind f) := by
  cases x with
  | ok b => exact hf b rfl
  | _ => exact .fail (by simp [Walked.bind])

theorem WalkedFormed.of_acc {x : Acc State} (h : AccFormed x) (item : Nat) : WalkedFormed id (x.walked item) := by
  cases x with
  | ok s => exact .ok (h s rfl)
  | _ => exact .fail (by simp [Acc.walked])

end Walked

theorem Acc.exists_of_bind_ok {α β : Type} {x : Acc α} {f : α → Acc β} {b : β} (h : x.bind f = .ok b) :
    ∃ a, x = .ok a ∧ f a = .ok b := by
  cases x with
  | ok a => exact ⟨a, rfl, h⟩
  | _ => simp [Acc.bind] at h

namespace State

/-- A change of anything but memory and descriptors. -/
theorem formed.keep {s t : State} (h : s.formed) (hm : t.mem = s.mem := by rfl) (hd : t.desc = s.desc := by rfl) :
    t.formed := formed_of_mem h ⟨hm, hd⟩

theorem ite_formed {p : Prop} [Decidable p] {s t : State} (hs : s.formed) (ht : t.formed) : (if p then s else
    t).formed := by
  split
  · exact hs
  · exact ht

theorem ite_fst_formed {α : Type} {p : Prop} [Decidable p] {x y : State × α} (hx : x.1.formed) (hy : y.1.formed) :
    (if p then x else y).1.formed := by
  split
  · exact hx
  · exact hy

theorem ite_snd_formed {α : Type} {p : Prop} [Decidable p] {x y : α × State} (hx : x.2.formed) (hy : y.2.formed) :
    (if p then x else y).2.formed := by
  split
  · exact hx
  · exact hy

theorem foldl_formed {α : Type} {f : State → α → State} {l : List α} {s : State} (h : s.formed)
    (hf : ∀ s x, s.formed → (f s x).formed) : (l.foldl f s).formed := by
  induction l generalizing s with
  | nil => exact h
  | cons x xs ih => exact ih (hf s x h)

theorem pair1_formed {α : Type} {x : State × α} {s : State} {a : α} (h : x.1.formed) (he : x = (s, a)) :
    s.formed := by
  subst he
  exact h

theorem pair2_formed {α : Type} {x : α × State} {s : State} {a : α} (h : x.2.formed) (he : x = (a, s)) :
    s.formed := by
  subst he
  exact h

theorem updCore_formed {s : State} {c : ℕ} {f : Core → Core} (h : s.formed) : (updCore s c f).formed := h

theorem updCluster_formed {s : State} {k : ℕ} {f : Cluster → Cluster} (h : s.formed) :
    (updCluster s k f).formed := h

theorem updCrew_formed {s : State} {i : ℕ} {f : Crew → Crew} (h : s.formed) : (updCrew s i f).formed := h

theorem updPart_formed {s : State} {i : ℕ} {f : Partition → Partition} (h : s.formed) : (updPart s i f).formed := h

theorem updGrid_formed {s : State} {i : ℕ} {f : Grid → Grid} (h : s.formed) : (updGrid s i f).formed := h

theorem updGang_formed {s : State} {i : ℕ} {f : Gang → Gang} (h : s.formed) : (updGang s i f).formed := h

theorem updGraph_formed {s : State} {i : ℕ} {f : Graph → Graph} (h : s.formed) : (updGraph s i f).formed := h

theorem emit_formed {s : State} {o : Output} (h : s.formed) : (emit s o).formed := h

theorem updLane_formed {s : State} {ci li : ℕ} {f : Lane → Lane} (h : s.formed) : (updLane s ci li f).formed :=
  updCrew_formed h

theorem updThread_formed {s : State} {ci li : ℕ} {f : Thread → Thread} (h : s.formed) :
    (updThread s ci li f).formed := updLane_formed h

theorem clearSlot_formed {s : State} {c k : ℕ} (h : s.formed) : (clearSlot s c k).formed := updCore_formed h

theorem updGroup_formed {s : State} {c k : ℕ} {f : Group → Group} (h : s.formed) : (updGroup s c k f).formed :=
  updCore_formed h

theorem mapLanes_formed {s : State} {ci : ℕ} {f : ℕ → Lane → Lane} (h : s.formed) : (mapLanes s ci f).formed :=
  updCrew_formed h

theorem publish_formed {s : State} (h : s.formed) : (publish s).formed := h

theorem wakeCont_formed {s : State} {ci li : ℕ} (h : s.formed) : (wakeCont s ci li).formed := updThread_formed h

theorem wakeRetry_formed {s : State} {ci li : ℕ} (h : s.formed) : (wakeRetry s ci li).formed := updThread_formed h

theorem leave_formed {s : State} {t : ℕ} (h : s.formed) : (leave s t).formed := updGroup_formed h

theorem trapThread_formed {s : State} {ci li : ℕ} {tr : Trap} {addr : BitVec 56} (h : s.formed) :
    (trapThread s ci li tr addr).formed := updThread_formed h

theorem setFlags_formed {s : State} {ci li : ℕ} {f : BitVec 6} (h : s.formed) : (setFlags s ci li f).formed :=
  updLane_formed h

theorem arrive_formed {s : State} {a : Arrival} (h : s.formed) : (arrive s a).formed := h

theorem endThread_formed {s : State} {ci li : ℕ} (h : s.formed) : (endThread s ci li).formed := updCrew_formed h

theorem updCopy_formed {s : State} {i : ℕ} {f : CopyOp → CopyOp} (h : s.formed) : (updCopy s i f).formed := h

theorem setQueue_formed {s : State} {q : ℕ} {d : BitVec 512} (h : s.formed) : (setQueue s q d).formed := h

theorem applyRegWrites_formed {core : ℕ} {s : State} (h : s.formed) : (applyRegWrites core s).formed :=
  foldl_formed (.keep h) (fun _ _ hs => updCrew_formed hs)

theorem ringWhere_formed {s : State} {p : ℕ} {here : ℕ → Bool} (h : s.formed) : (ringWhere s p here).formed :=
  ite_formed h (.keep h)

theorem ringTails_formed {s : State} {p : ℕ} (h : s.formed) : (ringTails s p).formed := ringWhere_formed h

theorem wrote_formed {s : State} {p scope va n : ℕ} (h : s.formed) : (wrote s p scope va n).formed := by
  unfold wrote
  refine ite_formed h ?_
  split
  · exact h
  · exact ringWhere_formed h

theorem performed_formed {s : State} {p scope : ℕ} (h : s.formed) : (performed s p scope).formed :=
  ite_formed h (ite_formed (ringTails_formed (publish_formed h)) (ringTails_formed h))

/-- A checked write of the device or an engine. -/
theorem writeG_accFormed {s : State} {p va : ℕ} {bs : List Byte} {device : Bool} (h : s.formed) :
    AccFormed (s.writeG p va bs device) :=
  fun t ht => writeG_formed s t p va bs device h ht

theorem windowWrite_formed {s : State} {ci a n v : ℕ} (h : s.formed) : AccFormed (windowWrite s ci a n v) := by
  refine .bind fun w => ?_
  split
  · exact .fail (by simp)
  · split
    · split
      · exact .ok (scratchStore_formed _ _ _ _ h)
      · exact .fail (by simp)
    · split
      · split
        · exact .fail (by simp)
        · split
          · exact .fail (by simp)
          · exact .ok (.keep h)
      · exact .fail (by simp)
    · split
      · exact .fail (by simp)
      · split
        · exact .fail (by simp)
        · exact .ok (updCrew_formed h)
    · split
      · split
        · exact .fail (by simp)
        · exact .ok (updCrew_formed h)
      · exact .fail (by simp)

theorem takeEntryAs_formed {s : State} {ci li a : ℕ} {write prot : Bool} (h : s.formed) :
    (takeEntryAs s ci li a write prot).2.formed := by
  unfold takeEntryAs
  split
  · exact h
  · exact ite_snd_formed (updCore_formed h) (ite_snd_formed (updCore_formed h) (updCore_formed h))

theorem admitFaults_formed {core fuel : ℕ} {s : State} (h : s.formed) : (admitFaults core fuel s).formed := by
  induction fuel generalizing s with
  | zero => exact h
  | succ fuel ih =>
    unfold admitFaults
    split
    · exact h
    · exact ite_formed (ih (updThread_formed (takeEntryAs_formed (updCore_formed h)))) h

theorem admitAll_formed {s : State} {core : ℕ} (h : s.formed) : (admitAll s core).formed := admitFaults_formed h

theorem takeEntry_formed {s : State} {ci li a : ℕ} {write : Bool} (h : s.formed) :
    (takeEntry s ci li a write).2.formed := takeEntryAs_formed h

theorem dropGrid_formed {s : State} {gi : ℕ} {why : GridStatus} (h : s.formed) : (dropGrid s gi why).formed := h

theorem removeGrid_formed {s : State} {gi : ℕ} (h : s.formed) : (removeGrid s gi).formed := dropGrid_formed h

theorem leaveFilled_formed {s : State} {ci : ℕ} {p : FaultEntry → FaultWaiter → Bool} (h : s.formed) :
    (leaveFilled s ci p).formed := by
  unfold leaveFilled
  split
  · exact h
  · exact ite_formed h (admitAll_formed (updCore_formed h))

theorem replayed_formed {s : State} {ci li a : ℕ} (h : s.formed) : (replayed s ci li a).formed :=
  leaveFilled_formed h

theorem abandoned_formed {s : State} {ci li : ℕ} (h : s.formed) : (abandoned s ci li).formed := leaveFilled_formed h

theorem trapLane_formed {s : State} {t : ℕ} {tr : Trap} {addr pc : BitVec 56} (h : s.formed) :
    (trapLane s t tr addr pc).formed := by
  unfold trapLane
  split
  · exact h
  · split
    · exact h
    · exact leave_formed (updThread_formed h)

theorem parkLane_formed {s : State} {t : ℕ} {p : Park} {pc cont : BitVec 56} (h : s.formed) :
    (parkLane s t p pc cont).formed := by
  unfold parkLane
  split
  · exact h
  · split
    · exact h
    · exact leave_formed (updThread_formed h)

theorem poisonLane_formed {s : State} {t : ℕ} {pc : BitVec 56} (h : s.formed) : (poisonLane s t pc).formed := by
  unfold poisonLane
  split
  · exact h
  · split
    · exact h
    · exact removeGrid_formed (updThread_formed (parkLane_formed h))

theorem faultLane_formed {s : State} {t a : ℕ} {write : Bool} {pc : BitVec 56} (h : s.formed) :
    (faultLane s t a write pc).formed := by
  unfold faultLane
  split
  · exact h
  · split
    · exact h
    · split
      exact updLane_formed (parkLane_formed (pair2_formed (takeEntry_formed h) ‹_›))

theorem holdLane_formed {s : State} {t : ℕ} {held : HeldAccess} {pc : BitVec 56} (h : s.formed) :
    (holdLane s t held pc).formed := by
  unfold holdLane
  split
  · exact h
  · split
    · exact h
    · exact updLane_formed (updThread_formed (parkLane_formed h))

theorem consumeHeld_formed {s : State} {ci li a : ℕ} (h : s.formed) : (consumeHeld s ci li a).formed :=
  ite_formed h (updThread_formed h)

theorem store_formed {s : State} {ci li a n v : ℕ} {q : optParam Ask { }} (h : s.formed) :
    AccFormed (store s ci li a n v q) := by
  unfold store
  split
  · exact .fail (by simp)
  · refine .ite (.fail (by simp)) ?_
    refine .ite ?_ (AccFormed.bind (fun _ => .ok (physWrite_formed _ _ _ h)))
    split
    · exact .ok h
    · exact windowWrite_formed h

theorem plumbLog_formed {s : State} {p record : ℕ} (h : s.formed) : (plumbLog s p record).formed :=
  ite_formed (updPart_formed (devWrite_formed _ _ _ _ h)) (ctxSet_formed _ _ _ _ _ h)

theorem plumbAccess_formed {s : State} {ci : ℕ} {wid : BitVec 26} {interval : Word} {li : Option ℕ}
    {va scope kind : ℕ}
    {sync write : Bool} {pc : ℕ} (h : s.formed) :
    (plumbAccess s ci wid interval li va scope kind sync write pc).1.formed := by
  unfold plumbAccess
  split
  · exact h
  · refine ite_fst_formed h ?_
    split
    · exact h
    · refine ite_fst_formed ?_ (ite_fst_formed (ite_fst_formed h ?_) ?_)
      · cases li with
        | none => exact ite_formed (devWrite_formed _ _ _ _ h) h
        | some l =>
          exact ite_fst_formed (updThread_formed (ite_formed (devWrite_formed _ _ _ _ h) h))
            (ite_formed (devWrite_formed _ _ _ _ h) h)
      · exact ite_formed (devWrite_formed _ _ _ _ (plumbLog_formed h)) (plumbLog_formed h)
      · exact ite_formed (devWrite_formed _ _ _ _ h) h

theorem plumbLane_formed {s : State} {ci li va scope kind : ℕ} {sync write : Bool} {pc : BitVec 56} (h : s.formed) :
    (plumbLane s ci li va scope kind sync write pc).1.formed := by
  unfold plumbLane
  split
  · exact ite_fst_formed h (plumbAccess_formed h)
  · exact h

theorem plumbEach_formed {ci li scope kind : ℕ} {sync write : Bool} {pc : BitVec 56} {as : List ℕ} {s : State}
    (h : s.formed) : (plumbEach ci li scope kind sync write pc as s).1.formed := by
  induction as generalizing s with
  | nil => exact h
  | cons a as ih =>
    unfold plumbEach
    exact ite_fst_formed (plumbLane_formed h) (ih (plumbLane_formed h))

theorem plumbAcquire_formed {s : State} {ci li va : ℕ} (h : s.formed) : (plumbAcquire s ci li va).formed := by
  unfold plumbAcquire
  split
  · exact h
  · refine ite_formed h ?_
    split
    · exact h
    · exact ite_formed h (updThread_formed h)

theorem plumbFence_formed {s : State} {ci li : ℕ} (h : s.formed) : (plumbFence s ci li).formed := updThread_formed h

theorem setPcs_formed {c : Ctx} {s : State} (h : s.formed) : (setPcs c s).formed := mapLanes_formed h

theorem trapAll_formed {c : Ctx} {tr : Trap} {pc : BitVec 56} {s : State} (h : s.formed) :
    (trapAll c tr pc s).formed := clearSlot_formed (mapLanes_formed h)

theorem endRun_formed {s : State} (h : s.formed) : (endRun s).formed := by
  unfold endRun
  split
  · exact h
  · exact clearSlot_formed (mapLanes_formed h)

theorem finish_formed {b : Bool} {s : State} (h : s.formed) : (finish b s).formed := by
  unfold finish
  split
  · exact h
  · exact ite_formed (endRun_formed h) (ite_formed (updGroup_formed h) (clearSlot_formed h))

/-- A word keeps the form where its effect does. -/
theorem frameWith_formed {i : WordInfo} {s : State} {short : Ctx → Bool} {eff : Ctx → State → State} (h : s.formed)
    (he : ∀ c s, s.formed → (eff c s).formed) : OutFormed (frameWith i s short eff) := by
  unfold frameWith
  split
  · exact fun _ ht => nomatch ht
  · split
    · exact .next (trapAll_formed h)
    · split
      · exact .next h
      · exact .next (finish_formed (he _ _ (ite_formed (setPcs_formed h) h)))

theorem frame_formed {i : WordInfo} {s : State} {eff : Ctx → State → State} (h : s.formed)
    (he : ∀ c s, s.formed → (eff c s).formed) : OutFormed (frame i s eff) := frameWith_formed h he

theorem memWord_formed {i : WordInfo} {blocks : Ctx → ℕ → List ℕ} {eff : Ctx → State → State} {s : State}
    (h : s.formed)
    (he : ∀ c s, s.formed → (eff c s).formed) : OutFormed (memWord i blocks eff s) := frameWith_formed h he

theorem eachLane_formed {p : ℕ → Bool} {f : State → ℕ → State} {s : State} (h : s.formed)
    (hf : ∀ s t, s.formed → (f s t).formed) : (eachLane p f s).formed := foldl_formed h hf

theorem failLane_formed {c : Ctx} {t : ℕ} {tr : Trap} {a : ℕ} {s : State} (h : s.formed) :
    (failLane c t tr a s).formed := trapLane_formed (abandoned_formed h)

/-- What follows an access, where its effect keeps the form. -/
theorem afterAcc_formed {α : Type} {c : Ctx} {t : ℕ} {held : HeldAccess} {s : State} {r : Acc α} {k : α → State}
    (h : s.formed)
    (hk : ∀ x, r = .ok x → (k x).formed) : (afterAcc c t held s r k).formed := by
  cases r with
  | ok x => exact hk x rfl
  | trap tr a => exact failLane_formed h
  | fault a w => exact faultLane_formed h
  | hold => exact holdLane_formed h
  | poison => exact poisonLane_formed h

theorem loaded_formed {c : Ctx} {t a : ℕ} {ws : List (ℕ × Reg)} {blocks : List ℕ} {s : State} (h : s.formed) :
    (loaded c t a ws blocks s).formed := ite_formed (updLane_formed h) (arrive_formed h)

theorem deliver_formed {c : Ctx} {t a : ℕ} {ws : List (ℕ × Reg)} {blocks : List ℕ} {s : State} (h : s.formed) :
    (deliver c t a ws blocks s).formed := loaded_formed (consumeHeld_formed (replayed_formed h))

theorem loadLane_formed {c : Ctx} {d : Code} {w : BitVec 3} {addr : ℕ → ℕ} {blocks : ℕ → List ℕ} {s : State} {t : ℕ}
    (h : s.formed) : (loadLane c d w addr blocks s t).formed := by
  unfold loadLane
  dsimp only
  split
  · exact loaded_formed h
  · exact ite_formed (failLane_formed h) (afterAcc_formed h (fun _ _ => ite_formed (failLane_formed h)
      (deliver_formed (plumbLane_formed h))))

theorem storeLane_formed {c : Ctx} {d : Code} {w : BitVec 3} {addr : ℕ → ℕ} {s : State} {t : ℕ} (h : s.formed) :
    (storeLane c d w addr s t).formed := by
  unfold storeLane
  dsimp only
  split
  · exact h
  · exact ite_formed (failLane_formed h) (afterAcc_formed h (fun _ _ => ite_formed (failLane_formed h)
      (consumeHeld_formed (replayed_formed (plumbLane_formed (wrote_formed (store_formed h _ ‹_›)))))))

theorem ldsLane_formed {c : Ctx} {d : Code} {w : BitVec 3} {addr : ℕ → ℕ} {s : State} {t : ℕ} (h : s.formed) :
    (ldsLane c d w addr s t).formed := by
  unfold ldsLane
  dsimp only
  split
  · exact h
  · split
    · exact arrive_formed h
    · exact ite_formed (failLane_formed h) (ite_formed (failLane_formed h) (arrive_formed h))

theorem stsLane_formed {c : Ctx} {d : Code} {w : BitVec 3} {addr : ℕ → ℕ} {s : State} {t : ℕ} (h : s.formed) :
    (stsLane c d w addr s t).formed := by
  unfold stsLane
  dsimp only
  split
  · exact h
  · exact ite_formed (failLane_formed h) (ite_formed (failLane_formed h) (scratchStore_formed _ _ _ _ h))

theorem plumbAll_formed {c : Ctx} {p kind : ℕ} {sync write : Bool} {as : List ℕ} {s : State} (h : s.formed) :
    (plumbAll c p kind sync write as s).1.formed := plumbEach_formed h

theorem lddLane_formed {c : Ctx} {d : Code} {wide : Bool} {addr : ℕ → ℕ} {blocks : ℕ → List ℕ} {s : State} {t : ℕ}
    (h : s.formed) : (lddLane c d wide addr blocks s t).formed := by
  unfold lddLane
  dsimp only
  split
  · exact loaded_formed h
  · exact ite_formed (failLane_formed h) (afterAcc_formed h (fun _ _ => ite_formed (failLane_formed h)
      (deliver_formed (foldl_formed (plumbAll_formed h) (fun _ _ hs => replayed_formed hs)))))

theorem stdLane_formed {c : Ctx} {d : Code} {ty : OpTy} {addr : ℕ → ℕ} {s : State} {t : ℕ} (h : s.formed) :
    (stdLane c d ty addr s t).formed := by
  unfold stdLane
  dsimp only
  split
  · exact h
  · exact ite_formed (failLane_formed h) (afterAcc_formed h (fun _ _ => ite_formed (failLane_formed h) (foldl_formed
      (plumbAll_formed h) (fun _ _ hs => replayed_formed (wrote_formed (physWrite_formed _ _ _ hs))))))

theorem execLd_formed {b : Bool} {d a c : BitVec 6} {w : BitVec 3} {s : State} (h : s.formed) :
    OutFormed (execLd b d a c w s) :=
  memWord_formed h (fun _ _ hs => eachLane_formed hs (fun _ _ hs2 => loadLane_formed hs2))

theorem execSt_formed {b : Bool} {d a c : BitVec 6} {w : BitVec 3} {s : State} (h : s.formed) :
    OutFormed (execSt b d a c w s) :=
  memWord_formed h (fun _ _ hs => eachLane_formed hs (fun _ _ hs2 => storeLane_formed hs2))

theorem execLds_formed {b : Bool} {d a c : BitVec 6} {w : BitVec 3} {s : State} (h : s.formed) :
    OutFormed (execLds b d a c w s) :=
  frame_formed h (fun _ _ hs => eachLane_formed hs (fun _ _ hs2 => ldsLane_formed hs2))

theorem execSts_formed {b : Bool} {d a c : BitVec 6} {w : BitVec 3} {s : State} (h : s.formed) :
    OutFormed (execSts b d a c w s) :=
  frame_formed h (fun _ _ hs => eachLane_formed hs (fun _ _ hs2 => stsLane_formed hs2))

theorem execLdd_formed {b : Bool} {d a c : BitVec 6} {f : BitVec 1} {s : State} (h : s.formed) :
    OutFormed (execLdd b d a c f s) :=
  memWord_formed h (fun _ _ hs => eachLane_formed hs (fun _ _ hs2 => lddLane_formed hs2))

theorem execStd_formed {b : Bool} {d a c : BitVec 6} {f : BitVec 1} {s : State} (h : s.formed) :
    OutFormed (execStd b d a c f s) :=
  memWord_formed h (fun _ _ hs => eachLane_formed hs (fun _ _ hs2 => stdLane_formed hs2))

theorem ldtLane_formed {c : Ctx} {d : Code} {dual : Bool} {ty : BitVec 2} {addr idx : ℕ → ℕ} {blocks : ℕ → List ℕ}
    {s : State} {t : ℕ} (h : s.formed) : (ldtLane c d dual ty addr idx blocks s t).formed := by
  unfold ldtLane
  dsimp only
  split
  · exact loaded_formed h
  · exact ite_formed (failLane_formed h) (afterAcc_formed h (fun _ _ => ite_formed (failLane_formed h)
      (setFlags_formed (deliver_formed (foldl_formed (plumbAll_formed h) (fun _ _ hs => replayed_formed hs))))))

theorem sttLane_formed {c : Ctx} {dual wide : Bool} {addr src fmt : ℕ → ℕ} {s : State} {t : ℕ} (h : s.formed) :
    (sttLane c dual wide addr src fmt s t).formed := by
  unfold sttLane
  dsimp only
  split
  · exact h
  · refine ite_formed (failLane_formed h) ?_
    split
    · exact failLane_formed h
    · exact ite_formed (failLane_formed h) (ite_formed (failLane_formed h) (ite_formed (failLane_formed h)
        (afterAcc_formed h (fun _ _ => ite_formed (failLane_formed h) (setFlags_formed (foldl_formed
        (plumbAll_formed h) (fun _ _ hs => replayed_formed (wrote_formed (setDesc_formed _ _ _ (physWrite_formed _ _
        _ hs))))))))))

theorem bhdrRdLane_formed {c : Ctx} {d : Code} {addr : ℕ → ℕ} {blocks : ℕ → List ℕ} {s : State} {t : ℕ}
    (h : s.formed) : (bhdrRdLane c d addr blocks s t).formed := by
  unfold bhdrRdLane
  dsimp only
  split
  · exact loaded_formed h
  · exact ite_formed (failLane_formed h) (afterAcc_formed h (fun _ _ => deliver_formed h))

theorem bhdrWrLane_formed {c : Ctx} {addr val : ℕ → ℕ} {s : State} {t : ℕ} (h : s.formed) :
    (bhdrWrLane c addr val s t).formed := by
  unfold bhdrWrLane
  dsimp only
  split
  · exact h
  · exact ite_formed (failLane_formed h) (ite_formed (failLane_formed h) (afterAcc_formed h (fun _ _ => foldl_formed
      h (fun _ _ hs => replayed_formed (setDesc_formed _ _ _ hs)))))

theorem tsetLane_formed {c : Ctx} {idx entry : ℕ → ℕ} {s : State} {t : ℕ} (h : s.formed) :
    (tsetLane c idx entry s t).formed := by
  unfold tsetLane
  split
  · split
    · exact failLane_formed h
    · exact updCrew_formed h
  · exact h

theorem tsetClrLane_formed {c : Ctx} {idx : ℕ → ℕ} {s : State} {t : ℕ} (h : s.formed) :
    (tsetClrLane c idx s t).formed := by
  unfold tsetClrLane
  split
  · exact ite_formed (failLane_formed h) (ite_formed (failLane_formed h) (updCrew_formed h))
  · exact h

theorem prefLane_formed {c : Ctx} {addr : ℕ → ℕ} {s : State} {t : ℕ} (h : s.formed) :
    (prefLane c addr s t).formed := by
  unfold prefLane
  split
  · exact arrive_formed h
  · exact h

theorem execLdt_formed {b : Bool} {d a c : BitVec 6} {u : BitVec 1} {t : BitVec 2} {s : State} (h : s.formed) :
    OutFormed (execLdt b d a c u t s) :=
  memWord_formed h (fun _ _ hs => eachLane_formed hs (fun _ _ hs2 => ldtLane_formed hs2))

theorem execStt_formed {b : Bool} {d a c : BitVec 6} {u t : BitVec 1} {s : State} (h : s.formed) :
    OutFormed (execStt b d a c u t s) :=
  memWord_formed h (fun _ _ hs => eachLane_formed hs (fun _ _ hs2 => sttLane_formed hs2))

theorem execBhdrRd_formed {b : Bool} {d a : BitVec 6} {s : State} (h : s.formed) : OutFormed (execBhdrRd b d a s) :=
  memWord_formed h (fun _ _ hs => eachLane_formed hs (fun _ _ hs2 => bhdrRdLane_formed hs2))

theorem execBhdrWr_formed {b : Bool} {d a : BitVec 6} {s : State} (h : s.formed) : OutFormed (execBhdrWr b d a s) :=
  memWord_formed h (fun _ _ hs => eachLane_formed hs (fun _ _ hs2 => bhdrWrLane_formed hs2))

theorem execPref_formed {b : Bool} {a c : BitVec 6} {s : State} (h : s.formed) : OutFormed (execPref b a c s) :=
  frame_formed h (fun _ _ hs => ite_formed hs (eachLane_formed hs (fun _ _ hs2 => prefLane_formed hs2)))

theorem execTset_formed {b : Bool} {a c : BitVec 6} {s : State} (h : s.formed) : OutFormed (execTset b a c s) :=
  frame_formed h (fun _ _ hs => eachLane_formed hs (fun _ _ hs2 => tsetLane_formed hs2))

theorem execTsetClr_formed {b : Bool} {a : BitVec 6} {s : State} (h : s.formed) : OutFormed (execTsetClr b a s) :=
  frame_formed h (fun _ _ hs => eachLane_formed hs (fun _ _ hs2 => tsetClrLane_formed hs2))

end State

end Sys2Proof.Machine
end

section
/-!
PROOFS. Atomics, acquires, releases, bindings, monitors, barriers and mailboxes keep the canonical form of memory (O56).
-/

set_option Elab.async false

namespace Sys2Proof.Machine

open Sys2Proof

namespace State

/-- A read-modify-write (R241), in its three places. -/
theorem rmw_formed {s : State} {c : Ctx} {t a size : ℕ} {f : ℕ → ℕ × BitVec 6} {r : ℕ × BitVec 6 × State}
    (h : s.formed)
    (hr : rmw s c t a size f = .ok r) : r.2.2.formed := by
  unfold rmw at hr
  split at hr
  · cases hr
  · split at hr
    · obtain ⟨w, -, hw⟩ := Acc.exists_of_bind_ok hr
      split at hw
      · cases hw
      · obtain ⟨m, -, hm⟩ := Acc.exists_of_bind_ok hw
        obtain ⟨s', hs', hok⟩ := Acc.exists_of_bind_ok hm
        cases hok
        exact windowWrite_formed h _ hs'
    · obtain ⟨g, -, hg⟩ := Acc.exists_of_bind_ok hr
      split at hg
      · cases hg
      · cases hg
        exact physWrite_formed _ _ _ h

theorem closes_formed {s : State} {c : Ctx} {t : ℕ} (h : s.formed) : (closes s c t).formed := updThread_formed h

theorem released_formed {s : State} {c : Ctx} {t : ℕ} (h : s.formed) : (released s c t).formed := updThread_formed h

theorem releases_formed {s : State} {c : Ctx} {scope t : ℕ} (h : s.formed) : (releases s c scope t).formed :=
  released_formed (performed_formed h)

theorem atomLane_formed {c : Ctx} {d : Code} {size : ℕ} {ord : BitVec 2} {addr : ℕ → ℕ} {f : ℕ → ℕ → ℕ × BitVec 6}
    {s : State} {t : ℕ} (h : s.formed) : (atomLane c d size ord addr f s t).formed := by
  unfold atomLane
  refine ite_formed (failLane_formed h) (afterAcc_formed h fun r hr => ?_)
  have h0 : r.2.2.formed := rmw_formed h hr
  have h1 : ((if ord == 1#2 then r.2.2.plumbAcquire c.ci (c.place t) (addr t) else r.2.2).plumbLane c.ci (c.place t)
      (addr t) c.scope 2 true true c.start).1.formed := plumbLane_formed (ite_formed (plumbAcquire_formed h0) h0)
  exact ite_formed
    (setFlags_formed (updLane_formed (closes_formed
      (ite_formed (released_formed (fireWaiters_formed _ _ _ _ h1)) (wrote_formed h1)))))
    (arrive_formed (replayed_formed (closes_formed
      (ite_formed (released_formed (fireWaiters_formed _ _ _ _ h1)) (wrote_formed h1)))))

theorem atomsLane_formed {c : Ctx} {d : Code} {size : ℕ} {ord : BitVec 2} {addr : ℕ → ℕ} {f : ℕ → ℕ → ℕ × BitVec 6}
    {s : State} {t : ℕ} (h : s.formed) : (atomsLane c d size ord addr f s t).formed := by
  unfold atomsLane
  split
  · exact h
  · exact ite_formed (failLane_formed h) (ite_formed (failLane_formed h) (arrive_formed (closes_formed (ite_formed
      (released_formed (scratchStore_formed _ _ _ _ h)) (scratchStore_formed _ _ _ _ h)))))

theorem acqLane_formed {c : Ctx} {d a : Code} {s : State} {t : ℕ} (h : s.formed) : (acqLane c d a s t).formed :=
  ite_formed (failLane_formed h) (afterAcc_formed h (fun _ _ => deliver_formed (plumbAcquire_formed h)))

theorem relLane_formed {c : Ctx} {a b : Code} {s : State} {t : ℕ} (h : s.formed) : (relLane c a b s t).formed :=
  ite_formed (failLane_formed h) (afterAcc_formed h (fun _ _ => consumeHeld_formed (replayed_formed (released_formed
      (fireWaiters_formed _ _ _ _ (plumbLane_formed (store_formed h _ ‹_›)))))))

theorem setBindings_formed {s : State} {p : ℕ} {bs : List Binding} (h : s.formed) : (setBindings s p bs).formed :=
  updPart_formed h

theorem bindLane_formed {c : Ctx} {d a b : Code} {s : State} {t : ℕ} (h : s.formed) :
    (bindLane c d a b s t).formed :=
  ite_formed (failLane_formed h) (ite_formed h (ite_formed (failLane_formed h) (ite_formed (failLane_formed h)
      (setBindings_formed h))))

theorem unbindLane_formed {c : Ctx} {d a : Code} {s : State} {t : ℕ} (h : s.formed) :
    (unbindLane c d a s t).formed := setBindings_formed h

theorem execAtom_formed {b : Bool} {d a c : BitVec 6} {o : BitVec 2} {p : BitVec 3} {w : BitVec 1} {s : State}
    (h : s.formed) : OutFormed (execAtom b d a c o p w s) :=
  frame_formed h (fun _ _ hs => eachLane_formed hs (fun _ _ hs2 => atomLane_formed hs2))

theorem execAtomFadd_formed {b : Bool} {d a c : BitVec 6} {o : BitVec 2} {w : BitVec 1} {s : State} (h : s.formed) :
    OutFormed (execAtomFadd b d a c o w s) :=
  frame_formed h (fun _ _ hs => eachLane_formed hs (fun _ _ hs2 => atomLane_formed hs2))

theorem execAtoms_formed {b : Bool} {d a c : BitVec 6} {o : BitVec 2} {p : BitVec 3} {w : BitVec 1} {s : State}
    (h : s.formed) : OutFormed (execAtoms b d a c o p w s) :=
  frame_formed h (fun _ _ hs => eachLane_formed hs (fun _ _ hs2 => atomsLane_formed hs2))

theorem execAtomsFadd_formed {b : Bool} {d a c : BitVec 6} {o : BitVec 2} {w : BitVec 1} {s : State}
    (h : s.formed) : OutFormed (execAtomsFadd b d a c o w s) :=
  frame_formed h (fun _ _ hs => eachLane_formed hs (fun _ _ hs2 => atomsLane_formed hs2))

theorem execAcq_formed {b : Bool} {d a : BitVec 6} {s : State} (h : s.formed) : OutFormed (execAcq b d a s) :=
  frame_formed h (fun _ _ hs => eachLane_formed hs (fun _ _ hs2 => acqLane_formed hs2))

theorem execRel_formed {b : Bool} {a c : BitVec 6} {s : State} (h : s.formed) : OutFormed (execRel b a c s) :=
  frame_formed h (fun _ _ hs => eachLane_formed hs (fun _ _ hs2 => relLane_formed hs2))

theorem execFence_formed {b : Bool} {s : State} (h : s.formed) : OutFormed (execFence b s) :=
  frame_formed h (fun _ _ hs => ite_formed (performed_formed (eachLane_formed hs (fun _ _ hs2 => released_formed
      (plumbFence_formed hs2)))) (eachLane_formed hs (fun _ _ hs2 => released_formed (plumbFence_formed hs2))))

theorem execBind_formed {b : Bool} {d a c : BitVec 6} {s : State} (h : s.formed) : OutFormed (execBind b d a c s) :=
  frame_formed h (fun _ _ hs => eachLane_formed hs (fun _ _ hs2 => bindLane_formed hs2))

theorem execBindClr_formed {b : Bool} {d a : BitVec 6} {s : State} (h : s.formed) :
    OutFormed (execBindClr b d a s) :=
  frame_formed h (fun _ _ hs => eachLane_formed hs (fun _ _ hs2 => unbindLane_formed hs2))

theorem setLane_formed {c : Ctx} {t : ℕ} {ws : List (ℕ × Reg)} {s : State} (h : s.formed) :
    (setLane c t ws s).formed := updLane_formed h

theorem mwaitLane_formed {c : Ctx} {d a b : Code} {acq any wide : Bool} {s : State} {t : ℕ} (h : s.formed) :
    (mwaitLane c d a b acq any wide s t).formed :=
  ite_formed (failLane_formed h) (ite_formed (failLane_formed h) (afterAcc_formed h (fun _ _ => ite_formed
      (failLane_formed h) (afterAcc_formed h (fun _ _ => ite_formed (setLane_formed (ite_formed (plumbAcquire_formed
      (replayed_formed h)) (replayed_formed h))) (.keep (parkLane_formed (replayed_formed h))))))))

theorem wakeMonitor_formed {crew lane : ℕ} {s : State} (h : s.formed) : (wakeMonitor crew lane s).formed := by
  unfold wakeMonitor
  split
  · split
    · exact h
    · exact ite_formed h (wakeCont_formed (.keep (ite_formed (plumbAcquire_formed (updLane_formed h))
        (updLane_formed h))))
  · exact h

theorem setBar_formed {s : State} {ci n : ℕ} {b : Barrier} (h : s.formed) : (setBar s ci n b).formed :=
  updCrew_formed h

theorem wakeBarrier_formed {ci n : ℕ} {s : State} (h : s.formed) : (wakeBarrier ci n s).formed := by
  unfold wakeBarrier
  split
  · exact h
  · refine foldl_formed h (fun s x1 hs11 => ?_)
    split
    · split
      · exact ite_formed (wakeCont_formed hs11) hs11
      · exact hs11
    · exact hs11

theorem waitBar_formed {c : Ctx} {n : ℕ} {tok : Word} {w : Option PendWait} {s : State} {t : ℕ} (h : s.formed) :
    (waitBar c n tok w s t).formed := by
  unfold waitBar
  split
  · exact h
  · exact ite_formed (updThread_formed h) (updThread_formed (parkLane_formed h))

theorem pushStays_formed {c : Ctx} {nowrite : Bool} {d : Code} {s : State} (h : s.formed) :
    (pushStays c nowrite d s).formed := updGroup_formed h

theorem drawTicket_formed {put : Bool} {m : Mbox} {s : State} (h : s.formed) : (drawTicket put m s).2.formed := by
  unfold drawTicket
  split
  · exact h
  · exact scratchStore_formed _ _ _ _ h

/-- An arrival at a barrier (R253): the state after it, or the one in which its thread has trapped. -/
theorem arriveLane_formed {c : Ctx} {n cnt t : ℕ} {gang : Bool} {s : State} (h : s.formed) :
    (∀ s', arriveLane c n gang cnt s t = .error s' → s'.formed) ∧
    (∀ r, arriveLane c n gang cnt s t = .ok r → r.1.formed) := by
  unfold arriveLane
  split
  · exact ⟨fun _ he => Except.error.inj he ▸ h, fun _ he => nomatch he⟩
  · split
    · exact ⟨fun _ he => Except.error.inj he ▸ failLane_formed h, fun _ he => nomatch he⟩
    · split
      · exact ⟨fun _ he => Except.error.inj he ▸ failLane_formed h, fun _ he => nomatch he⟩
      · exact ⟨fun _ he => (nomatch he),
          fun _ he => Except.ok.inj he ▸ closes_formed (releases_formed (setBar_formed h))⟩

theorem barArvLane_formed {c : Ctx} {nowrite : Bool} {d : Code} {n : ℕ} {cnt : ℕ → ℕ} {s : State} {t : ℕ}
    (h : s.formed) : (barArvLane c nowrite d n cnt s t).formed := by
  unfold barArvLane
  split
  case h_1 he => exact (arriveLane_formed h).1 _ he
  case h_2 he => exact updGroup_formed (updLane_formed ((arriveLane_formed h).2 _ he))

theorem barSynLane_formed {c : Ctx} {n : ℕ} {gang : Bool} {cnt : ℕ → ℕ} {s : State} {t : ℕ} (h : s.formed) :
    (barSynLane c n gang cnt s t).formed := by
  unfold barSynLane
  split
  · exact waitBar_formed h
  · exact waitBar_formed h
  · split
    case _ he => exact (arriveLane_formed h).1 _ he
    case _ he => exact waitBar_formed ((arriveLane_formed h).2 _ he)

/-- A put or take of a ticket whose slot is ready (R259) writes the owner's scratchpad alone. -/
theorem mboxTry_formed {ci a : ℕ} {k : Word} {put : Bool} {msg : Dword} {s : State} {r : State × Dword}
    (h : s.formed)
    (hr : mboxTry ci a k put msg s = some r) : r.1.formed := by
  unfold mboxTry at hr
  split at hr
  · split at hr
    · cases hr
    · dsimp only at hr
      split at hr
      · cases hr
      · split at hr
        · split at hr
          · exact Option.some.inj hr ▸ scratchStore_formed _ _ _ _ (scratchStore_formed _ _ _ _ h)
          · cases hr
        · split at hr
          · exact Option.some.inj hr ▸ scratchStore_formed _ _ _ _ h
          · cases hr
  · cases hr

theorem mboxWait_formed {c : Ctx} {d : Code} {a : ℕ} {k : Word} {put : Bool} {msg : Dword} {s : State} {t : ℕ}
    (h : s.formed) : (mboxWait c d a k put msg s t).formed := by
  unfold mboxWait
  split
  case h_1 he =>
    have h1 := mboxTry_formed h he
    exact ite_formed (performed_formed (updThread_formed h1)) (setLane_formed (updThread_formed h1))
  · split
    · exact failLane_formed (updThread_formed h)
    · exact updThread_formed (parkLane_formed h)

theorem mboxLane_formed {c : Ctx} {d a : Code} {put : Bool} {s : State} {t : ℕ} (h : s.formed) :
    (mboxLane c d a put s t).formed := by
  unfold mboxLane
  extract_lets msg
  split
  · exact mboxWait_formed h
  · exact mboxWait_formed h
  · exact afterAcc_formed h fun _ _ => mboxWait_formed (closes_formed (drawTicket_formed h))

theorem execMwait_formed {d a c : BitVec 6} {q y w : BitVec 1} {s : State} (h : s.formed) :
    OutFormed (execMwait d a c q y w s) :=
  frame_formed h (fun _ _ hs => eachLane_formed hs (fun _ _ hs2 => mwaitLane_formed hs2))

theorem execBarArv_formed {b n : Bool} {d a c : BitVec 6} {s : State} (h : s.formed) :
    OutFormed (execBarArv b n d a c s) :=
  frame_formed h (fun _ _ hs => pushStays_formed (eachLane_formed hs (fun _ _ hs2 => barArvLane_formed hs2)))

theorem execBarWt_formed {a c : BitVec 6} {s : State} (h : s.formed) : OutFormed (execBarWt a c s) :=
  frame_formed h (fun _ _ hs => eachLane_formed hs (fun _ _ hs2 => waitBar_formed hs2))

theorem execBarSyn_formed {a c : BitVec 6} {s : State} (h : s.formed) : OutFormed (execBarSyn a c s) :=
  frame_formed h (fun _ _ hs => eachLane_formed hs (fun _ _ hs2 => barSynLane_formed hs2))

theorem execGbar_formed {c : BitVec 6} {s : State} (h : s.formed) : OutFormed (execGbar c s) :=
  frame_formed h (fun _ _ hs => eachLane_formed hs (fun _ _ hs2 => barSynLane_formed hs2))

theorem execMbput_formed {d a : BitVec 6} {s : State} (h : s.formed) : OutFormed (execMbput d a s) :=
  frame_formed h (fun _ _ hs => eachLane_formed hs (fun _ _ hs2 => mboxLane_formed hs2))

theorem execMbtake_formed {d a : BitVec 6} {s : State} (h : s.formed) : OutFormed (execMbtake d a s) :=
  frame_formed h (fun _ _ hs => eachLane_formed hs (fun _ _ hs2 => mboxLane_formed hs2))

end State

end Sys2Proof.Machine
end

section
/-!
PROOFS. The engines' writes, the copy engine and the matrix units keep the canonical form of memory (O56).
-/

set_option Elab.async false

namespace Sys2Proof.Machine

open Sys2Proof

namespace State

theorem putPlace_formed {s : State} {w : Word} {a : Place} (h : s.formed) : (putPlace s w a).formed := by
  unfold putPlace
  split
  · exact physWrite_formed _ _ _ h
  · exact scratchStore_formed _ _ _ _ h
  · exact .keep h
  · exact updCrew_formed h
  · exact updCrew_formed h

theorem putWords_formed {xs : List (Place × Word)} {s : State} {run : Option (ℕ × Bool × List Byte)}
    (h : s.formed) : (putWords s run xs).formed := by
  induction xs generalizing s run with
  | nil =>
    cases run with
    | none => exact h
    | some r => exact physWrite_formed _ _ _ h
  | cons x xs ih =>
    obtain ⟨q, w⟩ := x
    cases q with
    | mem pa rep =>
      cases run with
      | none => exact ih h
      | some r => exact ite_formed (ih h) (ih (physWrite_formed _ _ _ h))
    | pad _ _ | reg _ _ _ _ | tile _ _ _ | slot _ _ _ =>
      cases run with
      | none => exact ih (putPlace_formed h)
      | some r => exact ih (putPlace_formed (physWrite_formed _ _ _ h))

theorem setTile_formed {s : State} {ci i : ℕ} {e : Dword} (h : s.formed) : (setTile s ci i e).formed :=
  updCrew_formed h

theorem settleTile_formed {s : State} {ci i : ℕ} (h : s.formed) : (settleTile s ci i).formed := by
  unfold settleTile
  split
  · exact h
  · refine foldl_formed h (fun s x1 hs11 => ?_)
    refine ite_formed ?_ hs11
    split
    · exact wakeRetry_formed hs11
    · exact trapThread_formed hs11
    · exact hs11

theorem wakeParked_formed {s : State} {ci : ℕ} {why : Park} (h : s.formed) : (wakeParked s ci why).formed := by
  unfold wakeParked
  split
  · exact h
  · exact foldl_formed h (fun _ _ hs => ite_formed (wakeRetry_formed hs) hs)

theorem engineWrite_formed {s : State} {ci : Option ℕ} {p a : ℕ} {bs : List Byte} (h : s.formed) :
    AccFormed (engineWrite s ci p a bs) := by
  unfold engineWrite
  split
  · split
    · exact .fail (by simp)
    · refine .bind fun w => ?_
      split
      · exact .fail (by simp)
      · exact .ite (.ok (scratchStore_formed _ _ _ _ h)) (.fail (by simp))
  · exact writeG_accFormed h

theorem settleWords_formed {s : State} {since tag : ℕ} {whole : Bool} {say : State → ℕ → State} {ws : List WordOut}
    (h : s.formed) (hsay : ∀ s a, s.formed → (say s a).formed) : (settleWords s since tag whole say ws).formed :=
  foldl_formed (.keep (putWords_formed h)) hsay

/-- The stamp's write (R273). -/
theorem stamp_formed {s : State} {ci : Option ℕ} {p a seq status : ℕ} {flags : BitVec 6} {scope : ℕ}
    {refused : Bool}
    (h : s.formed) : StampFormed (stamp s ci p a seq status flags scope refused) := by
  unfold stamp
  split
  · exact fun _ he => Stamped.written.inj he ▸ fireWaiters_formed _ _ _ _ (engineWrite_formed h _ ‹_›)
  · split
    · exact fun _ he => nomatch he
    · exact fun _ he => nomatch he
  · exact fun _ he => nomatch he

theorem plumbEngine_formed {s : State} {ci : Option ℕ} {wid : BitVec 26} {interval : Word} {pc a n scope : ℕ}
    {write : Bool} (h : s.formed) : (plumbEngine s ci wid interval pc a n scope write).formed := by
  unfold plumbEngine
  split
  · exact h
  · exact ite_formed h (foldl_formed h (fun _ _ hs => plumbAccess_formed hs))

theorem nodeEnds_formed {s : State} {node : Option (ℕ × ℕ)} {status : ℕ} (h : s.formed) :
    (nodeEnds s node status).formed := by
  unfold nodeEnds
  split
  · exact h
  · exact updGraph_formed h

theorem setQword_formed {s : State} {ci at_ v : ℕ} (h : s.formed) : (setQword s ci at_ v).formed := by
  unfold setQword
  split
  · exact h
  · exact scratchStore_formed _ _ _ _ h

theorem xqLane_formed {c : Ctx} {a : Code} {xqn : Bool} {s : State} {t : ℕ} (h : s.formed) :
    (xqLane c a xqn s t).formed := by
  unfold xqLane
  dsimp only
  split
  · exact ite_formed (failLane_formed h) (ite_formed (failLane_formed h) (ite_formed (failLane_formed h) (ite_formed
      (parkLane_formed h) (closes_formed (released_formed (setQword_formed (scratchStore_formed _ _ _ _
      (updCrew_formed h))))))))
  · exact h

theorem execCopyTake_formed {cluster : ℕ} {s : State} (h : s.formed) : OutFormed (execCopyTake cluster s) := by
  unfold execCopyTake
  split
  · exact .next h
  · split
    · exact .next h
    · exact .next (wakeParked_formed (.keep (setQword_formed (updCrew_formed h))))

theorem putDesc_formed {s : State} {d : ℕ} {held : DescHome} (h : s.formed) : (putDesc s d held).formed := by
  unfold putDesc
  split
  · split
    · exact setDesc_formed _ _ _ h
    · exact scratchStore_formed _ _ _ _ h
  · split
    · exact setDesc_formed _ _ _ h
    · exact scratchStore_formed _ _ _ _ h

theorem returnTiles_formed {s : State} {op : CopyOp} {status : ℕ} (h : s.formed) :
    (returnTiles s op status).formed := by
  unfold returnTiles
  dsimp only
  split
  · exact h
  · refine ite_formed h ?_
    split
    · split
      · exact h
      · exact settleTile_formed (setTile_formed h)
    · refine ite_formed ?_ ?_
      · refine settleTile_formed ?_
        refine setTile_formed ?_
        split
        · exact h
        · exact settleTile_formed (setTile_formed h)
      · split
        · exact h
        · exact settleTile_formed (setTile_formed h)

theorem settleCopy_formed {s : State} {i : ℕ} {op : CopyOp} {status : ℕ} {flags : BitVec 6} (h : s.formed) :
    (settleCopy s i op status flags).formed := updCopy_formed (returnTiles_formed h)

theorem stampCopy_formed {s : State} {i : ℕ} (h : s.formed) : (stampCopy s i).formed := by
  unfold stampCopy
  split
  · exact h
  · split
    · exact h
    · extract_lets c after
      have hafter {t : State} {status : ℕ} (ht : t.formed) : (after t status).formed := by
        refine nodeEnds_formed (.keep (s := ?_) ?_)
        split
        · exact ht
        · split
          · exact ht
          · exact setQword_formed ht
      split
      case h_1 he => exact hafter (plumbEngine_formed (stamp_formed h _ he))
      · exact h
      · split
        · exact hafter h
        · exact hafter (setQword_formed (setQword_formed h))

theorem plumbCopy_formed {s : State} {op : CopyOp} {kind v n scope : ℕ} {write : Bool} (h : s.formed) :
    (plumbCopy s op kind v n scope write).formed := ite_formed (plumbEngine_formed h) h

theorem plumbSources_formed {s : State} {op : CopyOp} {srcs : List (Acc Place)} (h : s.formed) :
    (plumbSources s op srcs).formed := ite_formed h (foldl_formed h (fun _ _ hs => plumbCopy_formed hs))

/-- A copy's transfer (R270-R272): its words settle, then each descriptor that it carries. -/
theorem transfer_formed {s : State} {i : ℕ} {op : CopyOp} (h : s.formed) : OptFormed (transfer s i op) := by
  unfold transfer
  refine .ite (.ite .none ?_) (.ite (.some (settleCopy_formed h)) (.ite .none (.some (settleCopy_formed (.keep
      ?_)))))
  · split
    · exact .ite (.some (settleCopy_formed (plumbSources_formed h)))
        (.ite (.some (settleCopy_formed h)) (.ite .none (.some (updCopy_formed (emit_formed (plumbSources_formed
            h))))))
    · exact .some (settleCopy_formed (plumbSources_formed h))
  · refine foldl_formed (settleWords_formed (plumbSources_formed h) fun _ _ hs => plumbCopy_formed hs) fun s x hs =>
      ?_
    split
    · exact ite_formed (putDesc_formed hs) hs
    · exact hs

theorem execCopyComplete_formed {i : ℕ} {nack : Bool} {s : State} (h : s.formed) :
    OutFormed (execCopyComplete i nack s) := by
  unfold execCopyComplete
  split
  · exact .next h
  · refine .ite (.next (stampCopy_formed h)) ?_
    split
    · exact .next (stampCopy_formed (settleCopy_formed h))
    · split
      · exact .next (stampCopy_formed (settleCopy_formed h))
      · split
        · exact .next h
        · exact .next (stampCopy_formed (transfer_formed h _ ‹_›))

theorem execTransportFailure_formed {i : ℕ} {s : State} (h : s.formed) : OutFormed (execTransportFailure i s) := by
  unfold execTransportFailure
  split
  · exact .next h
  · split
    · exact .ite (.next (stampCopy_formed (settleCopy_formed h))) (.next h)
    · exact .next h

theorem execXq_formed {a : BitVec 6} {s : State} (h : s.formed) : OutFormed (execXq a s) :=
  frame_formed h (fun _ _ hs => eachLane_formed hs (fun _ _ hs2 => xqLane_formed hs2))

theorem execXqn_formed {a : BitVec 6} {s : State} (h : s.formed) : OutFormed (execXqn a s) :=
  frame_formed h (fun _ _ hs => eachLane_formed hs (fun _ _ hs2 => xqLane_formed hs2))

theorem updEntry_formed {s : State} {k num : ℕ} {f : MEntry → MEntry} (h : s.formed) :
    (updEntry s k num f).formed := updCluster_formed h

theorem addEntry_formed {s : State} {k : ℕ} {e : MEntry} (h : s.formed) : (addEntry s k e).formed :=
  updCluster_formed h

theorem waitTable_formed {c : Ctx} {s : State} {t : ℕ} (h : s.formed) : (waitTable c s t).formed :=
  updCluster_formed (parkLane_formed h)

theorem mmissueLane_formed {c : Ctx} {off : ℕ → ℕ} {s : State} {t : ℕ} (h : s.formed) :
    (mmissueLane c off s t).formed := by
  unfold mmissueLane
  dsimp only
  split
  · refine ite_formed (failLane_formed h) ?_
    refine ite_formed (failLane_formed h) ?_
    split
    · exact failLane_formed h
    · split
      · exact failLane_formed h
      · exact parkLane_formed h
      · exact ite_formed (waitTable_formed h) (closes_formed (released_formed (addEntry_formed h)))
  · exact h

theorem accLane_formed {c : Ctx} {kind : MKind} {d a b : Code} {s : State} {t : ℕ} (h : s.formed) :
    (accLane c kind d a b s t).formed := by
  unfold accLane
  split
  · refine ite_formed (failLane_formed h) ?_
    refine ite_formed (failLane_formed h) ?_
    refine ite_formed (failLane_formed h) ?_
    refine ite_formed (failLane_formed h) ?_
    refine ite_formed ?_ (ite_formed (waitTable_formed h) (parkLane_formed (released_formed (addEntry_formed h))))
    split
    · exact ite_formed (ite_formed (waitTable_formed h) (parkLane_formed (released_formed (addEntry_formed h))))
        (failLane_formed h)
    · exact failLane_formed h
    · exact h
  · exact h

theorem freeEntry_formed {s : State} {k : ℕ} {e : MEntry} (h : s.formed) : (freeEntry s k e).formed := by
  unfold freeEntry
  dsimp only
  split
  · exact updCluster_formed h
  · exact wakeRetry_formed (updCluster_formed h)

theorem stampEntry_formed {s : State} {k : ℕ} {e : MEntry} {status : ℕ} (h : s.formed) :
    (stampEntry s k e status).formed := by
  unfold stampEntry
  dsimp only
  split
  · exact freeEntry_formed h
  · split
    · exact nodeEnds_formed (freeEntry_formed (plumbEngine_formed (stamp_formed h _ ‹_›)))
    · exact nodeEnds_formed (freeEntry_formed h)
    · exact updCluster_formed (updEntry_formed h)

theorem plumbEntry_formed {s : State} {e : MEntry} {a n scope : ℕ} {write : Bool} (h : s.formed) :
    (plumbEntry s e a n scope write).formed := plumbEngine_formed h

theorem endAcc_formed {s : State} {k : ℕ} {e : MEntry} {tr : Option (Trap × ℕ)} (h : s.formed) :
    (endAcc s k e tr).formed := by
  unfold endAcc
  split
  · exact freeEntry_formed h
  · refine ite_formed (freeEntry_formed h) ?_
    split
    · exact wakeCont_formed (freeEntry_formed h)
    · exact trapThread_formed (freeEntry_formed h)

theorem runFin_formed {s : State} {k : ℕ} {e : MEntry} (h : s.formed) : OptFormed (runFin s k e) := by
  have hput (since tag : ℕ) (whole : Bool) (ws : List WordOut) (n : ℕ) :
      (settleWords { s with free := n } since tag whole (fun s va => s.plumbEntry e va 4 (mbRsc e.block) true)
          ws).formed :=
    settleWords_formed (.keep h) fun _ _ hs => plumbEntry_formed hs
  unfold runFin
  split
  · exact .none
  · dsimp only
    split
    · exact .some (stampEntry_formed h)
    · split
      · exact .some (stampEntry_formed (updEntry_formed (updCrew_formed (hput _ _ _ _ _))))
      · exact .none
      · exact .ite (.some (stampEntry_formed (hput _ _ _ _ _))) .none
      · exact .some (stampEntry_formed h)
      · exact .some (stampEntry_formed (hput _ _ _ _ _))

theorem runMma_formed {s : State} {k : ℕ} {e : MEntry} (h : s.formed) : OptFormed (runMma s k e) := by
  unfold runMma
  split
  · exact .none
  · refine .ite (.some (stampEntry_formed h)) (.ite (.some (stampEntry_formed h)) ?_)
    split
    · exact .some (stampEntry_formed h)
    · exact .some (ite_formed (stampEntry_formed (updCluster_formed (updEntry_formed (updCrew_formed h))))
        (updCluster_formed (updEntry_formed (updCrew_formed h))))

theorem runWload_formed {s : State} {k : ℕ} {e : MEntry} (h : s.formed) : OptFormed (runWload s k e) := by
  unfold runWload
  dsimp only
  split
  · exact .none
  · split
    · exact .ite (.some (stampEntry_formed (ite_formed h (foldl_formed h (fun _ _ hs => ite_formed
        (plumbEntry_formed hs) hs))))) (.some (stampEntry_formed (ite_formed (updCrew_formed h) (foldl_formed
        (updCrew_formed h) (fun _ _ hs => ite_formed (plumbEntry_formed hs) hs)))))
    · exact .none
    · exact .ite (.some (stampEntry_formed (ite_formed h (foldl_formed h (fun _ _ hs => ite_formed
        (plumbEntry_formed hs) hs))))) .none
    · exact .some (stampEntry_formed h)
    · exact .some (stampEntry_formed (ite_formed h (foldl_formed h (fun _ _ hs => ite_formed (plumbEntry_formed hs)
        hs))))

theorem runClr_formed {s : State} {k : ℕ} {e : MEntry} (h : s.formed) : OptFormed (runClr s k e) :=
  .some (stampEntry_formed (updCrew_formed h))

theorem failAcc_formed {α : Type} {s : State} {k : ℕ} {e : MEntry} {cr : Crew} {r : Acc α} (h : s.formed) :
    OptFormed (failAcc s k e cr r) := by
  cases r with
  | ok _ | hold => exact .none
  | trap _ _ => exact .some (endAcc_formed h)
  | fault _ _ => exact .ite (.some (endAcc_formed h)) .none
  | poison => exact .some (removeGrid_formed (endAcc_formed h))

theorem plumbOwn_formed {s : State} {e : MEntry} {n : ℕ} {write : Bool} {p : ℕ → Bool} (h : s.formed) :
    (plumbOwn s e n write p).1.formed := plumbEach_formed h

theorem unlessRace_formed {k : ℕ} {e : MEntry} {r : State × Bool} {go : State → Option State} (h : r.1.formed)
    (hgo : ∀ s, s.formed → OptFormed (go s)) : OptFormed (unlessRace k e r go) :=
  .ite (.some (endAcc_formed h)) (hgo _ h)

theorem runAcc_formed {s : State} {k : ℕ} {e : MEntry} (h : s.formed) : OptFormed (runAcc s k e) := by
  unfold runAcc
  split
  · exact .none
  · refine .ite ?_ ?_
    · dsimp only
      split
      · exact unlessRace_formed (plumbOwn_formed h) fun _ h0 =>
          .some (endAcc_formed (settleWords_formed h0 fun _ _ hs => hs))
      · exact failAcc_formed h
    · split
      · exact unlessRace_formed (plumbOwn_formed h) fun _ h0 =>
          .ite (.some (endAcc_formed (updCrew_formed h0))) (.some (endAcc_formed h0))
      · exact .bind fun _ _ => unlessRace_formed (plumbOwn_formed h) fun _ h0 => failAcc_formed h0

theorem runEntry_formed {s : State} {k : ℕ} {e : MEntry} (h : s.formed) : OptFormed (runEntry s k e) := by
  unfold runEntry
  refine .ite (.some (stampEntry_formed h)) ?_
  split
  · exact .ite (runMma_formed h) (runFin_formed h)
  · exact runWload_formed h
  · exact runFin_formed h
  · exact runClr_formed h
  · exact runAcc_formed h
  · exact runAcc_formed h

theorem runGranted_formed {s : State} {k : ℕ} {kinds : MEntry → Bool} (h : s.formed) :
    (runGranted s k kinds).formed := by
  unfold runGranted
  split
  · exact ite_formed (OptFormed.getD (runEntry_formed h) (updCluster_formed h)) h
  · split
    · split
      · exact stampEntry_formed h
      · exact h
    · exact h

theorem execMatrixPassGrant_formed {cluster : ℕ} {s : State} (h : s.formed) :
    OutFormed (execMatrixPassGrant cluster s) := by
  unfold execMatrixPassGrant
  refine .ite (.next h) ?_
  split
  · exact .next h
  · exact .next (updCluster_formed h)

theorem execMatrixMma_formed {cluster : ℕ} {s : State} (h : s.formed) : OutFormed (execMatrixMma cluster s) :=
  .next (runGranted_formed h)

theorem execMatrixWload_formed {cluster : ℕ} {s : State} (h : s.formed) : OutFormed (execMatrixWload cluster s) :=
  .next (runGranted_formed h)

theorem execMatrixFin_formed {cluster : ℕ} {s : State} (h : s.formed) : OutFormed (execMatrixFin cluster s) :=
  .next (runGranted_formed h)

theorem execMatrixClr_formed {cluster : ℕ} {s : State} (h : s.formed) : OutFormed (execMatrixClr cluster s) :=
  .next (runGranted_formed h)

theorem execAccEntryExecute_formed {cluster : ℕ} {s : State} (h : s.formed) :
    OutFormed (execAccEntryExecute cluster s) :=
  .next (runGranted_formed h)

theorem execMmissue_formed {a : BitVec 6} {s : State} (h : s.formed) : OutFormed (execMmissue a s) :=
  frame_formed h (fun _ _ hs => eachLane_formed hs (fun _ _ hs2 => mmissueLane_formed hs2))

theorem execAccsv_formed {d a c : BitVec 6} {s : State} (h : s.formed) : OutFormed (execAccsv d a c s) :=
  frame_formed h (fun _ _ hs => eachLane_formed hs (fun _ _ hs2 => accLane_formed hs2))

theorem execAccld_formed {d a c : BitVec 6} {s : State} (h : s.formed) : OutFormed (execAccld d a c s) :=
  frame_formed h (fun _ _ hs => eachLane_formed hs (fun _ _ hs2 => accLane_formed hs2))

end State

end Sys2Proof.Machine
end

section
/-!
PROOFS. Rays, dual traversals and reprojections keep the canonical form of memory (O56).
-/

set_option Elab.async false

namespace Sys2Proof.Machine

open Sys2Proof

namespace State

theorem plumbRay_formed {s : State} {y : Ray} {a n : ℕ} {write : Bool} (h : s.formed) :
    (plumbRay s y a n write).formed := by
  unfold plumbRay
  split
  · exact plumbEngine_formed h
  · exact h

/-- The state in which a log has taken a record, or has not. -/
def loggedState : Logged → State
  | .done s | .full s | .broken s => s

/-- The state in which a ray's walk stands. -/
def walkEndState : WalkEnd → State
  | .stopped s _ _ _ | .held s _ _ _ _ | .failed s _ _ _ | .more s _ => s

theorem logPut_formed {s : State} {y : Ray} {key : Option ℕ} {item a : ℕ} {ws : List Word} (h : s.formed) :
    WalkedFormed id (logPut s y key item a ws) :=
  .bind fun _ _ => .ok (settleWords_formed h fun _ _ hs => plumbRay_formed hs)

theorem logWrite_formed {s : State} {y : Ray} {key : Option ℕ} {kind leafi a t : ℕ} (h : s.formed) :
    WalkedFormed loggedState (logWrite s y key kind leafi a t) := by
  refine .ite (.ok h) (.bind fun x _ => ?_)
  cases x with
  | none => exact .ok (plumbRay_formed h)
  | some x =>
    exact .ite (.ok (plumbRay_formed h))
      (.bind fun _ h1 => .bind fun _ h2 => .ok (logPut_formed (logPut_formed (plumbRay_formed h) _ h1) _ h2))

theorem andThen_formed {x : Logged} {y : Ray} {r : BitVec 1024} {next : State → Walked Stepped}
    (h : (loggedState x).formed) (hn : ∀ s, s.formed → WalkedFormed Stepped.s (next s)) :
    WalkedFormed Stepped.s (x.andThen y r next) := by
  cases x with
  | done s => exact hn s h
  | full s => exact .ok h
  | broken s => exact .ok h

/-- A step after its log record. -/
theorem logThen_formed {s : State} {y z : Ray} {key : Option ℕ} {kind leafi a t : ℕ} {r : BitVec 1024}
    {next : State → Walked Stepped} (h : s.formed) (hn : ∀ s, s.formed → WalkedFormed Stepped.s (next s)) :
    WalkedFormed Stepped.s ((logWrite s y key kind leafi a t).bind fun x => x.andThen z r next) :=
  .bind fun _ hx => andThen_formed (logWrite_formed h _ hx) hn

theorem goOn_formed {s : State} {x : BitVec 1024 × Bool} (h : s.formed) : (goOn s x).s.formed := by
  unfold goOn
  split <;> exact h

theorem afterRecord_formed {s : State} {r : BitVec 1024} {ls : List (List Entry)} {last : Bool} (h : s.formed) :
    (afterRecord s r ls last).s.formed := by
  have hite {p : Prop} [Decidable p] {x y : Stepped} (hx : x.s.formed) (hy : y.s.formed) :
      (if p then x else y).s.formed := by
    split
    · exact hx
    · exact hy
  exact hite (goOn_formed h) (hite h h)

theorem walkStep_formed {s : State} {y : Ray} {key : Option ℕ} {logged : Bool} (h : s.formed) :
    WalkedFormed Stepped.s (walkStep s y key logged) := by
  refine .bind fun ls _ => ?_
  dsimp only
  split
  · exact .ok (goOn_formed h)
  · refine .ite (.fail (by simp)) (.ite (.ok (goOn_formed h)) (.ite (.ite (.ok h) ?_) (.ite ?_ (.bind fun p _ =>
      ?_))))
    · exact .ite (.ok (plumbRay_formed h)) (logThen_formed h fun _ h1 => .ok (plumbRay_formed h1))
    · exact .ite (.ok h) (logThen_formed h fun _ h1 => .ok h1)
    · refine .ite (.ok (plumbRay_formed h)) ?_
      split
      · exact .ok (afterRecord_formed (plumbRay_formed h))
      · exact .ite (.ok (afterRecord_formed (plumbRay_formed h)))
          (.ite (.ite (.ok (afterRecord_formed (plumbRay_formed h)))
              (logThen_formed (plumbRay_formed h) fun _ h1 => .ok (afterRecord_formed h1)))
            (.ok (plumbRay_formed h)))

theorem leafStep_formed {s : State} {y : Ray} {key : Option ℕ} {form : ℕ} {logged : Bool} (h : s.formed) :
    WalkedFormed Stepped.s (leafStep s y key form logged) := by
  have hdone (s : State) (r : BitVec 1024) (ls : List (List Entry)) (last : Bool) (hs : s.formed) :
      (if form = 2 then Stepped.ends s r (hitOrMiss r) else afterRecord s r ls last).s.formed := by
    split
    · exact hs
    · exact afterRecord_formed hs
  refine .bind fun ls _ => ?_
  dsimp only
  split
  · exact .fail (by simp)
  · exact .ite (.fail (by simp)) (.bind fun p _ =>
      .ite (.ite (.ok (hdone _ _ _ _ h)) (logThen_formed h fun _ h1 => .ok (hdone _ _ _ _ h1))) (.ok (hdone _ _ _ _
          h)))

theorem startStep_formed {s : State} {y : Ray} {key : Option ℕ} (h : s.formed) :
    WalkedFormed Stepped.s (startStep s y key) :=
  logThen_formed h fun _ h1 => .ok (plumbRay_formed h1)

theorem pendingStep_formed {s : State} {y : Ray} {key : Option ℕ} (h : s.formed) :
    WalkedFormed Stepped.s (pendingStep s y key) := by
  refine .ite (startStep_formed h) (.bind fun ls _ => ?_)
  split
  · exact walkStep_formed h
  · refine .ite (.ite (walkStep_formed h) (logThen_formed h fun _ h1 => walkStep_formed h1))
      (.ite (.fail (by simp)) (.bind fun p _ => .ite ?_ (logThen_formed h fun _ h1 => leafStep_formed h1)))
    split
    · exact walkStep_formed h
    · exact logThen_formed h fun _ h1 => walkStep_formed h1

theorem replayStep_formed {s : State} {y : Ray} {key : Option ℕ} {first : Bool} (h : s.formed) :
    WalkedFormed Stepped.s (replayStep s y key first) := by
  refine .bind fun x _ => ?_
  cases x with
  | none => exact .ok (plumbRay_formed h)
  | some x =>
    refine .ite (.bind fun _ h1 => .ok (st := Stepped.s) ?_) (.bind fun bs _ => .bind fun _ h1 => .ok ?_)
    · exact WalkedFormed.ite (st := id) (logPut_formed (plumbRay_formed h)) (.ok (plumbRay_formed h)) _ h1
    · exact logPut_formed (plumbRay_formed (plumbRay_formed h)) _ h1

theorem rayStep_formed {s : State} {y : Ray} {key : Option ℕ} (h : s.formed) :
    WalkedFormed Stepped.s (rayStep s y key) := by
  unfold rayStep
  split
  · exact startStep_formed h
  · exact walkStep_formed h
  · exact leafStep_formed h
  · exact pendingStep_formed h
  · exact replayStep_formed h
  · exact replayStep_formed h

theorem rayWalk_formed {fuel : ℕ} {s : State} {y : Ray} {key : Option ℕ} (h : s.formed) :
    (walkEndState (rayWalk fuel s y key)).formed := by
  induction fuel generalizing s y with
  | zero => exact h
  | succ fuel ih =>
    unfold rayWalk
    split
    case h_1 hx =>
      have h1 := rayStep_formed h _ hx
      dsimp only
      split
      · exact h1
      · exact ih h1
    all_goals exact h

theorem grantSlots_formed {core fuel : ℕ} {s : State} (h : s.formed) : (grantSlots core fuel s).formed := by
  induction fuel generalizing s with
  | zero => exact h
  | succ fuel ih =>
    unfold grantSlots
    split
    · exact h
    · exact ite_formed h (ih (wakeRetry_formed (updCore_formed h)))

theorem slotsFreed_formed {s : State} {core : ℕ} (h : s.formed) : (slotsFreed s core).formed :=
  ite_formed h (grantSlots_formed (updCore_formed h))

theorem queueUnit_formed {s : State} {ci key : ℕ} (h : s.formed) : (queueUnit s ci key).formed :=
  ite_formed h (slotsFreed_formed (updCore_formed h))

theorem unqueue_formed {s : State} {ci key : ℕ} (h : s.formed) : (unqueue s ci key).formed := updCore_formed h

theorem setRay_formed {s : State} {i : ℕ} {y : Ray} (h : s.formed) : (setRay s i y).formed := h

theorem putRecord_formed {s : State} {y : Ray} {status : ℕ} (h : s.formed) : (putRecord s y status).formed :=
  scratchStore_formed _ _ _ _ h

theorem putStatus_formed {s : State} {y : Ray} {status : ℕ} (h : s.formed) : (putStatus s y status).formed :=
  scratchStore_formed _ _ _ _ h

theorem finishTrace_formed {s : State} {y : Ray} {kind : ℕ} (h : s.formed) : (finishTrace s y kind).formed := by
  unfold finishTrace
  refine ite_formed h ?_
  split
  · exact trapThread_formed (.keep h)
  · split
    · split
      · split
        · exact wakeCont_formed (updLane_formed (.keep h))
        · exact .keep h
      · split
        · exact wakeCont_formed (updLane_formed (.keep h))
        · exact .keep h
    · exact .keep h

theorem rayReplayed_formed {s : State} {y : Ray} (h : s.formed) : (rayReplayed s y).formed := by
  unfold rayReplayed
  split
  · exact replayed_formed h
  · exact h

theorem endRay_formed {s : State} {i : ℕ} {y : Ray} {status kind : ℕ} (h : s.formed) :
    (endRay s i y status kind).formed :=
  slotsFreed_formed (finishTrace_formed (.keep (rayReplayed_formed (putRecord_formed h))))

theorem failRay_formed {s : State} {i : ℕ} {y : Ray} {t : Trap} {a : ℕ} (h : s.formed) :
    (failRay s i y t a).formed := slotsFreed_formed (finishTrace_formed (setRay_formed h))

theorem execRayEndOrSuspend_formed {i : ℕ} {s : State} (h : s.formed) : OutFormed (execRayEndOrSuspend i s) := by
  unfold execRayEndOrSuspend
  split
  · exact .next h
  case h_2 y _ =>
    refine .ite (.next h) ?_
    have hw := rayWalk_formed (fuel := raySteps) (y := y) (key := some y.key) h
    split <;> rename_i he <;> rw [he] at hw
    · exact .next (endRay_formed hw)
    · exact .next (failRay_formed (rayReplayed_formed (putRecord_formed hw)))
    · exact .next (setRay_formed (rayReplayed_formed hw))
    · exact .next h

theorem execRayFaultStop_formed {i : ℕ} {s : State} (h : s.formed) : OutFormed (execRayFaultStop i s) := by
  unfold execRayFaultStop
  split
  · exact .next h
  case h_2 y _ =>
    refine .ite (.next h) ?_
    have hw := rayWalk_formed (fuel := raySteps) (y := y) (key := some y.key) h
    split
    case h_1 he =>
      rw [he] at hw
      exact .next (slotsFreed_formed (takeEntry_formed (setRay_formed (rayReplayed_formed (putRecord_formed hw)))))
    · exact .next h

theorem execRayReenter_formed {i : ℕ} {s : State} (h : s.formed) : OutFormed (execRayReenter i s) := by
  unfold execRayReenter
  split
  · exact .next h
  · exact .ite (.next h) (.ite (.next (queueUnit_formed h)) (.ite (.next (failRay_formed (unqueue_formed
      (queueUnit_formed h)))) (.next (setRay_formed (unqueue_formed (queueUnit_formed h))))))

theorem waitSlots_formed {c : Ctx} {n : ℕ} {s : State} {t : ℕ} (h : s.formed) : (waitSlots c n s t).formed :=
  updCore_formed (parkLane_formed h)

theorem dropGrant_formed {c : Ctx} {s : State} {t : ℕ} (h : s.formed) : (dropGrant c s t).formed := updCore_formed h

theorem regrant_formed {c : Ctx} {f : State → ℕ → State} {s : State} {t : ℕ} (h : s.formed)
    (hf : ∀ s t, s.formed → (f s t).formed) : (regrant c f s t).formed := slotsFreed_formed (hf _ _
        (dropGrant_formed h))

theorem traceLane_formed {c : Ctx} {d a b : Code} {form : TraceForm} {s : State} {t : ℕ} (h : s.formed) :
    (traceLane c d a b form s t).formed := by
  unfold traceLane
  split
  · exact h
  · refine ite_formed (failLane_formed h) ?_
    refine ite_formed (failLane_formed h) ?_
    refine ite_formed (failLane_formed h) ?_
    refine ite_formed (failLane_formed h) ?_
    split
    · exact failLane_formed h
    · exact ite_formed (failLane_formed h) (ite_formed (waitSlots_formed h) (updThread_formed (parkLane_formed
        (.keep (ite_formed (closes_formed (released_formed h)) (released_formed h))))))

theorem tracepLane_formed {c : Ctx} {d a b : Code} {s : State} {t : ℕ} (h : s.formed) :
    (tracepLane c d a b s t).formed := by
  unfold tracepLane
  have hf {tr : Trap} : (failLane c t tr 0 s).formed := failLane_formed h
  split
  · exact h
  · exact ite_formed hf (ite_formed hf (ite_formed hf (ite_formed hf (ite_formed hf
      (ite_formed (waitSlots_formed h) (updThread_formed (parkLane_formed (.keep h))))))))

theorem execTrace_formed {d a c : BitVec 6} {s : State} (h : s.formed) : OutFormed (execTrace d a c s) :=
  frame_formed h (fun _ _ hs => eachLane_formed hs (fun _ _ hs2 => regrant_formed hs2 (fun _ _ hs3 =>
      traceLane_formed hs3)))

theorem execTracep_formed {d a c : BitVec 6} {s : State} (h : s.formed) : OutFormed (execTracep d a c s) :=
  frame_formed h (fun _ _ hs => eachLane_formed hs (fun _ _ hs2 => regrant_formed hs2 (fun _ _ hs3 =>
      tracepLane_formed hs3)))

theorem execTres_formed {d a c : BitVec 6} {s : State} (h : s.formed) : OutFormed (execTres d a c s) :=
  frame_formed h (fun _ _ hs => eachLane_formed hs (fun _ _ hs2 => regrant_formed hs2 (fun _ _ hs3 =>
      traceLane_formed hs3)))

theorem execTresAcc_formed {d a c : BitVec 6} {s : State} (h : s.formed) : OutFormed (execTresAcc d a c s) :=
  frame_formed h (fun _ _ hs => eachLane_formed hs (fun _ _ hs2 => regrant_formed hs2 (fun _ _ hs3 =>
      traceLane_formed hs3)))

theorem execTresTerm_formed {d a c : BitVec 6} {s : State} (h : s.formed) : OutFormed (execTresTerm d a c s) :=
  frame_formed h (fun _ _ hs => eachLane_formed hs (fun _ _ hs2 => regrant_formed hs2 (fun _ _ hs3 =>
      traceLane_formed hs3)))

theorem plumbPair_formed {s : State} {op : XPairOp} {a n : ℕ} {write : Bool} (h : s.formed) :
    (plumbPair s op a n write).formed := plumbEngine_formed h

theorem pairPut_formed {s : State} {op : XPairOp} {a : ℕ} {bs : List Byte} (h : s.formed) :
    WalkedFormed id (pairPut s op a bs) := by
  unfold pairPut
  split
  · exact .fail (by simp)
  · exact .of_acc (.bind fun ws => .ok (settleWords_formed h fun _ _ hs => plumbPair_formed hs)) _

theorem pairEmission_formed {s : State} {op : XPairOp} {a b : PairRef} (h : s.formed) :
    WalkedFormed Prod.fst (pairEmission s op a b) :=
  .bind fun _ _ => .ite (.ok (plumbPair_formed h)) (.bind fun _ h1 => .bind fun _ h2 =>
    .ok (fireWaiters_formed _ _ _ _ (pairPut_formed (pairPut_formed (plumbPair_formed h) _ h1) _ h2)))

theorem pairStep_formed {s : State} {op : XPairOp} (h : s.formed) : WalkedFormed Prod.fst (pairStep s op) := by
  refine .bind fun ls _ => ?_
  dsimp only
  split
  · exact .ok h
  · exact .ite (.ok h) (.ite
      (.ok (ite_formed (plumbPair_formed (ite_formed (plumbPair_formed h) h)) (ite_formed (plumbPair_formed h) h)))
      (.bind fun x hx => .ite (.ok (pairEmission_formed h _ hx)) (.ok (pairEmission_formed h _ hx))))

theorem pairWalk_formed {fuel : ℕ} {s : State} {op : XPairOp} (h : s.formed) : (pairWalk fuel s op).1.formed := by
  induction fuel generalizing s op with
  | zero => exact h
  | succ fuel ih =>
    unfold pairWalk
    dsimp only
    split
    case h_1 he => exact ih (pairStep_formed h _ he)
    case h_2 he => exact pairStep_formed h _ he
    case h_4 => exact ite_fst_formed h h
    all_goals exact h

theorem pairStart_formed {s : State} {op : XPairOp} (h : s.formed) : (pairStart s op).1.formed := by
  unfold pairStart
  refine ite_fst_formed h ?_
  dsimp only
  split
  · refine ite_fst_formed (plumbPair_formed h) ?_
    split
    case h_1 he => exact plumbPair_formed (plumbPair_formed (pairPut_formed (plumbPair_formed h) _ he))
    · exact ite_fst_formed (plumbPair_formed h) h
    · exact plumbPair_formed h
  · exact ite_fst_formed h h
  · exact h

theorem setPair_formed {s : State} {i : ℕ} {op : XPairOp} (h : s.formed) : (setPair s i op).formed := .keep h

theorem endPair_formed {s : State} {i : ℕ} {op : XPairOp} {status : ℕ} (h : s.formed) :
    (endPair s i op status).formed := by
  unfold endPair
  dsimp only
  split
  · exact slotsFreed_formed (setPair_formed h)
  case h_2 s1 op1 st0 hc =>
    have h1 : s1.formed := by
      split at hc
      · cases hc
        exact h
      · split at hc
        case h_1 he =>
          cases hc
          exact pairPut_formed h _ he
        · split at hc
          · cases hc
            exact h
          · cases hc
        · cases hc
          exact h
    have h2 {p : Prop} [Decidable p] {ci a : ℕ} {bs : List Byte} : (if p then s1 else s1.scratchStore ci a
        bs).formed :=
      ite_formed h1 (scratchStore_formed _ _ _ _ h1)
    split
    case h_1 he => exact slotsFreed_formed (.keep (plumbPair_formed (stamp_formed h2 _ he)))
    · exact slotsFreed_formed (.keep h2)
    · exact slotsFreed_formed (setPair_formed h2)

theorem runPair_formed {s : State} {i : ℕ} {op : XPairOp} (h : s.formed) : (runPair s i op).formed := by
  have hx : (if op.outcome.isSome ∨ op.started then (s, op, false) else pairStart s op).1.formed :=
    ite_fst_formed h (pairStart_formed h)
  have hy {x : State × XPairOp × Bool} (hx : x.1.formed) :
      (if x.2.2 || x.2.1.outcome.isSome then x else pairWalk raySteps x.1 x.2.1).1.formed :=
    ite_fst_formed hx (pairWalk_formed hx)
  unfold runPair
  extract_lets x y
  split
  · exact endPair_formed (hy hx)
  · exact ite_formed (slotsFreed_formed (setPair_formed (hy hx))) (setPair_formed (hy hx))

theorem execXpairComplete_formed {i : ℕ} {s : State} (h : s.formed) : OutFormed (execXpairComplete i s) := by
  unfold execXpairComplete
  split
  · exact .next h
  · exact .ite (.next (runPair_formed (setPair_formed h))) (.ite (.next h) (.ite (.next (runPair_formed
      (setPair_formed (unqueue_formed (queueUnit_formed h))))) (.next (queueUnit_formed h))))

theorem xpairLane_formed {c : Ctx} {a : Code} {s : State} {t : ℕ} (h : s.formed) : (xpairLane c a s t).formed := by
  unfold xpairLane
  split
  · exact ite_formed (failLane_formed h) (ite_formed (failLane_formed h) (ite_formed (failLane_formed h) (ite_formed
      (waitSlots_formed h) (closes_formed (released_formed (.keep h))))))
  · exact h

theorem execXpair_formed {a : BitVec 6} {s : State} (h : s.formed) : OutFormed (execXpair a s) :=
  frame_formed h (fun _ _ hs => eachLane_formed hs (fun _ _ hs2 => regrant_formed hs2 (fun _ _ hs3 =>
      xpairLane_formed hs3)))

theorem setReproj_formed {s : State} {k i : ℕ} {op : ReprojOp} (h : s.formed) : (setReproj s k i op).formed :=
  updCluster_formed h

theorem grantReproj_formed {k fuel : ℕ} {s : State} (h : s.formed) : (grantReproj k fuel s).formed := by
  induction fuel generalizing s with
  | zero => exact h
  | succ fuel ih =>
    unfold grantReproj
    split
    · exact h
    · exact ite_formed h (ih (wakeRetry_formed (updCluster_formed h)))

theorem reprojFreed_formed {s : State} {k : ℕ} (h : s.formed) : (reprojFreed s k).formed :=
  ite_formed h (grantReproj_formed (updCluster_formed h))

theorem freeReproj_formed {s : State} {k i : ℕ} (h : s.formed) : (freeReproj s k i).formed :=
  reprojFreed_formed (updCluster_formed h)

theorem stampReproj_formed {s : State} {k i : ℕ} {op : ReprojOp} {status : ℕ} {flags : BitVec 6} (h : s.formed) :
    (stampReproj s k i op status flags).formed := by
  unfold stampReproj
  dsimp only
  split
  · exact freeReproj_formed (plumbEngine_formed (stamp_formed h _ ‹_›))
  · exact freeReproj_formed h
  · exact setReproj_formed h

theorem runReproj_formed {s : State} {k i : ℕ} {op : ReprojOp} (h : s.formed) : OptFormed (runReproj s k i op) := by
  have hends {s : State} {op : ReprojOp} {st : ℕ} {f : BitVec 6} (hs : s.formed) :
      OptFormed (some ((s.setReproj k i op).stampReproj k i op st f)) := .some (stampReproj_formed (setReproj_formed
          hs))
  unfold runReproj
  split
  · exact .ite .none (.some (stampReproj_formed h))
  · exact .none
  · refine .ite (hends h) ?_
    dsimp only
    split
    · exact .none
    · exact .ite (hends h) .none
    · exact hends h
    · exact hends h
    · exact hends h
    case _ cr _ _ _ src mv _ =>
      have hsaw (a n b m sc : ℕ) : ((s.plumbEngine (some op.crew) op.wid op.interval op.pc.toNat a n sc
          false).plumbEngine
          (some op.crew) op.wid op.interval op.pc.toNat b m sc false).formed := plumbEngine_formed
              (plumbEngine_formed h)
      split
      · exact hends (settleWords_formed (hsaw _ _ _ _ _) fun _ _ hs => plumbEngine_formed hs)
      · exact .none
      · exact .ite (hends (settleWords_formed (hsaw _ _ _ _ _) fun _ _ hs => plumbEngine_formed hs)) .none
      · exact hends (hsaw _ _ _ _ _)
      · exact hends (settleWords_formed (hsaw _ _ _ _ _) fun _ _ hs => plumbEngine_formed hs)

theorem execReprojOperation_formed {cluster : ℕ} {s : State} (h : s.formed) :
    OutFormed (execReprojOperation cluster s) := by
  unfold execReprojOperation
  dsimp only
  split
  case h_1 he =>
    obtain ⟨x, -, hx⟩ := List.exists_of_findSome?_eq_some he
    exact .next (runReproj_formed h _ hx)
  · exact .next h

theorem ownReproj_formed {c : Ctx} {f : State → ℕ → State} {s : State} {t : ℕ} (h : s.formed)
    (hf : ∀ s t, s.formed → (f s t).formed) : (ownReproj c f s t).formed := reprojFreed_formed (hf _ _
        (updCluster_formed h))

theorem reprojLane_formed {c : Ctx} {a : Code} {s : State} {t : ℕ} (h : s.formed) :
    (reprojLane c a s t).formed := by
  unfold reprojLane
  split
  · exact ite_formed (failLane_formed h) (ite_formed (failLane_formed h) (ite_formed (failLane_formed h) (ite_formed
      (updCluster_formed (parkLane_formed h)) (released_formed (updCluster_formed h)))))
  · exact h

theorem execReproj_formed {a : BitVec 6} {s : State} (h : s.formed) : OutFormed (execReproj a s) :=
  frame_formed h (fun _ _ hs => eachLane_formed hs (fun _ _ hs2 => ownReproj_formed hs2 (fun _ _ hs3 =>
      reprojLane_formed hs3)))

end State

end Sys2Proof.Machine
end

section
/-!
PROOFS. Launches, graphs and collectives keep the canonical form of memory (O56).
-/

set_option Elab.async false

namespace Sys2Proof.Machine

open Sys2Proof

namespace State

theorem packetStamp_formed {s : State} {part : ℕ} {p : BitVec 512} {status : ℕ} (h : s.formed) :
    StampFormed (packetStamp s part p status) := by
  unfold packetStamp
  split
  · exact fun _ he => nomatch he
  · exact stamp_formed h

theorem ringQueue_formed {s : State} {q v : ℕ} (h : s.formed) : (ringQueue s q v).formed :=
  ite_formed h (setQueue_formed h)

theorem wakeLaunches_formed {s : State} {q : ℕ} (h : s.formed) : (wakeLaunches s q).formed :=
  foldl_formed h (fun _ _ hs => wakeParked_formed hs)

theorem execQueueDescriptorWrite_formed {q : ℕ} {d : BitVec 512} {s : State} (h : s.formed) :
    OutFormed (execQueueDescriptorWrite q d s) :=
  .ite (.next h) (.next (wakeLaunches_formed (setQueue_formed h)))

theorem addGrid_formed {s : State} {p : BitVec 512} {queue part : ℕ} {node : Option (ℕ × ℕ)} {st : GridStatus}
    (h : s.formed) : (addGrid s p queue part node st).formed := h

theorem execPacketTake_formed {q : ℕ} {s : State} (h : s.formed) : OutFormed (execPacketTake q s) := by
  unfold execPacketTake
  dsimp only
  refine .ite (.next h) ?_
  split
  · exact .next h
  · split
    · split
      · exact .next (addGrid_formed (packetStamp_formed (wakeLaunches_formed (setQueue_formed h)) _ ‹_›))
      · exact .next (addGrid_formed (wakeLaunches_formed (setQueue_formed h)))
      · exact .next h
    · exact .ite (.next (.keep (wakeLaunches_formed (setQueue_formed h)))) (.next (addGrid_formed
        (wakeLaunches_formed (setQueue_formed h))))

theorem dropUnfit_formed {s : State} (h : s.formed) : (dropUnfit s).formed := by
  refine foldl_formed h fun s gi hs => ?_
  split
  · exact ite_formed (dropGrid_formed hs) hs
  · exact hs

theorem execDistributeGang_formed {die : ℕ} {s0 : State} (h : s0.formed) :
    OutFormed (execDistributeGang die s0) := by
  unfold execDistributeGang
  dsimp only
  split
  · exact .next (dropUnfit_formed h)
  · split
    · exact .next (dropUnfit_formed h)
    · split
      · exact .next (dropUnfit_formed h)
      · exact .ite (.next (dropUnfit_formed h)) (.next (formed.keep (dropUnfit_formed h)))

theorem placeCrew_formed {s : State} {ci core : ℕ} (h : s.formed) : (placeCrew s ci core).formed := by
  unfold placeCrew
  split
  · exact h
  · exact ite_formed (updCrew_formed (.keep h)) (updCrew_formed (.keep h))

theorem releaseOver_formed {s : State} (h : s.formed) : (releaseOver s).formed := h

theorem fixCode_formed {s : State} {gi : ℕ} (h : s.formed) : (fixCode s gi).formed :=
  ite_formed h (updGrid_formed h)

theorem execPlaceGang_formed {die : ℕ} {s0 : State} (h : s0.formed) : OutFormed (execPlaceGang die s0) := by
  unfold execPlaceGang
  dsimp only
  split
  · exact .next (dropUnfit_formed (releaseOver_formed h))
  · exact .ite (.next (dropUnfit_formed (releaseOver_formed h))) (.next (updGang_formed (foldl_formed (foldl_formed
      (fixCode_formed (dropUnfit_formed (releaseOver_formed h))) (fun _ _ hs => placeCrew_formed hs)) (fun _ _ hs =>
      updGang_formed hs))))

theorem execGridComplete_formed {grid : ℕ} {s0 : State} (h : s0.formed) : OutFormed (execGridComplete grid s0) := by
  unfold execGridComplete
  dsimp only
  split
  · exact .next (releaseOver_formed h)
  · refine .ite (.next (releaseOver_formed h)) ?_
    split
    · exact .next (nodeEnds_formed (updPart_formed (updGrid_formed (packetStamp_formed (releaseOver_formed h) _
        ‹_›))))
    · exact .next (nodeEnds_formed (updPart_formed (updGrid_formed (releaseOver_formed h))))
    · exact .next (releaseOver_formed h)

theorem geyserSeen_formed {ci li : ℕ} {as : List ℕ} {write : Bool} {pc : BitVec 56} {s : State} (h : s.formed) :
    (geyserSeen ci li as write pc s).formed := by
  unfold geyserSeen
  split
  · exact h
  · exact plumbLane_formed h
  · exact plumbLane_formed (plumbAcquire_formed h)

theorem geyser_formed {s : State} {ci li a : ℕ} {ws as : List ℕ} {t : State} (h : s.formed)
    (he : geyser s ci li a = .ok (.item ws t as)) : t.formed := by
  unfold geyser at he
  obtain ⟨g, -, hg⟩ := Acc.exists_of_bind_ok he
  dsimp only at hg
  split at hg
  · cases hg
  · split at hg
    · cases hg
    · split at hg
      · cases hg
      · split at hg
        · split at hg
          · cases hg
            exact physWrite_formed _ _ _ h
          · cases hg
        · obtain ⟨q, -, hq⟩ := Acc.exists_of_bind_ok hg
          split at hq
          · cases hq
          · split at hq
            · cases hq
            · split at hq
              · obtain ⟨x, -, hx⟩ := Acc.exists_of_bind_ok hq
                cases hx
                exact physWrite_formed _ _ _ h
              · split at hq <;> cases hq

theorem fetchwLane_formed {c : Ctx} {d a : Code} {q : ℕ} {s : State} {t : ℕ} (h : s.formed) :
    (fetchwLane c d a q s t).formed := by
  have hseen {s : State} {as : List ℕ} {write : Bool} (hs : s.formed) :
      (geyserSeen c.ci (c.place t) as write c.start (as.foldl (fun s a => s.replayed c.ci (c.place t) a)
          s)).formed :=
    geyserSeen_formed (foldl_formed hs fun _ _ hs => replayed_formed hs)
  refine ite_formed (failLane_formed h) (afterAcc_formed h fun r hr => ?_)
  cases r with
  | item ws s1 as => exact closes_formed (hseen (updLane_formed (setLane_formed (geyser_formed h hr))))
  | dry as => exact closes_formed (hseen (updLane_formed h))
  | wait as => exact parkLane_formed (hseen h)

theorem execFetchw_formed {d a c : BitVec 6} {s : State} (h : s.formed) : OutFormed (execFetchw d a c s) :=
  frame_formed h (fun _ _ hs => eachLane_formed hs (fun _ _ hs2 => fetchwLane_formed hs2))

theorem execFetchwWake_formed {crew lane : ℕ} {s : State} (h : s.formed) :
    OutFormed (execFetchwWake crew lane s) := by
  unfold execFetchwWake
  split
  · exact .next h
  · split
    · split
      · exact .next h
      · exact .next (wakeRetry_formed h)
    · exact .next h

theorem launchLane_formed {c : Ctx} {d a b : Code} {s : State} {t : ℕ} (h : s.formed) :
    (launchLane c d a b s t).formed := by
  unfold launchLane
  split
  · exact h
  · exact ite_formed (failLane_formed h) (ite_formed (failLane_formed h) (ite_formed (failLane_formed h) (ite_formed
      (failLane_formed h) (ite_formed (parkLane_formed h) (afterAcc_formed h (fun _ _ => closes_formed
      (released_formed (replayed_formed (setLane_formed (setQueue_formed (AccFormed.bind (fun _ => .ok
      (physWrite_formed _ _ _ (performed_formed h))) _ ‹_›)))))))))))

theorem execLaunch_formed {d a c : BitVec 6} {s : State} (h : s.formed) : OutFormed (execLaunch d a c s) :=
  frame_formed h (fun _ _ hs => eachLane_formed hs (fun _ _ hs2 => launchLane_formed hs2))

theorem setNode_formed {s : State} {gi i : ℕ} {x : NodeState} (h : s.formed) : (setNode s gi i x).formed :=
  updGraph_formed h

theorem ownerStarts_formed {s : State} {gi i : ℕ} {g : Graph} {n : ℕ} (h : s.formed) :
    OptFormed (ownerStarts s gi i g n) := by
  unfold ownerStarts
  split
  · exact .none
  · exact .some (setNode_formed h)
  · exact .some (setNode_formed h)
  · exact .some (setNode_formed (updGraph_formed h))

theorem feed_formed {s : State} {gi i : ℕ} {g : Graph} {n : ℕ} (h : s.formed) : OptFormed (feed s gi i g n) := by
  unfold feed
  refine .ite (.some (setNode_formed h)) ?_
  refine .ite (.some (setNode_formed h)) ?_
  split
  · exact .some (setNode_formed (fireWaiters_formed _ _ _ _ (ite_formed (physWrite_formed _ _ _ h) (physWrite_formed
      _ _ _ (physWrite_formed _ _ _ h)))))
  · exact .none
  · exact .some (setNode_formed h)

theorem startNode_formed {s : State} {gi i : ℕ} {g : Graph} {n : ℕ} (h : s.formed) :
    OptFormed (startNode s gi i g n) := by
  unfold startNode
  dsimp only
  split
  · exact .some (setNode_formed h)
  · split
    · split
      · exact .some (setNode_formed (addGrid_formed (packetStamp_formed h _ ‹_›)))
      · exact .some (setNode_formed (addGrid_formed h))
      · exact .none
    · exact .some (setNode_formed (addGrid_formed h))
  · exact .ite .none (.some (setNode_formed (.keep h)))
  · exact .some (setNode_formed h)
  · exact feed_formed h
  · exact ownerStarts_formed h

theorem execGraphNodeStart_formed {w node : ℕ} {s : State} (h : s.formed) :
    OutFormed (execGraphNodeStart w node s) := by
  unfold execGraphNodeStart
  split
  · exact .next h
  · refine .ite (.next h) ?_
    refine .ite (.next (setNode_formed h)) ?_
    split
    · exact .next (startNode_formed h _ ‹_›)
    · exact .next h

theorem execGraphMatrixNode_formed {w node : ℕ} {s : State} (h : s.formed) :
    OutFormed (execGraphMatrixNode w node s) := by
  unfold execGraphMatrixNode
  dsimp only
  split
  · exact .next h
  · refine .ite (.next h) ?_
    refine .ite (.next (setNode_formed h)) ?_
    split
    · exact .next h
    · exact .next (setNode_formed h)
    · split
      · exact .next h
      · split
        · exact .next (setNode_formed h)
        · split
          · exact .next (setNode_formed h)
          · exact .next h
          · exact .ite (.next h) (.next (setNode_formed (addEntry_formed h)))

theorem endGraph_formed {s : State} {gi : ℕ} {ns : List ℕ} (h : s.formed) : OptFormed (endGraph s gi ns) := by
  unfold endGraph
  split
  · exact .some h
  case h_2 g _ =>
    refine .ite (.some h) ?_
    split
    case _ st s1 he =>
      have h1 : s1.formed := by
        split at he
        · cases he
          exact h
        · cases he
          exact devWrite_formed _ _ _ _ h
      split
      case h_1 hs => exact .some (updGraph_formed (packetStamp_formed h1 _ hs))
      · exact .some (updGraph_formed h1)
      · exact .none

theorem nodeResult_formed {s : State} {gi node : ℕ} {g : Graph} {ns : List ℕ} (h : s.formed) :
    OptFormed (nodeResult s gi node g ns) := by
  unfold nodeResult
  split
  · exact .some (setNode_formed h)
  · exact .some (updGraph_formed (setNode_formed h))
  · refine .ite ?_ (.ite (.some (setNode_formed h)) .none)
    refine .ite (.some (setNode_formed h)) ?_
    split
    · exact .none
    · exact .some (setNode_formed h)
    · exact .some (setNode_formed h)
    · exact .ite (.some (setNode_formed h)) (.some (updGraph_formed h))
  · exact .none

theorem execGraphStart_formed {w : ℕ} {s : State} (h : s.formed) : OutFormed (execGraphStart w s) := by
  have hrefuse {g : Graph} {gi st : ℕ} : OutFormed (match s.packetStamp g.part g.packet st with
      | .written s1 => .next (s1.updGraph gi fun G => { G with done := true })
      | .lost => .next (s.updGraph gi fun G => { G with done := true })
      | .held => .next s) := by
    split
    case h_1 hs => exact .next (updGraph_formed (packetStamp_formed h _ hs))
    · exact .next (updGraph_formed h)
    · exact .next h
  unfold execGraphStart
  split
  · split
    · exact .next h
    · refine .ite (.next h) ?_
      split
      · exact .next h
      · exact hrefuse
      · refine .ite hrefuse ?_
        split
        · exact .next h
        · split
          · exact hrefuse
          · exact .ite hrefuse (.next (OptFormed.getD (endGraph_formed (updGraph_formed (devWrite_formed _ _ _ _
              h)))
              h))
  · exact .next h

theorem execGraphNodeComplete_formed {w node : ℕ} {s : State} (h : s.formed) :
    OutFormed (execGraphNodeComplete w node s) := by
  unfold execGraphNodeComplete
  split
  · exact .next h
  · split
    case h_1 he => exact .next (OptFormed.bind (fun _ h1 => endGraph_formed (nodeResult_formed h _ h1)) _ he)
    · exact .next h

theorem setColl_formed {s : State} {i : ℕ} {op : CollOp} (h : s.formed) : (setColl s i op).formed := h

theorem sendColl_formed {s : State} {op : CollOp} {rank : ℕ} {m : CollMsg} (h : s.formed) :
    (sendColl s op rank m).formed := emit_formed h

theorem sendAll_formed {s : State} {op : CollOp} {m : CollMsg} (h : s.formed) : (sendAll s op m).formed :=
  foldl_formed h (fun _ _ hs => sendColl_formed hs)

theorem endColl_formed {s : State} {i : ℕ} {op : CollOp} {st : ℕ} (h : s.formed) : (endColl s i op st).formed := by
  unfold endColl
  split
  · exact fireWaiters_formed _ _ _ _ (.keep (engineWrite_formed h _ ‹_›))
  · exact ite_formed (.keep h) (setColl_formed h)
  · exact .keep h

theorem collFault_formed {α : Type} {s : State} {i : ℕ} {op : CollOp} {a : Acc α} (h : s.formed) :
    (collFault s i op a).formed := by
  have hends : ((s.sendAll op (.failed op.rank)).endColl i { op with refused := false } 3).formed :=
    endColl_formed (sendAll_formed h)
  cases a with
  | fault _ _ => exact ite_formed hends h
  | hold => exact h
  | ok _ | trap _ _ | poison => exact hends

theorem reduceColl_formed {kind i : ℕ} {s : State} (h : s.formed) : (reduceColl kind i s).formed := by
  unfold reduceColl
  dsimp only
  split
  · exact h
  · refine ite_formed h ?_
    split
    · split
      · exact h
      · split
        · exact ite_formed (sendAll_formed (setColl_formed (.keep (writeG_accFormed h _ ‹_›)))) (sendColl_formed
            (setColl_formed (.keep (writeG_accFormed h _ ‹_›))))
        · exact collFault_formed h
    · exact collFault_formed h

theorem collPut_formed {s : State} {op : CollOp} {vals : List Word} (h : s.formed) :
    AccFormed (collPut s op vals) :=
  AccFormed.bind (fun _ => .ok (settleWords_formed h (fun _ _ hs => hs)))

theorem commitColl_formed {i : ℕ} {s : State} (h : s.formed) : (commitColl i s).formed := by
  unfold commitColl
  split
  · exact h
  · split
    · exact endColl_formed h
    · exact h
    · refine ite_formed h ?_
      split
      · exact endColl_formed (ite_formed (sendAll_formed (collPut_formed h _ ‹_›)) (collPut_formed h _ ‹_›))
      · exact ite_formed (setColl_formed (sendAll_formed h)) (collFault_formed h)

theorem execCollectiveSum_formed {i : ℕ} {s : State} (h : s.formed) : OutFormed (execCollectiveSum i s) :=
  .next (reduceColl_formed h)

theorem execCollectiveMin_formed {i : ℕ} {s : State} (h : s.formed) : OutFormed (execCollectiveMin i s) :=
  .next (reduceColl_formed h)

theorem execCollectiveMax_formed {i : ℕ} {s : State} (h : s.formed) : OutFormed (execCollectiveMax i s) :=
  .next (reduceColl_formed h)

theorem execCollectiveCommit_formed {i : ℕ} {s : State} (h : s.formed) : OutFormed (execCollectiveCommit i s) :=
  .next (commitColl_formed h)

theorem receiveColl_formed {i rank : ℕ} {msg : CollMsg} {s : State} (h : s.formed) :
    (receiveColl i rank msg s).formed := by
  unfold receiveColl
  split
  · exact h
  · refine ite_formed h ?_
    split
    · exact ite_formed (endColl_formed (sendAll_formed h)) (setColl_formed h)
    · exact ite_formed h (sendColl_formed (setColl_formed h))
    · exact setColl_formed h
    · exact setColl_formed h
    · exact endColl_formed h
    · exact ite_formed h (endColl_formed h)

theorem execCollectiveMessage_formed {job : BitVec 32} {cmd : CommandRef} {rank : ℕ} {msg : CollMsg} {s : State}
    (h : s.formed) : OutFormed (execCollectiveMessage job cmd rank msg s) := by
  unfold execCollectiveMessage
  split
  · exact .next h
  · split
    · exact .next (receiveColl_formed h)
    · exact .ite (.next h) (.next (.keep h))

theorem execCollectiveTimeout_formed {i : ℕ} {wait : CollWait} {s : State} (h : s.formed) :
    OutFormed (execCollectiveTimeout i wait s) := by
  unfold execCollectiveTimeout
  split
  · exact .next h
  · exact .ite (.next h) (.next (endColl_formed (sendAll_formed h)))

theorem receiveEarly_formed {part comm seq : ℕ} {s : State} (h : s.formed) :
    (receiveEarly part comm seq s).formed := by
  unfold receiveEarly
  refine foldl_formed (.keep h) (fun s x1 hs12 => ?_)
  split
  · exact receiveColl_formed hs12
  · exact hs12

theorem takeCommand_formed {part ring : ℕ} {c : BitVec 512} {s : State} (h : s.formed) :
    (takeCommand part ring c s).formed :=
  ite_formed (endColl_formed (.keep h)) (ite_formed (endColl_formed (.keep (.keep h))) (receiveEarly_formed (.keep
      (.keep h))))

theorem takeCommands_formed {part ring hdr lcap fuel tail : ℕ} {s : State} (h : s.formed) :
    (takeCommands part ring hdr lcap fuel tail s).formed := by
  induction fuel generalizing s with
  | zero => exact h
  | succ fuel ih =>
    unfold takeCommands
    refine ite_formed h ?_
    split
    · exact h
    · exact ih (takeCommand_formed (devWrite_formed _ _ _ _ h))

theorem execCollectiveDoorbell_formed {part ring : ℕ} {s0 : State} (h : s0.formed) :
    OutFormed (execCollectiveDoorbell part ring s0) := by
  unfold execCollectiveDoorbell
  dsimp only
  refine .ite (.next h) ?_
  split
  · exact .next h
  · exact .ite (.next (.keep h)) (.ite (.next (devWrite_formed _ _ _ _ (.keep h))) (.next (takeCommands_formed
      (.keep h))))

end State

end Sys2Proof.Machine
end

section
/-!
PROOFS. Gathering, save areas, traps, faults and pre-emption keep the canonical form of memory (O56).
-/

set_option Elab.async false

namespace Sys2Proof.Machine

open Sys2Proof

namespace State

theorem gatherLane_formed {c : Ctx} {target : Dword} {key : BitVec 16} {lv : ℕ} {call : Bool} {s : State} {t : ℕ}
    (h : s.formed) : (gatherLane c target key lv call s t).formed := by
  unfold gatherLane
  split
  · exact trapLane_formed h
  · split
    · exact h
    · split
      · exact trapLane_formed h
      · exact updCrew_formed (leave_formed (updThread_formed h))

theorem gatherAll_formed {target : ℕ → Dword} {key : ℕ → BitVec 16} {lv : ℕ} {call : Bool} {c : Ctx} {s : State}
    (h : s.formed) : (gatherAll target key lv call c s).formed :=
  eachLane_formed h (fun _ _ hs => gatherLane_formed hs)

theorem writeArea_formed {p : ℕ} {xs : List (ℕ × List Byte)} {a : ℕ} {s : State} (h : s.formed) :
    OptFormed (writeArea p a xs s) := by
  induction xs generalizing s with
  | nil => exact .some h
  | cons x xs ih =>
    unfold writeArea
    split
    case h_1 he => exact ih (writeG_accFormed h _ he)
    · exact .none

theorem fireAt_formed {s : State} {p a : ℕ} (h : s.formed) :
    (fireAt s p a).formed := formed_of_mem h (fireAt_mem _ _ _)

theorem trapReport_formed {p record : ℕ} {s : State} (h : s.formed) : (trapReport p record s).formed :=
  ite_formed (ctxSet_formed _ _ _ _ _ h) (ite_formed (fireAt_formed (performed_formed (ctxSet_formed _ _ _ _ _
      (devWrite_formed _ _ _ _ h)))) (emit_formed (fireAt_formed (performed_formed (ctxSet_formed _ _ _ _ _
      (devWrite_formed _ _ _ _ h))))))

theorem takeArea_formed {cr : Crew} {fuel : ℕ} {s : State} (h : s.formed) : (takeArea cr fuel s).2.formed := by
  induction fuel generalizing s with
  | zero => exact h
  | succ fuel ih =>
    have h1 {a n v : ℕ} {bs : List Byte} : ((s.devWrite cr.part a bs).ctxSet cr.part 100 n v).formed :=
      ctxSet_formed _ _ _ _ _ (devWrite_formed _ _ _ _ h)
    exact ite_snd_formed h (ite_snd_formed h1 (ih (trapReport_formed h1)))

theorem execUnassignedWord_formed {w : BitVec 32} {s : State} (h : s.formed) :
    OutFormed (execUnassignedWord w s) := by
  unfold execUnassignedWord
  split
  · exact .fail (by simp)
  · exact .next (trapAll_formed h)

theorem execTrapHeld_formed {crew lane : ℕ} {s : State} (h : s.formed) : OutFormed (execTrapHeld crew lane s) := by
  unfold execTrapHeld
  split
  · split
    · exact .next h
    · exact .ite (.next h) (.next (trapReport_formed (updThread_formed h)))
  · exact .next h

theorem enterRecord_formed {s : State} {p a : ℕ} {held : BitVec 56} (h : s.formed) :
    (enterRecord s p a held).formed :=
  ite_formed h (devWrite_formed _ _ _ _ (devWrite_formed _ _ _ _ (devWrite_formed _ _ _ _ (devWrite_formed _ _ _ _
      h))))

theorem finishRecord_formed {s : State} {cr : Crew} {lane p a : ℕ} (h : s.formed) :
    (finishRecord s cr lane p a).formed :=
  foldl_formed (devWrite_formed _ _ _ _ (devWrite_formed _ _ _ _ (devWrite_formed _ _ _ _ (devWrite_formed _ _ _ _
      h)))) (fun _ _ hs => devWrite_formed _ _ _ _ hs)

theorem heldAction_formed {crew lane : ℕ} {act : HeldAction} {s : State} (h : s.formed) :
    (heldAction crew lane act s).formed := by
  unfold heldAction
  split
  · exact h
  · exact h
  · exact ite_formed h (.keep h)
  · exact updThread_formed h
  · exact devWrite_formed _ _ _ _ h
  · split
    · exact updThread_formed h
    · exact h
  · exact enterRecord_formed h
  · exact endThread_formed h
  · exact finishRecord_formed h
  · exact removeGrid_formed h

theorem takeActions_formed {crew : ℕ} {s : State} (h : s.formed) : (takeActions crew s).formed :=
  foldl_formed (.keep h) (fun _ _ hs => heldAction_formed hs)

theorem execTrapResume_formed {crew lane : ℕ} {s : State} (h : s.formed) : OutFormed (execTrapResume crew lane s) :=
  .next (heldAction_formed h)

theorem execTrapEnter_formed {crew lane : ℕ} {held : BitVec 56} {s : State} (h : s.formed) :
    OutFormed (execTrapEnter crew lane held s) :=
  .next (heldAction_formed h)

theorem execTrapEnd_formed {crew lane : ℕ} {s : State} (h : s.formed) : OutFormed (execTrapEnd crew lane s) :=
  .next (heldAction_formed h)

theorem execTrapAbort_formed {crew lane : ℕ} {s : State} (h : s.formed) : OutFormed (execTrapAbort crew lane s) :=
  .next (heldAction_formed h)

theorem wakeWaiter_formed {ci : ℕ} {s : State} {key : ℕ} (h : s.formed) : (wakeWaiter ci s key).formed := by
  unfold wakeWaiter
  refine ite_formed ?_ (queueUnit_formed h)
  split
  · exact wakeRetry_formed h
  · exact h

theorem execFaultResolved_formed {core i : ℕ} {s : State} (h : s.formed) :
    OutFormed (execFaultResolved core i s) := by
  unfold execFaultResolved
  split
  · exact .next h
  · split
    · exact .next h
    · split
      · exact .next h
      · exact .ite (.next h) (.next (foldl_formed (updCore_formed h) (fun _ _ hs => wakeWaiter_formed hs)))

theorem refuseThread_formed {ci li cause a : ℕ} {s : State} (h : s.formed) :
    (refuseThread ci li cause a s).formed := by
  unfold refuseThread
  split
  · exact updThread_formed h
  · exact h

theorem refuseRay_formed {ci key cause : ℕ} {s : State} (h : s.formed) : (refuseRay ci key cause s).formed := by
  unfold refuseRay
  split
  · exact h
  · split
    · exact h
    · exact failRay_formed (putStatus_formed h)

theorem refuseEntry_formed {core i : ℕ} {s : State} (h : s.formed) : (refuseEntry core i s).formed := by
  unfold refuseEntry
  split
  · exact h
  · exact ite_formed h (admitAll_formed (foldl_formed (updCore_formed h) (fun _ _ hs => ite_formed
      (refuseThread_formed hs) (refuseRay_formed hs))))

theorem execFaultUnresolvable_formed {unit : FaultUnit} {core i : ℕ} {s : State} (h : s.formed) :
    OutFormed (execFaultUnresolvable unit core i s) := by
  unfold execFaultUnresolvable
  split
  · exact .next (refuseEntry_formed h)
  · split
    · exact .next h
    · exact .ite (.next (updCopy_formed h)) (.next h)
  · exact .next (updCopy_formed h)
  · split
    · exact .next h
    · exact .ite (.next (updEntry_formed h)) (.next h)
  · exact .next (updEntry_formed h)
  · split
    · exact .next h
    · exact .ite (.next h) (.next (setPair_formed h))
  · split
    · exact .next h
    · exact .ite (.next (setReproj_formed h)) (.next h)
  · split
    · exact .next h
    · exact .ite (.next (setColl_formed h)) (.next h)

theorem execWindowAccessApply_formed {crew lane : ℕ} {s : State} (h : s.formed) :
    OutFormed (execWindowAccessApply crew lane s) := by
  unfold execWindowAccessApply
  split
  · exact .next h
  · split
    · refine .ite ?_ ?_
      · split
        · exact .next (wakeRetry_formed (updThread_formed (windowWrite_formed h _ ‹_›)))
        · exact .next (wakeRetry_formed (updThread_formed h))
        · exact .next h
      · split
        · exact .next (wakeRetry_formed (updThread_formed h))
        · exact .next (wakeRetry_formed (updThread_formed h))
        · exact .next h
    · exact .next h

theorem closeBatch_formed {crew : ℕ} {s : State} (h : s.formed) : (closeBatch crew s).formed := updCrew_formed h

theorem execJoinerBatchClose_formed {crew : ℕ} {s : State} (h : s.formed) :
    OutFormed (execJoinerBatchClose crew s) :=
  .next (ite_formed (closeBatch_formed h) h)

theorem moveBatch_formed {ci : ℕ} {b : Batch} {n : ℕ} {s : State} (h : s.formed) : (moveBatch ci b n s).formed :=
  updCrew_formed h

theorem execJoinerMovesComplete_formed {crew : ℕ} {s : State} (h : s.formed) :
    OutFormed (execJoinerMovesComplete crew s) := by
  unfold execJoinerMovesComplete
  split
  · exact .next h
  · split
    · exact .next h
    · exact .ite (.next h) (.next (moveBatch_formed (updCrew_formed h)))

theorem forget_formed {ci li : ℕ} {s : State} (h : s.formed) : (forget ci li s).formed :=
  slotsFreed_formed (admitAll_formed (reprojFreed_formed (updCluster_formed (updCore_formed (.keep h)))))

theorem stopRay_formed {y : Ray} {s : State} (h : s.formed) : (stopRay y s).1.formed := by
  refine ite_fst_formed h ?_
  split
  case h_1 he => exact rayStep_formed h _ he
  all_goals exact h

theorem forgetKey_formed {ci key : ℕ} {s : State} (h : s.formed) : (forgetKey ci key s).formed :=
  admitAll_formed (updCore_formed h)

theorem stopRays_formed {ci li fuel : ℕ} {s : State} (h : s.formed) : (stopRays ci li fuel s).formed := by
  induction fuel generalizing s with
  | zero => exact h
  | succ fuel ih =>
    refine ih ?_
    dsimp only
    split
    · exact h
    case h_2 y _ =>
      have hr : (forgetKey ci y.key (stopRay y s).1).formed := forgetKey_formed (stopRay_formed h)
      refine ite_formed h ?_
      split
      · exact endRay_formed hr
      · exact slotsFreed_formed (setRay_formed (ite_formed (putRecord_formed hr) hr))

theorem saveLane_formed {ci : ℕ} {p : Preempt} {s0 : State} {li : ℕ} (h : s0.formed) :
    (saveLane ci p s0 li).formed := by
  unfold saveLane
  dsimp only
  split
  · split
    · exact wakeMonitor_formed h
    · exact performed_formed (updLane_formed (forget_formed (.keep (stopRays_formed (wakeMonitor_formed h)))))
    · exact performed_formed (updLane_formed (forget_formed (wakeMonitor_formed h)))
    · exact ite_formed (performed_formed (updLane_formed (forget_formed (stopRays_formed (wakeMonitor_formed h)))))
        (stopRays_formed (wakeMonitor_formed h))
  · exact wakeMonitor_formed h

theorem pausePairs_formed {ci fuel : ℕ} {s : State} (h : s.formed) : (pausePairs ci fuel s).formed := by
  induction fuel generalizing s with
  | zero => exact h
  | succ fuel ih =>
    refine ih ?_
    split
    · exact h
    · exact ite_formed h (runPair_formed h)

theorem enterDegraded_formed {s : State} (h : s.formed) : (enterDegraded s).formed :=
  ite_formed (.keep h) (emit_formed (.keep h))

theorem countRetired_formed {s : State} (h : s.formed) : (countRetired s).formed := h

theorem degrade_formed {s : State} (h : s.formed) : (degrade s).formed :=
  countRetired_formed (enterDegraded_formed h)

theorem retireCore_formed {c : ℕ} {s : State} (h : s.formed) : (retireCore c s).formed :=
  ite_formed (countRetired_formed (updCore_formed h)) h

theorem retireCluster_formed {k : ℕ} {s : State} (h : s.formed) : (retireCluster k s).formed :=
  ite_formed (countRetired_formed (updCluster_formed h)) h

theorem retireLeft_formed {core : ℕ} {s : State} (h : s.formed) : (retireLeft core s).formed :=
  retireCluster_formed (retireCore_formed h)

theorem leaveCore_formed {ci : ℕ} {area : Option (BitVec 56)} {s : State} (h : s.formed) :
    (leaveCore ci area s).formed := by
  unfold leaveCore
  extract_lets core s1 s2 s3
  have h2 : s2.formed := ite_formed (updCrew_formed h) (.keep h)
  have h3 : s3.formed := by
    dsimp only [s3]
    split
    · exact h2
    · exact ite_formed h2 (updGang_formed h2)
  exact takeActions_formed (retireLeft_formed h3)

theorem writeCrew_formed {ci : ℕ} {s : State} (h : s.formed) : OptFormed (writeCrew ci s) := by
  unfold writeCrew
  split
  · exact .none
  · split
    · exact .none
    · exact .ite (.some h) (.bind fun _ _ => writeArea_formed h)

theorem writeCrews_formed {cs : List ℕ} {s : State} (h : s.formed) : OptFormed (writeCrews cs s) := by
  induction cs generalizing s with
  | nil => exact .some h
  | cons c cs ih => exact .bind fun _ h1 => ih (writeCrew_formed h _ h1)

/-- A crew leaves its core (`Machine.leave`; `leave_formed` speaks of a thread's group). -/
theorem crewLeave_formed {ci : ℕ} {s : State} (h : s.formed) : (Machine.leave ci s).formed := leaveCore_formed h

theorem finishSave_formed {ci : ℕ} {s : State} (h : s.formed) : (finishSave ci s).formed := by
  refine ite_formed h ?_
  split
  case h_1 he =>
    exact foldl_formed (writeCrews_formed (foldl_formed h fun _ _ hs => applyRegWrites_formed hs) _ he)
      fun _ _ hs => crewLeave_formed hs
  · exact h

theorem savePass_formed {ci : ℕ} {s : State} (h : s.formed) : (savePass ci s).formed := by
  unfold savePass
  split
  · exact h
  · split
    · exact h
    · exact ite_formed h (finishSave_formed (ite_formed (pausePairs_formed (updCrew_formed h)) (foldl_formed
        (pausePairs_formed (updCrew_formed h)) (fun _ _ hs => saveLane_formed hs))))

theorem takeAreas_formed {say : Bool} {s : State} {crews : List ℕ} (h : s.formed) :
    (takeAreas say s crews).formed := by
  unfold takeAreas
  dsimp only
  refine foldl_formed h (fun s x1 hs12 => ?_)
  split
  · exact hs12
  · split
    · exact hs12
    · refine ite_formed hs12 ?_
      split
      · exact updCrew_formed (takeArea_formed hs12)
      · exact ite_formed (trapReport_formed (takeArea_formed hs12)) (takeArea_formed hs12)

theorem unplace_formed {crews : List ℕ} {s : State} (h : s.formed) : (unplace crews s).formed :=
  foldl_formed (.keep h) (fun _ _ hs => ite_formed hs (updGang_formed hs))

theorem startRequest_formed {s : State} {crews : List ℕ} (h : s.formed) : (startRequest s crews).formed :=
  ite_formed (foldl_formed (unplace_formed h) (fun _ _ hs => savePass_formed (updCrew_formed hs))) h

theorem execPreemptRequest_formed {crew : ℕ} {s : State} (h : s.formed) : OutFormed (execPreemptRequest crew s) :=
  .next (startRequest_formed (takeAreas_formed (foldl_formed h (fun _ _ hs => updCrew_formed hs))))

theorem forcePreempt_formed {s : State} {crews : List ℕ} (h : s.formed) : (forcePreempt s crews).formed :=
  foldl_formed (takeAreas_formed (unplace_formed (foldl_formed h (fun _ _ hs => updCrew_formed hs)))) (fun _ _ hs =>
      savePass_formed hs)

theorem execPreemptTimeout_formed {crew : ℕ} {s : State} (h : s.formed) : OutFormed (execPreemptTimeout crew s) :=
  .next (savePass_formed h)

theorem retryAreas_formed {part : ℕ} {s : State} (h : s.formed) : (retryAreas part s).formed :=
  foldl_formed h (fun _ _ hs => startRequest_formed (takeAreas_formed hs))

theorem execSaveAreaSupply_formed {part : ℕ} {addr : BitVec 64} {s : State} (h : s.formed) :
    OutFormed (execSaveAreaSupply part addr s) := by
  unfold execSaveAreaSupply
  split
  · exact .next h
  · exact .next (retryAreas_formed (devWrite_formed _ _ _ _ h))

theorem resumeTrace_formed {ci : ℕ} {s : State} {li : ℕ} (h : s.formed) : (resumeTrace ci s li).formed := by
  unfold resumeTrace
  split
  · dsimp only
    split
    · exact h
    · exact ite_formed h (ite_formed (.keep h) (finishTrace_formed (.keep h)))
  · exact h

theorem retryTrace_formed {ci : ℕ} {s : State} {li : ℕ} (h : s.formed) : (retryTrace ci s li).formed :=
  ite_formed (resumeTrace_formed h) h

theorem reloadRegion_formed {ci : ℕ} {s : State} {w : WRegion} (h : s.formed) : (reloadRegion ci s w).formed := by
  unfold reloadRegion
  split
  · exact h
  · refine ite_formed (updCrew_formed h) ?_
    split
    · exact ite_formed (updCrew_formed h) (updCrew_formed h)
    · exact updCrew_formed h

theorem restoreCrew_formed {s : State} {x : ℕ × List Byte} (h : s.formed) : (restoreCrew s x).formed :=
  updCrew_formed h

theorem resumeThreads_formed {s : State} {ci : ℕ} (h : s.formed) : (resumeThreads s ci).formed :=
  takeActions_formed (foldl_formed h (fun _ _ hs => resumeTrace_formed hs))

theorem execCrewResume_formed {crew : ℕ} {s : State} (h : s.formed) : OutFormed (execCrewResume crew s) := by
  unfold execCrewResume
  refine .ite (.next h) ?_
  split
  · exact .next h
  · exact .ite (.next (removeGrid_formed h)) (.next (foldl_formed (foldl_formed (foldl_formed h (fun _ _ hs =>
      restoreCrew_formed hs)) (fun _ _ hs => reloadRegion_formed hs)) (fun _ _ hs => resumeThreads_formed hs)))

theorem withdrawCore_formed {c : ℕ} {s : State} (h : s.formed) : (withdrawCore c s).formed :=
  ite_formed h (retireCore_formed (forcePreempt_formed (enterDegraded_formed (updCore_formed h))))

theorem withdrawCluster_formed {k : ℕ} {s : State} (h : s.formed) : (withdrawCluster k s).formed :=
  ite_formed h (retireCluster_formed (forcePreempt_formed (enterDegraded_formed (updCluster_formed h))))

theorem dropEntry_formed {k : ℕ} {s : State} {e : MEntry} (h : s.formed) : (dropEntry k s e).formed := by
  unfold dropEntry
  split
  · exact ite_formed (wakeRetry_formed (freeEntry_formed h)) (freeEntry_formed h)
  · exact stampEntry_formed (updCrew_formed h)

theorem execMultiplierMismatch_formed {cluster : ℕ} {s : State} (h : s.formed) :
    OutFormed (execMultiplierMismatch cluster s) :=
  .ite (.next h) (.ite (.next (countRetired_formed (updCluster_formed h))) (.next (withdrawCluster_formed
      (foldl_formed h (fun _ _ hs => dropEntry_formed hs)))))

theorem retire_formed {unit : HwUnit} {s : State} (h : s.formed) : (retire unit s).formed := by
  unfold retire
  split
  · exact withdrawCore_formed h
  · split
    · exact execMultiplierMismatch_formed h _ ‹_›
    · exact h
  · exact withdrawCluster_formed h
  · exact ite_formed h (degrade_formed (.keep h))
  · exact ite_formed h (degrade_formed (.keep h))
  · exact ite_formed h (degrade_formed (.keep h))

theorem retireAtEnd_formed {unit : HwUnit} {s : State} (h : s.formed) : (retireAtEnd unit s).formed := by
  unfold retireAtEnd
  split
  · exact ite_formed (.keep h) (retire_formed h)
  · exact retire_formed h

theorem retireDue_formed {core : ℕ} {s : State} (h : s.formed) : (retireDue core s).formed :=
  foldl_formed (.keep h) (fun _ _ hs => retire_formed hs)

end State

end Sys2Proof.Machine
end

section
/-!
PROOFS. The end of a cycle, the links, the system's events and a fetch keep the canonical form of memory (O56).
-/

set_option Elab.async false

namespace Sys2Proof.Machine

open Sys2Proof

namespace State

theorem commit_formed {n : Bool} {d : Code} {wide pushes : Bool} {f : ℕ → LaneOut} {c : Ctx} {s : State}
    (h : s.formed) : (commit n d wide pushes f c s).formed :=
  updGroup_formed (mapLanes_formed h)

theorem execTstat_formed {b n : Bool} {d a : BitVec 6} {s : State} (h : s.formed) :
    OutFormed (execTstat b n d a s) :=
  frame_formed h fun _ _ hs => commit_formed hs

theorem execPickGroup_formed {core slot : ℕ} {s : State} (h : s.formed) :
    OutFormed (execPickGroup core slot s) := by
  unfold execPickGroup
  dsimp only
  split
  · exact .next h
  · split
    · exact .next h
    · exact .ite (.next h) (.next (updCore_formed (mapLanes_formed h)))

theorem settle_formed {s : State} {ci li : ℕ} (h : s.formed) : (settle s ci li).formed :=
  ite_formed h (updThread_formed h)

theorem execLoadDataArrival_formed {i : ℕ} {s : State} (h : s.formed) : OutFormed (execLoadDataArrival i s) := by
  unfold execLoadDataArrival
  split
  · exact .next h
  · exact .next (settle_formed (.keep h))

theorem execMonitorWake_formed {crew lane : ℕ} {s : State} (h : s.formed) :
    OutFormed (execMonitorWake crew lane s) :=
  .next (wakeMonitor_formed h)

theorem execMailboxWaitMet_formed {crew lane : ℕ} {s : State} (h : s.formed) :
    OutFormed (execMailboxWaitMet crew lane s) := by
  unfold execMailboxWaitMet
  split
  · split
    · exact .next h
    case h_2 he =>
      have h1 := mboxTry_formed h he
      exact .next (wakeCont_formed (ite_formed (performed_formed h1) (updLane_formed h1)))
  · exact .next h

theorem withCrews_formed {s : State} {xs : List Crew} (h : s.formed) : formed { s with crews := xs } := .keep h

theorem execGangBarrierComplete_formed {grid gang bar : ℕ} {s : State} (h : s.formed) :
    OutFormed (execGangBarrierComplete grid gang bar s) := by
  unfold execGangBarrierComplete
  split
  · exact .next h
  · exact .ite (.next (foldl_formed h (fun _ _ hs => wakeBarrier_formed (setBar_formed hs)))) (.next h)

theorem releaseMasks_formed {ci : ℕ} {s : State} (h : s.formed) : (releaseMasks ci s).formed := by
  unfold releaseMasks
  split
  · exact h
  · exact foldl_formed h (fun _ _ hs => ite_formed (foldl_formed hs (fun _ _ hs2 => wakeCont_formed hs2)) hs)

theorem rejoinCycles_formed {ci : ℕ} {s : State} (h : s.formed) : (rejoinCycles ci s).formed := by
  unfold rejoinCycles
  split
  · exact h
  · exact foldl_formed h (fun _ _ hs => ite_formed (foldl_formed hs (fun _ _ hs2 => trapThread_formed hs2)) hs)

theorem completeBarriers_formed {ci : ℕ} {s : State} (h : s.formed) : (completeBarriers ci s).formed := by
  unfold completeBarriers
  dsimp only
  split
  · exact h
  · refine foldl_formed h (fun s x1 hs11 => ?_)
    split
    · exact hs11
    · exact ite_formed hs11 (wakeBarrier_formed (setBar_formed hs11))

theorem settleTiles_formed {ci : ℕ} {s : State} (h : s.formed) : (settleTiles ci s).formed := by
  unfold settleTiles
  split
  · exact h
  · exact foldl_formed h (fun _ _ hs => settleTile_formed hs)

theorem applyWindows_formed {ci : ℕ} {s : State} (h : s.formed) : (applyWindows ci s).formed := by
  unfold applyWindows
  split
  · exact h
  · refine foldl_formed h (fun s x1 hs11 => ?_)
    split
    · exact execWindowAccessApply_formed hs11 _ ‹_›
    · exact hs11

theorem endCycleCrew_formed {s : State} {ci : ℕ} (h : s.formed) : (endCycleCrew s ci).formed :=
  savePass_formed (closeBatch_formed (settleTiles_formed (completeBarriers_formed (rejoinCycles_formed
      (releaseMasks_formed h)))))

theorem numberCrew_formed {core : ℕ} {s : State} {ci : ℕ} (h : s.formed) : (numberCrew core s ci).formed := by
  unfold numberCrew
  split
  · exact h
  · exact foldl_formed h (fun _ _ hs => updCore_formed (updThread_formed hs))

theorem applyAll_formed {core : ℕ} {s : State} (h : s.formed) : (applyAll core s).formed :=
  applyRegWrites_formed (foldl_formed (applyRegWrites_formed h) (fun _ _ hs => applyWindows_formed hs))

theorem retryTraces_formed {s : State} {ci : ℕ} (h : s.formed) : (retryTraces s ci).formed :=
  foldl_formed h (fun _ _ hs => retryTrace_formed hs)

theorem endCycle_formed {core : ℕ} {s : State} (h : s.formed) : (endCycle core s).formed := by
  unfold endCycle
  extract_lets s0 s1 s2 s3 s4
  have h0 : s0.formed := applyAll_formed h
  have h1 : s1.formed := foldl_formed
    (slotsFreed_formed (foldl_formed h0 fun _ _ hs => endCycleCrew_formed hs)) fun _ _ hs => retryTraces_formed hs
  have h2 : s2.formed := retireLeft_formed (releaseOver_formed (retireDue_formed h1))
  have h3 : s3.formed := foldl_formed h2 fun _ _ hs => numberCrew_formed hs
  exact updCore_formed (withCrews_formed h3)

theorem execDoorbell_formed {vf j : ℕ} {v : BitVec 64} {s : State} (h : s.formed) :
    OutFormed (execDoorbell vf j v s) := by
  unfold execDoorbell
  split
  · exact .next h
  · split
    · exact .next h
    · exact .ite (.next (ringQueue_formed h)) (.next h)

theorem execRegw_formed {vf : ℕ} {v : BitVec 64} {s : State} (h : s.formed) : OutFormed (execRegw vf v s) := by
  unfold execRegw
  split
  · exact .next h
  · exact .ite (.next h) (.ite (.next (.keep h)) (.next (.keep h)))

theorem execRegstRead_formed {vf : ℕ} {s : State} (h : s.formed) : OutFormed (execRegstRead vf s) := by
  unfold execRegstRead
  split
  · exact .next h
  · exact .next (emit_formed (.keep h))

theorem execBar0ReservedWrite_formed {_vf _off : ℕ} {v : Option (BitVec 64)} {s : State} (h : s.formed) :
    OutFormed (execBar0ReservedWrite _vf _off v s) := by
  unfold execBar0ReservedWrite
  split
  · exact .next h
  · exact .next (emit_formed h)

theorem reloadIf_formed {f : ℕ → Bool} {s : State} (h : s.formed) : (reloadIf f s).formed := h

theorem reloadContexts_formed {a n : ℕ} {s : State} (h : s.formed) : (reloadContexts a n s).formed :=
  reloadIf_formed h

theorem afterWrite_formed {a n : ℕ} {before s : State} (h : s.formed) : (afterWrite a n before s).formed :=
  foldl_formed (freshTyped_formed _ _ (reloadContexts_formed h)) fun _ _ hs => ringTails_formed hs

theorem execHostDeviceMemoryAccess_formed {_part : ℕ} {addr : BitVec 56} {len : ℕ} {data : Option (List (BitVec 8))}
    {s : State} (h : s.formed) : OutFormed (execHostDeviceMemoryAccess _part addr len data s) := by
  unfold execHostDeviceMemoryAccess
  split
  · exact .ite (.next h) (.ite (.next (emit_formed h)) (.next (emit_formed h)))
  · exact .ite (.next h) (.next (afterWrite_formed (hostStore_formed _ _ _ h)))

theorem agentWrote_formed {part : ℕ} {s : State} (h : s.formed) : (agentWrote part s).formed := performed_formed h

theorem execRemotePayloadReceive_formed {job : BitVec 32} {addr : BitVec 56} {data : Payload} {remc : BitVec 56}
    {s : State} (h : s.formed) : OutFormed (execRemotePayloadReceive job addr data remc s) := by
  unfold execRemotePayloadReceive
  split
  · exact .next h
  case h_2 part _ =>
    refine .ite ?_ ?_
    · split
      · split
        case h_1 he => exact .next (agentWrote_formed (.keep (writeG_accFormed h _ he)))
        · exact .next h
      · exact .next h
    · split
      case h_1 he =>
        have h1 := agentWrote_formed (part := part) (writeG_accFormed h _ he)
        refine .ite (.next (emit_formed h1)) ?_
        split
        · split
          case h_1 hw => exact .next (emit_formed (fireWaiters_formed _ _ _ _ (writeG_accFormed h1 _ hw)))
          · exact .next h
        · exact .next h
      · exact .next h

theorem execPeerRegistration_formed {sender : PeerJob} {msg : BitVec 256} {s : State} (h : s.formed) :
    OutFormed (execPeerRegistration sender msg s) := by
  unfold execPeerRegistration
  split
  · exact .next (emit_formed h)
  · exact .ite (.next (emit_formed h)) (.next (emit_formed (updPart_formed h)))

theorem execPeerWake_formed {job : BitVec 32} {mirror : BitVec 56} {v : BitVec 64} {s : State} (h : s.formed) :
    OutFormed (execPeerWake job mirror v s) := by
  unfold execPeerWake
  split
  · exact .next h
  · split
    · exact .next (fireWaiters_formed _ _ _ _ (writeG_accFormed h _ ‹_›))
    · exact .next h

theorem endCovered_formed {part : Option ℕ} {s : State} {i : ℕ} (h : s.formed) : (endCovered part s i).formed := by
  unfold endCovered
  split
  · exact ite_formed (endColl_formed (sendAll_formed h)) h
  · exact h

theorem execCheckpoint_formed {part : Option ℕ} {tier : BitVec 64} {s : State} (h : s.formed) :
    OutFormed (execCheckpoint part tier s) :=
  .ite (.next (.keep (publish_formed h))) (.next (foldl_formed (foldl_formed (unplace_formed h) (fun _ _ hs =>
      startRequest_formed (takeAreas_formed (foldl_formed hs (fun _ _ hs2 => updCrew_formed hs2))))) (fun _ _ hs =>
      endCovered_formed hs)))

theorem clearCovered_formed {part : Option ℕ} {s : State} (h : s.formed) : (clearCovered part s).formed := h

theorem bringBack_formed {t : Tier} {s : State} (h : s.formed) : (bringBack t s).formed := h

/-- A restoration merges the tier's places into memory and the descriptors (R385), each set in order. -/
theorem execCheckpointRestore_formed {part : Option ℕ} {tier : BitVec 64} {s : State} (h : s.formed) :
    OutFormed (execCheckpointRestore part tier s) := by
  unfold execCheckpointRestore
  split
  · exact .next h
  case h_2 t _ =>
    obtain ⟨hm, hd⟩ := h
    have hd' : (mergeSparse (fun b => coversMem part (64 * b)) s.desc t.desc).wf = true := mergeSparse_wf _ _ _ hd
    exact .ite (.next ⟨hm, hd⟩)
      (.next (bringBack_formed (clearCovered_formed (reloadIf_formed ⟨mergeSparse_wf _ _ _ hm, hd'⟩))))

theorem quench_formed {s : State} (h : s.formed) : (quench s).formed := h

theorem failedStart_formed {cold : Bool} {s : State} (h : s.formed) : (failedStart cold s).formed := h

theorem trains_formed {digest : BitVec 512} {s : State} (h : s.formed) : (trains digest s).formed := h

theorem goodStart_formed {cold : Bool} {setup : StartSetup} {s : State} (h : s.formed) :
    (goodStart cold setup s).formed :=
  ite_formed (emit_formed (freshTyped_formed _ _ (foldl_formed (.keep (quench_formed h)) (fun _ _ hs =>
      hostStore_formed _ _ _ hs)))) (freshTyped_formed _ _ (foldl_formed (.keep (quench_formed h)) (fun _ _ hs =>
      hostStore_formed _ _ _ hs)))

theorem start_formed {cold : Bool} {failedStep : Option ℕ} {setup : StartSetup} {s : State} (h : s.formed) :
    (start cold failedStep setup s).formed := by
  unfold start
  split
  · split
    · exact failedStart_formed (ite_formed h (trains_formed h))
    · exact ite_formed (.keep h) (goodStart_formed (trains_formed h))
  · split
    · exact failedStart_formed (ite_formed h h)
    · exact ite_formed (.keep h) (goodStart_formed h)

theorem execColdStart_formed {failedStep : Option ℕ} {setup : StartSetup} {s : State} (h : s.formed) :
    OutFormed (execColdStart failedStep setup s) :=
  .next (ite_formed (start_formed h) h)

theorem execWarmStart_formed {failedStep : Option ℕ} {intact : Bool} {setup : StartSetup} {s : State}
    (h : s.formed) : OutFormed (execWarmStart failedStep intact setup s) :=
  .next (ite_formed (start_formed h) h)

theorem execStartTimeout_formed {s : State} (h : s.formed) : OutFormed (execStartTimeout s) :=
  .ite (.next (failedStart_formed h)) (.next h)

theorem execReset_formed {s : State} (h : s.formed) : OutFormed (execReset s) :=
  .ite (.next h) (.next (.keep (quench_formed h)))

theorem execRecover_formed {s : State} (h : s.formed) : OutFormed (execRecover s) :=
  .ite (.next (.keep h)) (.next h)

theorem countErrors_formed {unit : HwUnit} {counter : ℕ} {as : List ℕ} {x : State × Bool} (h : x.1.formed) :
    (as.foldl (countError unit counter) x).1.formed := by
  induction as generalizing x with
  | nil => exact h
  | cons a as ih => exact ih (formed.keep h)

theorem execSoftErrorCorrected_formed {unit : HwUnit} {addrs : List ℕ} {counter : ℕ} {s : State} (h : s.formed) :
    OutFormed (execSoftErrorCorrected unit addrs counter s) :=
  .next (ite_formed (retireAtEnd_formed (countErrors_formed h)) (countErrors_formed h))

theorem execUncorrectableError_formed {place : ErrPlace} {s : State} (h : s.formed) :
    OutFormed (execUncorrectableError place s) := by
  unfold execUncorrectableError
  split
  · split
    · exact .next h
    · exact .ite (.next (retireAtEnd_formed (removeGrid_formed h))) (.next h)
  · exact .next (retireAtEnd_formed (.keep h))
  · exact .next (retireAtEnd_formed h)

theorem execAttestationRequest_formed {vf : Option ℕ} {nonce : BitVec 512} {s : State} (h : s.formed) :
    OutFormed (execAttestationRequest vf nonce s) := by
  unfold execAttestationRequest
  split
  · exact .next h
  · exact .next (emit_formed h)

theorem execPowerThermalThrottle_formed {s : State} (h : s.formed) : OutFormed (execPowerThermalThrottle s) :=
  .next (.keep h)

theorem execClockRestore_formed {s : State} (h : s.formed) : OutFormed (execClockRestore s) := .next (.keep h)

theorem execThermalTrip_formed {s : State} (h : s.formed) : OutFormed (execThermalTrip s) :=
  .next (.keep (quench_formed h))

theorem execGridRemoval_formed {grid : ℕ} {s : State} (h : s.formed) : OutFormed (execGridRemoval grid s) :=
  .next (removeGrid_formed h)

theorem leaveAll_formed {c : Ctx} {f : State → ℕ → State} {s : State} (h : s.formed)
    (hf : ∀ s t, s.formed → (f s t).formed) : (leaveAll c f s).formed := clearSlot_formed (eachLane_formed h hf)

theorem fetchFails_formed {α : Type} {c : Ctx} {r : Acc α} {s : State} (h : s.formed) :
    (fetchFails c r s).formed := by
  cases r with
  | trap _ _ => exact leaveAll_formed h fun _ _ hs => failLane_formed hs
  | fault _ _ => exact leaveAll_formed h fun _ _ hs => faultLane_formed hs
  | ok _ | hold | poison => exact leaveAll_formed h fun _ _ hs => poisonLane_formed hs

theorem fetched_formed {c : Ctx} {s : State} (h : s.formed) : (fetched c s).formed :=
  ite_formed h (admitAll_formed (eachLane_formed h (fun _ _ hs => replayed_formed hs)))

theorem atSlot_formed {core slot : ℕ} {s : State} (h : s.formed) : (atSlot core slot s).formed :=
  updCore_formed (ite_formed (endCycle_formed (.keep h)) (.keep h))

end State

end Sys2Proof.Machine
end

section
/-!
PROOFS. Every word, every event and so every step keeps the canonical form of memory and of the block descriptors (O56).
-/

set_option Elab.async false

namespace Sys2Proof.Machine

open Sys2Proof

namespace State

/-- A word executes in a group: without one it is a fault of the machine's. -/
theorem exec_of_no_group {i : Instr} {s : State} (hw : i.isWord = true) (hc : s.ctx? = none) :
    exec i s = .fault .noGroup := by
  by_cases hh : i.isHint = true
  · obtain ⟨bad, put, he⟩ := exec_isHint hh
    rw [he, hintWord, hc]
  · obtain ⟨short, eff, he⟩ := exec_framed i hw (Bool.eq_false_iff.2 hh) s
    rw [he, frameWith, hc]

/-- A word whose effect lies in its lanes (`laneWordsKeepMemory`). -/
theorem laneWord_formed {i : Instr} {s : State} (hi : i.inLanes = true) (hw : i.isWord = true) (h : s.formed) :
    OutFormed (exec i s) := by
  cases hc : s.ctx? with
  | none => rw [exec_of_no_group hw hc]; exact .fail (by simp)
  | some c =>
    intro t ht
    obtain ⟨hm, hd, -⟩ := laneWordsKeepMemory i s t c hi hc ht
    exact h.keep hm hd

theorem isWord_of_inLanes {i : Instr} (hi : i.inLanes = true) : i.isWord = true := by
  cases i with
  | ld | st | ldt | stt | ldd | std | lds | sts | bhdrRd | bhdrWr | pref | tset | tsetClr | tstat | atom | atomFadd
      | atoms | atomsFadd | acq | rel | fence | bind | bindClr | mwait | barArv | barWt | barSyn | gbar | mbput |
      mbtake | xq | xqn | mmissue | accsv | accld | trace | tracep | xpair | tres | tresAcc | tresTerm | reproj |
      fetchw | launch => cases hi
  | _ => exact hi

/-- Every word and every event. -/
theorem exec_formed {i : Instr} {s : State} (h : s.formed) : OutFormed (exec i s) := by
  by_cases hi : i.inLanes = true
  · exact laneWord_formed hi (isWord_of_inLanes hi) h
  · cases i with
    | ld => exact execLd_formed h
    | st => exact execSt_formed h
    | ldt => exact execLdt_formed h
    | stt => exact execStt_formed h
    | ldd => exact execLdd_formed h
    | std => exact execStd_formed h
    | lds => exact execLds_formed h
    | sts => exact execSts_formed h
    | bhdrRd => exact execBhdrRd_formed h
    | bhdrWr => exact execBhdrWr_formed h
    | pref => exact execPref_formed h
    | tset => exact execTset_formed h
    | tsetClr => exact execTsetClr_formed h
    | tstat => exact execTstat_formed h
    | atom => exact execAtom_formed h
    | atomFadd => exact execAtomFadd_formed h
    | atoms => exact execAtoms_formed h
    | atomsFadd => exact execAtomsFadd_formed h
    | acq => exact execAcq_formed h
    | rel => exact execRel_formed h
    | fence => exact execFence_formed h
    | bind => exact execBind_formed h
    | bindClr => exact execBindClr_formed h
    | mwait => exact execMwait_formed h
    | barArv => exact execBarArv_formed h
    | barWt => exact execBarWt_formed h
    | barSyn => exact execBarSyn_formed h
    | gbar => exact execGbar_formed h
    | mbput => exact execMbput_formed h
    | mbtake => exact execMbtake_formed h
    | xq => exact execXq_formed h
    | xqn => exact execXqn_formed h
    | mmissue => exact execMmissue_formed h
    | accsv => exact execAccsv_formed h
    | accld => exact execAccld_formed h
    | trace => exact execTrace_formed h
    | tracep => exact execTracep_formed h
    | xpair => exact execXpair_formed h
    | tres => exact execTres_formed h
    | tresAcc => exact execTresAcc_formed h
    | tresTerm => exact execTresTerm_formed h
    | reproj => exact execReproj_formed h
    | fetchw => exact execFetchw_formed h
    | launch => exact execLaunch_formed h
    | pickGroup => exact execPickGroup_formed h
    | loadDataArrival => exact execLoadDataArrival_formed h
    | faultResolved => exact execFaultResolved_formed h
    | faultUnresolvable => exact execFaultUnresolvable_formed h
    | windowAccessApply => exact execWindowAccessApply_formed h
    | monitorWake => exact execMonitorWake_formed h
    | mailboxWaitMet => exact execMailboxWaitMet_formed h
    | gangBarrierComplete => exact execGangBarrierComplete_formed h
    | joinerBatchClose => exact execJoinerBatchClose_formed h
    | joinerMovesComplete => exact execJoinerMovesComplete_formed h
    | preemptRequest => exact execPreemptRequest_formed h
    | preemptTimeout => exact execPreemptTimeout_formed h
    | crewResume => exact execCrewResume_formed h
    | saveAreaSupply => exact execSaveAreaSupply_formed h
    | trapHeld => exact execTrapHeld_formed h
    | trapResume => exact execTrapResume_formed h
    | trapEnter => exact execTrapEnter_formed h
    | trapEnd => exact execTrapEnd_formed h
    | trapAbort => exact execTrapAbort_formed h
    | copyTake => exact execCopyTake_formed h
    | copyComplete => exact execCopyComplete_formed h
    | matrixMma => exact execMatrixMma_formed h
    | matrixWload => exact execMatrixWload_formed h
    | matrixFin => exact execMatrixFin_formed h
    | matrixClr => exact execMatrixClr_formed h
    | accEntryExecute => exact execAccEntryExecute_formed h
    | matrixPassGrant => exact execMatrixPassGrant_formed h
    | multiplierMismatch => exact execMultiplierMismatch_formed h
    | rayEndOrSuspend => exact execRayEndOrSuspend_formed h
    | rayFaultStop => exact execRayFaultStop_formed h
    | rayReenter => exact execRayReenter_formed h
    | xpairComplete => exact execXpairComplete_formed h
    | reprojOperation => exact execReprojOperation_formed h
    | fetchwWake => exact execFetchwWake_formed h
    | doorbell => exact execDoorbell_formed h
    | regw => exact execRegw_formed h
    | regstRead => exact execRegstRead_formed h
    | bar0ReservedWrite vf off => exact execBar0ReservedWrite_formed (_vf := vf) (_off := off) h
    | queueDescriptorWrite => exact execQueueDescriptorWrite_formed h
    | packetTake => exact execPacketTake_formed h
    | distributeGang die => exact exec_distributeGang die s ▸ execDistributeGang_formed h
    | placeGang => exact execPlaceGang_formed h
    | gridComplete => exact execGridComplete_formed h
    | graphStart => exact execGraphStart_formed h
    | graphNodeStart => exact execGraphNodeStart_formed h
    | graphMatrixNode => exact execGraphMatrixNode_formed h
    | graphNodeComplete => exact execGraphNodeComplete_formed h
    | remotePayloadReceive => exact execRemotePayloadReceive_formed h
    | peerRegistration => exact execPeerRegistration_formed h
    | peerWake => exact execPeerWake_formed h
    | transportFailure => exact execTransportFailure_formed h
    | collectiveDoorbell => exact execCollectiveDoorbell_formed h
    | collectiveSum => exact execCollectiveSum_formed h
    | collectiveMin => exact execCollectiveMin_formed h
    | collectiveMax => exact execCollectiveMax_formed h
    | collectiveMessage => exact execCollectiveMessage_formed h
    | collectiveCommit => exact execCollectiveCommit_formed h
    | collectiveTimeout => exact execCollectiveTimeout_formed h
    | checkpoint => exact execCheckpoint_formed h
    | checkpointRestore => exact execCheckpointRestore_formed h
    | coldStart => exact execColdStart_formed h
    | warmStart => exact execWarmStart_formed h
    | startTimeout => exact execStartTimeout_formed h
    | reset => exact execReset_formed h
    | recover => exact execRecover_formed h
    | softErrorCorrected => exact execSoftErrorCorrected_formed h
    | uncorrectableError => exact execUncorrectableError_formed h
    | attestationRequest => exact execAttestationRequest_formed h
    | powerThermalThrottle => exact execPowerThermalThrottle_formed h
    | clockRestore => exact execClockRestore_formed h
    | thermalTrip => exact execThermalTrip_formed h
    | unassignedWord => exact execUnassignedWord_formed h
    | hostDeviceMemoryAccess part => exact execHostDeviceMemoryAccess_formed (_part := part) h
    | gridRemoval => exact execGridRemoval_formed h
    | _ => exact absurd rfl hi

theorem runDecoded_formed {w : Word} {s : State} (h : s.formed) : OutFormed (runDecoded w s) := by
  unfold runDecoded
  split
  · exact exec_formed h
  · exact execUnassignedWord_formed h

theorem runWord_formed {core slot : ℕ} {s : State} (h : s.formed) : OutFormed (runWord core slot s) := by
  refine .ite (.next h) ?_
  have h1 : (atSlot core slot s).formed := atSlot_formed h
  dsimp only
  split
  · exact .next h1
  · refine .ite (.next (trapAll_formed h1)) ?_
    split
    · exact runDecoded_formed (fetched_formed h1)
    · exact .next (fetchFails_formed h1)

theorem runEvent_formed {i : Instr} {s : State} (h : s.formed) : OutFormed (runEvent i s) := by
  unfold runEvent
  split
  · exact .next h
  · exact .ite (.next h) (exec_formed h)

theorem runTurn_formed {t : Turn} {s : State} (h : s.formed) : OutFormed (runTurn t s) := by
  cases t with
  | word core slot => exact runWord_formed h
  | endCycle core => exact .ite (.next (endCycle_formed h)) (.next h)
  | event i => exact runEvent_formed h

theorem turn_formed {t : Turn} {s : State} (h : s.formed) : OutFormed (turn t s) := by
  refine .ite (runTurn_formed h) fun t' ht => ?_
  obtain ⟨r, hr, rfl⟩ := typedOut_next ht
  exact freshTyped_formed s r (runTurn_formed h _ hr)

theorem step_formed {s : State} (h : s.formed) : OutFormed (step s) := by
  unfold step
  split
  · exact turn_formed (.keep h)
  · split
    · exact turn_formed h
    · exact .next h

end State

end Sys2Proof.Machine

open Sys2Proof Sys2Proof.Machine

/-- Settles O56: the form is kept by every operation that writes memory or descriptors, and so by every word and event
(`exec_formed`), by the fetch and the end of a cycle before it, and by the typing of pages after it (`step_formed`). -/
theorem stepKeepsMemoryForm : Obligations.StepKeepsMemoryForm := fun _ _ h => State.step_formed h _
end

section
/-!
PROOFS. What an access of a lane meets: its crew, its threads and the tables of translation stay as they are while the lanes of a
word have their turns (R102), and no fill of the fault buffer stands for its fault (R205).
-/

namespace Sys2Proof.Machine

open Sys2Proof

/-! ### The threads of every crew stay -/

@[simp] theorem withLanes_self (cr : Crew) : cr.withLanes cr.lanes = cr := rfl
@[simp] theorem withLanes_lanes (cr : Crew) (ls : List Lane) : (cr.withLanes ls).lanes = ls := rfl
@[simp] theorem withLanes_core (cr : Crew) (ls : List Lane) : (cr.withLanes ls).core = cr.core := rfl
@[simp] theorem withLanes_part (cr : Crew) (ls : List Lane) : (cr.withLanes ls).part = cr.part := rfl
@[simp] theorem withLanes_mode (cr : Crew) (ls : List Lane) : (cr.withLanes ls).mode = cr.mode := rfl
@[simp] theorem withLanes_alloc (cr : Crew) (ls : List Lane) : (cr.withLanes ls).alloc = cr.alloc := rfl
@[simp] theorem withLanes_scratch (cr : Crew) (ls : List Lane) : (cr.withLanes ls).scratch = cr.scratch := rfl
@[simp] theorem withLanes_tiles (cr : Crew) (ls : List Lane) : (cr.withLanes ls).tiles = cr.tiles := rfl

/-- Whether lane `t` holds a thread, where the word's crew has its threads in the same lanes. -/
theorem isSome_thread_of_crew {s : State} {c : Ctx} {cr : Crew} (hcr : s.crews[c.ci]? = some cr)
    (hstand : ∀ p : Nat, (cr.lanes[p]?.bind Lane.thread?).isSome = (c.cr.lanes[p]?.bind Lane.thread?).isSome) (t : Nat) :
    (s.thread? c.ci (c.place t)).isSome = (c.lane t).thread?.isSome := by
  rw [State.thread?, State.lane?, hcr, Option.bind_some, hstand, Ctx.lane, Ctx.laneAt, List.getD_eq_getElem?_getD]
  cases c.cr.lanes[c.place t]? <;> rfl

/-- From `s` to `s'` the crews differ in what their lanes hold at most, and the same lanes hold threads. -/
def SameThreads (s s' : State) : Prop :=
  ∀ (ci : Nat) (cr : Crew), s.crews[ci]? = some cr → ∃ ls : List Lane, s'.crews[ci]? = some (cr.withLanes ls) ∧
    ∀ p : Nat, (ls[p]?.bind Lane.thread?).isSome = (cr.lanes[p]?.bind Lane.thread?).isSome

namespace SameThreads

theorem of_crews {s s' : State} (h : s'.crews = s.crews) : SameThreads s s' :=
  fun ci cr hcr => ⟨cr.lanes, by rw [h, hcr, withLanes_self], fun _ => rfl⟩

theorem refl (s : State) : SameThreads s s := of_crews rfl

theorem trans {s s' s'' : State} (h : SameThreads s s') (h' : SameThreads s' s'') : SameThreads s s'' := by
  intro ci cr hcr
  obtain ⟨ls, hls, hstand⟩ := h ci cr hcr
  obtain ⟨ls', hls', hstand'⟩ := h' ci _ hls
  exact ⟨ls', hls', fun p => (hstand' p).trans (hstand p)⟩

/-- A lane written without a change of who holds it. -/
theorem updLane (s : State) (ci li : Nat) (f : Lane → Lane) (hf : ∀ l, (f l).thread?.isSome = l.thread?.isSome) :
    SameThreads s (s.updLane ci li f) := by
  intro cj cr hcr
  by_cases hj : ci = cj
  · subst hj
    refine ⟨cr.lanes.modify li f, by simp [hcr, Crew.withLanes], fun p => ?_⟩
    rw [List.getElem?_modify]
    cases cr.lanes[p]? with
    | none => rfl
    | some l =>
      by_cases hp : li = p
      · simpa [hp] using hf l
      · simp [hp]
  · exact ⟨cr.lanes, by simp [hj, hcr], fun _ => rfl⟩

theorem updThread (s : State) (ci li : Nat) (f : Thread → Thread) : SameThreads s (s.updThread ci li f) :=
  updLane s ci li _ fun l => by rw [thread_updThread, Option.isSome_map]

theorem updGroup (s : State) (a b : Nat) (f : Group → Group) : SameThreads s (s.updGroup a b f) := of_crews rfl

theorem mapLanes (s : State) (ci : Nat) (f : Nat → Lane → Lane) (hf : ∀ p l, (f p l).thread?.isSome = l.thread?.isSome) :
    SameThreads s (s.mapLanes ci f) := by
  intro cj cr hcr
  by_cases hj : ci = cj
  · subst hj
    refine ⟨cr.lanes.mapIdx f, by simp [hcr, Crew.withLanes], fun p => ?_⟩
    rw [List.getElem?_mapIdx]
    cases cr.lanes[p]? with
    | none => rfl
    | some l => exact hf p l
  · exact ⟨cr.lanes, by simp [hj, hcr], fun _ => rfl⟩

/-- A change of the threads that take part in a word. -/
theorem mapTaking (s : State) (c : Ctx) (f : Nat → Thread → Thread) : SameThreads s (s.mapLanes c.ci fun p l =>
    match c.laneOf p with
    | some t => if c.takesPart t then l.updThread (f p) else l
    | none => l) := by
  refine mapLanes s c.ci _ fun p l => ?_
  cases c.laneOf p with
  | none => rfl
  | some u => cases ht : c.takesPart u <;> simp [ht, thread_updThread]

theorem moved (c : Ctx) (last : Bool) (s : State) : SameThreads s (if last then setPcs c s else s) := by
  cases last with
  | false => exact refl s
  | true => exact mapTaking s c fun _ th => { th with pc := c.next }

/-- The end of a word leaves its threads in their lanes. -/
theorem finish (last : Bool) (s : State) : SameThreads s (finish last s) := by
  unfold Machine.finish
  split
  · exact refl s
  · split
    · unfold endRun
      split
      · exact refl s
      · rename_i c _
        exact (mapTaking s c fun p th => { th with run := if s.outstanding c.ci p then .waiting else .waking none }).trans
          (of_crews rfl)
    · split
      · exact of_crews rfl
      · exact of_crews rfl

variable {s s' : State} {c : Ctx}

theorem crew (h : SameThreads s s') (hc : s.crews[c.ci]? = some c.cr) :
    ∃ ls : List Lane, s'.crews[c.ci]? = some (c.cr.withLanes ls) :=
  (h c.ci c.cr hc).imp fun _ h => h.1

/-- Whether lane `t` holds a thread is as the word's context has it. -/
theorem thread (h : SameThreads s s') (hc : s.crews[c.ci]? = some c.cr) (t : Nat) :
    (s'.thread? c.ci (c.place t)).isSome = (c.lane t).thread?.isSome := by
  obtain ⟨ls, hls, hstand⟩ := h c.ci c.cr hc
  exact isSome_thread_of_crew hls hstand t

end SameThreads

/-! ### The fold over the lanes, as far as the lanes of a word go -/

/-- What the turns of lanes 0 to n - 1 keep. -/
theorem metBy_keeps_lt {c : Ctx} {last : Bool} {p : Nat → Bool} {put : Nat → State → State} {s : State} (P : State → Prop)
    {n : Nat} (h0 : P (if last then setPcs c s else s)) (hp : ∀ t < n, p t = true → ∀ s', P s' → P (put t s')) :
    ∀ t ≤ n, P (metBy c last p put s t) := by
  intro t
  induction t with
  | zero => exact fun _ => h0
  | succ t ih =>
    intro ht
    rw [metBy_succ]
    cases h : p t with
    | true => exact hp t (by omega) h _ (ih (by omega))
    | false => exact ih (by omega)

/-- The end of a word changes slots and lanes only. -/
theorem finish_fields (last : Bool) (s : State) : ∃ cores crews, finish last s = { s with cores := cores, crews := crews } := by
  unfold finish endRun
  repeat' split
  all_goals exact ⟨_, _, rfl⟩

theorem moved_fields (c : Ctx) (last : Bool) (s : State) :
    ∃ crews, (if last then setPcs c s else s) = { s with crews := crews } := by
  cases last
  · exact ⟨_, rfl⟩
  · exact ⟨_, rfl⟩

@[simp] theorem finish_mem (last : Bool) (s : State) : (finish last s).mem = s.mem := by
  obtain ⟨_, _, h⟩ := finish_fields last s
  rw [h]

/-! ### Accesses without a fill -/

/-- No entry of the fault buffer of a crew's core is filled. -/
structure Unfilled (s : State) (c : Ctx) : Prop where
  crew : ∃ ls : List Lane, s.crews[c.ci]? = some (c.cr.withLanes ls)
  faults : ∀ e ∈ (s.core c.cr.core).faults, e.fill = none

theorem Unfilled.of_no_faults {s : State} {c : Ctx} (hc : s.crews[c.ci]? = some c.cr) (hf : (s.core c.cr.core).faults = []) :
    Unfilled s c := ⟨⟨c.cr.lanes, hc⟩, by simp [hf]⟩

namespace Unfilled

variable {s : State} {c : Ctx}

theorem fillFor (h : Unfilled s c) (p a : Nat) (w : Bool) : s.fillFor c.ci p a w = none := by
  obtain ⟨ls, hls⟩ := h.crew
  have hfind : ((s.core c.cr.core).faults.find? fun e =>
      e.crew == c.ci && e.covers a && e.write == w && e.fill.isSome && e.waiters.any (State.waits p a)) = none := by
    rw [List.find?_eq_none]
    intro e he
    simp [h.faults e he]
  simp only [State.fillFor, hls, withLanes_core, hfind, Option.bind_none]

theorem laneXlat (h : Unfilled s c) (p a : Nat) (q : Ask) : s.laneXlat c.ci p c.cr.part a q = s.xlat c.cr.part a q := by
  rw [State.laneXlat, h.fillFor]

theorem globalPage (h : Unfilled s c) (p : Nat) {a : Nat} (q : Ask) (ha : a < 2 ^ 56) (hw : isWindow a = false) :
    s.globalPage c.ci p a q = s.xlat c.cr.part a q := by
  obtain ⟨ls, hls⟩ := h.crew
  simp only [State.globalPage, hls]
  rw [if_neg (by omega), hw, ← h.laneXlat p a q]
  rfl

theorem load (h : Unfilled s c) (p : Nat) {a : Nat} (n : Nat) (ha : a < 2 ^ 56) (hw : isWindow a = false) :
    s.load c.ci p a n = (s.xlat c.cr.part a {}).bind fun g =>
      if s.poisonedOn (dieOf c.cr.core) g n then .poison else .ok (leNat (s.physRead (dieOf c.cr.core) g n)) := by
  obtain ⟨ls, hls⟩ := h.crew
  simp only [State.load, hls, h.fillFor]
  rw [if_neg (by omega), hw, ← h.laneXlat p a {}]
  rfl

theorem store (h : Unfilled s c) (p : Nat) {a : Nat} (n v : Nat) (ha : a < 2 ^ 56) (hw : isWindow a = false) :
    s.store c.ci p a n v = (s.xlat c.cr.part a { write := true }).bind fun g => .ok (s.physWrite g (leBytes n v)) := by
  obtain ⟨ls, hls⟩ := h.crew
  simp only [State.store, hls]
  rw [if_neg (by omega), hw, ← h.laneXlat p a { write := true }]
  rfl

/-- An address beyond the address space traps with the address cause (R188). -/
theorem load_beyond (h : Unfilled s c) (p : Nat) {a : Nat} (n : Nat) (ha : 2 ^ 56 ≤ a) :
    s.load c.ci p a n = .trap (.fault 0) (a % 2 ^ 56) := by
  obtain ⟨ls, hls⟩ := h.crew
  simp only [State.load, hls]
  exact if_pos ha

theorem store_beyond (h : Unfilled s c) (p : Nat) {a : Nat} (n v : Nat) (ha : 2 ^ 56 ≤ a) :
    s.store c.ci p a n v = .trap (.fault 0) (a % 2 ^ 56) := by
  obtain ⟨ls, hls⟩ := h.crew
  simp only [State.store, hls]
  exact if_pos ha

theorem partBytes (h : Unfilled s c) (p a n : Nat) (g : Page) : s.partBytes c.ci p a n g =
    if s.poisonedOn (dieOf c.cr.core) g n then .poison else .ok (s.physRead (dieOf c.cr.core) g n) := by
  obtain ⟨ls, hls⟩ := h.crew
  simp only [State.partBytes, h.fillFor, hls]
  rfl

theorem partDesc (h : Unfilled s c) (p a : Nat) (g : Page) : s.partDesc c.ci p a g = s.descAt g := by
  rw [State.partDesc, h.fillFor]

/-- Without Plumb an access tests and records nothing (R235). -/
theorem plumbLane (h : Unfilled s c) (hm : bitsOf c.cr.mode 4 3 = 0) (p a scope kind : Nat) (sync write : Bool)
    (pc : BitVec 56) : s.plumbLane c.ci p a scope kind sync write pc = (s, false) := by
  obtain ⟨ls, hls⟩ := h.crew
  rw [State.plumbLane]
  split
  · split
    · rfl
    · rw [State.plumbAccess, hls]
      exact if_pos hm
  · rfl

theorem plumbAll (h : Unfilled s c) (hm : bitsOf c.cr.mode 4 3 = 0) (p kind : Nat) (sync write : Bool) (as : List Nat) :
    plumbAll c p kind sync write as s = (s, false) := by
  rw [Machine.plumbAll]
  induction as with
  | nil => rfl
  | cons a as ih => simp [State.plumbEach, h.plumbLane hm, ih]

end Unfilled

/-! ### Accesses of a crew whose core has an empty fault buffer -/

/-- The crew's core has an empty fault buffer, and Plumb is off. -/
structure Calm (s : State) (c : Ctx) : Prop where
  crew : ∃ ls : List Lane, s.crews[c.ci]? = some (c.cr.withLanes ls)
  faults : (s.core c.cr.core).faults = []
  watch : bitsOf c.cr.mode 4 3 = 0

namespace Calm

variable {s s' : State} {c : Ctx}

theorem unfilled (h : Calm s c) : Unfilled s c := ⟨h.crew, by simp [h.faults]⟩

theorem leaveFilled (h : Calm s c) (p : FaultEntry → FaultWaiter → Bool) : s.leaveFilled c.ci p = s := by
  obtain ⟨ls, hls⟩ := h.crew
  simp only [State.leaveFilled, hls, withLanes_core, h.faults, List.isEmpty_nil, if_true]

theorem replayed (h : Calm s c) (p a : Nat) : s.replayed c.ci p a = s := h.leaveFilled _

theorem abandoned (h : Calm s c) (p : Nat) : s.abandoned c.ci p = s := h.leaveFilled _

theorem replays (h : Calm s c) (p : Nat) (as : List Nat) : as.foldl (fun s b => s.replayed c.ci p b) s = s := by
  induction as with
  | nil => rfl
  | cons a as ih => rw [List.foldl_cons, h.replayed, ih]

/-- What a plain load delivers: a result on its way. -/
theorem deliver (h : Calm s c) {a : Nat} (hw : isWindow a = false) (t : Nat) (ws : List (Nat × Reg)) (blocks : List Nat) :
    deliver c t a ws blocks s = s.arrive ⟨c.ci, c.place t, ws, 0, s.wordId c, blocks⟩ := by
  simp [Machine.deliver, loaded, h.replayed, State.consumeHeld, hw]

end Calm

/-- The crew of a word whose accesses are plain, in a state that has its threads and its cores' fault buffers. -/
theorem PlainAccess.calm {s s' : State} {c : Ctx} (h : PlainAccess s c) (hc : s.crews[c.ci]? = some c.cr) (ht : SameThreads s s')
    (hf : (s'.core c.cr.core).faults = (s.core c.cr.core).faults) : Calm s' c :=
  ⟨ht.crew hc, hf.trans h.faults, h.watch⟩

end Sys2Proof.Machine
end

section
/-!
PROOFS. Loads of plain words (R199, R207-R209).
-/

namespace Sys2Proof.Machine

open Sys2Proof

theorem exec_ld (b : Bool) (d a x : BitVec 6) (w : BitVec 3) (s : State) : exec (.ld b d a x w) s = execLd b d a x w s := rfl
theorem exec_lds (b : Bool) (d a x : BitVec 6) (w : BitVec 3) (s : State) : exec (.lds b d a x w) s = execLds b d a x w s := rfl

/-! ### What the lanes of a load leave for those after them -/

/-- From `s` to `s'` lanes may have changed, but not who holds them, and results may be on their way. -/
structure Loading (s s' : State) : Prop where
  threads : SameThreads s s'
  rest : ∃ crews arrivals, s' = { s with crews := crews, arrivals := arrivals }

namespace Loading

variable {s s' : State}

theorem moved (c : Ctx) (last : Bool) (s : State) : Loading s (if last then setPcs c s else s) := by
  obtain ⟨crews, h⟩ := moved_fields c last s
  exact ⟨.moved c last s, crews, s.arrivals, h⟩

theorem arrive (h : Loading s s') (a : Arrival) : Loading s (s'.arrive a) := by
  obtain ⟨ht, crews, arrivals, rfl⟩ := h
  exact ⟨ht.trans (.of_crews rfl), _, _, rfl⟩

theorem setFlags (h : Loading s s') (ci li : Nat) (f : BitVec 6) : Loading s (s'.setFlags ci li f) := by
  obtain ⟨ht, crews, arrivals, rfl⟩ := h
  exact ⟨ht.trans (.updThread _ ci li _), _, _, rfl⟩

theorem mem (h : Loading s s') : s'.mem = s.mem := by
  obtain ⟨-, _, _, rfl⟩ := h
  rfl

theorem desc (h : Loading s s') : s'.desc = s.desc := by
  obtain ⟨-, _, _, rfl⟩ := h
  rfl

theorem core (h : Loading s s') (k : Nat) : s'.core k = s.core k := by
  obtain ⟨-, _, _, rfl⟩ := h
  rfl

theorem xlat (h : Loading s s') (p va : Nat) (q : Ask) : s'.xlat p va q = s.xlat p va q := by
  obtain ⟨-, _, _, rfl⟩ := h
  rfl

theorem poisonedOn (h : Loading s s') (k : Nat) (g : Page) (n : Nat) : s'.poisonedOn k g n = s.poisonedOn k g n := by
  obtain ⟨-, _, _, rfl⟩ := h
  rfl

theorem physRead (h : Loading s s') (k : Nat) (g : Page) (n : Nat) : s'.physRead k g n = s.physRead k g n := by
  obtain ⟨-, _, _, rfl⟩ := h
  rfl

theorem descAt (h : Loading s s') (g : Page) : s'.descAt g = s.descAt g := by
  obtain ⟨-, _, _, rfl⟩ := h
  rfl

theorem reaches (h : Loading s s') {c : Ctx} {a n : Nat} {q : Ask} {g : Page} (hr : reaches s c a n q g) :
    reaches s' c a n q g := by
  obtain ⟨hal, hlt, hw, hx⟩ := hr
  exact ⟨hal, hlt, hw, (h.xlat c.cr.part a q).trans hx⟩

theorem calm (h : Loading s s') {c : Ctx} (hp : PlainAccess s c) (hc : s.crews[c.ci]? = some c.cr) : Calm s' c :=
  hp.calm hc h.threads (by rw [h.core])

theorem sameDevice (h : Loading s s') (last : Bool) : sameDevice s (finish last s') := by
  obtain ⟨-, crews, arrivals, rfl⟩ := h
  obtain ⟨cores, crews', hf⟩ := finish_fields last { s with crews := crews, arrivals := arrivals }
  rw [hf]
  simp [Machine.sameDevice]

/-- The lanes of a word that load. -/
theorem met {c : Ctx} {last : Bool} {p : Nat → Bool} {put : Nat → State → State}
    (hput : ∀ t s', Loading s s' → Loading s (put t s')) (t : Nat) : Loading s (metBy c last p put s t) :=
  metBy_keeps (Loading s) (moved c last s) (fun t s' _ h => hput t s' h) t

end Loading

/-! ### LD -/

theorem Acc.bind_ok {α β : Type} (x : α) (f : α → Acc β) : (Acc.ok x).bind f = f x := rfl

/-- LD in a lane whose address a page admits: its word is on its way. -/
theorem loadLane_of_reaches {s : State} {c : Ctx} {d : Code} {w : BitVec 3} {addr : Nat → Nat} {blocks : Nat → List Nat} {t : Nat}
    {g : Page} (h : Calm s c) (hr : reaches s c (addr t) (widthBytes w) {} g)
    (hp : s.poisonedOn (dieOf c.cr.core) g (widthBytes w) = false) :
    loadLane c d w addr blocks s t = s.arrive ⟨c.ci, c.place t, plainRegs c.t d.toNat (ldRegs w)
      (extend w (leNat (s.physRead (dieOf c.cr.core) g (widthBytes w)))), 0, s.wordId c, blocks t⟩ := by
  obtain ⟨hal, hlt, hw, hx⟩ := hr
  have hload : s.load c.ci (c.place t) (addr t) (widthBytes w) =
      .ok (leNat (s.physRead (dieOf c.cr.core) g (widthBytes w))) := by
    rw [h.unfilled.load _ _ hlt hw, hx, Acc.bind_ok, hp]
    rfl
  rw [loadLane]
  split
  · simp [hal, hload, loaded, hw]
  · simp [hal, hload, afterAcc, h.unfilled.plumbLane h.watch, h.deliver hw]

theorem exec_ld_of_reaches {b : Bool} {d a x : BitVec 6} {w : BitVec 3} {s : State} {c : Ctx} {g : Nat → Page}
    {put : Nat → State → State} (h : WordReady (.ld b d a x w) s c) (hp : PlainAccess s c)
    (hshort : poolShort s c (fun t => oneBlock (c.ea t a x)) = false)
    (hput : ∀ t s', put t s' = s'.arrive ⟨c.ci, c.place t, plainRegs c.t d.toNat (ldRegs w)
      (extend w (leNat (s'.physRead (dieOf c.cr.core) (g t) (widthBytes w)))), 0, s'.wordId c, oneBlock (c.ea t a x)⟩)
    (hr : ∀ t < 16, c.exec t = true → reaches (metBy c b c.exec put s t) c (c.ea t a x) (widthBytes w) {} (g t) ∧
      s.poisonedOn (dieOf c.cr.core) (g t) (widthBytes w) = false) :
    exec (.ld b d a x w) s = .next (byLanes c b c.exec put s) ∧ ∀ n, Loading s (metBy c b c.exec put s n) := by
  have hmet : ∀ n, Loading s (metBy c b c.exec put s n) := Loading.met fun t s' hl => by
    rw [hput]
    exact hl.arrive _
  rw [exec_ld, execLd, memWord]
  refine ⟨frameWith_lanes h.here h.checks h.flows hshort (fun t ht hq => ?_) fun _ h => h, hmet⟩
  obtain ⟨hreach, hpois⟩ := hr t ht hq
  rw [if_pos hq, hput]
  exact loadLane_of_reaches ((hmet t).calm hp (ctx_some h.here).2.2.1) hreach (((hmet t).poisonedOn _ _ _).trans hpois)

/-! ### LDS -/

/-- LDS in a lane whose word lies in the scratchpad. -/
theorem ldsLane_of_inside {s : State} {c : Ctx} {d : Code} {w : BitVec 3} {addr : Nat → Nat} {t : Nat}
    (hc : ∃ ls : List Lane, s.crews[c.ci]? = some (c.cr.withLanes ls)) (hal : addr t % widthBytes w = 0)
    (hin : addr t + widthBytes w ≤ c.cr.alloc) :
    ldsLane c d w addr s t = s.arrive ⟨c.ci, c.place t,
      plainRegs c.t d.toNat (ldRegs w) (extend w (c.cr.scratch.nat (addr t) (widthBytes w))), 0, 0, []⟩ := by
  obtain ⟨ls, hls⟩ := hc
  have hout : ¬ c.cr.alloc < addr t + widthBytes w := by omega
  simp only [ldsLane, hls, withLanes_alloc, withLanes_scratch]
  split <;> simp [hal, hin, hout]

theorem exec_lds_of_inside {b : Bool} {d a x : BitVec 6} {w : BitVec 3} {s : State} {c : Ctx}
    {put : Nat → State → State} (h : WordReady (.lds b d a x w) s c)
    (hput : ∀ t s', put t s' = s'.arrive ⟨c.ci, c.place t,
      plainRegs c.t d.toNat (ldRegs w) (extend w (c.cr.scratch.nat (c.soff t a x) (widthBytes w))), 0, 0, []⟩)
    (hin : ∀ t < 16, c.exec t = true → c.soff t a x % widthBytes w = 0 ∧ c.soff t a x + widthBytes w ≤ c.cr.alloc) :
    exec (.lds b d a x w) s = .next (byLanes c b c.exec put s) ∧ ∀ n, Loading s (metBy c b c.exec put s n) := by
  have hmet : ∀ n, Loading s (metBy c b c.exec put s n) := Loading.met fun t s' hl => by
    rw [hput]
    exact hl.arrive _
  rw [exec_lds, execLds, frame]
  refine ⟨frameWith_lanes h.here h.checks h.flows rfl (fun t ht hq => ?_) fun _ h => h, hmet⟩
  obtain ⟨hal, hle⟩ := hin t ht hq
  rw [if_pos hq, hput]
  exact ldsLane_of_inside ((hmet t).threads.crew (ctx_some h.here).2.2.1) hal hle

/-! ### Sign extension (R207) -/

/-- Bits 31 down of a narrow word: those above its sign repeat it. -/
theorem toNat_signExtend_narrow {n : Nat} (hn : n ≤ 32) {x : Nat} (h : x < 2 ^ n) :
    ((BitVec.ofNat n x).signExtend 32).toNat = if x < 2 ^ (n - 1) then x else x + (2 ^ 32 - 2 ^ n) := by
  have hmsb : (BitVec.ofNat n x).msb = decide (2 ^ (n - 1) ≤ x) := by
    rw [BitVec.msb_eq_decide, BitVec.toNat_ofNat, Nat.mod_eq_of_lt h]
  have hpow : 2 ^ n ≤ 2 ^ 32 := Nat.pow_le_pow_right (by omega) hn
  rw [BitVec.toNat_signExtend, hmsb, BitVec.toNat_setWidth, BitVec.toNat_ofNat, Nat.mod_eq_of_lt h,
    Nat.mod_eq_of_lt (by omega)]
  by_cases hx : x < 2 ^ (n - 1)
  · simp [hx, Nat.not_le.mpr hx]
  · simp [hx, Nat.le_of_not_lt hx]

end Sys2Proof.Machine

open Sys2Proof Sys2Proof.Machine

/-- Settles O19: each lane's turn leaves its word on its way, whoever holds the lane, and changes nothing that a later lane's
access reads. -/
theorem loads : Obligations.Loads := by
  unfold Obligations.Loads
  refine ⟨fun b d a x w s c g h hp hshort hr => ?ld, fun b d a x w s c h hin => ?lds, fun x hx => ⟨rfl, ?byte⟩,
    fun x hx => ⟨rfl, ?half⟩⟩
  case ld =>
    obtain ⟨hex, hmet⟩ := exec_ld_of_reaches h hp hshort (fun _ _ => rfl) hr
    exact ⟨hex, (finish_mem b _).trans (hmet 16).mem, (hmet 16).sameDevice b⟩
  case lds =>
    obtain ⟨hex, hmet⟩ := exec_lds_of_inside h (fun _ _ => rfl) hin
    exact ⟨hex, (finish_mem b _).trans (hmet 16).mem, (hmet 16).sameDevice b⟩
  case byte => exact toNat_signExtend_narrow (by decide) hx
  case half => exact toNat_signExtend_narrow (by decide) hx
end

section
/-!
PROOFS. Dual and typed loads, and the descriptor of a block (R61-R64, R191, R193, R210-R214).
-/

namespace Sys2Proof.Machine

open Sys2Proof
open Sys2Proof.Num (XR Elt eltOf fp32 fp64 decodeF isSNaN roundX toInteger)

theorem exec_ldd (b : Bool) (d a x : BitVec 6) (f : BitVec 1) (s : State) : exec (.ldd b d a x f) s = execLdd b d a x f s := rfl
theorem exec_ldt (b : Bool) (d a x : BitVec 6) (u : BitVec 1) (ty : BitVec 2) (s : State) :
    exec (.ldt b d a x u ty) s = execLdt b d a x u ty s := rfl
theorem exec_bhdrRd (b : Bool) (d a : BitVec 6) (s : State) : exec (.bhdrRd b d a) s = execBhdrRd b d a s := rfl

/-! ### The parts of an access, one after another -/

section
variable {s : State} {c : Ctx} {p : Nat} {q : Ask} {bad : Nat → Page → Option Trap}

theorem globalPages_cons {a : Nat} {as : List Nat} {g : Page} {gs : List Page} (hg : s.globalPage c.ci p a q = .ok g)
    (hb : bad a g = none) (hgs : s.globalPages c.ci p q bad as = .ok gs) :
    s.globalPages c.ci p q bad (a :: as) = .ok (g :: gs) := by
  simp only [State.globalPages, hg, Acc.bind_ok, hb, hgs]

theorem globalPages_map {ι : Type} (l : List ι) {adr : ι → Nat} {pg : ι → Page}
    (h : ∀ k ∈ l, s.globalPage c.ci p (adr k) q = .ok (pg k) ∧ bad (adr k) (pg k) = none) :
    s.globalPages c.ci p q bad (l.map adr) = .ok (l.map pg) := by
  induction l with
  | nil => rfl
  | cons k l ih =>
    obtain ⟨hg, hb⟩ := h k (by simp)
    exact globalPages_cons hg hb (ih fun j hj => h j (by simp [hj]))

/-- The first part that fails decides (R210). -/
theorem globalPages_bad {a : Nat} {as : List Nat} {g : Page} {tr : Trap} (hg : s.globalPage c.ci p a q = .ok g)
    (hb : bad a g = some tr) : s.globalPages c.ci p q bad (a :: as) = .trap tr a := by
  simp only [State.globalPages, hg, Acc.bind_ok, hb]

theorem partsBytes_map {n : Nat} {f : Nat × Page → List Byte} (l : List (Nat × Page))
    (h : ∀ x ∈ l, s.partBytes c.ci p x.1 n x.2 = .ok (f x)) : s.partsBytes c.ci p n l = .ok (l.map f) := by
  induction l with
  | nil => rfl
  | cons x l ih =>
    simp only [State.partsBytes, h x (by simp), Acc.bind_ok, ih fun y hy => h y (by simp [hy])]
    rfl

variable {elt : Nat → List Byte → Nat → Acc (Nat × Num.Flags)}

theorem ldtRead_go_cons {a : Nat} {as : List Nat} {g : Page} {bs : List Byte} {y : Nat × Num.Flags} {ys : List (Nat × Num.Flags)}
    (hg : s.globalPage c.ci p a {} = .ok g) (hb : s.partBytes c.ci p a 64 g = .ok bs)
    (he : elt (s.partDesc c.ci p a g).toNat bs a = .ok y) (hys : ldtRead.go s c p elt as = .ok ys) :
    ldtRead.go s c p elt (a :: as) = .ok (y :: ys) := by
  simp only [ldtRead.go, hg, Acc.bind_ok, hb, he, hys]

theorem ldtRead_go_map {ι : Type} (l : List ι) {adr : ι → Nat} {pg : ι → Page} {bs : ι → List Byte} {y : ι → Nat × Num.Flags}
    (h : ∀ k ∈ l, s.globalPage c.ci p (adr k) {} = .ok (pg k) ∧ s.partBytes c.ci p (adr k) 64 (pg k) = .ok (bs k) ∧
      elt (s.partDesc c.ci p (adr k) (pg k)).toNat (bs k) (adr k) = .ok (y k)) :
    ldtRead.go s c p elt (l.map adr) = .ok (l.map y) := by
  induction l with
  | nil => rfl
  | cons k l ih =>
    obtain ⟨hg, hb, he⟩ := h k (by simp)
    exact ldtRead_go_cons hg hb he (ih fun j hj => h j (by simp [hj]))

theorem ldtRead_go_bad {a : Nat} {as : List Nat} {g : Page} {bs : List Byte} {tr : Trap} {x : Nat}
    (hg : s.globalPage c.ci p a {} = .ok g) (hb : s.partBytes c.ci p a 64 g = .ok bs)
    (he : elt (s.partDesc c.ci p a g).toNat bs a = .trap tr x) : ldtRead.go s c p elt (a :: as) = .trap tr x := by
  simp only [ldtRead.go, hg, Acc.bind_ok, hb, he]
  rfl

end

theorem dualParts_of_dual {g : Page} {e dt : Nat} (h : g.dual = some (e, dt)) (a n : Nat) :
    dualParts g a n = a :: (List.range (min n dt)).map fun k => a + (k + 1) * 2 ^ e := by
  rw [dualParts, h]

theorem dualParts_of_plain {g : Page} (h : g.dual = none) (a n : Nat) : dualParts g a n = [a] := by
  rw [dualParts, h]

theorem dualParts_zero (g : Page) (a : Nat) : dualParts g a 0 = [a] := by
  rw [dualParts]
  cases g.dual with
  | none => rfl
  | some x => simp

/-! ### What the lanes of a load leave of these -/

namespace Loading

variable {s s' : State} {c : Ctx}

theorem globalPage (h : Loading s s') (u : Unfilled s c) (u' : Unfilled s' c) (p a : Nat) (q : Ask) :
    s'.globalPage c.ci p a q = s.globalPage c.ci p a q := by
  obtain ⟨ls, hls⟩ := u.crew
  obtain ⟨ls', hls'⟩ := u'.crew
  simp only [State.globalPage, hls, hls', withLanes_part, u.laneXlat, u'.laneXlat, h.xlat]

theorem partDesc (h : Loading s s') (u : Unfilled s c) (u' : Unfilled s' c) (p a : Nat) (g : Page) :
    s'.partDesc c.ci p a g = s.partDesc c.ci p a g := by
  rw [u.partDesc, u'.partDesc, h.descAt]

theorem partBytes (h : Loading s s') (u : Unfilled s c) (u' : Unfilled s' c) (p a n : Nat) (g : Page) :
    s'.partBytes c.ci p a n g = s.partBytes c.ci p a n g := by
  rw [u.partBytes, u'.partBytes, h.poisonedOn, h.physRead]

theorem globalPages (h : Loading s s') (u : Unfilled s c) (u' : Unfilled s' c) (p : Nat) (q : Ask) (as : List Nat) :
    s'.globalPages c.ci p q (notRaw s' c.ci p) as = s.globalPages c.ci p q (notRaw s c.ci p) as := by
  have hraw (a : Nat) (g : Page) : notRaw s' c.ci p a g = notRaw s c.ci p a g := by
    rw [notRaw, notRaw, h.partDesc u u']
  induction as with
  | nil => rfl
  | cons a as ih => simp only [State.globalPages, h.globalPage u u', hraw, ih]

theorem partsBytes (h : Loading s s') (u : Unfilled s c) (u' : Unfilled s' c) (p n : Nat) (l : List (Nat × Page)) :
    s'.partsBytes c.ci p n l = s.partsBytes c.ci p n l := by
  induction l with
  | nil => rfl
  | cons x l ih => simp only [State.partsBytes, h.partBytes u u', ih]

theorem lddParts (h : Loading s s') (u : Unfilled s c) (u' : Unfilled s' c) (p a n : Nat) :
    lddParts s' c p a n = lddParts s c p a n := by
  simp only [Machine.lddParts, h.globalPage u u']

theorem typedParts (h : Loading s s') (u : Unfilled s c) (u' : Unfilled s' c) (p a n : Nat) (dual : Bool) :
    typedParts s' c p a n dual = typedParts s c p a n dual := h.lddParts u u' p a _

theorem lddRead (h : Loading s s') (u : Unfilled s c) (u' : Unfilled s' c) (p : Nat) {a : Nat} (n : Nat)
    (hw : isWindow a = false) : lddRead s' c p a n = lddRead s c p a n := by
  simp only [Machine.lddRead, hw, h.globalPage u u', h.globalPages u u', h.partsBytes u u']
  rfl

theorem ldtRead (h : Loading s s') (u : Unfilled s c) (u' : Unfilled s' c) (p : Nat) {a : Nat} (i : Nat) (dual : Bool)
    (ty : BitVec 2) (hw : isWindow a = false) : ldtRead s' c p a i dual ty = ldtRead s c p a i dual ty := by
  have hgo (elt : Nat → List Byte → Nat → Acc (Nat × Num.Flags)) (as : List Nat) :
      ldtRead.go s' c p elt as = ldtRead.go s c p elt as := by
    induction as with
    | nil => rfl
    | cons a as ih =>
      simp only [ldtRead.go, h.globalPage u u', h.partBytes u u', h.partDesc u u', ih]
  simp only [Machine.ldtRead, hw, h.globalPage u u', hgo]
  rfl

end Loading

/-! ### LDD (R193, R210) -/

/-- LDD in a lane whose parts can all be read. -/
theorem lddLane_of_read {s : State} {c : Ctx} {d : Code} {wide : Bool} {addr : Nat → Nat} {blocks : Nat → List Nat} {t : Nat}
    {xs : List Nat} (h : Calm s c) (hal : addr t % (if wide then 8 else 4) = 0) (hw : isWindow (addr t) = false)
    (hx : lddRead s c (c.place t) (addr t) (if wide then 8 else 4) = .ok xs) :
    lddLane c d wide addr blocks s t = s.arrive ⟨c.ci, c.place t, valRegs d.toNat ⟨wide, BitVec.ofNat 64 (xs.getD 0 0),
      (List.range c.t).map fun k => BitVec.ofNat 64 (xs.getD (k + 1) 0)⟩, 0, s.wordId c, blocks t⟩ := by
  rw [lddLane]
  split
  · simp [hal, hx, loaded, hw]
  · simp [hal, hx, afterAcc, h.unfilled.plumbAll h.watch, h.replays, h.deliver hw]

/-- The parts of LDD, in a state where its crew's accesses meet no fill: those of a dual page are read in order, and the
first part that is not raw decides. -/
theorem lddRead_of_reaches {s : State} {c : Ctx} {a n : Nat} {g : Page} (u : Unfilled s c) (p : Nat) (hr : reaches s c a n {} g) :
    s.globalPage c.ci p a {} = .ok g ∧ lddRead s c p a n =
      (s.globalPages c.ci p {} (notRaw s c.ci p) (dualParts g a c.t)).bind fun gs =>
        (s.partsBytes c.ci p n ((dualParts g a c.t).zip gs)).bind fun bss => .ok (bss.map leNat) := by
  obtain ⟨hal, hlt, hw, hx⟩ := hr
  have hg : s.globalPage c.ci p a {} = .ok g := (u.globalPage p {} hlt hw).trans hx
  refine ⟨hg, ?_⟩
  rw [lddRead, if_neg (by omega), hw, hg]
  rfl

/-- The block of a page is raw: LDD and STD take it (R210). -/
def RawBlock (s : State) (g : Page) : Prop := g.typed = true → (Sparse.get s.desc (g.pa / 64)).toNat % 256 = 0

theorem notRaw_of_raw {s : State} {c : Ctx} {g : Page} (u : Unfilled s c) (p a : Nat) (h : RawBlock s g) :
    notRaw s c.ci p a g = none := by
  rw [notRaw, u.partDesc, State.descAt]
  cases ht : g.typed with
  | true => simp [h ht]
  | false => rfl

theorem notRaw_of_not_raw {s : State} {c : Ctx} {g : Page} (u : Unfilled s c) (p a : Nat) (h : ¬ RawBlock s g) :
    notRaw s c.ci p a g = some (.fault 6) := by
  obtain ⟨ht, hd⟩ := Classical.not_imp.mp h
  rw [notRaw, u.partDesc, State.descAt, if_pos ht, if_pos hd]
  rfl

theorem lddRead_plain {s : State} {c : Ctx} {a n : Nat} {g : Page} (u : Unfilled s c) (p : Nat) (hr : reaches s c a n {} g)
    (hd : g.dual = none) (hraw : RawBlock s g) (hp : s.poisonedOn (dieOf c.cr.core) g n = false) :
    lddRead s c p a n = .ok [leNat (s.physRead (dieOf c.cr.core) g n)] := by
  obtain ⟨hg, hread⟩ := lddRead_of_reaches u p hr
  rw [hread, dualParts_of_plain hd, globalPages_cons hg (notRaw_of_raw u p a hraw) rfl, Acc.bind_ok,
    partsBytes_map (f := fun x => s.physRead (dieOf c.cr.core) x.2 n) _ (by simp [u.partBytes, hp])]
  rfl

theorem lddRead_dual {s : State} {c : Ctx} {a n : Nat} {g : Page} {e dt : Nat} {gs : Nat → Page} (u : Unfilled s c) (p : Nat)
    (hr : reaches s c a n {} g) (hd : g.dual = some (e, dt)) (hraw : RawBlock s g)
    (hp : s.poisonedOn (dieOf c.cr.core) g n = false)
    (htan : ∀ k < min c.t dt, reaches s c (a + (k + 1) * 2 ^ e) n {} (gs k) ∧ RawBlock s (gs k) ∧
      s.poisonedOn (dieOf c.cr.core) (gs k) n = false) :
    lddRead s c p a n = .ok (leNat (s.physRead (dieOf c.cr.core) g n) ::
      (List.range (min c.t dt)).map fun k => leNat (s.physRead (dieOf c.cr.core) (gs k) n)) := by
  obtain ⟨hg, hread⟩ := lddRead_of_reaches u p hr
  have hpages := globalPages_map (List.range (min c.t dt)) (q := {}) (p := p) (bad := notRaw s c.ci p)
    (adr := fun k => a + (k + 1) * 2 ^ e) (pg := gs) (fun k hk => by
      obtain ⟨⟨-, hlt, hw, hx⟩, hrawk, -⟩ := htan k (List.mem_range.mp hk)
      exact ⟨(u.globalPage p {} hlt hw).trans hx, notRaw_of_raw u p _ hrawk⟩)
  rw [hread, dualParts_of_dual hd, globalPages_cons hg (notRaw_of_raw u p a hraw) hpages, Acc.bind_ok,
    partsBytes_map (f := fun x => s.physRead (dieOf c.cr.core) x.2 n)]
  · simp [Acc.bind_ok, List.zip_map', Function.comp_def]
  · intro x hx
    rw [List.zip_cons_cons, List.zip_map', List.mem_cons] at hx
    rcases hx with rfl | hx
    · simp [u.partBytes, hp]
    · obtain ⟨k, hk, rfl⟩ := List.mem_map.mp hx
      simp [u.partBytes, (htan k (List.mem_range.mp hk)).2.2]

theorem lddRead_not_raw {s : State} {c : Ctx} {a n : Nat} {g : Page} (u : Unfilled s c) (p : Nat) (hr : reaches s c a n {} g)
    (hraw : ¬ RawBlock s g) : lddRead s c p a n = .trap (.fault 6) a := by
  obtain ⟨hg, hread⟩ := lddRead_of_reaches u p hr
  obtain ⟨as, has⟩ : ∃ as, dualParts g a c.t = a :: as := ⟨_, rfl⟩
  rw [hread, has, globalPages_bad hg (notRaw_of_not_raw u p a hraw)]
  rfl

/-- A load that brings no tangents leaves them all zero. -/
theorem no_tangents (xs : List Nat) (n i : Nat) (hi : xs.length ≤ i) :
    ((List.range n).map fun k => BitVec.ofNat 64 (xs.getD (k + i) 0)) = List.replicate n 0 := by
  rw [List.eq_replicate_iff]
  refine ⟨by simp, fun x hx => ?_⟩
  obtain ⟨k, -, rfl⟩ := List.mem_map.mp hx
  rw [List.getD_eq_default _ _ (by omega)]
  rfl

theorem exec_ldd_of_read {b : Bool} {d a x : BitVec 6} {f : BitVec 1} {s : State} {c : Ctx} {xs : Nat → List Nat}
    {put : Nat → State → State} (h : WordReady (.ldd b d a x f) s c) (hp : PlainAccess s c)
    (hshort : poolShort s c (fun t => (lddParts s c (c.place t) (c.ea t a x) c.t).map fun y => y / 64) = false)
    (hput : ∀ t s', put t s' = s'.arrive ⟨c.ci, c.place t, valRegs d.toNat ⟨f == 1#1, BitVec.ofNat 64 ((xs t).getD 0 0),
      (List.range c.t).map fun k => BitVec.ofNat 64 ((xs t).getD (k + 1) 0)⟩, 0, s'.wordId c,
      (lddParts s c (c.place t) (c.ea t a x) c.t).map fun y => y / 64⟩)
    (hr : ∀ t < 16, c.exec t = true → c.ea t a x % (if f == 1#1 then 8 else 4) = 0 ∧ isWindow (c.ea t a x) = false ∧
      lddRead s c (c.place t) (c.ea t a x) (if f == 1#1 then 8 else 4) = .ok (xs t)) :
    exec (.ldd b d a x f) s = .next (byLanes c b c.exec put s) ∧ ∀ n, Loading s (metBy c b c.exec put s n) := by
  have hc := (ctx_some h.here).2.2.1
  have hmet : ∀ n, Loading s (metBy c b c.exec put s n) := Loading.met fun t s' hl => by
    rw [hput]
    exact hl.arrive _
  have hu (s' : State) (hl : Loading s s') : Unfilled s' c := (hl.calm hp hc).unfilled
  have u : Unfilled s c := .of_no_faults hc hp.faults
  rw [exec_ldd, execLdd, memWord]
  refine ⟨frameWith_lanes h.here h.checks h.flows hshort (fun t ht hq => ?_) fun _ h => h, hmet⟩
  obtain ⟨hal, hw, hread⟩ := hr t ht hq
  have hmoved := Loading.moved c b s
  rw [if_pos hq, hput, ← hmoved.lddParts u (hu _ hmoved)]
  exact lddLane_of_read ((hmet t).calm hp hc) hal hw (((hmet t).lddRead u (hu _ (hmet t)) _ _ hw).trans hread)

/-! ### BHDR.rd (R191, R214) -/

theorem bhdrRdLane_of_reaches {s : State} {c : Ctx} {d : Code} {addr : Nat → Nat} {blocks : Nat → List Nat} {t : Nat} {g : Page}
    (h : Calm s c) (hr : reaches s c (addr t) 64 {} g) :
    bhdrRdLane c d addr blocks s t = s.arrive ⟨c.ci, c.place t,
      plainRegs c.t d.toNat 1 (if g.typed then (Sparse.get s.desc (g.pa / 64)).toNat else 0), 0, s.wordId c, blocks t⟩ := by
  obtain ⟨hal, hlt, hw, hx⟩ := hr
  have hread : bhdrRead s c (c.place t) (addr t) = .ok (if g.typed then (Sparse.get s.desc (g.pa / 64)).toNat else 0) := by
    rw [bhdrRead, if_neg (by omega), hw, h.unfilled.globalPage _ _ hlt hw, hx, Acc.bind_ok, h.unfilled.partDesc, State.descAt,
      apply_ite BitVec.toNat]
    rfl
  rw [bhdrRdLane]
  split
  · simp [hal, hread, loaded, hw]
  · simp [hal, hread, afterAcc, h.deliver hw]

theorem exec_bhdrRd_of_reaches {b : Bool} {d a : BitVec 6} {s : State} {c : Ctx} {g : Nat → Page} {put : Nat → State → State}
    (h : WordReady (.bhdrRd b d a) s c) (hp : PlainAccess s c)
    (hshort : poolShort s c (fun t => oneBlock (c.prim t .i64 a).toNat) = false)
    (hput : ∀ t s', put t s' = s'.arrive ⟨c.ci, c.place t,
      plainRegs c.t d.toNat 1 (if (g t).typed then (Sparse.get s.desc ((g t).pa / 64)).toNat else 0), 0, s'.wordId c,
      oneBlock (c.prim t .i64 a).toNat⟩)
    (hr : ∀ t < 16, c.exec t = true → reaches s c (c.prim t .i64 a).toNat 64 {} (g t)) :
    exec (.bhdrRd b d a) s = .next (byLanes c b c.exec put s) ∧ ∀ n, Loading s (metBy c b c.exec put s n) := by
  have hc := (ctx_some h.here).2.2.1
  have hmet : ∀ n, Loading s (metBy c b c.exec put s n) := Loading.met fun t s' hl => by
    rw [hput]
    exact hl.arrive _
  rw [exec_bhdrRd, execBhdrRd, memWord]
  refine ⟨frameWith_lanes h.here h.checks h.flows hshort (fun t ht hq => ?_) fun _ h => h, hmet⟩
  rw [if_pos hq, hput, ← (hmet t).desc]
  exact bhdrRdLane_of_reaches ((hmet t).calm hp hc) ((hmet t).reaches (hr t ht hq))

/-! ### LDT (R212) -/

/-- LDT in a lane whose elements can be read: a helper has no flags to raise (R133). -/
theorem ldtLane_of_read {s : State} {c : Ctx} {d : Code} {dual : Bool} {ty : BitVec 2} {addr idx : Nat → Nat}
    {blocks : Nat → List Nat} {t : Nat} {y : Nat × Num.Flags × List Nat} (h : Calm s c) (hal : addr t % 64 = 0)
    (hw : isWindow (addr t) = false) (hx : ldtRead s c (c.place t) (addr t) (idx t) dual ty = .ok y) :
    ldtLane c d dual ty addr idx blocks s t =
      let s1 := s.arrive ⟨c.ci, c.place t, valRegs d.toNat ⟨ty == 1#2, BitVec.ofNat 64 y.1,
        (List.range c.t).map fun k => BitVec.ofNat 64 (y.2.2.getD k 0)⟩, 0, s.wordId c, blocks t⟩
      if (s.thread? c.ci (c.place t)).isSome then s1.setFlags c.ci (c.place t) y.2.1.toBits else s1 := by
  rw [ldtLane]
  cases hth : s.thread? c.ci (c.place t) with
  | none => simp [hal, hx, loaded, hw]
  | some th => simp [hal, hx, afterAcc, h.unfilled.plumbAll h.watch, h.replays, h.deliver hw]

/-- What LDT makes of one element (R212). -/
def eltAcc (i : Nat) (ty : BitVec 2) (mode : Num.Mode) (desc : Nat) (block : List Byte) (b : Nat) : Acc (Nat × Num.Flags) :=
  match eltRead desc block i ty (if ty == 1#2 then fp64 else fp32) mode with
  | .ok x => .ok x
  | .error cause => .trap (.fault cause) b

/-- The element that LDT reads on a page, in a state where its crew's accesses meet no fill. -/
def pageElt (s : State) (c : Ctx) (i : Nat) (ty : BitVec 2) (g : Page) : Except Nat (Nat × Num.Flags) :=
  eltRead (if g.typed then (Sparse.get s.desc (g.pa / 64)).toNat else 0) (s.physRead (dieOf c.cr.core) g 64) i ty
    (if ty == 1#2 then fp64 else fp32) c.mode

theorem ldtRead_of_reaches {s : State} {c : Ctx} {a i : Nat} {dual : Bool} {ty : BitVec 2} {g : Page} (u : Unfilled s c) (p : Nat)
    (hr : reaches s c a 64 {} g) : ldtRead s c p a i dual ty =
      (ldtRead.go s c p (eltAcc i ty c.mode) (dualParts g a (if dual then c.t else 0))).bind fun ys =>
        match ys with
        | [] => .hold
        | y :: r => .ok (y.1, y.2, r.map Prod.fst) := by
  obtain ⟨hal, hlt, hw, hx⟩ := hr
  rw [ldtRead, if_neg (by omega), hw, u.globalPage p {} hlt hw, hx]
  rfl

/-- One part of LDT, where its page admits it and no poison lies in its block. -/
theorem part_of_reaches {s : State} {c : Ctx} {a : Nat} {g : Page} (u : Unfilled s c) (p i : Nat) (ty : BitVec 2)
    (hr : reaches s c a 64 {} g) (hp : s.poisonedOn (dieOf c.cr.core) g 64 = false) :
    s.globalPage c.ci p a {} = .ok g ∧ s.partBytes c.ci p a 64 g = .ok (s.physRead (dieOf c.cr.core) g 64) ∧
      eltAcc i ty c.mode (s.partDesc c.ci p a g).toNat (s.physRead (dieOf c.cr.core) g 64) a =
        match pageElt s c i ty g with
        | .ok x => .ok x
        | .error cause => .trap (.fault cause) a := by
  obtain ⟨hal, hlt, hw, hx⟩ := hr
  refine ⟨(u.globalPage p {} hlt hw).trans hx, by rw [u.partBytes, hp]; rfl, ?_⟩
  rw [eltAcc, u.partDesc, State.descAt, apply_ite BitVec.toNat, pageElt]
  rfl

section
variable {s : State} {c : Ctx} {a i : Nat} {ty : BitVec 2} {g : Page} {r : Nat × Num.Flags}

theorem ldtRead_plain {dual : Bool} (u : Unfilled s c) (p : Nat) (hr : reaches s c a 64 {} g)
    (hp : s.poisonedOn (dieOf c.cr.core) g 64 = false) (he : pageElt s c i ty g = .ok r) (hd : dual = false ∨ g.dual = none) :
    ldtRead s c p a i dual ty = .ok (r.1, r.2, []) := by
  have hparts : dualParts g a (if dual then c.t else 0) = [a] := by
    rcases hd with rfl | hd
    · exact dualParts_zero g a
    · exact dualParts_of_plain hd a _
  obtain ⟨hg, hb, helt⟩ := part_of_reaches u p i ty hr hp
  rw [ldtRead_of_reaches u p hr, hparts, ldtRead_go_cons hg hb (by rw [helt, he]) rfl]
  rfl

theorem ldtRead_dual {e dt : Nat} {gs : Nat → Page} {rs : Nat → Nat × Num.Flags} (u : Unfilled s c) (p : Nat)
    (hr : reaches s c a 64 {} g) (hp : s.poisonedOn (dieOf c.cr.core) g 64 = false) (he : pageElt s c i ty g = .ok r)
    (hd : g.dual = some (e, dt)) (htan : ∀ k < min c.t dt, reaches s c (a + (k + 1) * 2 ^ e) 64 {} (gs k) ∧
      s.poisonedOn (dieOf c.cr.core) (gs k) 64 = false ∧ pageElt s c i ty (gs k) = .ok (rs k)) :
    ldtRead s c p a i true ty = .ok (r.1, r.2, (List.range (min c.t dt)).map fun k => (rs k).1) := by
  obtain ⟨hg, hb, helt⟩ := part_of_reaches u p i ty hr hp
  have hgo := ldtRead_go_map (List.range (min c.t dt)) (p := p) (elt := eltAcc i ty c.mode) (pg := gs) (y := rs)
    (adr := fun k => a + (k + 1) * 2 ^ e) (bs := fun k => s.physRead (dieOf c.cr.core) (gs k) 64) (fun k hk => by
      obtain ⟨hrk, hpk, hek⟩ := htan k (List.mem_range.mp hk)
      obtain ⟨hgk, hbk, heltk⟩ := part_of_reaches u p i ty hrk hpk
      exact ⟨hgk, hbk, by rw [heltk, hek]⟩)
  rw [ldtRead_of_reaches u p hr, if_pos rfl, dualParts_of_dual hd, ldtRead_go_cons hg hb (by rw [helt, he]) hgo]
  simp [Acc.bind_ok]

theorem ldtRead_bad {dual : Bool} {cause : Nat} (u : Unfilled s c) (p : Nat) (hr : reaches s c a 64 {} g)
    (hp : s.poisonedOn (dieOf c.cr.core) g 64 = false) (he : pageElt s c i ty g = .error cause) :
    ldtRead s c p a i dual ty = .trap (.fault cause) a := by
  obtain ⟨hg, hb, helt⟩ := part_of_reaches u p i ty hr hp
  obtain ⟨as, has⟩ : ∃ as, dualParts g a (if dual then c.t else 0) = a :: as := ⟨_, rfl⟩
  rw [ldtRead_of_reaches u p hr, has, ldtRead_go_bad hg hb (by rw [helt, he])]
  rfl

end

theorem exec_ldt_of_read {b : Bool} {d a x : BitVec 6} {u : BitVec 1} {ty : BitVec 2} {s : State} {c : Ctx}
    {y : Nat → Nat × Num.Flags × List Nat} {put : Nat → State → State}
    (h : WordReady (.ldt b d a x u ty) s c) (hp : PlainAccess s c)
    (hshort : poolShort s c (fun t => (typedParts s c (c.place t) (c.prim t .i64 a).toNat c.t (u == 1#1)).map fun z => z / 64) =
      false)
    (hput : ∀ t s', put t s' =
      let s1 := s'.arrive ⟨c.ci, c.place t, valRegs d.toNat ⟨ty == 1#2, BitVec.ofNat 64 (y t).1,
        (List.range c.t).map fun k => BitVec.ofNat 64 ((y t).2.2.getD k 0)⟩, 0, s'.wordId c,
        (typedParts s c (c.place t) (c.prim t .i64 a).toNat c.t (u == 1#1)).map fun z => z / 64⟩
      if (c.lane t).thread?.isSome then s1.setFlags c.ci (c.place t) (y t).2.1.toBits else s1)
    (hr : ∀ t < 16, c.exec t = true → (c.prim t .i64 a).toNat % 64 = 0 ∧ isWindow (c.prim t .i64 a).toNat = false ∧
      ldtRead s c (c.place t) (c.prim t .i64 a).toNat (c.r32 t x).toNat (u == 1#1) ty = .ok (y t)) :
    exec (.ldt b d a x u ty) s = .next (byLanes c b c.exec put s) ∧ ∀ n, Loading s (metBy c b c.exec put s n) := by
  have hc := (ctx_some h.here).2.2.1
  have hmet : ∀ n, Loading s (metBy c b c.exec put s n) := Loading.met fun t s' hl => by
    rw [hput]
    cases (c.lane t).thread?.isSome with
    | true => exact (hl.arrive _).setFlags _ _ _
    | false => exact hl.arrive _
  have hu (s' : State) (hl : Loading s s') : Unfilled s' c := (hl.calm hp hc).unfilled
  have hus : Unfilled s c := .of_no_faults hc hp.faults
  rw [exec_ldt, execLdt, memWord]
  refine ⟨frameWith_lanes h.here h.checks h.flows hshort (fun t ht hq => ?_) fun _ h => h, hmet⟩
  obtain ⟨hal, hw, hread⟩ := hr t ht hq
  have hmoved := Loading.moved c b s
  rw [if_pos hq, hput, ← hmoved.typedParts hus (hu _ hmoved), ← (hmet t).threads.thread hc t]
  exact ldtLane_of_read ((hmet t).calm hp hc) hal hw
    (((hmet t).ldtRead hus (hu _ (hmet t)) _ _ _ _ hw).trans hread)

/-! ### Elements of a block (R61, R62, R64, R212) -/

theorem eltRead_raw {desc : Nat} (h : desc % 256 = 0) (block : List Byte) (i : Nat) (ty : BitVec 2) (F : Num.Fmt)
    (mode : Num.Mode) : eltRead desc block i ty F mode =
      if i < (if ty == 1#2 then 8 else 16) then .ok (leNat block / 2 ^ ((if ty == 1#2 then 64 else 32) * i) %
        2 ^ (if ty == 1#2 then 64 else 32), {})
      else .error 7 := by
  rw [eltRead, Num.descFmt, h]
  cases hty : ty == 1#2 with
  | true => by_cases hi : i < 8 <;> simp [eltOf, Num.eltEnc, hi, causeIndex, Nat.le_of_not_lt]
  | false => by_cases hi : i < 16 <;> simp [eltOf, Num.eltEnc, hi, causeIndex, Nat.le_of_not_lt]

theorem eltRead_reserved {desc : Nat} (h : 0x0A < desc % 256) (block : List Byte) (i : Nat) (ty : BitVec 2) (F : Num.Fmt)
    (mode : Num.Mode) : eltRead desc block i ty F mode = .error 6 := by
  obtain ⟨n, hn⟩ : ∃ n, desc % 256 = n + 11 := ⟨_, (Nat.sub_add_cancel h).symm⟩
  rw [eltRead, Num.descFmt, hn]
  rfl

/-- The scale of a descriptor: a signed byte (R61). -/
theorem descScale_eq (desc : Nat) : Num.descScale desc =
    if desc / 256 % 256 < 128 then ((desc / 256 % 256 : Nat) : Int) else ((desc / 256 % 256 : Nat) : Int) - 256 := by
  have hbit : (desc / 256 % 256).testBit 7 = decide (128 ≤ desc / 256 % 256) := by
    rw [Nat.testBit_eq_decide_div_mod_eq, decide_eq_decide]
    omega
  simp only [Num.descScale, Num.ITy.val, Nat.reducePow, Bool.true_and, Nat.reduceSub, hbit, decide_eq_true_eq]
  by_cases h : desc / 256 % 256 < 128
  · simp [h, Nat.not_le.mpr h]
  · simp [h, Nat.le_of_not_lt h]

theorem scale_eq (s : Int) (x : XR) : x.scale s = match x with
    | .fin n q => .fin n (q * (2 : Rat) ^ s)
    | y => y := by
  cases x <;> simp [XR.scale, Num.pow2_eq_zpow]

/-- The value of an element that is a number (R62). -/
def eltVal (e : Elt) (enc : Nat) : XR :=
  match e with
  | .flt f => decodeF f enc
  | .int t => .ofRat (t.val enc)
  | .raw => .zero

/-- Whether an element is a signalling NaN (R52). -/
def eltSNaN (e : Elt) (enc : Nat) : Bool :=
  match e with
  | .flt f => isSNaN f enc
  | _ => false

theorem value_eq (e : Elt) (enc : Nat) : e.value enc = (eltVal e enc, eltSNaN e enc) := by
  cases e <;> rfl

theorem eltRead_of_elt {desc : Nat} {e : Elt} (he : eltOf (desc % 256) = some e) (hraw : e ≠ .raw) (block : List Byte) (i : Nat)
    (ty : BitVec 2) (F : Num.Fmt) (mode : Num.Mode) : eltRead desc block i ty F mode =
      let enc := leNat block / 2 ^ (e.width * i) % 2 ^ e.width
      let x := (eltVal e enc).scale (Num.descScale desc)
      let r := if ty == 2#2 then toInteger ⟨32, true⟩ mode x else roundX F mode x
      if i < 512 / e.width then .ok (r.1, r.2.or { inv := eltSNaN e enc }) else .error 7 := by
  by_cases hi : i < 512 / e.width
  · rw [eltRead, Num.descFmt, he]
    cases e with
    | raw => exact absurd rfl hraw
    | flt f => simp [hi, Elt.perBlock, value_eq, Num.eltEnc]
    | int t => simp [hi, Elt.perBlock, value_eq, Num.eltEnc]
  · rw [eltRead, Num.descFmt, he]
    cases e with
    | raw => exact absurd rfl hraw
    | flt f => simp [hi, Elt.perBlock, causeIndex, Nat.le_of_not_lt hi]
    | int t => simp [hi, Elt.perBlock, causeIndex, Nat.le_of_not_lt hi]

end Sys2Proof.Machine

open Sys2Proof Sys2Proof.Machine
open Sys2Proof.Num (eltOf fp32 fp64)

/-- Settles O20: each lane's parts are read in the order of the access, and what a load leaves on its way changes nothing that a
later lane reads. -/
theorem dualAndTypedLoads : Obligations.DualAndTypedLoads := by
  unfold Obligations.DualAndTypedLoads
  refine ⟨fun b d a x f s c xs h hp hshort hr => ?ldd, fun s c p a n g hc hf hr => ?lddRead,
    fun b d a x f s c g h hp hshort hr => ?lddPlain, fun b d a s c g h hp hshort hr => ?bhdr,
    fun b d a x u ty s c y h hp hshort hr => ?ldt, fun s c p a i u ty g hc hf hr hp => ?ldtRead,
    fun b d a x ty s c g r h hp hshort hr => ?ldtPlain,
    fun desc block i ty F mode h => eltRead_raw h block i ty F mode,
    fun desc block i ty F mode h => eltRead_reserved h block i ty F mode, fun q hq desc block i ty F mode h => ?elt⟩
  case ldd =>
    obtain ⟨hex, hmet⟩ := exec_ldd_of_read h hp hshort (fun _ _ => rfl) hr
    exact ⟨hex, (finish_mem b _).trans (hmet 16).mem⟩
  case lddRead =>
    have u : Unfilled s c := .of_no_faults hc hf
    exact ⟨fun hd hraw hpois => lddRead_plain u p hr hd hraw hpois,
      fun e dt gs hd hraw hpois htan => lddRead_dual u p hr hd hraw hpois htan, fun hraw => lddRead_not_raw u p hr hraw⟩
  case lddPlain =>
    have u : Unfilled s c := .of_no_faults (ctx_some h.here).2.2.1 hp.faults
    refine (exec_ldd_of_read (xs := fun t => [leNat (s.physRead (dieOf c.cr.core) (g t) (if f == 1#1 then 8 else 4))])
      h hp hshort (fun t s' => ?_) fun t ht hq => ?_).1
    · rw [no_tangents _ _ _ (Nat.le_refl 1)]
      rfl
    · obtain ⟨hreach, hd, hraw, hpois⟩ := hr t ht hq
      exact ⟨hreach.1, hreach.2.2.1, lddRead_plain u _ hreach hd hraw hpois⟩
  case bhdr =>
    obtain ⟨hex, hmet⟩ := exec_bhdrRd_of_reaches h hp hshort (fun _ _ => rfl) hr
    exact ⟨hex, (finish_mem b _).trans (hmet 16).mem⟩
  case ldt =>
    obtain ⟨hex, hmet⟩ := exec_ldt_of_read h hp hshort (fun _ _ => rfl) hr
    exact ⟨hex, (finish_mem b _).trans (hmet 16).mem⟩
  case ldtRead =>
    have u' : Unfilled s c := .of_no_faults hc hf
    exact ⟨fun r he hd => ldtRead_plain u' p hr hp he hd,
      fun r e dt gs rs he hu hd htan => hu ▸ ldtRead_dual u' p hr hp he hd htan,
      fun cause he => ldtRead_bad u' p hr hp he⟩
  case ldtPlain =>
    have u : Unfilled s c := .of_no_faults (ctx_some h.here).2.2.1 hp.faults
    refine (exec_ldt_of_read (y := fun t => ((r t).1, (r t).2, [])) h hp hshort (fun t s' => ?_) fun t ht hq => ?_).1
    · rw [← no_tangents [] c.t 0 (Nat.le_refl 0)]
      rfl
    · obtain ⟨hreach, hpois, he⟩ := hr t ht hq
      exact ⟨hreach.1, hreach.2.2.1, ldtRead_plain u _ hreach hpois he (.inl rfl)⟩
  case elt =>
    have hform : eltOf q.1 = some q.2.2 ∧ q.2.2 ≠ .raw ∧ q.2.2.width = q.2.1 := by
      clear h
      revert q
      decide
    obtain ⟨he, hraw, hw⟩ := hform
    rw [eltRead_of_elt (h ▸ he) hraw, hw]
    simp only [scale_eq, descScale_eq]
    cases q.2.2 <;> rfl
end

section
/-!
PROOFS. Stores of plain words (R192, R199, R207-R209, R380).
-/

namespace Sys2Proof.Machine

open Sys2Proof

theorem exec_st (b : Bool) (d a x : BitVec 6) (w : BitVec 3) (s : State) : exec (.st b d a x w) s = execSt b d a x w s := rfl
theorem exec_sts (b : Bool) (d a x : BitVec 6) (w : BitVec 3) (s : State) : exec (.sts b d a x w) s = execSts b d a x w s := rfl

/-! ### What a store writes -/

theorem physWrite_fields (s : State) (g : Page) (bs : List Byte) : ∃ mem poison monitors,
    s.physWrite g bs = { s with mem := mem, poison := poison, monitors := monitors } := by
  unfold State.physWrite
  split
  · generalize List.range Config.dies = ds
    induction ds generalizing s with
    | nil => exact ⟨_, _, _, rfl⟩
    | cons d ds ih =>
      obtain ⟨_, _, _, h⟩ := ih (s.physStore (g.pa + d * Config.dieStride) bs)
      exact ⟨_, _, _, h⟩
  · exact ⟨_, _, _, rfl⟩

theorem ringWhere_fields (s : State) (p : Nat) (here : Nat → Bool) : ∃ l, s.ringWhere p here = { s with rung := l } := by
  unfold State.ringWhere
  split
  · exact ⟨s.rung, rfl⟩
  · exact ⟨_, rfl⟩

/-- A plain write rings doorbells at most (R380). -/
theorem wrote_fields (s : State) (p scope va n : Nat) : ∃ l, s.wrote p scope va n = { s with rung := l } := by
  unfold State.wrote
  split
  · exact ⟨s.rung, rfl⟩
  · split
    · exact ⟨s.rung, rfl⟩
    · exact ringWhere_fields s p _

theorem wrote_of_narrow (s : State) (p va n : Nat) {scope : Nat} (h : scope < 2) : s.wrote p scope va n = s := by
  simp [State.wrote, h]

/-- A ring that has not rung rings where its TAIL is not the one last seen and its header lies there. -/
theorem mem_ringWhere (s : State) {p r x : Nat} (here : Nat → Bool) (hr : r < min 16 ((s.part p).at 97 1))
    (hx : s.devNat p (s.ringHeader p r) 8 = some x) (hnew : BitVec.ofNat 64 x ≠ Sparse.get s.tails (16 * p + r))
    (hrung : (p, r) ∉ s.rung) : (p, r) ∈ (s.ringWhere p here).rung ↔ here (s.ringHeader p r) = true := by
  have hn : ¬ (s.part p).at 97 1 = 0 := by omega
  rw [State.ringWhere, if_neg hn]
  simp only [List.mem_append, List.mem_map, List.mem_filter, List.mem_range, Bool.and_eq_true, hrung, false_or]
  constructor
  · rintro ⟨k, ⟨-, ⟨-, hhere⟩, -⟩, hk⟩
    obtain rfl : k = r := (Prod.mk.inj hk).2
    exact hhere
  · exact fun hhere => ⟨r, ⟨hr, ⟨by simp [hrung], hhere⟩, by simp [hx, hnew]⟩, rfl⟩

theorem mem_wrote {s : State} {p scope va n pa r h x : Nat} (hs : 2 ≤ scope) (hw : isWindow va = false)
    (hpa : s.devPa p va = some pa) (hr : r < min 16 ((s.part p).at 97 1)) (hh : s.devPa p (s.ringHeader p r) = some h)
    (hx : s.devNat p (s.ringHeader p r) 8 = some x) (hnew : BitVec.ofNat 64 x ≠ Sparse.get s.tails (16 * p + r))
    (hrung : (p, r) ∉ s.rung) : (p, r) ∈ (s.wrote p scope va n).rung ↔ pa < h + 8 ∧ h < pa + n := by
  have hwide : ¬ scope < 2 := by omega
  simp only [State.wrote, hwide, hw, hpa, decide_false, Bool.or_self, Bool.false_eq_true, if_false]
  rw [mem_ringWhere s _ hr hx hnew hrung]
  simp [hh]

/-- A byte that no copy of a page's bytes covers stays (R192). -/
theorem physWrite_byte {s : State} (hf : s.formed) {g : Page} {bs : List Byte} {z : Nat} (hz : ¬ g.covers bs.length z) :
    (s.physWrite g bs).mem.byte z = s.mem.byte z := by
  unfold State.physWrite
  cases hg : g.replicated with
  | false =>
    rw [Page.covers, hg] at hz
    exact Memory.byte_write_outside _ _ _ _ hf.1 (by simp only [Bool.false_eq_true, if_false] at hz; omega)
  | true =>
    have hout : ∀ d ∈ List.range Config.dies,
        z < g.pa + d * Config.dieStride ∨ g.pa + d * Config.dieStride + bs.length ≤ z := by
      intro d hd
      rw [Page.covers, if_pos hg] at hz
      by_contra hc
      exact hz ⟨d, List.mem_range.mp hd, by omega⟩
    simp only [if_true]
    generalize List.range Config.dies = ds at hout
    induction ds generalizing s with
    | nil => rfl
    | cons d ds ih =>
      rw [List.foldl_cons, ih (State.physStore_formed s _ bs hf) fun e he => hout e (by simp [he])]
      exact Memory.byte_write_outside _ _ _ _ hf.1 (hout d (by simp))

theorem wrote_byte (s : State) (p scope va n z : Nat) : (s.wrote p scope va n).mem.byte z = s.mem.byte z := by
  rw [(State.wrote_mem s p scope va n).1]

theorem wrote_formed {s : State} (h : s.formed) (p scope va n : Nat) : (s.wrote p scope va n).formed :=
  State.formed_of_mem h (State.wrote_mem s p scope va n)

/-! ### What the lanes of a store leave for those after them -/

/-- From `s` to `s'` lanes may have changed, but not who holds them, and memory with what stands beside it. -/
structure Storing (s s' : State) : Prop where
  threads : SameThreads s s'
  rest : ∃ crews mem desc poison monitors rung,
    s' = { s with crews := crews, mem := mem, desc := desc, poison := poison, monitors := monitors, rung := rung }

namespace Storing

variable {s s' : State}

theorem moved (c : Ctx) (last : Bool) (s : State) : Storing s (if last then setPcs c s else s) := by
  obtain ⟨crews, h⟩ := moved_fields c last s
  exact ⟨.moved c last s, crews, _, _, _, _, _, h⟩

theorem physWrite (h : Storing s s') (g : Page) (bs : List Byte) : Storing s (s'.physWrite g bs) := by
  obtain ⟨ht, _, _, _, _, _, _, rfl⟩ := h
  obtain ⟨_, _, _, hw⟩ := physWrite_fields _ g bs
  rw [hw]
  exact ⟨ht.trans (.of_crews rfl), _, _, _, _, _, _, rfl⟩

theorem wrote (h : Storing s s') (p scope va n : Nat) : Storing s (s'.wrote p scope va n) := by
  obtain ⟨ht, _, _, _, _, _, _, rfl⟩ := h
  obtain ⟨_, hw⟩ := wrote_fields _ p scope va n
  rw [hw]
  exact ⟨ht.trans (.of_crews rfl), _, _, _, _, _, _, rfl⟩

theorem setDesc (h : Storing s s') (g : Page) (x : BitVec 16) : Storing s (s'.setDesc g x) := by
  obtain ⟨ht, _, _, _, _, _, _, rfl⟩ := h
  exact ⟨ht.trans (.of_crews rfl), _, _, _, _, _, _, rfl⟩

theorem setFlags (h : Storing s s') (ci li : Nat) (f : BitVec 6) : Storing s (s'.setFlags ci li f) := by
  obtain ⟨ht, _, _, _, _, _, _, rfl⟩ := h
  exact ⟨ht.trans (.updThread _ ci li _), _, _, _, _, _, _, rfl⟩

theorem core (h : Storing s s') (k : Nat) : s'.core k = s.core k := by
  obtain ⟨-, _, _, _, _, _, _, rfl⟩ := h
  rfl

theorem calm (h : Storing s s') {c : Ctx} (hp : PlainAccess s c) (hc : s.crews[c.ci]? = some c.cr) : Calm s' c :=
  hp.calm hc h.threads (by rw [h.core])

theorem sameDevice (h : Storing s s') (last : Bool) :
    sameDevice { s with rung := (finish last s').rung } (finish last s') := by
  obtain ⟨-, crews, mem, desc, poison, monitors, rung, rfl⟩ := h
  obtain ⟨cores, crews', hf⟩ := finish_fields last
    { s with crews := crews, mem := mem, desc := desc, poison := poison, monitors := monitors, rung := rung }
  rw [hf]
  simp [Machine.sameDevice]

theorem met {c : Ctx} {last : Bool} {p : Nat → Bool} {put : Nat → State → State}
    (hput : ∀ t s', Storing s s' → Storing s (put t s')) (t : Nat) : Storing s (metBy c last p put s t) :=
  metBy_keeps (Storing s) (moved c last s) (fun t s' _ h => hput t s' h) t

end Storing

theorem Calm.physWrite {s : State} {c : Ctx} (h : Calm s c) (g : Page) (bs : List Byte) : Calm (s.physWrite g bs) c := by
  obtain ⟨_, _, _, hw⟩ := physWrite_fields s g bs
  rw [hw]
  exact ⟨h.crew, h.faults, h.watch⟩

theorem Calm.wrote {s : State} {c : Ctx} (h : Calm s c) (p scope va n : Nat) : Calm (s.wrote p scope va n) c := by
  obtain ⟨_, hw⟩ := wrote_fields s p scope va n
  rw [hw]
  exact ⟨h.crew, h.faults, h.watch⟩

/-- Memory keeps its form, and a byte stays, through the turns of lanes that each keep both. -/
theorem byLanes_byte {c : Ctx} {last : Bool} {p : Nat → Bool} {put : Nat → State → State} {s : State} {z : Nat} (hf : s.formed)
    (hput : ∀ t < 16, p t = true → ∀ s' : State, s'.formed →
      (put t s').formed ∧ (put t s').mem.byte z = s'.mem.byte z) :
    (byLanes c last p put s).mem.byte z = s.mem.byte z := by
  have hmet : (metBy c last p put s 16).formed ∧ (metBy c last p put s 16).mem.byte z = s.mem.byte z := by
    refine metBy_keeps_lt (fun s' => s'.formed ∧ s'.mem.byte z = s.mem.byte z) ?_ (fun t ht hpt s' hs' => ?_) 16 (Nat.le_refl 16)
    · exact ⟨State.formed_of_mem hf ⟨moved_mem c last s, moved_desc c last s⟩, by rw [moved_mem]⟩
    · obtain ⟨hform, hbyte⟩ := hput t ht hpt s' hs'.1
      exact ⟨hform, hbyte.trans hs'.2⟩
  rw [byLanes, finish_mem]
  exact hmet.2

/-! ### ST -/

/-- A helper stores nothing (R28). -/
theorem storeLane_of_helper {s : State} {c : Ctx} {d : Code} {w : BitVec 3} {addr : Nat → Nat} {t : Nat}
    (h : (s.thread? c.ci (c.place t)).isSome = false) : storeLane c d w addr s t = s := by
  rw [storeLane, Option.isSome_eq_false_iff.mp h |> Option.isNone_iff_eq_none.mp]

/-- ST in a lane whose address a page admits. -/
theorem storeLane_of_reaches {s : State} {c : Ctx} {d : Code} {w : BitVec 3} {addr : Nat → Nat} {t : Nat} {g : Page}
    (h : Calm s c) (hth : (s.thread? c.ci (c.place t)).isSome = true)
    (hr : reaches s c (addr t) (widthBytes w) { write := true } g) :
    storeLane c d w addr s t = (s.physWrite g (leBytes (widthBytes w) (storeValue c t d w))).wrote c.cr.part c.scope (addr t)
      (widthBytes w) := by
  obtain ⟨th, hth⟩ := Option.isSome_iff_exists.mp hth
  obtain ⟨hal, hlt, hw, hx⟩ := hr
  have hstore := h.unfilled.store (c.place t) (widthBytes w) (storeValue c t d w) hlt hw
  rw [hx, Acc.bind_ok] at hstore
  have hcalm := (h.physWrite g (leBytes (widthBytes w) (storeValue c t d w))).wrote c.cr.part c.scope (addr t) (widthBytes w)
  rw [storeLane, hth]
  simp [hal, hstore, afterAcc, h.unfilled.plumbLane h.watch, hcalm.unfilled.plumbLane h.watch, hcalm.replayed,
    State.consumeHeld, hw]

theorem exec_st_of_reaches {b : Bool} {d a x : BitVec 6} {w : BitVec 3} {s : State} {c : Ctx} {g : Nat → Page}
    {put : Nat → State → State} (h : WordReady (.st b d a x w) s c) (hp : PlainAccess s c)
    (hshort : poolShort s c (fun t => oneBlock (c.ea t a x)) = false)
    (hput : ∀ t s', put t s' = (s'.physWrite (g t) (leBytes (widthBytes w) (storeValue c t d w))).wrote c.cr.part c.scope
      (c.ea t a x) (widthBytes w))
    (hr : ∀ t < 16, c.stores t = true →
      reaches (metBy c b c.stores put s t) c (c.ea t a x) (widthBytes w) { write := true } (g t)) :
    exec (.st b d a x w) s = .next (byLanes c b c.stores put s) ∧ Storing s (metBy c b c.stores put s 16) := by
  have hc := (ctx_some h.here).2.2.1
  have hmet : ∀ n, Storing s (metBy c b c.stores put s n) := Storing.met fun t s' hl => by
    rw [hput]
    exact (hl.physWrite _ _).wrote _ _ _ _
  rw [exec_st, execSt, memWord]
  refine ⟨frameWith_lanes h.here h.checks h.flows hshort (fun t ht hq => ?_) fun t hs => (Bool.and_eq_true_iff.mp hs).1, hmet 16⟩
  have hth := (hmet t).threads.thread hc t
  by_cases hs : c.stores t = true
  · rw [if_pos hs, hput]
    exact storeLane_of_reaches ((hmet t).calm hp hc) (hth.trans (Bool.and_eq_true_iff.mp hs).2) (hr t ht hs)
  · rw [if_neg hs]
    exact storeLane_of_helper (hth.trans (by simpa [Ctx.stores, hq] using hs))

/-! ### STS -/

/-- The crew of a word with another scratchpad. -/
def Crew.withScratch (cr : Crew) (m : Memory) : Crew := { cr with scratch := m }

/-- From `s` to `s'` lanes and scratchpad of the word's crew may have changed, but not who holds its lanes; a byte `z` of
the scratchpad stays where the scratchpad has its canonical form. -/
structure ScratchStoring (s : State) (c : Ctx) (s' : State) : Prop where
  crew : ∃ (ls : List Lane) (m : Memory), s'.crews[c.ci]? = some ((c.cr.withLanes ls).withScratch m) ∧
    ∀ p : Nat, (ls[p]?.bind Lane.thread?).isSome = (c.cr.lanes[p]?.bind Lane.thread?).isSome
  mem : s'.mem = s.mem

namespace ScratchStoring

variable {s s' : State} {c : Ctx}

theorem moved (h : s.crews[c.ci]? = some c.cr) (last : Bool) : ScratchStoring s c (if last then setPcs c s else s) := by
  obtain ⟨ls, hls, hstand⟩ := SameThreads.moved c last s c.ci c.cr h
  exact ⟨⟨ls, c.cr.scratch, hls, hstand⟩, moved_mem c last s⟩

theorem scratchStore (h : ScratchStoring s c s') (off : Nat) (bs : List Byte) : ScratchStoring s c (s'.scratchStore c.ci off bs) := by
  obtain ⟨⟨ls, m, hm, hstand⟩, hmem⟩ := h
  refine ⟨⟨ls, m.write off bs, ?_, hstand⟩, ?_⟩
  · simp [State.scratchStore, hm, Crew.withScratch]
  · simpa [State.scratchStore, hm] using hmem

theorem thread (h : ScratchStoring s c s') (t : Nat) : (s'.thread? c.ci (c.place t)).isSome = (c.lane t).thread?.isSome := by
  obtain ⟨⟨ls, m, hm, hstand⟩, -⟩ := h
  exact isSome_thread_of_crew hm hstand t

end ScratchStoring

theorem stsLane_of_inside {s : State} {c : Ctx} {d : Code} {w : BitVec 3} {addr : Nat → Nat} {t : Nat}
    (hth : (s.thread? c.ci (c.place t)).isSome = true) (hal : addr t % widthBytes w = 0)
    (hin : addr t + widthBytes w ≤ c.cr.alloc) (hq : c.cr.meetsQueue (addr t) (widthBytes w) = false) :
    stsLane c d w addr s t = s.scratchStore c.ci (addr t) (leBytes (widthBytes w) (storeValue c t d w)) := by
  obtain ⟨th, hth⟩ := Option.isSome_iff_exists.mp hth
  have hout : ¬ c.cr.alloc < addr t + widthBytes w := by omega
  rw [stsLane, hth]
  simp [hal, hout, hq]

theorem stsLane_of_helper {s : State} {c : Ctx} {d : Code} {w : BitVec 3} {addr : Nat → Nat} {t : Nat}
    (h : (s.thread? c.ci (c.place t)).isSome = false) : stsLane c d w addr s t = s := by
  rw [stsLane, Option.isSome_eq_false_iff.mp h |> Option.isNone_iff_eq_none.mp]

theorem exec_sts_of_inside {b : Bool} {d a x : BitVec 6} {w : BitVec 3} {s : State} {c : Ctx} {put : Nat → State → State}
    (h : WordReady (.sts b d a x w) s c)
    (hput : ∀ t s', put t s' = s'.scratchStore c.ci (c.soff t a x) (leBytes (widthBytes w) (storeValue c t d w)))
    (hin : ∀ t < 16, c.stores t = true → c.soff t a x % widthBytes w = 0 ∧ c.soff t a x + widthBytes w ≤ c.cr.alloc ∧
      c.cr.meetsQueue (c.soff t a x) (widthBytes w) = false) :
    exec (.sts b d a x w) s = .next (byLanes c b c.stores put s) ∧ (byLanes c b c.stores put s).mem = s.mem := by
  have hmet : ∀ n, ScratchStoring s c (metBy c b c.stores put s n) :=
    metBy_keeps _ (.moved (ctx_some h.here).2.2.1 b) fun t s' _ hl => by
      rw [hput]
      exact hl.scratchStore _ _
  rw [exec_sts, execSts, frame]
  refine ⟨frameWith_lanes h.here h.checks h.flows rfl (fun t ht hq => ?_) fun t hs => (Bool.and_eq_true_iff.mp hs).1,
    (finish_mem b _).trans (hmet 16).mem⟩
  have hth := (hmet t).thread t
  by_cases hs : c.stores t = true
  · obtain ⟨hal, hle, hqueue⟩ := hin t ht hs
    rw [if_pos hs, hput]
    exact stsLane_of_inside (hth.trans (Bool.and_eq_true_iff.mp hs).2) hal hle hqueue
  · rw [if_neg hs]
    exact stsLane_of_helper (hth.trans (by simpa [Ctx.stores, hq] using hs))

/-- The scratchpad of the word's crew has its canonical form, and byte `z` of it is as the word found it. -/
def ScratchByte (c : Ctx) (z : Nat) (s : State) : Prop :=
  ∃ cr, s.crews[c.ci]? = some cr ∧ cr.scratch.wf = true ∧ cr.scratch.byte z = c.cr.scratch.byte z

namespace ScratchByte

variable {s s' : State} {c : Ctx} {z : Nat}

theorem of_sameThreads (h : ScratchByte c z s) (ht : SameThreads s s') : ScratchByte c z s' := by
  obtain ⟨cr, hcr, hwf, hz⟩ := h
  obtain ⟨ls, hls, -⟩ := ht c.ci cr hcr
  exact ⟨_, hls, hwf, hz⟩

theorem scratchStore (h : ScratchByte c z s) {off : Nat} {bs : List Byte} (hout : z < off ∨ off + bs.length ≤ z) :
    ScratchByte c z (s.scratchStore c.ci off bs) := by
  obtain ⟨cr, hcr, hwf, hz⟩ := h
  refine ⟨{ cr with scratch := cr.scratch.write off bs }, by simp [State.scratchStore, hcr], Memory.write_wf _ _ _ hwf, ?_⟩
  exact (Memory.byte_write_outside _ _ _ _ hwf hout).trans hz

/-- A byte of the scratchpad outside every store stays (R209). -/
theorem byLanes {last : Bool} {p : Nat → Bool} {off n : Nat → Nat} {v : Nat → Nat} {put : Nat → State → State}
    (h : ScratchByte c z s) (hput : ∀ t s', put t s' = s'.scratchStore c.ci (off t) (leBytes (n t) (v t)))
    (hout : ∀ t < 16, p t = true → z < off t ∨ off t + n t ≤ z) : ScratchByte c z (byLanes c last p put s) := by
  refine of_sameThreads (metBy_keeps_lt _ (h.of_sameThreads (.moved c last s)) (fun t ht hp s' hs' => ?_) 16 (Nat.le_refl 16))
    (.finish last _)
  rw [hput]
  exact hs'.scratchStore (by rw [leBytes_length]; exact hout t ht hp)

end ScratchByte

end Sys2Proof.Machine

open Sys2Proof Sys2Proof.Machine

/-- Settles O21: each lane that holds a thread stores in its turn, and only the copies of its page's bytes change. -/
theorem stores : Obligations.Stores := by
  unfold Obligations.Stores
  refine ⟨fun s p va n => ⟨wrote_of_narrow s p va n (by decide), wrote_of_narrow s p va n (by decide),
      fun scope => wrote_fields s p scope va n⟩,
    fun s p scope va n pa r h x hs hw hpa hr hh hx hnew hrung => mem_wrote hs hw hpa hr hh hx hnew hrung,
    fun b d a x w s c g h hp hshort hr => ?st, fun b d a x w s c h hin => ?sts⟩
  case st =>
    obtain ⟨hex, hmet⟩ := exec_st_of_reaches h hp hshort (fun _ _ => rfl) hr
    refine ⟨hex, hmet.sameDevice b, fun hf z hz => byLanes_byte hf fun t ht hs s' hs' => ⟨wrote_formed ?_ _ _ _ _, ?_⟩⟩
    · exact State.physWrite_formed _ _ _ hs'
    · exact (wrote_byte _ _ _ _ _ _).trans (physWrite_byte hs' (by rw [leBytes_length]; exact hz t ht hs))
  case sts =>
    obtain ⟨hex, hmem⟩ := exec_sts_of_inside h (fun _ _ => rfl) hin
    refine ⟨hex, hmem, fun z hz cr cr' hcr hwf hcr' => ?_⟩
    obtain rfl : c.cr = cr := Option.some.inj ((ctx_some h.here).2.2.1.symm.trans hcr)
    obtain ⟨cr₁, hcr₁, -, hbyte⟩ := ScratchByte.byLanes (z := z) ⟨c.cr, hcr, hwf, rfl⟩ (fun _ _ => rfl) hz
    obtain rfl : cr₁ = cr' := Option.some.inj (hcr₁.symm.trans hcr')
    exact hbyte
end

section
/-!
PROOFS. A packed block (R61-R65): the scale rule, and the elements in a block's bits.
-/

namespace Sys2Proof.Num

open Sys2Proof

/-! ### The scale rule (R65) -/

/-- One step of the search for the largest finite magnitude of a block. -/
def maxStep (m : Rat) (x : XR) : Rat :=
  match x with
  | .fin _ q => let a := if q < 0 then -q else q; if m < a then a else m
  | _ => m

theorem maxStep_eq (m : Rat) (x : XR) : maxStep m x = if x.isFin then max m |x.rat| else m := by
  cases x with
  | nan => rfl
  | inf n => rfl
  | fin n q =>
    have habs : (if q < 0 then -q else q) = |q| := by
      by_cases h : q < 0
      · rw [if_pos h, abs_of_neg h]
      · rw [if_neg h, abs_of_nonneg (not_lt.mp h)]
    simp only [maxStep, habs, XR.isFin, XR.rat, if_true]
    by_cases h : m < |q|
    · rw [if_pos h, max_eq_right h.le]
    · rw [if_neg h, max_eq_left (not_lt.mp h)]

/-- What is not finite has no magnitude to hold. -/
theorem rat_of_not_isFin {x : XR} (h : ¬ x.isFin = true) : x.rat = 0 := by
  cases x with
  | fin n q => exact absurd rfl h
  | nan => rfl
  | inf n => rfl

/-- The largest finite magnitude of a block. -/
def maxMag (xs : List XR) (m : Rat) : Rat := xs.foldl maxStep m

theorem le_maxMag (xs : List XR) (m : Rat) : m ≤ maxMag xs m := by
  induction xs generalizing m with
  | nil => exact le_rfl
  | cons x xs ih =>
    refine le_trans ?_ (ih (maxStep m x))
    rw [maxStep_eq]
    split
    · exact le_max_left _ _
    · exact le_rfl

theorem abs_le_maxMag {xs : List XR} {x : XR} {m : Rat} (h0 : 0 ≤ m) (hx : x ∈ xs) : |x.rat| ≤ maxMag xs m := by
  induction xs generalizing m with
  | nil => cases hx
  | cons y xs ih =>
    rcases List.mem_cons.mp hx with rfl | hx
    · refine le_trans ?_ (le_maxMag xs (maxStep m x))
      rw [maxStep_eq]
      split
      next => exact le_max_right _ _
      next h =>
        rw [rat_of_not_isFin h, abs_zero]
        exact h0
    · exact ih (h0.trans (le_maxMag [y] m)) hx

theorem maxMag_attained (xs : List XR) (m : Rat) :
    maxMag xs m = m ∨ ∃ x ∈ xs, x.isFin = true ∧ maxMag xs m = |x.rat| := by
  induction xs generalizing m with
  | nil => exact .inl rfl
  | cons y xs ih =>
    rcases ih (maxStep m y) with h | ⟨x, hx, hfin, h⟩
    · change maxMag (y :: xs) m = _ at h
      rw [maxStep_eq] at h
      split at h
      next hy =>
        rcases max_choice m |y.rat| with hm | hm
        · exact .inl (h.trans hm)
        · exact .inr ⟨y, by simp, hy, h.trans hm⟩
      next => exact .inl h
    · exact .inr ⟨x, by simp [hx], hfin, h⟩

/-- No finite magnitude but zero: the largest is zero. -/
theorem maxMag_eq_zero {xs : List XR} (h : ∀ x ∈ xs, x.isFin = true → x.isZero = true) : maxMag xs 0 = 0 := by
  rcases maxMag_attained xs 0 with h0 | ⟨x, hx, hfin, h0⟩
  · exact h0
  · have hz := h x hx hfin
    cases x with
    | fin n q =>
      rw [h0, show (XR.fin n q).rat = 0 from eq_of_beq hz, abs_zero]
    | nan => cases hz
    | inf n => cases hz

theorem maxMag_pos {xs : List XR} {x : XR} (hx : x ∈ xs) (hfin : x.isFin = true) (hz : x.isZero = false) : 0 < maxMag xs 0 := by
  refine lt_of_lt_of_le (abs_pos.mpr ?_) (abs_le_maxMag le_rfl hx)
  cases x with
  | fin n q => exact fun h : q = 0 => by simp [XR.isZero, h] at hz
  | nan => cases hfin
  | inf n => cases hfin

/-- The least exponent whose power of two is at least `q`. -/
def ceilLog2 (q : Rat) : Int := if pow2 (ilog2 q) = q then ilog2 q else ilog2 q + 1

theorem ceilLog2_spec {q : Rat} (hq : 0 < q) (r : Int) : q ≤ 2 ^ r ↔ ceilLog2 q ≤ r := by
  obtain ⟨hlo, hhi⟩ := ilog2_bounds hq
  rw [ceilLog2, pow2_eq_zpow]
  split
  next h =>
    rw [← h, zpow_le_zpow_iff_right₀ (by norm_num)]
    rw [h]
  next h =>
    have hlt : (2 : Rat) ^ ilog2 q < q := lt_of_le_of_ne hlo h
    constructor
    · exact fun hr => (zpow_lt_zpow_iff_right₀ (show (1 : Rat) < 2 by norm_num)).mp (hlt.trans_le hr)
    · exact fun hr => hhi.le.trans (two_zpow_le hr)

theorem blockScale_eq (e : Elt) (fmt : Nat) (xs : List XR) : blockScale e fmt xs =
    if fmt = 0x09 ∨ fmt = 0x0A then 0 else if maxMag xs 0 = 0 then 0
    else max (-128) (min 127 (ceilLog2 (maxMag xs 0 / e.fmax))) := by
  change (if fmt = 0x09 ∨ fmt = 0x0A then (0 : Int) else if maxMag xs 0 = 0 then 0
    else if ceilLog2 (maxMag xs 0 / e.fmax) < -128 then -128
    else if 127 < ceilLog2 (maxMag xs 0 / e.fmax) then 127 else ceilLog2 (maxMag xs 0 / e.fmax)) = _
  refine if_congr Iff.rfl rfl (if_congr Iff.rfl rfl ?_)
  generalize ceilLog2 (maxMag xs 0 / e.fmax) = s
  split
  · omega
  · split <;> omega

theorem blockScale_bounds (e : Elt) (fmt : Nat) (xs : List XR) : -128 ≤ blockScale e fmt xs ∧ blockScale e fmt xs ≤ 127 := by
  rw [blockScale_eq]
  split
  · omega
  · split
    · omega
    · omega

theorem blockScale_of_float {e : Elt} {fmt : Nat} {xs : List XR} (h : fmt = 0x09 ∨ fmt = 0x0A) : blockScale e fmt xs = 0 := by
  rw [blockScale_eq, if_pos h]

theorem blockScale_of_zeros {e : Elt} {fmt : Nat} {xs : List XR} (h : ∀ x ∈ xs, x.isFin = true → x.isZero = true) :
    blockScale e fmt xs = 0 := by
  rw [blockScale_eq, maxMag_eq_zero h, if_pos rfl, ite_self]

/-- The scale is the least of its range at which the largest finite magnitude is held. -/
theorem blockScale_least {e : Elt} {fmt : Nat} {xs : List XR} (hpos : 0 < e.fmax) (h9 : fmt ≠ 0x09) (hA : fmt ≠ 0x0A)
    (hx : ∃ x ∈ xs, x.isFin = true ∧ x.isZero = false) :
    (blockScale e fmt xs < 127 → ∀ x ∈ xs, |x.rat| ≤ e.fmax * (2 : Rat) ^ blockScale e fmt xs) ∧
      ∀ r : Int, -128 ≤ r → r < blockScale e fmt xs → ∃ x ∈ xs, e.fmax * (2 : Rat) ^ r < |x.rat| := by
  obtain ⟨x₀, hx₀, hfin, hz⟩ := hx
  have hmax := maxMag_pos hx₀ hfin hz
  have hheld (r : Int) : maxMag xs 0 ≤ e.fmax * (2 : Rat) ^ r ↔ ceilLog2 (maxMag xs 0 / e.fmax) ≤ r := by
    rw [← ceilLog2_spec (div_pos hmax hpos), div_le_iff₀ hpos, mul_comm]
  rw [blockScale_eq, if_neg (by simp [h9, hA]), if_neg hmax.ne']
  refine ⟨fun hlt x hx => (abs_le_maxMag le_rfl hx).trans ((hheld _).mpr (by omega)), fun r hr hlt => ?_⟩
  have hnot : e.fmax * (2 : Rat) ^ r < maxMag xs 0 := not_le.mp fun h => by have := (hheld r).mp h; omega
  rcases maxMag_attained xs 0 with h0 | ⟨x, hx, -, h⟩
  · exact absurd h0 hmax.ne'
  · exact ⟨x, hx, h ▸ hnot⟩

/-! ### The encodings of elements -/

theorem signBit_add_lt {F : Fmt} (neg : Bool) {n : Nat} (hn : n < 2 ^ (F.ew + F.fw)) : signBit F neg + n < 2 ^ F.width := by
  have hw : 2 ^ F.width = 2 ^ (F.ew + F.fw) + 2 ^ (F.ew + F.fw) := by
    rw [Fmt.width, Nat.add_assoc, Nat.add_comm 1, Nat.pow_succ, Nat.mul_two]
  rw [hw, signBit]
  split <;> omega

section
variable {F : Fmt} (hF : F.Regular)
include hF

theorem maxEnc_lt (neg : Bool) : maxEnc F neg < 2 ^ F.width := by
  have h := ((magFinite_iff_le_maxEnc hF).mpr le_rfl).1
  have hsum : maxEnc F neg = signBit F neg + maxEnc F false := by simp [maxEnc, signBit]
  rw [hsum]
  exact signBit_add_lt neg h

omit hF in
theorem infEnc_lt (neg : Bool) : infEnc F neg < 2 ^ F.width := by
  refine signBit_add_lt neg ?_
  rw [pow_add]
  exact Nat.mul_lt_mul_of_pos_right (Nat.sub_lt (by positivity) one_pos) (by positivity)

theorem canonNaN_lt : canonNaN F < 2 ^ F.width := by
  have hew : 0 < 2 ^ F.ew := by positivity
  have hfw : 2 ^ (F.fw - 1) < 2 ^ F.fw := Nat.pow_lt_pow_right (by omega) (by have := hF.two_le_fw; omega)
  have hlt : canonNaN F < 2 ^ (F.ew + F.fw) := by
    unfold canonNaN
    split
    · calc (2 ^ F.ew - 1) * 2 ^ F.fw + 2 ^ (F.fw - 1) < (2 ^ F.ew - 1) * 2 ^ F.fw + 2 ^ F.fw := by omega
        _ = 2 ^ (F.ew + F.fw) := by rw [← Nat.succ_mul, Nat.succ_eq_add_one, Nat.sub_add_cancel hew, pow_add]
    · exact Nat.sub_lt (by positivity) one_pos
  exact hlt.trans (Nat.pow_lt_pow_right (by omega) (by rw [Fmt.width]; omega))

/-- A rounded value fits the format's bits. -/
theorem roundX_lt (mode : Mode) (x : XR) : (roundX F mode x).1 < 2 ^ F.width := by
  have hfinite (neg : Bool) {n : Nat} (hn : n ≤ maxEnc F false) : signBit F neg + n < 2 ^ F.width :=
    signBit_add_lt neg ((magFinite_iff_le_maxEnc hF).mpr hn).1
  cases x with
  | nan => exact canonNaN_lt hF
  | inf neg =>
    rw [roundX]
    split
    · exact infEnc_lt neg
    · exact maxEnc_lt hF neg
  | fin neg q =>
    rw [roundX]
    split
    next => exact hfinite neg (Nat.zero_le _)
    next hq =>
      rw [roundRat_eq hq]
      split
      next =>
        rw [overflowed]
        split
        · dsimp only
          split
          · exact maxEnc_lt hF _
          · exact infEnc_lt _
        · exact maxEnc_lt hF _
      next h => exact hfinite _ (magEnc_le_maxEnc hF (abs_pos.mpr hq) h)

end

theorem ITy.enc_lt (t : ITy) (i : Int) : t.enc i < 2 ^ t.w := by
  have h := Int.emod_lt_of_pos i (b := ((2 ^ t.w : Nat) : Int)) (by positivity)
  have h0 := Int.emod_nonneg i (b := ((2 ^ t.w : Nat) : Int)) (by positivity)
  rw [ITy.enc]
  omega

theorem toInteger_lt (t : ITy) (mode : Mode) (x : XR) : (toInteger t mode x).1 < 2 ^ t.w := by
  cases x with
  | nan => exact Nat.two_pow_pos _
  | inf neg => exact t.enc_lt _
  | fin neg q =>
    rw [toInteger]
    split
    · exact t.enc_lt _
    · split
      · exact t.enc_lt _
      · exact t.enc_lt _

/-- The formats of a block's elements (R62). -/
theorem eltOf_flt {fmt : Nat} {F : Fmt} (h : eltOf fmt = some (.flt F)) : F ∈ [fp64, fp32, fp16, bf16, e4m3] := by
  unfold eltOf at h
  split at h
  all_goals simp only [Option.some.injEq, Elt.flt.injEq, reduceCtorEq] at h
  all_goals subst h; decide

theorem convert_lt {fmt : Nat} {e : Elt} (he : eltOf fmt = some e) (mode : Mode) (x : XR) :
    (e.convert mode x).1 < 2 ^ e.width := by
  cases e with
  | raw => exact Nat.one_pos
  | flt F => exact roundX_lt (regular_of_mem (eltOf_flt he)) mode x
  | int t => exact toInteger_lt t mode x

theorem width_mul_perBlock {fmt : Nat} {e : Elt} (he : eltOf fmt = some e) : e = .raw ∨ e.width * e.perBlock = 512 := by
  unfold eltOf at he
  split at he
  all_goals simp only [Option.some.injEq, reduceCtorEq] at he
  all_goals subst he; decide

/-- The largest values of the formats that have a scale (R62). -/
theorem fmax_table : ([0x01, 0x02, 0x03, 0x04, 0x05, 0x06, 0x08].map fun f => (eltOf f).map Elt.fmax) =
    [some 448, some 127, some 255, some 7, some 15, some 65504, some 32767] := by decide +kernel

theorem fmax_pos {fmt : Nat} {e : Elt} (he : eltOf fmt = some e) (hraw : e ≠ .raw) : 0 < e.fmax := by
  have hall : ∀ n < 11, 0 < n → ((eltOf n).map Elt.fmax).all (fun q => decide (0 < q)) = true := by decide +kernel
  have hlt : fmt < 11 := by
    by_contra h
    obtain ⟨n, rfl⟩ : ∃ n, fmt = n + 11 := ⟨fmt - 11, by omega⟩
    cases he
  have h0 : 0 < fmt := Nat.pos_of_ne_zero fun h => hraw (by subst h; exact (Option.some.inj he).symm)
  have h := hall fmt hlt h0
  rw [he] at h
  exact of_decide_eq_true h

/-! ### The elements in a block's bits (R61) -/

/-- Numbers of `w` bits laid one after another, the first lowest. -/
def packNat (w : Nat) (rs : List (Nat × Flags)) : Nat := rs.foldr (fun r acc => r.1 + 2 ^ w * acc) 0

theorem packNat_lt {w : Nat} {rs : List (Nat × Flags)} (h : ∀ r ∈ rs, r.1 < 2 ^ w) : packNat w rs < 2 ^ (w * rs.length) := by
  induction rs with
  | nil => exact Nat.one_pos
  | cons r rs ih =>
    have hr := h r (by simp)
    have hrs := ih fun r hr => h r (by simp [hr])
    calc r.1 + 2 ^ w * packNat w rs < 2 ^ w + 2 ^ w * packNat w rs := by omega
      _ = 2 ^ w * (packNat w rs + 1) := by rw [Nat.mul_succ, Nat.add_comm]
      _ ≤ 2 ^ w * 2 ^ (w * rs.length) := Nat.mul_le_mul_left _ hrs
      _ = 2 ^ (w * (r :: rs).length) := by rw [← pow_add, List.length_cons, Nat.mul_succ, Nat.add_comm]

/-- Number `i` is found at its place. -/
theorem packNat_get {w : Nat} {rs : List (Nat × Flags)} (h : ∀ r ∈ rs, r.1 < 2 ^ w) {i : Nat} {r : Nat × Flags}
    (hr : rs[i]? = some r) : packNat w rs / 2 ^ (w * i) % 2 ^ w = r.1 := by
  induction rs generalizing i with
  | nil => cases hr
  | cons r₀ rs ih =>
    have hr₀ := h r₀ (by simp)
    change (r₀.1 + 2 ^ w * packNat w rs) / 2 ^ (w * i) % 2 ^ w = r.1
    cases i with
    | zero =>
      obtain rfl : r₀ = r := Option.some.inj hr
      rw [Nat.mul_zero, Nat.pow_zero, Nat.div_one, Nat.add_mul_mod_self_left, Nat.mod_eq_of_lt hr₀]
    | succ i =>
      rw [Nat.mul_succ, Nat.add_comm (w * i), pow_add, ← Nat.div_div_eq_div_mul, Nat.add_mul_div_left _ _ (Nat.two_pow_pos w),
        Nat.div_eq_of_lt hr₀, Nat.zero_add]
      exact ih (fun r hr => h r (by simp [hr])) hr

theorem packBlock_eq {fmt : Nat} {e : Elt} (he : eltOf fmt = some e) (mode : Mode) (xs : List XR) :
    ∃ fl, packBlock fmt mode xs = (leBytes 64 (packNat e.width (xs.map fun x => e.convert mode (x.scale (-blockScale e fmt xs)))),
      fmt + 256 * (blockScale e fmt xs % 256).toNat, fl) := by
  refine ⟨(xs.map fun x => e.convert mode (x.scale (-blockScale e fmt xs))).foldl (fun f r => f.or r.2) {}, ?_⟩
  simp only [packBlock, he, descOf, ITy.enc]
  rw [Nat.mul_comm, Nat.add_comm]
  rfl

/-- Element `i` of a packed block is its value over the scale, converted (R65). -/
theorem packBlock_elt {fmt : Nat} {e : Elt} (he : eltOf fmt = some e) (hraw : e ≠ .raw) (mode : Mode) {xs : List XR}
    (hlen : xs.length = e.perBlock) {i : Nat} {x : XR} (hx : xs[i]? = some x) :
    leNat (packBlock fmt mode xs).1 / 2 ^ (e.width * i) % 2 ^ e.width =
      (e.convert mode (x.scale (-blockScale e fmt xs))).1 := by
  obtain ⟨fl, hpack⟩ := packBlock_eq he mode xs
  have hfit : ∀ r ∈ xs.map (fun x => e.convert mode (x.scale (-blockScale e fmt xs))), r.1 < 2 ^ e.width := by
    intro r hr
    obtain ⟨y, -, rfl⟩ := List.mem_map.mp hr
    exact convert_lt he mode _
  have hbits : e.width * (xs.map fun x => e.convert mode (x.scale (-blockScale e fmt xs))).length = 8 * 64 := by
    rw [List.length_map, hlen]
    exact (width_mul_perBlock he).resolve_left hraw
  have hlt := packNat_lt hfit
  rw [hbits, Nat.pow_mul] at hlt
  rw [hpack, Machine.leNat_leBytes, Nat.mod_eq_of_lt hlt]
  exact packNat_get hfit (by rw [List.getElem?_map, hx]; rfl)

end Sys2Proof.Num
end

section
/-!
PROOFS. Dual and typed stores, and the descriptor of a block (R61, R191, R193, R210, R211, R213, R214).
-/

namespace Sys2Proof.Machine

open Sys2Proof
open Sys2Proof.Num (XR Elt eltOf fp32 fp64 decodeF isSNaN)

theorem exec_std (b : Bool) (d a x : BitVec 6) (f : BitVec 1) (s : State) : exec (.std b d a x f) s = execStd b d a x f s := rfl
theorem exec_stt (b : Bool) (d a x : BitVec 6) (u y : BitVec 1) (s : State) :
    exec (.stt b d a x u y) s = execStt b d a x u y s := rfl
theorem exec_bhdrWr (b : Bool) (d a : BitVec 6) (s : State) : exec (.bhdrWr b d a) s = execBhdrWr b d a s := rfl

/-! ### Several writes, one after another -/

theorem foldl_keeps {α : Type} {P : State → Prop} {f : State → α → State} {l : List α} {s : State} (h0 : P s)
    (h : ∀ x ∈ l, ∀ s, P s → P (f s x)) : P (l.foldl f s) := by
  induction l generalizing s with
  | nil => exact h0
  | cons x l ih => exact ih (h x (by simp) s h0) fun y hy => h y (by simp [hy])

/-- Two folds that agree wherever an invariant holds. -/
theorem foldl_congr_of {α : Type} {P : State → Prop} {f g : State → α → State} {l : List α} {s : State} (h0 : P s)
    (h : ∀ s, P s → ∀ x, f s x = g s x ∧ P (g s x)) : l.foldl f s = l.foldl g s := by
  induction l generalizing s with
  | nil => rfl
  | cons x l ih =>
    obtain ⟨heq, hP⟩ := h s h0 x
    rw [List.foldl_cons, List.foldl_cons, heq, ih hP]

/-- The turns of lanes outside the set do not count. -/
theorem byLanes_congr {c : Ctx} {last : Bool} {p : Nat → Bool} {put put' : Nat → State → State} {s : State}
    (h : ∀ t < 16, p t = true → ∀ s', put t s' = put' t s') : byLanes c last p put s = byLanes c last p put' s := by
  have hmet (n : Nat) (hn : n ≤ 16) : metBy c last p put s n = metBy c last p put' s n := by
    induction n with
    | zero => rfl
    | succ n ih =>
      rw [metBy_succ, metBy_succ, ih (by omega)]
      cases hp : p n with
      | true => exact h n (by omega) hp _
      | false => rfl
  rw [byLanes, byLanes, hmet 16 (Nat.le_refl 16)]

/-! ### The pages of a dual or typed store -/

/-- A page that a plain write is admitted to admits a write that asks for a kind of page, or raises cause 0x4
(R190, R358). -/
theorem xlat_kind {s : State} {p a : Nat} {g : Page} (h : s.xlat p a { write := true } = .ok g) (kind : Page → Bool) :
    s.xlat p a { write := true, kindOk := kind } = if kind g then .ok g else .trap (.fault 4) a := by
  unfold State.xlat at *
  split at h
  · cases h
  · cases h
  · rename_i g₀ hg₀
    split at h
    · cases h
    · rename_i hout
      simp only [State.pageCheck, Bool.not_false, Bool.and_true, Bool.false_and, Bool.false_eq_true, if_false, Bool.not_true,
        Bool.true_and] at h ⊢
      split at h
      · cases h
      · rename_i hpriv
        split at h
        · cases h
        · rename_i hw
          obtain rfl : g₀ = g := Acc.ok.inj h
          simp only [hout, hpriv, hw, Bool.false_eq_true, if_false]
          cases kind g₀ <;> rfl

theorem globalPage_kind {s : State} {c : Ctx} {a n : Nat} {g : Page} (u : Unfilled s c) (p : Nat)
    (hr : reaches s c a n { write := true } g) (kind : Page → Bool) :
    s.globalPage c.ci p a { write := true, kindOk := kind } = if kind g then .ok g else .trap (.fault 4) a := by
  obtain ⟨-, hlt, hw, hx⟩ := hr
  rw [u.globalPage p _ hlt hw, xlat_kind hx]

theorem globalPage_write {s : State} {c : Ctx} {a n : Nat} {g : Page} (u : Unfilled s c) (p : Nat)
    (hr : reaches s c a n { write := true } g) : s.globalPage c.ci p a { write := true } = .ok g := by
  obtain ⟨-, hlt, hw, hx⟩ := hr
  rw [u.globalPage p _ hlt hw, hx]

/-- The parts of a dual page with their pages. -/
theorem dual_zip {a e m : Nat} {g : Page} {gs : Nat → Page} :
    (a :: (List.range m).map fun k => a + (k + 1) * 2 ^ e).zip (g :: (List.range m).map gs) =
      (a, g) :: (List.range m).map fun k => (a + (k + 1) * 2 ^ e, gs k) := by
  rw [List.zip_cons_cons, List.zip_map']

section
variable {s : State} {c : Ctx} {a n : Nat} {g : Page}

theorem stdPages_dual {e dt : Nat} {gs : Nat → Page} (u : Unfilled s c) (p : Nat) (hr : reaches s c a n { write := true } g)
    (hd : g.dual = some (e, dt)) (hraw : RawBlock s g)
    (htan : ∀ k < min 8 dt, reaches s c (a + (k + 1) * 2 ^ e) n { write := true } (gs k) ∧ RawBlock s (gs k)) :
    stdPages s c p a = .ok ((a, g) :: (List.range (min 8 dt)).map fun k => (a + (k + 1) * 2 ^ e, gs k)) := by
  have hpages := globalPages_map (List.range (min 8 dt)) (q := { write := true }) (p := p) (bad := notRaw s c.ci p)
    (adr := fun k => a + (k + 1) * 2 ^ e) (pg := gs) (fun k hk => by
      obtain ⟨hrk, hrawk⟩ := htan k (List.mem_range.mp hk)
      exact ⟨globalPage_write u p hrk, notRaw_of_raw u p _ hrawk⟩)
  rw [stdPages, if_neg (Nat.not_le.mpr hr.2.1), hr.2.2.1, if_neg Bool.false_ne_true, globalPage_kind u p hr, if_pos (by rw [hd]; rfl)]
  simp only [Acc.bind_ok]
  rw [dualParts_of_dual hd, globalPages_cons (globalPage_write u p hr) (notRaw_of_raw u p a hraw) hpages, Acc.bind_ok, dual_zip]

theorem stdPages_not_dual (u : Unfilled s c) (p : Nat) (hr : reaches s c a n { write := true } g) (hd : g.dual = none) :
    stdPages s c p a = .trap (.fault 4) a := by
  rw [stdPages, if_neg (Nat.not_le.mpr hr.2.1), hr.2.2.1, if_neg Bool.false_ne_true, globalPage_kind u p hr, if_neg (by rw [hd]; decide)]
  rfl

theorem sttPages_plain (u : Unfilled s c) (p : Nat) (hr : reaches s c a n { write := true } g) (ht : g.typed = true) :
    sttPages s c p a false = .ok [(a, g)] := by
  have hpage := globalPage_kind u p hr fun g => g.typed
  rw [if_pos ht] at hpage
  rw [sttPages, if_neg (Nat.not_le.mpr hr.2.1), hr.2.2.1, if_neg Bool.false_ne_true, globalPage_kind u p hr, if_pos (by rw [ht]; rfl)]
  simp only [Acc.bind_ok, Bool.false_eq_true, if_false]
  rw [dualParts_zero, globalPages_cons hpage rfl rfl]
  rfl

theorem sttPages_dual {e dt : Nat} {gs : Nat → Page} (u : Unfilled s c) (p : Nat) (hr : reaches s c a n { write := true } g)
    (ht : g.typed = true) (hd : g.dual = some (e, dt))
    (htan : ∀ k < min 8 dt, reaches s c (a + (k + 1) * 2 ^ e) n { write := true } (gs k) ∧ (gs k).typed = true) :
    sttPages s c p a true = .ok ((a, g) :: (List.range (min 8 dt)).map fun k => (a + (k + 1) * 2 ^ e, gs k)) := by
  have hpage := globalPage_kind u p hr fun g => g.typed
  rw [if_pos ht] at hpage
  have hpages := globalPages_map (List.range (min 8 dt)) (q := { write := true, kindOk := fun g => g.typed }) (p := p)
    (bad := fun _ _ => none) (adr := fun k => a + (k + 1) * 2 ^ e) (pg := gs) (fun k hk => by
      obtain ⟨hrk, htk⟩ := htan k (List.mem_range.mp hk)
      exact ⟨by rw [globalPage_kind u p hrk, if_pos htk], rfl⟩)
  rw [sttPages, if_neg (Nat.not_le.mpr hr.2.1), hr.2.2.1, if_neg Bool.false_ne_true, globalPage_kind u p hr, if_pos (by rw [ht, hd]; rfl)]
  simp only [if_true, Acc.bind_ok]
  rw [dualParts_of_dual hd, globalPages_cons hpage rfl hpages, Acc.bind_ok, dual_zip]

theorem sttPages_refused {dual : Bool} (u : Unfilled s c) (p : Nat) (hr : reaches s c a n { write := true } g)
    (h : g.typed = false ∨ (dual = true ∧ g.dual = none)) : sttPages s c p a dual = .trap (.fault 4) a := by
  have hkind : ¬ (g.typed && (!dual || g.dual.isSome)) = true := by
    rcases h with ht | ⟨rfl, hd⟩
    · simp [ht]
    · simp [hd]
  rw [sttPages, if_neg (Nat.not_le.mpr hr.2.1), hr.2.2.1, if_neg Bool.false_ne_true, globalPage_kind u p hr, if_neg hkind]
  rfl

end

/-! ### STD (R193, R210) -/

/-- What STD writes in a lane: the primal and eight tangents, as many as there are parts. -/
def stdWrites (c : Ctx) (n : Nat) (v : Val) (parts : List (Nat × Page)) (s : State) : State :=
  (parts.zip (v.bits.toNat :: (List.range 8).map fun k => (v.tan.getD k 0).toNat)).foldl (fun s x =>
    (s.physWrite x.1.2 (leBytes n x.2)).wrote c.cr.part c.scope x.1.1 n) s

theorem stdLane_of_helper {s : State} {c : Ctx} {d : Code} {ty : OpTy} {addr : Nat → Nat} {t : Nat}
    (h : (s.thread? c.ci (c.place t)).isSome = false) : stdLane c d ty addr s t = s := by
  rw [stdLane, Option.isSome_eq_false_iff.mp h |> Option.isNone_iff_eq_none.mp]

theorem stdLane_of_pages {s : State} {c : Ctx} {d : Code} {ty : OpTy} {addr : Nat → Nat} {t n : Nat} {parts : List (Nat × Page)}
    (h : Calm s c) (hth : (s.thread? c.ci (c.place t)).isSome = true) (hn : (if ty.wide then 8 else 4) = n)
    (hal : addr t % n = 0) (hx : stdPages s c (c.place t) (addr t) = .ok parts) :
    stdLane c d ty addr s t = stdWrites c n (c.opnd t ty d) parts s := by
  obtain ⟨th, hth⟩ := Option.isSome_iff_exists.mp hth
  rw [stdLane, hth]
  simp only [hn, hal, ne_eq, not_true_eq_false, if_false, hx, afterAcc, h.unfilled.plumbAll h.watch, Bool.false_eq_true]
  refine foldl_congr_of (P := fun s => Calm s c) h fun s' hs' x => ?_
  have hcalm := (hs'.physWrite x.1.2 (leBytes n x.2)).wrote c.cr.part c.scope x.1.1 n
  exact ⟨hcalm.replayed _ _, hcalm⟩

theorem Storing.stdWrites {s s' : State} (h : Storing s s') (c : Ctx) (n : Nat) (v : Val) (parts : List (Nat × Page)) :
    Storing s (stdWrites c n v parts s') :=
  foldl_keeps (P := Storing s) h fun _ _ _ hs => (hs.physWrite _ _).wrote _ _ _ _

/-- The bytes that no part covers stay. -/
theorem stdWrites_byte {c : Ctx} {n : Nat} {v : Val} {parts : List (Nat × Page)} {s : State} {z : Nat} (hf : s.formed)
    (hz : ∀ x ∈ parts, ¬ x.2.covers n z) :
    (stdWrites c n v parts s).formed ∧ (stdWrites c n v parts s).mem.byte z = s.mem.byte z := by
  refine foldl_keeps (P := fun s' => s'.formed ∧ s'.mem.byte z = s.mem.byte z) ⟨hf, rfl⟩ fun x hx s' hs' => ?_
  refine ⟨wrote_formed (State.physWrite_formed _ _ _ hs'.1) _ _ _ _, (wrote_byte _ _ _ _ _ _).trans ?_⟩
  exact (physWrite_byte hs'.1 (by rw [leBytes_length]; exact hz _ (List.of_mem_zip hx).1)).trans hs'.2

theorem exec_std_of_pages {b : Bool} {d a x : BitVec 6} {f : BitVec 1} {s : State} {c : Ctx} {ps : Nat → List (Nat × Page)}
    {put : Nat → State → State} (h : WordReady (.std b d a x f) s c) (hp : PlainAccess s c)
    (hshort : poolShort s c (fun t => (lddParts s c (c.place t) (c.ea t a x) 8).map fun y => y / 64) = false)
    (hput : ∀ t s', put t s' =
      stdWrites c (if f == 1#1 then 8 else 4) (c.opnd t (if f == 1#1 then .f64 else .f32) d) (ps t) s')
    (hr : ∀ t < 16, c.stores t = true → c.ea t a x % (if f == 1#1 then 8 else 4) = 0 ∧
      stdPages (metBy c b c.stores put s t) c (c.place t) (c.ea t a x) = .ok (ps t)) :
    exec (.std b d a x f) s = .next (byLanes c b c.stores put s) := by
  have hc := (ctx_some h.here).2.2.1
  have hwide : (if f == 1#1 then OpTy.f64 else .f32).wide = (f == 1#1) := by cases f == 1#1 <;> rfl
  have hmet : ∀ n, Storing s (metBy c b c.stores put s n) := Storing.met fun t s' hl => by
    rw [hput]
    exact hl.stdWrites _ _ _ _
  rw [exec_std, execStd, memWord]
  refine frameWith_lanes h.here h.checks h.flows hshort (fun t ht hq => ?_) fun t hs => (Bool.and_eq_true_iff.mp hs).1
  have hth := (hmet t).threads.thread hc t
  by_cases hs : c.stores t = true
  · obtain ⟨hal, hpages⟩ := hr t ht hs
    rw [if_pos hs, hput]
    exact stdLane_of_pages ((hmet t).calm hp hc) (hth.trans (Bool.and_eq_true_iff.mp hs).2) (by rw [hwide]) hal hpages
  · rw [if_neg hs]
    exact stdLane_of_helper (hth.trans (by simpa [Ctx.stores, hq] using hs))

/-- Lane `t` alone stores. -/
def StoresAlone (c : Ctx) (t : Nat) : Prop := ∀ u < 16, c.stores u = decide (u = t)

theorem StoresAlone.eq {c : Ctx} {t u : Nat} (h : StoresAlone c t) (hu : u < 16) (hs : c.stores u = true) : u = t := by
  rw [h u hu] at hs
  exact of_decide_eq_true hs

/-- The state that a lane meets which stores alone: no lane has had its turn. -/
theorem metBy_of_alone {c : Ctx} {last : Bool} {put : Nat → State → State} {s : State} {t : Nat} (ht : t < 16)
    (h : StoresAlone c t) : metBy c last c.stores put s t = if last then setPcs c s else s := by
  have hnone : (List.range t).filter c.stores = [] := by
    rw [List.filter_eq_nil_iff]
    intro u hu
    have hut := List.mem_range.mp hu
    simp [h u (by omega), Nat.ne_of_lt hut]
  rw [metBy, hnone]
  rfl

theorem Loading.rawBlock {s s' : State} (h : Loading s s') {g : Page} (hr : RawBlock s g) : RawBlock s' g := by
  rw [RawBlock, h.desc]
  exact hr

theorem zip_range_of_le {m n : Nat} (h : m ≤ n) : (List.range m).zip (List.range n) = (List.range m).map fun k => (k, k) := by
  apply List.ext_getElem (by simp [h])
  intro i h1 h2
  simp

/-- The writes of STD to a dual page, part by part. -/
theorem stdWrites_dual (c : Ctx) (n : Nat) (v : Val) (a : Nat) (g : Page) {m : Nat} (hm : m ≤ 8) (adr : Nat → Nat)
    (gs : Nat → Page) (s : State) : stdWrites c n v ((a, g) :: (List.range m).map fun k => (adr k, gs k)) s =
      (List.range m).foldl (fun s k =>
        (s.physWrite (gs k) (leBytes n (v.tan.getD k 0).toNat)).wrote c.cr.part c.scope (adr k) n)
        ((s.physWrite g (leBytes n v.bits.toNat)).wrote c.cr.part c.scope a n) := by
  rw [stdWrites, List.zip_cons_cons, List.zip_map, zip_range_of_le hm, List.map_map, List.foldl_cons, List.foldl_map]
  rfl

theorem exec_std_alone {b : Bool} {d a x : BitVec 6} {f : BitVec 1} {s : State} {c : Ctx} {t : Nat} {g : Page} {e dt : Nat}
    {gs : Nat → Page} (h : WordReady (.std b d a x f) s c) (hp : PlainAccess s c) (ht : t < 16) (halone : StoresAlone c t)
    (hshort : poolShort s c (fun t => (lddParts s c (c.place t) (c.ea t a x) 8).map fun y => y / 64) = false)
    (hr : reaches s c (c.ea t a x) (if f == 1#1 then 8 else 4) { write := true } g) (hraw : RawBlock s g)
    (hd : g.dual = some (e, dt)) (htan : ∀ k < min 8 dt,
      reaches s c (c.ea t a x + (k + 1) * 2 ^ e) (if f == 1#1 then 8 else 4) { write := true } (gs k) ∧ RawBlock s (gs k)) :
    exec (.std b d a x f) s = .next (byLanes c b c.stores (fun u s' => stdWrites c (if f == 1#1 then 8 else 4)
      (c.opnd u (if f == 1#1 then .f64 else .f32) d)
      ((c.ea t a x, g) :: (List.range (min 8 dt)).map fun k => (c.ea t a x + (k + 1) * 2 ^ e, gs k)) s') s) := by
  refine exec_std_of_pages h hp hshort (fun _ _ => rfl) fun u hu hs => ?_
  obtain rfl := halone.eq hu hs
  have hmoved := Loading.moved c b s
  rw [metBy_of_alone hu halone]
  exact ⟨hr.1, stdPages_dual (hmoved.calm hp (ctx_some h.here).2.2.1).unfilled _ (hmoved.reaches hr) hd (hmoved.rawBlock hraw)
    fun k hk => ⟨hmoved.reaches (htan k hk).1, hmoved.rawBlock (htan k hk).2⟩⟩

/-! ### BHDR.wr (R191, R214) -/

/-- Translation reads memory, the partitions' roots and what memory is withdrawn. -/
theorem Storing.reaches {s s' : State} (h : Storing s s') (hm : s'.mem = s.mem) {c : Ctx} {a n : Nat} {q : Ask} {g : Page}
    (hr : reaches s c a n q g) : reaches s' c a n q g := by
  obtain ⟨-, _, _, _, _, _, _, rfl⟩ := h
  obtain rfl : _ = s.mem := hm
  exact hr

theorem Calm.setDesc {s : State} {c : Ctx} (h : Calm s c) (g : Page) (x : BitVec 16) : Calm (s.setDesc g x) c :=
  ⟨h.crew, h.faults, h.watch⟩

theorem eltOf_isSome {n : Nat} (h : n ≤ 0x0A) : (eltOf n).isSome = true := by
  have hall : ∀ n < 11, (eltOf n).isSome = true := by decide
  exact hall n (by omega)

theorem bhdrWrLane_of_helper {s : State} {c : Ctx} {addr val : Nat → Nat} {t : Nat}
    (h : (s.thread? c.ci (c.place t)).isSome = false) : bhdrWrLane c addr val s t = s := by
  rw [bhdrWrLane, Option.isSome_eq_false_iff.mp h |> Option.isNone_iff_eq_none.mp]

theorem bhdrWrLane_of_reaches {s : State} {c : Ctx} {addr val : Nat → Nat} {t : Nat} {g : Page} (h : Calm s c)
    (hth : (s.thread? c.ci (c.place t)).isSome = true) (hv : val t % 2 ^ 16 % 256 ≤ 0x0A)
    (hr : reaches s c (addr t) 64 { write := true } g) (ht : g.typed = true) :
    bhdrWrLane c addr val s t =
      s.setDesc g (BitVec.ofNat 16 (if val t % 2 ^ 16 % 256 = 0 then 0 else val t % 2 ^ 16)) := by
  obtain ⟨th, hth⟩ := Option.isSome_iff_exists.mp hth
  have hnone : (eltOf (Num.descFmt (val t % 2 ^ 16))).isNone = false := by
    rw [Num.descFmt, ← Option.not_isSome, eltOf_isSome hv]
    rfl
  rw [bhdrWrLane, hth]
  simp only [hr.1, hnone, ne_eq, not_true_eq_false, if_false, Bool.false_eq_true,
    sttPages_plain h.unfilled _ hr ht, afterAcc, List.foldl_cons, List.foldl_nil, (h.setDesc _ _).replayed]
  rfl

theorem exec_bhdrWr_of_reaches {b : Bool} {d a : BitVec 6} {s : State} {c : Ctx} {g : Nat → Page} {put : Nat → State → State}
    (h : WordReady (.bhdrWr b d a) s c) (hp : PlainAccess s c)
    (hshort : poolShort s c (fun t => oneBlock (c.prim t .i64 a).toNat) = false)
    (hput : ∀ t s', put t s' = s'.setDesc (g t)
      (BitVec.ofNat 16 (if (c.r32 t d).toNat % 2 ^ 16 % 256 = 0 then 0 else (c.r32 t d).toNat % 2 ^ 16)))
    (hr : ∀ t < 16, c.stores t = true → (c.r32 t d).toNat % 2 ^ 16 % 256 ≤ 0x0A ∧
      reaches s c (c.prim t .i64 a).toNat 64 { write := true } (g t) ∧ (g t).typed = true) :
    exec (.bhdrWr b d a) s = .next (byLanes c b c.stores put s) ∧ (byLanes c b c.stores put s).mem = s.mem := by
  have hc := (ctx_some h.here).2.2.1
  have hmet : ∀ n, Storing s (metBy c b c.stores put s n) ∧ (metBy c b c.stores put s n).mem = s.mem :=
    metBy_keeps (fun s' => Storing s s' ∧ s'.mem = s.mem) ⟨.moved c b s, moved_mem c b s⟩ fun t s' _ hs' => by
      rw [hput]
      exact ⟨hs'.1.setDesc _ _, hs'.2⟩
  rw [exec_bhdrWr, execBhdrWr, memWord]
  refine ⟨frameWith_lanes h.here h.checks h.flows hshort (fun t ht hq => ?_) fun t hs => (Bool.and_eq_true_iff.mp hs).1,
    (finish_mem b _).trans (hmet 16).2⟩
  obtain ⟨hl, hm⟩ := hmet t
  have hth := hl.threads.thread hc t
  by_cases hs : c.stores t = true
  · obtain ⟨hv, hreach, htyped⟩ := hr t ht hs
    rw [if_pos hs, hput]
    exact bhdrWrLane_of_reaches (hl.calm hp hc) (hth.trans (Bool.and_eq_true_iff.mp hs).2) hv (hl.reaches hm hreach) htyped
  · rw [if_neg hs]
    exact bhdrWrLane_of_helper (hth.trans (by simpa [Ctx.stores, hq] using hs))

/-! ### STT (R61, R211, R213) -/

/-- The block that STT stores for part `j`: the array's, or zeros of the format where the register holds no such tangent. -/
def sttBlock (c : Ctx) (wide : Bool) (f src n j : Nat) : List Byte × Nat × Num.Flags :=
  if j ≤ c.t then Num.packBlock f c.mode (sttArray c.cr wide src n j) else (List.replicate 64 0, f, {})

/-- What STT writes in a lane: each part's block with its descriptor, and then the flags of the primal's conversions. -/
def sttWrites (c : Ctx) (t : Nat) (wide : Bool) (f src n : Nat) (parts : List (Nat × Page)) (s : State) : State :=
  (parts.zipIdx.foldl (fun (s : State) (x : (Nat × Page) × Nat) =>
    ((s.physWrite x.1.2 (sttBlock c wide f src n x.2).1).setDesc x.1.2
      (BitVec.ofNat 16 (sttBlock c wide f src n x.2).2.1)).wrote c.cr.part c.scope x.1.1 64) s).setFlags c.ci (c.place t)
    ((sttBlock c wide f src n 0).2.2.or { inv := sttSNaN c.cr wide src n }).toBits

/-- A packed block has 64 bytes (R61). -/
theorem length_sttBlock (c : Ctx) (wide : Bool) {f : Nat} (src n j : Nat) (h : f ≤ 0x0A) :
    (sttBlock c wide f src n j).1.length = 64 := by
  obtain ⟨e, he⟩ := Option.isSome_iff_exists.mp (eltOf_isSome h)
  unfold sttBlock
  split
  · simp only [Num.packBlock, he, leBytes_length]
  · simp

theorem sttLane_of_helper {s : State} {c : Ctx} {dual wide : Bool} {addr src fmt : Nat → Nat} {t : Nat}
    (h : (s.thread? c.ci (c.place t)).isSome = false) : sttLane c dual wide addr src fmt s t = s := by
  rw [sttLane, Option.isSome_eq_false_iff.mp h |> Option.isNone_iff_eq_none.mp]

theorem eltOf_ne_raw {n : Nat} (h0 : 0 < n) (h : n ≤ 0x0A) : ∃ e, eltOf n = some e ∧ e ≠ .raw := by
  have hall : ∀ n < 11, 0 < n → (eltOf n).any (fun e => decide (e ≠ .raw)) = true := by decide
  obtain ⟨e, he, hraw⟩ := (Option.any_eq_true ..).mp (hall n (by omega) h0)
  exact ⟨e, he, of_decide_eq_true hraw⟩

theorem sttLane_of_pages {s : State} {c : Ctx} {dual wide : Bool} {addr src fmt : Nat → Nat} {t n w : Nat}
    {parts : List (Nat × Page)} {e : Elt} (h : Calm s c) (hth : (s.thread? c.ci (c.place t)).isSome = true)
    (ha : addr t % 64 = 0) (he : eltOf (fmt t % 256) = some e) (hraw : e ≠ .raw) (hn : e.perBlock = n)
    (hw : (if wide then 8 else 4) = w) (hal : src t % w = 0)
    (hin : src t + (if dual then 1 + c.t else 1) * n * w ≤ c.cr.alloc)
    (hx : sttPages s c (c.place t) (addr t) dual = .ok parts) :
    sttLane c dual wide addr src fmt s t = sttWrites c t wide (fmt t % 256) (src t) n parts s := by
  obtain ⟨th, hth⟩ := Option.isSome_iff_exists.mp hth
  obtain ⟨ls, hls⟩ := h.crew
  rw [sttLane, hth]
  simp only [ha, ne_eq, not_true_eq_false, if_false, he, hraw, hw, hal, hn, Nat.not_lt.mpr hin, hx, afterAcc,
    h.unfilled.plumbAll h.watch, Bool.false_eq_true, hls, Option.getD_some]
  refine congrArg (fun s : State => s.setFlags _ _ _) (foldl_congr_of (P := fun s => Calm s c) h fun s' hs' x => ?_)
  have hcalm := ((hs'.physWrite x.1.2 (sttBlock c wide (fmt t % 256) (src t) n x.2).1).setDesc x.1.2
    (BitVec.ofNat 16 (sttBlock c wide (fmt t % 256) (src t) n x.2).2.1)).wrote c.cr.part c.scope x.1.1 64
  exact ⟨hcalm.replayed _ _, hcalm⟩

theorem Storing.sttWrites {s s' : State} (h : Storing s s') (c : Ctx) (t : Nat) (wide : Bool) (f src n : Nat)
    (parts : List (Nat × Page)) : Storing s (sttWrites c t wide f src n parts s') :=
  Storing.setFlags (foldl_keeps (P := Storing s) h fun _ _ _ hs => ((hs.physWrite _ _).setDesc _ _).wrote _ _ _ _) _ _ _

theorem sttWrites_byte {c : Ctx} {t : Nat} {wide : Bool} {f src n : Nat} {parts : List (Nat × Page)} {s : State} {z : Nat}
    (hf : s.formed) (hfmt : f ≤ 0x0A) (hz : ∀ x ∈ parts, ¬ x.2.covers 64 z) :
    (sttWrites c t wide f src n parts s).formed ∧ (sttWrites c t wide f src n parts s).mem.byte z = s.mem.byte z := by
  refine foldl_keeps (P := fun s' => s'.formed ∧ s'.mem.byte z = s.mem.byte z) ⟨hf, rfl⟩ fun x hx s' hs' => ?_
  refine ⟨wrote_formed (State.setDesc_formed _ _ _ (State.physWrite_formed _ _ _ hs'.1)) _ _ _ _,
    (wrote_byte _ _ _ _ _ _).trans ?_⟩
  exact (physWrite_byte hs'.1 (by
    rw [length_sttBlock c wide src n _ hfmt]
    exact hz _ (List.fst_mem_of_mem_zipIdx hx))).trans hs'.2

theorem exec_stt_of_pages {b : Bool} {d a x : BitVec 6} {u y : BitVec 1} {s : State} {c : Ctx} {ps : Nat → List (Nat × Page)}
    {n : Nat → Nat} {put : Nat → State → State} (h : WordReady (.stt b d a x u y) s c) (hp : PlainAccess s c)
    (hshort : poolShort s c (fun t => (typedParts s c (c.place t) (c.prim t .i64 a).toNat 8 (u == 1#1)).map fun z => z / 64) =
      false)
    (hn : ∀ t, n t = ((eltOf ((c.r32 t x).toNat % 256)).map Elt.perBlock).getD 0)
    (hput : ∀ t s', put t s' =
      sttWrites c t (y == 1#1) ((c.r32 t x).toNat % 256) (c.r32 t d).toNat (n t) (ps t) s')
    (hr : ∀ t < 16, c.stores t = true → (c.prim t .i64 a).toNat % 64 = 0 ∧
      (c.r32 t d).toNat % (if y == 1#1 then 8 else 4) = 0 ∧ 0 < (c.r32 t x).toNat % 256 ∧ (c.r32 t x).toNat % 256 ≤ 0x0A ∧
      (c.r32 t d).toNat + (if u == 1#1 then 1 + c.t else 1) * n t * (if y == 1#1 then 8 else 4) ≤ c.cr.alloc ∧
      sttPages (metBy c b c.stores put s t) c (c.place t) (c.prim t .i64 a).toNat (u == 1#1) = .ok (ps t)) :
    exec (.stt b d a x u y) s = .next (byLanes c b c.stores put s) := by
  have hc := (ctx_some h.here).2.2.1
  have hmet : ∀ n, Storing s (metBy c b c.stores put s n) := Storing.met fun t s' hl => by
    rw [hput]
    exact hl.sttWrites _ _ _ _ _ _ _
  rw [exec_stt, execStt, memWord]
  refine frameWith_lanes h.here h.checks h.flows hshort (fun t ht hq => ?_) fun t hs => (Bool.and_eq_true_iff.mp hs).1
  have hth := (hmet t).threads.thread hc t
  by_cases hs : c.stores t = true
  · obtain ⟨ha, hal, h0, hle, hin, hpages⟩ := hr t ht hs
    obtain ⟨e, he, hraw⟩ := eltOf_ne_raw h0 hle
    have hnt : e.perBlock = n t := by rw [hn, he]; rfl
    rw [if_pos hs, hput]
    exact sttLane_of_pages ((hmet t).calm hp hc) (hth.trans (Bool.and_eq_true_iff.mp hs).2) ha he hraw hnt rfl hal hin hpages
  · rw [if_neg hs]
    exact sttLane_of_helper (hth.trans (by simpa [Ctx.stores, hq] using hs))

/-- The primal's block and signalling NaNs, read from the scratchpad's elements. -/
theorem sttArray_zero (cr : Crew) (wide : Bool) (src n : Nat) : sttArray cr wide src n 0 =
    ((List.range n).map fun i => cr.scratch.nat (src + i * (if wide then 8 else 4)) (if wide then 8 else 4)).map
      (decodeF (if wide then fp64 else fp32)) := by
  simp only [sttArray, Nat.zero_mul, Nat.zero_add, List.map_map]
  rfl

theorem sttSNaN_eq (cr : Crew) (wide : Bool) (src n : Nat) : sttSNaN cr wide src n =
    ((List.range n).map fun i => cr.scratch.nat (src + i * (if wide then 8 else 4)) (if wide then 8 else 4)).any
      (isSNaN (if wide then fp64 else fp32)) := by
  rw [List.any_map]
  rfl

end Sys2Proof.Machine

open Sys2Proof Sys2Proof.Machine
open Sys2Proof.Num (XR eltOf fp32 fp64 decodeF isSNaN roundX toInteger blockScale)

/-- Settles O22: each lane that holds a thread writes its parts in their order, and the scale of a packed block is the least of
its range at which its largest finite magnitude is held. -/
theorem dualStores : Obligations.DualStores := by
  unfold Obligations.DualStores
  refine ⟨fun b d a x f s c ps h hp hshort hr => ?std, fun s c p a n g hc hf hr => ?stdPages,
    fun b d a x f s c t g e dt gs h hp ht halone hshort hr hraw hd htan => ?stdAlone,
    fun b d a s c g h hp hshort hr => exec_bhdrWr_of_reaches h hp hshort (fun _ _ => rfl) hr,
    fun b d a x u y s c ps h hp hshort hr => ?stt, fun s c p a u g hc hf hr => ?sttPages,
    fun b d a x y s c t g h hp ht halone hshort hr htyped hal h0 hle hin => ?sttAlone,
    fun fmt e mode xs he hraw hlen => ?pack, Num.fmax_table⟩
  case std =>
    refine ⟨exec_std_of_pages h hp hshort (fun _ _ => rfl) hr, fun hf z hz => byLanes_byte hf fun t ht hs s' hs' => ?_⟩
    exact stdWrites_byte hs' (hz t ht hs)
  case stdPages =>
    have u : Unfilled s c := .of_no_faults hc hf
    exact ⟨fun e dt gs hd hraw htan => stdPages_dual u p hr hd hraw htan, fun hd => stdPages_not_dual u p hr hd⟩
  case stdAlone =>
    rw [exec_std_alone h hp ht halone hshort hr hraw hd htan]
    refine congrArg Host.Outcome.next (byLanes_congr fun u hu hs s' => ?_)
    obtain rfl := StoresAlone.eq halone hu hs
    exact stdWrites_dual c _ _ _ g (Nat.min_le_left 8 dt) _ gs s'
  case stt =>
    have hnan (t n : Nat) : sttSNaN c.cr (y == 1#1) (c.r32 t d).toNat n = (List.range n).any fun i =>
        isSNaN (if y == 1#1 then fp64 else fp32)
          (c.cr.scratch.nat ((c.r32 t d).toNat + (0 * n + i) * (if y == 1#1 then 8 else 4)) (if y == 1#1 then 8 else 4)) := by
      simp only [Nat.zero_mul, Nat.zero_add]
      rfl
    refine ⟨exec_stt_of_pages h hp hshort (fun _ => rfl) (fun t s' => by rw [sttWrites, hnan]; rfl) hr, fun hf z hz => ?_⟩
    rw [byLanes_congr (put' := fun t s' => sttWrites c t (y == 1#1) ((c.r32 t x).toNat % 256) (c.r32 t d).toNat
      (((eltOf ((c.r32 t x).toNat % 256)).map Num.Elt.perBlock).getD 0) (ps t) s') fun t _ _ s' => by rw [sttWrites, hnan]; rfl]
    exact byLanes_byte hf fun t ht hs s' hs' => sttWrites_byte hs' (hr t ht hs).2.2.2.1 (hz t ht hs)
  case sttPages =>
    have u' : Unfilled s c := .of_no_faults hc hf
    exact ⟨fun hu ht => hu ▸ sttPages_plain u' p hr ht, fun e dt gs hu ht hd htan => hu ▸ sttPages_dual u' p hr ht hd htan,
      fun hbad => sttPages_refused u' p hr hbad⟩
  case sttAlone =>
    have hmoved := Loading.moved c b s
    refine (exec_stt_of_pages (ps := fun _ => [((c.prim t .i64 a).toNat, g)]) h hp hshort (fun _ => rfl) (fun _ _ => rfl)
      fun u hu hs => ?_).trans (congrArg Host.Outcome.next (byLanes_congr fun u hu hs s' => ?_))
    · obtain rfl := StoresAlone.eq halone hu hs
      rw [metBy_of_alone hu halone]
      refine ⟨hr.1, hal, h0, hle, ?_, sttPages_plain (hmoved.calm hp (ctx_some h.here).2.2.1).unfilled _ (hmoved.reaches hr) htyped⟩
      simpa using hin
    · obtain rfl := StoresAlone.eq halone hu hs
      rw [sttWrites, sttSNaN_eq, sttBlock, if_pos (Nat.zero_le _), sttArray_zero]
      simp only [List.zipIdx_cons, List.zipIdx_nil, List.foldl_cons, List.foldl_nil, sttBlock, Nat.zero_le, if_true, sttArray_zero]
  case pack =>
    obtain ⟨fl, hpack⟩ := Num.packBlock_eq he mode xs
    obtain ⟨hlo, hhi⟩ := Num.blockScale_bounds e fmt xs
    refine ⟨_, blockScale e fmt xs, fl, hpack, leBytes_length _ _, hlo, hhi, Num.blockScale_of_float, Num.blockScale_of_zeros,
      fun h9 hA hx => Num.blockScale_least (Num.fmax_pos he hraw) h9 hA hx, fun i x hx => ?_⟩
    have helt := Num.packBlock_elt he hraw mode hlen hx
    rw [hpack] at helt
    refine helt.trans ?_
    rw [scale_eq]
    cases e <;> rfl
end

section
/-!
PROOFS. Accesses that trap or park (R190, R203-R205, R208).
-/

namespace Sys2Proof.Machine

open Sys2Proof

/-! ### What a trap or a park of a lane changes -/

theorem isSome_discardRegion (l : Lane) : l.discardRegion.thread?.isSome = l.thread?.isSome := by
  unfold Lane.discardRegion
  split
  next th hocc =>
    split
    · simp [Lane.thread?, hocc]
    · rfl
  next => rfl

theorem discardRegion_outside {l : Lane} {th : Thread} (h : l.thread? = some th) (hr : th.region = none) : l.discardRegion = l := by
  unfold Lane.discardRegion
  split
  next th' hocc =>
    obtain rfl : th' = th := by simpa [Lane.thread?, hocc] using h
    rw [hr]
  next => rfl

namespace SameThreads

theorem updCore (s : State) (k : Nat) (f : Core → Core) : SameThreads s (s.updCore k f) := of_crews rfl

theorem leave (s : State) (t : Nat) : SameThreads s (s.leave t) := of_crews rfl

theorem trapLane (s : State) (t : Nat) (tr : Trap) (a pc : BitVec 56) : SameThreads s (s.trapLane t tr a pc) := by
  unfold State.trapLane
  split
  · exact refl s
  · split
    · exact refl s
    · exact (updThread s _ _ _).trans (leave _ t)

theorem parkLane (s : State) (t : Nat) (p : Park) (pc cont : BitVec 56) : SameThreads s (s.parkLane t p pc cont) := by
  unfold State.parkLane
  split
  · exact refl s
  · split
    · exact refl s
    · exact (updThread s _ _ _).trans (leave _ t)

theorem takeEntryAs (s : State) (ci li a : Nat) (write prot : Bool) : SameThreads s (s.takeEntryAs ci li a write prot).2 := by
  unfold State.takeEntryAs
  split
  · exact refl s
  · dsimp only
    split
    · exact updCore s _ _
    · split
      · exact updCore s _ _
      · exact updCore s _ _

theorem admitFaults (core n : Nat) (s : State) : SameThreads s (State.admitFaults core n s) := by
  induction n generalizing s with
  | zero => exact refl s
  | succ n ih =>
    unfold State.admitFaults
    split
    · exact refl s
    · dsimp only
      split
      · refine (((updCore s _ _).trans (takeEntryAs _ _ _ _ _ _)).trans (updThread _ _ _ _)).trans (ih _)
      · exact refl s

theorem leaveFilled (s : State) (ci : Nat) (p : FaultEntry → FaultWaiter → Bool) : SameThreads s (s.leaveFilled ci p) := by
  unfold State.leaveFilled
  split
  · exact refl s
  · split
    · exact refl s
    · exact (updCore s _ _).trans (admitFaults _ _ _)

theorem failLane (s : State) (c : Ctx) (t : Nat) (tr : Trap) (a : Nat) : SameThreads s (failLane c t tr a s) :=
  (leaveFilled s _ _).trans (trapLane _ _ _ _ _)

end SameThreads

/-- From `s` to `s'` lanes and cores may have changed, but not who holds a lane. -/
structure Failing (s s' : State) : Prop where
  threads : SameThreads s s'
  rest : ∃ crews cores, s' = { s with crews := crews, cores := cores }

namespace Failing

variable {s s' : State}

theorem of_fields (ht : SameThreads s s') {s₀ : State} (h : Failing s₀ s)
    (hr : ∃ crews cores, s' = { s with crews := crews, cores := cores }) : Failing s₀ s' := by
  obtain ⟨hts, _, _, rfl⟩ := h
  obtain ⟨_, _, rfl⟩ := hr
  exact ⟨hts.trans ht, _, _, rfl⟩

theorem moved (c : Ctx) (last : Bool) (s : State) : Failing s (if last then setPcs c s else s) := by
  obtain ⟨crews, h⟩ := moved_fields c last s
  exact ⟨.moved c last s, crews, s.cores, h⟩

theorem trapLane (h : Failing s s') (t : Nat) (tr : Trap) (a pc : BitVec 56) : Failing s (s'.trapLane t tr a pc) := by
  refine of_fields (.trapLane s' t tr a pc) h ?_
  unfold State.trapLane
  split
  · exact ⟨_, _, rfl⟩
  · split
    · exact ⟨_, _, rfl⟩
    · exact ⟨_, _, rfl⟩

theorem parkLane (h : Failing s s') (t : Nat) (p : Park) (pc cont : BitVec 56) : Failing s (s'.parkLane t p pc cont) := by
  refine of_fields (.parkLane s' t p pc cont) h ?_
  unfold State.parkLane
  split
  · exact ⟨_, _, rfl⟩
  · split
    · exact ⟨_, _, rfl⟩
    · exact ⟨_, _, rfl⟩

theorem takeEntry (h : Failing s s') (ci li a : Nat) (write : Bool) : Failing s (s'.takeEntry ci li a write).2 := by
  refine of_fields (.takeEntryAs s' ci li a write _) h ?_
  unfold State.takeEntryAs
  split
  · exact ⟨_, _, rfl⟩
  · dsimp only
    split
    · exact ⟨_, _, rfl⟩
    · split
      · exact ⟨_, _, rfl⟩
      · exact ⟨_, _, rfl⟩

theorem faultLane (h : Failing s s') (t a : Nat) (write : Bool) (pc : BitVec 56) : Failing s (s'.faultLane t a write pc) := by
  unfold State.faultLane
  split
  · exact h
  · split
    · exact h
    · exact of_fields (.updLane _ _ _ _ isSome_discardRegion) ((h.takeEntry _ _ _ _).parkLane _ _ _ _) ⟨_, _, rfl⟩

theorem xlat (h : Failing s s') (p va : Nat) (q : Ask) : s'.xlat p va q = s.xlat p va q := by
  obtain ⟨-, _, _, rfl⟩ := h
  rfl

end Failing

/-! ### The fault buffer of a core -/

theorem core_updCore (s : State) (k j : Nat) (f : Core → Core) :
    (s.updCore k f).core j = if k = j ∧ j < s.cores.length then f (s.core j) else s.core j := by
  simp only [State.core, State.updCore_cores, List.getD_eq_getElem?_getD, List.getElem?_modify]
  by_cases hj : j < s.cores.length
  · by_cases hk : k = j <;> simp [hk, hj]
  · simp [hj]

/-- What a change of a core leaves of another part of it. -/
theorem part_updCore {α : Type} (part : Core → α) {f : Core → Core} (hf : ∀ co, part (f co) = part co) (s : State) (k j : Nat) :
    part ((s.updCore k f).core j) = part (s.core j) := by
  rw [core_updCore]
  split
  · exact hf _
  · rfl

theorem faults_leave (s : State) (t j : Nat) : ((s.leave t).core j).faults = (s.core j).faults := by
  unfold State.leave State.updGroup
  exact part_updCore Core.faults (by intro; rfl) s _ j

theorem faults_trapLane (s : State) (t : Nat) (tr : Trap) (a pc : BitVec 56) (j : Nat) :
    ((s.trapLane t tr a pc).core j).faults = (s.core j).faults := by
  unfold State.trapLane
  split
  · rfl
  · split
    · rfl
    · exact faults_leave _ t j

theorem faults_parkLane (s : State) (t : Nat) (p : Park) (pc cont : BitVec 56) (j : Nat) :
    ((s.parkLane t p pc cont).core j).faults = (s.core j).faults := by
  unfold State.parkLane
  split
  · rfl
  · split
    · rfl
    · exact faults_leave _ t j

/-- A new entry, and one that gets another waiter, is not filled. -/
theorem takeEntryAs_unfilled {s : State} {j : Nat} (h : ∀ e ∈ (s.core j).faults, e.fill = none) (ci li a : Nat)
    (write prot : Bool) : ∀ e ∈ ((s.takeEntryAs ci li a write prot).2.core j).faults, e.fill = none := by
  have hupd {k : Nat} {f : Core → Core} (hf : ∀ e ∈ (f (s.core j)).faults, e.fill = none) :
      ∀ e ∈ ((s.updCore k f).core j).faults, e.fill = none := by
    rw [core_updCore]
    split
    · exact hf
    · exact h
  unfold State.takeEntryAs
  split
  · exact h
  · dsimp only
    split
    · refine hupd fun e he => ?_
      obtain ⟨e', he', rfl⟩ := List.mem_map.mp he
      split
      · exact h e' he'
      · exact h e' he'
    · split
      · refine hupd fun e he => ?_
        rcases List.mem_append.mp he with he | he
        · exact h e he
        · rw [List.mem_singleton.mp he]
      · exact hupd fun e he => h e he

theorem faultLane_unfilled {s : State} {j : Nat} (h : ∀ e ∈ (s.core j).faults, e.fill = none) (t a : Nat) (write : Bool)
    (pc : BitVec 56) : ∀ e ∈ ((s.faultLane t a write pc).core j).faults, e.fill = none := by
  unfold State.faultLane
  split
  · exact h
  · split
    · exact h
    · dsimp only
      intro e he
      have hpark := (faults_parkLane _ _ _ _ _ j) ▸ he
      exact takeEntryAs_unfilled h _ _ _ _ _ e hpark

/-! ### LD and ST in a lane whose access fails -/

section
variable {s : State} {c : Ctx} {d : Code} {w : BitVec 3} {addr : Nat → Nat} {blocks : Nat → List Nat} {t : Nat}

theorem loadLane_misaligned (hth : (s.thread? c.ci (c.place t)).isSome = true) (hal : addr t % widthBytes w ≠ 0) :
    loadLane c d w addr blocks s t = failLane c t .misaligned 0 s := by
  obtain ⟨th, hth⟩ := Option.isSome_iff_exists.mp hth
  simp [loadLane, hth, hal]

theorem storeLane_misaligned (hth : (s.thread? c.ci (c.place t)).isSome = true) (hal : addr t % widthBytes w ≠ 0) :
    storeLane c d w addr s t = failLane c t .misaligned 0 s := by
  obtain ⟨th, hth⟩ := Option.isSome_iff_exists.mp hth
  simp [storeLane, hth, hal]

theorem loadLane_trap {tr : Trap} {y : Nat} (hth : (s.thread? c.ci (c.place t)).isSome = true)
    (hal : addr t % widthBytes w = 0) (hx : s.load c.ci (c.place t) (addr t) (widthBytes w) = .trap tr y) :
    loadLane c d w addr blocks s t = failLane c t tr y s := by
  obtain ⟨th, hth⟩ := Option.isSome_iff_exists.mp hth
  simp [loadLane, hth, hal, hx, afterAcc]

theorem storeLane_trap {tr : Trap} {y : Nat} (hth : (s.thread? c.ci (c.place t)).isSome = true)
    (hal : addr t % widthBytes w = 0)
    (hx : s.store c.ci (c.place t) (addr t) (widthBytes w) (storeValue c t d w) = .trap tr y) :
    storeLane c d w addr s t = failLane c t tr y s := by
  obtain ⟨th, hth⟩ := Option.isSome_iff_exists.mp hth
  simp [storeLane, hth, hal, hx, afterAcc]

theorem loadLane_fault {y : Nat} {wr : Bool} (hth : (s.thread? c.ci (c.place t)).isSome = true)
    (hal : addr t % widthBytes w = 0) (hx : s.load c.ci (c.place t) (addr t) (widthBytes w) = .fault y wr) :
    loadLane c d w addr blocks s t = s.faultLane t y wr c.start := by
  obtain ⟨th, hth⟩ := Option.isSome_iff_exists.mp hth
  simp [loadLane, hth, hal, hx, afterAcc]

theorem storeLane_fault {y : Nat} {wr : Bool} (hth : (s.thread? c.ci (c.place t)).isSome = true)
    (hal : addr t % widthBytes w = 0)
    (hx : s.store c.ci (c.place t) (addr t) (widthBytes w) (storeValue c t d w) = .fault y wr) :
    storeLane c d w addr s t = s.faultLane t y wr c.start := by
  obtain ⟨th, hth⟩ := Option.isSome_iff_exists.mp hth
  simp [storeLane, hth, hal, hx, afterAcc]

end

/-- LD, or ST, which asks to write (R190). -/
def Plain (i : Instr) (q : Ask) (b : Bool) (d a x : BitVec 6) (w : BitVec 3) : Prop :=
  (i = .ld b d a x w ∧ q = {}) ∨ (i = .st b d a x w ∧ q = { write := true })

/-- The turn of a lane of LD or ST. -/
def plainLane (c : Ctx) (d a x : BitVec 6) (w : BitVec 3) (q : Ask) (s : State) (t : Nat) : State :=
  if q.write then storeLane c d w (fun t => c.ea t a x) s t
  else loadLane c d w (fun t => c.ea t a x) (fun t => oneBlock (c.ea t a x)) s t

section
variable {i : Instr} {q : Ask} {b : Bool} {d a x : BitVec 6} {w : BitVec 3} {s : State} {c : Ctx} {put : Nat → State → State}

theorem exec_plain (hi : Plain i q b d a x w) (h : WordReady i s c)
    (hshort : poolShort s c (fun t => oneBlock (c.ea t a x)) = false)
    (hturn : ∀ t < 16, c.exec t = true →
      plainLane c d a x w q (metBy c b c.exec put s t) t = put t (metBy c b c.exec put s t)) :
    exec i s = .next (byLanes c b c.exec put s) := by
  rcases hi with ⟨rfl, rfl⟩ | ⟨rfl, rfl⟩
  · rw [exec_ld, execLd, memWord]
    refine frameWith_lanes h.here h.checks h.flows hshort (fun t ht hq => ?_) fun _ h => h
    rw [if_pos hq]
    exact hturn t ht hq
  · rw [exec_st, execSt, memWord]
    refine frameWith_lanes h.here h.checks h.flows hshort (fun t ht hq => ?_) fun _ h => h
    rw [if_pos hq]
    exact hturn t ht hq

theorem plainLane_misaligned {t : Nat} (hth : (s.thread? c.ci (c.place t)).isSome = true)
    (hal : c.ea t a x % widthBytes w ≠ 0) : plainLane c d a x w q s t = failLane c t .misaligned 0 s := by
  rw [plainLane]
  split
  · exact storeLane_misaligned hth hal
  · exact loadLane_misaligned hth hal

/-- An access that translation refuses, or beyond the address space, traps. -/
theorem plainLane_refused (hi : Plain i q b d a x w) (u : Unfilled s c) {t cause adr : Nat}
    (hth : (s.thread? c.ci (c.place t)).isSome = true) (hal : c.ea t a x % widthBytes w = 0)
    (hx : (c.ea t a x < 2 ^ 56 ∧ isWindow (c.ea t a x) = false ∧
        s.xlat c.cr.part (c.ea t a x) q = .trap (.fault cause) adr) ∨
      (2 ^ 56 ≤ c.ea t a x ∧ cause = 0 ∧ adr = c.ea t a x % 2 ^ 56)) :
    plainLane c d a x w q s t = failLane c t (.fault cause) adr s := by
  rcases hi with ⟨-, rfl⟩ | ⟨-, rfl⟩
  · rw [plainLane, if_neg Bool.false_ne_true]
    refine loadLane_trap hth hal ?_
    rcases hx with ⟨hlt, hw, hx⟩ | ⟨hge, rfl, rfl⟩
    · rw [u.load _ _ hlt hw, hx]
      rfl
    · exact u.load_beyond _ _ hge
  · rw [plainLane, if_pos rfl]
    refine storeLane_trap hth hal ?_
    rcases hx with ⟨hlt, hw, hx⟩ | ⟨hge, rfl, rfl⟩
    · rw [u.store _ _ _ hlt hw, hx]
      rfl
    · exact u.store_beyond _ _ _ hge

/-- An access that no valid entry maps, or whose page admits no write, parks. -/
theorem plainLane_unmapped (hi : Plain i q b d a x w) (u : Unfilled s c) {t : Nat}
    (hth : (s.thread? c.ci (c.place t)).isSome = true) (hal : c.ea t a x % widthBytes w = 0) (hlt : c.ea t a x < 2 ^ 56)
    (hw : isWindow (c.ea t a x) = false) (hx : s.xlat c.cr.part (c.ea t a x) q = .fault (c.ea t a x) q.write) :
    plainLane c d a x w q s t = s.faultLane t (c.ea t a x) q.write c.start := by
  rcases hi with ⟨-, rfl⟩ | ⟨-, rfl⟩
  · rw [plainLane, if_neg Bool.false_ne_true]
    refine loadLane_fault hth hal ?_
    rw [u.load _ _ hlt hw, hx]
    rfl
  · rw [plainLane, if_pos rfl]
    refine storeLane_fault hth hal ?_
    rw [u.store _ _ _ hlt hw, hx]
    rfl

theorem exec_plain_misaligned (hi : Plain i q b d a x w) (h : WordReady i s c)
    (hshort : poolShort s c (fun t => oneBlock (c.ea t a x)) = false)
    (hal : ∀ t < 16, c.exec t = true → (c.lane t).thread?.isSome = true ∧ c.ea t a x % widthBytes w ≠ 0) :
    exec i s = .next (byLanes c b c.exec (fun t s' => failLane c t .misaligned 0 s') s) := by
  have hmet := metBy_keeps (c := c) (last := b) (p := c.exec) (put := fun t s' => failLane c t .misaligned 0 s')
    (SameThreads s) (.moved c b s) fun t s' _ hs' => hs'.trans (.failLane s' c t _ _)
  refine exec_plain hi h hshort fun t ht hq => ?_
  obtain ⟨hth, hodd⟩ := hal t ht hq
  exact plainLane_misaligned (((hmet t).thread (ctx_some h.here).2.2.1 t).trans hth) hodd

theorem exec_plain_refused {cause adr : Nat → Nat} (hi : Plain i q b d a x w) (h : WordReady i s c) (hp : PlainAccess s c)
    (hshort : poolShort s c (fun t => oneBlock (c.ea t a x)) = false)
    (hx : ∀ t < 16, c.exec t = true → (c.lane t).thread?.isSome = true ∧ c.ea t a x % widthBytes w = 0 ∧
      ((c.ea t a x < 2 ^ 56 ∧ isWindow (c.ea t a x) = false ∧
          s.xlat c.cr.part (c.ea t a x) q = .trap (.fault (cause t)) (adr t)) ∨
        (2 ^ 56 ≤ c.ea t a x ∧ cause t = 0 ∧ adr t = c.ea t a x % 2 ^ 56))) :
    exec i s = .next (byLanes c b c.exec (fun t s' => failLane c t (.fault (cause t)) (adr t) s') s) := by
  have hc := (ctx_some h.here).2.2.1
  have hmet := metBy_keeps (c := c) (last := b) (p := c.exec) (put := fun t s' => failLane c t (.fault (cause t)) (adr t) s')
    (s := s) (fun s' => Failing s s' ∧ (s'.core c.cr.core).faults = (s.core c.cr.core).faults)
    ⟨.moved c b s, by rw [State.core, moved_cores, State.core]⟩ fun t s' _ ⟨hf, hfaults⟩ => by
      have hcalm : Calm s' c := hp.calm hc hf.threads hfaults
      rw [failLane, hcalm.abandoned]
      exact ⟨hf.trapLane _ _ _ _, (faults_trapLane _ _ _ _ _ _).trans hfaults⟩
  refine exec_plain hi h hshort fun t ht hq => ?_
  obtain ⟨hf, hfaults⟩ := hmet t
  obtain ⟨hth, hal, hx⟩ := hx t ht hq
  exact plainLane_refused hi (hp.calm hc hf.threads hfaults).unfilled ((hf.threads.thread hc t).trans hth) hal
    (by rw [hf.xlat]; exact hx)

theorem exec_plain_unmapped (hi : Plain i q b d a x w) (h : WordReady i s c) (hp : PlainAccess s c)
    (hshort : poolShort s c (fun t => oneBlock (c.ea t a x)) = false)
    (hx : ∀ t < 16, c.exec t = true → (c.lane t).thread?.isSome = true ∧ c.ea t a x % widthBytes w = 0 ∧
      c.ea t a x < 2 ^ 56 ∧ isWindow (c.ea t a x) = false ∧
      s.xlat c.cr.part (c.ea t a x) q = .fault (c.ea t a x) q.write) :
    exec i s = .next (byLanes c b c.exec (fun t s' => s'.faultLane t (c.ea t a x) q.write c.start) s) := by
  have hc := (ctx_some h.here).2.2.1
  have hmet := metBy_keeps (c := c) (last := b) (p := c.exec) (put := fun t s' => s'.faultLane t (c.ea t a x) q.write c.start)
    (s := s) (fun s' => Failing s s' ∧ ∀ e ∈ (s'.core c.cr.core).faults, e.fill = none)
    ⟨.moved c b s, by rw [State.core, moved_cores, ← State.core, hp.faults]; simp⟩ fun t s' _ ⟨hf, hfill⟩ =>
      ⟨hf.faultLane _ _ _ _, faultLane_unfilled hfill _ _ _ _⟩
  refine exec_plain hi h hshort fun t ht hq => ?_
  obtain ⟨hf, hfill⟩ := hmet t
  obtain ⟨hth, hal, hlt, hw, hx⟩ := hx t ht hq
  exact plainLane_unmapped hi ⟨hf.threads.crew hc, hfill⟩ ((hf.threads.thread hc t).trans hth) hal hlt hw
    (by rw [hf.xlat]; exact hx)

end

/-! ### What translation answers (R190) -/

theorem xlat_of_miss {s : State} {p va : Nat} (q : Ask) (h : walk s.mem va levels (s.part p).root = .miss) :
    s.xlat p va q = .fault va q.write := by
  rw [State.xlat, h]

theorem xlat_of_bad {s : State} {p va : Nat} (q : Ask) (h : walk s.mem va levels (s.part p).root = .bad) :
    s.xlat p va q = .trap (.fault 0) va := by
  rw [State.xlat, h]
  rfl

theorem xlat_of_page {s : State} {p va : Nat} {g : Page} (q : Ask) (h : walk s.mem va levels (s.part p).root = .page g)
    (hout : s.module.pagesOut = []) : s.xlat p va q =
      if g.priv = true ∧ q.device = false then .trap (.fault 1) va
      else if q.fetch = true ∧ g.x = false then .trap (.fault 1) va
      else if q.kindOk g = false then .trap (.fault 4) va
      else if q.write = true ∧ g.w = false then .fault va true else .ok g := by
  have hin : s.pageOut g = false := by simp [State.pageOut, hout]
  simp only [State.xlat, h, hin, Bool.false_eq_true, if_false, State.pageCheck, Bool.and_eq_true, Bool.not_eq_true']
  rfl

/-! ### The thread that traps or parks -/

/-- From `s` to `s'` the groups in the slots stay, and which of them executes. -/
structure SameGroups (s s' : State) : Prop where
  cur : s'.cur = s.cur
  slots : ∀ k, (s'.core k).slots = (s.core k).slots

namespace SameGroups

variable {s s' : State}

theorem refl (s : State) : SameGroups s s := ⟨rfl, fun _ => rfl⟩

theorem trans {s'' : State} (h : SameGroups s s') (h' : SameGroups s' s'') : SameGroups s s'' :=
  ⟨h'.cur.trans h.cur, fun k => (h'.slots k).trans (h.slots k)⟩

theorem updCore {f : Core → Core} (hf : ∀ co, (f co).slots = co.slots) (s : State) (k : Nat) : SameGroups s (s.updCore k f) :=
  ⟨rfl, part_updCore Core.slots hf s k⟩

theorem takeEntryAs (s : State) (ci li a : Nat) (write prot : Bool) : SameGroups s (s.takeEntryAs ci li a write prot).2 := by
  unfold State.takeEntryAs
  split
  · exact refl s
  · dsimp only
    split
    · exact updCore (by intro; rfl) s _
    · split
      · exact updCore (by intro; rfl) s _
      · exact updCore (by intro; rfl) s _

theorem admitFaults (core n : Nat) (s : State) : SameGroups s (State.admitFaults core n s) := by
  induction n generalizing s with
  | zero => exact refl s
  | succ n ih =>
    unfold State.admitFaults
    split
    · exact refl s
    · dsimp only
      split
      · refine trans ?_ (ih _)
        exact (trans (updCore (by intro; rfl) s _) (takeEntryAs _ _ _ _ _ _)).trans ⟨rfl, fun _ => rfl⟩
      · exact refl s

theorem leaveFilled (s : State) (ci : Nat) (p : FaultEntry → FaultWaiter → Bool) : SameGroups s (s.leaveFilled ci p) := by
  unfold State.leaveFilled
  split
  · exact refl s
  · split
    · exact refl s
    · exact trans (updCore (by intro; rfl) s _) (admitFaults _ _ _)

theorem curGroup (h : SameGroups s s') : s'.curGroup? = s.curGroup? := by
  rw [State.curGroup?, State.curGroup?, State.group?, State.group?, h.cur, h.slots]

end SameGroups

/-- The thread in lane `t` of the group, before its word. -/
theorem thread_of_ctx {s : State} {c : Ctx} (hc : s.crews[c.ci]? = some c.cr) (t : Nat) :
    s.thread? c.ci (c.place t) = (c.lane t).thread? := by
  rw [State.thread?, State.lane?, hc, Option.bind_some, Ctx.lane, Ctx.laneAt, List.getD_eq_getElem?_getD]
  cases c.cr.lanes[c.place t]? <;> rfl

section
variable {s s' : State} {c : Ctx} {t : Nat}

theorem lane_of_ctx (ht : t < c.g.lanes.length) : ∃ r, c.g.lanes[t]? = some r ∧ r.place = c.place t := by
  refine ⟨c.g.lanes[t], List.getElem?_eq_getElem ht, ?_⟩
  simp [Ctx.place, ht]

theorem trapLane_thread (h : s'.curGroup? = some c.g) (ht : t < c.g.lanes.length) {tr : Trap} {a pc : BitVec 56} :
    (s'.trapLane t tr a pc).thread? c.ci (c.place t) = (s'.thread? c.ci (c.place t)).map fun th => th.takeTrap tr a pc := by
  obtain ⟨r, hr, hplace⟩ := lane_of_ctx ht
  simp only [State.trapLane, h, hr, hplace]
  exact updThread_thread s' c.ci (c.place t) _

theorem parkLane_lane (h : s'.curGroup? = some c.g) (ht : t < c.g.lanes.length) {p : Park} {pc cont : BitVec 56} :
    (s'.parkLane t p pc cont).lane? c.ci (c.place t) = (s'.lane? c.ci (c.place t)).map fun l =>
      l.updThread fun th => { th with pc := pc, cont := cont, run := .parked p } := by
  obtain ⟨r, hr, hplace⟩ := lane_of_ctx ht
  simp only [State.parkLane, h, hr, hplace]
  exact updLane_lane s' c.ci (c.place t) _

theorem curGroup_of_ctx (h : s.ctx? = some c) : s.curGroup? = some c.g := by
  obtain ⟨hcur, hgroup, -, -⟩ := ctx_some h
  rw [State.curGroup?, hcur]
  exact hgroup

/-- A thread whose access fails stands trapped at its bundle, outside any region, with the trap in its record. -/
theorem failLane_thread (h : s.ctx? = some c) (ht : t < c.g.lanes.length) (hth : (c.lane t).thread?.isSome = true) (tr : Trap) (a : Nat) : ∃ th, (failLane c t tr a s).thread? c.ci (c.place t) = some th ∧
    th.pc = c.start ∧ th.run = .trapping ∧ th.region = none ∧
      ∃ r, th.trap = some r ∧ r.code = tr.code ∧ r.cause = tr.cause ∧ r.addr = BitVec.ofNat 56 a ∧ r.held = true := by
  have hgone := SameThreads.leaveFilled s c.ci fun _ w => w.key == c.place t
  obtain ⟨th, hth⟩ := Option.isSome_iff_exists.mp ((hgone.thread (ctx_some h).2.2.1 t).trans hth)
  refine ⟨th.takeTrap tr (BitVec.ofNat 56 a) c.start, ?_, rfl, rfl, rfl, _, rfl, rfl, rfl, rfl, rfl⟩
  rw [failLane, State.abandoned, trapLane_thread ((SameGroups.leaveFilled s c.ci _).curGroup.trans (curGroup_of_ctx h)) ht,
    hth]
  rfl

/-- The page of a fault holds its address. -/
theorem faultPage_covers (s : State) (ci a : Nat) :
    (s.faultPage ci a).1 ≤ a / 65536 ∧ a / 65536 < (s.faultPage ci a).1 + (s.faultPage ci a).2.1 := by
  unfold State.faultPage
  split
  · split
    · dsimp only
      omega
    · dsimp only
      omega
  · dsimp only
    omega

theorem faultPage_of_big {ci a : Nat} {cr : Crew} {g : Page} (hcr : s.crews[ci]? = some cr)
    (hg : walk s.mem a levels (s.part cr.part).root = .page g) (hbig : g.big = true) :
    s.faultPage ci a = (a / 2 ^ 21 * 32, 32, true) := by
  simp only [State.faultPage, hcr, Option.map_some, Option.getD_some, hg, hbig, if_true]

/-- A fault with room on its core's buffer stands in an entry there, for the page that it lies on. -/
theorem takeEntry_of_room (hc : s.crews[c.ci]? = some c.cr) {li a : Nat} {write : Bool}
    (hroom : (s.core c.cr.core).faults.length < Config.faultEntries) (hcore : c.cr.core < s.cores.length) :
    (s.takeEntry c.ci li a write).1 = true ∧ (s.takeEntry c.ci li a write).2.crews = s.crews ∧
      ∃ e ∈ ((s.takeEntry c.ci li a write).2.core c.cr.core).faults, e.crew = c.ci ∧ e.page ≤ a / 65536 ∧
        a / 65536 < e.page + e.span ∧ e.write = write ∧ ∃ w ∈ e.waiters, w.key = li ∧ w.addr = a := by
  simp only [State.takeEntry, State.takeEntryAs, hc]
  split
  next hany =>
    obtain ⟨e, he, hmine⟩ := List.any_eq_true.mp hany
    refine ⟨rfl, rfl, { e with waiters := e.waiters ++ [⟨li, a, (s.faultPage c.ci a).2.2⟩] }, ?_, ?_⟩
    · rw [core_updCore, if_pos ⟨rfl, hcore⟩]
      exact List.mem_map.mpr ⟨e, he, by rw [if_pos hmine]⟩
    · simp only [Bool.and_eq_true, beq_iff_eq, FaultEntry.covers, decide_eq_true_eq] at hmine
      obtain ⟨⟨⟨hcrew, hlo, hhi⟩, hwr⟩, -⟩ := hmine
      exact ⟨hcrew, hlo, hhi, hwr, _, List.mem_append_right _ (List.mem_singleton_self _), rfl, rfl⟩
  next =>
    obtain ⟨hlo, hhi⟩ := faultPage_covers s c.ci a
    refine ⟨rfl, rfl, ⟨c.ci, (s.faultPage c.ci a).1, (s.faultPage c.ci a).2.1, write,
      [⟨li, a, (s.faultPage c.ci a).2.2⟩], none⟩, ?_, rfl, hlo, hhi, rfl, _, List.mem_singleton_self _, rfl, rfl⟩
    rw [core_updCore, if_pos ⟨rfl, hcore⟩]
    exact List.mem_append_right _ (List.mem_singleton_self _)

/-- A thread outside any region that meets a fault parks at its bundle, on an entry for the fault's page. -/
theorem faultLane_thread (h : s.ctx? = some c) (ht : t < c.g.lanes.length) (hth : (c.lane t).thread?.isSome = true)
    (hreg : ∀ th, (c.lane t).thread? = some th → th.region = none) {a : Nat} {write : Bool}
    (hroom : (s.core c.cr.core).faults.length < Config.faultEntries) (hcore : c.cr.core < s.cores.length) :
    (∃ th, (s.faultLane t a write c.start).thread? c.ci (c.place t) = some th ∧ th.pc = c.start ∧
      th.run = .parked (.fault a write)) ∧
    ∃ e ∈ ((s.faultLane t a write c.start).core c.cr.core).faults, e.crew = c.ci ∧ e.page ≤ a / 65536 ∧
      a / 65536 < e.page + e.span ∧ e.write = write ∧ ∃ w ∈ e.waiters, w.key = c.place t ∧ w.addr = a := by
  have hc := (ctx_some h).2.2.1
  obtain ⟨r, hr, hplace⟩ := lane_of_ctx ht
  obtain ⟨hgot, hcrews, hentry⟩ := takeEntry_of_room hc (li := c.place t) (a := a) (write := write) hroom hcore
  have hgroup : (s.takeEntry c.ci (c.place t) a write).2.curGroup? = some c.g :=
    (SameGroups.takeEntryAs s _ _ _ _ _).curGroup.trans (curGroup_of_ctx h)
  have hfault : s.faultLane t a write c.start = (((s.takeEntry c.ci (c.place t) a write).2.parkLane t (.fault a write) c.start
      c.start).updLane c.ci (c.place t) Lane.discardRegion) := by
    have hci : c.g.crew = c.ci := rfl
    simp only [State.faultLane, curGroup_of_ctx h, hr, hplace, hci, hgot, if_true]
  rw [hfault]
  refine ⟨?_, ?_⟩
  · obtain ⟨th, hth⟩ := Option.isSome_iff_exists.mp hth
    have hlane : (s.takeEntry c.ci (c.place t) a write).2.thread? c.ci (c.place t) = some th := by
      rw [← hth, ← thread_of_ctx hc t]
      simp only [State.thread?, State.lane?, hcrews]
    obtain ⟨l, hl, hlth⟩ := Option.bind_eq_some_iff.mp hlane
    refine ⟨{ th with pc := c.start, cont := c.start, run := .parked (.fault a write) }, ?_, rfl, rfl⟩
    have hparked : (l.updThread fun th => { th with pc := c.start, cont := c.start, run := .parked (.fault a write) }).thread? =
        some { th with pc := c.start, cont := c.start, run := .parked (.fault a write) } := by
      rw [thread_updThread, hlth]
      rfl
    rw [State.thread?, updLane_lane, parkLane_lane hgroup ht, hl]
    simp only [Option.map_some, Option.bind_some]
    rw [discardRegion_outside hparked (hreg th hth)]
    exact hparked
  · obtain ⟨e, he, hrest⟩ := hentry
    exact ⟨e, (faults_parkLane _ _ _ _ _ _).symm ▸ he, hrest⟩

end

end Sys2Proof.Machine

open Sys2Proof Sys2Proof.Machine

/-- Settles O23: a lane's trap or park changes nothing that the access of a later lane reads, and leaves no filled entry. -/
theorem accessTraps : Obligations.AccessTraps := by
  unfold Obligations.AccessTraps
  refine ⟨fun b d a x w s c h hshort hal => exec_plain_misaligned (.inl ⟨rfl, rfl⟩) h hshort hal,
    fun b d a x w s c h hshort hal => exec_plain_misaligned (.inr ⟨rfl, rfl⟩) h hshort hal,
    fun b d a x w s c i q cause adr hi h hp hshort hx => exec_plain_refused hi h hp hshort hx,
    fun b d a x w s c i q hi h hp hshort hx => exec_plain_unmapped hi h hp hshort hx,
    fun s c q va hw => xlat_of_miss q hw, fun s c q va hw => xlat_of_bad q hw, fun s c q va g hw hout => xlat_of_page q hw hout,
    fun s c s' t tr a h ht hl hth hs' => hs' ▸ failLane_thread h ht hth tr a,
    fun s c s' t a write h ht hl hth hreg hroom hcore hs' => hs' ▸ faultLane_thread h ht hth hreg hroom hcore,
    fun s ci a cr g hcr hg hbig => faultPage_of_big hcr hg hbig⟩
end

section
/-!
PROOFS. The words of the tile table, and prefetches (R202, R214, R216, R217).
-/

namespace Sys2Proof.Machine

open Sys2Proof

theorem exec_tset (b : Bool) (a x : BitVec 6) (s : State) : exec (.tset b a x) s = execTset b a x s := rfl
theorem exec_tsetClr (b : Bool) (a : BitVec 6) (s : State) : exec (.tsetClr b a) s = execTsetClr b a s := rfl
theorem exec_tstat (b n : Bool) (d a : BitVec 6) (s : State) : exec (.tstat b n d a) s = execTstat b n d a s := rfl
theorem exec_pref (b : Bool) (a x : BitVec 6) (s : State) : exec (.pref b a x) s = execPref b a x s := rfl

/-! ### TSET and TSET.clr (R217) -/

/-- A tile entry that no engine holds: its STATE is empty or set. -/
def TileFree (e : Dword) : Prop := bitsOf e 63 62 = 0 ∨ bitsOf e 63 62 = 2

/-- The crew of a word with another tile table. -/
def Crew.withTiles (cr : Crew) (ts : List Dword) : Crew := { cr with tiles := ts }

/-- From `s` to `s'` lanes of the word's crew may have changed, but not who holds them, and tile entries that no engine
holds. -/
structure Tiling (c : Ctx) (s s' : State) : Prop where
  crew : ∃ (ls : List Lane) (ts : List Dword), s'.crews[c.ci]? = some ((c.cr.withLanes ls).withTiles ts) ∧
    (∀ p : Nat, (ls[p]?.bind Lane.thread?).isSome = (c.cr.lanes[p]?.bind Lane.thread?).isSome) ∧
    ∀ i, TileFree (c.cr.tiles.getD i 0) → TileFree (ts.getD i 0)
  mem : s'.mem = s.mem

namespace Tiling

variable {s s' : State} {c : Ctx}

theorem moved (h : s.crews[c.ci]? = some c.cr) (last : Bool) : Tiling c s (if last then setPcs c s else s) := by
  obtain ⟨ls, hls, hstand⟩ := SameThreads.moved c last s c.ci c.cr h
  exact ⟨⟨ls, c.cr.tiles, hls, hstand, fun _ h => h⟩, moved_mem c last s⟩

/-- An entry written that no engine holds. -/
theorem set (h : Tiling c s s') {i : Nat} {e : Crew → Dword} (he : ∀ cr, TileFree (e cr)) :
    Tiling c s (s'.updCrew c.ci fun cr => { cr with tiles := cr.tiles.set i (e cr) }) := by
  obtain ⟨⟨ls, ts, hcr, hstand, hfree⟩, hmem⟩ := h
  refine ⟨⟨ls, ts.set i (e ((c.cr.withLanes ls).withTiles ts)), by simp [hcr, Crew.withTiles], hstand, fun j hj => ?_⟩, hmem⟩
  have hold := hfree j hj
  rw [List.getD_eq_getElem?_getD] at hold ⊢
  rw [List.getElem?_set]
  split
  · split
    · exact he _
    · exact .inl rfl
  · exact hold

theorem thread (h : Tiling c s s') (t : Nat) : (s'.thread? c.ci (c.place t)).isSome = (c.lane t).thread?.isSome := by
  obtain ⟨⟨ls, ts, hcr, hstand, -⟩, -⟩ := h
  exact isSome_thread_of_crew hcr hstand t

end Tiling

/-- An entry without the bits of its STATE is empty. -/
theorem bitsOf_setBits_state (e : Dword) : bitsOf (setBits e 63 62 0) 63 62 = 0 := by
  have he := e.isLt
  have hnum : ((e.toNat - e.toNat / 2 ^ 62 % 2 ^ 2 * 2 ^ 62 + 0 % 2 ^ 2 * 2 ^ 62) % 2 ^ 64) / 2 ^ 62 % 2 ^ 2 = 0 := by omega
  simpa only [bitsOf, setBits, fld_eq, BitVec.toNat_ofNat] using hnum

theorem bitsOf_ofNat_toNat (e : Dword) (hi lo : Nat) : bitsOf (BitVec.ofNat 64 e.toNat) hi lo = fld e.toNat hi lo := by
  rw [BitVec.ofNat_toNat, BitVec.setWidth_eq, bitsOf]

/-- TSET accepts an entry that keeps the rules of R217. -/
theorem tsetCheck_none {cr : Crew} {i e : Nat} (hi : i < pktTiles cr.packet) (hstate : fld e 63 62 = 2) (h60 : fld e 61 60 = 0)
    (hfmt : fld e 59 52 ≤ 0x0A) (hn : fld e 51 39 ≠ 0) (h35 : fld e 38 35 = 0) (hbase : fld e 34 16 % 64 = 0)
    (hin : fld e 34 16 + 64 * fld e 51 39 + (if fld e 59 52 = 0 then 0 else roundUp (2 * fld e 51 39) 64) ≤ cr.alloc)
    (hfree : TileFree (cr.tiles.getD i 0)) : tsetCheck cr i e = none := by
  have hheld : ¬ (bitsOf (cr.tiles.getD i 0) 63 62 = 1 ∨ bitsOf (cr.tiles.getD i 0) 63 62 = 3) := by
    rcases hfree with h | h <;> rw [h] <;> decide
  have hrules : ¬ (fld e 63 62 ≠ 2 ∨ fld e 61 60 ≠ 0 ∨ fld e 38 35 ≠ 0 ∨ 0x0A < fld e 59 52 ∨ fld e 51 39 = 0 ∨
      fld e 34 16 % 64 ≠ 0) := by
    simp only [hstate, h60, h35, hn, hbase, Nat.not_lt.mpr hfmt, ne_eq, not_true_eq_false, or_self, not_false_eq_true]
  rw [tsetCheck, if_neg (Nat.not_le.mpr hi), if_neg hrules, if_neg (Nat.not_lt.mpr hin), if_neg hheld]

section
variable {s : State} {c : Ctx} {cr : Crew} {idx entry : Nat → Nat} {t : Nat}

theorem tsetLane_of_helper (h : (s.thread? c.ci (c.place t)).isSome = false) : tsetLane c idx entry s t = s := by
  rw [tsetLane, Option.isSome_eq_false_iff.mp h |> Option.isNone_iff_eq_none.mp]

theorem tsetLane_of_check (hth : (s.thread? c.ci (c.place t)).isSome = true) (hcr : s.crews[c.ci]? = some cr)
    (hcheck : tsetCheck cr (idx t) (entry t) = none) : tsetLane c idx entry s t =
      s.updCrew c.ci fun cr => { cr with tiles := cr.tiles.set (idx t) (BitVec.ofNat 64 (entry t)) } := by
  obtain ⟨th, hth⟩ := Option.isSome_iff_exists.mp hth
  simp only [tsetLane, hth, hcr, hcheck]

theorem tsetClrLane_of_helper (h : (s.thread? c.ci (c.place t)).isSome = false) : tsetClrLane c idx s t = s := by
  rw [tsetClrLane, Option.isSome_eq_false_iff.mp h |> Option.isNone_iff_eq_none.mp]

theorem tsetClrLane_of_free (hth : (s.thread? c.ci (c.place t)).isSome = true) (hcr : s.crews[c.ci]? = some cr)
    (hi : idx t < pktTiles cr.packet) (hfree : TileFree (cr.tiles.getD (idx t) 0)) : tsetClrLane c idx s t =
      s.updCrew c.ci fun cr => { cr with tiles := cr.tiles.set (idx t) (setBits (cr.tiles.getD (idx t) 0) 63 62 0) } := by
  obtain ⟨th, hth⟩ := Option.isSome_iff_exists.mp hth
  have hheld : ¬ (bitsOf (cr.tiles.getD (idx t) 0) 63 62 = 1 ∨ bitsOf (cr.tiles.getD (idx t) 0) 63 62 = 3) := by
    rcases hfree with h | h <;> rw [h] <;> decide
  simp only [tsetClrLane, hth, hcr, Nat.not_le.mpr hi, hheld, if_false]
  exact updCrew_congr hcr rfl

end

theorem exec_tset_of_rules {b : Bool} {a x : BitVec 6} {s : State} {c : Ctx} {put : Nat → State → State}
    (h : WordReady (.tset b a x) s c)
    (hput : ∀ t s', put t s' = s'.updCrew c.ci fun cr =>
      { cr with tiles := cr.tiles.set (c.r32 t a).toNat (BitVec.ofNat 64 (c.prim t .i64 x).toNat) })
    (hr : ∀ t < 16, c.stores t = true → fld (c.prim t .i64 x).toNat 63 62 = 2 ∧
      TileFree (c.cr.tiles.getD (c.r32 t a).toNat 0) ∧ ∀ (ls : List Lane) (ts : List Dword),
      TileFree (ts.getD (c.r32 t a).toNat 0) →
      tsetCheck ((c.cr.withLanes ls).withTiles ts) (c.r32 t a).toNat (c.prim t .i64 x).toNat = none) :
    exec (.tset b a x) s = .next (byLanes c b c.stores put s) ∧ (byLanes c b c.stores put s).mem = s.mem := by
  have hmet : ∀ n ≤ 16, Tiling c s (metBy c b c.stores put s n) :=
    metBy_keeps_lt _ (.moved (ctx_some h.here).2.2.1 b) fun t ht hs s' hl => by
      rw [hput]
      exact hl.set fun _ => .inr ((bitsOf_ofNat_toNat _ _ _).trans (hr t ht hs).1)
  rw [exec_tset, execTset, frame]
  refine ⟨frameWith_lanes h.here h.checks h.flows rfl (fun t ht hq => ?_) fun t hs => (Bool.and_eq_true_iff.mp hs).1,
    (finish_mem b _).trans (hmet 16 (Nat.le_refl 16)).mem⟩
  have hl := hmet t ht.le
  by_cases hs : c.stores t = true
  · obtain ⟨-, hfree, hcheck⟩ := hr t ht hs
    obtain ⟨ls, ts, hcr, -, hkept⟩ := hl.crew
    rw [if_pos hs, hput]
    exact tsetLane_of_check ((hl.thread t).trans (Bool.and_eq_true_iff.mp hs).2) hcr (hcheck ls ts (hkept _ hfree))
  · rw [if_neg hs]
    exact tsetLane_of_helper ((hl.thread t).trans (by simpa [Ctx.stores, hq] using hs))

theorem exec_tsetClr_of_free {b : Bool} {a : BitVec 6} {s : State} {c : Ctx} {put : Nat → State → State}
    (h : WordReady (.tsetClr b a) s c)
    (hput : ∀ t s', put t s' = s'.updCrew c.ci fun cr =>
      { cr with tiles := cr.tiles.set (c.r32 t a).toNat (setBits (cr.tiles.getD (c.r32 t a).toNat 0) 63 62 0) })
    (hr : ∀ t < 16, c.stores t = true → (c.r32 t a).toNat < pktTiles c.cr.packet ∧
      TileFree (c.cr.tiles.getD (c.r32 t a).toNat 0)) :
    exec (.tsetClr b a) s = .next (byLanes c b c.stores put s) ∧ (byLanes c b c.stores put s).mem = s.mem := by
  have hmet : ∀ n, Tiling c s (metBy c b c.stores put s n) :=
    metBy_keeps _ (.moved (ctx_some h.here).2.2.1 b) fun t s' _ hl => by
      rw [hput]
      exact hl.set fun _ => .inl (bitsOf_setBits_state _)
  rw [exec_tsetClr, execTsetClr, frame]
  refine ⟨frameWith_lanes h.here h.checks h.flows rfl (fun t ht hq => ?_) fun t hs => (Bool.and_eq_true_iff.mp hs).1,
    (finish_mem b _).trans (hmet 16).mem⟩
  have hl := hmet t
  by_cases hs : c.stores t = true
  · obtain ⟨hi, hfree⟩ := hr t ht hs
    obtain ⟨ls, ts, hcr, -, hkept⟩ := hl.crew
    rw [if_pos hs, hput]
    exact tsetClrLane_of_free ((hl.thread t).trans (Bool.and_eq_true_iff.mp hs).2) hcr hi (hkept _ hfree)
  · rw [if_neg hs]
    exact tsetClrLane_of_helper ((hl.thread t).trans (by simpa [Ctx.stores, hq] using hs))

/-! ### PREF (R202, R214) -/

/-- The program counters have no part in the requests of a core. -/
theorem moved_poolShort (c : Ctx) (last : Bool) (s : State) (k : Ctx) (blocks : Nat → List Nat) :
    poolShort (if last then setPcs c s else s) k blocks = poolShort s k blocks := by
  cases last with
  | false => rfl
  | true =>
    have hcore (j : Nat) : ((setPcs c s).crews[j]?.map fun cr => cr.core) = s.crews[j]?.map fun cr => cr.core := by
      by_cases hj : c.ci = j
      · subst hj
        cases h : s.crews[c.ci]? <;> simp [setPcs, h]
      · simp [setPcs, hj]
    simp only [if_true, poolShort, State.requests, hcore]
    rfl

/-- The program counters have no part in translation. -/
theorem moved_globalPage (c : Ctx) (last : Bool) (s : State) (p a : Nat) (q : Ask) :
    (if last then setPcs c s else s).globalPage c.ci p a q = s.globalPage c.ci p a q := by
  cases last with
  | false => rfl
  | true =>
    cases h : s.crews[c.ci]? with
    | none => simp [State.globalPage, setPcs, h]
    | some cr =>
      simp only [if_true, State.globalPage, State.laneXlat, State.fillFor, setPcs, State.mapLanes_crews,
        List.getElem?_modify_eq, h]
      rfl

theorem prefLane_of_page {s : State} {c : Ctx} {addr : Nat → Nat} {t : Nat} {g : Page}
    (h : s.globalPage c.ci (c.place t) (addr t) {} = .ok g) :
    prefLane c addr s t = s.arrive ⟨c.ci, c.place t, [], 0, s.wordId c, oneBlock (addr t)⟩ := by
  rw [prefLane, h]

theorem prefLane_of_fault {s : State} {c : Ctx} {addr : Nat → Nat} {t : Nat}
    (h : ∀ g, s.globalPage c.ci (c.place t) (addr t) {} ≠ .ok g) : prefLane c addr s t = s := by
  rw [prefLane]
  split
  next g hg => exact absurd hg (h g)
  next => rfl

theorem exec_pref_of_ready {b : Bool} {a x : BitVec 6} {s : State} {c : Ctx} (h : WordReady (.pref b a x) s c) :
    exec (.pref b a x) s = .next (finish b (if poolShort s c (fun t => oneBlock (c.ea t a x)) then (if b then setPcs c s else s)
      else eachLane c.exec (prefLane c fun t => c.ea t a x) (if b then setPcs c s else s))) := by
  rw [← moved_poolShort c b, exec_pref, execPref]
  exact frame_of_ready h.here h.checks h.flows

theorem exec_pref_dropped {b : Bool} {a x : BitVec 6} {s : State} {c : Ctx} (h : WordReady (.pref b a x) s c)
    (hdrop : poolShort s c (fun t => oneBlock (c.ea t a x)) = true ∨
      (∀ t < 16, c.exec t = true → ∀ g, s.globalPage c.ci (c.place t) (c.ea t a x) {} ≠ .ok g)) :
    exec (.pref b a x) s = .next (wordAfter s c b (fun _ l => l) nobody fun _ => none) := by
  have hstill : eachLane c.exec (prefLane c fun t => c.ea t a x) (if b then setPcs c s else s) = (if b then setPcs c s else s) ∨
      poolShort s c (fun t => oneBlock (c.ea t a x)) = true := by
    rcases hdrop with hshort | hfault
    · exact .inr hshort
    · refine .inl (foldl_keeps (P := fun s' => s' = if b then setPcs c s else s) rfl fun t ht s' hs' => ?_)
      obtain ⟨hlane, hexec⟩ := List.mem_filter.mp ht
      rw [hs']
      refine prefLane_of_fault fun g => ?_
      rw [moved_globalPage]
      exact hfault t (List.mem_range.mp hlane) hexec g
  rw [exec_pref_of_ready h, ← finish_plain h.here b]
  rcases hstill with hstill | hshort
  · rw [hstill, ite_self]
  · rw [if_pos hshort]

theorem exec_pref_requests {b : Bool} {a x : BitVec 6} {s : State} {c : Ctx} {g : Nat → Page} {put : Nat → State → State}
    (h : WordReady (.pref b a x) s c) (hp : PlainAccess s c)
    (hshort : poolShort s c (fun t => oneBlock (c.ea t a x)) = false)
    (hput : ∀ t s', put t s' = s'.arrive ⟨c.ci, c.place t, [], 0, s'.wordId c, oneBlock (c.ea t a x)⟩)
    (hr : ∀ t < 16, c.exec t = true → reaches s c (c.ea t a x) 1 {} (g t)) :
    exec (.pref b a x) s = .next (byLanes c b c.exec put s) ∧ (byLanes c b c.exec put s).mem = s.mem := by
  have hc := (ctx_some h.here).2.2.1
  have hmet : ∀ n, Loading s (metBy c b c.exec put s n) := Loading.met fun t s' hl => by
    rw [hput]
    exact hl.arrive _
  have hlanes : eachLane c.exec (prefLane c fun t => c.ea t a x) (if b then setPcs c s else s) =
      metBy c b c.exec put s 16 := eachLane_met (fun t ht hq => by
    obtain ⟨hal, hlt, hw, hx⟩ := (hmet t).reaches (hr t ht hq)
    rw [if_pos hq, hput]
    exact prefLane_of_page (((hmet t).calm hp hc).unfilled.globalPage _ _ hlt hw |>.trans hx)) fun _ h => h
  refine ⟨?_, (finish_mem b _).trans (hmet 16).mem⟩
  rw [exec_pref_of_ready h, hshort, if_neg Bool.false_ne_true, hlanes]
  rfl

end Sys2Proof.Machine

open Sys2Proof Sys2Proof.Machine

/-- Settles O24: each lane that holds a thread writes its entry in its turn, and what a lane writes leaves no entry held by an
engine; a prefetch is dropped or leaves a request on its way. -/
theorem tileWords : Obligations.TileWords := by
  unfold Obligations.TileWords
  refine ⟨fun b a x s c h hr => exec_tset_of_rules h (fun _ _ => rfl) fun t ht hs => ?tset,
    fun b a s c h hr => exec_tsetClr_of_free h (fun _ _ => rfl) hr, fun b n d a s c h hi => ?tstat,
    fun b a x s c h hdrop => exec_pref_dropped h hdrop,
    fun b a x s c g h hp hshort hr => exec_pref_requests h hp hshort (fun _ _ => rfl) hr⟩
  case tset =>
    obtain ⟨hi, hstate, h60, hfmt, hn, h35, hbase, hin, hfree⟩ := hr t ht hs
    exact ⟨hstate, hfree, fun ls ts hts => tsetCheck_none hi hstate h60 hfmt hn h35 hbase hin hts⟩
  case tstat =>
    rw [exec_tstat, execTstat]
    refine vecWord_next h.here h.checks h.flows _ _ fun t hq => ?_
    rw [tstatLane, if_pos (hi t hq)]
    rfl
end

section
/-!
PROOFS. Waits that are met: monitors, mailboxes, gang barriers and held window accesses (R198, R249, R253, R255, R256, R259).
-/

namespace Sys2Proof.Machine

open Sys2Proof

theorem exec_monitorWake (crew lane : Nat) (s : State) : exec (.monitorWake crew lane) s = execMonitorWake crew lane s := rfl
theorem exec_mailboxWaitMet (crew lane : Nat) (s : State) :
    exec (.mailboxWaitMet crew lane) s = execMailboxWaitMet crew lane s := rfl
theorem exec_gangBarrierComplete (grid gang bar : Nat) (s : State) :
    exec (.gangBarrierComplete grid gang bar) s = execGangBarrierComplete grid gang bar s := rfl
theorem exec_windowAccessApply (crew lane : Nat) (s : State) :
    exec (.windowAccessApply crew lane) s = execWindowAccessApply crew lane s := rfl

/-- A thread whose wait is over stands at the word after it. -/
theorem wakeCont_thread {s : State} {ci li : Nat} {th : Thread} (h : s.thread? ci li = some th) :
    ∃ th', (s.wakeCont ci li).thread? ci li = some th' ∧ th'.pc = th.cont ∧ th'.pendWait = none ∧
      th'.run = if s.outstanding ci li then .waiting else .waking none := by
  refine ⟨{ th with pc := th.cont, pendWait := none, run := if s.outstanding ci li then .waiting else .waking none },
    ?_, rfl, rfl, rfl⟩
  rw [State.wakeCont, updThread_thread, h]
  rfl

/-! ### Monitors (R249) -/

theorem exec_monitorWake_of_got {crew lane i : Nat} {s : State} {m : Monitor} {v : Dword} {cr : Crew}
    (hi : s.monitors.findIdx? (fun m => m.crew == crew && m.lane == lane && m.got.isSome) = some i)
    (hm : s.monitors[i]? = some m) (hgot : m.got = some v) (hacq : m.acq = false) (hcr : s.crews[crew]? = some cr)
    (hrun : ((s.thread? crew lane).map Thread.run) = some (.parked .monitor)) :
    exec (.monitorWake crew lane) s = .next (State.wakeCont
      { s.updLane crew lane fun l => l.setRegs (plainRegs cr.t m.d (if m.wide then 2 else 1) v.toNat) with
        monitors := s.monitors.eraseIdx i } crew lane) := by
  have hval : m.got.getD 0 = v := by rw [hgot]; rfl
  simp only [exec_monitorWake, execMonitorWake, wakeMonitor, hi, hcr, hm, hrun, ne_eq, not_true_eq_false, if_false, hacq,
    Bool.false_eq_true, hval]
  rfl

/-! ### Mailboxes (R258, R259) -/

theorem Memory.nat_succ (m : Memory) (a n : Nat) : m.nat a (n + 1) = (m.byte a).toNat + 256 * m.nat (a + 1) n := rfl

theorem Memory.nat_lt (m : Memory) (a n : Nat) : m.nat a n < 256 ^ n := by
  induction n generalizing a with
  | zero => exact Nat.one_pos
  | succ n ih =>
    have hb := (m.byte a).isLt
    have hrest := ih (a + 1)
    rw [Memory.nat_succ, pow_succ]
    omega

/-- The low bytes of a number in memory. -/
theorem Memory.nat_mod (m : Memory) (a n k : Nat) : m.nat a (n + k) % 256 ^ n = m.nat a n := by
  induction n generalizing a with
  | zero => rw [pow_zero, Nat.mod_one]; rfl
  | succ n ih =>
    have hb := (m.byte a).isLt
    rw [Nat.add_right_comm, Memory.nat_succ, Memory.nat_succ, pow_succ, Nat.mul_comm (256 ^ n) 256, Nat.mod_mul,
      Nat.add_mul_mod_self_left, Nat.mod_eq_of_lt hb, Nat.add_mul_div_left _ _ (by decide), Nat.div_eq_of_lt hb, Nat.zero_add, ih]

/-- A mailbox's CAP lies in the low word of its header (R258). -/
theorem mboxCap_eq (m : Memory) (off : Nat) : mboxCap (m.nat off 16) = m.nat off 4 % 2 ^ 13 := by
  have hlow := Memory.nat_mod m off 4 12
  rw [mboxCap, fld_eq, ← hlow, Nat.mod_mod_of_dvd _ (by decide)]
  simp

section
variable {s : State} {ci cap slot : Nat} {a : BitVec 56} {k : Word} {put : Bool} {msg : Dword} {w : Win} {x : Crew}
  (hwin : isWindow a.toNat = true) (hw : s.window ci a.toNat = .ok w) (hkind : w.kind = 0) (hx : s.crews[w.crew]? = some x)
  (hcap : x.scratch.nat w.off 4 % 2 ^ 13 = cap) (hslot : w.off + 16 + 16 * (k.toNat % cap) = slot) (h0 : 0 < cap)
  (hin : slot + 16 ≤ x.alloc) (hq : x.meetsQueue slot 16 = false)
include hwin hw hkind hx hcap hslot h0 hin hq

/-- A put or take whose window leads to a mailbox's slot in a scratchpad. -/
theorem mboxTry_of_window : mboxTry ci a.toNat k put msg s =
    if put then
      if BitVec.ofNat 32 (x.scratch.nat (slot + 8) 4) = k then
        some ((s.scratchStore w.crew slot (leBytes 8 msg.toNat)).scratchStore w.crew (slot + 8) (leBytes 4 (k + 1).toNat), 0)
      else none
    else if BitVec.ofNat 32 (x.scratch.nat (slot + 8) 4) = k + 1 then
      some (s.scratchStore w.crew (slot + 8) (leBytes 4 (k + BitVec.ofNat 32 cap).toNat), BitVec.ofNat 64 (x.scratch.nat slot 8))
    else none := by
  have hwindow : (if a.toNat < 2 ^ 56 ∧ isWindow a.toNat then s.window ci a.toNat else .hold) = .ok w := by
    rw [if_pos ⟨a.isLt, hwin⟩, hw]
  have hgood : ¬ (w.kind ≠ 0 ∨ cap = 0 ∨ x.alloc < slot + 16 ∨ x.meetsQueue slot 16 = true) := by
    simp only [hkind, hq, ne_eq, not_true_eq_false, Bool.false_eq_true, or_false, false_or]
    omega
  simp only [mboxTry, hwindow, hx, mboxCap_eq, hcap, hslot]
  rw [if_neg hgood]

/-- A parked put or take goes on once its slot has reached its ticket. -/
theorem exec_mailboxWaitMet_of_window {lane d scope : Nat} {cr : Crew}
    (hrun : ((s.thread? ci lane).map Thread.run) = some (.parked (.mailbox a k put msg d scope))) (hcr : s.crews[ci]? = some cr) :
    exec (.mailboxWaitMet ci lane) s = .next (
      if put then
        if BitVec.ofNat 32 (x.scratch.nat (slot + 8) 4) = k then
          (((s.scratchStore w.crew slot (leBytes 8 msg.toNat)).scratchStore w.crew (slot + 8)
            (leBytes 4 (k + 1).toNat)).performed cr.part scope).wakeCont ci lane
        else s
      else if BitVec.ofNat 32 (x.scratch.nat (slot + 8) 4) = k + 1 then
        ((s.scratchStore w.crew (slot + 8) (leBytes 4 (k + BitVec.ofNat 32 cap).toNat)).updLane ci lane fun l =>
          l.setRegs (plainRegs cr.t d 2 (x.scratch.nat slot 8))).wakeCont ci lane
      else s) := by
  have htry := mboxTry_of_window (put := put) (msg := msg) hwin hw hkind hx hcap hslot h0 hin hq
  have hmsg : (BitVec.ofNat 64 (x.scratch.nat slot 8)).toNat = x.scratch.nat slot 8 :=
    (BitVec.toNat_ofNat _ _).trans (Nat.mod_eq_of_lt (Memory.nat_lt _ _ 8))
  rw [exec_mailboxWaitMet, execMailboxWaitMet, hrun, hcr]
  dsimp only
  rw [htry]
  cases put with
  | true =>
    by_cases hseq : BitVec.ofNat 32 (x.scratch.nat (slot + 8) 4) = k
    · simp only [if_true, if_pos hseq]
    · simp only [if_true, if_neg hseq]
  | false =>
    by_cases hseq : BitVec.ofNat 32 (x.scratch.nat (slot + 8) 4) = k + 1
    · simp only [Bool.false_eq_true, if_false, if_pos hseq, hmsg]
    · simp only [Bool.false_eq_true, if_false, if_neg hseq]

end

/-! ### Gang barriers (R253, R255) -/

/-- The barriers of a crew. -/
def barsOf (s : State) (ci : Nat) : Option (List Barrier) := s.crews[ci]?.map fun cr => cr.bars

theorem barsOf_updThread (s : State) (ci li c : Nat) (f : Thread → Thread) : barsOf (s.updThread ci li f) c = barsOf s c := by
  by_cases hc : ci = c
  · subst hc
    cases h : s.crews[ci]? <;> simp [barsOf, State.updThread, h]
  · simp [barsOf, State.updThread, hc]

/-- The waiters of a barrier go on; the barriers and memory stay. -/
theorem wakeBarrier_keeps (ci n : Nat) (s : State) :
    (wakeBarrier ci n s).mem = s.mem ∧ ∀ c, barsOf (wakeBarrier ci n s) c = barsOf s c := by
  unfold wakeBarrier
  split
  · exact ⟨rfl, fun _ => rfl⟩
  · refine foldl_keeps (P := fun s' => s'.mem = s.mem ∧ ∀ c, barsOf s' c = barsOf s c) ⟨rfl, fun _ => rfl⟩ fun p _ s' hs' => ?_
    split
    · split
      · split
        · exact ⟨hs'.1, fun c => (barsOf_updThread _ _ _ _ _).trans (hs'.2 c)⟩
        · exact hs'
      · exact hs'
    · exact hs'

theorem barsOf_setBar (s : State) (ci n c : Nat) (b : Barrier) :
    barsOf (s.setBar ci n b) c = if ci = c then (barsOf s c).map fun bs => bs.set n b else barsOf s c := by
  by_cases hc : ci = c
  · subst hc
    cases h : s.crews[ci]? <;> simp [barsOf, State.setBar, h]
  · simp [barsOf, State.setBar, hc]

/-- One crew of a gang completes its phase. -/
def completeBar (bar : Nat) (s : State) (x : Nat × Crew) : State :=
  wakeBarrier x.1 bar (s.setBar x.1 bar ((x.2.bar bar).complete x.2.live))

theorem completeBar_mem (bar : Nat) (s : State) (x : Nat × Crew) : (completeBar bar s x).mem = s.mem :=
  (wakeBarrier_keeps _ _ _).1

theorem barsOf_completeBar (bar : Nat) (s : State) (x : Nat × Crew) (c : Nat) : barsOf (completeBar bar s x) c =
    if x.1 = c then (barsOf s c).map fun bs => bs.set bar ((x.2.bar bar).complete x.2.live) else barsOf s c :=
  ((wakeBarrier_keeps _ _ _).2 c).trans (barsOf_setBar _ _ _ _ _)

theorem barsOf_completeAll_other (bar : Nat) {l : List (Nat × Crew)} {s : State} {c : Nat} (h : c ∉ l.map Prod.fst) :
    barsOf (l.foldl (completeBar bar) s) c = barsOf s c := by
  refine foldl_keeps (P := fun s' => barsOf s' c = barsOf s c) rfl fun x hx s' hs' => ?_
  have hne : x.1 ≠ c := fun hxc => h (List.mem_map.mpr ⟨x, hx, hxc⟩)
  rw [barsOf_completeBar, if_neg hne, hs']

/-- Each crew of the list completes its own phase, once. -/
theorem barsOf_completeAll (bar : Nat) {l : List (Nat × Crew)} {s : State} {c : Nat} {cr : Crew} (hl : (l.map Prod.fst).Nodup)
    (hmem : (c, cr) ∈ l) : barsOf (l.foldl (completeBar bar) s) c =
      (barsOf s c).map fun bs => bs.set bar ((cr.bar bar).complete cr.live) := by
  induction l generalizing s with
  | nil => cases hmem
  | cons x l ih =>
    obtain ⟨hx, hl⟩ := List.nodup_cons.mp hl
    rcases List.mem_cons.mp hmem with rfl | hmem
    · rw [List.foldl_cons, barsOf_completeAll_other bar hx, barsOf_completeBar, if_pos rfl]
    · have hne : x.1 ≠ c := fun hxc => hx (List.mem_map.mpr ⟨(c, cr), hmem, hxc.symm⟩)
      rw [List.foldl_cons, ih hl hmem, barsOf_completeBar, if_neg hne]

theorem gangMembers_fst (s : State) (g : Gang) :
    (gangMembers s g).map Prod.fst = g.crews.filter fun c => s.crews[c]?.isSome := by
  unfold gangMembers
  induction g.crews with
  | nil => rfl
  | cons c cs ih =>
    cases h : s.crews[c]? <;> simp [h, ih]

theorem mem_gangMembers {s : State} {g : Gang} {c : Nat} {cr : Crew} (hc : c ∈ g.crews) (hcr : s.crews[c]? = some cr) :
    (c, cr) ∈ gangMembers s g := List.mem_filterMap.mpr ⟨c, hc, by rw [hcr]; rfl⟩

theorem exec_gangBarrierComplete_of_due {grid gang bar : Nat} {s : State} {g : Gang}
    (hg : s.gangs.find? (fun g => g.grid == grid && g.index == gang) = some g) (hdue : gangDue s g bar = true) :
    exec (.gangBarrierComplete grid gang bar) s = .next ((gangMembers s g).foldl (completeBar bar) s) := by
  rw [exec_gangBarrierComplete, execGangBarrierComplete, hg]
  simp only [hdue, if_true]
  rfl

theorem bar_after_completeAll {bar : Nat} {s : State} {g : Gang} {c : Nat} {cr : Crew} (hnodup : g.crews.Nodup)
    (hc : c ∈ g.crews) (hcr : s.crews[c]? = some cr) (hbar : bar < cr.bars.length) :
    ((((gangMembers s g).foldl (completeBar bar) s).crews[c]?).map fun x => x.bar bar) =
      some ((cr.bar bar).complete cr.live) := by
  have hfirst : ((gangMembers s g).map Prod.fst).Nodup := by
    rw [gangMembers_fst]
    exact hnodup.filter _
  have hbars := barsOf_completeAll bar (s := s) hfirst (mem_gangMembers hc hcr)
  simp only [barsOf, hcr, Option.map_some] at hbars
  obtain ⟨x, hx, hxbars⟩ := Option.map_eq_some_iff.mp hbars
  rw [hx, Option.map_some]
  refine congrArg some ?_
  rw [Crew.bar, hxbars, List.getD_eq_getElem?_getD, List.getElem?_set_self hbar]
  rfl

/-! ### Held window accesses (R198) -/

section
variable {crew lane : Nat} {s : State} {th : Thread} {h : HeldAccess} {hs : List HeldAccess}
  (hth : s.thread? crew lane = some th) (hrun : th.run = .parked .window) (hheld : th.held = h :: hs)
include hth hrun hheld

theorem exec_windowAccessApply_write {s1 : State} (hw : h.write = true)
    (hok : s.windowWrite crew h.addr (if fld h.addr 50 48 = 1 then 4 else 8) h.data.toNat = .ok s1) :
    exec (.windowAccessApply crew lane) s = .next
      ((s1.updThread crew lane fun t => { t with held := { h with result := some 0 } :: hs }).wakeRetry crew lane) := by
  simp only [exec_windowAccessApply, execWindowAccessApply, hth, hrun, hheld, hw, if_true, hok]

theorem exec_windowAccessApply_read {v : Nat} (hw : h.write = false)
    (hok : s.windowRead crew h.addr (if fld h.addr 50 48 = 1 then 4 else 8) = .ok v) :
    exec (.windowAccessApply crew lane) s = .next
      ((s.updThread crew lane fun t => { t with held := { h with result := some (BitVec.ofNat 64 v) } :: hs }).wakeRetry
        crew lane) := by
  simp only [exec_windowAccessApply, execWindowAccessApply, hth, hrun, hheld, hw, Bool.false_eq_true, if_false, hok]

end

section
variable {ci a : Nat} {s : State} {w : Win} {x : Crew} (hw : s.window ci a = .ok w) (hx : s.crews[w.crew]? = some x)
include hw hx

/-- A write to an accumulator slot whose line no engine holds. -/
theorem windowWrite_accum (hkind : w.kind = 3) (hin : w.off / 2048 < pktAccum x.packet)
    (hfree : s.lineInFlight w.crew (w.off / 2048) = false) (v : Nat) : s.windowWrite ci a 8 v =
      .ok (s.updCrew w.crew fun cr => { cr with accSlots := Sparse.set cr.accSlots (w.off / 8) (BitVec.ofNat 64 v) }) := by
  simp only [State.windowWrite, hw, Acc.bind_ok, hx, hkind, hin, and_self, if_true, hfree, Bool.false_eq_true, if_false]

theorem windowRead_accum (hkind : w.kind = 3) (hin : w.off / 2048 < pktAccum x.packet)
    (hfree : s.lineInFlight w.crew (w.off / 2048) = false) :
    s.windowRead ci a 8 = .ok (Sparse.get x.accSlots (w.off / 8)).toNat := by
  simp only [State.windowRead, hw, Acc.bind_ok, hx, hkind, hin, and_self, if_true, hfree, Bool.false_eq_true, if_false]

/-- A write to a register of a lane that stands in no running group. -/
theorem windowWrite_register {li r j : Nat} (hkind : w.kind = 1) (hplace : kind1Place x w.off = some (li, r, j))
    (hidle : s.inGroup w.crew li = false) (v : Nat) : s.windowWrite ci a 4 v =
      .ok { s with regWrites := s.regWrites ++ [⟨w.crew, li, r, j, BitVec.ofNat 32 v⟩] } := by
  simp only [State.windowWrite, hw, Acc.bind_ok, hx, hkind, hplace, hidle, ne_eq, not_true_eq_false, if_false,
    Bool.false_eq_true]

end

end Sys2Proof.Machine

open Sys2Proof Sys2Proof.Machine

/-- Settles O35: each event by the equation of the wait that it meets; the crews of a gang complete their phases one after
another, each its own. -/
theorem waitsMet : Obligations.WaitsMet := by
  unfold Obligations.WaitsMet
  refine ⟨fun crew lane s i m v cr hi hm hgot hacq hcr hrun => exec_monitorWake_of_got hi hm hgot hacq hcr hrun,
    fun crew lane s a k isPut msg d scope cr w x hrun hcr hwin hw hkind hx =>
      ?mailbox,
    fun ci li s th hth => wakeCont_thread hth, fun grid gang bar s g hg hdue hnodup => ?gang,
    fun crew lane s th h hs s1 hth hrun hheld hw hok => exec_windowAccessApply_write hth hrun hheld hw hok,
    fun crew lane s th h hs w x hth hrun hheld hw hkind haddr hx hin hfree => ?accum,
    fun crew lane s th h hs w x li r j hth hrun hheld hwr hw hkind haddr hx hplace hidle => ?register,
    fun crew lane s th h hs v hth hrun hheld hw hok => exec_windowAccessApply_read hth hrun hheld hw hok⟩
  case gang =>
    refine ⟨_, exec_gangBarrierComplete_of_due hg hdue, ?_, fun c cr hc hcr hbar => bar_after_completeAll hnodup hc hcr hbar⟩
    exact foldl_keeps (P := fun s' => s'.mem = s.mem) rfl fun x _ s' hs' => (completeBar_mem _ _ _).trans hs'
  case mailbox =>
    intro cap slot seq h0 hin hq
    exact exec_mailboxWaitMet_of_window hwin hw hkind hx rfl rfl h0 hin hq hrun hcr
  case accum =>
    have hsize : (if fld h.addr 50 48 = 1 then 4 else 8) = 8 := by rw [haddr]; rfl
    by_cases hwr : h.write = true
    · rw [exec_windowAccessApply_write hth hrun hheld hwr (by rw [hsize]; exact windowWrite_accum hw hx hkind hin hfree _),
        if_pos hwr, BitVec.ofNat_toNat, BitVec.setWidth_eq]
    · rw [exec_windowAccessApply_read hth hrun hheld (Bool.eq_false_of_not_eq_true hwr)
        (by rw [hsize]; exact windowRead_accum hw hx hkind hin hfree), if_neg hwr, BitVec.ofNat_toNat, BitVec.setWidth_eq]
  case register =>
    exact exec_windowAccessApply_write hth hrun hheld hwr (by
      rw [if_pos haddr]
      exact windowWrite_register hw hx hkind hplace hidle _)
end

section
/-!
PROOFS. Faults resolved and refused, and what system software does with a held thread (R204-R206, R359, R363, R364).
-/

namespace Sys2Proof.Machine

open Sys2Proof

theorem exec_faultResolved (core i : Nat) (s : State) : exec (.faultResolved core i) s = execFaultResolved core i s := rfl
theorem exec_faultUnresolvable_threads (core i : Nat) (s : State) :
    exec (.faultUnresolvable .threads core i) s = .next (refuseEntry core i s) := rfl
theorem exec_trapHeld (crew lane : Nat) (s : State) : exec (.trapHeld crew lane) s = execTrapHeld crew lane s := rfl
theorem exec_trapResume (crew lane : Nat) (s : State) :
    exec (.trapResume crew lane) s = .next (heldAction crew lane .resume s) := rfl
theorem exec_trapEnd (crew lane : Nat) (s : State) : exec (.trapEnd crew lane) s = .next (heldAction crew lane .finish s) := rfl
theorem exec_trapAbort (crew lane : Nat) (s : State) :
    exec (.trapAbort crew lane) s = .next (heldAction crew lane .abort s) := rfl
theorem exec_trapEnter (crew lane : Nat) (h : BitVec 56) (s : State) :
    exec (.trapEnter crew lane h) s = .next (heldAction crew lane (.enter h) s) := rfl

/-! ### A fault that is resolved (R204, R205) -/

/-- Another thread's change leaves a thread. -/
theorem updThread_thread_other {s : State} {ci li cj lj : Nat} (h : ¬ (ci = cj ∧ li = lj)) (f : Thread → Thread) :
    (s.updThread ci li f).thread? cj lj = s.thread? cj lj := by
  simp only [State.thread?, State.lane?, State.updThread, State.updLane_crews, List.getElem?_modify]
  by_cases hc : ci = cj
  · have hl : li ≠ lj := fun hl => h ⟨hc, hl⟩
    cases s.crews[cj]? <;> simp [hc, hl]
  · simp [hc]

/-- How a thread stands that is ready to execute its word again. -/
def awake (s : State) (ci li : Nat) : RunState := if s.outstanding ci li then .waiting else .waking none

/-- From `s` to `s'` threads may have been made ready to execute their words again; memory and the fault buffers stay. -/
structure Waking (s s' : State) : Prop where
  mem : s'.mem = s.mem
  arrivals : s'.arrivals = s.arrivals
  faults : ∀ k, (s'.core k).faults = (s.core k).faults
  threads : ∀ ci li th, s.thread? ci li = some th →
    ∃ th', s'.thread? ci li = some th' ∧ th'.pc = th.pc ∧ (th'.run = th.run ∨ th'.run = awake s ci li)

namespace Waking

variable {s s' : State}

theorem refl (s : State) : Waking s s := ⟨rfl, rfl, fun _ => rfl, fun _ _ th h => ⟨th, h, rfl, .inl rfl⟩⟩

theorem awake_eq (h : Waking s s') (ci li : Nat) : awake s' ci li = awake s ci li := by
  rw [awake, awake, State.outstanding, State.outstanding, h.arrivals]

theorem trans {s'' : State} (h : Waking s s') (h' : Waking s' s'') : Waking s s'' := by
  refine ⟨h'.mem.trans h.mem, h'.arrivals.trans h.arrivals, fun k => (h'.faults k).trans (h.faults k), fun ci li th hth => ?_⟩
  obtain ⟨th', hth', hpc, hrun⟩ := h.threads ci li th hth
  obtain ⟨th'', hth'', hpc', hrun'⟩ := h'.threads ci li th' hth'
  refine ⟨th'', hth'', hpc'.trans hpc, ?_⟩
  rcases hrun' with hrun' | hrun'
  · rw [hrun']
    exact hrun
  · exact .inr (hrun'.trans (h.awake_eq ci li))

theorem wakeRetry (s : State) (ci li : Nat) : Waking s (s.wakeRetry ci li) := by
  refine ⟨rfl, rfl, fun _ => rfl, fun cj lj th hth => ?_⟩
  by_cases hsame : ci = cj ∧ li = lj
  · obtain ⟨rfl, rfl⟩ := hsame
    exact ⟨{ th with run := awake s ci li }, by rw [State.wakeRetry, updThread_thread, hth]; rfl, rfl, .inr rfl⟩
  · exact ⟨th, by rw [State.wakeRetry, updThread_thread_other hsame, hth], rfl, .inl rfl⟩

theorem updCore {f : Core → Core} (hf : ∀ co, (f co).faults = co.faults) (s : State) (k : Nat) : Waking s (s.updCore k f) :=
  ⟨rfl, rfl, part_updCore Core.faults hf s k, fun _ _ th h => ⟨th, h, rfl, .inl rfl⟩⟩

theorem grantSlots (core n : Nat) (s : State) : Waking s (State.grantSlots core n s) := by
  induction n generalizing s with
  | zero => exact refl s
  | succ n ih =>
    unfold State.grantSlots
    split
    · exact refl s
    · split
      · exact refl s
      · exact (trans (updCore (by intro; rfl) s core) (wakeRetry _ _ _)).trans (ih _)

theorem queueUnit (s : State) (ci key : Nat) : Waking s (s.queueUnit ci key) := by
  have hfreed (s : State) (core : Nat) : Waking s (s.slotsFreed core) := by
    unfold State.slotsFreed
    split
    · exact refl s
    · exact trans (updCore (by intro; rfl) s core) (grantSlots _ _ _)
  unfold State.queueUnit
  dsimp only
  split
  · exact refl s
  · exact trans (updCore (by intro; rfl) s _) (hfreed _ _)

theorem wakeWaiter (ci key : Nat) (s : State) : Waking s (wakeWaiter ci s key) := by
  unfold Machine.wakeWaiter
  split
  · split
    · exact wakeRetry s ci key
    · exact refl s
  · exact queueUnit s ci key

theorem wakeAll (ci : Nat) (keys : List Nat) (s : State) : Waking s (keys.foldl (Machine.wakeWaiter ci) s) :=
  foldl_keeps (P := Waking s) (refl s) fun key _ s' hs' => hs'.trans (wakeWaiter ci key s')

end Waking

theorem wakeWaiter_of_parked {ci key : Nat} {s : State} {th : Thread} {a : Nat} {wr : Bool} (hkey : key < 1024)
    (hth : s.thread? ci key = some th) (hrun : th.run = .parked (.fault a wr)) : wakeWaiter ci s key = s.wakeRetry ci key := by
  simp only [wakeWaiter, hkey, if_true, hth, Option.map_some, hrun]

/-- A thread that is parked on an entry executes its word again, once the entry's waiters have been woken. -/
theorem wakeAll_parked {ci key : Nat} {keys : List Nat} {s : State} {th : Thread} {a : Nat} {wr : Bool} (hmem : key ∈ keys)
    (hkey : key < 1024) (hth : s.thread? ci key = some th) (hrun : th.run = .parked (.fault a wr)) :
    ∃ th', (keys.foldl (wakeWaiter ci) s).thread? ci key = some th' ∧ th'.pc = th.pc ∧ th'.run = awake s ci key := by
  obtain ⟨before, after, rfl⟩ := List.append_of_mem hmem
  have hbefore := Waking.wakeAll ci before s
  obtain ⟨th₁, hth₁, hpc₁, hrun₁⟩ := hbefore.threads ci key th hth
  have hturn : ∃ th₂, (wakeWaiter ci (before.foldl (wakeWaiter ci) s) key).thread? ci key = some th₂ ∧ th₂.pc = th.pc ∧
      th₂.run = awake s ci key := by
    rcases hrun₁ with hrun₁ | hrun₁
    · refine ⟨{ th₁ with run := awake (before.foldl (wakeWaiter ci) s) ci key }, ?_, hpc₁, hbefore.awake_eq ci key⟩
      rw [wakeWaiter_of_parked hkey hth₁ (hrun₁.trans hrun), State.wakeRetry, updThread_thread, hth₁]
      rfl
    · obtain ⟨th₂, hth₂, hpc₂, hrun₂⟩ := (Waking.wakeWaiter ci key (before.foldl (wakeWaiter ci) s)).threads ci key th₁ hth₁
      refine ⟨th₂, hth₂, hpc₂.trans hpc₁, ?_⟩
      rcases hrun₂ with hrun₂ | hrun₂
      · exact hrun₂.trans hrun₁
      · exact hrun₂.trans (hbefore.awake_eq ci key)
  obtain ⟨th₂, hth₂, hpc₂, hrun₂⟩ := hturn
  have hwaking := hbefore.trans (Waking.wakeWaiter ci key _)
  obtain ⟨th₃, hth₃, hpc₃, hrun₃⟩ := (Waking.wakeAll ci after _).threads ci key th₂ hth₂
  rw [List.foldl_append, List.foldl_cons]
  refine ⟨th₃, hth₃, hpc₃.trans hpc₂, ?_⟩
  rcases hrun₃ with hrun₃ | hrun₃
  · exact hrun₃.trans hrun₂
  · exact hrun₃.trans (hwaking.awake_eq ci key)

theorem exec_faultResolved_of_entry {core i : Nat} {s : State} {e : FaultEntry} {cr : Crew} (hcore : core < s.cores.length)
    (he : (s.core core).faults[i]? = some e) (hcr : s.crews[e.crew]? = some cr) (hfill : e.fill = none)
    (hx : ∀ a w, s.xlat cr.part (65536 * e.page) { write := e.write, device := true } ≠ .fault a w) :
    ∃ t, exec (.faultResolved core i) s = .next t ∧ t.mem = s.mem ∧
      (t.core core).faults[i]? = some { e with fill := some (fillBlocks s cr e) } ∧
      ∀ w ∈ e.waiters, w.key < 1024 → ∀ th a wr, s.thread? e.crew w.key = some th → th.run = .parked (.fault a wr) →
        ∃ th', t.thread? e.crew w.key = some th' ∧ th'.pc = th.pc ∧
          th'.run = if s.outstanding e.crew w.key then .waiting else .waking none := by
  let s1 := s.updCore core fun co => { co with faults := co.faults.set i { e with fill := some (fillBlocks s cr e) } }
  have hwake := Waking.wakeAll e.crew (e.waiters.map FaultWaiter.key) s1
  have hi := (List.getElem?_eq_some_iff.mp he).1
  refine ⟨(e.waiters.map FaultWaiter.key).foldl (wakeWaiter e.crew) s1, ?_, hwake.mem, ?_, fun w hw hkey th a wr hth hrun => ?_⟩
  · rw [exec_faultResolved, execFaultResolved, he]
    simp only [hcr, hfill, Option.isSome_none, Bool.false_eq_true, if_false]
    rfl
  · rw [hwake.faults, core_updCore, if_pos ⟨rfl, hcore⟩]
    exact List.getElem?_set_self hi
  · exact wakeAll_parked (s := s1) (List.mem_map_of_mem hw) hkey hth hrun

/-- A resolution delivers each block that a waiter's access meets. -/
theorem mem_fillBlocks {s : State} {cr : Crew} {e : FaultEntry} {w : FaultWaiter} {g : Page} (hw : w ∈ e.waiters)
    (hx : s.xlat cr.part (64 * (w.addr / 64)) { device := true } = .ok g)
    (hread : e.write = true ∨ s.poisonedOn (dieOf cr.core) g 64 = false) :
    ∃ f ∈ fillBlocks s cr e, f.block = w.addr / 64 ∧ f.page = g ∧
      (e.write = false → f.bytes = s.physRead (dieOf cr.core) g 64 ∧ f.desc = s.descAt g) := by
  have hblock : w.addr / 64 ∈ (e.waiters.map fun w => w.addr / 64).dedup :=
    List.mem_dedup.mpr (List.mem_map.mpr ⟨w, hw, rfl⟩)
  cases hwr : e.write with
  | true =>
    exact ⟨⟨w.addr / 64, g, [], 0, []⟩, List.mem_filterMap.mpr ⟨_, hblock, by simp only [hx, hwr, if_true]⟩, rfl, rfl,
      fun h => absurd h (by decide)⟩
  | false =>
    have hpois := hread.resolve_left (by rw [hwr]; decide)
    exact ⟨⟨w.addr / 64, g, s.physRead (dieOf cr.core) g 64, s.descAt g, s.codeRead e.crew (dieOf cr.core) g 64⟩,
      List.mem_filterMap.mpr ⟨_, hblock, by simp only [hx, hwr, hpois, Bool.false_eq_true, if_false]⟩, rfl, rfl,
      fun _ => ⟨rfl, rfl⟩⟩

/-! ### A fault declared unresolvable (R206) -/

theorem refuseEntry_of_one {core i : Nat} {s : State} {e : FaultEntry} {li a : Nat} {pr : Bool} {th : Thread} {b : Nat} {wr : Bool}
    (he : (s.core core).faults[i]? = some e) (hfill : e.fill = none) (hw : e.waiters = [⟨li, a, pr⟩]) (hli : li < 1024)
    (hth : s.thread? e.crew li = some th) (hrun : th.run = .parked (.fault b wr)) (hqueue : (s.core core).faultQueue = []) :
    refuseEntry core i s =
      (s.updCore core fun co => { co with faults := co.faults.eraseIdx i }).updThread e.crew li fun t =>
        t.takeTrap (.fault (if pr then 3 else 2)) (BitVec.ofNat 56 a) t.cont := by
  have hparked : ((s.updCore core fun co => { co with faults := co.faults.eraseIdx i }).thread? e.crew li).map Thread.run =
      some (.parked (.fault b wr)) := (congrArg (Option.map Thread.run) hth).trans (congrArg some hrun)
  have hempty : (((s.updCore core fun co => { co with faults := co.faults.eraseIdx i }).updThread e.crew li fun t =>
      t.takeTrap (.fault (if pr then 3 else 2)) (BitVec.ofNat 56 a) t.cont).core core).faultQueue = [] :=
    (part_updCore Core.faultQueue (by intro; rfl) s core core).trans hqueue
  simp only [refuseEntry, he, hfill, Option.isSome_none, Bool.false_eq_true, if_false, hw, List.foldl_cons, List.foldl_nil, hli,
    if_true, refuseThread, hparked]
  rw [State.admitAll, show FaultWaiter.cause ⟨li, a, pr⟩ = if pr then 3 else 2 from rfl, hempty]
  rfl

/-! ### A held thread (R359, R363, R364) -/

theorem exec_trapHeld_of_trapping {crew lane : Nat} {s : State} {th : Thread} {cr : Crew} {r : TrapRec}
    (hth : s.thread? crew lane = some th) (hcr : s.crews[crew]? = some cr) (htrap : th.trap = some r) (hrun : th.run = .trapping)
    (hout : s.outstanding crew lane = false) : exec (.trapHeld crew lane) s =
      .next (trapReport cr.part (heldReport cr th r) (s.updThread crew lane fun t => { t with run := .held })) := by
  simp only [exec_trapHeld, execTrapHeld, hth, hcr, htrap, hrun, hout, ne_eq, not_true_eq_false, Bool.false_eq_true, or_self,
    if_false]

section
variable {crew lane : Nat} {s : State} {th : Thread} {cr : Crew} (hth : s.thread? crew lane = some th)
  (hcr : s.crews[crew]? = some cr) (hres : cr.status = .resident)
include hth hcr hres

/-- A held thread of a crew that no pre-emption stops stands on its core. -/
theorem heldAt_core (hpre : cr.preempt = none) (hrun : th.run = .held) : heldAt s crew lane = .core th := by
  have hstop : cr.stopping = false := by rw [Crew.stopping, hpre]; rfl
  simp only [heldAt, hcr, hres, hth, hstop, Bool.false_eq_true, if_false, hrun, if_true]

/-- One of a crew that is being pre-empted is acted on later. -/
theorem heldAt_later {p : Preempt} {r : TrapRec} (hpre : cr.preempt = some p) (hask : p.asked = false)
    (hrun : th.run = .held ∨ th.run = .saved) (htrap : th.trap = some r) (hheld : r.held = true) :
    heldAt s crew lane = .later := by
  have hstop : cr.stopping = true := by rw [Crew.stopping, hpre, Option.any_some, hask]; rfl
  have hany : (th.trap.any fun r => r.held) = true := by rw [htrap]; exact hheld
  simp only [heldAt, hcr, hres, hth, hstop, if_true]
  exact if_pos ⟨hrun, hany⟩

variable (hpre : cr.preempt = none) (hrun : th.run = .held)
include hpre hrun

theorem heldAction_resume : heldAction crew lane .resume s =
    s.updThread crew lane fun t => { t with trap := none, run := .waking none } := by
  simp only [heldAction, heldAt_core hth hcr hres hpre hrun, hcr]

theorem heldAction_finish : heldAction crew lane .finish s = s.endThread crew lane := by
  simp only [heldAction, heldAt_core hth hcr hres hpre hrun, hcr]

theorem heldAction_abort : heldAction crew lane .abort s = s.removeGrid cr.grid := by
  simp only [heldAction, heldAt_core hth hcr hres hpre hrun, hcr]

theorem heldAction_enter (h : BitVec 56) (hdepth : th.depth < 16) : heldAction crew lane (.enter h) s =
    s.updThread crew lane fun t => { t with
      stack := t.stack.set t.depth (t.pc.zeroExtend 64)
      depth := t.depth + 1
      pc := h
      run := .waking none
      trap := t.trap.map fun r => { r with held := false } } := by
  have hpush : ¬ th.depth ≥ Config.callDepth := Nat.not_le.mpr hdepth
  simp only [heldAction, heldAt_core hth hcr hres hpre hrun, hcr, Thread.enter, Thread.push, hpush, if_false, Option.map_some]
  exact updThread_congr hth rfl

theorem heldAction_enter_full (h : BitVec 56) (hdepth : 16 ≤ th.depth) : heldAction crew lane (.enter h) s = s := by
  have hpush : th.depth ≥ Config.callDepth := hdepth
  simp only [heldAction, heldAt_core hth hcr hres hpre hrun, hcr, Thread.enter, Thread.push, hpush, if_true, Option.map_none]

end

theorem heldAction_later {crew lane : Nat} {s : State} {cr : Crew} (act : HeldAction) (hat : heldAt s crew lane = .later)
    (hcr : s.crews[crew]? = some cr) (hone : ∀ x ∈ s.trapActions, ¬(x.crew = crew ∧ x.lane = lane)) :
    heldAction crew lane act s = { s with trapActions := s.trapActions ++ [⟨crew, lane, act⟩] } := by
  have hnone : (s.trapActions.any fun x => x.crew == crew && x.lane == lane) = false := by
    rw [List.any_eq_false]
    intro x hx
    simpa using hone x hx
  simp only [heldAction, hat, hcr, hnone, Bool.false_eq_true, if_false]

/-! ### The end of a thread, and of its grid (R183, R187, R337) -/

/-- One element that no longer counts. -/
theorem length_filter_modify {α : Type} {p : α → Bool} {f : α → α} {l : List α} {i : Nat} {x : α} (h : l[i]? = some x)
    (hp : p x = true) (hf : p (f x) = false) : ((l.modify i f).filter p).length + 1 = (l.filter p).length := by
  induction l generalizing i with
  | nil => cases h
  | cons y l ih =>
    cases i with
    | zero =>
      obtain rfl : y = x := Option.some.inj h
      simp [hp, hf]
    | succ i =>
      have hrest := ih h
      rw [List.modify_succ_cons]
      cases hy : p y <;> simp [hy, hrest]

theorem endThread_crew {ci li : Nat} {s : State} {cr : Crew} {th : Thread} (hcr : s.crews[ci]? = some cr)
    (hth : s.thread? ci li = some th) : ∃ cr' l, (s.endThread ci li).crews[ci]? = some cr' ∧ cr'.lanes[li]? = some l ∧
      l.occ = .exited th.tid ∧ cr'.live + 1 = cr.live ∧
      (∀ k < 12, ∀ m, cr.masks[12 * (li / 16) + k]? = some m → ∃ m', cr'.masks[12 * (li / 16) + k]? = some m' ∧
        ∀ j < 16, m'.getLsbD j = (m.getLsbD j && decide (j ≠ li % 16))) := by
  rw [State.thread?, State.lane?, hcr, Option.bind_some] at hth
  obtain ⟨l, hl, hlth⟩ := Option.bind_eq_some_iff.mp hth
  have hocc : l.occ = .thread th := by
    cases h : l.occ <;> simp [Lane.thread?, h] at hlth
    rw [hlth]
  have hexit : l.exit.occ = .exited th.tid := by simp only [Lane.exit, hocc]
  refine ⟨{ cr with lanes := cr.lanes.modify li Lane.exit, masks := clearPlace cr.masks li }, l.exit, ?_, ?_, hexit, ?_,
    fun k hk m hm => ⟨m &&& ~~~BitVec.ofNat 16 (2 ^ (li % 16)), ?_, fun j hj => ?_⟩⟩
  · rw [State.endThread, State.updCrew_crews, List.getElem?_modify_eq, hcr]
    rfl
  · rw [List.getElem?_modify_eq, hl]
    rfl
  · exact length_filter_modify hl (by rw [hlth]; rfl) (by rw [Lane.thread?, hexit]; rfl)
  · have hgroup : (12 * (li / 16) + k) / 12 = li / 16 := by omega
    rw [clearPlace, List.getElem?_mapIdx, hm, Option.map_some, if_pos hgroup]
  · rw [getLsbD_clearBit _ _ hj, ← decide_not, decide_eq_decide.mpr (not_congr eq_comm)]

theorem removeGrid_crew {gi i : Nat} {s : State} {cr : Crew} (hcr : s.crews[i]? = some cr) (hgrid : cr.grid = gi)
    (hres : cr.status = .resident) :
    ∃ cr', (s.removeGrid gi).crews[i]? = some cr' ∧ ∃ p, cr'.preempt = some p ∧ p.discard = true ∧ p.forced = true := by
  refine ⟨{ cr with preempt := some ⟨(s.core cr.core).lclk.toNat, none, true, true, false, true⟩ }, ?_, _, rfl, rfl, rfl⟩
  have hcrews : (s.updGrid gi fun g => if g.status = .live ∨ g.status = .waiting then { g with status := .removed } else g).crews =
      s.crews := rfl
  simp only [State.removeGrid, State.dropGrid, hcrews, List.getElem?_map, hcr, Option.map_some, hgrid, hres, ne_eq,
    not_true_eq_false, if_false, if_true]
  rfl

end Sys2Proof.Machine

open Sys2Proof Sys2Proof.Machine

/-- Settles O36: the waiters of a resolved entry are woken one after another, and each action on a held thread is one equation
of `heldAction`. -/
theorem faultAndTrapEvents : Obligations.FaultAndTrapEvents := by
  unfold Obligations.FaultAndTrapEvents
  refine ⟨fun core i s e cr hcore he hcr hfill hx => exec_faultResolved_of_entry hcore he hcr hfill hx,
    fun s cr e w g hw hx hread => mem_fillBlocks hw hx hread,
    fun core i s e li a pr th b wr hcore he hfill hw hli hth hrun hqueue => ?refused,
    fun t tr a pc => ⟨rfl, rfl, rfl, rfl, rfl, rfl⟩,
    fun crew lane s th cr r hth hcr htrap hrun hout => exec_trapHeld_of_trapping hth hcr htrap hrun hout,
    fun crew lane s th cr hth hcr hres hpre hrun => ?held,
    fun crew lane s th cr p r act hth hcr hres hpre hask hrun htrap hheld hone i hi => ?later,
    fun ci li s cr th hcr hth => endThread_crew hcr hth, fun gi s i cr hcr hgrid hres => removeGrid_crew hcr hgrid hres⟩
  case refused =>
    rw [exec_faultUnresolvable_threads, refuseEntry_of_one he hfill hw hli hth hrun hqueue]
  case held =>
    refine ⟨?_, ?_, ?_, fun h hdepth => ?_, fun h hdepth => ?_⟩
    · rw [exec_trapResume, heldAction_resume hth hcr hres hpre hrun]
    · rw [exec_trapEnd, heldAction_finish hth hcr hres hpre hrun]
    · rw [exec_trapAbort, heldAction_abort hth hcr hres hpre hrun]
    · rw [exec_trapEnter, heldAction_enter hth hcr hres hpre hrun h hdepth]
    · rw [exec_trapEnter, heldAction_enter_full hth hcr hres hpre hrun h hdepth]
  case later =>
    have hwaits := heldAction_later act (heldAt_later hth hcr hres hpre hask hrun htrap hheld) hcr hone
    rcases hi with ⟨rfl, rfl⟩ | ⟨rfl, rfl⟩ | ⟨rfl, rfl⟩ | ⟨h, rfl, rfl⟩
    · rw [exec_trapResume, hwaits]
    · rw [exec_trapEnd, hwaits]
    · rw [exec_trapAbort, hwaits]
    · rw [exec_trapEnter, hwaits]
end
